-- ==== Sys2Proof/Word.lean ====
section
/-! DEFINITION. The word types and the plainest data of the model: bytes, 32-bit registers, F16 patterns, sparse
maps, exact dyadic numbers and the formats of R136. Operations on them stand in Machine/. -/
namespace Sys2Proof

/-- One byte (R3). -/
abbrev Byte := BitVec 8
/-- One control-window register (R4). -/
abbrev Word := BitVec 32
/-- The bit pattern of an F16 value (R137). -/
abbrev F16 := BitVec 16

/-- Sparse storage: pairs of a key and a value, keys strictly rising, no pair equal to what an unlisted key reads as. -/
abbrev SMap (α : Type) := List (Nat × α)

/-- The formats of R136 that a tensor can be stored in, in the code order of the fmt field of R148. -/
inductive Fmt where
  | f16 | f8a | f8b | a4 | a8
  deriving DecidableEq, Repr

/-- An exact dyadic number m × 2^e. -/
structure Dy where
  m : Int
  e : Int
  deriving DecidableEq, Repr

/-- What a stored element stands for: a NaN, an infinity of a sign, or an exact finite value with the sign of a zero. -/
inductive FV where
  | nan
  | inf (neg : Bool)
  | fin (neg : Bool) (m : Nat) (e : Int)
  deriving DecidableEq, Repr

end Sys2Proof
end

