-- ==== Sys2Proof/Syntax.lean ====
section
/-! DEFINITION. The commands of the block: one constructor per row of the opcode table, with the row's operands. A slot word is
carried by its place, the segment it belongs to, and the fields of R45 that its unit and class do not already name. What the
outside world supplies (received flits, readings, results of a test, flash contents) is an operand of its command. -/
namespace Sys2Proof

/-- Where a slot word belongs: a logical cell of a die, or the link unit of a logical port (R483). -/
inductive Place where
  | cell (die : Fin 4) (cell : Fin 256)
  | port (port : Fin 47)
  deriving DecidableEq, Repr

/-- A slot word of R45 without its unit and class: place, training or evaluation segment, tick_delta, flags, operands. -/
structure Slot where
  place : Place
  evalSeg : Bool
  delta : BitVec 16
  flags : BitVec 8
  ops : BitVec 96
  deriving DecidableEq, Repr

/-- Who makes a control-window access (R36, R461). -/
inductive Source where
  | host | tinker | mgmt | dwi
  deriving DecidableEq, Repr

/-- A pending request of an asynchronous agent at one pseudo-channel (R258): lines left in all and in the current row
segment, the bank, whether it writes, whether it writes lines in part (R242), and whether the next line is ready (R262). -/
structure Req where
  agent : Fin 6
  lines : Nat
  segment : Nat
  bank : Fin 16
  row : BitVec 16
  write : Bool
  partLine : Bool
  ready : Bool
  deriving DecidableEq, Repr

/-- What an error changed in one of the values that a unit wrote on a tick (R333): which value, and its flipped bits. -/
structure Upset where
  index : Nat
  bits : BitVec 16
  deriving DecidableEq, Repr

/-- What a link slot brought beside its tag (R272, R274, R293): whether the tag is of an overlapped codeword, the byte of a barrier flit,
and the symbols that the code corrected, by lane. -/
structure SlotNews where
  overlapped : Bool
  bar : Option Byte
  fixed : List (Fin 9 × Fin 16)
  deriving DecidableEq, Repr

/-- Where a frame arrived: the host or management port, of `n` ports, and its 802.1Q tag, 0 for none (R307). -/
structure Arrival (n : Nat) where
  port : Fin n
  vlan : BitVec 16
  deriving DecidableEq, Repr

/-- A parcel of R300: its header fields and the bytes of its data flits. -/
structure Parcel where
  dst : BitVec 16
  src : BitVec 16
  agent : Byte
  flits : Nat
  seq : BitVec 32
  digest : List Byte
  payload : List Byte
  deriving DecidableEq, Repr

/-- What one regulator returned in a telemetry cycle (R395). -/
structure Reading where
  device : Fin 8
  vin : BitVec 16
  vout : BitVec 16
  iout : BitVec 16
  temp : BitVec 16
  pout : BitVec 16
  status : BitVec 16
  deriving DecidableEq, Repr

/-- The commands, in the order of the opcode table. -/
inductive Instr where
  /-- A HOLD slot word of any unit issues; it performs nothing and only anchors the next tick_delta (R46). -/
  | hold (head : BitVec 8) (w : Slot)
  /-- An ARR EVAL word evaluates one array on an A4 input in up to four phases and sends corrected F16 results into an accumulator tile (R84). -/
  | eval (w : Slot)
  /-- An ARR EVAL8 word evaluates an A8 input in two nibble passes and sends one combined F16 result per column into a tile (R73). -/
  | eval8 (w : Slot)
  /-- An ARR ASSAY word reserves a 1,024-tick assay slot and recalibrates column gain and offset when a trigger is pending (R108). -/
  | assay (w : Slot)
  /-- An ARR WRITE word compares a column block with new codes and exponent, and programs and verifies it when it has changed (R88). -/
  | write (w : Slot)
  /-- An ARR SWEEP word reads back and checks every data column of an array and runs four pattern evaluates (R91). -/
  | sweep (w : Slot)
  /-- An ARR REPLAY word applies the correction arithmetic to the next captured code record instead of evaluating (R93). -/
  | replay (w : Slot)
  /-- An ACC CLEAR word zeroes a sum tile and its fold tiles and binds tid, ebase, ovf and hk to it (R127). -/
  | clear (w : Slot)
  /-- An ACC PRELOAD word loads a tile's running values from scratchpad and binds it like CLEAR (R127). -/
  | preload (w : Slot)
  /-- An ACC DRAIN word waits for the adder tree to empty, combines fold levels and writes the tile to scratchpad (R131). -/
  | drain (w : Slot)
  /-- An ACC DRAINCLR word drains a tile like DRAIN and clears it while keeping its binding (R131). -/
  | drainclr (w : Slot)
  /-- An ANV STAGE word loads a 64 x 64 operand block from scratchpad into an Anvil buffer, transposed if asked (R164). -/
  | stage (w : Slot)
  /-- An ANV GEMM word multiplies two staged blocks, rounds the exact sums once and opens an output chain (R165). -/
  | gemm (w : Slot)
  /-- An ANV GEMMACC word adds the next K-block's product into an open output chain, writing the block out when wr is set (R166). -/
  | gemmacc (w : Slot)
  /-- A BUR CHAIN word applies a fused program of up to eight stages to every live lane of a tensor (R189). -/
  | chain (w : Slot)
  /-- A BUR PERMUTE word writes each output element from a source element chosen by an index tensor within the row (R199). -/
  | permute (w : Slot)
  /-- A BUR GATHER word writes output rows from source rows selected by an index tensor (R200). -/
  | gather (w : Slot)
  /-- A BUR REDUCE word forms one exact row sum, sum of squares, maximum, minimum or largest magnitude per row (R202). -/
  | reduce (w : Slot)
  /-- A BUR SOFTMAX word computes the masked soft maximum of each row in three passes (R204). -/
  | softmax (w : Slot)
  /-- A BUR UPDATE word updates one array's master weights, moments and statistics, writes W4 codes and a ledger entry (R228). -/
  | update (w : Slot)
  /-- A MOV COPY word moves scratchpad lines to a cell of the same die over the mesh (R481). -/
  | copy (w : Slot)
  /-- A MOV LOAD word reads DRAM lines into scratchpad in reserved memory slots (R247). -/
  | load (w : Slot)
  /-- A MOV STORE word writes scratchpad lines to DRAM in reserved memory slots (R247). -/
  | movStore (w : Slot)
  /-- A MOV BRIDGE word copies scratchpad lines to a cell on another compute die over sprue bridges (R482). -/
  | bridge (w : Slot)
  /-- A MOV CAPTURE word moves units from capture ring 63 to the DRAM capture ring (R234). -/
  | capture (w : Slot)
  /-- An LNK SEND word transmits data flits from a cell's scratchpad in its port's link slots (R287). -/
  | send (w : Slot)
  /-- An LNK RECV word receives the partner's flits into scratchpad, in place or by adding (R288). -/
  | recv (w : Slot) (flits : List (Option (List Byte)))
  /-- An LNK RELAY word forwards flits that arrived on another port without touching scratchpad (R290). -/
  | relay (w : Slot) (flits : List (Option (List Byte)))
  /-- An LNK BARRIER word combines the package's barrier byte by OR over bench, forge or job in up to three stages (R293). -/
  | barrier (w : Slot)
  /-- A write of SCH_CTRL.load starts reading, checking, copying and hashing a casting image (R40). -/
  | castingLoad (src : Source)
  /-- The image reads finish and the load ends in LOADED with the casting hash, or in REJECTED with a code (R40). -/
  | castingLoadComplete
  /-- A write of SCH_CTRL.arm starts step 0 at the start tick, or is refused with the state left LOADED (R66). -/
  | arm (src : Source)
  /-- A write of SCH_CTRL.halt stops issue on the next tick without a fault and sets HALTED (R66). -/
  | halt (src : Source)
  /-- A step period starts with its load window: segments bound, map changes applied, tables copied, counters cleared and checks made (R42). -/
  | loadWindow
  /-- On the veto point's result tick the combined barrier byte decides rewind, skip, fault or update (R220). -/
  | vetoResult (others : Byte)
  /-- On the commit point's result tick the combined byte decides commit, taint rewind, skip or fault (R221). -/
  | commitResult (others : Byte)
  /-- A step period ends; its step log entry is written and a missing barrier result faults the job (R487). -/
  | stepPeriodEnd
  /-- The asynchronous step-record write of a committed buffer completes and sets rec_ok (R218). -/
  | stepRecordComplete (buf : Fin 2)
  /-- The hallmark verdict of one of the values that a unit wrote on a tick arrives, and a mismatch taints the step (R335); `upset` is what
an error has changed in it. -/
  | hallmarkVerdict (unit : Fin 7) (place : Place) (written : BitVec 64) (upset : Upset)
  /-- A wake-table WAKE entry starts bringing a cell to RUN (R59). -/
  | wake (die : Fin 4) (cell : Fin 256) (at_ : BitVec 32)
  /-- A waking cell reaches RUN 64 ticks after its WAKE or after a latched shut-down (R59). -/
  | cellInRun (die : Fin 4) (cell : Fin 256)
  /-- A wake-table DOZE entry starts shutting a cell down (R59). -/
  | doze (die : Fin 4) (cell : Fin 256) (at_ : BitVec 32)
  /-- A cell's shut-down completes 40 ticks after its DOZE entry, and any latched wake then starts (R60). -/
  | dozeComplete (die : Fin 4) (cell : Fin 256)
  /-- A wake-table DIE_UP entry locks the die's PLL (R399). -/
  | dieUp (die : Fin 4) (at_ : BitVec 32)
  /-- A wake-table DIE_REST entry stops the die's PLL when every cell dozes (R399). -/
  | dieRest (die : Fin 4) (at_ : BitVec 32)
  /-- 24,576 ticks before every load window the part brings up every resting die by itself (R399). -/
  | dieAutoUp
  /-- The due calibrating slice of an array changes and one conversion group moves to the neighbouring slice (R98). -/
  | sliceHandoff (die : Fin 4) (cell : Fin 256) (array : Fin 64) (passed : Bool)
  /-- A WRITE's verify completes and its pass or fail is recorded at T + 128 (R89). -/
  | writeVerdict (die : Fin 4) (cell : Fin 256) (array : Fin 64)
  /-- A SWEEP completes at T + 256 and reports every failing column (R91). -/
  | sweepVerdict (die : Fin 4) (cell : Fin 256) (array : Fin 64)
  /-- At T + 1,024 of a recalibrating ASSAY the new trim set comes into force and the generation advances (R112). -/
  | trimSetInForce (die : Fin 4) (cell : Fin 256) (array : Fin 64)
  /-- The port arbiter decides an offered memory slot by the fullest-counter rule and grants lines to an agent (R260). -/
  | arbitrationPoint (stack : Fin 8) (pc : Fin 64) (slot : BitVec 32) (reqs : List Req)
  /-- A bank's refresh interval expires and its refresh waits for a REF slot naming it (R249). -/
  | bankRefreshDue (stack : Fin 8) (pc : Fin 64) (bank : Fin 16)
  /-- A refresh due for four intervals is forced into the next slot and raises MSLOT (R250). -/
  | forcedRefresh (stack : Fin 8) (pc : Fin 64) (bank : Fin 16) (slot : BitVec 32)
  /-- The scrub agent reads a line and rewrites it when corrected (R256). -/
  | scrub (line : BitVec 33)
  /-- Every 100 us the controller reads each stack's temperature and sets its stretch request and refresh rate (R264). -/
  | stackTempReadout (temps : List (Option (BitVec 8)))
  /-- A link slot's tag is received and its poison, fault, stretch request, hold and ratio are taken in (R272). -/
  | slotTag (port : Fin 47) (tag : BitVec 24) (news : SlotNews)
  /-- An uncorrectable fabric codeword is counted and taints the step when it covers a scheduled flit (R274). -/
  | uncorrectableCodeword (phys : Fin 48) (scheduled parcel : Bool)
  /-- A BEACON control flit is received and used for discovery and delay measurement (R278). -/
  | beacon (phys : Fin 48) (flit : List Byte)
  /-- Every 1 ms an UP port sends a BEACON flit (R278). -/
  | beaconTimer (phys : Fin 48)
  /-- A LOCK control flit with send and echo counts is received for time-base lock (R283). -/
  | lock (phys : Fin 48) (sent echo : BitVec 64) (offset : BitVec 16)
  /-- A works MARK flit is received with the window's barrier bytes and freed ring units (R295). -/
  | mark (forge : Fin 96) (window : BitVec 44) (veto commit : Byte) (freed : List Nat)
  /-- A LANE flit requests or acknowledges moving a lane's stream to the spare wavelength (R275). -/
  | lane (phys : Fin 48) (lane : Fin 9) (count : BitVec 64) (ack : Bool)
  /-- A lane loses light or exceeds its corrected-symbol threshold and the receiver sends a LANE request (R275). -/
  | laneDegraded (phys : Fin 48) (lane : Fin 9) (dark : Bool)
  /-- At the named mandrel count both ends move the lane's codewords to lane 8 (R275). -/
  | laneSwap (phys : Fin 48)
  /-- A HOLD control flit carries hold status or the release during a window hold (R298). -/
  | holdFlit (phys : Fin 48) (status : BitVec 2) (fault : Bool) (release : Option (BitVec 64))
  /-- The mandrel count reaches the release value and the forge leaves its hold (R298). -/
  | holdRelease
  /-- A DIM control flit announces that the sender will darken the port by plan (R281). -/
  | dim (phys : Fin 48)
  /-- A CREDIT control flit returns parcel buffer credits (R300). -/
  | credit (phys : Fin 48) (n : Fin 65)
  /-- A port loses light without DIM and goes DARK (R281). -/
  | lossOfLight (phys : Fin 48)
  /-- A port's training sequence starts after power-up, wake or the 100 ms retry (R277). -/
  | portTraining (phys : Fin 48)
  /-- A training stage completes or overruns its limit, moving the port on, to UP, MISWIRED or back to DARK (R277). -/
  | trainingStageEnd (phys : Fin 48) (ok : Bool)
  /-- Every 100 ms a port that is not UP starts training again (R277). -/
  | trainingRetry (phys : Fin 48)
  /-- At a stretch boundary each package applies the combined level and takes its local level as held level (R294). -/
  | stretchBoundary
  /-- Halfway to the next boundary the held stretch level and hold bit are frozen (R294). -/
  | stretchHalfway
  /-- A works window boundary sends MARKs and holds the forge if a needed MARK is missing (R297). -/
  | windowBoundary
  /-- A parcel is received, stored and forwarded toward its destination or dropped without a route (R300). -/
  | parcel (phys : Fin 48) (p : Parcel) (bad : Bool)
  /-- A DATA parcel of an ingot image is received into a guest slot or mould (R367). -/
  | data (p : Parcel)
  /-- An ACK parcel reports the buddy's progress, held, refused or digest status and its feed (R366). -/
  | ack (p : Parcel)
  /-- A CALL parcel reaches the warden, which may send a TAKE (R362). -/
  | call (p : Parcel)
  /-- A TAKE parcel gives a package its ingot target rng_step and is spread onward (R362). -/
  | take (p : Parcel)
  /-- A FETCH parcel asks a holder to send its guest image of a role and version (R375). -/
  | fetch (p : Parcel)
  /-- The ingot copy into the mould completes and the buddy or host stage starts (R364). -/
  | mouldComplete
  /-- 2 ms without progress makes the sender resend, and 16 in a row fail the buddy stage (R366). -/
  | buddyTimeout
  /-- While parcels arrive the receiver sends an ACK at least every 100 us (R366). -/
  | buddyAckTimer
  /-- ING_AGE reaches call_s and the package calls for an ingot (R361). -/
  | ingotAgeCall
  /-- ING_AGE reaches max_s and the part flags the ingot overdue (R372). -/
  | ingotOverdue
  /-- Every gap_s seconds a standing call is repeated to the warden (R361). -/
  | callRepeat
  /-- A TAKE sender repeats its parcels at 1 ms intervals (R362). -/
  | takeRepeat
  /-- A write of ING_CTRL.call calls for an ingot (R361). -/
  | ingCall (src : Source)
  /-- A write of ING_CTRL.restore checks the mould image and restores version V (R375). -/
  | ingRestore (src : Source)
  /-- A write of ING_CTRL.fetch sends a FETCH to the holder to fill the mould (R375). -/
  | ingFetch (src : Source)
  /-- A write of ING_CTRL.abandon abandons the ingot in progress (R371). -/
  | ingAbandon (src : Source)
  /-- A write of ING_CTRL.purge invalidates mould, guest slots and targets (R374). -/
  | purge (src : Source)
  /-- Host software writes the serial of the ingot it has made durable (R370). -/
  | ingHostAck (src : Source) (serial : Word)
  /-- A tally READ request reads words of the control window and is answered (R448). -/
  | tallyRead (msg : List Byte)
  /-- A tally WRITE request writes words of the control window and is answered (R448). -/
  | tallyWrite (msg : List Byte)
  /-- A management wake frame matching the package wakes it from BANK or QUENCH, or is only counted in RUN (R451). -/
  | wakeFrame (addr : BitVec 16)
  /-- A DWI WAKE frame matching the package latches a level wake (R454). -/
  | dwiWake (addr : BitVec 16)
  /-- A DWI READ frame makes the addressed package return one register word (R454). -/
  | dwiRead (addr : BitVec 16) (offset : BitVec 18)
  /-- A target waits more than 10 ms for a handshake step and drops the frame (R456). -/
  | dwiTimeout
  /-- An ARP request for the part's own address is answered (R308). -/
  | arpRequest (at_ : Arrival 4) (target : BitVec 32) (sender : List Byte)
  /-- An IPv6 Neighbour Solicitation for an own address is answered (R308). -/
  | neighbourSolicitation (at_ : Arrival 5) (target : BitVec 128) (sender : List Byte)
  /-- An ICMPv4 or ICMPv6 echo request is answered (R308). -/
  | icmpEchoRequest (at_ : Arrival 5) (v6 : Bool) (target : BitVec 128) (payload : List Byte)
  /-- Any other received frame is discarded and counted (R308). -/
  | frameDiscard (port : Fin 5) (unsup : Bool) (qp : Option (Fin 8192)) (psn : BitVec 24)
  /-- A SEND packet on a mailbox QP is placed in the next free mailbox entry (R320). -/
  | mailboxSend (qp : Fin 8192) (psn : BitVec 24) (ce : Bool) (payload : List Byte)
  /-- An RDMA WRITE packet is key-checked and placed in DRAM or the control window (R315). -/
  | rdmaWrite (qp : Fin 8192) (psn : BitVec 24) (ce : Bool) (rkey : Word) (va : BitVec 64) (payload : List Byte)
  /-- An RDMA READ request is key-checked and answered with response packets (R315). -/
  | rdmaReadRequest (qp : Fin 8192) (psn : BitVec 24) (ce : Bool) (rkey : Word) (va : BitVec 64) (len : BitVec 32)
  /-- An Acknowledge, NAK or RNR NAK is received for the part's own requests (R313). -/
  | acknowledge (qp : Fin 8192) (psn : BitVec 24) (syndrome : Byte)
  /-- A received CNP lowers the QP's rate and raises its alpha (R328). -/
  | congestionNotification (qp : Fin 8192)
  /-- A missing acknowledgement's timeout expires and the part retransmits or gives up (R313). -/
  | retransmitTimeout (qp : Fin 8192)
  /-- 2 us pass and the coalesced acknowledgement is sent (R313). -/
  | ackCoalesceTimer (qp : Fin 8192)
  /-- 55 us without a CNP decays alpha and raises the QP's rate (R328). -/
  | rateIncreaseTimer (qp : Fin 8192)
  /-- A mailbox NOP command completes with no effect (R319). -/
  | nop
  /-- A mailbox SREG_WRITE writes a scalar register at once or waits for its at_step (R321). -/
  | sregWrite
  /-- A mailbox SREG_READ returns the register of the lowest named group (R319). -/
  | sregRead
  /-- A write of HST_MBOX_PROD posts mailbox entries written through the control window (R320). -/
  | hstMboxProdWrite (src : Source) (v : Word)
  /-- A write of HST_OWNER resets every QP, invalidates regions and clears the mailbox (R329). -/
  | hstOwnerWrite (src : Source) (v : Word)
  /-- A write of HST_QP_CTX0.state moves a QP between its states (R312). -/
  | qpStateWrite (src : Source) (v : Word)
  /-- A write to HST_MR_SEL, HST_QP_SEL or HST_PEER_SEL selects an entry from the next always-on cycle (R331). -/
  | hstSelectionWrite (src : Source) (which : Fin 3) (v : Word)
  /-- A write of HST_CTRL.cnt_clr clears the host counters (R330). -/
  | hstCntClr (src : Source)
  /-- A write of ARR_CTRL.sat_clr clears ARR_SAT_COUNT (R94). -/
  | arrSatClr (src : Source) (die : Fin 4) (cell : Fin 256)
  /-- A write of ARR_CTRL.cnt_clr clears the phase and write counters (R94). -/
  | arrCntClr (src : Source) (die : Fin 4) (cell : Fin 256)
  /-- A write of ARR_PEEK_SEL selects the sites read by the peek registers (R95). -/
  | arrPeekSelWrite (src : Source) (die : Fin 4) (cell : Fin 256) (v : Word)
  /-- A write of CAL_CTRL.force sets a recalibration trigger pending on every array (R104). -/
  | force (src : Source)
  /-- A write of CAL_TRIM replaces a column's trims and advances the array's generation (R119). -/
  | calTrimWrite (src : Source) (v : Word)
  /-- A write of ACC_CTRL.cnt_clr clears the accumulator counters (R134). -/
  | accCntClr (src : Source) (die : Fin 4) (cell : Fin 256)
  /-- A write of ACC_PEEK_SEL selects the slot read by the peek registers (R135). -/
  | accPeekSelWrite (src : Source) (die : Fin 4) (cell : Fin 256) (v : Word)
  /-- A write of ANV_CTRL.cnt_clr clears the Anvil counters (R179). -/
  | anvCntClr (src : Source) (die : Fin 4) (cell : Fin 256)
  /-- A write of ANV_PEEK_SEL selects the output-array element to peek (R180). -/
  | anvPeekSelWrite (src : Source) (die : Fin 4) (cell : Fin 256) (v : Word)
  /-- A write of BUR_CTRL.cnt_clr clears the Burnisher counters (R213). -/
  | burCntClr (src : Source) (die : Fin 4) (cell : Fin 256)
  /-- A write of BUR_TAB_SEL selects the function-table element to read (R214). -/
  | burTabSelWrite (src : Source) (die : Fin 4) (cell : Fin 256) (v : Word)
  /-- A write of MEM_CTRL.cnt_clr clears the DRAM error, arbiter and peak counters (R266). -/
  | memCntClr (src : Source)
  /-- A write of MEM_CTRL.ppr_run hard-repairs every row on the repair lists (R257). -/
  | pprRun (src : Source)
  /-- A write of FAB_CTRL.disc_run retrains every port that is not UP (R277). -/
  | discRun (src : Source)
  /-- A write of FAB_CTRL.cnt_clr clears the fabric counters (R305). -/
  | fabCntClr (src : Source)
  /-- A write of FAB_PORT_SEL selects the physical port read by the port registers (R306). -/
  | fabPortSelWrite (src : Source) (v : Word)
  /-- A read of FAB_PORT_FEC_UE returns the count and clears its peak and lane fields (R306). -/
  | fabPortFecUeRead (src : Source)
  /-- A read of SCH_TICK_LO latches the upper tick bits into SCH_TICK_HI (R62). -/
  | schTickLoRead (src : Source)
  /-- A read of FAB_MANDREL_LO latches the upper mandrel bits (R305). -/
  | fabMandrelLoRead (src : Source)
  /-- A read of HLT_AREC_SEQ_LO latches the upper sequence bits (R356). -/
  | hltArecSeqLoRead (src : Source)
  /-- A read of PWR_RTC_LO latches the upper RTC bits (R411). -/
  | pwrRtcLoRead (src : Source)
  /-- A write of PWR_RTC_HI loads both RTC halves together (R412). -/
  | pwrRtcHiWrite (src : Source) (v : Word)
  /-- A write of PWR_ALARM_HI sets the alarm and rearms its latch (R411). -/
  | pwrAlarmHiWrite (src : Source) (v : Word)
  /-- A write of PWR_PMB_SEL selects the regulator reading shown (R412). -/
  | pwrPmbSelWrite (src : Source) (v : Word)
  /-- A write of PWR_VCORE sends VOUT_COMMAND to the VCORE regulators, or is refused while a casting runs (R395). -/
  | pwrVcoreWrite (src : Source) (v : Word)
  /-- A write of TSM_CTRL.cnt_clr clears the Touchstone counters (R423). -/
  | tsmCntClr (src : Source)
  /-- A write of TSM_URGENT queues an urgent conversion of a channel (R416). -/
  | tsmUrgent (src : Source) (v : Word)
  /-- A write of TSM_SEL selects the channel read by the channel registers (R424). -/
  | tsmSelWrite (src : Source) (v : Word)
  /-- A write of TSM_CH_WIN sets a channel's band and clears its out state (R424). -/
  | tsmChWinWrite (src : Source) (v : Word)
  /-- A write of SPR_CTRL.braze requests brazing of the resource named in SPR_REQ (R381). -/
  | braze (src : Source)
  /-- A write to an SPR selection register selects its entry from the next always-on cycle (R392). -/
  | sprSelectionWrite (src : Source) (which : Fin 5) (v : Word)
  /-- A cell fill self-tests, calibrates, mirrors and programs a spare cell outside the schedule (R384). -/
  | cellFill (die : Fin 4) (slot : Fin 2) (selfTest : Bool)
  /-- A cell fill's copy and verifies complete and its map change waits for the next load window (R384). -/
  | cellFillComplete (die : Fin 4) (slot : Fin 2)
  /-- A tinker core's heartbeat lapses for 10 ms and the spare core takes over (R380). -/
  | heartbeatLapse (die : Fin 5) (core : Fin 17)
  /-- A write of NVS_CTRL.store snapshots the working settings and writes them to the other MRAM bank (R439). -/
  | store (src : Source)
  /-- A STORE's read-back completes and the new bank comes into use, or the store fails (R439). -/
  | storeComplete (matched : Bool)
  /-- A write of NVS_CTRL.retry repeats the boot from the safe state (R434). -/
  | retry (src : Source) (flash : SMap Byte)
  /-- A write of NVS_CTRL.owner_clear zeroes the working owner hash (R439). -/
  | ownerClear (src : Source)
  /-- A write of NVS_CTRL.quote samples the quote body and starts signing it (R442). -/
  | quote (src : Source)
  /-- The signed quote is written to DRAM and quote_busy clears (R442). -/
  | quoteComplete
  /-- A write of 0xB0 to NVS_CTRL.reboot resets every domain but the always-on one and boots (R443). -/
  | reboot (src : Source) (flash : SMap Byte)
  /-- A write of NVS_MIN_SVN is accepted or discarded against the stored and running versions (R439). -/
  | nvsMinSvnWrite (src : Source) (v : Word)
  /-- A write of MGT_CTRL.cnt_clr clears the management counters (R462). -/
  | mgtCntClr (src : Source)
  /-- A write to a register with no row of its own takes effect by its access code (R8). -/
  | registerWrite (src : Source) (addr : BitVec 32) (value : Word) (size : Fin 5)
  /-- The management core executes WAIT with a deep target and the part runs the BANK or QUENCH entry sequence or refuses it (R402). -/
  | wait
  /-- The RTC count reaches PWR_ALARM and latches a wake (R405). -/
  | rtcAlarm
  /-- The WAKE pin level or edge latches a wake (R405). -/
  | wakePin (level : Bool)
  /-- A wake from BANK reverses the entry and returns the domains to service (R407). -/
  | bankWake
  /-- A wake from QUENCH raises rails, restarts firmware from DRAM and refills the arrays (R407). -/
  | quenchWake
  /-- PWR_GOOD fails to rise or falls and the part drops every enable (R394). -/
  | pwrGoodFailure
  /-- REFCLK stops for 1 us and the counts freeze and the job faults (R398). -/
  | refclkLoss
  /-- REFCLK returns and the counts resume from their frozen values (R398). -/
  | refclkReturn
  /-- A PMBus telemetry cycle reads every regulator and handles faults and warnings (R395). -/
  | telemetryCycle (readings : List Reading)
  /-- A Touchstone converter finishes a conversion and compares it with the channel's window (R418). -/
  | conversion (conv : Fin 9) (chan : Fin 32) (code : BitVec 12) (urgent : Bool)
  /-- Once per second the health monitor updates the risk score and may call for an ingot (R354). -/
  | healthUpdate (rise : BitVec 16)
  /-- Every 60 s while corrected-error counts grow a CORRECTED assay record is formed (R351). -/
  | correctedReport
  /-- In the safe state a BOOT assay record is sent every 10 s (R434). -/
  | safeStateReport
  /-- A queued assay record is sent from the management port as one UDP datagram (R349). -/
  | assayRecordSend
  /-- A journal STORE writes a 32-byte entry into the MRAM journal ring and completes (R459). -/
  | journalStore
  /-- RESET_N held low for 1 us resets the always-on domain and stops every domain (R472). -/
  | powerOnReset
  /-- RESET_N rises and the part runs its boot sequence from the flash (R431). -/
  | resetRelease (flash : SMap Byte)
  /-- In a STREAM memory slot the configuration system refills a cell's or link unit's stream buffer from the die's stream region (R44). -/
  | streamFetch (place : Place) (n : Fin 4097)
  /-- The RNR timer after a received RNR NAK expires and the part resends its SEND or gives up when the RNR retry count is exhausted (R312). -/
  | rnrTimer (qp : Fin 8192)
  /-- The management SGMII link goes down, setting MGT_STICKY.link_down and holding assay records in the queue (R462). -/
  | sgmiiLinkLost
  /-- The management SGMII link comes up, MGT_STATUS.link sets and queued assay records may be sent again (R352). -/
  | sgmiiLinkUp
  /-- A host port receiver meets an uncorrectable FEC codeword and sets HST_PORTn.fec_ue (R330). -/
  | hostUncorrectableCodeword (port : Fin 4)
  /-- The board's PWR_GOOD input rises and, after 10 us high, the part raises the next rail enable (R394). -/
  | pwrGoodRise
  /-- The hard repair of the listed rows completes, ppr_pending falls, ppr_fail may set and repair is no longer in progress (R257). -/
  | pprComplete (repaired : List Bool)
  /-- The package's power feed fails at an arbitrary instant, losing DRAM, mould, guest slots and any state since the last secured ingot,
  with MRAM left old or new (R373). -/
  | feedFailure
  /-- With no casting running, a column fill's last verify passes and its map change takes effect on the next always-on cycle, freeing its
  fill slot (R386). -/
  | fillMapChange (die : Fin 4) (slot : Fin 2)
  deriving DecidableEq, Repr

end Sys2Proof
end

