-- ==== Sys2Proof/Decode.lean ====
section
/-! DEFINITION. Slot words as 128 bits (R45, R47): taking a word apart into its command, and the word that a command issues. The opcode
table gives no row any bits, since commands reach the block from outside as they are: no table word spells one. -/
namespace Sys2Proof

/-- No row of the opcode table has bits. -/
def decodeTableWord (_nbits _w : Nat) : Option Instr := none

/-- A slot word of 128 bits: unit and class in [127:120], tick_delta in [119:104], flags in [103:96], operands in [95:0] (R45). -/
def Slot.bits (head : BitVec 8) (w : Slot) : BitVec 128 := head ++ w.delta ++ w.flags ++ w.ops

/-- The fields of a slot word that its unit and class do not already name (R45). -/
def slotOf (place : Place) (evalSeg : Bool) (x : BitVec 128) : Slot :=
  ⟨place, evalSeg, x.extractLsb' 104 16, x.extractLsb' 96 8, x.extractLsb' 0 96⟩

/-- The command of a slot word by its unit [127:124] and class [123:120] (R45, R47); every other word is served as HOLD, which performs
nothing or raises OPCODE. `flits` is what arrived for a RECV or RELAY. -/
def slotCommand (place : Place) (evalSeg : Bool) (x : BitVec 128) (flits : List (Option (List Byte))) : Instr :=
  let w := slotOf place evalSeg x
  let head : BitVec 8 := x.extractLsb' 120 8
  match head.toNat with
  | 0x11 => .eval w
  | 0x12 => .eval8 w
  | 0x13 => .assay w
  | 0x14 => .write w
  | 0x15 => .sweep w
  | 0x16 => .replay w
  | 0x21 => .clear w
  | 0x22 => .drain w
  | 0x23 => .drainclr w
  | 0x24 => .preload w
  | 0x31 => .stage w
  | 0x32 => .gemm w
  | 0x33 => .gemmacc w
  | 0x41 => .chain w
  | 0x42 => .permute w
  | 0x43 => .gather w
  | 0x44 => .reduce w
  | 0x45 => .softmax w
  | 0x46 => .update w
  | 0x51 => .copy w
  | 0x52 => .load w
  | 0x53 => .movStore w
  | 0x54 => .bridge w
  | 0x55 => .capture w
  | 0x61 => .send w
  | 0x62 => .recv w flits
  | 0x63 => .relay w flits
  | 0x64 => .barrier w
  | _ => .hold head w

/-- The heads that name a class other than HOLD (R47). -/
def definedHead (head : BitVec 8) : Bool :=
  let unit := head.toNat / 16
  let cls := head.toNat % 16
  decide (1 ≤ cls) && decide (cls ≤ match unit with | 1 => 6 | 2 => 4 | 3 => 3 | 4 => 6 | 5 => 5 | 6 => 4 | _ => 0)

/-- Unit and class of a command that issues a slot word, and the word's other fields; none for the other commands, and for a HOLD whose head
names another class. -/
def slotWordOf (c : Instr) : Option (BitVec 8 × Slot) :=
  match c with
  | .hold head w => if definedHead head then none else some (head, w)
  | .eval w => some (0x11, w)
  | .eval8 w => some (0x12, w)
  | .assay w => some (0x13, w)
  | .write w => some (0x14, w)
  | .sweep w => some (0x15, w)
  | .replay w => some (0x16, w)
  | .clear w => some (0x21, w)
  | .drain w => some (0x22, w)
  | .drainclr w => some (0x23, w)
  | .preload w => some (0x24, w)
  | .stage w => some (0x31, w)
  | .gemm w => some (0x32, w)
  | .gemmacc w => some (0x33, w)
  | .chain w => some (0x41, w)
  | .permute w => some (0x42, w)
  | .gather w => some (0x43, w)
  | .reduce w => some (0x44, w)
  | .softmax w => some (0x45, w)
  | .update w => some (0x46, w)
  | .copy w => some (0x51, w)
  | .load w => some (0x52, w)
  | .movStore w => some (0x53, w)
  | .bridge w => some (0x54, w)
  | .capture w => some (0x55, w)
  | .send w => some (0x61, w)
  | .recv w _ => some (0x62, w)
  | .relay w _ => some (0x63, w)
  | .barrier w => some (0x64, w)
  | _ => none

end Sys2Proof
end

