-- ==== Sys2Proof/Machine/Store.lean ====
section
/-! DEFINITION. Sparse storage in canonical form: reading, writing, and the check of the form. Every memory and register
group of the part is kept this way, each with the contents an unlisted key reads as. -/
namespace Sys2Proof.Machine

/-- The value stored under key `k`; an unlisted key reads as `d k`. -/
def get {α : Type} (d : Nat → α) : SMap α → Nat → α
  | [], k => d k
  | (j, v) :: r, k => if k = j then v else if k < j then d k else get d r k

/-- Storing `v` under `k`, keeping the canonical form: writing what an unlisted key reads as removes the pair. -/
def put {α : Type} [DecidableEq α] (d : Nat → α) : SMap α → Nat → α → SMap α
  | [], k, v => if v = d k then [] else [(k, v)]
  | (j, w) :: r, k, v =>
    if k = j then (if v = d k then r else (k, v) :: r)
    else if k < j then (if v = d k then (j, w) :: r else (k, v) :: (j, w) :: r)
    else (j, w) :: put d r k v

/-- Every key of the map is above `lo`, keys rise strictly, and no value is the one an unlisted key reads as. -/
def wfFrom {α : Type} [DecidableEq α] (d : Nat → α) : Nat → SMap α → Bool
  | _, [] => true
  | lo, (j, v) :: r => decide (lo ≤ j) && decide (v ≠ d j) && wfFrom d (j + 1) r

/-- The canonical form of a map. -/
def wf {α : Type} [DecidableEq α] (d : Nat → α) (m : SMap α) : Bool := wfFrom d 0 m

/-- The bytes at `a`, `a + 1`, …, `n` of them. -/
def getBytes (d : Nat → Byte) (m : SMap Byte) (a n : Nat) : List Byte := (List.range n).map fun i => get d m (a + i)

/-- Storing a list of bytes in ascending address order (R3). -/
def putBytes (d : Nat → Byte) : SMap Byte → Nat → List Byte → SMap Byte
  | m, _, [] => m
  | m, a, b :: r => putBytes d (put d m a b) (a + 1) r

/-- Removing every pair whose key satisfies `p`: that storage reads as unlisted again. -/
def forget {α : Type} (p : Nat → Bool) (m : SMap α) : SMap α := m.filter fun kv => !p kv.1

/-- Changing every listed value by `f`, which leaves the value `d` of an unlisted key as it is. -/
def mapVals {α : Type} [DecidableEq α] (d : α) (f : α → α) (m : SMap α) : SMap α :=
  (m.map fun p => (p.1, f p.2)).filter fun p => decide (p.2 ≠ d)

/-- A little-endian value of a list of bytes (R3). -/
def leNat : List Byte → Nat
  | [] => 0
  | b :: r => b.toNat + 256 * leNat r

/-- The `n` little-endian bytes of a value (R3). -/
def natLE : Nat → Nat → List Byte
  | 0, _ => []
  | n + 1, v => BitVec.ofNat 8 v :: natLE n (v / 256)

/-- Bits [hi:lo] of a value (R2). -/
def bits (v hi lo : Nat) : Nat := (v >>> lo) % 2 ^ (hi + 1 - lo)

/-- The value with bits [hi:lo] replaced by `x` (R2). -/
def setBits (v hi lo x : Nat) : Nat :=
  v - (bits v hi lo) * 2 ^ lo + (x % 2 ^ (hi + 1 - lo)) * 2 ^ lo

/-- The signed reading of an `n`-bit value. -/
def sx (n v : Nat) : Int := if v % 2 ^ n < 2 ^ (n - 1) then (v % 2 ^ n : Nat) else ((v % 2 ^ n : Nat) : Int) - 2 ^ n

/-- The `n`-bit two's complement pattern of an integer. -/
def unsx (n : Nat) (v : Int) : Nat := (v % (2 ^ n : Int)).toNat

/-- A sum that stops at the largest value of `n` bits. -/
def satAdd (n a b : Nat) : Nat := min (a + b) (2 ^ n - 1)

/-- ⌈a / b⌉. -/
def ceilDiv (a b : Nat) : Nat := (a + b - 1) / b

/-- The fields of a list folded from the left over a state: `f` in the order of the list. -/
def each {α σ : Type} (l : List α) (f : α → σ → σ) (s : σ) : σ := l.foldl (fun s x => f x s) s

/-- The little-endian bytes of a magic word of four ASCII characters, as the u32 the spec prints. -/
def isMagic (b : List Byte) (magic : Nat) : Bool := leNat (b.take 4) == magic

end Sys2Proof.Machine
end

