-- ==== Sys2Proof/Machine/Float.lean ====
section
/-! DEFINITION. The number formats of R136 to R141 and the two roundings of R142 to R144. Every operation is exact
integer or rational arithmetic followed by one explicit rounding. -/
namespace Sys2Proof
open Machine

/-- What an F16 pattern stands for (R137). -/
def ofF16 (x : F16) : FV :=
  let v := x.toNat
  let neg := v / 32768 = 1
  let e := bits v 14 7
  let f := bits v 6 0
  if e = 255 then (if f = 0 then .inf neg else .nan)
  else if e = 0 then .fin neg f (-133)
  else .fin neg (128 + f) ((e : Int) - 134)

/-- ⌊log2 (n / d)⌋ for positive n and d. -/
def flog2 (n d : Nat) : Int :=
  let a : Int := (Nat.log2 n : Int) - (Nat.log2 d : Int)
  if n * 2 ^ (-a).toNat < d * 2 ^ a.toNat then a - 1 else a

/-- n / d rounded to the nearest integer, ties to even. -/
def rneDiv (n d : Nat) : Nat :=
  let q := n / d
  let r := n % d
  if 2 * r > d ∨ (2 * r = d ∧ q % 2 = 1) then q + 1 else q

/-- The exponent of the spacing at the magnitude n / d × 2^e, in a format with `p` fraction bits and smallest
subnormal 2^umin. -/
def spacing (p : Nat) (umin : Int) (n d : Nat) (e : Int) : Int := max (flog2 n d + e - p) umin

/-- The magnitude n / d × 2^e as a numerator and a denominator in units of 2^u. -/
def inUnits (n d : Nat) (e u : Int) : Nat × Nat := (n * 2 ^ (e - u).toNat, d * 2 ^ (u - e).toNat)

/-- The magnitude field of n / d × 2^e rounded to nearest even in a format of `p` fraction bits: subnormals kept, no upper
limit (R140). -/
def roundCode (p : Nat) (umin : Int) (n d : Nat) (e : Int) : Nat :=
  if n = 0 then 0
  else
    let u := spacing p umin n d e
    let q := inUnits n d e u
    (u - umin).toNat * 2 ^ p + rneDiv q.1 q.2

/-- The F16 pattern of a sign and a magnitude field. -/
def signed16 (neg : Bool) (code : Nat) : F16 := BitVec.ofNat 16 ((if neg then 32768 else 0) + code)

/-- ±(n / d) × 2^e rounded to nearest even into F16; the flag says that the rounded magnitude passed the largest finite one
and was saturated (R140). -/
def rneF16 (neg : Bool) (n d : Nat) (e : Int) : F16 × Bool :=
  let c := roundCode 7 (-133) n d e
  if c > 0x7F7F then (signed16 neg 0x7F7F, true) else (signed16 neg c, false)

/-- The exact value of a finite reading; a NaN or infinity reads as 0 (callers test for them first). -/
def FV.dy : FV → Dy
  | .fin neg m e => ⟨if neg then -(m : Int) else m, e⟩
  | _ => ⟨0, 0⟩

/-- The exact sum of two dyadic numbers. -/
def Dy.add (a b : Dy) : Dy :=
  let e := min a.e b.e
  ⟨a.m * 2 ^ (a.e - e).toNat + b.m * 2 ^ (b.e - e).toNat, e⟩

/-- The exact product of two dyadic numbers. -/
def Dy.mul (a b : Dy) : Dy := ⟨a.m * b.m, a.e + b.e⟩

/-- The exact negation of a dyadic number. -/
def Dy.neg (a : Dy) : Dy := ⟨-a.m, a.e⟩

/-- The exact sum of a list of dyadic numbers. -/
def Dy.sum (l : List Dy) : Dy := l.foldl Dy.add ⟨0, 0⟩

/-- Whether a ≤ b as numbers. -/
def Dy.le (a b : Dy) : Bool := decide ((a.add b.neg).m ≤ 0)

/-- Whether a < b as numbers. -/
def Dy.lt (a b : Dy) : Bool := decide ((a.add b.neg).m < 0)

/-- The magnitude of a dyadic number. -/
def Dy.abs (a : Dy) : Dy := ⟨a.m.natAbs, a.e⟩

/-- A dyadic number rounded to nearest even into F16, an exact zero giving +0 (R85, R132). -/
def Dy.rne (a : Dy) : F16 × Bool := if a.m = 0 then (0, false) else rneF16 (a.m < 0) a.m.natAbs 1 a.e

/-- f16_rne of R85: total × 2^scale rounded once; a non-zero value that rounds to zero becomes +0. -/
def f16Rne (total scale : Int) : F16 × Bool :=
  let r := Dy.rne ⟨total, scale⟩
  (if r.1 = 0x8000 then 0 else r.1, r.2)

/-- Whether an F16 pattern is an infinity or a NaN. -/
def nonFinite (x : F16) : Bool := bits x.toNat 14 7 == 255

/-- Whether an F16 pattern is a NaN. -/
def isNaN (x : F16) : Bool := bits x.toNat 14 7 == 255 && bits x.toNat 6 0 != 0

/-- The canonical NaN of R137. -/
def nan16 : F16 := 0x7FC0

/-- The exact value of an F16 pattern (0 for a NaN or an infinity). -/
def dyF16 (x : F16) : Dy := FV.dy (ofF16 x)

/-- What an F8 pattern stands for (R138); `a` says F8a, otherwise F8b. -/
def ofF8 (a : Bool) (x : Nat) : FV :=
  let p := if a then 3 else 2
  let bias : Int := if a then 7 else 15
  let neg := bits x 7 7 = 1
  let e := bits x 6 p
  let f := bits x (p - 1) 0
  if a ∧ e = 15 ∧ f = 7 then .nan
  else if ¬ a ∧ e = 31 then (if f = 0 then .inf neg else .nan)
  else if e = 0 then .fin neg f (1 - bias - p)
  else .fin neg (2 ^ p + f) ((e : Int) - bias - p)

/-- The result of a conversion into a stored element: its bits, whether it overflowed, whether its source was not
finite (R141). -/
structure Conv where
  code : Nat
  ovf : Bool
  nonfin : Bool
  deriving DecidableEq, Repr

/-- A finite magnitude m × 2^e rounded to nearest even into an integer. -/
def rneInt (m : Nat) (e : Int) : Nat := rneDiv (m * 2 ^ e.toNat) (2 ^ (-e).toNat)

/-- An integer clamped into [−lim, lim − 1]; the flag says that it was outside. -/
def clampInt (lim : Nat) (v : Int) : Int × Bool :=
  if v < -(lim : Int) then (-(lim : Int), true) else if v > (lim : Int) - 1 then ((lim : Int) - 1, true) else (v, false)

/-- An F16 source written into a tensor of format `fmt` with scale byte `b` (R139, R140, R141). -/
def narrow (fmt : Fmt) (b : Nat) (x : F16) : Conv :=
  let k : Int := 127 - (b : Int)
  match ofF16 x with
  | .nan =>
    match fmt with
    | .f16 => ⟨0x7FC0, false, true⟩
    | .f8a => ⟨0x7F, false, true⟩
    | .f8b => ⟨0x7E, false, true⟩
    | .a4 | .a8 => ⟨0, false, true⟩
  | .inf neg =>
    match fmt with
    | .f16 => ⟨(signed16 neg 0x7F80).toNat, false, true⟩
    | .f8a => ⟨0x7F, false, true⟩
    | .f8b => ⟨if neg then 0xFC else 0x7C, false, true⟩
    | .a4 => ⟨if neg then 8 else 7, false, true⟩
    | .a8 => ⟨if neg then 128 else 127, false, true⟩
  | .fin neg m e =>
    match fmt with
    | .f16 => let r := rneF16 neg m 1 (e + k); ⟨r.1.toNat, r.2, false⟩
    | .f8a =>
      let c := roundCode 3 (-9) m 1 (e + k)
      ⟨(if neg then 128 else 0) + min c 0x7E, decide (c > 0x7E), false⟩
    | .f8b =>
      let c := roundCode 2 (-16) m 1 (e + k)
      ⟨(if neg then 128 else 0) + min c 0x7B, decide (c > 0x7B), false⟩
    | .a4 =>
      let q : Int := rneInt m (e + k)
      let r := clampInt 8 (if neg then -q else q)
      ⟨unsx 4 r.1, r.2, false⟩
    | .a8 =>
      let q : Int := rneInt m (e + k)
      let r := clampInt 128 (if neg then -q else q)
      ⟨unsx 8 r.1, r.2, false⟩

/-- What a stored element of format `fmt` stands for before its tensor's scale (R139). -/
def ofCode (fmt : Fmt) (c : Nat) : FV :=
  match fmt with
  | .f16 => ofF16 (BitVec.ofNat 16 c)
  | .f8a => ofF8 true c
  | .f8b => ofF8 false c
  | .a4 => let v := sx 4 c; .fin (v < 0) v.natAbs 0
  | .a8 => let v := sx 8 c; .fin (v < 0) v.natAbs 0

/-- What a stored element stands for with the tensor's scale byte `b` (R139). -/
def scaled (fmt : Fmt) (b c : Nat) : FV :=
  match ofCode fmt c with
  | .fin neg m e => .fin neg m (e + (b : Int) - 127)
  | v => v

/-- A reading rounded to nearest even into F16, with the saturation of R141; the flags are its overflow and whether it
was not finite. -/
def FV.toF16 : FV → Conv
  | .nan => ⟨0x7FC0, false, true⟩
  | .inf neg => ⟨(signed16 neg 0x7F80).toNat, false, true⟩
  | .fin neg m e => let r := rneF16 neg m 1 e; ⟨r.1.toNat, r.2, false⟩

/-- A stored element of format `fmt` and scale byte `b` converted to F16 (R141). -/
def widen (fmt : Fmt) (b c : Nat) : Conv := (scaled fmt b c).toF16

/-- The width in bits of a stored element (R136). -/
def Fmt.width : Fmt → Nat
  | .f16 => 16
  | .f8a | .f8b | .a8 => 8
  | .a4 => 4

/-- The format that the fmt field of R148 names. -/
def Fmt.ofCode : Nat → Fmt
  | 0 => .f16
  | 1 => .f8a
  | 2 => .f8b
  | 3 => .a4
  | _ => .a8

/-- The rounding generator of R144. -/
def planish (seed step : BitVec 32) (tid : BitVec 16) (index : BitVec 48) (place : Nat) : BitVec 64 :=
  let round := fun (s : BitVec 64 × BitVec 64 × BitVec 64) (_ : Nat) =>
    let a := (s.1 + (s.2.1 ^^^ s.2.2)).rotateLeft 23
    let b := ((s.2.1 ^^^ a) * 0x5A179E2CD3B84F63).rotateLeft 41
    (a, b, s.2.2 + 0x71C4A9E35D20B86F)
  let r := (List.range 6).foldl round (seed ++ step, tid ++ index, BitVec.ofNat 64 place * 0x8F3D27A1C65BE4D9)
  r.1 ^^^ r.2.1.rotateLeft 17

/-- Stochastic rounding of R143 with the sixteen generator bits `r`: the rounded pattern, or `none` where the magnitude is out of
range and the place's rule applies. -/
def sround (v : Dy) (r : Nat) : Option F16 :=
  let a := v.m.natAbs
  if a = 0 then some 0
  else if flog2 a 1 + v.e ≥ 128 then none
  else
    let u := spacing 7 (-133) a 1 v.e
    let q := inUnits a 1 v.e u
    let t := q.1 / q.2
    let g := (q.1 % q.2) * 65536 / q.2
    let c := (u + 133).toNat * 128 + (if g > r then t + 1 else t)
    if c = 0 then some 0 else if c > 0x7F7F then none else some (signed16 (v.m < 0) c)

/-- sround with the bits [63:48] that the generator gives for a place (R143). -/
def sroundAt (v : Dy) (seed step tid index place : Nat) : Option F16 :=
  sround v ((planish (BitVec.ofNat 32 seed) (BitVec.ofNat 32 step) (BitVec.ofNat 16 tid)
    (BitVec.ofNat 48 index) place).toNat / 2 ^ 48)

end Sys2Proof
end

