-- ==== Sys2Proof/Machine/Hash.lean ====
section
/-! DEFINITION. SHAKE256 (FIPS 202, named by R49, R300, R350 and others; PRESUMED: the standard's text is not in the
spec, log 6) and the column check CRC-16 of R70. -/
namespace Sys2Proof.Machine

/-- The shift register that yields the round constants: x⁸ + x⁶ + x⁵ + x⁴ + 1, after `t` shifts from 1. -/
def shiftReg : Nat → Nat
  | 0 => 1
  | t + 1 =>
    let r := 2 * shiftReg t
    if r < 256 then r else (r - 256) ^^^ 0x71

/-- The word that round `i` adds into lane 0: output bit 7i + j of the register at bit 2^j - 1. -/
def iota (i : Nat) : BitVec 64 :=
  BitVec.ofNat 64 ((List.range 7).foldl (fun w j => w + shiftReg (7 * i + j) % 2 * 2 ^ (2 ^ j - 1)) 0)

/-- Lane (x, y) of a sponge state, held row by row; the coordinates count modulo 5. -/
def laneXY (a : List (BitVec 64)) (x y : Nat) : BitVec 64 := a.getD (x % 5 + y % 5 * 5) 0

/-- A sponge state of the lanes `f x y`. -/
def ofLanes (f : Nat → Nat → BitVec 64) : List (BitVec 64) := (List.range 5).flatMap fun y => (List.range 5).map fun x => f x y

/-- The lanes that the rotation walk visits, from (1, 0) on: after (x, y) comes (y, 2x + 3y). -/
def rotWalk : Nat → Nat × Nat → List (Nat × Nat)
  | 0, _ => []
  | n + 1, p => p :: rotWalk n (p.2, (2 * p.1 + 3 * p.2) % 5)

/-- The amount by which lane (x, y) rotates: step t of the walk gives (t + 1)(t + 2) / 2, and lane (0, 0) is not on the walk. -/
def rotOf (x y : Nat) : Nat :=
  let t := (rotWalk 24 (1, 0)).idxOf (x, y)
  if t = 24 then 0 else (t + 1) * (t + 2) / 2 % 64

/-- Theta: each lane takes up the parities of two neighbouring columns. -/
def theta (a : List (BitVec 64)) : List (BitVec 64) :=
  let parity := (List.range 5).map fun x => (List.range 5).foldl (fun w y => w ^^^ laneXY a x y) 0
  ofLanes fun x y => laneXY a x y ^^^ parity.getD ((x + 4) % 5) 0 ^^^ (parity.getD ((x + 1) % 5) 0).rotateLeft 1

/-- Rho and pi: lane (x, y) rotates and moves to (y, 2x + 3y). -/
def rhoPi (a : List (BitVec 64)) : List (BitVec 64) :=
  ofLanes fun u v => let x := (u + 3 * v) % 5; (laneXY a x u).rotateLeft (rotOf x (u % 5))

/-- Chi: each lane takes up the next-but-one lane of its row where the next is clear. -/
def chi (a : List (BitVec 64)) : List (BitVec 64) :=
  ofLanes fun x y => laneXY a x y ^^^ (laneXY a (x + 2) y &&& ~~~ laneXY a (x + 1) y)

/-- One round. -/
def spongeRound (i : Nat) (a : List (BitVec 64)) : List (BitVec 64) := (chi (rhoPi (theta a))).modifyHead (· ^^^ iota i)

/-- The permutation Keccak-f[1600]: 24 rounds. -/
def permute1600 (a : List (BitVec 64)) : List (BitVec 64) := (List.range 24).foldl (fun a i => spongeRound i a) a

/-- The little-endian 64-bit lanes of a list of bytes, `n` lanes. -/
def lanes : Nat → List Byte → List (BitVec 64)
  | 0, _ => []
  | n + 1, b => BitVec.ofNat 64 (leNat (b.take 8)) :: lanes n (b.drop 8)

/-- The bytes of a list of lanes. -/
def unlanes (a : List (BitVec 64)) : List Byte := a.flatMap fun x => natLE 8 x.toNat

/-- Absorbing one block of 136 bytes. -/
def absorb (a : List (BitVec 64)) (block : List Byte) : List (BitVec 64) :=
  permute1600 ((a.zip (lanes 25 block)).map fun p => p.1 ^^^ p.2)

/-- The padded last block of a message of fewer than 136 bytes (SHAKE suffix 0x1F). -/
def padLast (b : List Byte) : List Byte :=
  let p := b ++ 0x1F :: List.replicate (135 - b.length) 0
  p.take 135 ++ [(p[135]?).getD 0 ||| 0x80]

/-- Absorbing a message, `fuel` blocks at most. -/
def absorbAll : Nat → List (BitVec 64) → List Byte → List (BitVec 64)
  | 0, a, m => absorb a (padLast (m.take 135))
  | f + 1, a, m => if m.length < 136 then absorb a (padLast m) else absorbAll f (absorb a (m.take 136)) (m.drop 136)

/-- SHAKE256 with an output of `n` ≤ 136 bytes. -/
def shake256 (m : List Byte) (n : Nat) : List Byte :=
  (unlanes (absorbAll (m.length / 136 + 1) (List.replicate 25 0) m)).take n

/-- The 256-bit digests of the spec. -/
def digest (m : List Byte) : List Byte := shake256 m 32

/-- One byte into the CRC-16 of R70: polynomial 0x1021, no reflection. -/
def crcByte (c : Nat) (b : Byte) : Nat :=
  (List.range 8).foldl (fun c _ => if c &&& 0x8000 ≠ 0 then ((c <<< 1) ^^^ 0x1021) % 65536 else (c <<< 1) % 65536)
    (c ^^^ (b.toNat <<< 8))

/-- The CRC-16 of R70, initial value 0xFFFF, no final inversion. -/
def crc16 (m : List Byte) : BitVec 16 := BitVec.ofNat 16 (m.foldl crcByte 0xFFFF)

end Sys2Proof.Machine
end

