-- ==== Sys2Proof/Machine/LineCode.lean ====
section
/-! DEFINITION. The outer code of a DRAM line (R253, R254): its 36 symbols, the check symbols, and what a read makes of a line whose
stored word differs from the codeword written. -/
namespace Sys2Proof.Machine

/-- A symbol times α, the root of x¹⁶ + x¹² + x³ + x + 1. -/
def timesAlpha (x : BitVec 16) : BitVec 16 := (x <<< 1) ^^^ (if x.msb then 0x100B else 0)

/-- A symbol times α^j. -/
def timesAlphaPow : Nat → BitVec 16 → BitVec 16
  | 0, x => x
  | j + 1, x => timesAlphaPow j (timesAlpha x)

/-- A symbol times α^j + α^k + α^l. -/
def timesSum (j k l : Nat) (x : BitVec 16) : BitVec 16 := timesAlphaPow j x ^^^ timesAlphaPow k x ^^^ timesAlphaPow l x

/-- One step of the division by the generator (x + 1)(x + α)(x + α²): the remainder, highest degree first, takes in a symbol. -/
def divideStep (r : BitVec 16 × BitVec 16 × BitVec 16) (x : BitVec 16) : BitVec 16 × BitVec 16 × BitVec 16 :=
  let q := r.1 ^^^ x
  (r.2.1 ^^^ timesSum 0 1 2 q, r.2.2 ^^^ timesSum 1 2 3 q, timesAlphaPow 3 q)

/-- Check symbols 33 to 35 of the symbols 0 to 32, symbol 0 the coefficient of the highest degree (log 86). -/
def checkSymbols (l : List (BitVec 16)) : List (BitVec 16) :=
  let r := l.foldl divideStep (0, 0, 0)
  [r.1, r.2.1, r.2.2]

/-- Data symbols of a line: symbol i from bytes 2i and 2i + 1 (R3). -/
def dataSymbols (d : List Byte) : List (BitVec 16) := (List.range 32).map fun i => d.getD (2 * i + 1) 0 ++ d.getD (2 * i) 0

/-- The tag of a line address: A[20:6] xor A[35:21] xor A[38:36]. -/
def addrTag (a : Nat) : Nat := bits a 20 6 ^^^ bits a 35 21 ^^^ bits a 38 36

/-- Metadata symbol 32: poison in bit 0, the tag above it. -/
def metaSymbol (a : Nat) (poison : Bool) : BitVec 16 := BitVec.ofNat 16 (2 * addrTag a + (if poison then 1 else 0))

/-- The codeword of a line. -/
def codeword (a : Nat) (poison : Bool) (d : List Byte) : List (BitVec 16) :=
  let l := dataSymbols d ++ [metaSymbol a poison]
  l ++ checkSymbols l

/-- The value at α^j of the polynomial whose coefficients are the symbols, highest degree first. -/
def evalAt (j : Nat) (l : List (BitVec 16)) : BitVec 16 := l.foldl (fun acc x => timesAlphaPow j acc ^^^ x) 0

/-- The syndromes of a word of 36 symbols: all 0 on a codeword. -/
def syndromes (l : List (BitVec 16)) : BitVec 16 × BitVec 16 × BitVec 16 := (evalAt 0 l, evalAt 1 l, evalAt 2 l)

/-- The position of the one symbol whose error gives the syndromes, none where no single symbol does. -/
def badSymbol (y : BitVec 16 × BitVec 16 × BitVec 16) : Option Nat :=
  (List.range 36).find? fun i => timesAlphaPow (35 - i) y.1 == y.2.1 && timesAlphaPow (35 - i) y.2.1 == y.2.2

/-- The symbols of a difference of 576 bits, symbol i in bits [16i+15:16i]. -/
def symbolsOf (err : Nat) : List (BitVec 16) := (List.range 36).map fun i => BitVec.ofNat 16 (err >>> (16 * i))

/-- The condition of a line as `Dram.marks` holds it: bit 0 poison written with it, bit 1 that its reads bring an inner-code report, and
from bit 2 on the bits in which the word now stored differs from the codeword written. -/
def condition (poison inner : Bool) (err : Nat) : Nat := (if poison then 1 else 0) + (if inner then 2 else 0) + 4 * err

/-- What is left to settle once symbols have been corrected: a tag that differs, poison, or `outcome`. `fixed` is the remaining
difference. -/
def settle (m fixed outcome : Nat) : Nat × Nat :=
  if bits fixed 527 513 ≠ 0 then (3, m >>> 2)
  else if bits m 0 0 ^^^ bits fixed 512 512 = 1 then (4, m >>> 2)
  else (outcome, fixed)

/-- What a read makes of a line in condition `m`: the outcome of R254 (0 clean, 1 corrected, 2 two symbols, 3 tag mismatch, 4 poison) and
the difference between the data delivered and those written. The code is linear, so the syndromes of the word read are those of the
difference. A correction of the poison bit alone changes no tag and counts as corrected (log 86). -/
def readLine (m : Nat) : Nat × Nat :=
  let err := m >>> 2
  if err = 0 then settle m 0 0
  else
    let y := syndromes (symbolsOf err)
    if y = (0, 0, 0) then settle m err 0
    else match badSymbol y with
      | none => (2, err)
      | some i =>
        let fix := y.1.toNat <<< (16 * i)
        if i = 32 ∧ bits fix 527 513 ≠ 0 then (3, err) else settle m (err ^^^ fix) 1

end Sys2Proof.Machine
end

