-- ==== Sys2Proof/Config.lean ====
section
/-! DEFINITION. What a part fixes for itself and what the spec leaves open: constants without a body, so that no proof can see a
value of one. -/
namespace Sys2Proof.Config

/-- A register value that differs from part to part or die to die (R14, R49, R435), by register address (log 3). -/
opaque perPart : Nat → BitVec 32

/-- A value the spec does not state, fresh at every use: applied to State.freeCount (log 4). -/
opaque freeValue : Nat → BitVec 64

/-- The raw converter code of one column in one phase, which the spec gives only bounds for (R84, R117): applied to State.freeCount,
reduced to a signed 8-bit code where it is used (log 4). -/
opaque adcCode : Nat → BitVec 8

/-- Whether a column meets the limits of R117 in a conversion, applied to State.freeCount: a failing one returns any code (log 11). -/
opaque adcWorks : Nat → Bool

/-- What a site or exponent store holds after its programming where it does not take the value given, none where it does; applied to
State.freeCount (R89, R90; log 11). -/
opaque siteHolds : Nat → Option Byte

/-- Whether a crystal edge falls in a tick (R397: the real-time clock does not lock to REFCLK), by tick (log 1). -/
opaque crystalEdge : Nat → Bool

/-- Whether a signature of FIPS 205 verifies: public key, message, signature (R429; log 7). -/
opaque slhVerify : List Byte → List Byte → List Byte → Bool

/-- The bytes of the signature of FIPS 205 that the part's identity key makes of a message (R442; log 7). -/
opaque slhSignByte : List Byte → Nat → Byte

/-- The signature, 29,792 bytes (R442). -/
def slhSign (m : List Byte) : List Byte := (List.range 29792).map (slhSignByte m)

/-- The bytes of the part's identity public key (R435; log 3). -/
opaque identityByte : Nat → Byte

/-- The key, 64 bytes (R441). -/
def identityKey : List Byte := (List.range 64).map identityByte

/-- The digest of a release public key that the boot ROM holds for a slot (R429; log 3). -/
opaque romKeyHash : Nat → List Byte

/-- Whether the MRAM identity region is valid (R429 check 0x0C; log 3). -/
opaque identityValid : Bool

/-- The Polkar issuing-key identifier and signature in the certificate (R441; log 3). -/
opaque issuer : Nat × List Byte

/-- Whether a regulator device of the configuration is a VCORE device (R395; log 3). -/
opaque vcoreDevice : Nat → Bool

/-- Always-on cycles that the service of a tally request takes which begins on a cycle (R449; log 79). -/
opaque tallyCycles : Nat → Nat

/-- Whether the part rounds the quotient n / d up where it shows a whole number and the spec states no rounding (R414, R423, R436;
log 4). -/
opaque roundsUp : Nat → Nat → Bool

/-- The digest of a settings bank, whose bytes the spec lays out in part only, by the contents of the bank (R436; log 4). -/
opaque settingsDigest : List Nat → BitVec 256

/-- Byte `i` of the spare-map section of an ingot, as a function of what the spare maps and wear counters hold: R359 puts them there in their
MRAM layout, and R436 gives that layout no bytes for them (log 16). -/
opaque mapImage : List Nat → Nat → BitVec 8

end Sys2Proof.Config
end

