-- ==== Sys2Proof/Machine/Func.lean ====
section
/-! DEFINITION. The Burnisher's functions on F16 operands: the stage operations of R191 and R192, each exact and rounded once,
and the function pairs 0 to 7 of R170 and R205. The transcendental ones are evaluated to 320 bits below the point, far more than
any F16 rounding needs. -/
namespace Sys2Proof
open Machine

/-- A lane's result with the exceptions the operation raised (R196). -/
structure Lane where
  v : F16
  nanin : Bool
  inv : Bool
  ovf : Bool
  deriving DecidableEq, Repr

/-- A result without exception. -/
def Lane.ok (v : F16) : Lane := ⟨v, false, false, false⟩

/-- A result followed by another operation on it. -/
def Lane.andThen (a : Lane) (f : F16 → Lane) : Lane :=
  let r := f a.v
  ⟨r.v, a.nanin || r.nanin, a.inv || r.inv, a.ovf || r.ovf⟩

/-- The canonical NaN with the INV exception (R192). -/
def Lane.invalid : Lane := ⟨nan16, false, true, false⟩

/-- A rounded result; saturation raises OVF (R192). -/
def Lane.rounded (r : F16 × Bool) : Lane := ⟨r.1, false, false, r.2⟩

/-- The signed infinity. -/
def inf16 (neg : Bool) : F16 := signed16 neg 0x7F80

/-- p + q (R192). -/
def fAdd (x y : F16) : Lane :=
  match ofF16 x, ofF16 y with
  | .nan, _ | _, .nan => .ok nan16
  | .inf a, .inf b => if a = b then .ok (inf16 a) else .invalid
  | .inf a, _ => .ok (inf16 a)
  | _, .inf b => .ok (inf16 b)
  | a, b => .rounded (Dy.rne (a.dy.add b.dy))

/-- The pattern with its sign inverted. -/
def fNeg (x : F16) : F16 := x ^^^ 0x8000

/-- p × q (R192). -/
def fMul (x y : F16) : Lane :=
  match ofF16 x, ofF16 y with
  | .nan, _ | _, .nan => .ok nan16
  | .inf a, .inf b => .ok (inf16 (a != b))
  | .inf a, .fin b m _ => if m = 0 then .invalid else .ok (inf16 (a != b))
  | .fin a m _, .inf b => if m = 0 then .invalid else .ok (inf16 (a != b))
  | .fin a m e, .fin b n f => .rounded (rneF16 (a != b) (m * n) 1 (e + f))

/-- p × q + r (R192). -/
def fFma (x y z : F16) : Lane :=
  let pinf := fun (neg : Bool) =>
    match ofF16 z with
    | .inf c => if c = neg then Lane.ok (inf16 c) else .invalid
    | _ => .ok (inf16 neg)
  match ofF16 x, ofF16 y, ofF16 z with
  | .nan, _, _ | _, .nan, _ | _, _, .nan => .ok nan16
  | .inf a, .inf b, _ => pinf (a != b)
  | .inf a, .fin b m _, _ => if m = 0 then .invalid else pinf (a != b)
  | .fin a m _, .inf b, _ => if m = 0 then .invalid else pinf (a != b)
  | _, _, .inf c => .ok (inf16 c)
  | a, b, c => .rounded (Dy.rne ((a.dy.mul b.dy).add c.dy))

/-- p / q (R192). -/
def fDiv (x y : F16) : Lane :=
  match ofF16 x, ofF16 y with
  | .nan, _ | _, .nan => .ok nan16
  | .inf _, .inf _ => .invalid
  | .inf a, .fin b _ _ => .ok (inf16 (a != b))
  | .fin a _ _, .inf b => .ok (signed16 (a != b) 0)
  | .fin a m e, .fin b n f =>
    if n = 0 then (if m = 0 then .invalid else .ok (inf16 (a != b)))
    else .rounded (rneF16 (a != b) m n (e - f))

/-- The order key of a number: +0 above −0 (R192). -/
def orderKey (x : F16) : Int := if x.toNat < 32768 then (x.toNat : Int) else 32767 - (x.toNat : Int)

/-- Larger of p, q. -/
def fMax (x y : F16) : Lane :=
  if isNaN x || isNaN y then .ok nan16 else .ok (if orderKey x < orderKey y then y else x)

/-- Smaller of p, q. -/
def fMin (x y : F16) : Lane :=
  if isNaN x || isNaN y then .ok nan16 else .ok (if orderKey y < orderKey x then y else x)

/-- |p|. -/
def fAbs (x : F16) : Lane := if isNaN x then .ok nan16 else .ok (x &&& 0x7FFF)

/-- +1.0 if p > q, else +0; a NaN operand gives +0 (R192). -/
def fGt (x y : F16) : Lane :=
  if isNaN x || isNaN y then .ok 0
  else
    let z := fun (v : F16) => if v = 0x8000 then (0 : F16) else v
    .ok (if orderKey (z y) < orderKey (z x) then 0x3F80 else 0)

/-- p if r is not ±0, else q; a NaN p or q gives the canonical NaN, a NaN r counts as non-zero (R192). -/
def fSel (x y r : F16) : Lane :=
  if isNaN x || isNaN y then .ok nan16 else .ok (if r = 0 ∨ r = 0x8000 then y else x)

/-- √(n / d × 2^e) for positive n and d, as a numerator and an exponent that round as the root does: 64 bits of the root and
a sticky bit. -/
def sqrtApprox (n d : Nat) (e : Int) : Nat × Int :=
  let k : Int := 200 + e % 2
  let x := n * 2 ^ k.toNat
  let q := x / d
  let s := Nat.sqrt q
  (2 * s + (if s * s = q ∧ x % d = 0 then 0 else 1), (e - k) / 2 - 1)

/-- √p (R192). -/
def fSqrt (x : F16) : Lane :=
  match ofF16 x with
  | .nan => .ok nan16
  | .inf neg => if neg then .invalid else .ok (inf16 false)
  | .fin neg m e =>
    if m = 0 then .ok (signed16 neg 0)
    else if neg then .invalid
    else let r := sqrtApprox m 1 e; .rounded (rneF16 false r.1 1 r.2)

/-- 1 / √p (R192). -/
def fRsq (x : F16) : Lane :=
  match ofF16 x with
  | .nan => .ok nan16
  | .inf neg => if neg then .invalid else .ok 0
  | .fin neg m e =>
    if m = 0 then .ok (inf16 neg)
    else if neg then .invalid
    else let r := sqrtApprox 1 m (-e); .rounded (rneF16 false r.1 1 r.2)

/-- Bits below the point of the fixed-point evaluations. -/
def fixP : Nat := 320

/-- ⌊ln 2 × 2^320⌋. -/
def ln2Fix : Nat := 0xb17217f7d1cf79abc9e3b39803f2f6af40f343267298b62d8a0d175b8baafa2be7b876206debac98

/-- e^r × 2^320 for r = x / 2^320 below 0.7: 72 terms of the series. -/
def expSeries (x : Nat) : Nat :=
  ((List.range 72).foldl (fun (a : Nat × Nat) i => (a.1 + a.2, a.2 * x / 2 ^ fixP / (i + 1))) (0, 2 ^ fixP)).1

/-- e^(−n/d) as (T, q), T / 2^q. -/
def expNeg (n d : Nat) : Nat × Nat :=
  if n = 0 then (1, 0)
  else
    let x := n * 2 ^ fixP / d
    (expSeries (ln2Fix - x % ln2Fix), fixP + x / ln2Fix + 1)

/-- e^(n/d) as (T, k): T × 2^(k − 320). -/
def expPos (n d : Nat) : Nat × Nat :=
  let x := n * 2 ^ fixP / d
  (expSeries (x % ln2Fix), x / ln2Fix)

/-- A magnitude m × 2^e as a fraction. -/
def fracOf (m : Nat) (e : Int) : Nat × Nat := (m * 2 ^ e.toNat, 2 ^ (-e).toNat)

/-- e^p, correctly rounded (R192). -/
def fExp (x : F16) : Lane :=
  match ofF16 x with
  | .nan => .ok nan16
  | .inf neg => .ok (if neg then 0 else inf16 false)
  | .fin neg m e =>
    let f := fracOf m e
    if neg then
      if f.1 > 200 * f.2 then .ok 0 else let r := expNeg f.1 f.2; .rounded (rneF16 false r.1 1 (-(r.2 : Int)))
    else if f.1 > 200 * f.2 then ⟨0x7F7F, false, false, true⟩
    else let r := expPos f.1 f.2; .rounded (rneF16 false r.1 1 ((r.2 : Int) - fixP))

/-- 2 atanh(n / d) / (n / d) × 2^320 for n / d at most 1/3. -/
def atanhSeries (n d : Nat) : Nat :=
  ((List.range 110).foldl (fun (a : Nat × Nat) i => (a.1 + a.2 / (2 * i + 1), a.2 * n * n / (d * d))) (0, 2 * 2 ^ fixP)).1

/-- ln p, correctly rounded (R192). -/
def fLog (x : F16) : Lane :=
  match ofF16 x with
  | .nan => .ok nan16
  | .inf neg => if neg then .invalid else .ok (inf16 false)
  | .fin neg m e =>
    if m = 0 then .ok (inf16 true)
    else if neg then .invalid
    else
      let l := Nat.log2 m
      let y := m - 2 ^ l
      let w := 2 * 2 ^ l + y
      let frac : Int := (atanhSeries y w * y / w : Nat)
      let v : Int := ((l : Int) + e) * ln2Fix + frac
      .rounded (if v = 0 then (0, false) else rneF16 (v < 0) v.natAbs 1 (-(fixP : Int)))

/-- The exact value of a rational rounded once, a zero result giving +0 (R205). -/
def ratOut (neg : Bool) (n d : Nat) : Lane :=
  let r := rneF16 neg n d 0
  .rounded (if r.1 = 0x8000 then 0 else r.1, r.2)

/-- e^(−|z|) as a fraction (T, 2^q), |z| = n / d; beyond 1,000 its value at 1,000 stands for it, which rounds alike. -/
def expAbs (n d : Nat) : Nat × Nat :=
  let r := if n > 1000 * d then expNeg 1000 1 else expNeg n d
  (r.1, 2 ^ r.2)

/-- ln(1 + t/u) for 0 < t ≤ u as a fraction. -/
def log1p (t u : Nat) : Nat × Nat := (atanhSeries t (2 * u + t) * t, 2 ^ fixP * (2 * u + t))

/-- f(z) of pairs 0 to 7 at a finite non-zero z = ±n / d (R170). -/
def pairFirst (p : Nat) (neg : Bool) (n d : Nat) : Lane :=
  match p with
  | 1 => if neg then .ok 0 else ratOut false n d
  | 2 => if neg then .ok 0 else ratOut false (n * n) (d * d)
  | 3 =>
    let t := expAbs n d
    if neg then ratOut true (n * t.1) (d * (t.1 + t.2)) else ratOut false (n * t.2) (d * (t.1 + t.2))
  | 4 =>
    let un := 797885 * n * (1000000 * d * d + 44715 * n * n)
    let ud := 1000000 * 1000000 * d * d * d
    let s := expAbs (2 * un) ud
    if neg then ratOut true (n * s.1) (d * (s.1 + s.2)) else ratOut false (n * s.2) (d * (s.1 + s.2))
  | 5 => let t := expAbs n d; ratOut false (if neg then t.1 else t.2) (t.1 + t.2)
  | 6 => let t := expAbs (2 * n) d; ratOut neg (t.2 - t.1) (t.2 + t.1)
  | _ =>
    let t := expAbs n d
    let l := log1p t.1 t.2
    if neg then ratOut false l.1 l.2 else ratOut false (n * l.2 + l.1 * d) (d * l.2)

/-- f′(z) of pairs 0 to 7 at a finite non-zero z = ±n / d (R170). -/
def pairSecond (p : Nat) (neg : Bool) (n d : Nat) : Lane :=
  match p with
  | 0 => .ok 0x3F80
  | 1 => .ok (if neg then 0 else 0x3F80)
  | 2 => if neg then .ok 0 else ratOut false (2 * n) d
  | 3 =>
    let t := expAbs n d
    let a := t.1 + t.2
    let v : Int := if neg then (t.1 : Int) * ((d : Int) * a - n * t.2) else (t.2 : Int) * (d * a + n * t.1)
    ratOut (v < 0) v.natAbs (d * a * a)
  | 4 =>
    let un := 797885 * n * (1000000 * d * d + 44715 * n * n)
    let ud := 1000000 * 1000000 * d * d * d
    let s := expAbs (2 * un) ud
    let a := s.1 + s.2
    let k : Nat := 2 * s.1 * s.2 * n * 797885 * (1000000 * d * d + 134145 * n * n)
    let den := d * a * a * 1000000 * (1000000 * d * d)
    let first : Nat := (if neg then s.1 else s.2) * a * d * 1000000 * (1000000 * d * d)
    let v : Int := if neg then (first : Int) - k else (first : Int) + k
    ratOut (v < 0) v.natAbs den
  | 5 => let t := expAbs n d; let a := t.1 + t.2; ratOut false (t.1 * t.2) (a * a)
  | 6 => let t := expAbs (2 * n) d; let a := t.1 + t.2; ratOut false (4 * t.1 * t.2) (a * a)
  | _ => let t := expAbs n d; ratOut false (if neg then t.1 else t.2) (t.1 + t.2)

/-- f at ±0 of pairs 1 to 7 (R170). -/
def pairZero (p : Nat) : F16 := if p = 5 then 0x3F00 else if p = 7 then 0x3F31 else 0

/-- f′ at ±0 (R170). -/
def pairZero' (p : Nat) : F16 :=
  match p with
  | 0 | 6 => 0x3F80
  | 1 | 2 => 0
  | 5 => 0x3E80
  | _ => 0x3F00

/-- f at an infinity: the limit of the function (DEDUCED; R170's columns give only f′ there). -/
def pairInf (p : Nat) (neg : Bool) : F16 :=
  if neg then (if p = 6 then 0xBF80 else 0) else (if p = 5 ∨ p = 6 then 0x3F80 else inf16 false)

/-- f′ at an infinity (R170). -/
def pairInf' (p : Nat) (neg : Bool) : F16 :=
  match p with
  | 0 => 0x3F80
  | 2 => if neg then 0 else inf16 false
  | 5 | 6 => 0
  | _ => if neg then 0 else 0x3F80

/-- TAB1 (t = 0) and TAB2 (t = 1) of pairs 0 to 7 (R205). -/
def pairEval (p t : Nat) (x : F16) : Lane :=
  match ofF16 x with
  | .nan => .ok nan16
  | .inf neg => if t = 0 then (if p = 0 then .ok x else .ok (pairInf p neg)) else .ok (pairInf' p neg)
  | .fin neg m e =>
    let f := fracOf m e
    if t = 0 then
      if p = 0 then .ok x else if m = 0 then .ok (pairZero p) else pairFirst p neg f.1 f.2
    else if m = 0 then .ok (pairZero' p) else pairSecond p neg f.1 f.2

/-- The elements of a table image that an evaluation reads (R207, R209). -/
def tableUses (k : Nat → F16) (x : F16) : List Nat :=
  let eb := (k 0).toNat % 256
  match ofF16 x with
  | .nan => []
  | .inf neg => [if neg then 531 else 530]
  | .fin neg _ _ =>
    if eb < 1 ∨ eb > 239 then []
    else
      let o := 16 + (if neg then 257 else 0)
      let e := bits x.toNat 14 7
      if e < eb then [o]
      else if e - eb > 15 then [o + 256]
      else let i := o + 16 * (e - eb) + bits x.toNat 6 3; [i, i + 1]

/-- TAB1 and TAB2 of pairs 8 to 15 on the table image `k` (544 F16 elements, R206, R207). -/
def tableEval (k : Nat → F16) (x : F16) : Lane :=
  let eb := (k 0).toNat % 256
  let knot := fun (v : F16) => if isNaN v then Lane.mk nan16 true false false else .ok v
  match ofF16 x with
  | .nan => .ok nan16
  | .inf neg => knot (k (if neg then 531 else 530))
  | .fin neg _ _ =>
    if eb < 1 ∨ eb > 239 then .invalid
    else
      let o := 16 + (if neg then 257 else 0)
      let e := bits x.toNat 14 7
      if e < eb then knot (k o)
      else if e - eb > 15 then knot (k (o + 256))
      else
        let i := o + 16 * (e - eb) + bits x.toNat 6 3
        let r := bits x.toNat 2 0
        let a := k i
        let b := k (i + 1)
        if nonFinite a || nonFinite b then
          if r = 0 then { knot a with inv := isNaN a } else ⟨nan16, isNaN a || isNaN b, true, false⟩
        else
          let d := Dy.mul ((dyF16 b).add (dyF16 a).neg) ⟨r, -3⟩
          .rounded (Dy.rne ((dyF16 a).add d))

end Sys2Proof
end

