-- ==== Sys2Proof/Machine/RegMap.lean ====
section
/-! DEFINITION. The control window (R32): the byte address of every register of the register tables (a per-cell block's register
by its offset in the per-cell window, R33), the bits that accept plain writes and the W1C bits of each, the values after a power-on
reset (R10), and the ranges of R11. The rows follow the register tables of the chapters. -/
namespace Sys2Proof.Machine.Reg

/-- R14. -/
def CAP_PART_ID : Nat := 0x0
/-- R14. -/
def CAP_REV_COMPUTE : Nat := 0x4
/-- R14. -/
def CAP_REV_OTHER : Nat := 0x8
/-- R49. -/
def CAP_TABLE_VER : Nat := 0xc
/-- R49. -/
def CAP_TABLE_LEN : Nat := 0x10
/-- R49. -/
def CAP_HASH : Nat := 0x40
/-- R66. -/
def SCH_CTRL : Nat := 0x10000
/-- R66. -/
def SCH_STATUS : Nat := 0x10004
/-- R66. -/
def SCH_IMAGE_LO : Nat := 0x10008
/-- R66. -/
def SCH_IMAGE_HI : Nat := 0x1000c
/-- R66. -/
def SCH_START_LO : Nat := 0x10010
/-- R66. -/
def SCH_START_HI : Nat := 0x10014
/-- R66. -/
def SCH_STEP : Nat := 0x10018
/-- R66. -/
def SCH_STEP_TICK : Nat := 0x1001c
/-- R66. -/
def SCH_TICK_LO : Nat := 0x10020
/-- R66. -/
def SCH_TICK_HI : Nat := 0x10024
/-- R66. -/
def SCH_VIOL : Nat := 0x10030
/-- R66. -/
def SCH_VIOL_FIRST : Nat := 0x10034
/-- R66. -/
def SCH_VIOL_TICK : Nat := 0x10038
/-- R66. -/
def SCH_DRAIN_WAITS : Nat := 0x1003c
/-- R66. -/
def SCH_CASTING_HASH : Nat := 0x10040
/-- R94 per-cell offset. -/
def ARR_CTRL : Nat := 0x0
/-- R94 per-cell offset. -/
def ARR_STICKY : Nat := 0x4
/-- R94 per-cell offset. -/
def ARR_SAT_COUNT : Nat := 0x8
/-- R94 per-cell offset. -/
def ARR_FAIL : Nat := 0xc
/-- R94 per-cell offset. -/
def ARR_PHASES_RUN : Nat := 0x10
/-- R94 per-cell offset. -/
def ARR_PHASES_SKIPPED : Nat := 0x14
/-- R94 per-cell offset. -/
def ARR_WRITES_DONE : Nat := 0x18
/-- R94 per-cell offset. -/
def ARR_WRITES_UNCHANGED : Nat := 0x1c
/-- R94 per-cell offset. -/
def ARR_OVF : Nat := 0x40
/-- R94 per-cell offset. -/
def ARR_ROWMASK : Nat := 0x100
/-- R94 per-cell offset. -/
def ARR_PEEK_SEL : Nat := 0x200
/-- R94 per-cell offset. -/
def ARR_PEEK_DATA : Nat := 0x204
/-- R94 per-cell offset. -/
def ARR_PEEK_EXP : Nat := 0x208
/-- R118. -/
def CAL_CTRL : Nat := 0x40000
/-- R118. -/
def CAL_DELTA : Nat := 0x40004
/-- R118. -/
def CAL_INTERVAL : Nat := 0x40008
/-- R118. -/
def CAL_STICKY : Nat := 0x4000c
/-- R118. -/
def CAL_CHECK_FAILS : Nat := 0x40010
/-- R118. -/
def CAL_RECALS : Nat := 0x40014
/-- R118. -/
def CAL_LAST : Nat := 0x40018
/-- R118. -/
def CAL_SEL : Nat := 0x40020
/-- R118. -/
def CAL_TRIM : Nat := 0x40024
/-- R118. -/
def CAL_ARRAY_INFO : Nat := 0x40028
/-- R118. -/
def CAL_SLICE : Nat := 0x4002c
/-- R134 per-cell offset. -/
def ACC_CTRL : Nat := 0x2000
/-- R134 per-cell offset. -/
def ACC_STICKY : Nat := 0x2004
/-- R134 per-cell offset. -/
def ACC_DECL : Nat := 0x2008
/-- R134 per-cell offset. -/
def ACC_LONGSUM : Nat := 0x200c
/-- R134 per-cell offset. -/
def ACC_ADDS : Nat := 0x2010
/-- R134 per-cell offset. -/
def ACC_FOLDS : Nat := 0x2014
/-- R134 per-cell offset. -/
def ACC_ECC : Nat := 0x2018
/-- R134 per-cell offset. -/
def ACC_WAITS : Nat := 0x201c
/-- R134 per-cell offset. -/
def ACC_PEEK_SEL : Nat := 0x2100
/-- R134 per-cell offset. -/
def ACC_PEEK_DATA : Nat := 0x2104
/-- R134 per-cell offset. -/
def ACC_PEEK_BIND : Nat := 0x2108
/-- R134 per-cell offset. -/
def ACC_PEEK_EBASE : Nat := 0x210c
/-- R179 per-cell offset. -/
def ANV_CTRL : Nat := 0x4000
/-- R179 per-cell offset. -/
def ANV_STICKY : Nat := 0x4004
/-- R179 per-cell offset. -/
def ANV_PRODUCTS : Nat := 0x4008
/-- R179 per-cell offset. -/
def ANV_STAGES : Nat := 0x400c
/-- R179 per-cell offset. -/
def ANV_DISCARDS : Nat := 0x4010
/-- R179 per-cell offset. -/
def ANV_ECC : Nat := 0x4014
/-- R179 per-cell offset. -/
def ANV_CHAIN0 : Nat := 0x4020
/-- R179 per-cell offset. -/
def ANV_CHAIN1 : Nat := 0x4024
/-- R179 per-cell offset. -/
def ANV_KEEP : Nat := 0x4100
/-- R179 per-cell offset. -/
def ANV_PEEK_SEL : Nat := 0x4200
/-- R179 per-cell offset. -/
def ANV_PEEK_DATA : Nat := 0x4204
/-- R213 per-cell offset. -/
def BUR_CTRL : Nat := 0x6000
/-- R213 per-cell offset. -/
def BUR_STICKY : Nat := 0x6004
/-- R213 per-cell offset. -/
def BUR_EXC_FIRST : Nat := 0x6008
/-- R213 per-cell offset. -/
def BUR_EMPTYROW : Nat := 0x600c
/-- R213 per-cell offset. -/
def BUR_OOR_COUNT : Nat := 0x6010
/-- R213 per-cell offset. -/
def BUR_WORDS : Nat := 0x6014
/-- R213 per-cell offset. -/
def BUR_BEATS : Nat := 0x6018
/-- R213 per-cell offset. -/
def BUR_ECC : Nat := 0x601c
/-- R213 per-cell offset. -/
def BUR_LMASK : Nat := 0x6100
/-- R213 per-cell offset. -/
def BUR_SREG : Nat := 0x6200
/-- R213 per-cell offset. -/
def BUR_TAB_SEL : Nat := 0x6300
/-- R213 per-cell offset. -/
def BUR_TAB_DATA : Nat := 0x6304
/-- R239. -/
def SCH_VERSION : Nat := 0x10100
/-- R239. -/
def SCH_STAMP : Nat := 0x10104
/-- R239. -/
def SCH_MASTER_BASE : Nat := 0x10110
/-- R239. -/
def SCH_MASTER_SPAN : Nat := 0x10120
/-- R239. -/
def SCH_MASTER_REC : Nat := 0x10124
/-- R239. -/
def SCH_BAR : Nat := 0x10130
/-- R239. -/
def SCH_OUTCOME : Nat := 0x10134
/-- R239. -/
def SCH_COMMITS : Nat := 0x10138
/-- R239. -/
def SCH_SKIPS : Nat := 0x1013c
/-- R239. -/
def SCH_REWINDS : Nat := 0x10140
/-- R239. -/
def SCH_STEP_STICKY : Nat := 0x10144
/-- R239. -/
def SCH_LOG_BASE_LO : Nat := 0x10150
/-- R239. -/
def SCH_LOG_BASE_HI : Nat := 0x10154
/-- R239. -/
def SCH_LOG_LEN : Nat := 0x10158
/-- R239. -/
def SCH_LOG_HEAD : Nat := 0x1015c
/-- R239. -/
def SCH_CAP_BASE_LO : Nat := 0x10160
/-- R239. -/
def SCH_CAP_BASE_HI : Nat := 0x10164
/-- R239. -/
def SCH_CAP_LEN : Nat := 0x10168
/-- R239. -/
def SCH_CAP_HEAD : Nat := 0x1016c
/-- R239. -/
def SCH_CAP_OLDEST : Nat := 0x10170
/-- R239. -/
def SCH_CAP_CTRL : Nat := 0x10174
/-- R239. -/
def SCH_LOG_READ : Nat := 0x10178
/-- R266. -/
def MEM_CTRL : Nat := 0x80000
/-- R266. -/
def MEM_STICKY : Nat := 0x80004
/-- R266. -/
def MEM_STATUS : Nat := 0x80008
/-- R266. -/
def MEM_THERM : Nat := 0x8000c
/-- R266. -/
def MEM_SCRUB : Nat := 0x80010
/-- R266. -/
def MEM_ARB_WINDOW : Nat := 0x80014
/-- R266. -/
def MEM_ARB_HOLD : Nat := 0x80018
/-- R266. -/
def MEM_ARB_WEIGHT : Nat := 0x80020
/-- R266. -/
def MEM_TEMP : Nat := 0x80040
/-- R266. -/
def MEM_ERR : Nat := 0x80060
/-- R266. -/
def MEM_UE_ADDR_LO : Nat := 0x80080
/-- R266. -/
def MEM_UE_ADDR_HI : Nat := 0x80084
/-- R266. -/
def MEM_ARB_LINES : Nat := 0x800a0
/-- R266. -/
def MEM_ARB_CUTS : Nat := 0x800c0
/-- R305. -/
def FAB_CTRL : Nat := 0x90000
/-- R305. -/
def FAB_STICKY : Nat := 0x90004
/-- R305. -/
def FAB_ADDR : Nat := 0x90008
/-- R305. -/
def FAB_ROLE : Nat := 0x9000c
/-- R305. -/
def FAB_LOCK : Nat := 0x90010
/-- R305. -/
def FAB_COMBINE : Nat := 0x90014
/-- R305. -/
def FAB_WINDOW : Nat := 0x90018
/-- R305. -/
def FAB_HOLDS : Nat := 0x9001c
/-- R305. -/
def FAB_HOLD_CYCLES : Nat := 0x90020
/-- R305. -/
def FAB_MANDREL_LO : Nat := 0x90024
/-- R305. -/
def FAB_MANDREL_HI : Nat := 0x90028
/-- R305. -/
def FAB_PARCEL_DROPS : Nat := 0x9002c
/-- R305. -/
def FAB_PORT_SEL : Nat := 0x90030
/-- R305. -/
def FAB_PORT_STATUS : Nat := 0x90034
/-- R305. -/
def FAB_PORT_PARTNER : Nat := 0x90038
/-- R305. -/
def FAB_PORT_DELAY : Nat := 0x9003c
/-- R305. -/
def FAB_PORT_FEC_CE : Nat := 0x90040
/-- R305. -/
def FAB_PORT_FEC_UE : Nat := 0x90044
/-- R305. -/
def FAB_LANE_THRESH : Nat := 0x90048
/-- R305. -/
def FAB_PORTMAP : Nat := 0x90080
/-- R305. -/
def FAB_WROUTE : Nat := 0x90200
/-- R330. -/
def HST_CTRL : Nat := 0xa0000
/-- R330. -/
def HST_STICKY : Nat := 0xa0004
/-- R330. -/
def HST_OWNER : Nat := 0xa0008
/-- R330. -/
def HST_KEY0 : Nat := 0xa000c
/-- R330. -/
def HST_PORT : Nat := 0xa0010
/-- R330. -/
def HST_QP_ERR : Nat := 0xa0020
/-- R330. -/
def HST_MR_SEL : Nat := 0xa0040
/-- R330. -/
def HST_MR_BASE : Nat := 0xa0044
/-- R330. -/
def HST_MR_LEN : Nat := 0xa0048
/-- R330. -/
def HST_MR_VA_LO : Nat := 0xa004c
/-- R330. -/
def HST_MR_VA_HI : Nat := 0xa0050
/-- R330. -/
def HST_MR_KEY : Nat := 0xa0054
/-- R330. -/
def HST_QP_SEL : Nat := 0xa0080
/-- R330. -/
def HST_QP_CTX0 : Nat := 0xa0084
/-- R330. -/
def HST_QP_CTX1 : Nat := 0xa0088
/-- R330. -/
def HST_QP_CTX2 : Nat := 0xa008c
/-- R330. -/
def HST_QP_CTX3 : Nat := 0xa0090
/-- R330. -/
def HST_QP_CTX4 : Nat := 0xa0094
/-- R330. -/
def HST_QP_CTX5 : Nat := 0xa0098
/-- R330. -/
def HST_QP_CTX6 : Nat := 0xa009c
/-- R330. -/
def HST_QP_CTX7 : Nat := 0xa00a0
/-- R330. -/
def HST_INTAKE_CTRL : Nat := 0xa0100
/-- R330. -/
def HST_INTAKE_FIRST : Nat := 0xa0104
/-- R330. -/
def HST_INTAKE_BATCH : Nat := 0xa0108
/-- R330. -/
def HST_INTAKE_PROD : Nat := 0xa010c
/-- R330. -/
def HST_INTAKE_BASE : Nat := 0xa0110
/-- R330. -/
def HST_INTAKE_GEOM : Nat := 0xa0120
/-- R330. -/
def HST_MBOX_PROD : Nat := 0xa0200
/-- R330. -/
def HST_MBOX_CONS : Nat := 0xa0204
/-- R330. -/
def HST_CC : Nat := 0xa0300
/-- R330. -/
def HST_RX_DROPS : Nat := 0xa0400
/-- R330. -/
def HST_NAKS : Nat := 0xa0404
/-- R330. -/
def HST_CNP_RX : Nat := 0xa0408
/-- R330. -/
def HST_CNP_TX : Nat := 0xa040c
/-- R330. -/
def HST_EVT_DROPS : Nat := 0xa0410
/-- R330. -/
def HST_PEER_SEL : Nat := 0xa0500
/-- R330. -/
def HST_PEER_IP : Nat := 0xa0504
/-- R330. -/
def HST_MBOX : Nat := 0xa8000
/-- R356. -/
def HLT_TAINT : Nat := 0x60100
/-- R356. -/
def HLT_TAINT_WHERE : Nat := 0x60104
/-- R356. -/
def HLT_TAINT_TICK : Nat := 0x60108
/-- R356. -/
def HLT_CLASS : Nat := 0x6010c
/-- R356. -/
def HLT_HMARK_COUNT : Nat := 0x60110
/-- R356. -/
def HLT_TRANSIENTS : Nat := 0x60114
/-- R356. -/
def HLT_PERMANENTS : Nat := 0x60118
/-- R356. -/
def HLT_LATE_TAINTS : Nat := 0x6011c
/-- R356. -/
def HLT_POISON_TX : Nat := 0x60120
/-- R356. -/
def HLT_RISK : Nat := 0x60140
/-- R356. -/
def HLT_RISK_CFG : Nat := 0x60144
/-- R356. -/
def HLT_RISK_CALLS : Nat := 0x60148
/-- R356. -/
def HLT_RISK_W : Nat := 0x60160
/-- R356. -/
def HLT_AREC_CFG : Nat := 0x60180
/-- R356. -/
def HLT_AREC_SEQ_LO : Nat := 0x60184
/-- R356. -/
def HLT_AREC_SEQ_HI : Nat := 0x60188
/-- R356. -/
def HLT_AREC_QUEUE : Nat := 0x6018c
/-- R356. -/
def HLT_AREC_DROPS : Nat := 0x60190
/-- R377. -/
def ING_CTRL : Nat := 0x70000
/-- R377. -/
def ING_STICKY : Nat := 0x70004
/-- R377. -/
def ING_STATUS : Nat := 0x70008
/-- R377. -/
def ING_POLICY : Nat := 0x7000c
/-- R377. -/
def ING_MARGIN : Nat := 0x70010
/-- R377. -/
def ING_TARGET : Nat := 0x70014
/-- R377. -/
def ING_WARDEN : Nat := 0x70018
/-- R377. -/
def ING_BUDDY : Nat := 0x7001c
/-- R377. -/
def ING_GUEST : Nat := 0x70020
/-- R377. -/
def ING_FEED : Nat := 0x70024
/-- R377. -/
def ING_MOULD_BASE : Nat := 0x70028
/-- R377. -/
def ING_MOULD_LEN : Nat := 0x7002c
/-- R377. -/
def ING_GUEST_BASE : Nat := 0x70030
/-- R377. -/
def ING_GUEST_LEN : Nat := 0x70034
/-- R377. -/
def ING_GROUP_BASE : Nat := 0x70038
/-- R377. -/
def ING_GROUP_LEN : Nat := 0x7003c
/-- R377. -/
def ING_HOST_CTRL : Nat := 0x70040
/-- R377. -/
def ING_HOST_QP : Nat := 0x70044
/-- R377. -/
def ING_HOST_VA_LO : Nat := 0x70054
/-- R377. -/
def ING_HOST_VA_HI : Nat := 0x70058
/-- R377. -/
def ING_HOST_RKEY : Nat := 0x7005c
/-- R377. -/
def ING_HOST_LEN : Nat := 0x70060
/-- R377. -/
def ING_HOST_ACK : Nat := 0x70064
/-- R377. -/
def ING_LAST_SERIAL : Nat := 0x70080
/-- R377. -/
def ING_LAST_VER : Nat := 0x70084
/-- R377. -/
def ING_SEC_SERIAL : Nat := 0x70088
/-- R377. -/
def ING_SEC_VER : Nat := 0x7008c
/-- R377. -/
def ING_AGE : Nat := 0x70090
/-- R377. -/
def ING_PROGRESS : Nat := 0x70094
/-- R377. -/
def ING_GUEST_STAT : Nat := 0x700a0
/-- R377. -/
def ING_GUEST0_VER : Nat := 0x700a4
/-- R377. -/
def ING_GUEST1_VER : Nat := 0x700a8
/-- R377. -/
def ING_RESTORE_SEL : Nat := 0x700b0
/-- R377. -/
def ING_RESTORE_VER : Nat := 0x700b4
/-- R377. -/
def ING_RESTORE_ROLE : Nat := 0x700b8
/-- R391. -/
def SPR_CTRL : Nat := 0x50000
/-- R391. -/
def SPR_STICKY : Nat := 0x50004
/-- R391. -/
def SPR_REQ : Nat := 0x50008
/-- R391. -/
def SPR_LOST : Nat := 0x5000c
/-- R391. -/
def SPR_SEL : Nat := 0x50010
/-- R391. -/
def SPR_FILL : Nat := 0x50014
/-- R391. -/
def SPR_FILL_SRC_LO : Nat := 0x50018
/-- R391. -/
def SPR_FILL_SRC_HI : Nat := 0x5001c
/-- R391. -/
def SPR_COUNT : Nat := 0x50020
/-- R391. -/
def SPR_CMAP_SEL : Nat := 0x50030
/-- R391. -/
def SPR_CMAP : Nat := 0x50034
/-- R391. -/
def SPR_COLMAP_SEL : Nat := 0x50038
/-- R391. -/
def SPR_COLMAP : Nat := 0x5003c
/-- R391. -/
def SPR_ARRAY : Nat := 0x50040
/-- R391. -/
def SPR_WEAR_SEL : Nat := 0x50100
/-- R391. -/
def SPR_WEAR : Nat := 0x50104
/-- R391. -/
def SPR_PCELL_SEL : Nat := 0x50200
/-- R411. -/
def PWR_MODE : Nat := 0x20000
/-- R411. -/
def PWR_STATUS : Nat := 0x20004
/-- R411. -/
def PWR_STICKY : Nat := 0x20008
/-- R411. -/
def PWR_WAKE_CFG : Nat := 0x2000c
/-- R411. -/
def PWR_WAKE_CAUSE : Nat := 0x20010
/-- R411. -/
def PWR_RTC_LO : Nat := 0x20014
/-- R411. -/
def PWR_RTC_HI : Nat := 0x20018
/-- R411. -/
def PWR_ALARM_LO : Nat := 0x2001c
/-- R411. -/
def PWR_ALARM_HI : Nat := 0x20020
/-- R411. -/
def PWR_STRETCH : Nat := 0x20024
/-- R411. -/
def PWR_TJ : Nat := 0x20028
/-- R411. -/
def PWR_ILIM : Nat := 0x2002c
/-- R411. -/
def PWR_PLIM : Nat := 0x20030
/-- R411. -/
def PWR_VCORE : Nat := 0x20034
/-- R411. -/
def PWR_QIMG_BASE : Nat := 0x20040
/-- R411. -/
def PWR_FWIMG_BASE : Nat := 0x20050
/-- R411. -/
def PWR_PMB_SEL : Nat := 0x20060
/-- R411. -/
def PWR_PMB_DATA : Nat := 0x20064
/-- R411. -/
def PWR_ENTRIES : Nat := 0x20068
/-- R423. -/
def TSM_CTRL : Nat := 0x30000
/-- R423. -/
def TSM_STICKY : Nat := 0x30004
/-- R423. -/
def TSM_EVENT_FIRST : Nat := 0x30008
/-- R423. -/
def TSM_WIN_EVENTS : Nat := 0x3000c
/-- R423. -/
def TSM_PLAUS_FAILS : Nat := 0x30010
/-- R423. -/
def TSM_PLAUS : Nat := 0x30014
/-- R423. -/
def TSM_HOT : Nat := 0x30018
/-- R423. -/
def TSM_VCORE : Nat := 0x3001c
/-- R423. -/
def TSM_URGENT : Nat := 0x30020
/-- R423. -/
def TSM_SEL : Nat := 0x30024
/-- R423. -/
def TSM_CH_WIN : Nat := 0x30028
/-- R423. -/
def TSM_CH_DATA : Nat := 0x3002c
/-- R443. -/
def NVS_CTRL : Nat := 0xb0000
/-- R443. -/
def NVS_STATUS : Nat := 0xb0004
/-- R443. -/
def NVS_STICKY : Nat := 0xb0008
/-- R443. -/
def NVS_STORE_SEQ : Nat := 0xb000c
/-- R443. -/
def NVS_FW_SVN : Nat := 0xb0010
/-- R443. -/
def NVS_MIN_SVN : Nat := 0xb0014
/-- R443. -/
def NVS_KEYS : Nat := 0xb0018
/-- R443. -/
def NVS_SERIAL_LO : Nat := 0xb001c
/-- R443. -/
def NVS_SERIAL_HI : Nat := 0xb0020
/-- R443. -/
def NVS_STORES : Nat := 0xb0024
/-- R443. -/
def NVS_CERT_LEN : Nat := 0xb0028
/-- R443. -/
def NVS_FW_DIGEST : Nat := 0xb0040
/-- R443. -/
def NVS_CFG_DIGEST : Nat := 0xb0060
/-- R443. -/
def NVS_SET_DIGEST : Nat := 0xb0080
/-- R443. -/
def NVS_OWNER_HASH : Nat := 0xb00a0
/-- R443. -/
def NVS_ID_HASH : Nat := 0xb00c0
/-- R443. -/
def NVS_QUOTE_NONCE : Nat := 0xb0100
/-- R443. -/
def NVS_QUOTE_ADDR_LO : Nat := 0xb0120
/-- R443. -/
def NVS_QUOTE_ADDR_HI : Nat := 0xb0124
/-- R443. -/
def NVS_ID_PUB : Nat := 0xb0140
/-- R443. -/
def NVS_CERT : Nat := 0xb8000
/-- R461. -/
def HLT_STICKY0 : Nat := 0x60000
/-- R461. -/
def HLT_ACC_FIRST : Nat := 0x60004
/-- R461. -/
def HLT_SUMMARY : Nat := 0x60008
/-- R461. -/
def HLT_CELL_FIRST : Nat := 0x6000c
/-- R461. -/
def HLT_JRNL_CFG : Nat := 0x60010
/-- R461. -/
def HLT_JRNL_HEAD : Nat := 0x60014
/-- R461. -/
def HLT_JRNL_DROPS : Nat := 0x60018
/-- R461. -/
def HLT_JRNL : Nat := 0x68000
/-- R462. -/
def MGT_CTRL : Nat := 0xc0000
/-- R462. -/
def MGT_STICKY : Nat := 0xc0004
/-- R462. -/
def MGT_STATUS : Nat := 0xc0008
/-- R462. -/
def MGT_EPOCH : Nat := 0xc000c
/-- R462. -/
def MGT_TALLY_SEQ : Nat := 0xc0010
/-- R462. -/
def MGT_TALLY_OK : Nat := 0xc0014
/-- R462. -/
def MGT_TALLY_REJ : Nat := 0xc0018
/-- R462. -/
def MGT_WAKE_FRAMES : Nat := 0xc001c
/-- R462. -/
def MGT_DWI : Nat := 0xc0020
/-- R462. -/
def MGT_DWI_FRAMES : Nat := 0xc0024

end Sys2Proof.Machine.Reg

namespace Sys2Proof.Machine

/-- The registers at byte addresses `lo`, `lo + 4`, …, `hi`: the bits a plain write changes and the W1C bits. -/
structure RegRow where
  lo : Nat
  hi : Nat
  rw : Nat
  w1c : Nat
  deriving DecidableEq, Repr

/-- The registers of block CAP (R32). -/
def rowsCap : List RegRow :=
  [⟨0x0, 0x0, 0x0, 0x0⟩,
   ⟨0x4, 0x4, 0x0, 0x0⟩,
   ⟨0x8, 0x8, 0x0, 0x0⟩,
   ⟨0xc, 0xc, 0x0, 0x0⟩,
   ⟨0x10, 0x10, 0x0, 0x0⟩,
   ⟨0x40, 0x5c, 0x0, 0x0⟩]

/-- The registers of block SCH (R32). -/
def rowsSch : List RegRow :=
  [⟨0x10000, 0x10000, 0x8, 0x0⟩,
   ⟨0x10004, 0x10004, 0x0, 0x0⟩,
   ⟨0x10008, 0x10008, 0xffffffff, 0x0⟩,
   ⟨0x1000c, 0x1000c, 0xffffffff, 0x0⟩,
   ⟨0x10010, 0x10010, 0xffffffff, 0x0⟩,
   ⟨0x10014, 0x10014, 0xffffffff, 0x0⟩,
   ⟨0x10018, 0x10018, 0x0, 0x0⟩,
   ⟨0x1001c, 0x1001c, 0x0, 0x0⟩,
   ⟨0x10020, 0x10020, 0x0, 0x0⟩,
   ⟨0x10024, 0x10024, 0x0, 0x0⟩,
   ⟨0x10030, 0x10030, 0x0, 0x7ff⟩,
   ⟨0x10034, 0x10034, 0x0, 0x0⟩,
   ⟨0x10038, 0x10038, 0x0, 0x0⟩,
   ⟨0x1003c, 0x1003c, 0x0, 0x0⟩,
   ⟨0x10040, 0x1005c, 0x0, 0x0⟩,
   ⟨0x10100, 0x10100, 0xffffffff, 0x0⟩,
   ⟨0x10104, 0x10104, 0x0, 0x0⟩,
   ⟨0x10110, 0x1011c, 0xffffffff, 0x0⟩,
   ⟨0x10120, 0x10120, 0xffffffff, 0x0⟩,
   ⟨0x10124, 0x10124, 0xffffffff, 0x0⟩,
   ⟨0x10130, 0x10130, 0x0, 0x0⟩,
   ⟨0x10134, 0x10134, 0x0, 0x0⟩,
   ⟨0x10138, 0x10138, 0x0, 0x0⟩,
   ⟨0x1013c, 0x1013c, 0x0, 0x0⟩,
   ⟨0x10140, 0x10140, 0x0, 0x0⟩,
   ⟨0x10144, 0x10144, 0x0, 0x3f⟩,
   ⟨0x10150, 0x10150, 0xffffffff, 0x0⟩,
   ⟨0x10154, 0x10154, 0xffffffff, 0x0⟩,
   ⟨0x10158, 0x10158, 0xffffffff, 0x0⟩,
   ⟨0x1015c, 0x1015c, 0x0, 0x0⟩,
   ⟨0x10160, 0x10160, 0xffffffff, 0x0⟩,
   ⟨0x10164, 0x10164, 0xffffffff, 0x0⟩,
   ⟨0x10168, 0x10168, 0xffffffff, 0x0⟩,
   ⟨0x1016c, 0x1016c, 0x0, 0x0⟩,
   ⟨0x10170, 0x10170, 0x0, 0x0⟩,
   ⟨0x10174, 0x10174, 0x1, 0x0⟩,
   ⟨0x10178, 0x10178, 0xffffffff, 0x0⟩]

/-- The registers of block PWR (R32). -/
def rowsPwr : List RegRow :=
  [⟨0x20000, 0x20000, 0x3, 0x0⟩,
   ⟨0x20004, 0x20004, 0x0, 0x0⟩,
   ⟨0x20008, 0x20008, 0x0, 0xff⟩,
   ⟨0x2000c, 0x2000c, 0x3f, 0x0⟩,
   ⟨0x20010, 0x20010, 0x0, 0x0⟩,
   ⟨0x20014, 0x20014, 0xffffffff, 0x0⟩,
   ⟨0x20018, 0x20018, 0xffff, 0x0⟩,
   ⟨0x2001c, 0x2001c, 0xffffffff, 0x0⟩,
   ⟨0x20020, 0x20020, 0xffff, 0x0⟩,
   ⟨0x20024, 0x20024, 0x7, 0x0⟩,
   ⟨0x20028, 0x20028, 0x1fff, 0x0⟩,
   ⟨0x2002c, 0x2002c, 0xfff, 0x0⟩,
   ⟨0x20030, 0x20030, 0x7ff, 0x0⟩,
   ⟨0x20034, 0x20034, 0x3ff, 0x0⟩,
   ⟨0x20040, 0x2004c, 0x8007ffff, 0x0⟩,
   ⟨0x20050, 0x20050, 0x7ffff, 0x0⟩,
   ⟨0x20060, 0x20060, 0x3f, 0x0⟩,
   ⟨0x20064, 0x20064, 0x0, 0x0⟩,
   ⟨0x20068, 0x20068, 0x0, 0x0⟩]

/-- The registers of block TSM (R32). -/
def rowsTsm : List RegRow :=
  [⟨0x30000, 0x30000, 0x0, 0x0⟩,
   ⟨0x30004, 0x30004, 0x0, 0xf⟩,
   ⟨0x30008, 0x30008, 0x0, 0x0⟩,
   ⟨0x3000c, 0x3000c, 0x0, 0x0⟩,
   ⟨0x30010, 0x30010, 0x0, 0x0⟩,
   ⟨0x30014, 0x30014, 0xfff, 0x0⟩,
   ⟨0x30018, 0x30018, 0x0, 0x0⟩,
   ⟨0x3001c, 0x3001c, 0x0, 0x0⟩,
   ⟨0x30020, 0x30020, 0x0, 0x0⟩,
   ⟨0x30024, 0x30024, 0x1ff, 0x0⟩,
   ⟨0x30028, 0x30028, 0x1fffffff, 0x0⟩,
   ⟨0x3002c, 0x3002c, 0x0, 0x0⟩]

/-- The registers of block CAL (R32). -/
def rowsCal : List RegRow :=
  [⟨0x40000, 0x40000, 0xfe, 0x0⟩,
   ⟨0x40004, 0x40004, 0x1ff, 0x0⟩,
   ⟨0x40008, 0x40008, 0xffff, 0x0⟩,
   ⟨0x4000c, 0x4000c, 0x0, 0x7f⟩,
   ⟨0x40010, 0x40010, 0x0, 0x0⟩,
   ⟨0x40014, 0x40014, 0x0, 0x0⟩,
   ⟨0x40018, 0x40018, 0x0, 0x0⟩,
   ⟨0x40020, 0x40020, 0x1ffffff, 0x0⟩,
   ⟨0x40024, 0x40024, 0x3ffff1f, 0x0⟩,
   ⟨0x40028, 0x40028, 0x0, 0x0⟩,
   ⟨0x4002c, 0x4002c, 0x0, 0x0⟩]

/-- The registers of block SPR (R32). -/
def rowsSpr : List RegRow :=
  [⟨0x50000, 0x50000, 0x0, 0x0⟩,
   ⟨0x50004, 0x50004, 0x0, 0x7f⟩,
   ⟨0x50008, 0x50008, 0x3ffffff, 0x0⟩,
   ⟨0x5000c, 0x5000c, 0x0, 0x0⟩,
   ⟨0x50010, 0x50010, 0x7, 0x0⟩,
   ⟨0x50014, 0x50014, 0x0, 0x0⟩,
   ⟨0x50018, 0x50018, 0xffffffff, 0x0⟩,
   ⟨0x5001c, 0x5001c, 0x8000007f, 0x0⟩,
   ⟨0x50020, 0x50020, 0x0, 0x0⟩,
   ⟨0x50030, 0x50030, 0x3ff, 0x0⟩,
   ⟨0x50034, 0x50034, 0x1ff, 0x0⟩,
   ⟨0x50038, 0x50038, 0xffffff, 0x0⟩,
   ⟨0x5003c, 0x5003c, 0x1ff, 0x0⟩,
   ⟨0x50040, 0x50040, 0x1ffff, 0x0⟩,
   ⟨0x50100, 0x50100, 0x7ffff, 0x0⟩,
   ⟨0x50104, 0x50104, 0xffffffff, 0x0⟩,
   ⟨0x50200, 0x50200, 0x7ff, 0x0⟩]

/-- The registers of block HLT (R32). -/
def rowsHlt : List RegRow :=
  [⟨0x60000, 0x60000, 0x0, 0xf⟩,
   ⟨0x60004, 0x60004, 0x0, 0x0⟩,
   ⟨0x60008, 0x60008, 0x0, 0x0⟩,
   ⟨0x6000c, 0x6000c, 0x0, 0x0⟩,
   ⟨0x60010, 0x60010, 0x7, 0x0⟩,
   ⟨0x60014, 0x60014, 0x0, 0x0⟩,
   ⟨0x60018, 0x60018, 0x0, 0x0⟩,
   ⟨0x60100, 0x60100, 0x0, 0x0⟩,
   ⟨0x60104, 0x60104, 0x0, 0x0⟩,
   ⟨0x60108, 0x60108, 0x0, 0x0⟩,
   ⟨0x6010c, 0x6010c, 0x0, 0x0⟩,
   ⟨0x60110, 0x60110, 0x0, 0x0⟩,
   ⟨0x60114, 0x60114, 0x0, 0x0⟩,
   ⟨0x60118, 0x60118, 0x0, 0x0⟩,
   ⟨0x6011c, 0x6011c, 0x0, 0x0⟩,
   ⟨0x60120, 0x60120, 0x0, 0x0⟩,
   ⟨0x60140, 0x60140, 0x0, 0x0⟩,
   ⟨0x60144, 0x60144, 0x1fffff, 0x0⟩,
   ⟨0x60148, 0x60148, 0x0, 0x0⟩,
   ⟨0x60160, 0x6017c, 0xffff, 0x0⟩,
   ⟨0x60180, 0x60180, 0xff01, 0x0⟩,
   ⟨0x60184, 0x60184, 0x0, 0x0⟩,
   ⟨0x60188, 0x60188, 0x0, 0x0⟩,
   ⟨0x6018c, 0x6018c, 0x0, 0x0⟩,
   ⟨0x60190, 0x60190, 0x0, 0x0⟩,
   ⟨0x68000, 0x6ffff, 0x0, 0x0⟩]

/-- The registers of block ING (R32). -/
def rowsIng : List RegRow :=
  [⟨0x70000, 0x70000, 0x0, 0x0⟩,
   ⟨0x70004, 0x70004, 0x0, 0x7ff⟩,
   ⟨0x70008, 0x70008, 0x0, 0x0⟩,
   ⟨0x7000c, 0x7000c, 0xffffffff, 0x0⟩,
   ⟨0x70010, 0x70010, 0xffffff, 0x0⟩,
   ⟨0x70014, 0x70014, 0x0, 0x0⟩,
   ⟨0x70018, 0x70018, 0x0, 0x0⟩,
   ⟨0x7001c, 0x7001c, 0x1ffff, 0x0⟩,
   ⟨0x70020, 0x70020, 0x1ffff, 0x0⟩,
   ⟨0x70024, 0x70024, 0x0, 0x0⟩,
   ⟨0x70028, 0x70028, 0x7fffff, 0x0⟩,
   ⟨0x7002c, 0x7002c, 0x7fffff, 0x0⟩,
   ⟨0x70030, 0x70030, 0x7fffff, 0x0⟩,
   ⟨0x70034, 0x70034, 0x7fffff, 0x0⟩,
   ⟨0x70038, 0x70038, 0x7fffff, 0x0⟩,
   ⟨0x7003c, 0x7003c, 0x1ffff, 0x0⟩,
   ⟨0x70040, 0x70040, 0x1, 0x0⟩,
   ⟨0x70044, 0x70050, 0x3fff, 0x0⟩,
   ⟨0x70054, 0x70054, 0xffffffff, 0x0⟩,
   ⟨0x70058, 0x70058, 0xffffffff, 0x0⟩,
   ⟨0x7005c, 0x7005c, 0xffffffff, 0x0⟩,
   ⟨0x70060, 0x70060, 0x7fffff, 0x0⟩,
   ⟨0x70064, 0x70064, 0x0, 0x0⟩,
   ⟨0x70080, 0x70080, 0x0, 0x0⟩,
   ⟨0x70084, 0x70084, 0x0, 0x0⟩,
   ⟨0x70088, 0x70088, 0x0, 0x0⟩,
   ⟨0x7008c, 0x7008c, 0x0, 0x0⟩,
   ⟨0x70090, 0x70090, 0x0, 0x0⟩,
   ⟨0x70094, 0x70094, 0x0, 0x0⟩,
   ⟨0x700a0, 0x700a0, 0x0, 0x0⟩,
   ⟨0x700a4, 0x700a4, 0x0, 0x0⟩,
   ⟨0x700a8, 0x700a8, 0x0, 0x0⟩,
   ⟨0x700b0, 0x700b0, 0xffff0001, 0x0⟩,
   ⟨0x700b4, 0x700b4, 0xffffffff, 0x0⟩,
   ⟨0x700b8, 0x700b8, 0xffff, 0x0⟩]

/-- The registers of block MEM (R32). -/
def rowsMem : List RegRow :=
  [⟨0x80000, 0x80000, 0x0, 0x0⟩,
   ⟨0x80004, 0x80004, 0x0, 0x1ff⟩,
   ⟨0x80008, 0x80008, 0x0, 0x0⟩,
   ⟨0x8000c, 0x8000c, 0x1fff, 0x0⟩,
   ⟨0x80010, 0x80010, 0xff, 0x0⟩,
   ⟨0x80014, 0x80014, 0x7ff, 0x0⟩,
   ⟨0x80018, 0x80018, 0xffff, 0x0⟩,
   ⟨0x80020, 0x80034, 0xff, 0x0⟩,
   ⟨0x80040, 0x8005c, 0x0, 0x0⟩,
   ⟨0x80060, 0x8007c, 0x0, 0x0⟩,
   ⟨0x80080, 0x80080, 0x0, 0x0⟩,
   ⟨0x80084, 0x80084, 0x0, 0x0⟩,
   ⟨0x800a0, 0x800b4, 0x0, 0x0⟩,
   ⟨0x800c0, 0x800c0, 0x0, 0x0⟩]

/-- The registers of block FAB (R32). -/
def rowsFab : List RegRow :=
  [⟨0x90000, 0x90000, 0x0, 0x0⟩,
   ⟨0x90004, 0x90004, 0x0, 0x7fff⟩,
   ⟨0x90008, 0x90008, 0x0, 0x0⟩,
   ⟨0x9000c, 0x9000c, 0x1ffff, 0x0⟩,
   ⟨0x90010, 0x90010, 0x0, 0x0⟩,
   ⟨0x90014, 0x90014, 0x0, 0x0⟩,
   ⟨0x90018, 0x90018, 0x0, 0x0⟩,
   ⟨0x9001c, 0x9001c, 0x0, 0x0⟩,
   ⟨0x90020, 0x90020, 0x0, 0x0⟩,
   ⟨0x90024, 0x90024, 0x0, 0x0⟩,
   ⟨0x90028, 0x90028, 0x0, 0x0⟩,
   ⟨0x9002c, 0x9002c, 0x0, 0x0⟩,
   ⟨0x90030, 0x90030, 0x3f, 0x0⟩,
   ⟨0x90034, 0x90034, 0x0, 0x0⟩,
   ⟨0x90038, 0x90038, 0x0, 0x0⟩,
   ⟨0x9003c, 0x9003c, 0x0, 0x0⟩,
   ⟨0x90040, 0x90040, 0x0, 0x0⟩,
   ⟨0x90044, 0x90044, 0x0, 0x0⟩,
   ⟨0x90048, 0x90048, 0x1f, 0x0⟩,
   ⟨0x90080, 0x900ac, 0x3f3f3f3f, 0x0⟩,
   ⟨0x90200, 0x9097c, 0x807fffff, 0x0⟩]

/-- The registers of block HST (R32). -/
def rowsHst : List RegRow :=
  [⟨0xa0000, 0xa0000, 0x2, 0x0⟩,
   ⟨0xa0004, 0xa0004, 0x0, 0x1ff⟩,
   ⟨0xa0008, 0xa0008, 0xffffffff, 0x0⟩,
   ⟨0xa000c, 0xa000c, 0x0, 0x0⟩,
   ⟨0xa0010, 0xa001c, 0x0, 0x2⟩,
   ⟨0xa0020, 0xa0020, 0x0, 0x0⟩,
   ⟨0xa0040, 0xa0040, 0xff, 0x0⟩,
   ⟨0xa0044, 0xa0044, 0x7ffffff, 0x0⟩,
   ⟨0xa0048, 0xa0048, 0x7ffffff, 0x0⟩,
   ⟨0xa004c, 0xa004c, 0xffffffff, 0x0⟩,
   ⟨0xa0050, 0xa0050, 0xffffffff, 0x0⟩,
   ⟨0xa0054, 0xa0054, 0x7ffffff, 0x0⟩,
   ⟨0xa0080, 0xa0080, 0x1fff, 0x0⟩,
   ⟨0xa0084, 0xa0084, 0x3ffffff, 0x0⟩,
   ⟨0xa0088, 0xa0088, 0xffffff, 0x0⟩,
   ⟨0xa008c, 0xa008c, 0xffffff, 0x0⟩,
   ⟨0xa0090, 0xa0090, 0xffffff, 0x0⟩,
   ⟨0xa0094, 0xa0094, 0xffffffff, 0x0⟩,
   ⟨0xa0098, 0xa0098, 0x3ffffff, 0x0⟩,
   ⟨0xa009c, 0xa009c, 0x0, 0x0⟩,
   ⟨0xa00a0, 0xa00a0, 0xffff, 0x0⟩,
   ⟨0xa0100, 0xa0100, 0xf, 0x0⟩,
   ⟨0xa0104, 0xa0104, 0xffffffff, 0x0⟩,
   ⟨0xa0108, 0xa0108, 0x0, 0x0⟩,
   ⟨0xa010c, 0xa010c, 0xffffffff, 0x0⟩,
   ⟨0xa0110, 0xa011c, 0x7ffff, 0x0⟩,
   ⟨0xa0120, 0xa012c, 0xffffffff, 0x0⟩,
   ⟨0xa0200, 0xa0200, 0xffffffff, 0x0⟩,
   ⟨0xa0204, 0xa0204, 0x0, 0x0⟩,
   ⟨0xa0300, 0xa0300, 0xfffffff, 0x0⟩,
   ⟨0xa0400, 0xa0400, 0x0, 0x0⟩,
   ⟨0xa0404, 0xa0404, 0x0, 0x0⟩,
   ⟨0xa0408, 0xa0408, 0x0, 0x0⟩,
   ⟨0xa040c, 0xa040c, 0x0, 0x0⟩,
   ⟨0xa0410, 0xa0410, 0x0, 0x0⟩,
   ⟨0xa0500, 0xa0500, 0xf, 0x0⟩,
   ⟨0xa0504, 0xa0510, 0xffffffff, 0x0⟩,
   ⟨0xa8000, 0xa8ffc, 0xffffffff, 0x0⟩]

/-- The registers of block NVS (R32). -/
def rowsNvs : List RegRow :=
  [⟨0xb0000, 0xb0000, 0x0, 0x0⟩,
   ⟨0xb0004, 0xb0004, 0x0, 0x0⟩,
   ⟨0xb0008, 0xb0008, 0x0, 0x1f⟩,
   ⟨0xb000c, 0xb000c, 0x0, 0x0⟩,
   ⟨0xb0010, 0xb0010, 0x0, 0x0⟩,
   ⟨0xb0014, 0xb0014, 0xffffffff, 0x0⟩,
   ⟨0xb0018, 0xb0018, 0x0, 0x0⟩,
   ⟨0xb001c, 0xb001c, 0x0, 0x0⟩,
   ⟨0xb0020, 0xb0020, 0x0, 0x0⟩,
   ⟨0xb0024, 0xb0024, 0x0, 0x0⟩,
   ⟨0xb0028, 0xb0028, 0x0, 0x0⟩,
   ⟨0xb0040, 0xb005c, 0x0, 0x0⟩,
   ⟨0xb0060, 0xb007c, 0x0, 0x0⟩,
   ⟨0xb0080, 0xb009c, 0x0, 0x0⟩,
   ⟨0xb00a0, 0xb00bc, 0x0, 0x0⟩,
   ⟨0xb00c0, 0xb00dc, 0x0, 0x0⟩,
   ⟨0xb0100, 0xb011c, 0xffffffff, 0x0⟩,
   ⟨0xb0120, 0xb0120, 0xffffffff, 0x0⟩,
   ⟨0xb0124, 0xb0124, 0x7f, 0x0⟩,
   ⟨0xb0140, 0xb017c, 0x0, 0x0⟩,
   ⟨0xb8000, 0xbffff, 0x0, 0x0⟩]

/-- The registers of block MGT (R32). -/
def rowsMgt : List RegRow :=
  [⟨0xc0000, 0xc0000, 0x0, 0x0⟩,
   ⟨0xc0004, 0xc0004, 0x0, 0x1f⟩,
   ⟨0xc0008, 0xc0008, 0x0, 0x0⟩,
   ⟨0xc000c, 0xc000c, 0x0, 0x0⟩,
   ⟨0xc0010, 0xc0010, 0x0, 0x0⟩,
   ⟨0xc0014, 0xc0014, 0x0, 0x0⟩,
   ⟨0xc0018, 0xc0018, 0x0, 0x0⟩,
   ⟨0xc001c, 0xc001c, 0x0, 0x0⟩,
   ⟨0xc0020, 0xc0020, 0xffff, 0x0⟩,
   ⟨0xc0024, 0xc0024, 0x0, 0x0⟩]

/-- The registers of the per-cell window by offset (R33, R94, R134, R179, R213). -/
def rowsCell : List RegRow :=
  [⟨0x0, 0x0, 0x0, 0x0⟩,
   ⟨0x4, 0x4, 0x0, 0x1f⟩,
   ⟨0x8, 0x8, 0x0, 0x0⟩,
   ⟨0xc, 0xc, 0x0, 0x0⟩,
   ⟨0x10, 0x10, 0x0, 0x0⟩,
   ⟨0x14, 0x14, 0x0, 0x0⟩,
   ⟨0x18, 0x18, 0x0, 0x0⟩,
   ⟨0x1c, 0x1c, 0x0, 0x0⟩,
   ⟨0x40, 0x7c, 0x0, 0x0⟩,
   ⟨0x100, 0x1dc, 0xffffffff, 0x0⟩,
   ⟨0x200, 0x200, 0xfffff, 0x0⟩,
   ⟨0x204, 0x204, 0x0, 0x0⟩,
   ⟨0x208, 0x208, 0x0, 0x0⟩,
   ⟨0x2000, 0x2000, 0x0, 0x0⟩,
   ⟨0x2004, 0x2004, 0x0, 0x3f⟩,
   ⟨0x2008, 0x2008, 0x0, 0x0⟩,
   ⟨0x200c, 0x200c, 0x0, 0x0⟩,
   ⟨0x2010, 0x2010, 0x0, 0x0⟩,
   ⟨0x2014, 0x2014, 0x0, 0x0⟩,
   ⟨0x2018, 0x2018, 0x0, 0x0⟩,
   ⟨0x201c, 0x201c, 0x0, 0x0⟩,
   ⟨0x2100, 0x2100, 0x7fff, 0x0⟩,
   ⟨0x2104, 0x2104, 0x0, 0x0⟩,
   ⟨0x2108, 0x2108, 0x0, 0x0⟩,
   ⟨0x210c, 0x210c, 0x0, 0x0⟩,
   ⟨0x4000, 0x4000, 0x0, 0x0⟩,
   ⟨0x4004, 0x4004, 0x0, 0x1f⟩,
   ⟨0x4008, 0x4008, 0x0, 0x0⟩,
   ⟨0x400c, 0x400c, 0x0, 0x0⟩,
   ⟨0x4010, 0x4010, 0x0, 0x0⟩,
   ⟨0x4014, 0x4014, 0x0, 0x0⟩,
   ⟨0x4020, 0x4020, 0x0, 0x0⟩,
   ⟨0x4024, 0x4024, 0x0, 0x0⟩,
   ⟨0x4100, 0x4134, 0xffffffff, 0x0⟩,
   ⟨0x4200, 0x4200, 0x1fff, 0x0⟩,
   ⟨0x4204, 0x4204, 0x0, 0x0⟩,
   ⟨0x6000, 0x6000, 0x0, 0x0⟩,
   ⟨0x6004, 0x6004, 0x0, 0x1ff⟩,
   ⟨0x6008, 0x6008, 0x0, 0x0⟩,
   ⟨0x600c, 0x600c, 0x0, 0x0⟩,
   ⟨0x6010, 0x6010, 0x0, 0x0⟩,
   ⟨0x6014, 0x6014, 0x0, 0x0⟩,
   ⟨0x6018, 0x6018, 0x0, 0x0⟩,
   ⟨0x601c, 0x601c, 0x0, 0x0⟩,
   ⟨0x6100, 0x6134, 0xffffffff, 0x0⟩,
   ⟨0x6200, 0x623c, 0x0, 0x0⟩,
   ⟨0x6300, 0x6300, 0x7fff, 0x0⟩,
   ⟨0x6304, 0x6304, 0x0, 0x0⟩]

/-- The rows of the 64 KiB block that holds address `a` (R32). -/
def rowsOf (a : Nat) : List RegRow :=
  match a / 65536 with
  | 0 => rowsCap
  | 1 => rowsSch
  | 2 => rowsPwr
  | 3 => rowsTsm
  | 4 => rowsCal
  | 5 => rowsSpr
  | 6 => rowsHlt
  | 7 => rowsIng
  | 8 => rowsMem
  | 9 => rowsFab
  | 10 => rowsHst
  | 11 => rowsNvs
  | 12 => rowsMgt
  | _ => []

/-- The row that holds the register at word address `a`. -/
def findRow (l : List RegRow) (a : Nat) : Option RegRow := l.find? fun r => decide (r.lo ≤ a) && decide (a ≤ r.hi)

/-- Values after a power-on reset that are not 0, of the package-level registers: first address, last address, value (R10, R258, R354). -/
def resetRows : List (Nat × Nat × Nat) :=
  [(0x0, 0x0, 0x5120442),
   (0xc, 0xc, 0x1),
   (0x40000, 0x40000, 0xc6),
   (0x40004, 0x40004, 0x40),
   (0x40008, 0x40008, 0x40),
   (0x10104, 0x10104, 0xf),
   (0x10124, 0x10124, 0x1),
   (0x8000c, 0x8000c, 0x955),
   (0x80010, 0x80010, 0x18),
   (0x80014, 0x80014, 0x40),
   (0x80018, 0x80018, 0x200),
   (0x90034, 0x90034, 0x3ff000),
   (0x90048, 0x90048, 0x10),
   (0xa0084, 0xa0084, 0x1fb800),
   (0xa0098, 0xa0098, 0x1a00000),
   (0xa009c, 0xa009c, 0x7d0),
   (0xa0300, 0xa0300, 0x3201032),
   (0x60144, 0x60144, 0x2a1000),
   (0x60180, 0x60180, 0x6401),
   (0x7000c, 0x7000c, 0x70805dc),
   (0x70010, 0x70010, 0x3c0010),
   (0x70024, 0x70024, 0xffff0000),
   (0x50020, 0x50020, 0x30),
   (0x2000c, 0x2000c, 0x23),
   (0x2001c, 0x2001c, 0xffffffff),
   (0x20020, 0x20020, 0xffff),
   (0x20028, 0x20028, 0x95f),
   (0x2002c, 0x2002c, 0x7d0),
   (0x20030, 0x20030, 0x640),
   (0x20064, 0x20064, 0xffff0000),
   (0x30014, 0x30014, 0x420),
   (0x30028, 0x30028, 0x10000000),
   (0x3002c, 0x3002c, 0xffff0000),
   (0xb0004, 0xb0004, 0x2),
   (0x60010, 0x60010, 0x6),
   (0xc0020, 0xc0020, 0xffff),
   (0x80020, 0x80020, 6), (0x80024, 0x80024, 6), (0x80028, 0x80028, 8), (0x8002c, 0x8002c, 4), (0x80030, 0x80030, 2), (0x80034, 0x80034, 1),
   (0x60160, 0x60160, 1), (0x60164, 0x60164, 1), (0x60168, 0x60168, 64), (0x6016c, 0x6016c, 4096), (0x60170, 0x60170, 16), (0x60174, 0x60174, 32), (0x60178, 0x60178, 8), (0x6017c, 0x6017c, 64)]

/-- The same for the per-cell registers, by offset. -/
def resetRowsCell : List (Nat × Nat × Nat) :=
  [(0x2008, 0x2008, 0x80), (0x4100, 0x4134, 0xffffffff)]

/-- Ranges of R11: first address, last address, field [hi:lo], smallest and largest value. -/
def rangeRows : List (Nat × Nat × Nat × Nat × Nat × Nat) :=
  [(0x40000, 0x40000, 6, 2, 14, 20),
   (0x40004, 0x40004, 8, 0, 8, 256),
   (0x8000c, 0x8000c, 6, 0, 70, 94),
   (0x8000c, 0x8000c, 9, 7, 1, 4),
   (0x8000c, 0x8000c, 12, 10, 1, 4),
   (0x80014, 0x80014, 10, 0, 8, 1024),
   (0x80018, 0x80018, 15, 0, 16, 65535),
   (0x90048, 0x90048, 4, 0, 8, 24),
   (0x60144, 0x60144, 20, 16, 4, 20),
   (0x20028, 0x20028, 6, 0, 85, 101),
   (0x20028, 0x20028, 9, 7, 1, 4),
   (0x20028, 0x20028, 12, 10, 1, 4),
   (0x2002c, 0x2002c, 11, 0, 1000, 2100),
   (0x20030, 0x20030, 10, 0, 400, 1600),
   (0x20034, 0x20034, 9, 0, 600, 800),
   (0x20024, 0x20024, 2, 0, 0, 4),
   (0x30014, 0x30014, 7, 0, 8, 255),
   (0x30014, 0x30014, 11, 8, 1, 15),
   (0xa0300, 0xa0300, 27, 20, 1, 255),
   (0xa0120, 0xa012c, 15, 0, 2, 65535),
   (0xa0120, 0xa012c, 31, 16, 1, 65535),
   (0xa0084, 0xa0084, 9, 7, 0, 4),
   (0xa0084, 0xa0084, 14, 10, 1, 31),
   (0xa0040, 0xa0040, 7, 0, 1, 255),
   (0x7003c, 0x7003c, 16, 0, 1, 49152),
   (0x50200, 0x50200, 10, 2, 0, 271),
   (0x50034, 0x50034, 8, 0, 0, 271)]

/-- The ranges of the per-cell registers, by offset (R94, R213). -/
def rangeRowsCell : List (Nat × Nat × Nat × Nat × Nat × Nat) :=
  [(0x200, 0x200, 14, 6, 0, 267), (0x6300, 0x6300, 14, 5, 0, 543)]

/-- The word a table of resets gives address `a`. -/
def resetIn (l : List (Nat × Nat × Nat)) (a : Nat) : Nat :=
  match l.find? fun r => decide (r.1 ≤ a) && decide (a ≤ r.2.1) with
  | some r => r.2.2
  | none => 0

/-- R11: each field of the word with a range that `v` leaves takes the nearer limit. -/
def clampWord (l : List (Nat × Nat × Nat × Nat × Nat × Nat)) (a v : Nat) : Nat :=
  l.foldl (fun v r =>
    if r.1 ≤ a ∧ a ≤ r.2.1 then
      setBits v r.2.2.1 r.2.2.2.1 (max r.2.2.2.2.1 (min r.2.2.2.2.2 (bits v r.2.2.1 r.2.2.2.1)))
    else v) v

/-- TSM_CH_WIN of a channel after reset, by 32 × converter + channel: band, hysteresis and enable (R413, R418). -/
def tsmWindow (e : Nat) : Nat :=
  let hub := decide (e / 32 = 8)
  let c := e % 32
  let w := fun (lo hi h : Nat) => lo + 4096 * hi + 16777216 * h + 268435456
  if e / 32 > 8 then 0
  else if (hub && decide (c ≤ 2)) || (!hub && (decide (c ≤ 8) || c == 26)) then w 0x360 0xA40 2
  else if (hub && c == 5) || (!hub && decide (9 ≤ c) && decide (c ≤ 16)) then w 0x898 0xD48 2
  else if (hub && c == 6) || (!hub && c == 25) then w 0xD5C 0xEC4 2
  else if hub && c == 3 then w 0xB22 0xC4E 2
  else if hub && c == 4 then w 0x6AE 0x762 2
  else if hub && c == 7 then w 0xC3F 0xD89 2
  else if (hub && decide (c ≤ 10)) || (!hub && decide (c ≤ 29)) then w 0 0xFFF 0
  else 0

/-- RWN registers that a settings bank keeps among its values (R436): first address, last address, RWN bits. The maps, wear counters, trims
and min_svn have places of their own in the bank; TSM_CH_WIN exists once per channel. -/
def rwnRows : List (Nat × Nat × Nat) :=
  [(0x40004, 0x40004, 0x1ff), (0x40008, 0x40008, 0xffff), (0x8000c, 0x8000c, 0x1fff), (0x80010, 0x80010, 0xff),
   (0x80014, 0x80014, 0x7ff), (0x80018, 0x80018, 0xffff), (0x80020, 0x80034, 0xff), (0x90048, 0x90048, 0x1f),
   (0xa0300, 0xa0300, 0xfffffff), (0x60144, 0x60144, 0x1fffff), (0x60160, 0x6017c, 0xffff), (0x60180, 0x60180, 0xff01),
   (0x7000c, 0x7000c, 0xffffffff), (0x70010, 0x70010, 0xffffff), (0x2000c, 0x2000c, 0x3f), (0x20028, 0x20028, 0x1fff),
   (0x2002c, 0x2002c, 0xfff), (0x20030, 0x20030, 0x7ff), (0x20034, 0x20034, 0x3ff), (0x30014, 0x30014, 0xfff),
   (0x60010, 0x60010, 0x7), (0xc0020, 0xc0020, 0xffff)]

/-- Key of a per-cell register: physical cell `c` (die × 272 + physical index, R34), offset in the window. -/
def cellKey (c off : Nat) : Nat := 2 ^ 36 + c * 65536 + off

/-- Key of a register that exists once per entry of a selection register: the register's address and the entry. -/
def bankKey (a entry : Nat) : Nat := 2 ^ 40 + a * 2 ^ 20 + entry

end Sys2Proof.Machine
end

