-- ==== Sys2Proof/Machine/State.lean ====
section
/-! DEFINITION. The state of the part: every register, memory, buffer, counter, mode and operation in progress that the spec gives
it, as plain data, and the state right after the always-on domain has come up from a power-on reset. -/
namespace Sys2Proof.Machine

/-- Time (R61, R283, R298, R397, R478): the tick counter, the tick reference in thirds of a tick, always-on cycles since the domain
came up, the mandrel count, the real-time clock, the instants at which the crystal has been looked at, and whether REFCLK runs. -/
structure Time where
  tick : BitVec 64
  ref3 : Nat
  cycles : Nat
  mandrel : BitVec 64
  rtc : BitVec 48
  looks : Nat
  refclk : Bool
  deriving DecidableEq, Repr

/-- The casting in force (R38, R40): where its image lies and what its header says; the directory as (type, count, offset). -/
structure Casting where
  addr : Nat
  len : Nat
  period : Nat
  evalInt : Nat
  decith : Bool
  dir : List (Nat × Nat × Nat)
  deriving DecidableEq, Repr

/-- Power and clock of a cell (R59, R60, R401). -/
inductive CellPower where
  | doze
  | waking (due : Nat)
  | run
  | shutting (due : Nat) (latched : Bool)
  deriving DecidableEq, Repr

/-- A barrier point of the period (R293, R294, R488): issue tick, result tick, the package's own byte, level, and the OR of the bytes that
each stage has brought: 0 to 2 those of T, 3 to 5 those of the implicit combination at S. -/
structure Barrier where
  issued : Nat
  due : Nat
  byte : Byte
  level : Nat
  got : SMap Byte
  deriving DecidableEq, Repr

/-- The step in progress and the batch it works on (R42 to R46, R57, R66, R219 to R224, R347, R487); the step marks in the capture
ring as (units written before it, offset), and the units written since the load (R236); load windows since the reset (R107) and writes of
CAL_CTRL.force (R104); the rewinds of the batch that the log entry names (R238); the CAPTURE words of the current tick as (tick, head before
them, units by place) (R236); the flits that words put into the present link slot of each logical port, with the ring they go to (R271, R296). -/
structure Run where
  on : Bool
  start : Nat
  lastIssue : SMap Nat
  faultAt : Option Nat
  haltAt : Option Nat
  veto : Option Barrier
  commit : Option Barrier
  vetoDone : Bool
  commitDone : Bool
  proceeds : Bool
  suppressed : Bool
  outcome : Option Nat
  evalDue : Bool
  evalRan : Bool
  lateOvf : Nat
  updNonfin : Bool
  taintVeto : Bool
  taintCommit : Bool
  taintLoc : List (Nat × Nat)
  prevLoc : List (Nat × Nat)
  prevPoint : Nat
  rngStart : Nat
  versionAfter : Nat
  barByte : Byte × Byte × Byte
  ovfEntries : Nat
  firstNonfin : Nat
  covUsed : Bool
  firstPeriod : Bool
  newBatch : Bool
  recBusy : List Nat
  sampled : SMap Word
  violAt : Option Nat
  claims : SMap Nat
  sentPorts : List Nat
  poisonSent : Bool
  poisonFrom : Option Nat
  missing : Bool
  notReady : Bool
  capMarks : List (Nat × Nat)
  capCount : Nat
  steps : Nat
  force : Nat
  logRewinds : Nat × Nat
  capTick : Nat × Nat × List (Nat × Nat)
  slotData : List (Nat × Nat × List (Option (List Byte)))
  delta : Nat
  deriving DecidableEq, Repr

/-- An entry of the format and scale table (R148), field by field. -/
structure TabEntry where
  tid : Nat
  layer : Nat
  role : Nat
  fmt : Nat
  b : Nat
  b0 : Nat
  m : Nat
  h : Nat
  flags : Nat
  bump : Nat
  frozen : Nat
  comp : Nat
  ovfCtr : Nat
  mx : Nat
  mx0 : Nat
  mb0End : Nat
  ovf : Nat
  nonfin : Nat
  n : Nat
  ua : Nat
  ub : Nat
  deriving DecidableEq, Repr

/-- What a step gathers for a tensor (R150): largest magnitudes as F16 patterns, and counts. -/
structure Stat where
  mx : Nat
  mx0 : Nat
  ovf : Nat
  nonfin : Nat
  n : Nat
  ua : Nat
  ub : Nat
  deriving DecidableEq, Repr

/-- The format and scale table of the step (R149 to R155): the load window's copy, the statistics by entry index, every b before the
batch's first run, the entries that started cautiously in this run, and the narrower format each entry wanted last. -/
structure Tab where
  copy : List TabEntry
  stats : SMap Stat
  bFirst : List Nat
  cautious : List Nat
  want : SMap Nat
  deriving DecidableEq, Repr

/-- The slot-word stream of a cell or port in the step (R44): words issued, words asked of DRAM, the stream buffer as (number in the step,
word), and the numbers of buffered words whose check bits show an error: 1 correctable, 2 not (R337, R339). -/
structure Stream where
  issued : Nat
  asked : Nat
  words : List (Nat × BitVec 128)
  marks : SMap Nat
  deriving DecidableEq, Repr

/-- An empty stream buffer before a step's first word. -/
def Stream.init : Stream := ⟨0, 0, [], []⟩

/-- Trims of a column (R109, R112). -/
abbrev Trim := BitVec 32

/-- An analogue array (R78 to R116): first tick on which it is free, trim generation and t_cal, triggers (R104), the trim set that waits for
the end of an ASSAY, the ramp of R113 by physical column (start and target), the target trims of the generations that were in force before,
by position of the conversion list (R93, R115), those that a change of the maps took out of force, oldest first, with their generation and
the rng_step of the first step that no longer has them (R157; log 12), the calibrating slice and the retired ones, the step of the last
overdue record, the step count at the last SWEEP (R107), and the step and generation of the last trim record (R115). -/
structure Arr where
  busy : Nat
  gen : BitVec 16
  tcal : BitVec 12
  calibrated : Bool
  pending : Bool
  forceSeen : Nat
  staged : Option (SMap Trim)
  stagedT : BitVec 12
  ramp : SMap (Trim × Trim)
  rampLeft : Nat
  past : SMap (Option (SMap Trim))
  held : List (Nat × Nat × SMap Trim)
  slice : Nat
  retired : List Nat
  overdueAt : Nat
  sweepAt : Nat
  capAt : Nat × Nat
  deriving DecidableEq, Repr

/-- An array that nothing has touched since it was powered (log 5). -/
def Arr.init : Arr := ⟨0, 0, 0, false, false, 0, none, 0, [], 0, [], [], 0, [], 0, 0, (0, 0)⟩

/-- A binding of an accumulator tile (R127) and the first tick on which no ACC word claims its port (R128). -/
structure Tile where
  bound : Bool
  tid : BitVec 16
  ebase : BitVec 32
  ovf : Fin 16
  hk : Bool
  busy : Nat
  deriving DecidableEq, Repr

/-- A tile without a binding. -/
def Tile.init : Tile := ⟨false, 0, 0, 0, false, 0⟩

/-- An operand buffer of the Anvil (R164): staged since the load window, first tick on which nothing holds it, source format and scale
byte, and the 4,096 element codes row by row. -/
structure AnvBuf where
  staged : Bool
  busy : Nat
  fmt : Fmt
  b : Nat
  elems : List Nat
  deriving DecidableEq, Repr

/-- An empty operand buffer. -/
def AnvBuf.init : AnvBuf := ⟨false, 0, .f16, 127, []⟩

/-- An output array of the Anvil (R165 to R168): whether its chain is open, its last kb, whether its last word ran at the F16 rate, its
tensor and scale byte, first tick on which nothing holds it, its elements, and those that have saturated in the chain. -/
structure Chain where
  opened : Bool
  kb : Nat
  wide : Bool
  tid : Nat
  bo : Nat
  busy : Nat
  elems : List F16
  sat : List Nat
  deriving DecidableEq, Repr

/-- A closed chain. -/
def Chain.init : Chain := ⟨false, 0, false, 0, 127, 0, [], []⟩

/-- A physical cell (R31): power, memories, arrays, engines; the first ticks on which the Anvil's stage port and MAC array are free; spare
columns shown in service by a write of SPR_ARRAY, as 256 + value (R391); units written to and consumed from capture ring 63, and consumed
from replay ring 62 (R234). `spBad` marks scratchpad words and `ecc` the elements of the other memories whose check bits fail: 1
correctable, 2 not (R337). -/
structure Cell where
  power : CellPower
  sp : SMap Byte
  spBad : SMap Nat
  ecc : SMap Nat
  codes : SMap (BitVec 4)
  exps : SMap Byte
  checks : SMap (BitVec 16)
  trims : SMap Trim
  arrs : SMap Arr
  colmap : SMap Nat
  colbad : SMap Bool
  colretired : List Nat
  usedCols : SMap Nat
  acc : SMap F16
  side : SMap (BitVec 16)
  tiles : SMap Tile
  bufs : SMap AnvBuf
  chains : SMap Chain
  anvBusy : Nat × Nat
  tables : SMap F16
  tableBusy : SMap Nat
  burBusy : List (Nat × Nat × Nat × Nat)
  ringBytes : SMap Nat
  ring63 : Nat × Nat
  ring62 : Nat
  deriving DecidableEq, Repr

/-- A cell whose storage nothing has written, dozing (R59, R10; log 5). -/
def Cell.init : Cell :=
  ⟨.doze, [], [], [], [], [], [], [], [], [], [], [], [], [], [], [], [], [], (0, 0), [], [], [], [], (0, 0), 0⟩

/-- How a value is checked (R334): by its residue against that of the terms of an exact sum, by forming it twice, or as an element index by
its own residue. -/
inductive CheckBy where
  | residue
  | twice
  | index
  deriving DecidableEq, Repr

/-- Where a checked value was written, in physical cell `c` (R335): scratchpad from a bit address on, an accumulator element, a table element,
element `k` of an Anvil buffer or output array; `inside` for a value that only later values of the word are formed from. -/
inductive Spot where
  | inside
  | sp (c bit : Nat)
  | acc (c i : Nat)
  | table (c i : Nat)
  | buf (c i k : Nat)
  | chain (c i k : Nat)
  deriving DecidableEq, Repr

/-- A value written under a hallmark check (R333, R334): the terms whose exact sum was rounded or converted, each the factors of a product, how
it is checked, what was written (format, scale byte and code), and where. -/
structure CheckVal where
  terms : List (List Dy)
  by_ : CheckBy
  fmt : Fmt
  b : Nat
  code : Nat
  spot : Spot
  deriving DecidableEq, Repr

/-- The values that a unit of a place wrote on a tick under a hallmark check (R335). -/
structure Check where
  unit : Nat
  place : Nat
  tick : Nat
  vals : List CheckVal
  deriving DecidableEq, Repr

/-- A tensor descriptor of the Burnisher as read at the issue tick, with the format and scale byte in force (R184): extents and strides
of the four dimensions. -/
structure Desc where
  base : Nat
  tid : Nat
  kind : Nat
  sub : Nat
  ext : List Nat
  str : List Int
  fill : F16
  fmt : Nat
  b : Nat
  deriving DecidableEq, Repr

/-- A stage word of a chain program (R189). -/
structure BurStage where
  op : Nat
  p : Nat
  q : Nat
  r : Nat
  sreg : Nat
  pair : Nat
  hold : Bool
  deriving DecidableEq, Repr

/-- A BUR word other than UPDATE in progress: what it read at its issue tick (R187, R194): place, class, policy, lane mask, descriptors
(output, a, b, c), program, scalar registers of the cell group, images of the function tables it names, and its class operands: op of
REDUCE; mask_en, tri_en, tri_off and sreg of SOFTMAX; hk; the source elements it has read into its row buffer or of the row in progress, by
position, and how many source beats it has read (R181, R199). -/
structure BurJob where
  cell : Nat
  die : Nat
  lcell : Nat
  cls : Nat
  start : Nat
  issued : Nat
  evalSeg : Bool
  checked : Bool
  lmask : Nat
  out : Desc
  a : Desc
  b : Desc
  c : Desc
  prog : List BurStage
  scalars : List F16
  images : SMap (List F16)
  op : Nat
  maskEn : Bool
  triEn : Bool
  triOff : Int
  sreg : Nat
  hk : Bool
  buf : SMap Nat
  got : Nat
  deriving DecidableEq, Repr

/-- What a beat of a BUR word writes and reports on its write tick: bytes under masks, table elements, conversions with their overflow
counts, exceptions as (kind, lane, beat), the counts (R196), and the values to be checked with hk (R210). -/
structure BurOut where
  cell : Nat
  die : Nat
  lcell : Nat
  cls : Nat
  issued : Nat
  evalSeg : Bool
  checked : Bool
  writes : List (Nat × Byte × Byte)
  table : List (Nat × F16)
  tid : Nat
  convs : List (F16 × Nat)
  excs : List (Nat × Nat × Nat)
  ovf : Bool
  empty : Nat
  oor : Nat
  vals : List CheckVal
  deriving DecidableEq, Repr

/-- What an element of an UPDATE comes to: moment, weight, code, whether the code was clamped, whether the weight saturated. -/
structure Elem where
  mn : F16
  wn : F16
  code : Nat
  clamp : Bool
  sat : Bool
  lane : Lane
  deriving DecidableEq, Repr

/-- An UPDATE in progress: its record (R227), the format and scale byte of its gradient, its seven scalar registers, which 64 × 64 blocks
are kept (R229), and hk; the gradient codes that the pass in progress has read (R225), what pass 1 came to (rn, cn, rm), what pass 2 came to
(q, the clipping factor, whether it clips), and the elements formed in pass 3, each with its scaled gradient and its old weight, and whether
one raised NANIN or INV. -/
structure UpdJob where
  cell : Nat
  die : Nat
  lcell : Nat
  start : Nat
  issued : Nat
  checked : Bool
  rec_ : Nat
  gAddr : Nat
  wTid : Nat
  wAddr : Nat
  mAddr : Nat
  sAddr : Nat
  codeAddr : Nat
  expAddr : Nat
  r0 : Nat
  c0 : Nat
  layer : Nat
  gFmt : Nat
  gB : Nat
  hyp : List F16
  kept : List Bool
  hk : Bool
  read : List Nat
  stats : Option (List Lane × List Lane × Lane)
  clip : Option (F16 × Lane × Bool)
  done : List (F16 × F16 × Elem)
  bad : Bool
  deriving DecidableEq, Repr

/-- What happens when an operation in flight lands. -/
inductive Effect where
  /-- Bytes into the scratchpad of physical cell `c`, with the masks of the bits that change; bad lines carry their mark (R338). -/
  | sp (c addr : Nat) (data : List Byte)
  /-- Beat `k` of a BUR word is read, and what it completes is computed (R181). -/
  | bur (j : BurJob) (k : Nat)
  /-- A beat of a BUR word is written (R181, R185, R196). -/
  | burWrite (o : BurOut)
  /-- Beat `k` of an UPDATE is read (R225, R228). -/
  | update (j : UpdJob) (k : Nat)
  /-- Bytes into DRAM; `bad` marks the line poisoned (R255). -/
  | dram (addr : Nat) (data : List Byte) (bad : Bool)
  /-- Contributions entering accumulator tile `t`: slot and value (R122 to R130). -/
  | tree (c t : Nat) (vals : List (Nat × F16)) (entry : Nat)
  /-- Slots 64 `q` to 64 `q` + 63 of tile `t` are read for a drain, and cleared (R131). -/
  | drain (c t addr land : Nat) (clear hk : Bool) (q : Nat)
  /-- A line of a MOV word read at its source tick and put in flight with its check bits (R334, R481). -/
  | moveLine (c src : Nat) (dc dst land : Nat)
  /-- A line reaches the scratchpad of physical cell `c` with its check bits, which show an error in the words `marks` names (R334, R337). -/
  | spLine (c addr : Nat) (data : List Byte) (marks : List (Nat × Nat))
  /-- A flit that arrived on a logical port is read from the link receive buffer, whose check bits show error `m`, for a physical cell or to be
  relayed (R337). -/
  | rxRead (port : Nat) (c : Option Nat) (m : Nat)
  /-- The notice of a tag that arrived on a logical port acts (R303, R304, R346). -/
  | notice (port : Nat) (poison fault : Bool)
  /-- A line of a MOV LOAD read from DRAM in its slot (R247). -/
  | loadLine (c dst src land : Nat) (ue : Bool)
  /-- The data flits of one link slot are read from scratchpad and sent (R287). -/
  | linkSend (c addr n port ring : Nat)
  /-- The data flits of one link slot are forwarded (R290). -/
  | linkRelay (port : Nat) (data : List (Option (List Byte)))
  /-- A received flit is added to its destination (R289): source format and scale, statistics tensor, evaluation segment. -/
  | recvAdd (c addr fmt b dst issued : Nat) (evalSeg hk : Bool) (data : List Byte)
  /-- A level-2 BARRIER has combined the bytes of its forge, which the MARK of its window carries (R294, R295). -/
  | barForge (commit : Bool)
  /-- A contract violation found at a load window, raised on the first tick after it (R151). -/
  | violation (bit unit die wh : Nat)
  /-- The job fault of a batch that is not ready, on the first tick after the load window (R326). -/
  | starve
  /-- Values have been written under a hallmark check (R335). -/
  | check (unit place : Nat) (vals : List CheckVal)
  /-- A write of a register that the running casting drives takes effect: key, the bits that take it, the word (R37, R478). -/
  | regWrite (k mask v : Nat)
  /-- A write of scalar register `r` of a cell group takes effect (R194, R478). -/
  | sregWrite (die g r : Nat) (v : F16)
  /-- A line of the stream region is read in its STREAM slot: words from number `k` of stream `key` of the period that began at `start`
  (R44); `ue` when a forced refresh took the slot (R250). -/
  | fetch (key k addr n start : Nat) (ue : Bool)
  /-- The scratchpad words of a line become uncorrectable: they carry a bad read (R338). -/
  | spBad (c addr : Nat)
  /-- The drain of output array `i` of the Anvil ends (R161, R168): address and pitch, whether the block is kept, its word's segment kind, hk
  and issue tick in the step. -/
  | anvDrain (c i addr pitch : Nat) (kept evalSeg hk : Bool) (issued : Nat)
  /-- The verdict of a WRITE or of a SWEEP (R89 to R91): its failing columns with their kinds, and the content a failing WRITE held. -/
  | verdict (die cell a : Nat) (swept : Bool) (fails : List (Nat × Nat)) (latched : List Byte)
  /-- A recalibrating ASSAY ends and its trim set comes into force (R112, R113). -/
  | trims (c a : Nat)
  /-- The outcome of a slice's calibrating period reaches an array that was occupied (R98, R100). -/
  | handoff (die cell a : Nat) (passed : Bool)
  /-- The verify of a column fill ends (R383). -/
  | fillVerdict (die slot : Nat) (ok : Bool)
  /-- A line of a MOV STORE read from scratchpad in its slot (R247). -/
  | storeLine (c src dst : Nat) (ue : Bool)
  deriving DecidableEq, Repr

/-- An operation in flight: the tick on which it lands and what it does then (R52). -/
structure Flight where
  due : Nat
  effect : Effect
  deriving DecidableEq, Repr

/-- DRAM (R241, R253 to R255): bytes as last written, and the condition of each line that is not clean: bit 0 poison, bit 1 that its reads
bring an inner-code report, from bit 2 on the bits in which the word now stored differs from the codeword written. -/
structure Dram where
  bytes : SMap Byte
  marks : SMap Nat
  deriving DecidableEq, Repr

/-- The memory system (10): slots claimed in the step by 2^32 × pseudo-channel + slot, and in the step before; refreshes due; the arbiter's
windows, credits and grants by pseudo-channel; the thresholds each stack holds; missed readouts; corrected lines by row; repair lists. -/
structure MemSys where
  slots : SMap Nat
  prev : SMap Nat
  refDue : SMap Nat
  window : SMap Nat
  credits : SMap Nat
  grants : SMap (Nat × Nat)
  held : SMap Nat
  misses : SMap Nat
  corrected : SMap Nat
  repair : SMap (List Nat)
  pprBusy : Bool
  deriving DecidableEq, Repr

/-- Dynamic state of a physical fabric port beyond its registers (R275 to R281, R300): the stage that it trains in; `sent` of the last BEACON
and of the last LOCK received and the mandrel count at the former; what the partner's BEACON said; whether its loss is planned; the lane
swap named; parcel credits; the window of 2²⁰ codewords in progress and the symbols corrected in it by lane; whether a codeword that could not be
corrected has already counted the parcel under way as dropped (R301). -/
structure Port where
  stageAt : Nat
  beacons : Nat
  lastSent : BitVec 64
  lastAt : BitVec 64
  lockSent : BitVec 64
  partnerRole : BitVec 16
  partnerFlags : BitVec 16
  partnerLogical : Byte
  partnerFeed : BitVec 16
  mapOk : Bool
  planned : Bool
  swapLane : Option (Nat × Nat)
  credits : Nat
  window : Nat
  symbols : SMap Nat
  parcelLost : Bool
  deriving DecidableEq, Repr

/-- A dark port. -/
def Port.init : Port := ⟨0, 0, 0, 0, 0, 0, 0, 0, 0, false, false, none, 64, 0, [], false⟩

/-- The fabric (11): ports, combination levels, windows, the barrier bytes that MARKs brought by 4 × forge + window mod 4 and those of the forge
for the window that goes on, works credits; in a hold the package's own status and the physical ports whose status, at the stage of R298 that
they take part in first and at the third, has not come clear; parcels stored, each with the physical ports it leaves and came in by; the flits
in the link receive buffers whose check bits show an error, by 4096 × logical port + flit of its word: 1 correctable, 2 not (R337). -/
structure Fab where
  ports : SMap Port
  held : BitVec 4
  heldHold : Bool
  par : Bool
  frozen : Bool
  marks : SMap Nat
  markBytes : SMap (Nat × Byte × Byte)
  winBytes : Byte × Byte
  worksCredit : SMap Nat
  freed : SMap Nat
  holdStatus : Bool
  holdOthers : List Nat
  holdFar : List Nat
  release : Option (BitVec 64)
  seq : BitVec 32
  stored : List (Nat × Option Nat × Parcel)
  rxBad : SMap Nat
  deriving DecidableEq, Repr

/-- What the headers of a packet of the RoCE engine carry (R307, R308, R315, R328, R330): host port, 802.1Q tag (0 none), peer and own MAC, peer
and own IP address, traffic class (DSCP and ECN), UDP source and destination port, peer QPN, and for an RDMA WRITE its address and key. -/
structure PktHead where
  port : Nat
  vlan : Nat
  dstMac : Nat
  srcMac : List Byte
  dstIp : Nat
  srcIp : List Byte
  tos : Nat
  udpSrc : Nat
  udpDst : Nat
  destQpn : Nat
  va : Nat
  rkey : Nat
  deriving DecidableEq, Repr

/-- A message the part has sent on a queue pair and that is not yet acknowledged (R313). -/
structure Pkt where
  psn : BitVec 24
  opcode : Byte
  va : BitVec 64
  rkey : Word
  payload : List Byte
  imm : Word
  event : Bool
  deriving DecidableEq, Repr

/-- A queue pair beyond its context registers (R313, R320, R328); the always-on cycles of the last send or progress, of the first packet not yet
acknowledged, and of the last notification or rate increase. -/
structure Qp where
  unacked : List Pkt
  retries : Nat
  rnrTries : Nat
  rnrWait : Bool
  ackOwed : Nat
  cnpAt : Option Nat
  rateSet : Bool
  nakSent : Bool
  sentAt : Nat
  ackAt : Nat
  rateAt : Nat
  rnrSyn : Nat
  deriving DecidableEq, Repr

/-- A queue pair that has sent and received nothing. -/
def Qp.init : Qp := ⟨[], 0, 0, false, 0, none, false, false, 0, 0, 0, 0⟩

/-- The host attachment (12): queue pairs and the mailbox. -/
structure HostSys where
  qps : SMap Qp
  taken : BitVec 32
  from_ : SMap Nat
  finished : SMap Bool
  waiting : List (Nat × Nat)
  deriving DecidableEq, Repr

/-- An assay record as formed (R350). -/
structure Rec where
  seq : Nat
  mandrel : Nat
  tick : Nat
  step : Nat
  rng : Nat
  cls : Nat
  sev : Nat
  loc : List (Nat × Nat)
  detail : List (String × Nat)
  classif : Nat
  suppressed : Nat
  role : Option Nat
  casting : Option (List Byte)
  deriving DecidableEq, Repr

/-- When a record of a class and location was last sent, and how many have been suppressed since (R352). -/
structure Sent where
  cls : Nat
  loc : List (Nat × Nat)
  at_ : Option Nat
  suppressed : Nat
  deriving DecidableEq, Repr

/-- Health (13, 19): record queue, suppression, sequence, journal STOREs outstanding, the monitor's inputs of the current second (64 + p marks
fabric port p as one whose codewords reached 12 corrected symbols), the corrected-error counts by place (R337: 0 on physical cells, 2048 on
link units, 4096 on tinker cores, 8192 on stacks) and the sum of them that the last report saw. -/
structure Health where
  queue : List Rec
  sent : List Sent
  seq : Nat
  journal : List (Nat × List Byte)
  inputs : SMap Nat
  corrected : SMap Nat
  correctedSeen : Nat
  deriving DecidableEq, Repr

/-- An ingot image on its way out as DATA parcels (R366): destination, first byte in DRAM, length in bytes, next sequence to send, next one
that the receiver expects, time-outs in a row, and whether the receiver has answered at all (R368). -/
structure Outgoing where
  dst : Nat
  base : Nat
  len : Nat
  sendAt : Nat
  acked : Nat
  retries : Nat
  heard : Bool
  deriving DecidableEq, Repr

/-- An ingot image on its way in (R366, R367): sender, whether it fills the mould (else guest slot `slot`), serial, length, next sequence
expected, parcels since the last ACK, and once it has all arrived the status it was answered with. -/
structure Incoming where
  src : Nat
  mould : Bool
  slot : Nat
  serial : Nat
  len : Nat
  next : Nat
  owed : Nat
  status : Option Nat
  deriving DecidableEq, Repr

/-- Ingots (14), beyond their registers: the target and the last TAKE acted on with its cycle (R362); standing calls by reason and the time
of the last TAKE sent; TAKE parcels to repeat and how often; the mandrel counts that the age runs from (R372) and that of the take, and
whether any ingot has been secured; the manifest of the ingot in progress, its version and image length; the images going out to the buddy
and to a package that fetched; the last image come in as a guest, and as a fetched one; whether the fetched image is awaited; the queue
pairs of the host stage whose last WRITE is not acknowledged; whether the secured ingot is held by the buddy; whether the mould has been
invalidated and not written since (R374); the image lengths of the guest slots. -/
structure Ing where
  target : Option Nat
  acted : Option (Nat × Nat)
  calls : List Nat
  takeAt : Option Nat
  takeSent : List (Nat × Nat)
  takeRepeats : Nat
  ageFrom : Option Nat
  takeMandrel : Nat
  secured : Bool
  manifest : List Byte
  imageLen : Nat
  buddy : Option Outgoing
  serve : Option Outgoing
  incoming : Option Incoming
  fetched : Option Incoming
  fetching : Bool
  hostQps : List Nat
  byBuddy : Bool
  overdue : Bool
  mouldVoid : Bool
  guestLen : Nat × Nat
  deriving DecidableEq, Repr

/-- A fill beyond its SPR_FILL register (R382 to R385): content latched from a failing WRITE, the tick on which its spare was
programmed, whether a cell fill has passed its self-test, and the contents that WRITEs gave the columns of a cell fill, by
256 × array + column. -/
structure Fill where
  latched : List Byte
  progAt : Option Nat
  tested : Bool
  given : SMap (List Byte)
  deriving DecidableEq, Repr

/-- No fill. -/
def Fill.none : Fill := ⟨[], Option.none, false, []⟩

/-- Spares (15): the cell map, bad and retired marks, fills by 2 × die + slot, the request held in SPR_LOST beside its
register, tinker cores replaced or lost, and the retired list of R484 as its 8-byte records. -/
structure Spares where
  cellMap : SMap Nat
  badCells : List Nat
  fills : SMap Fill
  lost : Option Fill
  coreSwaps : List (Nat × Nat)
  swapDue : List (Nat × Nat)
  retired : List (Nat × Nat × Nat × Nat × Nat)
  dirty : Bool
  deriving DecidableEq, Repr

/-- Power (16): rails enabled as bits 0 VCORE, 1 VANA, 2 VPHY, 3 VLAS; the cycle on which the entry window opened and that on which the
entry completes, and the state entered (1 BANK, 2 QUENCH); whether RESET_N holds the part (R472); wake latches and the level of the WAKE
pin; whether a wake event was held across the entry; dies at rest and the ticks on which dies came up; the power-up sequence under way (0
none, 1 boot, 2 wake from QUENCH); the digest of R404; thresholds of the junction and current sources in force (R409), the cycle since which
the current has been high, the stretch interval of the last step up of the power source and the tick since which power has stayed below its
lower threshold; the always-on cycle of each die's last DIE_REST; PMBus values by 8 × device + item, with the cycle of
their reading. -/
structure Pwr where
  rails : Nat
  entryAt : Option Nat
  entryEnd : Nat
  deep : Nat
  inReset : Bool
  rtcLatch : Bool
  dwiLatch : Bool
  pinLatch : Bool
  pinLevel : Bool
  mgmtLatch : Bool
  during : Bool
  rests : List Nat
  upAt : SMap Nat
  rising : Nat
  fwDigest : List Byte
  tj : SMap Nat
  cur : SMap Nat
  highSince : Option Nat
  plimAt : Nat
  plimLow : Option Nat
  restAt : SMap Nat
  pmb : SMap (Nat × Nat)
  deriving DecidableEq, Repr

/-- A channel of the Touchstone monitor (R417, R418, R424): last code, out of band, last conversion urgent, always-on cycle of its end, and
whether it was enabled before a write of TSM_CH_WIN that its next conversion puts into effect. -/
structure Chan where
  code : BitVec 12
  out : Bool
  urgent : Bool
  takenAt : Option Nat
  enBefore : Option Bool
  deriving DecidableEq, Repr

/-- A channel not yet converted. -/
def Chan.init : Chan := ⟨0, false, false, none, none⟩

/-- The Touchstone monitor: channels by 32 × converter + channel, urgent requests waiting by converter (R416), by converter 1 + the channel
of its round that it began last, and what it converts, 1 + channel + 32 when urgent (R415, R416), the hottest code at each of the last 60
seconds, newest first, with 0 for none valid and 1 + code (R354), consecutive disagreements by die (R419), the power samples of the last
millisecond as (cycle, µW) (R421), and the lowest and highest code of each die's central diode since its last counted swing (R389). -/
structure Tsm where
  chans : SMap Chan
  urgent : SMap (List Nat)
  round : SMap Nat
  busy : SMap Nat
  history : List Nat
  runs : SMap Nat
  power : List (Nat × Nat)
  swing : SMap (Nat × Nat)
  deriving DecidableEq, Repr

/-- A settings bank of the MRAM (R436): sequence, owner hash, min_svn, values by register key, cell map, bad cells, tinker-core
assignments, wear counters by key, retired lists, column remaps (die, cell, array, spare column, logical column), and array records of
56 bits by logical array. -/
structure Bank where
  seq : Word
  owner : List Byte
  minSvn : Word
  values : List (Nat × Word)
  cellMap : SMap Nat
  badCells : List Nat
  cores : List (Nat × Nat)
  wear : SMap Word
  retired : List (Nat × Nat × Nat × Nat × Nat)
  remaps : List (Nat × Nat × Nat × Nat × Nat)
  arrays : SMap (BitVec 56)
  deriving DecidableEq, Repr

/-- Boot, MRAM and security (18): settings banks A and B, none when invalid; the event journal; the working owner hash; the bank in use
as the boot found it, with the hash and min_svn stored in it; the snapshot of a STORE in progress and its failed read-backs; the fuses
blown (R430); the attached flash as the boot in progress reads it; the configuration in force, the firmware and configuration blocks
verified, and the release key; the body of a quote in progress. -/
structure Nvs where
  bankA : Option Bank
  bankB : Option Bank
  journal : SMap Byte
  owner : List Byte
  snapshot : Option Bank
  tries : Nat
  fuses : BitVec 4
  flash : SMap Byte
  config : List (Nat × List Byte)
  firmware : List Byte
  cfgBlock : List Byte
  releasePub : List Byte
  quoteBody : List Byte
  deriving DecidableEq, Repr

/-- Management (19): the stored response of the last executed tally request, whether the SGMII link is up, and the always-on cycles at which
the service of the requests taken ends (R449). -/
structure Mgmt where
  lastResp : List Byte
  link : Bool
  serving : List Nat
  deriving DecidableEq, Repr

/-- What the part sends or drives, in order (the model's record of its outputs). -/
inductive Output where
  /-- The tag and the data flits sent in a link slot of a logical port, none where the slot carries no such flit, and the ring at the partner
  for works data (R271, R272, R287, R290, R296). -/
  | flits (port slot tag ring : Nat) (data : List (Option (List Byte)))
  /-- A control flit on a physical port: its type byte and content (R273). -/
  | ctrl (phys : Nat) (type : Nat) (args : List Nat)
  /-- A parcel sent on a physical port (R300). -/
  | parcel (phys : Nat) (p : Parcel)
  /-- A packet of the RoCE engine: its headers, queue pair, opcode, PSN, syndrome or immediate, payload (R310). -/
  | packet (head : PktHead) (qp opcode : Nat) (psn : BitVec 24) (syndrome : Nat) (payload : List Byte)
  /-- A frame of the host or management port answering ARP, a solicitation or an echo, with its 802.1Q tag, 0 for none (R307, R308, R444). -/
  | frame (port kind vlan : Nat) (data : List Byte)
  /-- An assay record sent as a UDP datagram: source and destination IPv6 address, destination port, data (R349). -/
  | datagram (src dst : List Byte) (port : Nat) (data : List Byte)
  /-- A tally response (R445). -/
  | tally (data : List Byte)
  /-- A word returned on the drawn-wire interface (R454). -/
  | dwi (w : Word)
  /-- A PMBus command (R395). -/
  | pmbus (device code value : Nat)
  /-- Commands issued to the flash, and whether it is read in 1-4-4 mode and with 4-byte opcodes (R425, R426). -/
  | flash (codes : List Nat) (quad fourByte : Bool)
  /-- The word that a read access of the control window returns (R8). -/
  | regRead (addr : Nat) (w : Word)
  /-- A pin driven to a level: 0 to 3 the rail enables, 4 HOT_N; 5 the Quad-SPI pins, driven or high-impedance (R394, R425, R466). -/
  | pin (which : Nat) (level : Bool)
  /-- The health core is interrupted: a channel of a converter has left its band (R418). -/
  | healthIrq (conv chan : Nat)
  deriving DecidableEq, Repr

/-- The whole part. `checks` are the values whose hallmark verdict is to come (R335); `events` are the sticky bits that events have set on
the current tick, as (register, bit) (R9). -/
structure State where
  pending : List Instr
  time : Time
  freeCount : Nat
  regs : SMap Word
  events : List (Nat × Nat)
  checks : List Check
  casting : Option Casting
  run : Run
  tab : Tab
  streams : SMap Stream
  cells : SMap Cell
  flights : List Flight
  dram : Dram
  mem : MemSys
  fab : Fab
  host : HostSys
  health : Health
  ing : Ing
  spr : Spares
  pwr : Pwr
  tsm : Tsm
  nvs : Nvs
  mgt : Mgmt
  sreg : SMap F16
  sregEcc : SMap Nat
  out : List Output
  deriving DecidableEq, Repr

/-- Why a step stops with a fault: no command of the table makes the part stop (its faults are states of R57, R410, R472). -/
inductive Fault where
  /-- Raised by nothing: the part has no condition in which a command ends it without a next state. Safe. -/
  | never
  deriving DecidableEq, Repr

/-- Why a command has no meaning. -/
inductive Refusal where
  /-- Raised by an arm of exec whose command has no meaning yet. Safe. -/
  | notModelled (mnemonic : String)
  deriving DecidableEq, Repr

/-! ### Reset (R10, R472) -/

/-- No step, and none yet since the reset. -/
def Run.init : Run where
  on := false
  start := 0
  lastIssue := []
  faultAt := none
  haltAt := none
  veto := none
  commit := none
  vetoDone := false
  commitDone := false
  proceeds := false
  suppressed := false
  outcome := none
  evalDue := false
  evalRan := false
  lateOvf := 0
  updNonfin := false
  taintVeto := false
  taintCommit := false
  taintLoc := []
  prevLoc := []
  prevPoint := 0
  rngStart := 0
  versionAfter := 0
  barByte := (0, 0, 0)
  ovfEntries := 0
  firstNonfin := 0
  covUsed := false
  firstPeriod := false
  newBatch := false
  recBusy := []
  sampled := []
  violAt := none
  claims := []
  sentPorts := []
  poisonSent := false
  poisonFrom := none
  missing := false
  notReady := false
  capMarks := []
  capCount := 0
  steps := 0
  force := 0
  logRewinds := (0, 0)
  capTick := (0, 0, [])
  slotData := []
  delta := 64

/-- The memory system after a reset. -/
def MemSys.init : MemSys := ⟨[], [], [], [], [], [], [], [], [], [], false⟩

/-- The fabric after a reset. -/
def Fab.init : Fab := ⟨[], 0, false, false, false, [], [], (0, 0), [], [], false, [], [], none, 0, [], []⟩

/-- The host attachment after a reset. -/
def HostSys.init : HostSys := ⟨[], 0, [], [], []⟩

/-- Health after a reset. -/
def Health.init : Health := ⟨[], [], 0, [], [], [], 0⟩

/-- Ingots after a reset. -/
def Ing.init : Ing :=
  ⟨none, none, [], none, [], 0, none, 0, false, [], 0, none, none, none, none, false, [], false, false, false, (0, 0)⟩

/-- The spares before the settings are read: the manufacture maps (R438). -/
def Spares.init : Spares := ⟨[], [], [], none, [], [], [], false⟩

/-- Power while RESET_N is low (R472). -/
def Pwr.init : Pwr := ⟨0, none, 0, 0, true, false, false, false, false, false, false, [], [], 0, [], [], [], none, 0, none, [], []⟩

/-- The monitor before any conversion. -/
def Tsm.init : Tsm := ⟨[], [], [], [], [], [], [], []⟩

/-- A part that has stored no settings (R438), in reset. -/
def Nvs.init : Nvs := ⟨none, none, [], List.replicate 32 0, none, 0, 0, [], [], [], [], [], []⟩

/-- The part right after a power-on reset of the always-on domain has taken hold, RESET_N still low (R472): every register at its reset
value (R10), settings never stored (R438), memories not written (log 5), no command waiting. -/
def State.reset : State where
  pending := []
  time := ⟨0, 0, 0, 0, 0, 0, true⟩
  freeCount := 0
  regs := []
  events := []
  checks := []
  casting := none
  run := Run.init
  tab := ⟨[], [], [], [], []⟩
  streams := []
  cells := []
  flights := []
  dram := ⟨[], []⟩
  mem := MemSys.init
  fab := Fab.init
  host := HostSys.init
  health := Health.init
  ing := Ing.init
  spr := Spares.init
  pwr := Pwr.init
  tsm := Tsm.init
  nvs := Nvs.init
  mgt := ⟨[], false, []⟩
  sreg := []
  sregEcc := []
  out := []

end Sys2Proof.Machine
end

