-- ==== Sys2Proof/Machine/Ops.lean ====
section
/-! DEFINITION. The named operations over the state: registers, cells, memory, outputs, free values; forming an assay record with its
journal entry; contract violations, job faults, taints and events. Every meaning is written over these. -/
namespace Sys2Proof.Machine

/-! ### Registers -/

/-- What a register holds that nothing has written since the power-on reset (R10). -/
def regDefault (k : Nat) : Word :=
  BitVec.ofNat 32 (
    if k < 2 ^ 36 then resetIn resetRows k
    else if k < 2 ^ 40 then resetIn resetRowsCell ((k - 2 ^ 36) % 65536)
    else if (k - 2 ^ 40) / 2 ^ 20 = Reg.TSM_CH_WIN then tsmWindow ((k - 2 ^ 40) % 2 ^ 20)
    else resetIn resetRows ((k - 2 ^ 40) / 2 ^ 20))

/-- The word held under a register key. -/
def rd (s : State) (k : Nat) : Nat := (get regDefault s.regs k).toNat

/-- Writes the word under a register key. -/
def wr (k v : Nat) (s : State) : State := { s with regs := put regDefault s.regs k (BitVec.ofNat 32 v) }

/-- Field [hi:lo] of a register. -/
def fld (s : State) (k hi lo : Nat) : Nat := bits (rd s k) hi lo

/-- Replaces field [hi:lo] of a register. -/
def setFld (k hi lo v : Nat) (s : State) : State := wr k (setBits (rd s k) hi lo v) s

/-- An event sets a sticky bit (R8); that it did so on this tick is noted (R9). -/
def sticky (k bit : Nat) (s : State) : State := { wr k (rd s k ||| 2 ^ bit) s with events := (k, bit) :: s.events }

/-- The sticky bits of a register that events have set on the current tick (R9). -/
def eventBits (s : State) (k : Nat) : Nat := s.events.foldl (fun m e => if e.1 = k then m ||| 2 ^ e.2 else m) 0

/-- Adds `n` to a saturating counter field. -/
def bumpFld (k hi lo n : Nat) (s : State) : State := setFld k hi lo (satAdd (hi + 1 - lo) (fld s k hi lo) n) s

/-- Adds one to a saturating 32-bit counter. -/
def bump (k : Nat) (s : State) : State := bumpFld k 31 0 1 s

/-- Replaces the queue of waiting commands. -/
def withQueue (q : List Instr) (s : State) : State := { s with pending := q }

/-- The package's local stretch level is the highest of its sources (R64, R409). -/
def localLevel (s : State) : State :=
  let r := rd s Reg.PWR_STRETCH
  let l := [bits r 2 0, bits r 8 6, bits r 11 9, bits r 14 12, bits r 17 15, bits r 20 18].foldl max 0
  setFld Reg.PWR_STRETCH 5 3 (min 4 l) s

/-- The current tick (R19). -/
def now (s : State) : Nat := s.time.tick.toNat

/-- Appends to the record of what the part sends. -/
def emit (o : Output) (s : State) : State := { s with out := s.out ++ [o] }

/-- A fresh free value (log 4). -/
def fresh (s : State) : BitVec 64 × State := (Config.freeValue s.freeCount, { s with freeCount := s.freeCount + 1 })

/-! ### Cells -/

/-- The physical cell (0 to 1,087) at which a logical cell sat at manufacture: row l / 16, column l mod 16 (01). -/
def homeCell (l : Nat) : Nat := 17 * (l % 256 / 16) + l % 16

/-- The physical cell that serves logical cell `cell` of die `die` (R34). -/
def phys (s : State) (die cell : Nat) : Nat := 272 * die + get homeCell s.spr.cellMap (256 * die + cell)

/-- A physical cell. -/
def cellAt (s : State) (c : Nat) : Cell := get (fun _ => Cell.init) s.cells c

/-- Replaces a physical cell. -/
def setCell (c : Nat) (x : Cell) (s : State) : State := { s with cells := put (fun _ => Cell.init) s.cells c x }

/-- Changes a physical cell. -/
def onCell (c : Nat) (f : Cell → Cell) (s : State) : State := setCell c (f (cellAt s c)) s

/-- Changes every physical cell that anything has touched; `f` leaves an untouched cell as it is. -/
def mapCells (f : Cell → Cell) (s : State) : State :=
  { s with cells := mapVals Cell.init f s.cells }

/-- The logical cell (256 × die + cell) that physical cell `c` serves, if any. -/
def logicalOf (s : State) (c : Nat) : Option Nat :=
  (List.range 256).find? (fun l => phys s (c / 272) l == c) |>.map fun l => 256 * (c / 272) + l

/-- An array of a physical cell. -/
def arrAt (s : State) (c a : Nat) : Arr := get (fun _ => Arr.init) (cellAt s c).arrs a

/-- Replaces an array. -/
def setArr (c a : Nat) (x : Arr) (s : State) : State :=
  onCell c (fun y => { y with arrs := put (fun _ => Arr.init) y.arrs a x }) s

/-- What an unwritten byte of scratchpad or DRAM reads as (log 5). -/
def noByte (_ : Nat) : Byte := 0

/-- Bytes of a scratchpad. -/
def spGet (s : State) (c addr n : Nat) : List Byte := getBytes noByte (cellAt s c).sp addr n

/-- Writes bytes of a scratchpad; the 64-bit words written carry fresh check bits (R337). -/
def spPut (c addr : Nat) (data : List Byte) (s : State) : State :=
  onCell c (fun x => { x with
    sp := putBytes noByte x.sp addr data
    spBad := forget (fun w => decide (addr / 8 ≤ w) && decide (w ≤ (addr + data.length - 1) / 8) && data.length != 0) x.spBad }) s

/-- Whether a span of scratchpad holds an uncorrectable word (R337). -/
def spBadIn (s : State) (c addr n : Nat) : Bool :=
  (cellAt s c).spBad.any fun kv => decide (kv.2 = 2) && decide (addr / 8 ≤ kv.1) && decide (kv.1 ≤ (addr + n - 1) / 8)

/-! ### DRAM -/

/-- The condition of a DRAM line, 0 for one that reads clean (R253). -/
def markOf (s : State) (line : Nat) : Nat := get (fun _ => 0) s.dram.marks line

/-- Sets the condition of a DRAM line. -/
def setMark (line m : Nat) (s : State) : State :=
  { s with dram := { s.dram with marks := put (fun _ => 0) s.dram.marks line m } }

/-- The byte of a DRAM address as a read delivers it (R254). -/
def dramByte (s : State) (a : Nat) : Byte :=
  match markOf s (a / 64) with
  | 0 => get noByte s.dram.bytes a
  | m => get noByte s.dram.bytes a ^^^ BitVec.ofNat 8 ((readLine m).2 >>> (8 * (a % 64)))

/-- Bytes of DRAM, addresses of 39 bits (R241). -/
def dramGet (s : State) (a n : Nat) : List Byte := (List.range n).map fun i => dramByte s (a % 2 ^ 39 + i)

/-- A little-endian value in DRAM. -/
def dramNat (s : State) (a n : Nat) : Nat := leNat (dramGet s a n)

/-- Stores bytes of DRAM, leaving the condition of the lines. -/
def dramPut (a : Nat) (data : List Byte) (s : State) : State :=
  { s with dram := { s.dram with bytes := putBytes noByte s.dram.bytes (a % 2 ^ 39) data } }

/-! ### The casting in force -/

/-- SCH_STATUS.state (R66). -/
def schState (s : State) : Nat := fld s Reg.SCH_STATUS 3 0

/-- Whether a casting runs (R479): LOADING, ARMED or RUNNING. -/
def castingRuns (s : State) : Bool := let t := schState s; t == 1 || t == 3 || t == 4

/-- Whether a casting is loaded: LOADED, ARMED or RUNNING. -/
def castingLoaded (s : State) : Bool := let t := schState s; t == 2 || t == 3 || t == 4

/-- A directory entry of the casting: count and address of the section of a type; a missing one is empty (R39). -/
def sectionOf (s : State) (type : Nat) : Nat × Nat :=
  match s.casting with
  | none => (0, 0)
  | some c =>
    match c.dir.find? fun d => d.1 == type with
    | some d => (d.2.1, c.addr + d.2.2)
    | none => (0, 0)

/-- A resource-declaration entry (R40): kind, die byte, count, value. -/
def resEntries (s : State) : List (Nat × Nat × Nat × Nat) :=
  let d := sectionOf s 1
  (List.range d.1).map fun i =>
    let a := d.2 + 16 * i
    (dramNat s a 2, dramNat s (a + 2) 1, dramNat s (a + 4) 4, dramNat s (a + 8) 8)

/-- The mask of the logical ports that the casting uses (kind 7). -/
def portMask (s : State) : Nat :=
  (resEntries s).foldl (fun m e => if e.1 == 7 then m ||| e.2.2.2 else m) 0

/-- A segment-directory entry (R483): evaluation kind, place, byte offset of its words in their section, words. -/
structure SegEntry where
  evalSeg : Bool
  link : Bool
  die : Nat
  where_ : Nat
  offset : Nat
  words : Nat
  deriving DecidableEq, Repr

/-- The segment directory. -/
def segEntries (s : State) : List SegEntry :=
  let d := sectionOf s 2
  (List.range d.1).map fun i =>
    let a := d.2 + 32 * i
    { evalSeg := dramNat s a 1 == 1, link := dramNat s (a + 1) 1 == 1, die := dramNat s (a + 2) 1,
      where_ := dramNat s (a + 4) 2, offset := dramNat s (a + 8) 8, words := dramNat s (a + 16) 4 }

/-- The kind-5 stream region of a die: address and bytes. -/
def streamRegion (s : State) (die : Nat) : Nat × Nat :=
  match (resEntries s).find? fun e => e.1 == 5 && (e.2.1 == die || e.2.1 == 0xFF) with
  | some e => (e.2.2.2, e.2.2.1)
  | none => (0, 0)

/-- The key of the stream that an entry's words belong to: cells by 256 × die + cell, link units from 1,024. -/
def SegEntry.key (e : SegEntry) : Nat := if e.link then 1024 + e.where_ else 256 * e.die + e.where_

/-- The entries whose words lie in a die's stream region, in their order there: its cells, and on die 0 after them every link (R483; log 8). -/
def regionEntries (s : State) (die : Nat) : List SegEntry :=
  let es := segEntries s
  es.filter (fun e => !e.link && e.die == die) ++ (if die = 0 then es.filter (·.link) else [])

/-- Bytes of the slot streams of a die. -/
def streamBytes (s : State) (die : Nat) : Nat := (regionEntries s die).foldl (fun n e => n + 16 * e.words) 0

/-- Address of the first word of an entry in its die's stream region. -/
def segBase (s : State) (e : SegEntry) : Nat :=
  let die := if e.link then 0 else e.die
  ((regionEntries s die).takeWhile (· != e)).foldl (fun a x => a + 16 * x.words) (streamRegion s die).1

/-- Address of the working table: it follows the slot streams in die 0's stream region, directly (R40; log 8). -/
def tableAddr (s : State) : Nat := (streamRegion s 0).1 + streamBytes s 0

/-- Whether a working table is in force. -/
def hasTable (s : State) : Bool := s.casting.isSome && (castingLoaded s || schState s == 5 || schState s == 6)

/-- rng_step (R146, R147). -/
def rngStep (s : State) : Nat := if hasTable s then dramNat s (tableAddr s + 4) 4 else 0

/-- job_seed (R145, R147). -/
def jobSeed (s : State) : Nat := if hasTable s then dramNat s (tableAddr s) 4 else 0

/-- The step tick (R66). -/
def stepTick (s : State) : Nat := now s - s.run.start

/-- Casting hash, when a casting is loaded (R40). -/
def castingHash (s : State) : List Byte := (List.range 8).flatMap fun i => natLE 4 (rd s (Reg.SCH_CASTING_HASH + 4 * i))

/-! ### Assay records and the journal -/

/-- Severity of a class (R351). -/
def severityOf (cls : Nat) : Nat :=
  match cls with
  | 1 | 2 | 16 => 3
  | 3 | 4 | 5 | 6 | 8 | 15 => 2
  | 12 => 0
  | _ => 1

/-- A location field, 0 when it does not apply. -/
def locAt (loc : List (Nat × Nat)) (k : Nat) : Nat := ((loc.find? fun x => x.1 == k).map (·.2)).getD 0

/-- Whether a location names a field. -/
def locHas (loc : List (Nat × Nat)) (k : Nat) : Bool := loc.any fun x => x.1 == k

/-- A journal entry (R460). -/
def journalEntry (s : State) (cls sev : Nat) (loc : List (Nat × Nat)) (first : Nat) : List Byte :=
  let die := if locHas loc 8 then locAt loc 8 / 2 else locAt loc 1
  let at_ := if locHas loc 2 then locAt loc 2 else if locHas loc 7 then locAt loc 7 else locAt loc 8
  let sub := if locHas loc 5 then locAt loc 5 else locAt loc 9
  let b := natLE 8 s.health.seq ++ natLE 8 s.time.mandrel.toNat ++ natLE 4 (rd s Reg.SCH_STEP) ++ natLE 1 cls ++ natLE 1 sev
    ++ natLE 1 die ++ natLE 1 (locAt loc 4) ++ natLE 2 at_ ++ natLE 2 sub ++ natLE 2 first
  b ++ natLE 2 (crc16 b).toNat

/-- Issues a journal STORE; at most 16 are outstanding (R459). -/
def journalIssue (entry : List Byte) (s : State) : State :=
  if s.health.journal.length ≥ 16 then sticky Reg.HLT_STICKY0 3 (bump Reg.HLT_JRNL_DROPS s)
  else
    let head := fld s Reg.HLT_JRNL_HEAD 9 0
    setFld Reg.HLT_JRNL_HEAD 9 0 ((head + 1) % 1024)
      { s with health := { s.health with journal := s.health.journal ++ [(head, entry)] } }

/-- Always-on cycles in a number of milliseconds (25 MHz, R397). -/
def msCycles (ms : Nat) : Nat := 25000 * ms

/-- The suppression entry of a class and location (R352). -/
def sentOf (s : State) (cls : Nat) (loc : List (Nat × Nat)) : Sent :=
  (s.health.sent.find? fun x => x.cls == cls && x.loc == loc).getD ⟨cls, loc, none, 0⟩

/-- Replaces the suppression entry of its class and location. -/
def setSent (x : Sent) (s : State) : State :=
  { s with health := { s.health with sent := x :: s.health.sent.filter fun y => !(y.cls == x.cls && y.loc == x.loc) } }

/-- Removes the oldest record of severity `sev` from a queue. -/
def dropOldest (sev : Nat) : List Rec → List Rec
  | [] => []
  | r :: l => if r.sev == sev then l else r :: dropOldest sev l

/-- Puts a record into the queue of 512, displacing under R352. -/
def enqueue (r : Rec) (s : State) : State :=
  let q := s.health.queue
  let len := fun (s : State) => setFld Reg.HLT_AREC_QUEUE 9 0 s.health.queue.length s
  if q.length < 512 then len { s with health := { s.health with queue := q ++ [r] } }
  else
    let low := q.foldl (fun m x => min m x.sev) 3
    if low ≤ r.sev then
      len (bump Reg.HLT_AREC_DROPS { s with health := { s.health with queue := dropOldest low q ++ [r] } })
    else bump Reg.HLT_AREC_DROPS s

/-- A location with the physical cell that serves its logical cell (R350). -/
def withPhys (s : State) (loc : List (Nat × Nat)) : List (Nat × Nat) :=
  if locHas loc 1 && locHas loc 2 && !locHas loc 3 then loc ++ [(3, phys s (locAt loc 1) (locAt loc 2) % 272)] else loc

/-- One-bit fields from bit 0 on. -/
def flagFields (names : List String) : List (String × Nat × Nat) := ((List.range names.length).zip names).map fun p => (p.2, p.1, p.1)

/-- The first-record register of a class (R486), 0 where the class has none or more than one. -/
def firstReg (cls : Nat) : Nat :=
  match cls with
  | 1 => Reg.SCH_VIOL_FIRST
  | 3 => Reg.HLT_TAINT
  | 4 => Reg.HLT_CLASS
  | 6 | 7 => Reg.CAL_LAST
  | 8 => Reg.MEM_UE_ADDR_HI
  | 9 => Reg.FAB_STICKY
  | 11 => Reg.HLT_RISK
  | 14 => Reg.PWR_STICKY
  | 15 => Reg.SPR_STICKY
  | 16 => Reg.NVS_STATUS
  | 17 => Reg.MGT_STICKY
  | _ => 0

/-- The fields of a first-record register by name, as (name, high bit, low bit). -/
def regFields (reg : Nat) : List (String × Nat × Nat) :=
  if reg = Reg.SCH_VIOL_FIRST then [("monitor", 3, 0), ("unit", 7, 4), ("die", 9, 8), ("where", 17, 10)]
  else if reg = Reg.HLT_TAINT then [("tainted", 0, 0), ("cause", 5, 1), ("unit", 9, 6), ("die", 11, 10)]
  else if reg = Reg.HLT_CLASS then [("class", 1, 0)]
  else if reg = Reg.ARR_FAIL then [("array", 5, 0), ("column", 13, 6), ("kind", 15, 14)]
  else if reg = Reg.CAL_LAST then [("die", 1, 0), ("cell", 9, 2), ("array", 15, 10), ("column", 24, 16), ("kind", 27, 25)]
  else if reg = Reg.MEM_UE_ADDR_HI then [("addr_hi", 6, 0), ("kind", 8, 7), ("async", 9, 9)]
  else if reg = Reg.FAB_STICKY then
    flagFields ["linkloss", "miswire", "fec_ue", "laneswap", "portfail", "unlock", "stretchdis", "hold", "notready", "parcel_drop",
      "nonfin", "seam"]
  else if reg = Reg.HLT_RISK then [("rho", 31, 0)]
  else if reg = Reg.PWR_STICKY then
    flagFields ["refused", "refclk", "reg_fault", "pgood", "tj_trip", "thermtrip", "qimg_fail", "latched"]
  else if reg = Reg.SPR_STICKY then
    flagFields ["fill_fail", "overflow", "exhausted", "capacity", "unstored", "nosource", "coreswap"]
  else if reg = Reg.NVS_STATUS then
    [("boot", 1, 0), ("fail_code", 9, 2), ("store_busy", 10, 10), ("store_pending", 11, 11), ("quote_busy", 12, 12), ("defaulted", 13, 13),
      ("bank", 14, 14)]
  else if reg = Reg.MGT_STICKY then flagFields ["auth", "stale", "queue", "link_down", "dwi_err"]
  else if reg = Reg.BUR_EXC_FIRST then [("kind", 2, 0), ("class", 5, 3), ("lane", 11, 6), ("beat", 31, 12)]
  else if reg = Reg.MEM_STATUS then [("tripped", 7, 0), ("doubled", 15, 8), ("req", 18, 16), ("ppr_pending", 26, 19)]
  else if reg = Reg.FAB_PORT_STATUS then [("state", 2, 0), ("lanes", 11, 3), ("swapped", 15, 12), ("logical", 21, 16)]
  else if reg = Reg.FAB_LOCK then [("offset", 15, 0), ("locked", 16, 16)]
  else if reg = Reg.HST_INTAKE_BATCH then [("batch", 31, 0)]
  else if reg = Reg.SCH_OUTCOME then [("outcome", 2, 0), ("ovf_rewinds", 4, 3), ("taint_rewinds", 6, 5), ("cautious_used", 7, 7)]
  else []

/-- The detail of a record: the fields of its first-record register by name. DESIGN CHOICE (log 110): R350 leaves open which fields of the
raising chapter's registers a record carries. -/
def detailOf (reg first : Nat) : List (String × Nat) := (regFields reg).map fun f => (f.1, bits first f.2.1 f.2.2)

/-- Forms an assay record of class `cls` at location `loc`, or counts it as suppressed; journals it (R349 to R353, R357, R459, R486).
`first` is the first-record register of R486. -/
def recordFull (cls sev : Nat) (loc : List (Nat × Nat)) (detail : List (String × Nat)) (classif first : Nat) (s : State) : State :=
  let loc := withPhys s loc
  let x := sentOf s cls loc
  let quiet := msCycles (fld s Reg.HLT_AREC_CFG 15 8)
  let recent := match x.at_ with
    | some t => decide (s.time.cycles < t + quiet)
    | none => false
  if sev < 3 && recent then setSent { x with suppressed := x.suppressed + 1 } s
  else
    let r : Rec := {
      seq := s.health.seq, mandrel := s.time.mandrel.toNat, tick := now s, step := rd s Reg.SCH_STEP, rng := rngStep s, cls, sev, loc, detail,
      classif, suppressed := x.suppressed,
      role := if fld s Reg.FAB_ROLE 16 16 = 1 then some (fld s Reg.FAB_ROLE 15 0) else none,
      casting := if castingLoaded s then some ((castingHash s).take 8) else none }
    let cfg := rd s Reg.HLT_JRNL_CFG
    let entry := journalEntry s cls sev loc first
    let s := { s with health := { s.health with seq := s.health.seq + 1 } }
    let s := wr Reg.HLT_AREC_SEQ_LO s.health.seq s
    let s := if bits cfg 2 2 = 1 && bits cfg 1 0 ≤ sev then journalIssue entry s else s
    if fld s Reg.HLT_AREC_CFG 0 0 = 1 then enqueue r s
    else bump Reg.HLT_AREC_DROPS (setSent { x with at_ := some s.time.cycles } s)

/-- An assay record of a class at its own severity, of which `reg` is the first-record register with value `first`. -/
def recordOf (cls reg : Nat) (loc : List (Nat × Nat)) (first : Nat) (s : State) : State :=
  recordFull cls (severityOf cls) loc (detailOf reg first) 0 first s

/-- An assay record of a class with one first-record register. -/
def record (cls : Nat) (loc : List (Nat × Nat)) (first : Nat) (s : State) : State := recordOf cls (firstReg cls) loc first s

/-- Counts an input of the health monitor (R354). -/
def riskInput (k n : Nat) (s : State) : State :=
  { s with health := { s.health with inputs := put (fun _ => 0) s.health.inputs k (get (fun _ => 0) s.health.inputs k + n) } }

/-- Counts a corrected error at a place, as input `k` of the health monitor (R337, R351, R354). -/
def noteCorrected (place k : Nat) (s : State) : State :=
  riskInput k 1 { s with health := { s.health with
    corrected := put (fun _ => 0) s.health.corrected place (get (fun _ => 0) s.health.corrected place + 1) } }

/-! ### Events to the host (R322) -/

/-- A queue pair beyond its context. -/
def qpAt (s : State) (q : Nat) : Qp := get (fun _ => Qp.init) s.host.qps q

/-- Replaces a queue pair. -/
def setQp (q : Nat) (x : Qp) (s : State) : State := { s with host := { s.host with qps := put (fun _ => Qp.init) s.host.qps q x } }

/-- Context register `i` of a queue pair. -/
def ctx (s : State) (q i : Nat) : Nat := rd s (bankKey (Reg.HST_QP_CTX0 + 4 * i) q)

/-- The queue pairs whose context names a state and a class. -/
def qpsIn (s : State) (state cls : Nat) : List Nat :=
  (s.regs.map (·.1)).filterMap fun k =>
    if 2 ^ 40 ≤ k ∧ (k - 2 ^ 40) / 2 ^ 20 = Reg.HST_QP_CTX0 then
      let q := (k - 2 ^ 40) % 2 ^ 20
      if bits (ctx s q 0) 2 0 = state ∧ bits (ctx s q 0) 4 3 = cls then some q else none
    else none

/-- The configuration record of a host port (record 0x0008): host port, MAC, 802.1Q tag, IPv4, IPv6, region-0 tag (R432). -/
def hostRec (s : State) (port : Nat) : List Byte :=
  ((s.nvs.config.find? fun r => r.1 == 8 && leNat (r.2.take 1) == port).map (·.2)).getD []

/-- The 802.1Q tag of a host port, 0 for none (R307). -/
def hostVlan (s : State) (port : Nat) : Nat := leNat (((hostRec s port).drop 7).take 2)

/-- The peer address of a queue pair: entry `peer` of the table of peer addresses (R330). -/
def peerIp (s : State) (q : Nat) : Nat :=
  let e := bits (ctx s q 5) 19 16
  (List.range 4).foldl (fun n i => n + 2 ^ (32 * i) * rd s (bankKey (Reg.HST_PEER_IP + 4 * i) e)) 0

/-- The headers of a packet on a queue pair, from its context and its port's configuration: an IPv4-mapped peer is reached over IPv4, every
packet is ECN-capable (ECT(0)), and the destination port is 4791 (R308, R310, R328, R330). -/
def packetHead (s : State) (q va rkey : Nat) : PktHead :=
  let port := bits (ctx s q 0) 6 5
  let r := hostRec s port
  let ip := peerIp s q
  { port, vlan := hostVlan s port, dstMac := bits (ctx s q 5) 15 0 * 2 ^ 32 + ctx s q 4, srcMac := (r.drop 1).take 6, dstIp := ip
    srcIp := if ip / 2 ^ 32 = 0xFFFF then (r.drop 9).take 4 else (r.drop 13).take 16
    tos := 4 * bits (ctx s q 5) 25 20 + 2, udpSrc := bits (ctx s q 7) 15 0, udpDst := 4791, destQpn := bits (ctx s q 1) 23 0, va, rkey }

/-- A packet leaves on a queue pair. -/
def emitPacket (q opcode : Nat) (psn : BitVec 24) (syndrome : Nat) (payload : List Byte) (s : State) : State :=
  emit (.packet (packetHead s q 0 0) q opcode psn syndrome payload) s

/-- A packet of the part's own leaves on a queue pair. -/
def emitPkt (q : Nat) (p : Pkt) (s : State) : State :=
  emit (.packet (packetHead s q p.va.toNat p.rkey.toNat) q p.opcode.toNat p.psn p.imm.toNat p.payload) s

/-- Sends one packet as requester on a queue pair with the next PSN; it is kept until it is acknowledged (R313). -/
def sendPacket (q opcode va rkey : Nat) (payload : List Byte) (imm : Nat) (event : Bool) (s : State) : State :=
  let psn := BitVec.ofNat 24 (ctx s q 2)
  let x := qpAt s q
  let p : Pkt := ⟨psn, BitVec.ofNat 8 opcode, BitVec.ofNat 64 va, BitVec.ofNat 32 rkey, payload, BitVec.ofNat 32 imm, event⟩
  let sent := if x.unacked.isEmpty then s.time.cycles else x.sentAt
  emitPkt q p (setQp q { x with unacked := x.unacked ++ [p], sentAt := sent } (wr (bankKey (Reg.HST_QP_CTX0 + 8) q) (psn + 1).toNat s))

/-- Sends an event on every event queue pair in RTS, or counts it as dropped (R322). -/
def event (etype code : Nat) (s : State) : State :=
  match qpsIn s 3 2 with
  | [] => bump Reg.HST_EVT_DROPS s
  | l =>
    let payload := natLE 1 etype ++ natLE 1 code ++ natLE 2 0 ++ natLE 4 (rd s Reg.SCH_STEP) ++ natLE 8 (now s)
    each l (fun q s => sendPacket q 0x04 0 0 payload 0 true s) s

/-- Sets SCH_STATUS.state and sends the state event when it changes (R322). -/
def setSchState (t : Nat) (s : State) : State :=
  if schState s = t then s else event 1 t (setFld Reg.SCH_STATUS 3 0 t s)

/-! ### Refused accesses (R6, R35, R37, R461) -/

/-- Number of a source in HLT_ACC_FIRST. -/
def sourceCode : Source → Nat
  | .host => 0
  | .tinker => 1
  | .mgmt => 2
  | .dwi => 3

/-- Records an access refused for its size (kind 1), a sleeping cell (2) or the state (3) at a byte offset (R461). -/
def accFirst (kind : Nat) (src : Source) (addr : Nat) (s : State) : State :=
  let s := if fld s Reg.HLT_STICKY0 2 0 = 0 then wr Reg.HLT_ACC_FIRST (sourceCode src + 4 * kind + 32 * (addr / 4)) s else s
  sticky Reg.HLT_STICKY0 (kind - 1) s

/-- A write refused in the current state (R37). -/
def accState (src : Source) (addr : Nat) (s : State) : State := accFirst 3 src addr s

/-! ### Violations, job faults, taints -/

/-- Raises a job fault: it acts on the tick after its detection, while a casting runs (R57, R479). -/
def jobFault (s : State) : State :=
  if castingRuns s ∧ s.run.faultAt = none then { s with run := { s.run with faultAt := some (now s) } } else s

/-- Raises a job fault with its assay record of class 2 (R351). -/
def jobFaultRec (reg : Nat) (loc : List (Nat × Nat)) (first : Nat) (s : State) : State := recordOf 2 reg loc first (jobFault s)

/-- Whether a job fault is in force (R57). -/
def faultInForce (s : State) : Bool := s.run.faultAt.isSome || schState s == 6

/-- The location of a place: a cell with its unit, or a link unit (R350). -/
def placeLoc (unit die wh : Nat) : List (Nat × Nat) := if unit = 6 then [(4, unit), (7, wh)] else [(1, die), (2, wh), (4, unit)]

/-- A contract monitor detects a violation (R56). -/
def viol (bit unit die wh : Nat) (s : State) : State :=
  let old := rd s Reg.SCH_VIOL
  let first := bit + 16 * unit + 256 * (if unit = 6 then 0 else die) + 1024 * wh
  let record' := decide (old = 0) || (s.run.violAt == some (now s) && decide (bit < fld s Reg.SCH_VIOL_FIRST 3 0))
  let s := sticky Reg.SCH_VIOL bit s
  let s := if record' then
      { (wr Reg.SCH_VIOL_TICK (now s) (wr Reg.SCH_VIOL_FIRST first s)) with run := { s.run with violAt := some (now s) } }
    else s
  record 1 (placeLoc unit die wh) (rd s Reg.SCH_VIOL_FIRST) (jobFault s)

/-- The registers, the location and the poison notices of the first taint event of a step (R342, R345, R347). -/
def taintMark (cause unit die wh sub : Nat) (loc : List (Nat × Nat)) (s : State) : State :=
  let s' := wr Reg.HLT_TAINT (1 + 2 * cause + 64 * unit + 1024 * die)
    (wr Reg.HLT_TAINT_TICK (stepTick s) (wr Reg.HLT_TAINT_WHERE (wh + 256 * sub) s))
  { s' with run := { s.run with taintLoc := loc, poisonFrom := (s.run.poisonFrom <|> some (8 * (stepTick s / 8 + 1))) } }

/-- A taint before the commit point counts at the barrier point that comes next (R219, R341). -/
def taintPoint (s : State) : State :=
  { s with run := { s.run with
      taintCommit := s.run.taintCommit || s.run.veto.isSome
      taintVeto := s.run.taintVeto || s.run.veto.isNone } }

/-- A taint event of the step (R341, R342, R344). `wh` and `sub` are the where and sub fields of R347. -/
def taint (cause unit die wh sub : Nat) (loc : List (Nat × Nat)) (s : State) : State :=
  if !s.run.on && schState s != 4 then s
  else
    let loc := loc ++ [(11, cause)]
    let first := decide (fld s Reg.HLT_TAINT 0 0 = 0)
      || (decide (rd s Reg.HLT_TAINT_TICK = stepTick s) && decide (cause < fld s Reg.HLT_TAINT 5 1))
    let s := riskInput (if cause = 1 ∨ cause = 7 then 2 else 7) 1 (if first then taintMark cause unit die wh sub loc s else s)
    match s.run.commit with
    | some _ => recordFull 10 1 loc [("SCH_STEP", rd s Reg.SCH_STEP)] 0 0 (bump Reg.HLT_LATE_TAINTS s)
    | none => record 3 loc (rd (taintPoint s) Reg.HLT_TAINT) (taintPoint s)

/-- A taint event of a unit of a logical cell. -/
def taintCell (cause unit die cell : Nat) (s : State) : State := taint cause unit die cell 0 [(1, die), (2, cell), (4, unit)] s

/-- Puts an operation in flight. -/
def launch (due : Nat) (e : Effect) (s : State) : State := { s with flights := s.flights ++ [⟨due, e⟩] }

end Sys2Proof.Machine
end

