-- ==== Sys2Proof/Machine/Sense.lean ====
section
/-! DEFINITION. What the Touchstone monitor (17) currently reads: channels, their validity, and a cell group's temperature. -/
namespace Sys2Proof.Machine

/-- A channel of a converter. -/
def chanAt (s : State) (conv ch : Nat) : Chan := get (fun _ => Chan.init) s.tsm.chans (32 * conv + ch)

/-- Replaces a channel. -/
def setChan (conv ch : Nat) (x : Chan) (s : State) : State :=
  { s with tsm := { s.tsm with chans := put (fun _ => Chan.init) s.tsm.chans (32 * conv + ch) x } }

/-- TSM_CH_WIN of a channel. -/
def chanWin (s : State) (conv ch : Nat) : Nat := rd s (bankKey Reg.TSM_CH_WIN (32 * conv + ch))

/-- Whether a channel exists: reserved channels are permanently disabled. -/
def chanExists (conv ch : Nat) : Bool := if conv = 8 then decide (ch ≤ 10) else decide (conv < 8) && decide (ch ≤ 29)

/-- Whether TSM_CH_WIN enables a channel. -/
def chanEn (s : State) (conv ch : Nat) : Bool := chanExists conv ch && bits (chanWin s conv ch) 28 28 == 1

/-- Whether a channel is enabled: as its last write of TSM_CH_WIN says, once a conversion has put the write into effect (R424). -/
def chanOn (s : State) (conv ch : Nat) : Bool := (chanAt s conv ch).enBefore.getD (chanEn s conv ch)

/-- Whether a converter runs: the hub's always, a die's while VCORE is on (R415). -/
def convRuns (s : State) (conv : Nat) : Bool := conv == 8 || bits s.pwr.rails 0 0 == 1

/-- Whether a channel's reading is valid: enabled, its converter running, converted less than 1 ms ago (R417). -/
def chanValid (s : State) (conv ch : Nat) : Bool :=
  chanOn s conv ch && convRuns s conv &&
    match (chanAt s conv ch).takenAt with
    | some t => decide (s.time.cycles < t + msCycles 1)
    | none => false

/-- The temperature of a cell group in 1/16 °C, when its diode has a valid reading (R104, R413, R414, R417). -/
def groupTemp (s : State) (die group : Nat) : Option Int :=
  let conv := 2 * die + group / 8
  let ch := 1 + group % 8
  if chanValid s conv ch then some (((chanAt s conv ch).code.toNat : Int) - 1024) else none

/-- The temperature of a logical cell. -/
def cellTemp (s : State) (die cell : Nat) : Option Int := groupTemp s die (cell / 16)

end Sys2Proof.Machine
end

