-- ==== Sys2Proof/Machine/Hallmark.lean ====
section
/-! DEFINITION. The hallmark (R331 to R336): the residue modulo 7 of a value, what an operation predicts, and the checks whose verdicts
have not come due. -/
namespace Sys2Proof.Machine

/-- The hallmark of a finite value of sign s, significand M and exponent E relative to a reference exponent (R332). -/
def hres (neg : Bool) (m : Nat) (e eref : Int) : Nat :=
  let r := m * 2 ^ ((e - eref) % 3).toNat % 7
  if neg then (7 - r) % 7 else r

/-- The hallmark of an exact number. -/
def hresDy (x : Dy) (eref : Int) : Nat := hres (decide (x.m < 0)) x.m.natAbs x.e eref

/-- The exact value of a term, the product of its factors. -/
def termValue (l : List Dy) : Dy := l.foldl Dy.mul ⟨1, 0⟩

/-- A product predicts the product of the residues of its factors, with the exponents added (R333). -/
def hresMul (l : List Dy) (eref : Int) : Nat :=
  (l.foldl (fun n x => n * hresDy x x.e) 1) * 2 ^ (((l.map (·.e)).sum - eref) % 3).toNat % 7

/-- An exact sum predicts the sum of the residues of its terms (R333). -/
def hresSum (l : List (List Dy)) (eref : Int) : Nat := (l.foldl (fun n x => n + hresMul x eref) 0) % 7

/-- The lowest exponent among the terms of an operation (R332). -/
def lowestExp (l : List Dy) : Int := l.foldl (fun m x => min m x.e) ((l.head?).elim 0 (·.e))

/-- The increment of a rounding or conversion of the exact sum of `terms` to `v`. -/
def increment (terms : List (List Dy)) (v : Dy) : Dy := v.add (Dy.sum (terms.map termValue)).neg

/-- Whether a check finds `upset`, the bits in which what reached the place written differs from what the operation gives: by the residue
of the value written, by the residue of an index, or for a special value or a function by comparing the two results (R333, R334). -/
def CheckVal.mismatch (x : CheckVal) (upset : Nat) : Bool :=
  let code := x.code ^^^ (upset % 2 ^ x.fmt.width)
  match x.by_ with
  | .twice => code != x.code
  | .index => code % 7 != x.code % 7
  | .residue =>
    match scaled x.fmt x.b x.code, scaled x.fmt x.b code with
    | .fin n m e, .fin n' m' e' =>
      let v := FV.dy (.fin n m e)
      let inc := increment x.terms v
      let eref := min e' (lowestExp (inc :: v :: x.terms.map termValue))
      (hresSum x.terms eref + hresDy inc eref) % 7 != hres n' m' e' eref
    | _, _ => code != x.code

/-- Ticks within which the verdict of a check arrives (latency-sheet entry 0x000A, R335). -/
def verdictTicks : Nat := 24

/-- The place of a check: a physical cell, that of the destination for a RECV in add mode (R347). A link unit by its port is the place of none. -/
def checkPlace (s : State) (p : Place) : Nat :=
  match p with
  | .cell d c => phys s d.val c.val
  | .port q => 2048 + q.val

/-- Values written on this tick by a word with hk set: their verdicts are to come (R334, R335). -/
def noteCheck (unit place : Nat) (vals : List CheckVal) (s : State) : State :=
  if vals.isEmpty then s
  else { s with checks := (s.checks.filter fun c => decide (now s ≤ c.tick + verdictTicks)) ++ [⟨unit, place, now s, vals⟩] }

/-- The value that a verdict is about: value `i` of those that a unit of a place wrote on a tick, if it is checked and the verdict is not
too late (R335, R336). -/
def checkedValue (s : State) (unit place tick i : Nat) : Option CheckVal :=
  if now s ≤ tick + verdictTicks then
    (((s.checks.filter fun c => c.unit == unit && c.place == place && c.tick == tick).flatMap (·.vals))[i]?)
  else none

/-- A value moved or converted: its exact source predicts it (R333). -/
def moved (v : FV) (fmt : Fmt) (b code : Nat) : CheckVal := ⟨match v with | .fin _ _ _ => [[v.dy]] | _ => [], .residue, fmt, b, code, .inside⟩

/-- A value written as a rounding to F16 of an exact sum of products. -/
def termCheck (terms : List (List Dy)) (v : F16) : CheckVal := ⟨terms, .residue, .f16, 127, v.toNat, .inside⟩

/-- A value written as a rounding of an exact sum to F16. -/
def sumCheck (l : List Dy) (v : F16) : CheckVal := termCheck (l.map fun x => [x]) v

/-- A value formed twice. -/
def twiceCheck (v : F16) : CheckVal := ⟨[], .twice, .f16, 127, v.toNat, .inside⟩

/-- An element index. -/
def indexCheck (i : Nat) : CheckVal := ⟨[], .index, .f16, 127, i, .inside⟩

/-- An exact sum that is not rounded, by the residue of its significand (R210). -/
def exactCheck (x : Dy) : CheckVal := indexCheck x.m.natAbs

/-- The rounding `v` of exact terms, or two results compared where one of the operands or the result is special (R333). -/
def laneCheck (ops : List F16) (terms : List (List Dy)) (v : F16) : CheckVal :=
  if (v :: ops).any nonFinite then twiceCheck v else termCheck terms v

/-- The place that a checked value is written to. -/
def CheckVal.at_ (x : CheckVal) (p : Spot) : CheckVal := { x with spot := p }

/-! ### Values as computed (R335) -/

/-- The code of `w` bits at a bit address of a scratchpad. -/
def spBits (s : State) (c a w : Nat) : Nat := (leNat (spGet s c (a / 8) ((w + 7) / 8)) >>> (a % 8)) % 2 ^ w

/-- What the place of a checked value holds, none where it has no place in memory. -/
def CheckVal.held (x : CheckVal) (s : State) : Option Nat :=
  match x.spot with
  | .inside => none
  | .sp c a => some (spBits s c a x.fmt.width)
  | .acc c i => some (get (fun _ => 0) (cellAt s c).acc i).toNat
  | .table c i => some (get (fun _ => 0x7FC0) (cellAt s c).tables i).toNat
  | .buf c i k => some (((get (fun _ => AnvBuf.init) (cellAt s c).bufs i).elems[k]?).getD 0)
  | .chain c i k => some (((get (fun _ => Chain.init) (cellAt s c).chains i).elems[k]?).getD 0).toNat

/-- Flips bits of what the place of a checked value holds; check bits are formed of the value as computed. -/
def CheckVal.flip (x : CheckVal) (m : Nat) (s : State) : State :=
  match x.spot with
  | .inside => s
  | .sp c a =>
    let n := (a % 8 + x.fmt.width + 7) / 8
    onCell c (fun y => { y with sp := putBytes noByte y.sp (a / 8) (natLE n (leNat (getBytes noByte y.sp (a / 8) n) ^^^ m <<< (a % 8))) }) s
  | .acc c i => onCell c (fun y => { y with acc := put (fun _ => 0) y.acc i (get (fun _ => 0) y.acc i ^^^ BitVec.ofNat 16 m) }) s
  | .table c i => onCell c (fun y => { y with tables := put (fun _ => 0x7FC0) y.tables i (get (fun _ => 0x7FC0) y.tables i ^^^ BitVec.ofNat 16 m) }) s
  | .buf c i k => onCell c (fun y =>
      let b := get (fun _ => AnvBuf.init) y.bufs i
      { y with bufs := put (fun _ => AnvBuf.init) y.bufs i { b with elems := b.elems.modify k (· ^^^ m) } }) s
  | .chain c i k => onCell c (fun y =>
      let b := get (fun _ => Chain.init) y.chains i
      { y with chains := put (fun _ => Chain.init) y.chains i { b with elems := b.elems.modify k (· ^^^ BitVec.ofNat 16 m) } }) s

/-- The value is written as computed: its upset bits stand where it was written, as long as nothing else has been written there since
(R335; log 99). -/
def CheckVal.spoil (x : CheckVal) (upset : Nat) (s : State) : State :=
  let m := upset % 2 ^ x.fmt.width
  if m ≠ 0 ∧ x.held s = some x.code then x.flip m s else s

end Sys2Proof.Machine
end

