-- ==== Sys2Proof/Machine/Ports.lean ====
section
/-! DEFINITION. Fabric ports, addresses and partners (R28, R268, R269, R277), the stages of barriers (R293, R294), and what goes out in link
slots (R271, R272). -/
namespace Sys2Proof.Machine

/-! ### Configuration records (R432) -/

/-- The value of the first configuration record of a type. -/
def cfgRec (s : State) (type : Nat) : Option (List Byte) := (s.nvs.config.find? fun r => r.1 == type).map (·.2)

/-- A little-endian field of the configuration record of a type, 0 without the record. -/
def cfgNat (s : State) (type off n : Nat) : Nat := leNat ((((cfgRec s type).getD []).drop off).take n)

/-- The package address of the works partner (record 0x0002). -/
def worksPartner (s : State) : Nat := cfgNat s 2 48 2

/-! ### Addresses and ports (R28, R268, R269) -/

/-- The part's package address. -/
def ownAddr (s : State) : Nat := fld s Reg.FAB_ADDR 15 0
/-- The role address carried. -/
def roleAddr (s : State) : Nat := fld s Reg.FAB_ROLE 15 0
/-- Whether a role is carried. -/
def roleActive (s : State) : Bool := fld s Reg.FAB_ROLE 16 16 == 1
/-- Slot, bench and forge of an address (R28). -/
def addrSlot (a : Nat) : Nat := bits a 4 0
/-- Bench. -/
def addrBench (a : Nat) : Nat := bits a 8 5
/-- Forge. -/
def addrForge (a : Nat) : Nat := bits a 15 9

/-- Whether an address names a package or is the broadcast address (R29). -/
def validAddr (a : Nat) : Bool := decide (addrForge a < 96) || a == 0xFFFF

/-- The partner of a logical port by the role carried (R268). -/
def partnerOf (s : State) (l : Nat) : Nat :=
  let r := roleAddr s
  if l ≤ 30 then r - addrSlot r + (addrSlot r + 1 + l) % 32
  else if l ≤ 45 then r - 32 * addrBench r + 32 * ((addrBench r + 1 + (l - 31)) % 16)
  else worksPartner s

/-- The logical port by which the partner reaches the part. -/
def partnerPort (l : Nat) : Nat := if l ≤ 30 then 30 - l else if l ≤ 45 then 76 - l else 46

/-- The physical port of a logical port (R269). -/
def physOf (s : State) (l : Nat) : Nat := fld s (Reg.FAB_PORTMAP + 4 * (l / 4)) (8 * (l % 4) + 5) (8 * (l % 4))

/-- The logical port bound to a physical port, when exactly one is (R269). -/
def logicalAt (s : State) (p : Nat) : Option Nat :=
  match (List.range 48).filter fun l => physOf s l == p with
  | [l] => some l
  | _ => none

/-- A port beyond its registers. -/
def portAt (s : State) (p : Nat) : Port := get (fun _ => Port.init) s.fab.ports p

/-- Replaces it. -/
def setPort (p : Nat) (x : Port) (s : State) : State :=
  { s with fab := { s.fab with ports := put (fun _ => Port.init) s.fab.ports p x } }

/-- Key of FAB_PORT_STATUS of a physical port. -/
def portKey (p : Nat) : Nat := bankKey Reg.FAB_PORT_STATUS p

/-- State of a physical port (R305). -/
def portState (s : State) (p : Nat) : Nat := fld s (portKey p) 2 0

/-- Sets it. -/
def setPortState (p v : Nat) (s : State) : State := setFld (portKey p) 2 0 v s

/-- FAB_PORT_STATUS as it reads, with the bound logical port. -/
def portStatus (s : State) (p : Nat) : Nat := setBits (rd s (portKey p)) 21 16 ((logicalAt s p).getD 0x3F)

/-- The physical port by which the partner reaches the part: the one of the configuration's map, or the spare port that a moved fibre takes
(R279, R390; log 95). -/
def partnerPhysFits (s : State) (l x : Nat) : Bool := x == cfgNat s 2 (partnerPort l) 1 || x == 47

/-- Whether the partner that a port has discovered is the one it expects (R269, R279). -/
def partnerFits (s : State) (p : Nat) : Bool :=
  let x := portAt s p
  x.mapOk && match logicalAt s p with
    | none => true
    | some 47 => true
    | some l =>
      let r := rd s (bankKey Reg.FAB_PORT_PARTNER p)
      bits r 15 0 == partnerOf s l && x.partnerLogical.toNat == partnerPort l && partnerPhysFits s l (bits r 21 16)

/-- Whether a logical port is UP: bound to an UP physical port that no other names, with the partner it expects (R269). -/
def portUp (s : State) (l : Nat) : Bool :=
  portState s (physOf s l) == 5 && logicalAt s (physOf s l) == some l && partnerFits s (physOf s l)

/-- Capacity of works ring `k` (R296). -/
def ringCap (s : State) (k : Nat) : Nat := (((resEntries s).filter fun e => e.1 == 6)[k]?).elim 0 fun e => e.2.2.1

/-- Physical ports that are UP. -/
def upPorts (s : State) : List Nat := (List.range 48).filter fun p => portState s p == 5

/-- Sends a control flit on every port of a list. -/
def ctrlAll (ports : List Nat) (type : Nat) (args : List Nat) (s : State) : State := each ports (fun p => emit (.ctrl p type args)) s

/-- State of the package: 0 RUN, 1 entering, 2 BANK, 3 QUENCH, 4 waking. -/
def pwrState (s : State) : Nat := fld s Reg.PWR_STATUS 2 0

/-- Whether the hub main domain runs: out of reset, its clock and VCORE there, and no power-up waiting for PWR_GOOD; in an entry it runs until
its PLL stops (R309, R394, R403, R449, R455). -/
def hubRuns (s : State) : Bool :=
  !s.pwr.inReset && s.time.refclk && decide (pwrState s ≤ 1) && bits s.pwr.rails 0 0 == 1 && s.pwr.rising == 0

/-- The tally requests that are served or wait: the cycles at which their service ends (R449). -/
def tallyBusy (s : State) : List Nat := s.mgt.serving.filter fun c => decide (s.time.cycles < c)

/-- Whether a physical port may be lit: enabled by the configuration, with VLAS on, no deep state entered or in force, and not outside the
mask of a loaded or loading casting (R277, R400, R403). -/
def mayTrain (s : State) (p : Nat) : Bool :=
  let held := schState s == 1 || castingLoaded s
  (pwrState s == 0 || pwrState s == 4) &&
  bits (cfgNat s 7 0 8) p p == 1 && bits s.pwr.rails 3 3 == 1
    && (!held || (match logicalAt s p with | some l => bits (portMask s) l l == 1 | none => false))

/-- Whether the lasers of a port are on: it is not dark, or trains (R277). -/
def portLasers (s : State) (p : Nat) : Bool := (portState s p != 0 && portState s p != 7) || (portAt s p).stageAt != 0

/-- A port without light: no lane works or is replaced, and no training stage or swap is under way (R275, R277, R305). -/
def portDark (p v : Nat) (s : State) : State :=
  setPort p { portAt s p with stageAt := 0, swapLane := none } (setFld (portKey p) 15 12 0xF (setFld (portKey p) 11 3 0 (setPortState p v s)))

/-- Requests that a lane's stream move to lane 8 at a count 800 cycles (32 µs) ahead (R275). -/
def requestLane (p lane : Nat) (s : State) : State :=
  let at_ := s.time.mandrel.toNat + 800
  emit (.ctrl p 4 [lane, at_, 0]) (setPort p { portAt s p with swapLane := some (lane, at_) } s)

/-- Whether lane 8 of a port carries another lane's stream (R275). -/
def spareInUse (s : State) (p : Nat) : Bool := fld s (portKey p) 15 12 != 0xF

/-- Whether lane 8 of a port is taken or about to be. -/
def spareTaken (s : State) (p : Nat) : Bool := spareInUse s p || (portAt s p).swapLane.isSome

/-! ### The group table (R360) -/

/-- The role and package addresses of the group table. -/
def groupEntries (s : State) : List (Nat × Nat) :=
  let base := 65536 * rd s Reg.ING_GROUP_BASE
  (List.range (fld s Reg.ING_GROUP_LEN 16 0)).map fun i => (dramNat s (base + 0x200 + 8 * i) 2, dramNat s (base + 0x200 + 8 * i + 2) 2)

/-- Whether the group table names the part's own role with its own address (R360). -/
def groupNamesOwn (s : State) : Bool := (groupEntries s).contains (roleAddr s, ownAddr s)

/-- The lowest address of a list, `d` when it is empty. -/
def lowest (d : Nat) (l : List Nat) : Nat := l.foldl min (l.headD d)

/-- The active members of the part's forge that it knows of: itself, those whose BEACON came on a port that is UP, and those of a group table
that names the part (R278, R283, R360; log 14). -/
def forgeMembers (s : State) : List Nat :=
  let mine := fun (a : Nat) => addrForge a == addrForge (ownAddr s)
  let direct := (upPorts s).filterMap fun p =>
    let a := fld s (bankKey Reg.FAB_PORT_PARTNER p) 15 0
    if mine a && bits (portAt s p).partnerFlags.toNat 1 1 == 1 then some a else none
  (if roleActive s then [ownAddr s] else []) ++ direct
    ++ if groupNamesOwn s then ((groupEntries s).map (·.2)).filter mine else []

/-- The timekeeper: the active member with the lowest package address in the forge (R283). -/
def findTimekeeper (s : State) : Nat := lowest 0 (forgeMembers s)

/-! ### Barriers (R293, R294, R488) -/

/-- First tick of window w + 2 for a BARRIER issued on a tick of window w (R294). -/
def jobTick (issued : Nat) : Nat := (issued / 2 ^ 20 + 2) * 2 ^ 20

/-- The stages of a BARRIER of a level issued on a tick: number, tick, and the logical ports of its class. -/
def stagesOf (issued level : Nat) : List (Nat × Nat × Nat × Nat) :=
  let three : Nat → Nat → List (Nat × Nat × Nat × Nat) := fun i t => [(i, t, 0, 30), (i + 1, t + 1208, 31, 45), (i + 2, t + 4416, 0, 30)]
  if level = 0 then [(0, issued, 0, 30)] else three 0 issued ++ if level = 1 then [] else three 3 (jobTick issued)

/-- The OR of the package's own byte and of what stages `lo` to `hi - 1` brought. -/
def Barrier.orGot (b : Barrier) (lo hi : Nat) (v : Byte) : Byte :=
  (List.range hi).foldl (fun v i => if lo ≤ i then v ||| get (fun _ => 0) b.got i else v) v

/-- The byte that the bench or forge has combined by stage `i` (R293). -/
def Barrier.before (b : Barrier) (i : Nat) : Byte := b.orGot 0 i b.byte

/-- The OR of the forge bytes that MARKs brought for the window of a level-2 BARRIER (R294, R295). -/
def markOr (s : State) (commit : Bool) (b : Barrier) : Byte :=
  let w := b.issued / 2 ^ 20
  if b.level = 2 then
    s.fab.markBytes.foldl (fun v x => if x.2.1 = w + 1 then v ||| (if commit then x.2.2.2 else x.2.2.1) else v) 0
  else 0

/-- The byte that a stage sends: what is combined so far; in the implicit combination, what the works ports and its own stages brought. -/
def Barrier.sends (s : State) (commit : Bool) (b : Barrier) (i : Nat) : Byte :=
  if i < 3 then b.before i else b.orGot 3 i (markOr s commit b)

/-- The combined byte at the result tick (R293, R294; log 95). -/
def Barrier.combined (s : State) (commit : Bool) (b : Barrier) : Byte := b.orGot 0 6 (b.byte ||| markOr s commit b)

/-- The barrier byte that a logical port sends in the link slot of this tick. -/
def stageByte (s : State) (l : Nat) : Option Byte :=
  let find := fun (commit : Bool) (o : Option Barrier) => o.bind fun b =>
    ((stagesOf b.issued b.level).find? fun x => x.2.1 == now s && decide (x.2.2.1 ≤ l) && decide (l ≤ x.2.2.2)).map fun x =>
      b.sends s commit x.1
  if bits (portMask s) l l = 1 then find false s.run.veto <|> find true s.run.commit else none

/-! ### Link slots (R271, R272, R294, R304, R345) -/

/-- The step period of the casting in force. -/
def stepPeriod (s : State) : Nat := match s.casting with | some c => c.period | none => 0

/-- valid of a tag: the data flits present among the three of a slot. -/
def validBits (l : List (Option (List Byte))) : Nat :=
  (List.range 3).foldl (fun n i => if (l[i]?).elim false Option.isSome then n + 2 ^ i else n) 0

/-- The tag that the part sends on a logical port in link slot `slot`. -/
def sentTag (s : State) (l slot valid : Nat) : Nat :=
  let poison := s.run.sentPorts.contains l && s.run.poisonFrom.elim false fun p => decide (p ≤ 8 * slot)
  let fault := schState s == 6 || s.run.faultAt.elim false fun t => decide (t < now s)
  valid + (if poison then 8 else 0) + (if fault then 16 else 0) + 32 * (slot % 64) + 2 ^ 11 * s.fab.held.toNat
    + (if s.fab.heldHold then 2 ^ 15 else 0) + (if s.fab.par then 2 ^ 16 else 0) + 2 ^ 17 * fld s Reg.PWR_STRETCH 23 21

/-- The logical ports that carry link slots: those that are UP, but for the spare. -/
def litPorts (s : State) : List Nat :=
  s.regs.filterMap fun kv =>
    if portKey 0 ≤ kv.1 ∧ kv.1 < portKey 48 ∧ bits kv.2.toNat 2 0 = 5 then
      (logicalAt s (kv.1 - portKey 0)).bind fun l => if l ≤ 46 && portUp s l then some l else none
    else none

/-- Data flits join the present link slot of a logical port. -/
def slotFlits (l ring : Nat) (data : List (Option (List Byte))) (s : State) : State :=
  { s with run := { s.run with slotData := s.run.slotData ++ [(l, ring, data)] } }

/-- What a logical port sends in the present link slot: the ring and the flits of a SEND or RELAY, or a barrier byte. -/
def slotOut (s : State) (l : Nat) : Nat × List (Option (List Byte)) :=
  match s.run.slotData.find? fun x => x.1 == l with
  | some x => x.2
  | none => (0, match stageByte s l with | some b => [some [b]] | none => [])

/-- On the first tick of every whole link slot of a step, every port sends the slot's tag and flits. -/
def sendSlots (s : State) : State :=
  let t := stepTick s
  if s.run.on && t % 8 == 0 && decide (t + 8 ≤ stepPeriod s) then
    let s := each (litPorts s) (fun l s =>
      let o := slotOut s l
      emit (.flits l (t / 8) (sentTag s l (t / 8) (validBits o.2)) o.1 o.2) s) s
    { s with run := { s.run with slotData := [] } }
  else s

end Sys2Proof.Machine
end

