-- ==== Sys2Proof/Machine/Spares.lean ====
section
/-! DEFINITION. Spares and wear (15): the capability table that the maps give, brazing requests and their fill slots, exhaustion, wear
counters. -/
namespace Sys2Proof.Machine

/-! ### The capability table (R50, R51, R484) -/

/-- A resource or retired record of R484. -/
def capRecord (b0 b1 b2 b3 v : Nat) : List Byte := natLE 1 b0 ++ natLE 1 b1 ++ natLE 1 b2 ++ natLE 1 b3 ++ natLE 4 v

/-- A resource record: item, die byte, value. -/
def resourceRecord (item die v : Nat) : List Byte := natLE 2 item ++ natLE 1 die ++ natLE 1 0 ++ natLE 4 v

/-- Logical cells in service on a die (R50). -/
def cellsInService (s : State) (die : Nat) : Nat :=
  256 - (s.spr.retired.filter fun r => r.1 == 2 && r.2.1 == die).length

/-- The resource records in the order of R484. -/
def resourceRecords (s : State) : List (List Byte) :=
  let dies := List.range 4
  dies.map (fun d => resourceRecord 1 d (cellsInService s d))
    ++ [(2, 64), (3, 256), (4, 16), (5, 128), (6, 256), (7, 524288), (8, 4096)].flatMap
        (fun p => dies.map fun d => resourceRecord p.1 d p.2)
    ++ (List.range 8).map (fun k => resourceRecord 9 k 1048576)
    ++ [(10, 16384), (11, 31), (12, 15), (13, 1)].map fun p => resourceRecord p.1 0xFF p.2

/-- The latency sheet as (entry, ticks), a formula entry by its constant and coefficients (R51, R292). -/
def latencySheet : List (Nat × Nat) :=
  [(1, 64), (2, 16), (3, 80), (4, 12), (5, 24), (5, 6), (6, 96), (7, 288), (8, 6), (8, 4), (8, 1), (9, 2), (10, 24), (11, 40), (11, 1),
   (12, 180), (13, 260), (14, 340), (15, 60), (15, 80), (16, 64), (17, 40), (18, 2048), (19, 40), (19, 80), (19, 1),
   (0x100, 8), (0x101, 1280), (0x102, 3280), (0x103, 1200), (0x104, 3200), (0x105, 16), (0x106, 1208), (0x107, 5624), (0x108, 5624)]

/-- The retired records in ascending order (R484). -/
def retiredRecords (s : State) : List (List Byte) :=
  s.spr.retired.map fun r => natLE 1 r.1 ++ natLE 1 r.2.1 ++ natLE 1 r.2.2.1 ++ natLE 1 r.2.2.2.1 ++ natLE 2 r.2.2.2.2 ++ natLE 2 0

/-- The table body from CAP offset 0x100 (R484). -/
def capBody (s : State) : List Byte :=
  let r := resourceRecords s
  let d := retiredRecords s
  natLE 4 r.length ++ natLE 4 d.length ++ natLE 4 latencySheet.length ++ natLE 4 0 ++ r.flatten ++ d.flatten
    ++ latencySheet.flatMap fun p => natLE 2 p.1 ++ natLE 2 0 ++ natLE 4 p.2

/-- The capability-table hash (R49). -/
def capHash (s : State) : List Byte := digest (capBody s)

/-- Order of retired records: byte 0, byte 1, byte 2, byte 3, bytes 4–5 (R484). -/
def retiredKey (r : Nat × Nat × Nat × Nat × Nat) : Nat :=
  (((r.1 * 256 + r.2.1) * 256 + r.2.2.1) * 256 + r.2.2.2.1) * 65536 + r.2.2.2.2

/-- Enters a record into the retired lists, once, in order. -/
def retire (r : Nat × Nat × Nat × Nat × Nat) (s : State) : State :=
  if s.spr.retired.contains r then s
  else
    let lo := s.spr.retired.filter fun x => retiredKey x < retiredKey r
    let hi := s.spr.retired.filter fun x => ¬ retiredKey x < retiredKey r
    { s with spr := { s.spr with retired := lo ++ r :: hi } }

/-- The working maps or wear counters have changed and differ from MRAM (R388). -/
def mapsChanged (s : State) : State := sticky Reg.SPR_STICKY 4 { s with spr := { s.spr with dirty := true } }

/-- Adds to a wear counter other than counter 1 (R389); the entry is laid out as SPR_WEAR_SEL. -/
def wear (counter die unit n : Nat) (s : State) : State :=
  mapsChanged (bumpFld (bankKey Reg.SPR_WEAR (counter + 8 * die + 8192 * unit)) 31 0 n s)

/-- The key of wear counter 1 of an array of a physical cell: the counter stays with the array, whatever logical cell it serves (R389,
R436). -/
def progKey (c a : Nat) : Nat := bankKey Reg.SPR_WEAR (1 + 8 * (c / 272) + 32 * (c % 272) + 16384 * a)

/-- Counts a column programming of an array; MRAM holds the count in units of 16,384 (R389, R436). -/
def wearColumn (c a : Nat) (s : State) : State :=
  let n := rd s (progKey c a)
  let s := bumpFld (progKey c a) 31 0 1 s
  if (n + 1) % 16384 = 0 then mapsChanged s else s

/-- The wear counters other than counter 1 (R389, R436). -/
def wearList (s : State) : List (Nat × Word) :=
  s.regs.filter fun kv => decide (2 ^ 40 ≤ kv.1) && decide ((kv.1 - 2 ^ 40) / 2 ^ 20 = Reg.SPR_WEAR) && decide (kv.1 % 8 ≠ 1)

/-! ### Columns and cells -/

/-- Physical column of a logical data column of an array of physical cell `c`; at manufacture the same number (R96). -/
def physCol (s : State) (c a col : Nat) : Nat := get (fun k => k % 256) (cellAt s c).colmap (a * 256 + col)

/-- Whether a physical column of an array is marked bad. -/
def colBad (s : State) (c a p : Nat) : Bool := get (fun _ => false) (cellAt s c).colbad (a * 512 + p)

/-- Marks a physical column bad. -/
def markColBad (c a p : Nat) (s : State) : State :=
  mapsChanged (onCell c (fun x => { x with colbad := put (fun _ => false) x.colbad (a * 512 + p) true }) s)

/-- Whether a spare column of an array is in service: it serves a logical column, or SPR_ARRAY.used was written since the array's last
remap (R8, R391; log 89). -/
def spareUsed (s : State) (c a p : Nat) : Bool :=
  match get (fun _ => 0) (cellAt s c).usedCols a with
  | 0 => (cellAt s c).colmap.any fun kv => decide (kv.1 / 256 = a) && decide (kv.2 = p)
  | u => bits u (p - 260) (p - 260) == 1

/-- The spare columns of an array that are neither in use nor bad, lowest first (R382). -/
def freeSpares (s : State) (c a : Nat) : List Nat :=
  ((List.range 8).map (260 + ·)).filter fun p => !spareUsed s c a p && !colBad s c a p

/-- The physical spare cell of an index: column 16 of a row of the die (R384). -/
def spareCell (die k : Nat) : Nat := 272 * die + 17 * k + 16

/-- The usable spare cells of a die, which serve no logical cell and are not bad, lowest first (R379, R391). -/
def freeCells (s : State) (die : Nat) : List Nat :=
  let used := (List.range 256).map (phys s die)
  ((List.range 16).map (spareCell die)).filter fun c => !used.contains c && !s.spr.badCells.contains c

/-! ### Trims that a change of the maps takes out of force (R84, R93, R157) -/

/-- Key of a physical column of an array. -/
def colKey (a p : Nat) : Nat := a * 268 + p

/-- A column's trims, as CAL_TRIM lays them out. -/
def trimAt (s : State) (c a p : Nat) : Trim := get (fun _ => 0) (cellAt s c).trims (colKey a p)

/-- A column's trims at the end of its ramp. -/
def targetTrim (s : State) (c a p : Nat) : Trim :=
  match (arrAt s c a).ramp.find? fun e => e.1 == p with
  | some e => e.2.2
  | none => trimAt s c a p

/-- Physical column of a position of the conversion list (R96). -/
def listCol (s : State) (c a q : Nat) : Nat := if q < 256 then physCol s c a q else q

/-- The target trims in force by position of the conversion list. -/
def targetSet (s : State) (c a : Nat) : SMap Trim :=
  (List.range 260).foldl (fun m q => put (fun _ => (0 : Trim)) m q (targetTrim s c a (listCol s c a q))) []

/-- The trims in force leave it with the column map: a record of a step before the next one was made with them (R93, R157; log 12). -/
def holdTrims (c a : Nat) (s : State) : State :=
  let x := arrAt s c a
  setArr c a { x with held := x.held ++ [(x.gen.toNat, rngStep s, targetSet s c a)] } s

/-- The trims of the arrays of a logical cell go with it from one physical cell to another: the sets of the former cell are held for records
of the steps before (R93, R157; log 12). -/
def moveTrims (old new : Nat) (s : State) : State :=
  each (List.range 64) (fun a s =>
    let x := arrAt s old a
    let sets := x.past.filterMap fun e => e.2.map fun set => (e.1, rngStep s, set)
    setArr new a { arrAt s new a with past := [], held := x.held ++ sets ++ [(x.gen.toNat, rngStep s, targetSet s old a)] } s) s

/-- Binds a logical column to a physical one. -/
def setColMap (c a col p : Nat) (s : State) : State :=
  mapsChanged (onCell c (fun x => { x with
    colmap := put (fun k => k % 256) x.colmap (a * 256 + col) p
    usedCols := put (fun _ => 0) x.usedCols a 0 }) s)

/-- A logical column is bound to a physical one, which may be the last spare of its array (R391). -/
def takeColumn (c a col p : Nat) (s : State) : State :=
  let s := setColMap c a col p (holdTrims c a s)
  if 260 ≤ p ∧ freeSpares s c a = [] then sticky Reg.SPR_STICKY 2 s else s

/-- A failing physical column is marked bad and a spare column takes its place (R383, R384, R389). -/
def replaceColumn (c a col old p : Nat) (s : State) : State := wear 6 (c / 272) 0 1 (takeColumn c a col p (markColBad c a old s))

/-- Binds a logical cell to a physical one. -/
def setCellMap (die cell c : Nat) (s : State) : State :=
  let s := if phys s die cell = c then s else moveTrims (phys s die cell) c s
  mapsChanged { s with spr := { s.spr with cellMap := put homeCell s.spr.cellMap (256 * die + cell) (c % 272) } }

/-! ### Requests (R381, R385, R387) -/

/-- Key of the SPR_FILL register of a slot. -/
def fillKey (die slot : Nat) : Nat := bankKey Reg.SPR_FILL (2 * die + slot)

/-- State of a fill slot: 0 free, 1 queued, 2 active, 3 passed. -/
def fillState (s : State) (die slot : Nat) : Nat := fld s (fillKey die slot) 1 0

/-- A fill beyond its register. -/
def fillAt (s : State) (die slot : Nat) : Fill := get (fun _ => Fill.none) s.spr.fills (2 * die + slot)

/-- Replaces a fill. -/
def setFill (die slot : Nat) (f : Fill) (s : State) : State :=
  { s with spr := { s.spr with fills := put (fun _ => Fill.none) s.spr.fills (2 * die + slot) f } }

/-- Frees a fill slot. -/
def clearFill (die slot : Nat) (s : State) : State := setFill die slot Fill.none (wr (fillKey die slot) 0 s)

/-- The spare a new fill of a request takes: the index of a spare column, or of a spare cell among column 16 (R382, R384). -/
def chooseSpare (s : State) (kind die cell a : Nat) : Nat :=
  if kind = 1 then ((freeSpares s (phys s die cell) a).headD 260) - 260
  else ((freeCells s die).headD 0) % 272 / 17

/-- Places a request into a slot: active when the other slot is free (R381). -/
def placeFill (slot kind die cell a col : Nat) (f : Fill) (s : State) : State :=
  let st := if fillState s die (1 - slot) = 0 then 2 else 1
  setFill die slot f
    (wr (fillKey die slot) (st + 4 * kind + 16 * cell + 4096 * a + 262144 * col + 67108864 * chooseSpare s kind die cell a) s)

/-- Location of a spare event. -/
def sprLoc (kind die cell a col : Nat) : List (Nat × Nat) :=
  if kind = 1 then [(1, die), (2, cell), (5, a), (6, col)] else [(1, die), (2, cell)]

/-- A loss beyond the spares (R387). -/
def capacityLoss (loc : List (Nat × Nat)) (s : State) : State :=
  let s := mapsChanged (sticky Reg.SPR_STICKY 3 s)
  jobFault (record 15 loc (rd s Reg.SPR_STICKY) s)

/-- After a slot frees: a queued fill becomes active, and a held request takes the slot, ahead of any later request (R381). -/
def nextFill (die slot : Nat) (s : State) : State :=
  let s := clearFill die slot s
  let s := if fillState s die (1 - slot) = 1 then
      let k := fillKey die (1 - slot)
      setFld k 29 26 (chooseSpare s (fld s k 3 2) die (fld s k 11 4) (fld s k 17 12)) (setFld k 1 0 2 s)
    else s
  match s.spr.lost with
  | some f =>
    let r := rd s Reg.SPR_LOST
    if bits r 3 2 = die then
      placeFill slot (bits r 1 0) die (bits r 11 4) (bits r 17 12) (bits r 25 18) f
        { (wr Reg.SPR_LOST 0 s) with spr := { s.spr with lost := none } }
    else s
  | none => s

/-- A brazing request for a column (kind 1) or a cell (kind 2) that spares can serve; a fill outstanding for the same resource, or for the
column's whole cell, already answers it (R381, R385; log 89). -/
def fillRequest (kind die cell a col : Nat) (f : Fill) (s : State) : State :=
  let same := fun slot =>
    let r := rd s (fillKey die slot)
    decide (bits r 1 0 ≠ 0) && decide (bits r 11 4 = cell)
      && (bits r 3 2 == 2 || (kind == 1 && decide (bits r 17 12 = a) && decide (bits r 25 18 = col)))
  if same 0 || same 1 then s
  else if fillState s die 0 = 0 then placeFill 0 kind die cell a col f s
  else if fillState s die 1 = 0 then placeFill 1 kind die cell a col f s
  else
    let s := sticky Reg.SPR_STICKY 1 (jobFault s)
    let s := record 15 (sprLoc kind die cell a col) (rd s Reg.SPR_STICKY) s
    { (wr Reg.SPR_LOST (kind + 4 * die + 16 * cell + 4096 * a + 262144 * col) s) with spr := { s.spr with lost := some f } }

/-- The content that a column fill holds, among those of the columns of its cell. -/
def giveColumn (a col : Nat) (content : List Byte) (m : SMap (List Byte)) : SMap (List Byte) :=
  if content.length = 129 then put (fun _ => []) m (256 * a + col) content else m

/-- Whether a request word, laid out as SPR_REQ, is of a column of a logical cell. -/
def columnOfCell (r die cell : Nat) : Bool := bits r 1 0 == 1 && bits r 3 2 == die && bits r 11 4 == cell

/-- A column fill of a logical cell in a slot is cancelled: the content it holds, and the slot frees (R385). -/
def absorbSlot (die cell slot : Nat) (t : SMap (List Byte) × State) : SMap (List Byte) × State :=
  let r := rd t.2 (fillKey die slot)
  if bits r 1 0 ≠ 0 ∧ bits r 3 2 = 1 ∧ bits r 11 4 = cell then
    (giveColumn (bits r 17 12) (bits r 25 18) (fillAt t.2 die slot).latched t.1, nextFill die slot t.2)
  else t

/-- A cell fill absorbs the column fills of its cell, the one held in SPR_LOST included (R385): the contents they hold, and their slots free. -/
def absorbFills (die cell : Nat) (given : SMap (List Byte)) (s : State) : SMap (List Byte) × State :=
  let lost := columnOfCell (rd s Reg.SPR_LOST) die cell && s.spr.lost.isSome
  let held := s.spr.lost.elim [] (·.latched)
  let given := if lost then giveColumn (fld s Reg.SPR_LOST 17 12) (fld s Reg.SPR_LOST 25 18) held given else given
  let s := if lost then { (wr Reg.SPR_LOST 0 s) with spr := { s.spr with lost := none } } else s
  absorbSlot die cell 0 (absorbSlot die cell 1 (given, s))

/-- A brazing request for a logical cell, with the contents that failing WRITEs gave some of its columns (R384, R385, R387). -/
def brazeWith (die cell : Nat) (given : SMap (List Byte)) (s : State) : State :=
  if freeCells s die = [] then capacityLoss [(1, die), (2, cell)] (retire (2, die, cell, 0, 0) s)
  else
    let t := absorbFills die cell given s
    fillRequest 2 die cell 0 0 { Fill.none with given := t.1 } t.2

/-- A brazing request for a logical cell. -/
def brazeCell (die cell : Nat) (s : State) : State := brazeWith die cell [] s

/-- A brazing request for a data column, with the content of a failing WRITE when there is one (R381, R387). -/
def brazeColumn (die cell a col : Nat) (latched : List Byte) (s : State) : State :=
  let c := phys s die cell
  if freeSpares s c a = [] then
    let s := onCell c (fun x => { x with colretired := a :: x.colretired.filter (· != a) }) s
    if freeCells s die = [] then capacityLoss (sprLoc 1 die cell a col) (retire (1, die, cell, a, col) s)
    else brazeWith die cell (giveColumn a col latched []) s
  else fillRequest 1 die cell a col { Fill.none with latched := latched } s

/-- A tinker core fails or is to be replaced: the spare takes its group over at the next load window, or at once on the hub; a core already
replaced changes nothing. With the spare used up the group that the core serves is lost (R379, R380, R387). Die 4 is the hub. -/
def brazeCore (die core : Nat) (s : State) : State :=
  if s.spr.coreSwaps.contains (die, core) then s
  else
    match s.spr.coreSwaps.find? fun x => x.1 == die with
    | some x =>
      let g := if core = 16 then x.2 else core
      let s := if die < 4 then each ((List.range 16).map (16 * g + ·)) (fun l => retire (2, die, l, 0, 0)) s else s
      capacityLoss [(1, die)] s
    | none =>
      let s := { s with spr := { s.spr with coreSwaps := s.spr.coreSwaps ++ [(die, core)], swapDue := s.spr.swapDue ++ [(die, core)] } }
      let s := mapsChanged (sticky Reg.SPR_STICKY 6 s)
      record 15 [(1, die)] (rd s Reg.SPR_STICKY) s

/-- What a cell fill mirrors into the spare until the map changes: scratchpad, accumulator slots, side words, tile bindings and tables of
pairs 8 to 15 (R384). -/
def mirrored (old new : Cell) : Cell :=
  { new with
    power := old.power, sp := old.sp, spBad := old.spBad, acc := old.acc, side := old.side, tiles := old.tiles, tables := old.tables }

/-- The column remaps of the cells that serve a logical cell, as (die, cell, array, spare column, logical column) (R388, R436). -/
def remapList (s : State) : List (Nat × Nat × Nat × Nat × Nat) :=
  s.cells.flatMap fun p => match logicalOf s p.1 with
    | some l => p.2.colmap.map fun e => (l / 256, l % 256, e.1 / 256, e.2, e.1 % 256)
    | none => []

/-- Column remaps in force: the list of MRAM holds 4,096 (R436, R437). -/
def remapCount (s : State) : Nat := (remapList s).length

/-- Arrays that start their service with a recalibration pending and generation 0 (R385). -/
def renewArrs (l : List Nat) (x : Cell) : Cell :=
  { x with
    arrs := l.foldl (fun m a => put (fun _ => Arr.init) m a { get (fun _ => Arr.init) m a with pending := true, gen := 0 }) x.arrs }

/-- The map change of a passed fill (R383 to R386): the column or the cell comes into service, the failing one leaves it. -/
def applyFill (die slot : Nat) (s : State) : State :=
  let r := rd s (fillKey die slot)
  let cell := bits r 11 4
  let a := bits r 17 12
  let col := bits r 25 18
  if bits r 3 2 = 1 then
    let c := phys s die cell
    let old := physCol s c a col
    if remapCount s ≥ 4096 ∧ old = col then
      nextFill die slot (capacityLoss (sprLoc 1 die cell a col) (retire (1, die, cell, a, col) s))
    else
    let s := replaceColumn c a col old (260 + bits r 29 26) s
    nextFill die slot (setArr c a { arrAt s c a with pending := true } s)
  else
    let c := phys s die cell
    let d := spareCell die (bits r 29 26)
    let s := { s with spr := { s.spr with badCells := s.spr.badCells ++ [c] } }
    let s := onCell d (mirrored (cellAt s c)) s
    let s := onCell d (renewArrs (List.range 64)) s
    nextFill die slot (wear 5 die 0 1 (setCellMap die cell d s))

/-- The verify of an active column fill ends: it has passed, or its spare is marked bad and the next one is taken; with none left the
whole cell is brazed (R383, R387). -/
def fillVerdict (die slot : Nat) (ok : Bool) (s : State) : State :=
  let r := rd s (fillKey die slot)
  let cell := bits r 11 4
  let a := bits r 17 12
  let col := bits r 25 18
  if bits r 1 0 ≠ 2 ∨ bits r 3 2 ≠ 1 then s
  else if ok then setFld (fillKey die slot) 1 0 3 s
  else
    let c := phys s die cell
    let s := sticky Reg.SPR_STICKY 0 (markColBad c a (260 + bits r 29 26) s)
    let s := record 15 (sprLoc 1 die cell a col) (rd s Reg.SPR_STICKY) s
    match freeSpares s c a with
    | [] => brazeColumn die cell a col (fillAt s die slot).latched (nextFill die slot s)
    | p :: _ => setFill die slot { fillAt s die slot with progAt := none } (setFld (fillKey die slot) 29 26 (p - 260) s)

/-! ### The bank in use (R438) -/

/-- The bank in use: 0 A, 1 B. -/
def bankNow (s : State) : Nat := fld s Reg.NVS_STATUS 14 14

/-- The contents of the bank in use, none in factory defaults. -/
def bankUsed (s : State) : Option Bank :=
  if fld s Reg.NVS_STATUS 13 13 = 1 then none else if bankNow s = 0 then s.nvs.bankA else s.nvs.bankB

/-! ### Writes of the map views (R391, R392) -/

/-- Die, cell and array of SPR_COLMAP_SEL, and its column. -/
def colmapSel (s : State) : Nat × Nat × Nat × Nat :=
  let r := rd s Reg.SPR_COLMAP_SEL
  (bits r 1 0, bits r 9 2, bits r 15 10, bits r 23 16)

/-- A write of SPR_CMAP: discarded where the cell is bad or already in service (R392). -/
def cmapWrite (v : Nat) (s : State) : State :=
  let r := rd s Reg.SPR_CMAP_SEL
  let die := bits r 1 0
  let l := bits r 9 2
  let p := min 271 (v % 512)
  let c := 272 * die + p
  if s.spr.badCells.contains c || (List.range 256).any (fun x => x != l && phys s die x == c) then s else setCellMap die l c s

/-- A physical column within 0–255 or 260–267: the nearer limit of one outside (R11). -/
def colInRange (p : Nat) : Nat := if p < 256 then p else if p < 258 then 255 else max 260 (min 267 p)

/-- A write of SPR_COLMAP: discarded where the column is bad or already in service (R11, R392). -/
def colmapWrite (v : Nat) (s : State) : State :=
  let q := colmapSel s
  let c := phys s q.1 q.2.1
  let a := q.2.2.1
  let p := colInRange (v % 512)
  if colBad s c a p || (List.range 256).any (fun x => x != q.2.2.2 && physCol s c a x == p) then s
  else takeColumn c a q.2.2.2 p s

/-- A write of SPR_ARRAY: the columns shown in service, the bad marks and the retired mark of the array (R391). DESIGN CHOICE (log 89): `used`
lasts until a remap of the array or a reset, since a settings bank has no place for it. -/
def sprArrayWrite (v : Nat) (s : State) : State :=
  let q := colmapSel s
  let c := phys s q.1 q.2.1
  let a := q.2.2.1
  mapsChanged (onCell c (fun x => { x with
    colbad := (List.range 8).foldl (fun m k => put (fun _ => false) m (a * 512 + 260 + k) (bits v (8 + k) (8 + k) == 1)) x.colbad
    usedCols := put (fun _ => 0) x.usedCols a (256 + v % 256)
    colretired := (if bits v 16 16 = 1 then [a] else []) ++ x.colretired.filter (· != a) }) s)

/-- The map changes that a load window applies (R22, R383, R384). -/
def applyPassed (s : State) : State :=
  each (List.range 8) (fun k s => if fillState s (k / 2) (k % 2) = 3 then applyFill (k / 2) (k % 2) s else s) s

end Sys2Proof.Machine
end

