-- ==== Sys2Proof/Machine/Dram.lean ====
section
/-! DEFINITION. DRAM as its readers and writers see it (R241, R242, R254 to R257): what a read records, the rows it lists for repair, lines
written by the schedule, and spans read and written by asynchronous agents. -/
namespace Sys2Proof.Machine

/-! ### Addresses (R241) -/

/-- Stack of a DRAM address. -/
def stackOf (a : Nat) : Nat := bits a 38 36
/-- Bank of a DRAM address. -/
def bankOf (a : Nat) : Nat := bits a 19 16
/-- Row of a DRAM address. -/
def rowOf (a : Nat) : Nat := bits a 35 20
/-- Pseudo-channel number 64 × stack + pc of a DRAM address. -/
def pcOf (a : Nat) : Nat := 64 * bits a 38 36 + bits a 15 10
/-- Key of a row of a stack: stack, row, bank and pseudo-channel. -/
def rowKey (a : Nat) : Nat := stackOf a * 2 ^ 26 + rowOf a * 1024 + bankOf a * 64 + bits a 15 10
/-- Line number of a DRAM address of 39 bits. -/
def lineOf (a : Nat) : Nat := a % 2 ^ 39 / 64
/-- The outcome of a read of a line (R254). -/
def outcomeOf (s : State) (line : Nat) : Nat := (readLine (markOf s line)).1
/-- Whether two spans of bytes share a byte. -/
def overlap (a n b m : Nat) : Bool := decide (0 < n) && decide (0 < m) && decide (a < b + m) && decide (b < a + n)

/-! ### Rows with corrected lines (R257) -/

/-- A row joins its stack's repair list of up to 16. -/
def listRow (a : Nat) (s : State) : State :=
  let st := stackOf a
  let l := get (fun _ => ([] : List Nat)) s.mem.repair st
  if l.length ≥ 16 ∨ l.contains (rowKey a) then s
  else
    let s := { s with mem := { s.mem with repair := put (fun _ => []) s.mem.repair st (l ++ [rowKey a]) } }
    setFld Reg.MEM_STATUS 26 19 (s.mem.repair.flatMap (·.2)).length s

/-- Counts a corrected line of a row; the eighth between two scrubs lists it. -/
def countCorrected (a : Nat) (s : State) : State :=
  let n := get (fun _ => 0) s.mem.corrected (rowKey a) + 1
  let s := { s with mem := { s.mem with corrected := put (fun _ => 0) s.mem.corrected (rowKey a) n } }
  if n ≥ 8 then listRow a s else s

/-! ### Reads -/

/-- A corrected line: counted, and rewritten by agent 5 (R254, R257). -/
def correctedRead (a : Nat) (s : State) : State :=
  let base := lineOf a * 64
  let s := noteCorrected (8192 + stackOf a) 1 s
  let s := sticky Reg.MEM_STICKY 0 (bumpFld (Reg.MEM_ERR + 4 * stackOf a) 15 0 1 s)
  countCorrected a (setMark (lineOf a) 0 (dramPut base (dramGet s base 64) s))

/-- A line not delivered clean: counted, its address held when it is the first, recorded, and on a scheduled read a taint (R254, R266).
`m` is the outcome. -/
def failedRead (a m : Nat) (sched : Bool) (s : State) : State :=
  let st := stackOf a
  let pc := bits a 15 10
  let s := if bits (rd s Reg.MEM_STICKY) 3 1 = 0 then
      wr Reg.MEM_UE_ADDR_HI (bits a 38 32 + 128 * (m - 1) + (if sched then 0 else 512)) (wr Reg.MEM_UE_ADDR_LO (a % 2 ^ 32) s)
    else s
  let s := sticky Reg.MEM_STICKY (if m = 2 then 1 else if m = 3 then 3 else 2)
    (if m = 4 then s else bumpFld (Reg.MEM_ERR + 4 * st) 23 16 1 s)
  let loc := [(8, st), (9, pc), (10, a % 2 ^ 39)]
  let s := record 8 loc (rd s Reg.MEM_UE_ADDR_HI) s
  if sched then taint 8 0 (st / 2) st pc loc s else s

/-- Records a read of the line at `a` with outcome `m` (R254); an inner-code report is counted whatever the outcome. -/
def recordRead (a m : Nat) (sched : Bool) (s : State) : State :=
  let s := if bits (markOf s (lineOf a)) 1 1 = 1 then bumpFld (Reg.MEM_ERR + 4 * stackOf a) 31 24 1 s else s
  if m = 0 then s else if m = 1 then correctedRead a s else failedRead a m sched s

/-- Records a read of a DRAM line; `sched` for a scheduled access. -/
def dramRead (a : Nat) (sched : Bool) (s : State) : State :=
  if markOf s (lineOf a) = 0 then s else recordRead a (outcomeOf s (lineOf a)) sched s

/-- Records an asynchronous read of a span of DRAM, and says whether every line was delivered clean or corrected. -/
def readSpan (a n : Nat) (s : State) : Bool × State :=
  let bad := s.dram.marks.filter fun kv => overlap (64 * kv.1) 64 (a % 2 ^ 39) n
  bad.foldl (fun (x : Bool × State) kv => (x.1 && decide ((readLine kv.2).1 ≤ 1), dramRead (64 * kv.1) false x.2)) (true, s)

/-! ### Writes -/

/-- A scheduled write of a whole line of DRAM; `bad` writes it poisoned (R242, R255). -/
def dramLine (a : Nat) (data : List Byte) (bad : Bool) (s : State) : State :=
  setMark (lineOf a) (condition bad false 0) (dramPut a data s)

/-- One line of an asynchronous write of `n` bytes from `a`: a line covered in part is read first, keeps the bytes read, and is written
poisoned when the read was not clean or corrected (R242, R254, R255, R318). -/
def asyncLine (a n line : Nat) (s : State) : State :=
  if decide (a ≤ 64 * line) && decide (64 * line + 64 ≤ a + n) then setMark line 0 s
  else
    let m := outcomeOf s line
    let s := dramRead (64 * line) false s
    dramLine (64 * line) (dramGet s (64 * line) 64) (decide (1 < m)) s

/-- Writes a span as an asynchronous agent, line by line (R242, R255). -/
def asyncWrite (a : Nat) (data : List Byte) (s : State) : State :=
  let a := a % 2 ^ 39
  dramPut a data (each ((s.dram.marks.map (·.1)).filter fun l => overlap (64 * l) 64 a data.length) (asyncLine a data.length) s)

/-- Lines of a span just written that were formed from lines delivered as uncorrectable carry poison (R255): `bad` says of which, line by
line. -/
def poisonLines (a : Nat) (bad : List Bool) (s : State) : State :=
  each ((List.range bad.length).zip bad) (fun p s => if p.2 then setMark (lineOf (a + 64 * p.1)) (condition true false 0) s else s) s

end Sys2Proof.Machine
end

