-- ==== Sys2Proof/Machine/Table.lean ====
section
/-! DEFINITION. The format and scale tables (R147 to R156): the working table in DRAM, the copy and the statistics of the step, and
what commits, rewinds and skips make of the entries. -/
namespace Sys2Proof.Machine

/-- Entries of the working table (R147: the directory count of section type 6). -/
def tableLen (s : State) : Nat := if hasTable s then (sectionOf s 6).1 else 0

/-- Address of entry `i`. -/
def entryAddr (s : State) (i : Nat) : Nat := tableAddr s + 64 + 64 * i

/-- Entry `i` of the working table (R148). -/
def readEntry (s : State) (i : Nat) : TabEntry :=
  let f := fun o n => dramNat s (entryAddr s i + o) n
  { tid := f 0 2, layer := f 2 2, role := f 4 1, fmt := f 5 1, b := f 6 1, b0 := f 7 1, m := f 8 2, h := f 10 1, flags := f 11 1,
    bump := f 12 1, frozen := f 13 1, comp := f 14 1, ovfCtr := f 15 1, mx := f 16 2, mx0 := f 18 2, mb0End := f 20 4, ovf := f 24 4,
    nonfin := f 28 4, n := f 32 4, ua := f 36 4, ub := f 40 4 }

/-- The first 44 bytes of an entry (R148); the reserved ones are not written. -/
def entryBytes (e : TabEntry) : List Byte :=
  natLE 2 e.tid ++ natLE 2 e.layer ++ natLE 1 e.role ++ natLE 1 e.fmt ++ natLE 1 e.b ++ natLE 1 e.b0 ++ natLE 2 e.m ++ natLE 1 e.h
    ++ natLE 1 e.flags ++ natLE 1 e.bump ++ natLE 1 e.frozen ++ natLE 1 e.comp ++ natLE 1 e.ovfCtr ++ natLE 2 e.mx ++ natLE 2 e.mx0
    ++ natLE 4 e.mb0End ++ natLE 4 e.ovf ++ natLE 4 e.nonfin ++ natLE 4 e.n ++ natLE 4 e.ua ++ natLE 4 e.ub

/-- Writes entry `i` of the working table. -/
def writeEntry (i : Nat) (e : TabEntry) (s : State) : State := asyncWrite (entryAddr s i) (entryBytes e) s

/-- Writes every entry of the working table. -/
def writeEntries (l : List TabEntry) (s : State) : State :=
  each ((List.range l.length).zip l) (fun p s => writeEntry p.1 p.2 s) s

/-- Sets rng_step in the working table (R146). -/
def setRng (v : Nat) (s : State) : State := if hasTable s then asyncWrite (tableAddr s + 4) (natLE 4 v) s else s

/-- Flag bits of an entry (R148). -/
def TabEntry.flag (e : TabEntry) (i : Nat) : Bool := bits e.flags i i == 1
/-- An entry with a flag bit set or cleared. -/
def TabEntry.setFlag (e : TabEntry) (i : Nat) (v : Bool) : TabEntry := { e with flags := setBits e.flags i i (if v then 1 else 0) }
/-- streak (R148). -/
def TabEntry.streak (e : TabEntry) : Nat := bits e.flags 7 4
/-- An entry with another streak. -/
def TabEntry.setStreak (e : TabEntry) (n : Nat) : TabEntry := { e with flags := setBits e.flags 7 4 (min 15 n) }

/-- m, read with −0 as +0 (R151). -/
def TabEntry.mVal (e : TabEntry) : F16 := if e.m = 0x8000 then 0 else BitVec.ofNat 16 e.m

/-- The statistics of entry `i` in this run. -/
def statAt (s : State) (i : Nat) : Stat := get (fun _ => ⟨0, 0, 0, 0, 0, 0, 0⟩) s.tab.stats i

/-- Replaces the statistics of entry `i`. -/
def setStat (i : Nat) (x : Stat) (s : State) : State :=
  { s with tab := { s.tab with stats := put (fun _ => ⟨0, 0, 0, 0, 0, 0, 0⟩) s.tab.stats i x } }

/-- The index of a tensor in the step's copy of the table. -/
def findTid (s : State) (tid : Nat) : Option Nat := s.tab.copy.findIdx? fun e => e.tid == tid

/-- The largest finite value of a format (R152). -/
def fmax (fmt : Nat) : Nat := match fmt with | 1 => 448 | 2 => 57344 | 3 => 7 | _ => 127

/-- The smallest k with m × 2^h ≤ fmax × 2^k for positive m (R152). -/
def scaleExp (m : F16) (h fmt : Nat) : Int :=
  let x := dyF16 m
  let n := x.m.natAbs * 2 ^ (x.e + h).toNat
  let d := fmax fmt * 2 ^ (-(x.e + h)).toNat
  let f := flog2 n d
  if n * 2 ^ (-f).toNat = d * 2 ^ f.toNat then f else f + 1

/-- The headroom in force (R152, R155). -/
def TabEntry.headroom (e : TabEntry) : Nat := if e.frozen > 0 then 4 else e.h

/-- The b of R152 for format `fmt` with headroom `h`. -/
def scaleByte (e : TabEntry) (fmt h : Nat) : Nat :=
  if fmt = 0 then 127
  else if e.mVal = 0 then e.b
  else (min 255 (max 0 (scaleExp e.mVal h fmt + 127))).toNat

/-- Candidate scale of a format for the counts of R156. -/
def candidate (e : TabEntry) (fmt : Nat) : Int :=
  if e.mVal = 0 then (e.b : Int) - 127 else scaleExp e.mVal e.headroom fmt

/-- Larger of two magnitudes held as F16 patterns. -/
def magMax (a b : Nat) : Nat := max a b

/-- Whether the magnitude of a finite F16 is below 2^t × 2^k. -/
def belowExp (x : F16) (t k : Int) : Bool := Dy.lt (dyF16 x).abs ⟨1, t + k⟩

/-- Counts a conversion of an F16 source into tensor entry `i` with `ovf` overflows (R150, R156, R193). Overflow after the veto point goes
to late_ovf (R219). -/
def noteConv (i : Nat) (x : F16) (ovf : Nat) (tick : Nat) (s : State) : State :=
  match s.tab.copy[i]? with
  | none => s
  | some e =>
    let st := statAt s i
    let late := s.run.veto.isSome
    let fin := !nonFinite x
    let mag := x.toNat % 32768
    let nz := fin && mag != 0
    let st := { st with
      mx := if fin then magMax st.mx mag else st.mx
      mx0 := if fin && decide (tick < e.mb0End) then magMax st.mx0 mag else st.mx0
      nonfin := if fin then st.nonfin else satAdd 32 st.nonfin 1
      ovf := if late then st.ovf else satAdd 32 st.ovf ovf
      n := if nz then satAdd 32 st.n 1 else st.n
      ua := if nz && e.role == 2 && belowExp x (-6) (candidate e 1) then satAdd 32 st.ua 1 else st.ua
      ub := if nz && e.role == 2 && belowExp x (-14) (candidate e 2) then satAdd 32 st.ub 1 else st.ub }
    let s := setStat i st s
    if decide (ovf > 0) && late then sticky Reg.SCH_STEP_STICKY 2 { s with run := { s.run with lateOvf := s.run.lateOvf + ovf } } else s

/-- Conversions of a list of F16 sources into tensor `tid`, with their overflow counts; 0xFFFF and unknown tensors gather nothing. An
evaluation segment adds only to late_ovf (R233). `tick` is the step tick on which the word issued. -/
def noteConvs (tid : Nat) (l : List (F16 × Nat)) (evalSeg : Bool) (tick : Nat) (s : State) : State :=
  match findTid s tid with
  | none => s
  | some i =>
    if evalSeg then
      let k := l.foldl (fun n p => n + p.2) 0
      if k = 0 then s else sticky Reg.SCH_STEP_STICKY 2 { s with run := { s.run with lateOvf := s.run.lateOvf + k } }
    else each l (fun p s => noteConv i p.1 p.2 tick s) s

/-- The sum over every cell of ARR_OVF counter `k` (R150). -/
def arrOvfSum (s : State) (k : Nat) : Nat :=
  s.regs.foldl (fun n kv =>
    if 2 ^ 36 ≤ kv.1 ∧ kv.1 < 2 ^ 40 ∧ (kv.1 - 2 ^ 36) % 65536 = Reg.ARR_OVF + 4 * k then n + kv.2.toNat else n) 0

/-- At the veto point the array counts join the statistics of their entries (R150, R219). -/
def gatherArrays (s : State) : State :=
  each (List.range s.tab.copy.length) (fun i s =>
    match s.tab.copy[i]? with
    | some e => if e.ovfCtr < 16 then let st := statAt s i; setStat i { st with ovf := satAdd 32 st.ovf (arrOvfSum s e.ovfCtr) } s else s
    | none => s) s

/-- Whether any entry has non-finite sources (R150). -/
def anyNonfin (s : State) : Bool := s.tab.stats.any fun p => decide (p.2.nonfin > 0)

/-- Whether any entry has overflowed. -/
def anyOvf (s : State) : Bool := s.tab.stats.any fun p => decide (p.2.ovf > 0)

/-- Whether an entry that started cautiously in this run has overflowed (R219). -/
def anyCov (s : State) : Bool := s.tab.cautious.any fun i => decide ((statAt s i).ovf > 0)

/-- Entry `i` with the statistics of the run (R150). -/
def withStats (s : State) (i : Nat) (e : TabEntry) : TabEntry :=
  let t := statAt s i
  { e with mx := t.mx, mx0 := t.mx0, ovf := t.ovf, nonfin := t.nonfin, n := t.n, ua := t.ua, ub := t.ub }

/-- Whether a format is wider than another: F8a, then F8b, then F16 (R156). -/
def wider (a b : Nat) : Bool := let r := fun f => if f = 0 then 2 else if f = 2 then 1 else 0; decide (r a > r b)

/-- The format an entry wants at a commit (R156). -/
def wanted (e : TabEntry) (thr : Nat) : Nat :=
  if e.ua * 2 ^ thr ≤ e.n then 1 else if e.ub * 2 ^ thr ≤ e.n then 2 else 0

/-- Whether an entry takes part in the choice of R156. -/
def choosing (e : TabEntry) : Bool := e.role == 2 && !e.flag 1

/-- What entry `i` would take by itself at a commit: the format, its streak after the commit and the format it wanted. One with n = 0 would
keep what it has, and votes so (log 92: the spec does not say whether it votes). DESIGN CHOICE (log 92): the format that the earlier commits
of a streak wanted is no field of the entry; it is kept beside the table, and neither a casting load nor an ingot restore changes it. -/
def wouldTake (s : State) (thr steps i : Nat) (e : TabEntry) : Nat × Nat × Nat :=
  if !choosing e || e.n == 0 then (e.fmt, e.streak, get (fun _ => 0) s.tab.want i)
  else
    let w := wanted e thr
    if wider w e.fmt then (w, 0, w)
    else if w = e.fmt then (e.fmt, 0, w)
    else
      let k := if e.streak > 0 ∧ get (fun _ => 0) s.tab.want i = w then e.streak + 1 else 1
      (if k ≥ steps then w else e.fmt, k, w)

/-- The cautious actions of R155 on an entry. -/
def cautiousAct (e : TabEntry) (fmt : Nat) : TabEntry :=
  let e := { e with m := e.mx0, frozen := 64 }.setFlag 0 true
  { e with b := scaleByte e fmt 4 }

/-- The scale update of R152 on an entry without fixed_scale, for the format the entry takes. -/
def scaleUpdate (e : TabEntry) (fmt : Nat) : TabEntry :=
  let m := e.mVal
  let mx := BitVec.ofNat 16 e.mx
  let e : TabEntry := if e.frozen > 0 then
      ({ e with m := max m.toNat mx.toNat, frozen := e.frozen - 1 } : TabEntry).setFlag 3 (e.flag 3 && decide (e.frozen > 1))
    else if mx.toNat ≥ m.toNat then { e with m := mx.toNat }
    else
      let d := (fMul (fAdd m (fNeg mx)).v 0x3D80).v
      { e with m := (fAdd m (fNeg d)).v.toNat }
  { e with b := scaleByte e fmt e.headroom, bump := 0 }

/-- The b of entry `i` before the batch's first run. -/
def bFirstOf (s : State) (i : Nat) (e : TabEntry) : Nat := (s.tab.bFirst[i]?).getD e.b

/-- What a commit makes of the entries (R152, R155, R156). -/
def commitTable (s : State) : State :=
  let thr := dramNat s (tableAddr s + 8) 1
  let steps := dramNat s (tableAddr s + 9) 1
  let es := (List.range s.tab.copy.length).zip s.tab.copy |>.map fun p => (p.1, withStats s p.1 p.2)
  let takes := es.map fun p => (p.1, p.2, wouldTake s thr steps p.1 p.2)
  let layerFmt := fun (e : TabEntry) =>
    takes.foldl (fun f t => if choosing t.2.1 && t.2.1.layer == e.layer && wider t.2.2.1 f then t.2.2.1 else f) 1
  let out := takes.map fun t =>
    let i := t.1
    let e := t.2.1
    let fmt := if choosing e then layerFmt e else e.fmt
    let e := if choosing e then e.setStreak (if fmt ≠ e.fmt ∧ fmt = t.2.2.1 then 0 else t.2.2.2.1) else e
    let e' := if e.flag 2 then { e with b := bFirstOf s i e, bump := 0 }
      else if s.tab.cautious.contains i then { cautiousAct e fmt with bump := 0 }
      else scaleUpdate e fmt
    { e' with fmt := fmt }
  let want := each takes (fun t m => if choosing t.2.1 then put (fun _ => 0) m t.1 t.2.2.2.2 else m) s.tab.want
  let s := writeEntries out { s with tab := { s.tab with want := want } }
  if s.tab.cautious.isEmpty then s
  else asyncWrite (tableAddr s + 10) (natLE 1 (setBits (dramNat s (tableAddr s + 10) 1) 0 0 0)) s

/-- What an overflow rewind makes of the entries (R153). -/
def raiseTable (s : State) : State :=
  each ((List.range s.tab.copy.length).zip s.tab.copy) (fun p s =>
    if (statAt s p.1).ovf > 0 then
      let e := readEntry s p.1
      writeEntry p.1 { e with b := min 255 (p.2.b + 2), bump := min 255 (e.bump + 2) } s
    else s) s

/-- What a cautious rewind makes of the entries (R155). -/
def cautiousTable (s : State) : State :=
  let s := each s.tab.cautious (fun i s =>
    match s.tab.copy[i]? with
    | some e => let e' := cautiousAct (withStats s i e) e.fmt; let o := readEntry s i
                writeEntry i { o with m := e'.m, frozen := e'.frozen, flags := e'.flags, b := e'.b } s
    | none => s) s
  if s.tab.cautious.isEmpty then s
  else asyncWrite (tableAddr s + 10) (natLE 1 (setBits (dramNat s (tableAddr s + 10) 1) 0 0 0)) s

/-- What a skip makes of the entries; `ovf` for an overflow skip (R154). DEDUCED (log 114): an overflow skip raises the m
of an entry with fixed_scale too; its b is recomputed as R152 does, which is to return it. -/
def skipTable (ovf : Bool) (s : State) : State :=
  writeEntries (((List.range s.tab.copy.length).zip s.tab.copy).map fun p =>
    let e := withStats s p.1 p.2
    let e := { e with b := bFirstOf s p.1 e, bump := 0 }
    if ovf then
      let e := { e with m := max e.mVal.toNat e.mx }
      if e.flag 2 then e else { e with b := scaleByte e e.fmt e.headroom }
    else e) s

/-- Whether an entry of the table breaks R151; `earlier` are the entries before it. -/
def entryBad (earlier : List TabEntry) (e : TabEntry) : Bool :=
  let m := BitVec.ofNat 16 e.m
  decide (e.role > 3) || decide (e.fmt > 4) || decide (e.h > 4) || (decide (e.comp > 31) && e.comp != 0xFF)
    || (decide (e.ovfCtr > 15) && e.ovfCtr != 0xFF) || nonFinite m || (decide (e.m > 0x8000)) || earlier.any (·.tid == e.tid)

/-- Whether any entry breaks R151. -/
def tableBad (l : List TabEntry) : Bool :=
  (l.foldl (fun (a : List TabEntry × Bool) e => (a.1 ++ [e], a.2 || entryBad a.1 e)) ([], false)).2

/-- 2^(b − b0) as F16 (R149). -/
def compScale (e : TabEntry) : F16 := (Dy.rne ⟨1, (e.b : Int) - e.b0⟩).1

/-- The register file that serves cell group `g` of a die: its own, or the spare core's, file 16, once the spare has taken it over (R380). -/
def fileOf (s : State) (die g : Nat) : Nat :=
  if s.spr.coreSwaps.contains (die, g) && !s.spr.swapDue.contains (die, g) then 16 else g

/-- Key of scalar register `r` of register file `g` of a die (R24). -/
def sregKey (die g r : Nat) : Nat := (die * 17 + g) * 32 + r

/-- Writes a scalar register of a cell group (R24, R194); it carries fresh check bits. -/
def setSreg (die g r : Nat) (v : F16) (s : State) : State :=
  let k := sregKey die (fileOf s die g) r
  { s with sreg := put (fun _ => 0) s.sreg k v, sregEcc := put (fun _ => 0) s.sregEcc k 0 }

/-- Reads a scalar register. -/
def sregAt (s : State) (die g r : Nat) : F16 := get (fun _ => 0) s.sreg (sregKey die (fileOf s die g) r)

/-- The spare core of a die copies the registers of the group that it takes over (R380). -/
def takeFile (die g : Nat) (s : State) : State :=
  each (List.range 32) (fun r s =>
    let k := sregKey die 16 r
    { s with
      sreg := put (fun _ => 0) s.sreg k (get (fun _ => 0) s.sreg (sregKey die g r))
      sregEcc := put (fun _ => 0) s.sregEcc k (get (fun _ => 0) s.sregEcc (sregKey die g r)) }) s

/-- Every cell group of every die. -/
def allGroups : List (Nat × Nat) := (List.range 64).map fun k => (k / 16, k % 16)

/-- An entry with the format that its role fixes (R148). -/
def TabEntry.fixRole (e : TabEntry) : TabEntry :=
  { e with fmt := if e.role = 0 then 3 else if e.role = 1 then 4 else if e.role = 3 then 0 else e.fmt }

/-- The step services read the working table (R149, R218, R254). -/
def tableRead (s : State) : State := if hasTable s then (readSpan (tableAddr s) (64 + 64 * tableLen s) s).2 else s

/-- The load window's part in the tables (R149, R151, R155): copy, cautious starts, scale registers, statistics restarted. -/
def windowTable (s : State) : State :=
  let s := tableRead s
  let l := (List.range (tableLen s)).map (readEntry s)
  let all := bits (dramNat s (tableAddr s + 10) 1) 0 0 == 1
  let caut := (List.range l.length).filter fun i =>
    match l[i]? with
    | some e => !e.flag 2 && (!e.flag 0 || (hasTable s && all))
    | none => false
  let copy := ((List.range l.length).zip (l.map TabEntry.fixRole)).map fun p =>
    if caut.contains p.1 then { p.2.setFlag 3 true with b := p.2.b0 } else p.2
  let first := if s.run.newBatch then l.map (·.b) else s.tab.bFirst
  let s := { s with tab := { s.tab with copy := copy, stats := [], bFirst := first, cautious := caut } }
  let s := if tableBad l then launch (s.run.start + 2048) (.violation 9 0 0 0) s else s
  each copy (fun e s => if e.comp = 0xFF then s
    else each allGroups (fun g s => setSreg g.1 g.2 (e.comp % 32) (compScale e) s) s) s

end Sys2Proof.Machine
end

