-- ==== Sys2Proof/Machine/Units.lean ====
section
/-! DEFINITION. What units do with memories when their operations land: accumulator additions, folds and drains (R122 to R132),
scratchpad and DRAM accesses through their check bits (R254, R337, R338), and received flits added (R289). -/
namespace Sys2Proof.Machine

/-! ### Accumulator memory -/

/-- Die and logical cell of a physical cell, its physical index where it serves none. -/
def nameOf (s : State) (c : Nat) : Nat × Nat :=
  match logicalOf s c with
  | some l => (l / 256, l % 256)
  | none => (c / 272, c % 272 % 256)

/-- The kind-2 entry of a die: N and F of R121. DESIGN CHOICE (log 112): of two that name the die the first in the declaration counts. -/
def tileDecl (s : State) (die : Nat) : Nat × Nat :=
  match (resEntries s).find? fun e => e.1 == 2 && (e.2.1 == die || e.2.1 == 0xFF) with
  | some e => (e.2.2.1, e.2.2.2)
  | none => (128, 0)

/-- N of R121, for a physical cell. -/
def sumTiles (s : State) (c : Nat) : Nat := (tileDecl s (c / 272)).1

/-- F of R121, for a physical cell. -/
def foldArea (s : State) (c : Nat) : Nat := (tileDecl s (c / 272)).2

/-- The fold tile `k` of sum tile `t` (R121). -/
def foldTile (F t k : Nat) : Nat := 127 - (F * t + k)

/-- A running value. -/
def accAt (s : State) (c t j : Nat) : F16 := get (fun _ => 0) (cellAt s c).acc (t * 256 + j)

/-- Writes a running value. -/
def setAcc (c t j : Nat) (v : F16) (s : State) : State :=
  onCell c (fun x => { x with acc := put (fun _ => 0) x.acc (t * 256 + j) v }) s

/-- A side word (R120). -/
def sideAt (s : State) (c t j : Nat) : Nat := (get (fun _ => 0) (cellAt s c).side (t * 256 + j)).toNat

/-- Writes a side word. -/
def setSide (c t j v : Nat) (s : State) : State :=
  onCell c (fun x => { x with side := put (fun _ => 0) x.side (t * 256 + j) (BitVec.ofNat 16 v) }) s

/-- A tile's binding. -/
def tileAt (s : State) (c t : Nat) : Tile := get (fun _ => Tile.init) (cellAt s c).tiles t

/-- Replaces a tile's binding. -/
def setTile (c t : Nat) (x : Tile) (s : State) : State :=
  onCell c (fun y => { y with tiles := put (fun _ => Tile.init) y.tiles t x }) s

/-- Whether a step's load window runs: no word issues in it, so what lands in it belongs to the step that has ended (R42, R87). -/
def inLoadWindow (s : State) : Bool := s.run.on && decide (stepTick s < 2048)

/-- Counts overflows in an ARR_OVF counter of a cell; after the veto point they also go to late_ovf (R123, R219). Those of results that land in
the next load window are the ended step's and stay out of the counter, which has restarted (R87; log 25). -/
def arrOvf (c k n : Nat) (s : State) : State :=
  if n = 0 then s
  else if inLoadWindow s then sticky Reg.SCH_STEP_STICKY 2 s
  else
    let s := bumpFld (cellKey c (Reg.ARR_OVF + 4 * k)) 31 0 n s
    if s.run.veto.isSome then sticky Reg.SCH_STEP_STICKY 2 { s with run := { s.run with lateOvf := s.run.lateOvf + n } } else s

/-- A saturated accumulator value of a sign (R123). -/
def satAcc (neg : Bool) : F16 := signed16 neg 0x7F7F

/-- The group of a kind of element of a cell's coded memories: 3 accumulator, 4 Anvil, 5 tables; kind 6 is the accumulator's side words,
which carry check bits of their own (R120, R337). -/
def eccGroup (kind : Nat) : Nat := if kind = 6 then 3 else kind

/-- Reads an element of a cell's coded memories (R337): the counters and the taint of its check bits. -/
def eccRead (c kind index : Nat) (s : State) : State :=
  match get (fun _ => 0) (cellAt s c).ecc (kind * 2 ^ 24 + index) with
  | 0 => s
  | m =>
    let kind := eccGroup kind
    let reg := if kind = 3 then Reg.ACC_ECC else if kind = 4 then Reg.ANV_ECC else Reg.BUR_ECC
    let st := if kind = 3 then (Reg.ACC_STICKY, 4) else if kind = 4 then (Reg.ANV_STICKY, 3) else (Reg.BUR_STICKY, 6)
    if m = 1 then
      bumpFld (cellKey c reg) 15 0 1 (noteCorrected c 0 s)
    else
      let n := nameOf s c
      taintCell kind (if kind = 3 then 2 else if kind = 4 then 3 else 4) n.1 n.2
        (sticky (cellKey c st.1) st.2 (bumpFld (cellKey c reg) 31 16 1 s))

/-- A write of an element stores fresh check bits. -/
def eccWrite (c kind index : Nat) (s : State) : State :=
  match get (fun _ => 0) (cellAt s c).ecc (kind * 2 ^ 24 + index) with
  | 0 => s
  | _ => onCell c (fun x => { x with ecc := put (fun _ => 0) x.ecc (kind * 2 ^ 24 + index) 0 }) s

/-- One addition into a slot: the exact sum of what enters on one tick and the running value, rounded stochastically, saturated, folded
(R123, R124, R129, R130). -/
def accAdd (c t j : Nat) (vals : List F16) (s : State) : State :=
  let b := tileAt s c t
  let s := eccRead c 6 (t * 256 + j) (eccRead c 3 (t * 256 + j) s)
  let side := sideAt s c t j
  let count := side % 4096
  let folds := side / 4096
  let terms := (accAt s c t j :: vals).map dyF16
  let sum := Dy.sum terms
  let index := ((b.ebase.toNat + j) % 2 ^ 32) * 65536 + folds * 4096 + count
  let v := sroundAt sum (jobSeed s) (rngStep s) b.tid.toNat index 1
  let s := match v with
    | some _ => s
    | none => sticky (cellKey c Reg.ACC_STICKY) 0 (arrOvf c b.ovf.val 1 s)
  let v := v.getD (satAcc (sum.m < 0))
  let F := foldArea s c
  let there := if count + 1 < 4096 ∨ F ≤ folds then t else foldTile F t folds
  let s := if b.hk then noteCheck 2 c [(sumCheck terms v).at_ (.acc c (there * 256 + j))] s else s
  let s := eccWrite c 6 (t * 256 + j) (eccWrite c 3 (t * 256 + j) (bump (cellKey c Reg.ACC_ADDS) s))
  if count + 1 < 4096 then setSide c t j (folds * 4096 + count + 1) (setAcc c t j v s)
  else if folds < F then
    bump (cellKey c Reg.ACC_FOLDS)
      (setSide c t j ((folds + 1) * 4096) (setAcc c t j 0 (setAcc c (foldTile F t folds) j v
        (eccWrite c 3 (foldTile F t folds * 256 + j) s))))
  else
    let s := setSide c t j (folds * 4096) (setAcc c t j v s)
    let s := sticky (cellKey c Reg.ACC_STICKY) 1 s
    if fld s (cellKey c Reg.ACC_LONGSUM) 7 7 = 1 then s else wr (cellKey c Reg.ACC_LONGSUM) (t + 128) s

/-- Two drained values combined in one level (R132): the sum rounded to nearest even, saturated; the flag says it saturated. -/
def drainAdd (a b : F16) : F16 × Bool := let r := Dy.rne ((dyF16 a).add (dyF16 b)); (if r.1 = 0x8000 then 0 else r.1, r.2)

/-- The pairwise combination of R132, one level per pass, with the number of sums that saturated. -/
def drainLevels : Nat → List F16 → F16 × Nat
  | _, [] => (0, 0)
  | _, [v] => (v, 0)
  | 0, v :: _ => (v, 0)
  | f + 1, l =>
    let ps := (List.range (l.length / 2)).map fun i => drainAdd ((l[2 * i]?).getD 0) ((l[2 * i + 1]?).getD 0)
    let r := drainLevels f (ps.map (·.1))
    (r.1, r.2 + (ps.filter (·.2)).length)

/-- Clearing slots `lo` to `hi` − 1 of a tile with their side words and fold positions (R127, R131). -/
def clearSlots (c t lo hi : Nat) (s : State) : State :=
  let F := foldArea s c
  let ts := t :: (List.range F).map (foldTile F t)
  let here := fun (k : Nat) => decide (lo ≤ k % 256) && decide (k % 256 < hi)
  onCell c (fun x => { x with
    acc := forget (fun k => ts.contains (k / 256) && here k) x.acc
    side := forget (fun k => k / 256 == t && here k) x.side
    ecc := forget (fun k => here k && ((decide (k / 2 ^ 24 = 3) && ts.contains (k % 2 ^ 24 / 256))
      || (decide (k / 2 ^ 24 = 6) && k % 2 ^ 24 / 256 == t))) x.ecc }) s

/-- Clearing a tile's values, side words and fold positions (R127). -/
def clearTile (c t : Nat) (s : State) : State := clearSlots c t 0 256 s

/-- A drain reads 64 slots of its tile, those of number `q`, with their fold positions, puts the combined values on their way to scratchpad and
clears what it read for a DRAINCLR (R131, R132); with hk set the combination and the write are checked (R125). -/
def drainRead (c t addr land : Nat) (clear hk : Bool) (q : Nat) (s : State) : State :=
  let F := foldArea s c
  let slots := (List.range 64).map (64 * q + ·)
  let rows := slots.map fun j => accAt s c t j :: (List.range F).map fun k => accAt s c (foldTile F t k) j
  let out := rows.map fun r => drainLevels 4 r
  let sats := out.foldl (fun n v => n + v.2) 0
  let ts := t :: (List.range F).map (foldTile F t)
  let s := each ((cellAt s c).ecc.filter fun kv =>
      decide (kv.1 / 2 ^ 24 = 3) && ts.contains (kv.1 % 2 ^ 24 / 256) && decide (kv.1 % 256 / 64 = q))
    (fun kv s => eccRead c 3 (kv.1 % 2 ^ 24) s) s
  let s := if sats = 0 then s else sticky (cellKey c Reg.ACC_STICKY) 0 (arrOvf c (tileAt s c t).ovf.val sats s)
  let s := launch land (.sp c (addr + 128 * q) (out.flatMap fun v => natLE 2 v.1.toNat)) s
  let s := if hk then launch land (.check 2 c ((slots.zip (rows.zip out)).map fun p =>
    (sumCheck (p.2.1.map dyF16) p.2.2.1).at_ (.sp c (8 * (addr + 2 * p.1))))) s else s
  if clear then clearSlots c t (64 * q) (64 * q + 64) s else s

/-! ### Lines -/

/-- Marks the scratchpad words of a line as uncorrectable: bytes carried from a bad read (R338). -/
def spTaintLine (c addr : Nat) (s : State) : State :=
  onCell c (fun x => { x with spBad := (List.range 8).foldl (fun m i => put (fun _ => 0) m (addr / 8 + i) 2) x.spBad }) s

/-- A read of scratchpad by a unit: an uncorrectable word taints with cause 2, a corrected one is counted (R337). -/
def spRead (unit c addr n : Nat) (s : State) : State :=
  let hit := fun m => (cellAt s c).spBad.any fun kv => decide (kv.2 = m) && decide (addr / 8 ≤ kv.1) && decide (kv.1 ≤ (addr + n - 1) / 8)
  let s := if hit 1 then noteCorrected c 0 s else s
  if hit 2 then let d := nameOf s c; taintCell 2 unit d.1 d.2 s else s

/-- The words of a line of scratchpad whose check bits show an error, each with its mark (R337). -/
def spMarks (s : State) (c addr : Nat) : List (Nat × Nat) :=
  (List.range 8).filterMap fun i => let m := get (fun _ => 0) (cellAt s c).spBad (addr / 8 + i); if m = 0 then none else some (i, m)

/-- A line reaches a scratchpad; its check bits came with it and are checked there (R334, R337). -/
def spArrive (unit c addr : Nat) (data : List Byte) (marks : List (Nat × Nat)) (s : State) : State :=
  let s := spPut c addr data s
  let s := if marks.any (·.2 == 1) then noteCorrected c 0 s else s
  let bad := marks.filter (·.2 == 2)
  if bad.isEmpty then s
  else
    let d := nameOf s c
    taintCell 2 unit d.1 d.2
      (onCell c (fun x => { x with spBad := bad.foldl (fun m p => put (fun _ => 0) m (addr / 8 + p.1) 2) x.spBad }) s)

/-- A flit is read from the link receive buffer of a logical port with error `m`, for a cell or to be relayed (R337, R338). -/
def rxRead (port : Nat) (c : Option Nat) (m : Nat) (s : State) : State :=
  match c with
  | some c => if m = 1 then noteCorrected c 0 s else let d := nameOf s c; taintCell 2 6 d.1 d.2 s
  | none => if m = 1 then noteCorrected (2048 + port) 0 s else taint 2 6 0 port 0 (placeLoc 6 0 port) s

/-- A notice reaches the receiver's flag: poison taints the step, a fault raises one (R303, R304, R346). -/
def noticeFlag (l : Nat) (poison fault : Bool) (s : State) : State :=
  let s := if poison then taint 10 0 0 l 0 [(7, l)] (sticky Reg.FAB_STICKY 13 s) else s
  if fault then jobFault (sticky Reg.FAB_STICKY 12 s) else s

/-- A port has sent or relayed a data flit since the load window (R345). -/
def portSent (port : Nat) (s : State) : State :=
  if s.run.sentPorts.contains port then s else { s with run := { s.run with sentPorts := s.run.sentPorts ++ [port] } }

/-- The first `k` pieces of `n` elements of a list. -/
def chunks {α : Type} (n : Nat) : Nat → List α → List (List α)
  | 0, _ => []
  | k + 1, l => l.take n :: chunks n k (l.drop n)

/-- The element codes of a list of bytes in a format of 8 or 16 bits. -/
def codesOf (fmt : Nat) (d : List Byte) : List Nat :=
  if fmt = 0 then (chunks 2 (d.length / 2) d).map leNat else d.map (·.toNat)

/-! ### Anvil memory -/

/-- An operand buffer: L0, L1, R0, R1 are 0 to 3. -/
def bufAt (s : State) (c i : Nat) : AnvBuf := get (fun _ => AnvBuf.init) (cellAt s c).bufs i

/-- Replaces it. -/
def setBuf (c i : Nat) (x : AnvBuf) (s : State) : State :=
  onCell c (fun y => { y with bufs := put (fun _ => AnvBuf.init) y.bufs i x }) s

/-- An output array. -/
def chainAt (s : State) (c i : Nat) : Chain := get (fun _ => Chain.init) (cellAt s c).chains i

/-- Replaces it. -/
def setChain (c i : Nat) (x : Chain) (s : State) : State :=
  onCell c (fun y => { y with chains := put (fun _ => Chain.init) y.chains i x }) s

/-- Reads elements of Anvil memory through their check bits: kind 4, indices from `lo`, `n` of them (R176). -/
def anvRead (c lo n : Nat) (s : State) : State :=
  each ((cellAt s c).ecc.filter fun kv => decide (kv.1 / 2 ^ 24 = 4) && decide (lo ≤ kv.1 % 2 ^ 24) && decide (kv.1 % 2 ^ 24 < lo + n))
    (fun kv s => eccRead c 4 (kv.1 % 2 ^ 24) s) s

/-- The drain of an output array ends: its rows are in scratchpad, its conversions counted, its chain closed (R161, R166, R168, R171). All rows
land on this tick, that of the last byte (log 13: the spec gives the span of the drain and not the tick of each row). -/
def anvDrained (c i addr pitch : Nat) (kept evalSeg hk : Bool) (issued : Nat) (s : State) : State :=
  let ch := chainAt s c i
  let s := anvRead c (4096 * (4 + i)) 4096 s
  let vals := if kept then ch.elems else List.replicate 4096 0
  let s := each ((List.range 64).zip (chunks 64 64 vals)) (fun r s => spPut c (addr + r.1 * pitch) (r.2.flatMap fun v => natLE 2 v.toNat) s) s
  let s := if hk then noteCheck 3 c (((List.range 4096).zip ch.elems).map fun p =>
    (moved (ofF16 p.2) .f16 127 p.2.toNat).at_ (if kept then .sp c (8 * (addr + p.1 / 64 * pitch + 2 * (p.1 % 64))) else .inside)) s else s
  let s := setChain c i { ch with opened := false } s
  if !kept then bump (cellKey c Reg.ANV_DISCARDS) s
  else
    let s := if ch.elems.any nonFinite then sticky (cellKey c Reg.ANV_STICKY) 1 s else s
    noteConvs ch.tid (((List.range 4096).zip ch.elems).map fun p => (p.2, if ch.sat.contains p.1 then 1 else 0)) evalSeg issued s

/-- The check of an element added: the exact sum of what was there and what arrived, or the two results where a special value takes part
(R289, R333). -/
def addCheck (old : F16) (x : F16) (r : F16) : CheckVal :=
  if nonFinite old || nonFinite x || nonFinite r then twiceCheck r else sumCheck [dyF16 old, dyF16 x] r

/-- A received flit added element by element; with hk set every conversion and addition is checked (R289, R334). -/
def recvAddFlit (c addr fmt b dst issued : Nat) (evalSeg hk : Bool) (data : List Byte) (s : State) : State :=
  let xs := (codesOf fmt data).map (widen (Fmt.ofCode fmt) b)
  let s := spRead 6 c addr (2 * xs.length) s
  let old := (codesOf 0 (spGet s c addr (2 * xs.length))).map (BitVec.ofNat 16)
  let rs := (old.zip xs).map fun p => let r := fAdd p.1 (BitVec.ofNat 16 p.2.code); (r.v, if r.ovf || p.2.ovf then 1 else 0)
  let s := spPut c addr (rs.flatMap fun r => natLE 2 r.1.toNat) s
  let s := if hk then noteCheck 6 c (((codesOf fmt data).zip xs).map (fun p => moved (scaled (Fmt.ofCode fmt) b p.1) .f16 127 p.2.code)
    ++ ((List.range xs.length).zip (old.zip (xs.zip rs))).map fun p =>
      (addCheck p.2.1 (BitVec.ofNat 16 p.2.2.1.code) p.2.2.2.1).at_ (.sp c (8 * (addr + 2 * p.1)))) s else s
  let s := if rs.any fun r => nonFinite r.1 then sticky Reg.FAB_STICKY 10 s else s
  noteConvs dst rs evalSeg issued s

end Sys2Proof.Machine
end

