-- ==== Sys2Proof/Machine/Columns.lean ====
section
/-! DEFINITION. The stored columns of an analogue array (03, 04): codes, exponents and checks, their programming, trims with their history and
ramp; what happens on an array when a span ends: verdicts, a new trim set, a slice handoff. -/
namespace Sys2Proof.Machine

/-- Uses up `n` free values. -/
def useFree (n : Nat) (s : State) : State := { s with freeCount := s.freeCount + n }

/-! ### Column blocks (R68 to R71, R101) -/

/-- Code of assay column AC`k` at a row (R101). -/
def assayCode (k row : Nat) : Int :=
  match k with
  | 0 => 1
  | 1 => -1
  | 2 => if row % 2 = 0 then 7 else -8
  | _ => (row % 16 : Nat) - 8

/-- Code of a site that nothing has programmed: the assay pattern, or 0 (log 5). -/
def defaultCode (key : Nat) : BitVec 4 :=
  let p := key / 256 % 268
  if 256 ≤ p ∧ p < 260 then BitVec.ofInt 4 (assayCode (p - 256) (key % 256)) else 0

/-- Exponent of a column block that nothing has programmed (R101; log 5). -/
def defaultExp (key : Nat) : Byte := if 256 ≤ key % 268 ∧ key % 268 < 260 then 127 else 0

/-- A stored code. -/
def codeAt (s : State) (c a p row : Nat) : BitVec 4 := get defaultCode (cellAt s c).codes (colKey a p * 256 + row)

/-- An exponent. -/
def expAt (s : State) (c a p : Nat) : Nat := (get defaultExp (cellAt s c).exps (colKey a p)).toNat

/-- Two codes as a byte (R69). -/
def packCodes (even odd : Nat) : Byte := BitVec.ofNat 8 (even % 16 + 16 * (odd % 16))

/-- The 128 code bytes of a column block (R69). -/
def colBytes (s : State) (c a p : Nat) : List Byte :=
  (List.range 128).map fun k => packCodes (codeAt s c a p (2 * k)).toNat (codeAt s c a p (2 * k + 1)).toNat

/-- The column check of a block (R70). -/
def blockCheck (codes : List Byte) (exp : Nat) : BitVec 16 := crc16 (codes ++ [BitVec.ofNat 8 exp])

/-- Column check of a block that nothing has programmed: that of its content. -/
def defaultCheck (key : Nat) : BitVec 16 :=
  blockCheck ((List.range 128).map fun k => packCodes (defaultCode (key * 256 + 2 * k)).toNat (defaultCode (key * 256 + 2 * k + 1)).toNat)
    (defaultExp key).toNat

/-- The stored column check. -/
def checkAt (s : State) (c a p : Nat) : BitVec 16 := get defaultCheck (cellAt s c).checks (colKey a p)

/-- The code of row `i` in code bytes. -/
def nibble (b : List Byte) (i : Nat) : Nat := let v := ((b[i / 2]?).getD 0).toNat; if i % 2 = 0 then v % 16 else v / 16

/-- The codes of the listed rows, the exponent and the check of a column block (R88). -/
def blockPut (rows : List Nat) (key : Nat) (codes : List Byte) (exp : Nat) (check : BitVec 16) (x : Cell) : Cell :=
  { x with
    codes := rows.foldl (fun m i => put defaultCode m (key * 256 + i) (BitVec.ofNat 4 (nibble codes i))) x.codes
    exps := put defaultExp x.exps key (BitVec.ofNat 8 exp)
    checks := put defaultCheck x.checks key check }

/-- What the `i`-th store of a block holds after a programming with value `v` (R89, R90; log 11). -/
def siteTakes (base i v : Nat) : Nat := match Config.siteHolds (base + i) with | some b => b.toNat | none => v

/-- The code bytes that the sites of a block hold after a programming. -/
def takenCodes (base : Nat) (codes : List Byte) : List Byte :=
  (List.range 128).map fun k =>
    packCodes (siteTakes base (2 * k) (nibble codes (2 * k))) (siteTakes base (2 * k + 1) (nibble codes (2 * k + 1)))

/-- Programs a column block and its check (R88), counted as wear (R389); a faulty site keeps what it holds (R90). -/
def programCol (c a p : Nat) (codes : List Byte) (exp : Nat) (s : State) : State :=
  let base := s.freeCount
  let s := onCell c (blockPut (List.range 256) (colKey a p) (takenCodes base codes) (siteTakes base 256 exp % 256) (blockCheck codes exp))
    (useFree 257 s)
  wearColumn c a s

/-! ### Trims (R84, R109, R113) -/

/-- Replaces a column's trims. -/
def setTrim (c a p : Nat) (v : Trim) (s : State) : State :=
  onCell c (fun x => { x with trims := put (fun _ => 0) x.trims (colKey a p) v }) s

/-- n of a trim word. -/
def trimN (t : Trim) : Nat := bits t.toNat 4 0
/-- off, signed. -/
def trimOff (t : Trim) : Int := sx 8 (bits t.toNat 15 8)
/-- gr, signed. -/
def trimGr (t : Trim) : Int := sx 10 (bits t.toNat 25 16)
/-- A trim word of its fields. -/
def mkTrim (n : Nat) (off gr : Int) : Trim := BitVec.ofNat 32 (n + 256 * unsx 8 off + 65536 * unsx 10 gr)

/-- The value of the `k`-th step of 256 from `a` to `b`, truncated toward zero (R113). -/
def rampStep (a b : Int) (k : Nat) : Int := a + Int.tdiv ((b - a) * k) 256

/-- An EVAL or EVAL8 advances the array's ramp (R113). -/
def advanceRamp (c a : Nat) (s : State) : State :=
  let x := arrAt s c a
  if x.rampLeft = 0 then s
  else
    let k := 257 - x.rampLeft
    let s := each x.ramp (fun e s =>
      let st := e.2.1
      let tg := e.2.2
      setTrim c a e.1 (mkTrim (trimN tg) (rampStep (trimOff st) (trimOff tg) k) (rampStep (trimGr st) (trimGr tg) k)) s) s
    setArr c a { x with rampLeft := x.rampLeft - 1, ramp := if x.rampLeft = 1 then [] else x.ramp } s

/-- Records an event of calibration in CAL_LAST (R118). -/
def calLast (die cell a col kind : Nat) (s : State) : State :=
  wr Reg.CAL_LAST (die + 4 * cell + 1024 * a + 65536 * col + 33554432 * kind) s

/-- Location of an array. -/
def arrLoc (die cell a : Nat) : List (Nat × Nat) := [(1, die), (2, cell), (5, a)]

/-- n / d rounded to nearest, ties away from zero; d positive. -/
def roundAway (n d : Int) : Int := if 0 ≤ n then (2 * n + d) / (2 * d) else -((2 * -n + d) / (2 * d))

/-! ### Trim generations (R93, R112, R115) -/

/-- The target trims in force are kept under their generation. -/
def keepTrims (c a : Nat) (s : State) : State :=
  let x := arrAt s c a
  setArr c a { x with past := put (fun _ => none) x.past x.gen.toNat (some (targetSet s c a)) } s

/-- The target trims of a position of the conversion list in a generation, for a record of a step with `rng`, while the array knows that
generation; a set that a change of the maps took out of force serves the records of the steps before (R93, R115, R157; log 12). -/
def trimsOf (s : State) (c a gen rng q : Nat) : Option Trim :=
  match (arrAt s c a).held.find? fun e => e.1 == gen && decide (rng < e.2.1) with
  | some e => some (get (fun _ => 0) e.2.2 q)
  | none =>
    if (arrAt s c a).gen.toNat = gen then some (targetTrim s c a (listCol s c a q))
    else (get (fun _ => none) (arrAt s c a).past gen).map fun set => get (fun _ => (0 : Trim)) set q

/-! ### What the end of a span brings -/

/-- A failed column: sticky bit, ARR_FAIL, journal, record, brazing request (R90). -/
def columnFail (bit kind die cell a col : Nat) (latched : List Byte) (s : State) : State :=
  let c := phys s die cell
  let s := sticky (cellKey c Reg.ARR_STICKY) bit s
  let s := wr (cellKey c Reg.ARR_FAIL) (a + 64 * col + 16384 * kind) s
  let s := recordOf 5 Reg.ARR_FAIL ((arrLoc die cell a) ++ [(6, col)]) (rd s (cellKey c Reg.ARR_FAIL)) s
  brazeColumn die cell a col latched s

/-- The due calibrating slice (R98). -/
def dueSlice (s : State) : Nat :=
  let k := now s / 2 ^ fld s Reg.CAL_CTRL 6 2 % 66
  if k ≤ 33 then k else 66 - k

/-- The slice that serves a conversion group (R97). -/
def sliceOf (x : Arr) (g : Nat) : Nat := if g < x.slice then g else g + 1

/-- Whether a conversion group has no slice (R100). -/
def groupLost (x : Arr) (g : Nat) : Bool := x.retired.contains (sliceOf x g)

/-- The end of a calibrating period on a free array: the slice that passed takes its group, or one is retired, c staying where it is; a group
without a slice costs the array its data columns (R98 to R100). On an array whose rotation has stopped a failure is that of the slice that
the tick counter makes due (log 12). -/
def applyHandoff (die cell a : Nat) (passed : Bool) (s : State) : State :=
  let c := phys s die cell
  let x := arrAt s c a
  if fld s Reg.CAL_CTRL 1 1 = 0 then s
  else if passed then (if x.retired = [] then setArr c a { x with slice := dueSlice s } s else s)
  else
    let lost := if x.retired = [] then x.slice else dueSlice s
    if x.retired.contains lost then s
    else
      let x := { x with retired := x.retired ++ [lost] }
      let s := mapsChanged (sticky Reg.CAL_STICKY 3 (calLast die cell a 0x1FF 5 (setArr c a x s)))
      let s := record 6 (arrLoc die cell a) (rd s Reg.CAL_LAST) s
      if (List.range 33).any (groupLost x) then brazeCell die cell s else s

/-- The staged trim set of an array comes into force: whole in native mode, through a ramp in ramped mode; the set before it is kept under
its generation (R111 to R114). -/
def bringTrims (c a : Nat) (s : State) : State :=
  match (arrAt s c a).staged with
  | none => s
  | some set =>
    let s := keepTrims c a s
    let x := arrAt s c a
    let ramped := s.casting.elim false (·.decith)
    let cols := (List.range 260).map (listCol s c a)
    let new := fun p => get (fun _ => (0 : Trim)) set p
    let start := fun p =>
      let old := trimAt s c a p
      let n := new p
      let gr := roundAway ((4096 + trimGr old) * (400 + 3 * trimN old)) (400 + 3 * trimN n) - 4096
      mkTrim (trimN n) (trimOff old) (max (-512) (min 511 gr))
    let ramp := if ramped then cols.foldl (fun m p => put (fun _ => (0, 0)) m p (start p, new p)) ([] : SMap (Trim × Trim)) else []
    let s := each cols (fun p s => setTrim c a p (if ramped then start p else new p) s) s
    let s := setArr c a { x with
      staged := none, gen := x.gen + 1, tcal := x.stagedT, calibrated := true, ramp := ramp, rampLeft := if ramped then 256 else 0 } s
    bump Reg.CAL_RECALS (if ramped then sticky Reg.CAL_STICKY 5 s else s)

/-- The verdict of a WRITE or SWEEP: every failing column is reported (R90, R91). -/
def landVerdict (die cell a : Nat) (swept : Bool) (fails : List (Nat × Nat)) (latched : List Byte) (s : State) : State :=
  each fails (fun f s => columnFail (if swept then 3 else 2) f.2 die cell a f.1 latched s) s

/-- The tick on which an effect that meets `p` is next due, if one is in flight. -/
def dueOf (s : State) (p : Effect → Bool) : Option Nat := (s.flights.find? fun f => p f.effect).map (·.due)

end Sys2Proof.Machine
end

