-- ==== Sys2Proof/Machine/Deep.lean ====
section
/-! DEFINITION. Deep states (R401 to R407): what QUENCH keeps, the rail enables, and the wake causes standing. -/
namespace Sys2Proof.Machine

/-- Whether QUENCH keeps a register: the always-on domain of R397 (PWR block, HLT sticky registers, health monitor's minimum state, record
sequence, tally epoch and sequence, ING serials of R378, the addresses that the wake logic matches), the wear counters and outstanding
fills, which go with the working maps (R386, R388), and what the boot core says of the image it runs (R407 step 3; log 18). -/
def keptDeep (k : Nat) : Bool :=
  (decide (0x20000 ≤ k) && decide (k < 0x30000))
    || [Reg.HLT_STICKY0, Reg.HLT_ACC_FIRST, Reg.HLT_AREC_SEQ_LO, Reg.HLT_RISK, Reg.HLT_RISK_CFG,
        Reg.ING_LAST_SERIAL, Reg.ING_SEC_SERIAL, Reg.ING_SEC_VER, Reg.MGT_EPOCH, Reg.MGT_TALLY_SEQ, Reg.SPR_LOST,
        Reg.NVS_FW_SVN, Reg.NVS_KEYS, Reg.MGT_DWI, Reg.FAB_ADDR].contains k
    || (decide (Reg.HLT_RISK_W ≤ k) && decide (k < Reg.HLT_RISK_W + 32))
    || (decide (2 ^ 40 ≤ k) &&
      (decide ((k - 2 ^ 40) / 2 ^ 20 = Reg.SPR_WEAR) || decide ((k - 2 ^ 40) / 2 ^ 20 = Reg.SPR_FILL)))

/-- Every register that `keptDeep` does not name takes its reset value; NVS_STATUS keeps boot and fail_code, held in the always-on mirror
(R407, R434); unstored stays set while the maps differ from MRAM (R391). -/
def resetRegs (s : State) : State :=
  let boot := fld s Reg.NVS_STATUS 9 0
  let s := wr Reg.NVS_STATUS boot { s with regs := forget (fun k => !keptDeep k) s.regs }
  if s.spr.dirty then sticky Reg.SPR_STICKY 4 s else s

/-- A cell of which only its maps are left, which the always-on domain keeps (R386, R397). -/
def Cell.unpowered (c : Cell) : Cell :=
  { Cell.init with
    colmap := c.colmap, colbad := c.colbad, colretired := c.colretired, usedCols := c.usedCols
    arrs := c.arrs.foldl (fun m p =>
      if p.2.slice = 0 ∧ p.2.retired = [] then m
      else put (fun _ => Arr.init) m p.1 { Arr.init with slice := p.2.slice, retired := p.2.retired }) [] }

/-- Every domain but the always-on one loses its contents (R401). The hub's own monitor converter goes on (R415). -/
def loseDomains (s : State) : State :=
  let s := { mapCells Cell.unpowered s with
    casting := none, run := Run.init, tab := ⟨[], [], [], [], []⟩, streams := [], flights := [], checks := [], mem := MemSys.init
    fab := Fab.init, host := HostSys.init, mgt := { s.mgt with serving := [] }, sreg := [], sregEcc := []
    health := { Health.init with seq := s.health.seq, journal := s.health.journal }
    ing := Ing.init
    tsm := { Tsm.init with
      chans := s.tsm.chans.filter fun p => decide (256 ≤ p.1), urgent := s.tsm.urgent.filter fun p => p.1 == 8
      round := s.tsm.round.filter fun p => p.1 == 8, busy := s.tsm.busy.filter fun p => p.1 == 8 }
    nvs := { s.nvs with snapshot := none, tries := 0, quoteBody := [], owner := List.replicate 32 0 } }
  resetRegs s

/-- Drives an enable of the mask `m`, high or low. -/
def driveRail (r : Nat) (level : Bool) (s : State) : State :=
  if (bits s.pwr.rails r r == 1) == level then s
  else emit (.pin r level) { s with pwr := { s.pwr with rails := setBits s.pwr.rails r r (if level then 1 else 0) } }

/-- Enables go low in the reverse order of R394; with VCORE_EN low the board's PWR_GOOD falls. -/
def railsLow (rails : List Nat) (s : State) : State :=
  let s := each rails (fun r s => driveRail r false s) s
  if bits s.pwr.rails 0 0 = 0 then setFld Reg.PWR_STATUS 8 8 0 s else s

/-- The WAKE pin is at its active level (R405). -/
def pinActive (s : State) : Bool := s.pwr.pinLevel == (fld s Reg.PWR_WAKE_CFG 4 4 == 1)

/-- The wake causes standing: rtc, dwi, pin, mgmt as bits 0 to 3 (R405). -/
def wakeCauses (s : State) : Nat :=
  let en := fun (i : Nat) => fld s Reg.PWR_WAKE_CFG i i == 1
  let b := fun (c : Bool) (n : Nat) => if c then n else 0
  let pin := if en 3 then s.pwr.pinLatch else pinActive s
  b (en 0 && s.pwr.rtcLatch) 1 + b (en 1 && s.pwr.dwiLatch) 2 + b (en 2 && pin) 4 + b (en 5 && s.pwr.mgmtLatch) 8

end Sys2Proof.Machine
end

