-- ==== Sys2Proof/Machine/Entry.lean ====
section
/-! DEFINITION. The entry into a deep state (R402 to R404, R406): what runs when its window has closed, the quench image, and its completion. -/
namespace Sys2Proof.Machine

/-- Darkens a port by plan after a DIM (R281, R400). -/
def darken (p : Nat) (s : State) : State := portDark p 7 (if portLasers s p then emit (.ctrl p 6 []) s else s)

/-- The quench image of a column: code bytes, exponent, column check (R404). -/
def columnImage (s : State) (c a col : Nat) : List Byte :=
  let p := physCol s c a col
  colBytes s c a p ++ [BitVec.ofNat 8 (expAt s c a p)] ++ natLE 2 (checkAt s c a p).toNat

/-- Address of the quench image of a die, and of the firmware copy. -/
def qimgBase (s : State) (die : Nat) : Nat := 2 ^ 20 * fld s (Reg.PWR_QIMG_BASE + 4 * die) 18 0
/-- The firmware copy. -/
def fwimgBase (s : State) : Nat := 2 ^ 20 * fld s Reg.PWR_FWIMG_BASE 18 0

/-- Logical columns of a die by number: cell, array, column. -/
def columnOf (i : Nat) : Nat × Nat × Nat := (i / 16384, i / 256 % 64, i % 256)

/-- The quench image of a die is written (R404). -/
def writeImage (die : Nat) (s : State) : State :=
  each (List.range 4194304) (fun i =>
    let k := columnOf i
    asyncWrite (qimgBase s die + 131 * i) (columnImage s (phys s die k.1) k.2.1 k.2.2)) s

/-- The verified firmware and configuration as they are copied, and the copy with its digest (R404; log 18). -/
def fwCopy (s : State) : List Byte := s.nvs.firmware ++ s.nvs.cfgBlock

/-- The firmware copy is written; its digest stays in the always-on domain (R404). -/
def writeFirmware (s : State) : State :=
  let d := digest (fwCopy s)
  asyncWrite (fwimgBase s) (fwCopy s ++ d) { s with pwr := { s.pwr with fwDigest := d } }

/-- Host ports go down (R309, R403). -/
def hostPortsDown (s : State) : State := each (List.range 4) (fun p => setFld (Reg.HST_PORT + 4 * p) 0 0 0) s

/-- Steps 1 to 3 of an entry, when its window has closed: DIM on every lit port and the lasers dark, host ports down, every cell to DOZE, the
quench image written (R403, R404). -/
def enterDeep (s : State) : State :=
  let s := hostPortsDown (each (List.range 48) darken s)
  let s := mapCells (fun c => { c with power := CellPower.doze }) s
  if s.pwr.deep = 2 then writeFirmware (each (List.range 4) writeImage s) else s

/-- The entry completes (R403 steps 5 and 6, R404, R406). -/
def completeEntry (s : State) : State :=
  let s := { s with pwr := { s.pwr with entryAt := none, during := decide (wakeCauses s ≠ 0) } }
  if s.pwr.deep = 1 then setFld Reg.PWR_STATUS 2 0 2 (railsLow [3, 2] s)
  else
    let s := setFld Reg.PWR_STATUS 7 7 1 (railsLow [3, 2, 1, 0] s)
    setFld Reg.PWR_STATUS 2 0 3 (loseDomains s)

/-- An entry goes on: its sequence begins six always-on cycles after the WAIT, and it completes on its cycle (R403). -/
def entryTick (s : State) : State :=
  match s.pwr.entryAt with
  | some t =>
    let s := if s.time.cycles = t + 6 then enterDeep s else s
    if s.pwr.entryEnd ≤ s.time.cycles then completeEntry s else s
  | none => s

end Sys2Proof.Machine
end

