-- ==== Sys2Proof/Machine/Burn.lean ====
section
/-! DEFINITION. What the Burnisher computes (08): elements addressed by descriptors, chain programs, permutation and gather, row
reductions and the soft maximum, beat by beat; and what a beat writes and reports. -/
namespace Sys2Proof.Machine

/-! ### Elements (R184, R185) -/

/-- Width in bits of an element. -/
def Desc.width (d : Desc) : Nat := if d.kind = 0 then (Fmt.ofCode d.fmt).width else if d.kind = 2 then 1 else 16

/-- Extent of a dimension. -/
def Desc.extent (d : Desc) (k : Nat) : Nat := (d.ext[k]?).getD 1

/-- Bit address of the element at indices `i`: 8 × base + width × (sub + L) (R185). -/
def Desc.bitAt (d : Desc) (i : List Nat) : Int :=
  (8 * d.base : Nat) + (d.width : Nat) * ((d.sub : Nat) + (i.zip d.str).foldl (fun (l : Int) p => l + (p.1 : Nat) * p.2) 0)

/-- The stored bits of an element. -/
def elemOf (s : State) (c : Nat) (d : Desc) (i : List Nat) : Nat :=
  let a := (d.bitAt i).toNat
  (leNat (spGet s c (a / 8) ((d.width + 7) / 8)) >>> (a % 8)) % 2 ^ d.width

/-- The bytes that a write of an element changes: address, mask and data (R185). -/
def elemBytes (d : Desc) (i : List Nat) (code : Nat) : List (Nat × Byte × Byte) :=
  let a := (d.bitAt i).toNat
  if d.width < 8 then [(a / 8, BitVec.ofNat 8 ((2 ^ d.width - 1) * 2 ^ (a % 8)), BitVec.ofNat 8 (code * 2 ^ (a % 8)))]
  else ((List.range (d.width / 8)).zip (natLE (d.width / 8) code)).map fun p => (a / 8 + p.1, 0xFF, p.2)

/-- Beats of a row, rows, and beats of a descriptor. -/
def Desc.rowBeats (d : Desc) : Nat := ceilDiv (d.extent 0) 64
/-- Rows. -/
def Desc.rows (d : Desc) : Nat := d.extent 1 * d.extent 2 * d.extent 3
/-- Beats. -/
def Desc.beats (d : Desc) : Nat := d.rows * d.rowBeats

/-- The counters i1, i2, i3 of a row in the looping order (R188). -/
def Desc.rowAt (d : Desc) (r : Nat) : List Nat :=
  [r % d.extent 1, r / d.extent 1 % d.extent 2, r / (d.extent 1 * d.extent 2)]

/-! ### Times (R181) -/

/-- Stage count s of a word. -/
def BurJob.stages (j : BurJob) : Nat :=
  if j.cls = 1 then j.prog.length else if j.cls = 4 then 3 else if j.cls = 5 then 4 else 2

/-- Beat count n of a word. -/
def BurJob.beats (j : BurJob) : Nat :=
  match j.cls with
  | 1 => j.out.beats
  | 2 => j.a.beats + j.out.beats
  | 3 => j.b.beats + j.out.beats
  | 4 => j.a.beats
  | _ => 3 * j.a.beats

/-- Beats read of the row buffer's source (PERMUTE) or of the indices (GATHER). -/
def BurJob.before (j : BurJob) : Nat := if j.cls = 2 then j.a.beats else if j.cls = 3 then j.b.beats else 0

/-- The row of a descriptor that serves a row of the loop: a dimension without a stride is taken at 0. -/
def Desc.rowFor (d : Desc) (row : List Nat) : Nat :=
  let at_ := fun (k : Nat) => if (d.str[k]?).getD 0 = 0 then 0 else (row[k - 1]?).getD 0
  at_ 1 + d.extent 1 * (at_ 2 + d.extent 2 * at_ 3)

/-- Source beats that must have been read before the output beats of output row `r` (R199, R200; log 13). -/
def BurJob.needs (j : BurJob) (r : Nat) : Nat :=
  if j.cls = 2 then j.a.rowBeats * ((List.range (r + 1)).foldl (fun m q => max m (j.a.rowFor (j.out.rowAt q) + 1)) 0)
  else
    let row := j.out.rowAt r
    ((row[1]?).getD 0 + j.out.extent 2 * (row[2]?).getD 0) * j.b.rowBeats + row.headD 0 / 64 + 1

/-- The tick on which output beat `q` is written (R181). -/
def BurJob.writeAt (j : BurJob) (q : Nat) : Nat := j.start + 6 + 4 * j.stages + j.beats + 1 + q - j.out.beats

/-! ### Lanes -/

/-- What a lane holds while a program runs: result, hold value, exception kinds in order (R196), overflows, sources read, table elements
read (R209), and the values that hk checks (R210). -/
structure LaneRun where
  x : F16
  h : F16
  excs : List Nat
  ovf : Nat
  seen : List Nat
  knots : List Nat
  vals : List CheckVal
  deriving DecidableEq, Repr

/-- A lane at the start of a beat. -/
def LaneRun.init : LaneRun := ⟨0, 0, [], 0, [], [], []⟩

/-- Takes over the exceptions of a result. -/
def LaneRun.note (l : Lane) (r : LaneRun) : LaneRun :=
  { r with
    excs := r.excs ++ (if l.nanin then [1] else []) ++ (if l.inv then [2] else [])
    ovf := r.ovf + (if l.ovf then 1 else 0) }

/-- A source code in its lane (R193, R196). -/
def codeLane (d : Desc) (code : Nat) : Lane :=
  let v := widen (Fmt.ofCode d.fmt) d.b code
  let x := BitVec.ofNat 16 v.code
  if isNaN x then ⟨nan16, true, false, false⟩ else ⟨x, false, false, v.ovf⟩

/-- The check of a source conversion (R210). -/
def sourceCheck (d : Desc) (code : Nat) : CheckVal :=
  moved (scaled (Fmt.ofCode d.fmt) d.b code) .f16 127 (codeLane d code).v.toNat

/-- A lane's exceptions and check of a source code that it takes. -/
def LaneRun.source (r : LaneRun) (d : Desc) (code : Nat) : LaneRun :=
  let r := r.note (codeLane d code)
  { r with vals := r.vals ++ [sourceCheck d code] }

/-- Operands that an operation takes (R191). -/
def arity (op : Nat) : Nat := ([1, 2, 2, 2, 3, 2, 2, 2, 1, 1, 1, 1, 1, 1, 1, 2, 3][op]?).getD 0

/-- The operand selectors of a stage; for stage 0 selector X is source A (R190). DESIGN CHOICE (log 113): a selector in a field that the
operation does not take names nothing. -/
def BurStage.sels (st : BurStage) (first : Bool) : List Nat :=
  (([st.p, st.q, st.r]).take (arity st.op)).map fun x => if first && x == 0 then 1 else x

/-- A scalar register of a word (R194). -/
def BurJob.scalar (j : BurJob) (k : Nat) : F16 := (j.scalars[k]?).getD 0

/-- The value of an operand selector (R190). -/
def operandOf (s : State) (j : BurJob) (i : List Nat) (st : BurStage) (sel : Nat) (r : LaneRun) : F16 × LaneRun :=
  let source := fun (d : Desc) =>
    let code := elemOf s j.cell d i
    ((codeLane d code).v, if r.seen.contains sel then r else { (r.source d code) with seen := sel :: r.seen })
  match sel with
  | 0 => (r.x, r)
  | 1 => source j.a
  | 2 => source j.b
  | 3 => source j.c
  | 4 =>
    let v := j.scalar st.sreg
    if isNaN v then (nan16, r.note ⟨nan16, true, false, false⟩) else (v, r)
  | 5 => (r.h, r)
  | 6 => (0x3F80, r)
  | _ => (0, r)

/-- The image of a table of pairs 8 to 15 as the word took it at its issue tick. -/
def tabImage (j : BurJob) (pair t : Nat) (k : Nat) : F16 := ((get (fun _ => ([] : List F16)) j.images (2 * pair + t))[k]?).getD nan16

/-- TAB1 (t = 0) and TAB2 (t = 1) of a pair (R205, R207). -/
def tabOf (j : BurJob) (pair t : Nat) (x : F16) : Lane :=
  if pair < 8 then pairEval pair t x else tableEval (tabImage j pair t) x

/-- The result of a stage operation (R191, R192). -/
def stageOp (j : BurJob) (st : BurStage) (x y z : F16) : Lane :=
  match st.op with
  | 0 => if isNaN x then .ok nan16 else .ok x
  | 1 => fAdd x y
  | 2 => fAdd x (if isNaN y then y else fNeg y)
  | 3 => fMul x y
  | 4 => fFma x y z
  | 5 => fDiv x y
  | 6 => fMax x y
  | 7 => fMin x y
  | 8 => fAbs x
  | 9 => fSqrt x
  | 10 => fRsq x
  | 11 => fExp x
  | 12 => fLog x
  | 13 => tabOf j st.pair 0 x
  | 14 => tabOf j st.pair 1 x
  | 15 => fGt x y
  | _ => fSel x y z

/-- The table elements that a stage reads (R209). -/
def stageKnots (j : BurJob) (st : BurStage) (x : F16) : List Nat :=
  if (st.op = 13 ∨ st.op = 14) ∧ 8 ≤ st.pair then
    let t := st.op - 13
    (tableUses (tabImage j st.pair t) x).map (1024 * (2 * st.pair + t) + ·)
  else []

/-- How a stage's result is checked: adders and multipliers by residue, the functions and the special values by a second evaluation (R210,
R334). -/
def stageCheck (op : Nat) (x y z v : F16) : CheckVal :=
  let d := dyF16
  if [x, y, z, v].any nonFinite then twiceCheck v
  else match op with
    | 1 => termCheck [[d x], [d y]] v
    | 2 => termCheck [[d x], [d (fNeg y)]] v
    | 3 => termCheck [[d x, d y]] v
    | 4 => termCheck [[d x, d y], [d z]] v
    | 0 | 6 | 7 | 8 | 15 | 16 => sumCheck [d v] v
    | _ => twiceCheck v

/-- One stage in a lane (R189 to R192). -/
def runStage (s : State) (j : BurJob) (i : List Nat) (first : Bool) (st : BurStage) (r : LaneRun) : LaneRun :=
  let ops := (st.sels first).foldl (fun (a : List F16 × LaneRun) sel =>
    let o := operandOf s j i st sel a.2
    (a.1 ++ [o.1], o.2)) (([] : List F16), r)
  let at_ := fun k => (ops.1[k]?).getD 0
  let l := stageOp j st (at_ 0) (at_ 1) (at_ 2)
  let r := ops.2.note l
  { r with x := l.v, h := if st.hold then l.v else r.h, knots := r.knots ++ stageKnots j st (at_ 0),
           vals := r.vals ++ [stageCheck st.op (at_ 0) (at_ 1) (at_ 2) l.v] }

/-- The program in a lane (R189). -/
def runChain (s : State) (j : BurJob) (i : List Nat) : LaneRun :=
  (((List.range j.prog.length).zip j.prog).foldl (fun r p => runStage s j i (p.1 == 0) p.2 r) LaneRun.init)

/-- Whether a lane is masked at innermost index `i0` of `e0` (R198). -/
def laneOff (j : BurJob) (e0 i0 : Nat) : Bool := decide (e0 ≤ i0) || bits j.lmask (i0 % 64) (i0 % 64) == 1

/-- A lane of a PERMUTE or GATHER: element `k` of `lim`, whose code is `code`, or the fill (R199 to R201); the index is checked (R210). -/
def moveLane (a : Desc) (k lim code : Nat) : LaneRun :=
  if lim ≤ k then { LaneRun.init with x := a.fill, excs := [3], vals := [indexCheck k] }
  else { (LaneRun.init.source a code) with x := (codeLane a code).v, vals := [indexCheck k, sourceCheck a code] }

/-- What the word has read under a position. -/
def BurJob.held (j : BurJob) (p : Nat) : Nat := get (fun _ => 0) j.buf p

/-- A lane of a PERMUTE: its source row lies in the row buffer (R199, R201). -/
def permuteLane (s : State) (j : BurJob) (i0 : Nat) (row : List Nat) : LaneRun :=
  let k := elemOf s j.cell j.b (i0 :: row)
  moveLane j.a k (j.a.extent 0) (j.held (256 * j.a.rowFor row + k))

/-- The number of an index element of a GATHER among those read. -/
def gatherIndex (j : BurJob) (row : List Nat) : Nat :=
  ((row[1]?).getD 0 + j.out.extent 2 * (row[2]?).getD 0) * (64 * j.b.rowBeats) + row.headD 0

/-- A lane of a GATHER: its index has been read (R200, R201). -/
def gatherLane (s : State) (j : BurJob) (i0 : Nat) (row : List Nat) : LaneRun :=
  let k := j.held (gatherIndex j row)
  moveLane j.a k (j.a.extent 1) (if k < j.a.extent 1 then elemOf s j.cell j.a (i0 :: k :: row.drop 1) else 0)

/-! ### Output (R193, R196) -/

/-- An empty report of a word. -/
def BurJob.empty (j : BurJob) : BurOut :=
  ⟨j.cell, j.die, j.lcell, j.cls, j.issued, j.evalSeg, j.checked, [], [], j.out.tid, [], [], false, 0, 0, []⟩

/-- The bytes, table elements and conversions of a lane's result written into the output element at indices `i` (R193). -/
def laneWrite (j : BurJob) (i : List Nat) (r : LaneRun) (o : BurOut) : BurOut :=
  if j.out.kind = 3 then
    { o with table := o.table ++ [(j.out.base * 1024 + i.headD 0, r.x)], ovf := o.ovf || decide (r.ovf > 0)
             vals := o.vals ++ [(moved (ofF16 r.x) .f16 127 r.x.toNat).at_ (.table j.cell (j.out.base * 1024 + i.headD 0))] }
  else
    let v := narrow (Fmt.ofCode j.out.fmt) j.out.b r.x
    let n := r.ovf + (if v.ovf then 1 else 0)
    { o with writes := o.writes ++ elemBytes j.out i v.code, convs := o.convs ++ [(r.x, n)], ovf := o.ovf || decide (n > 0)
             vals := o.vals ++ [(moved (ofF16 r.x) (Fmt.ofCode j.out.fmt) j.out.b v.code).at_ (.sp j.cell (j.out.bitAt i).toNat)] }

/-- A lane's result with its exceptions; the values of a word with hk are checked (R193, R196, R210). -/
def laneOut (j : BurJob) (i : List Nat) (lane beat : Nat) (r : LaneRun) (o : BurOut) : BurOut :=
  let o := laneWrite j i r { o with
    excs := o.excs ++ r.excs.map fun k => (k, lane, beat)
    oor := o.oor + (r.excs.filter (· == 3)).length
    vals := o.vals ++ r.vals }
  if j.hk then o else { o with vals := [] }

/-- The unmasked lanes of output beat `q` with their indices (R188, R198). -/
def beatLanesOf (j : BurJob) (q : Nat) : List (Nat × Nat × List Nat) :=
  let row := j.out.rowAt (q / j.out.rowBeats)
  (List.range 64).filterMap fun lane =>
    let i0 := 64 * (q % j.out.rowBeats) + lane
    if laneOff j (j.out.extent 0) i0 then none else some (lane, i0, row)

/-- The lanes of an output beat of a CHAIN, PERMUTE or GATHER, as they end. -/
def beatRuns (s : State) (j : BurJob) (q : Nat) : List (Nat × List Nat × LaneRun) :=
  (beatLanesOf j q).map fun p =>
    (p.1, p.2.1 :: p.2.2, match j.cls with
      | 1 => runChain s j (p.2.1 :: p.2.2)
      | 2 => permuteLane s j p.2.1 p.2.2
      | _ => gatherLane s j p.2.1 p.2.2)

/-- An output beat of a CHAIN, PERMUTE or GATHER. -/
def beatOut (j : BurJob) (q : Nat) (l : List (Nat × List Nat × LaneRun)) : BurOut :=
  l.foldl (fun o p => laneOut j p.2.1 p.1 q p.2.2 o) j.empty

/-! ### REDUCE (R202) -/

/-- The value of a row from its live elements, with the INV and OVF that forming it raises. -/
def reduceValue (op : Nat) (l : List F16) : Lane :=
  if l.isEmpty then .ok (if op = 2 then 0xFF80 else if op = 3 then 0x7F80 else 0)
  else if l.any isNaN then .ok nan16
  else match op with
    | 0 =>
      let p := l.any (· == 0x7F80)
      let n := l.any (· == 0xFF80)
      if p && n then .invalid else if p then .ok 0x7F80 else if n then .ok 0xFF80
      else .rounded (Dy.rne (Dy.sum (l.map dyF16)))
    | 1 => if l.any nonFinite then .ok 0x7F80 else .rounded (Dy.rne (Dy.sum (l.map fun x => (dyF16 x).mul (dyF16 x))))
    | 2 => .ok (l.foldl (fun m x => (fMax m x).v) (l.headD 0))
    | 3 => .ok (l.foldl (fun m x => (fMin m x).v) (l.headD 0))
    | _ => .ok (l.foldl (fun m x => (fMax m (x &&& 0x7FFF)).v) 0)

/-- The live elements of row `k` as the word has read them: position and code. -/
def rowHeld (j : BurJob) : List (Nat × Nat) :=
  ((List.range (j.a.extent 0)).filter fun i0 => !laneOff j (j.a.extent 0) i0).map fun i0 => (i0, j.held i0)

/-- The check of a row's value (R210): its exact sum, else the values compared. -/
def reduceCheck (op : Nat) (l : List F16) (v : F16) : CheckVal :=
  if l.any nonFinite || nonFinite v then twiceCheck v
  else match op with
    | 0 => sumCheck (l.map dyF16) v
    | 1 => termCheck (l.map fun x => [dyF16 x, dyF16 x]) v
    | _ => sumCheck [dyF16 v] v

/-- Row `k` of a REDUCE. A NaN is recorded at its own lane and input beat, an INV at the row's first live one (log 93: the spec does not say
which of a row's lanes and beats BUR_EXC_FIRST shows). -/
def reduceOut (j : BurJob) (k : Nat) : BurOut :=
  let row := j.a.rowAt k
  let held := rowHeld j
  let ls := held.map fun p => (p.1, codeLane j.a p.2)
  let xs := ls.map (·.2.v)
  let v := reduceValue j.op xs
  let beat := fun i0 => k * j.a.rowBeats + i0 / 64
  let nans := (ls.filter (·.2.nanin)).map fun p => (1, p.1 % 64, beat p.1)
  let first := (ls.head?).elim 0 (·.1)
  let inv := if v.inv then [(2, first % 64, beat first)] else []
  let n := (ls.filter (·.2.ovf)).length + (if v.ovf then 1 else 0)
  let vals := held.map (fun p => sourceCheck j.a p.2) ++ [reduceCheck j.op xs v.v]
  laneOut j (0 :: row) 0 k { LaneRun.init with x := v.v, ovf := n, vals := vals } { j.empty with excs := nans ++ inv }

/-! ### SOFTMAX (R203, R204) -/

/-- Whether a position is position-masked as pass `p` reads the mask (R203); mask bits lie in what the pass has read above the codes. -/
def posMasked (j : BurJob) (p i0 : Nat) (row : List Nat) : Bool :=
  (j.maskEn && j.held (131072 * p + 65536 + i0) == 1)
    || (j.triEn && decide (((row.headD 0 : Nat) : Int) + j.triOff < (i0 : Int)))

/-- A live position of a row: index, value and overflows so far. -/
abbrev Live := Nat × F16 × Nat

/-- The maximum of the live positions of a row (R204). -/
def softMax (l : List Live) : F16 := l.foldl (fun m p => (fMax m p.2.1).v) ((l.head?).elim 0xFF80 (·.2.1))

/-- The exponential of a value below the maximum `m`, by way of their difference. -/
def softExp (m x : F16) : F16 := (fExp (fAdd x (fNeg m)).v).v

/-- The exact sum of a row's exponentials. -/
def softSum (m : F16) (l : List Live) : Dy := Dy.sum (l.map fun p => dyF16 (softExp m p.2.1))

/-- The outputs of the live positions of a row without a NaN once scaled, `none` for an empty row (R204): `l` the row as its first pass reads
it, for the maximum, `l2` for the sum, `l3` for the division. -/
def softValues (l l2 l3 : List Live) : Option (List (Nat × F16)) :=
  let k := (l.filter fun p => p.2.1 == 0x7F80).length
  if k > 0 then some (l3.map fun p => (p.1, if p.2.1 == 0x7F80 then (rneF16 false 1 k 0).1 else 0))
  else
    let m := softMax l
    if m = 0xFF80 then none
    else
      let S := softSum m l2
      some (l3.map fun p =>
        let v := dyF16 (softExp m p.2.1)
        (p.1, if v.m = 0 then 0 else (rneF16 false v.m.natAbs S.m.natAbs (v.e - S.e)).1))

/-- Whether a SOFTMAX scales its input (R204). -/
def BurJob.scales (j : BurJob) : Bool := j.sreg != 63

/-- The live positions of a row with their values, scaled where the word scales. -/
def softLive (j : BurJob) (l : List (Nat × Lane)) : List Live :=
  l.map fun p =>
    let n := if p.2.ovf then 1 else 0
    if j.scales then let r := fMul p.2.v (j.scalar j.sreg); (p.1, r.v, n + (if r.ovf then 1 else 0)) else (p.1, p.2.v, n)

/-- What a row comes to from its three readings: live positions with their overflows, the values, exceptions as (kind, position), empty
rows. -/
def softRow (j : BurJob) (l l2 l3 : List (Nat × Lane)) : List Live × List (Nat × F16) × List (Nat × Nat) × Nat :=
  let live : List Live := l3.map fun p => (p.1, p.2.v, if p.2.ovf then 1 else 0)
  if l.isEmpty then (live, [], [], 1)
  else match l.find? fun p => isNaN p.2.v with
    | some p => (live, [], [(4, p.1)], 0)
    | none =>
      let sv := j.scalar j.sreg
      if j.scales && (nonFinite sv || !Dy.lt ⟨0, 0⟩ (dyF16 sv)) then
        (live, [], (if isNaN sv then l.map fun p => (1, p.1) else []) ++ [(2, (l.head?).elim 0 (·.1))], 0)
      else
        match softValues (softLive j l) (softLive j l2) (softLive j l3) with
        | some v => (softLive j l3, v, [], 0)
        | none => (softLive j l3, [], [], 1)

/-- The live positions of row `row` as pass `p` has read them (R203). -/
def softPass (j : BurJob) (row : List Nat) (p : Nat) : List (Nat × Lane) :=
  let e0 := j.a.extent 0
  ((List.range e0).filter fun i0 => !laneOff j e0 i0 && !posMasked j p i0 row).map fun i0 =>
    (i0, codeLane j.a (j.held (131072 * p + i0)))

/-- The checks of a live position of a SOFTMAX row with maximum `m` (R210): conversion and scaling, the difference, the exponential. -/
def softChecks (j : BurJob) (m : F16) (i0 : Nat) : List CheckVal :=
  let code := j.held (131072 * 2 + i0)
  let x := (codeLane j.a code).v
  let sv := j.scalar j.sreg
  let y := if j.scales then (fMul x sv).v else x
  let d := (fAdd y (fNeg m)).v
  sourceCheck j.a code :: (if j.scales then [stageCheck 3 x sv 0 y] else []) ++ [stageCheck 1 y (fNeg m) 0 d, stageCheck 11 d 0 0 (fExp d).v]

/-- The output beats of row `k` of a SOFTMAX, in order. An exception of a row is recorded at the lane that brings it, a row's INV at its first
live one, with the number of the output beat that holds that lane (log 93). The exponentials and the quotients are formed twice, the exact sum
is checked by its residue (R210). -/
def softOut (j : BurJob) (k : Nat) : List BurOut :=
  let row := j.a.rowAt k
  let e0 := j.a.extent 0
  let open_ := (List.range e0).filter fun i0 => !laneOff j e0 i0
  let l := softPass j row 0
  let l2 := softPass j row 1
  let l3 := softPass j row 2
  let r := softRow j l l2 l3
  let m := softMax (softLive j l)
  (List.range j.a.rowBeats).map fun b =>
    let beat := k * j.a.rowBeats + b
    let o := (open_.filter fun i0 => i0 / 64 == b).foldl (fun o i0 =>
      let v := ((r.2.1.find? fun p => p.1 == i0).map (·.2)).getD 0
      let n := ((r.1.find? fun p => p.1 == i0).map (·.2.2)).getD 0
      let src := if r.2.1.any (·.1 == i0) then softChecks j m i0 else []
      laneOut j (i0 :: row) (i0 % 64) beat { LaneRun.init with x := v, ovf := n, vals := src ++ [twiceCheck v] } o) j.empty
    { o with
      excs := ((r.2.2.1).filter fun p => p.2 / 64 == b).map fun p => (p.1, p.2 % 64, beat)
      empty := if b = 0 then r.2.2.2 else 0
      vals := (if b = 0 ∧ j.hk ∧ !r.2.1.isEmpty then [exactCheck (softSum m (softLive j l2))] else []) ++ o.vals }

/-! ### Beats (R181) -/

/-- What beat `k` of a word is: reading source beat `m` of its row buffer or row, or output beat `q`. -/
inductive Beat where
  | source (m : Nat)
  | output (q : Nat)
  deriving DecidableEq, Repr

/-- Beat `k` of a word: REDUCE reads input beat `k`; SOFTMAX reads each row three times; PERMUTE and GATHER read what an output row needs
before its beats (R181, R199; log 13). -/
def BurJob.beatAt (j : BurJob) (k : Nat) : Beat :=
  match j.cls with
  | 1 => .output k
  | 4 => .source k
  | 5 => .source (k / (3 * j.a.rowBeats) * j.a.rowBeats + k % j.a.rowBeats)
  | _ =>
    let q := k - j.got
    if q < j.out.beats ∧ j.needs (q / j.out.rowBeats) ≤ j.got then .output q else .source j.got

/-- The descriptor whose beats fill the word's row or its buffer. -/
def BurJob.filler (j : BurJob) : Desc := if j.cls = 3 then j.b else j.a

/-- The elements of source beat `m` of a descriptor that exist: position in their row, and indices. -/
def Desc.beatElems (d : Desc) (m : Nat) : List (Nat × List Nat) :=
  (List.range 64).filterMap fun lane =>
    let i0 := 64 * (m % d.rowBeats) + lane
    if i0 < d.extent 0 then some (i0, i0 :: d.rowAt (m / d.rowBeats)) else none

/-- Where a read element is held: in a row by position, for a SOFTMAX by pass too, in the buffers by row too. -/
def BurJob.place (j : BurJob) (m i0 : Nat) : Nat :=
  match j.cls with
  | 2 => 256 * (m / j.a.rowBeats) + i0
  | 3 => 64 * j.b.rowBeats * (m / j.b.rowBeats) + i0
  | 5 => 131072 * (j.got / j.a.rowBeats % 3) + i0
  | _ => i0

/-- Source beat `m` is read, and the mask bits of its positions with it (R203). -/
def readBeat (s : State) (m : Nat) (j : BurJob) : BurJob :=
  let put' := fun (b : SMap Nat) (p v : Nat) => put (fun _ => 0) b p v
  let buf := (j.filler.beatElems m).foldl (fun b p => put' b (j.place m p.1) (elemOf s j.cell j.filler p.2)) j.buf
  let buf := if j.cls = 5 ∧ j.maskEn then (j.a.beatElems m).foldl (fun b p => put' b (j.place m (65536 + p.1)) (elemOf s j.cell j.b p.2)) buf else buf
  { j with buf := buf, got := j.got + 1 }

/-- Source elements that a beat reads, as (descriptor, indices). -/
def beatReads (j : BurJob) : Beat → List (Desc × List Nat)
  | .source m => (j.filler.beatElems m).flatMap fun p => (j.filler, p.2) :: if j.cls = 5 ∧ j.maskEn then [(j.b, p.2)] else []
  | .output q =>
    let named := (((List.range j.prog.length).zip j.prog).flatMap fun p => p.2.sels (p.1 == 0))
    (beatLanesOf j q).flatMap fun p =>
      let i := p.2.1 :: p.2.2
      match j.cls with
        | 1 => ([(1, j.a), (2, j.b), (3, j.c)].filter fun d => named.contains d.1).map fun d => (d.2, i)
        | 2 => [(j.b, i)]
        | _ => let x := j.held (gatherIndex j p.2.2); if x < j.a.extent 1 then [(j.a, p.2.1 :: x :: p.2.2.drop 1)] else []

/-- Reads through the scratchpad's check bits what a beat reads (R337). -/
def beatEcc (j : BurJob) (b : Beat) (s : State) : State :=
  if (cellAt s j.cell).spBad.isEmpty then s
  else each (beatReads j b) (fun p s => spRead 4 j.cell ((p.1.bitAt p.2).toNat / 8) ((p.1.width + 7) / 8) s) s

/-- The rows that a source beat completes, as output beats: those of a SOFTMAX with the last beat of their third pass. -/
def rowsDone (j : BurJob) (m : Nat) : List (Nat × BurOut) :=
  let r := m / j.a.rowBeats
  if m % j.a.rowBeats + 1 ≠ j.a.rowBeats ∨ (j.cls = 5 ∧ j.got % (3 * j.a.rowBeats) ≠ 0) then []
  else if j.cls = 4 then [(r, reduceOut j r)]
  else if j.cls = 5 then ((List.range j.a.rowBeats).map (r * j.a.rowBeats + ·)).zip (softOut j r)
  else []

/-- Beat `k` of a word is read; what it completes is computed and put on its way, and the next beat follows (R181, R209). -/
def burUnit (j : BurJob) (k : Nat) (s : State) : State :=
  let b := j.beatAt k
  let s := beatEcc j b s
  let j' := match b with | .source m => readBeat s m j | _ => j
  let runs := match b with | .output q => beatRuns s j q | _ => []
  let outs := match b with
    | .source m => rowsDone j' m
    | .output q => [(q, beatOut j q runs)]
  let s := each (runs.flatMap (·.2.2.knots)) (fun x s => eccRead j.cell 5 x s) s
  let s := each outs (fun p s => launch (j.writeAt p.1) (.burWrite p.2) s) s
  if k + 1 < j.beats then launch (j.start + k + 1) (.bur j' (k + 1)) s else s

/-! ### What a beat's write does -/

/-- BUR_STICKY bit of an exception kind (R213). -/
def excBit (kind : Nat) : Nat := if kind = 4 then 4 else kind - 1

/-- An exception of a live lane: its sticky bit and BUR_EXC_FIRST (R196, R213, R214). -/
def burExc (c cls : Nat) (e : Nat × Nat × Nat) (s : State) : State :=
  let s := if fld s (cellKey c Reg.BUR_EXC_FIRST) 2 0 = 0 then
      wr (cellKey c Reg.BUR_EXC_FIRST) (e.1 + 8 * cls + 64 * e.2.1 + 4096 * (e.2.2 % 2 ^ 20)) s
    else s
  sticky (cellKey c Reg.BUR_STICKY) (excBit e.1) s

/-- Bits of a scratchpad byte change (R185). -/
def spMerge (c a : Nat) (m d : Byte) (s : State) : State :=
  spPut c a [get noByte (cellAt s c).sp a &&& ~~~m ||| (d &&& m)] s

/-- A beat is written and its events take effect (R185, R193, R196, R197, R206, R219). -/
def burWrite (o : BurOut) (s : State) : State :=
  let c := o.cell
  let s := each o.writes (fun p s => spMerge c p.1 p.2.1 p.2.2 s) s
  let s := each o.table (fun p s =>
    eccWrite c 5 p.1 (onCell c (fun x => { x with tables := put (fun _ => 0x7FC0) x.tables p.1 p.2 }) s)) s
  let s := noteConvs o.tid o.convs o.evalSeg o.issued s
  let s := if o.ovf then sticky (cellKey c Reg.BUR_STICKY) 3 s else s
  let s := bumpFld (cellKey c Reg.BUR_OOR_COUNT) 31 0 o.oor (bumpFld (cellKey c Reg.BUR_EMPTYROW) 31 0 o.empty s)
  let s := each o.excs (burExc c o.cls) s
  let s := if o.cls = 6 ∧ o.excs.any (fun e => decide (e.1 ≤ 2)) then { s with run := { s.run with updNonfin := true } } else s
  let s := noteCheck 4 c o.vals s
  if o.checked && !o.excs.isEmpty then
    jobFaultRec Reg.BUR_EXC_FIRST (placeLoc 4 o.die o.lcell) (rd s (cellKey c Reg.BUR_EXC_FIRST)) (sticky (cellKey c Reg.BUR_STICKY) 8 s)
  else s

end Sys2Proof.Machine
end

