-- ==== Sys2Proof/Machine/Update.lean ====
section
/-! DEFINITION. What a BUR UPDATE computes (09, R228 to R232): exact expressions with the special values of R192, each rounded once. -/
namespace Sys2Proof.Machine

/-! ### Exact expressions over F16 operands -/

/-- An exact value with the special values of R192; `inv` says that forming it made a NaN of operands that were none. -/
structure Ex where
  v : FV
  d : Dy
  inv : Bool
  deriving DecidableEq, Repr

/-- The finite exact value. -/
def Ex.fin (d : Dy) : Ex := ⟨.fin false 0 0, d, false⟩

/-- The exact value of an F16 operand. -/
def Ex.of (x : F16) : Ex :=
  match ofF16 x with
  | .nan => ⟨.nan, ⟨0, 0⟩, false⟩
  | .inf neg => ⟨.inf neg, ⟨0, 0⟩, false⟩
  | _ => .fin (dyF16 x)

/-- An exact sum. -/
def Ex.add (a b : Ex) : Ex :=
  let i := a.inv || b.inv
  match a.v, b.v with
  | .nan, _ | _, .nan => ⟨.nan, ⟨0, 0⟩, i⟩
  | .inf x, .inf y => if x = y then ⟨.inf x, ⟨0, 0⟩, i⟩ else ⟨.nan, ⟨0, 0⟩, true⟩
  | .inf x, _ | _, .inf x => ⟨.inf x, ⟨0, 0⟩, i⟩
  | _, _ => ⟨.fin false 0 0, a.d.add b.d, i⟩

/-- An exact product. -/
def Ex.mul (a b : Ex) : Ex :=
  let i := a.inv || b.inv
  match a.v, b.v with
  | .nan, _ | _, .nan => ⟨.nan, ⟨0, 0⟩, i⟩
  | .inf x, .inf y => ⟨.inf (x != y), ⟨0, 0⟩, i⟩
  | .inf x, _ => if b.d.m = 0 then ⟨.nan, ⟨0, 0⟩, true⟩ else ⟨.inf (x != decide (b.d.m < 0)), ⟨0, 0⟩, i⟩
  | _, .inf x => if a.d.m = 0 then ⟨.nan, ⟨0, 0⟩, true⟩ else ⟨.inf (x != decide (a.d.m < 0)), ⟨0, 0⟩, i⟩
  | _, _ => ⟨.fin false 0 0, a.d.mul b.d, i⟩

/-- An exact negation. -/
def Ex.neg (a : Ex) : Ex := (Ex.fin ⟨-1, 0⟩).mul a

/-- An exact sum of a list. -/
def Ex.sum (l : List Ex) : Ex := l.foldl Ex.add (.fin ⟨0, 0⟩)

/-- A value divided by 2^k. -/
def Ex.shift (k : Int) (a : Ex) : Ex := { a with d := ⟨a.d.m, a.d.e - k⟩ }

/-- rne() of R228. -/
def Ex.rne (a : Ex) : Lane :=
  match a.v with
  | .nan => ⟨nan16, false, a.inv, false⟩
  | .inf neg => ⟨inf16 neg, false, a.inv, false⟩
  | _ => let r := Dy.rne a.d; ⟨r.1, false, a.inv, r.2⟩

/-- rne() of a quotient; a divisor 0 follows R192. -/
def Ex.divRne (a b : Ex) : Lane :=
  let i := a.inv || b.inv
  match a.v, b.v with
  | .nan, _ | _, .nan => ⟨nan16, false, i, false⟩
  | .inf _, .inf _ => ⟨nan16, false, true, false⟩
  | .inf x, _ => ⟨inf16 (x != decide (b.d.m < 0)), false, i, false⟩
  | _, .inf _ => ⟨0, false, i, false⟩
  | _, _ =>
    if b.d.m = 0 then (if a.d.m = 0 then ⟨nan16, false, true, false⟩ else ⟨inf16 (a.d.m < 0), false, i, false⟩)
    else if a.d.m = 0 then ⟨0, false, i, false⟩
    else
      let r := rneF16 (decide (a.d.m < 0) != decide (b.d.m < 0)) a.d.m.natAbs b.d.m.natAbs (a.d.e - b.d.e)
      ⟨r.1, false, i, r.2⟩

/-- A source value as read: a NaN raises NANIN (R196). -/
def readLane (x : F16) : Lane := if isNaN x then ⟨nan16, true, false, false⟩ else .ok x

/-! ### Blocks -/

/-- Element position of (i, j) in a 256 × 256 block of the blocked layout (R162); position 64q + l is lane l of beat q. -/
def blockPos (i j : Nat) : Nat := ((i / 64 * 4 + j / 64) * 64 + i % 64) * 64 + j % 64

/-- Elements of a block in a format, by (i, j): code at its position. -/
def blockCode (s : State) (c addr fmt i j : Nat) : Nat :=
  let p := blockPos i j
  if fmt = 0 then leNat (spGet s c (addr + 2 * p) 2)
  else if fmt = 3 then ((spGet s c (addr + p / 2) 1).headD 0).toNat / (if p % 2 = 0 then 1 else 16) % 16
  else ((spGet s c (addr + p) 1).headD 0).toNat

/-- Bytes of a block in a format. -/
def blockBytes (fmt : Nat) : Nat := if fmt = 0 then 131072 else if fmt = 3 then 32768 else 65536

/-- A column or row of results by index. -/
def at16 (l : List F16) (i : Nat) : F16 := (l[i]?).getD 0

/-- A hyperparameter of an UPDATE: 0 lr, 1 b1, 2 b2, 3 e1, 4 d, 5 lam, 6 gs. -/
def UpdJob.h (j : UpdJob) (k : Nat) : F16 := at16 j.hyp k

/-- Whether the hyperparameters meet R230. -/
def hypOk (h : List F16) : Bool :=
  let x := fun k => dyF16 (at16 h k)
  let zero : Dy := ⟨0, 0⟩
  let one : Dy := ⟨1, 0⟩
  !h.any nonFinite && Dy.le zero (x 0) && Dy.le zero (x 1) && Dy.le (x 1) one && Dy.le zero (x 2) && Dy.le (x 2) one
    && Dy.lt zero (x 3) && Dy.lt zero (x 4) && Dy.le zero (x 5) && decide ((x 6).m ≠ 0)

/-- 1 − x, exact. -/
def oneMinus (x : F16) : Ex := (Ex.fin ⟨1, 0⟩).add (Ex.of x).neg

/-- New statistic of a row or column from its old value and its gradients (R228). -/
def statOf (j : UpdJob) (old : F16) (g : List F16) : Lane :=
  let sum := Ex.sum (g.map fun x => ((Ex.of x).mul (Ex.of x)).add (Ex.of (j.h 3)))
  (readLane old).andThen fun o => (((Ex.of (j.h 2)).mul (Ex.of o)).add ((oneMinus (j.h 2)).mul (sum.shift 8))).rne

/-- The root of the mean square of the steps (R228). -/
def rmsOf (u : List F16) : Lane :=
  let m := (Ex.sum (u.map fun x => (Ex.of x).mul (Ex.of x))).shift 16
  match m.v with
  | .nan => ⟨nan16, false, m.inv, false⟩
  | .inf _ => .ok 0x7F80
  | _ =>
    if m.d.m = 0 then .ok 0
    else let r := sqrtApprox m.d.m.natAbs 1 m.d.e; .rounded (rneF16 false r.1 1 r.2)

/-- A gradient code converted and scaled (R193, R228). -/
def scaledGrad (j : UpdJob) (code : Nat) : Lane :=
  let v := widen (Fmt.ofCode j.gFmt) j.gB code
  ((readLane (BitVec.ofNat 16 v.code)).andThen fun x => ⟨x, false, false, v.ovf⟩).andThen fun x => fMul x (j.h 6)

/-- Row `i` and column `k` of the gradients that a pass has read, in the order of the block (R162). -/
def gradRow (j : UpdJob) (codes : Array Nat) (i : Nat) : List F16 :=
  (List.range 256).map fun k => (scaledGrad j ((codes[blockPos i k]?).getD 0)).v
/-- Its column `k`. -/
def gradCol (j : UpdJob) (codes : Array Nat) (k : Nat) : List F16 :=
  (List.range 256).map fun i => (scaledGrad j ((codes[blockPos i k]?).getD 0)).v

/-- What pass 1 comes to: the new statistics and the mean of those of the rows (R228). -/
def passOne (j : UpdJob) (rs cs : List F16) : List Lane × List Lane × Lane :=
  let codes := j.read.toArray
  let rn := (List.range 256).map fun i => statOf j (at16 rs i) (gradRow j codes i)
  let cn := (List.range 256).map fun k => statOf j (at16 cs k) (gradCol j codes k)
  (rn, cn, ((Ex.sum (rn.map fun x => Ex.of x.v)).shift 8).rne)

/-- The quotient rn × cn / rm of element (i, k) and its root (R228). -/
def stepRoot (st : List Lane × List Lane × Lane) (i k : Nat) : Lane × Lane :=
  let at_ := fun (l : List Lane) (i : Nat) => ((l[i]?).getD (.ok 0)).v
  let r := ((Ex.of (at_ st.1 i)).mul (Ex.of (at_ st.2.1 k))).divRne (Ex.of st.2.2.v)
  (r, r.andThen fRsq)

/-- The step of element (i, k) before clipping (R228). -/
def stepOf (j : UpdJob) (st : List Lane × List Lane × Lane) (code i k : Nat) : Lane :=
  (stepRoot st i k).2.andThen fun r => ((Ex.of (scaledGrad j code).v).mul (Ex.of r)).rne

/-- The element (i, k) at position `p` of a block (R162). -/
def posElem (p : Nat) : Nat × Nat := (p / 16384 * 64 + p / 64 % 64, p / 4096 % 4 * 64 + p % 64)

/-- What pass 2 comes to: the RMS of the steps, the clipping factor, and whether it clips (R228). -/
def passTwo (j : UpdJob) (st : List Lane × List Lane × Lane) : F16 × Lane × Bool :=
  let u := ((List.range j.read.length).zip j.read).map fun p => (stepOf j st p.2 (posElem p.1).1 (posElem p.1).2).v
  let q := rmsOf u
  let clipped := !isNaN q.v && (nonFinite q.v || Dy.lt (dyF16 (j.h 4)) (dyF16 q.v))
  (q.v, if clipped || isNaN q.v then q.andThen fun x => (Ex.of (j.h 4)).divRne (Ex.of x) else { q with v := 0x3F80 }, clipped)

/-- w4() of R230: the code, and whether it was clamped; an infinite weight clamps too. -/
def w4 (wn : F16) (e : Nat) : Nat × Bool :=
  let c := narrow .a4 e wn
  (c.code, c.ovf || (nonFinite wn && !isNaN wn))

/-- Element (i, k) of the second half of R228 from its step `u` and the clipping factor `clip`; `seed` and `rng` as R143 names them. -/
def elemUpdate (j : UpdJob) (u clip : F16) (seed rng i k : Nat) (W M : F16) (e : Nat) (kept : Bool) : Elem :=
  if !kept then let c := w4 W e; ⟨M, W, c.1, c.2, false, .ok 0⟩
  else
    let mn := (readLane M).andThen fun x =>
      (((Ex.of (j.h 1)).mul (Ex.of x)).add (((oneMinus (j.h 1)).mul (Ex.of u)).mul (Ex.of clip))).rne
    let w := readLane W
    let x := (Ex.of w.v).add ((Ex.of (j.h 0)).mul ((Ex.of mn.v).add ((Ex.of (j.h 5)).mul (Ex.of w.v)))).neg
    let r : F16 × Bool := match x.v with
      | .nan => (nan16, false)
      | .inf neg => (inf16 neg, false)
      | _ =>
        match sroundAt x.d seed rng j.wTid ((j.r0 + i) % 2 ^ 24 * 2 ^ 24 + (j.c0 + k) % 2 ^ 24) 2 with
        | some v => (v, false)
        | none => (satAcc (decide (x.d.m < 0)), true)
    let c := w4 r.1 e
    ⟨mn.v, r.1, c.1, c.2, r.2, ⟨r.1, mn.nanin || w.nanin, mn.inv || x.inv, mn.ovf || r.2⟩⟩

/-! ### Writing the results -/

/-- Exceptions of a lane at element position `p` (R196). -/
def excsAt (l : Lane) (p : Nat) : List (Nat × Nat × Nat) :=
  (if l.nanin then [(1, p % 64, p / 64)] else []) ++ (if l.inv then [(2, p % 64, p / 64)] else [])

/-- The ledger entry (R232). -/
def ledgerEntry (rng layer wtid wsq gsq usq q clamps sat flags kept ver : Nat) : List Byte :=
  natLE 4 rng ++ natLE 2 layer ++ natLE 2 wtid ++ natLE 2 wsq ++ natLE 2 gsq ++ natLE 2 usq ++ natLE 2 q ++ natLE 4 clamps
    ++ natLE 2 (min sat 65535) ++ natLE 1 flags ++ natLE 1 kept ++ natLE 4 ver ++ natLE 4 0

/-- A ledger entry that is not applied (R222, R230, R232). -/
def ledgerOnly (s : State) (j : UpdJob) (flags : Nat) : List Byte :=
  ledgerEntry (rngStep s) j.layer j.wTid 0 0 0 0 0 0 flags 0 (rd s Reg.SCH_VERSION + 1)

/-- The report of an UPDATE with nothing in it. -/
def UpdJob.empty (j : UpdJob) : BurOut :=
  ⟨j.cell, j.die, j.lcell, 6, j.issued, false, j.checked, [], [], 0xFFFF, [], [], false, 0, 0, []⟩

/-- The sum of squares of a list, rounded once (R232). -/
def squares (l : List F16) : Nat := ((Ex.sum (l.map fun x => (Ex.of x).mul (Ex.of x))).rne.v).toNat

/-- A 16-bit element as bytes to be written whole. -/
def write16 (a : Nat) (v : F16) : List (Nat × Byte × Byte) := [(a, 0xFF, BitVec.ofNat 8 v.toNat), (a + 1, 0xFF, BitVec.ofNat 8 (v.toNat / 256))]

/-- The element codes of beat `b` of a block in a format, in lane order: positions 64b to 64b + 63 (R162). -/
def beatCodes (s : State) (c addr fmt b : Nat) : List Nat :=
  (List.range 64).map fun l => let e := posElem (64 * b + l); blockCode s c addr fmt e.1 e.2

/-- The bytes of beat `b` of a block, read through their check bits (R337). -/
def beatRead (c addr fmt b : Nat) (s : State) : State :=
  let n := blockBytes fmt / 1024
  spRead 4 c (addr + n * b) n s

/-- An element of a beat of pass 3: its position, gradient as read and as scaled, step, old weight and moment, and what it comes to. -/
structure UpdLane where
  pos : Nat
  code : Nat
  g : Lane
  u : Lane
  w : F16
  m : F16
  out : Elem
  deriving DecidableEq, Repr

/-- Beat `b` of pass 3 (R228). -/
def beatThree (s : State) (j : UpdJob) (st : List Lane × List Lane × Lane) (clip : F16) (b : Nat) : List UpdLane :=
  let codes := beatCodes s j.cell j.gAddr j.gFmt b
  let ws := (beatCodes s j.cell j.wAddr 0 b).map (BitVec.ofNat 16)
  let ms := (beatCodes s j.cell j.mAddr 0 b).map (BitVec.ofNat 16)
  ((List.range 64).zip (codes.zip (ws.zip ms))).map fun p =>
    let pos := 64 * b + p.1
    let e := posElem pos
    let u := stepOf j st p.2.1 e.1 e.2
    let exp := ((spGet s j.cell (j.expAddr + e.2) 1).headD 0).toNat
    let kept := (j.kept[4 * (e.1 / 64) + e.2 / 64]?).getD true
    ⟨pos, p.2.1, scaledGrad j p.2.1, u, p.2.2.1, p.2.2.2,
      elemUpdate j u.v clip (jobSeed s) (rngStep s) e.1 e.2 p.2.2.1 p.2.2.2 exp kept⟩

/-- The lanes of output beat `b`, each with its element position, in the order in which R228 forms them. -/
def beatLanes (st : List Lane × List Lane × Lane) (clip : Lane) (b : Nat) (l : List UpdLane) : List (Nat × Lane) :=
  let stat := fun (ls : List Lane) (i : Nat) => (ls[i]?).getD (.ok 0)
  (l.map fun x => (x.pos, x.g))
    ++ ((l.filter fun x => (posElem x.pos).2 == 0).map fun x => (x.pos, stat st.1 (posElem x.pos).1))
    ++ ((l.filter fun x => (posElem x.pos).1 == 0).map fun x => (x.pos, stat st.2.1 (posElem x.pos).2))
    ++ (if b = 0 then [(0, st.2.2)] else [])
    ++ (l.map fun x => (x.pos, x.u))
    ++ (if b = 0 then [(0, clip)] else [])
    ++ l.map fun x => (x.pos, x.out.lane)

/-- The checks of a beat of an UPDATE with hk: gradients from their codes, quotients and roots formed twice, steps, moments, weights and codes
(R210, R226, R334). -/
def updateChecks (j : UpdJob) (s : State) (st : List Lane × List Lane × Lane) (clip : F16) (l : List UpdLane) : List CheckVal :=
  l.flatMap fun x =>
    let d := dyF16
    let i := posElem x.pos
    let kept := (j.kept[4 * (i.1 / 64) + i.2 / 64]?).getD true
    let e := ((spGet s j.cell (j.expAddr + i.2) 1).headD 0).toNat
    let g := BitVec.ofNat 16 (widen (Fmt.ofCode j.gFmt) j.gB x.code).code
    let r := stepRoot st i.1 i.2
    let code := (moved (ofF16 x.out.wn) .a4 e x.out.code).at_ (.sp j.cell (8 * (j.codeAddr + 128 * i.2) + 4 * i.1))
    [moved (scaled (Fmt.ofCode j.gFmt) j.gB x.code) .f16 127 g.toNat, laneCheck [g, j.h 6] [[d g, d (j.h 6)]] x.g.v,
      twiceCheck r.1.v, twiceCheck r.2.v, laneCheck [x.g.v, r.2.v] [[d x.g.v, d r.2.v]] x.u.v]
      ++ (if kept then
        [(laneCheck [x.m, x.u.v, clip] [[d (j.h 1), d x.m], [(oneMinus (j.h 1)).d, d x.u.v, d clip]] x.out.mn).at_
          (.sp j.cell (8 * (j.mAddr + 2 * x.pos))),
         (laneCheck [x.w, x.out.mn] [[d x.w], [⟨-1, 0⟩, d (j.h 0), d x.out.mn], [⟨-1, 0⟩, d (j.h 0), d (j.h 5), d x.w]] x.out.wn).at_
          (.sp j.cell (8 * (j.wAddr + 2 * x.pos)))]
        else []) ++ [code]

/-- The terms of a statistic of a row or column (R228). -/
def statTerms (j : UpdJob) (old : F16) (g : List F16) : List (List Dy) :=
  let d := dyF16
  let c := [(oneMinus (j.h 2)).d, ⟨1, -8⟩]
  [d (j.h 2), d old] :: g.flatMap fun x => [c ++ [d x, d x], c ++ [d (j.h 3)]]

/-- The sum of squares of a list as a check of its rounding `v` (R232, R334). -/
def squaresCheck (l : List F16) (v : Nat) : CheckVal := laneCheck l (l.map fun x => [dyF16 x, dyF16 x]) (BitVec.ofNat 16 v)

/-- The checks of the sums of an UPDATE with hk: the statistics and their mean, the mean square of the steps, its root and the clipping
factor, and the ledger's sums (R226, R228, R232, R334); `codes` are the gradient codes of its passes, `led` the ledger's three sums. All are
checked on the tick on which statistics and ledger are written (log 100). -/
def sumChecks (j : UpdJob) (st : List Lane × List Lane × Lane) (old : List F16) (q : F16 × Lane) (led : Nat × Nat × Nat) : List CheckVal :=
  let d := dyF16
  let codes := j.read.toArray
  let stat := fun (n : Nat) (l : List Lane) (g : Nat → List F16) => ((List.range 256).zip l).map fun p =>
    let o := at16 old (n + p.1)
    (laneCheck (o :: g p.1) (statTerms j o (g p.1)) p.2.v).at_ (.sp j.cell (8 * (j.sAddr + 2 * (n + p.1))))
  let us := ((List.range j.read.length).zip j.read).map fun p => (stepOf j st p.2 (posElem p.1).1 (posElem p.1).2).v
  let ws := j.done.map (·.2.2.wn)
  let dws := j.done.map fun p => [(Ex.of p.2.2.wn).add (Ex.of p.2.1).neg]
  stat 0 st.1 (gradRow j codes) ++ stat 256 st.2.1 (gradCol j codes)
    ++ [laneCheck (st.1.map (·.v)) (st.1.map fun x => [d x.v, ⟨1, -8⟩]) st.2.2.v,
      exactCheck (Dy.sum (us.map fun x => (d x).mul (d x))), twiceCheck q.1, twiceCheck q.2.v,
      squaresCheck ws led.1, squaresCheck (j.done.map (·.1)) led.2.1,
      laneCheck ws (dws.map fun x => x.flatMap fun e => [e.d, e.d]) (BitVec.ofNat 16 led.2.2)]

/-- The output beat `b` of an UPDATE (R225, R230). -/
def updateBeat (j : UpdJob) (s : State) (st : List Lane × List Lane × Lane) (clip : Lane) (b : Nat) (l : List UpdLane) : BurOut :=
  let ls := beatLanes st clip b l
  { j.empty with
    writes := l.flatMap fun x =>
      let e := posElem x.pos
      write16 (j.mAddr + 2 * x.pos) x.out.mn ++ write16 (j.wAddr + 2 * x.pos) x.out.wn
        ++ [(j.codeAddr + 128 * e.2 + e.1 / 2, if e.1 % 2 = 0 then 0x0F else 0xF0,
             BitVec.ofNat 8 (x.out.code * (if e.1 % 2 = 0 then 1 else 16)))]
    excs := ls.flatMap fun p => excsAt p.2 p.1
    ovf := ls.any (·.2.ovf)
    vals := if j.hk then updateChecks j s st clip.v l else [] }

/-- The ledger entry and the statistics of an UPDATE whose every element is formed (R225, R232). -/
def updateEnd (j : UpdJob) (st : List Lane × List Lane × Lane) (q : F16 × Lane × Bool) (s : State) : State :=
  let last := j.start + 3110
  let wn := j.done.map (·.2.2.wn)
  let dw := fun (p : F16 × F16 × Elem) => (Ex.of p.2.2.wn).add (Ex.of p.2.1).neg
  let usq := (Ex.sum (j.done.map fun p => (dw p).mul (dw p))).rne.v.toNat
  let sums := (squares wn, squares (j.done.map (·.1)), usq)
  let flag := fun (l : Lane) => l.nanin || l.inv
  let bad := j.bad || (st.1 ++ st.2.1).any flag || flag st.2.2 || flag q.2.1
  let led := ledgerEntry (rngStep s) j.layer j.wTid sums.1 sums.2.1 usq q.1.toNat
    (j.done.filter (·.2.2.clamp)).length (j.done.filter (·.2.2.sat)).length
    (1 + (if q.2.2 then 2 else 0) + (if bad then 4 else 0)) (j.kept.filter (· == true)).length (rd s Reg.SCH_VERSION + 1)
  let old := (chunks 2 512 (spGet s j.cell j.sAddr 1024)).map fun b => BitVec.ofNat 16 (leNat b)
  let s := if j.hk then launch last (.check 4 j.cell (sumChecks j st old (q.1, q.2.1) sums)) s else s
  launch last (.sp j.cell j.sAddr ((st.1 ++ st.2.1).flatMap fun v => natLE 2 v.v.toNat)) (launch last (.sp j.cell (j.rec_ + 0x40) led) s)

/-- The beat after `k` follows on the next tick. -/
def updateNext (k : Nat) (j : UpdJob) (s : State) : State := launch (j.start + k + 1) (.update j (k + 1)) s

/-- Beat `k` of an UPDATE: pass 1 reads the gradient on T to T + 1,023 and the old statistics with its last beat, pass 2 the gradient again,
pass 3 the gradient, master and moment blocks with the exponents, whose output beats follow 39 ticks later (R225, R228; log 13). -/
def updateRun (j : UpdJob) (k : Nat) (s : State) : State :=
  let c := j.cell
  let b := k % 1024
  let s := beatRead c j.gAddr j.gFmt b s
  let j := { j with read := (if b = 0 then [] else j.read) ++ beatCodes s c j.gAddr j.gFmt b }
  if k < 1023 then updateNext k j s
  else if k = 1023 then
    let s := spRead 4 c j.sAddr 1024 s
    let st := (chunks 2 512 (spGet s c j.sAddr 1024)).map fun b => BitVec.ofNat 16 (leNat b)
    updateNext k { j with stats := passOne j (st.take 256) (st.drop 256) } s
  else
    match j.stats with
    | none => s
    | some st =>
      if k < 2047 then updateNext k j s
      else if k = 2047 then updateNext k { j with clip := passTwo j st } s
      else
        match j.clip with
        | none => s
        | some q =>
          let s := beatRead c j.mAddr 0 b (beatRead c j.wAddr 0 b s)
          let l := beatThree s j st q.2.1.v b
          let flag := fun (x : Lane) => x.nanin || x.inv
          let j := { j with
            done := j.done ++ l.map fun x => (x.g.v, x.w, x.out)
            bad := j.bad || l.any fun x => flag x.g || flag x.u || flag x.out.lane }
          let s := launch (j.start + 2087 + b) (.burWrite (updateBeat j s st q.2.1 b l)) s
          if k < 3071 then updateNext k j s else updateEnd j st q s

end Sys2Proof.Machine
end

