-- ==== Sys2Proof/Machine/Land.lean ====
section
/-! DEFINITION. What operations in flight do when they land (R52): everything due on a tick, accumulator additions grouped by slot. -/
namespace Sys2Proof.Machine

/-- A line of a stream arrives: its words join the stream buffer of the period that asked for them (R44, R254); a displaced one is delivered
as uncorrectable (R250). -/
def fetchLands (key k a n start : Nat) (ue : Bool) (s : State) : State :=
  if s.run.on && s.run.start == start then
    let words := (List.range n).map fun i => (k + i, BitVec.ofNat 128 (dramNat s (a + 16 * i) 16))
    let st := get (fun _ => Stream.init) s.streams key
    let s :=
      { s with streams := put (fun _ => Stream.init) s.streams key { st with words := st.words ++ words.filter fun x => decide (st.issued ≤ x.1) } }
    if ue then recordRead (a / 64 * 64) 2 true s else dramRead (a / 64 * 64) true s
  else s

/-- A register write of the crossbar takes effect (R37, R478). -/
def regWriteLands (k mask v : Nat) (s : State) : State :=
  let s := wr k ((rd s k &&& (2 ^ 32 - 1 - mask)) ||| (v &&& mask)) s
  if k = Reg.PWR_STRETCH then localLevel s else s

/-- The forge's combined byte of a level-2 BARRIER joins those that the MARK of its window carries (R294, R295). -/
def forgeByte (commit : Bool) (s : State) : State :=
  match (if commit then s.run.commit else s.run.veto) with
  | none => s
  | some b =>
    let v := b.before 3
    let w := s.fab.winBytes
    { s with fab := { s.fab with winBytes := if commit then (w.1, w.2 ||| v) else (w.1 ||| v, w.2) } }

/-- What one effect does on its tick; accumulator additions are grouped by landAll. -/
def landEffect (e : Effect) (s : State) : State :=
  match e with
  | .sp c a d => spPut c a d s
  | .bur j k => burUnit j k s
  | .burWrite o => burWrite o s
  | .update j k => updateRun j k s
  | .dram a d bad => dramLine a d bad s
  | .tree _ _ _ _ => s
  | .drain c t a land clear hk q => drainRead c t a land clear hk q s
  | .check unit place vals => noteCheck unit place vals s
  | .moveLine c src dc dst land =>
    launch land (.spLine dc dst (spGet s c src 64) (spMarks s c src)) s
  | .spLine c a d marks => spArrive 5 c a d marks s
  | .rxRead port c m => rxRead port c m s
  | .notice port poison fault => noticeFlag port poison fault s
  | .loadLine c dst src land ue =>
    let m := if ue then 2 else outcomeOf s (lineOf src)
    let s := launch land (.sp c dst (dramGet s src 64)) (recordRead src m true s)
    if 1 < m then launch land (.spBad c dst) s else s
  | .fetch key k a n start ue => fetchLands key k a n start ue s
  | .regWrite k m v => regWriteLands k m v s
  | .sregWrite d g r v => setSreg d g r v s
  | .storeLine c src dst ue =>
    let bad := spBadIn s c src 64 || ue
    dramLine dst (spGet s c src 64) bad (spRead 5 c src 64 s)
  | .spBad c a => spTaintLine c a s
  | .violation bit unit die wh => viol bit unit die wh s
  | .starve => jobFault s
  | .fillVerdict die slot ok => fillVerdict die slot ok s
  | .anvDrain c i a p kept e hk t => anvDrained c i a p kept e hk t s
  | .verdict die cell a swept fails latched => landVerdict die cell a swept fails latched s
  | .trims c a => bringTrims c a s
  | .handoff die cell a passed => applyHandoff die cell a passed s
  | .linkSend c a n port ring =>
    portSent port (slotFlits port ring ((chunks 256 n (spGet s c a (256 * n))).map some) (spRead 6 c a (256 * n) s))
  | .linkRelay port d => if d.any Option.isSome then portSent port (slotFlits port 0 d s) else slotFlits port 0 d s
  | .recvAdd c a f b dst t e hk d => recvAddFlit c a f b dst t e hk d s
  | .barForge commit => forgeByte commit s

/-- An effect whose tick has come happens at once; a later one is put in flight. -/
def launchOrLand (due : Nat) (e : Effect) (s : State) : State := if due ≤ now s then landEffect e s else launch due e s

/-- The distinct (cell, tile, slot) of a list of contributions, in order of appearance. -/
def treeKeys (l : List (Nat × Nat × Nat × F16)) : List (Nat × Nat × Nat) :=
  l.foldl (fun acc x => if acc.contains (x.1, x.2.1, x.2.2.1) then acc else acc ++ [(x.1, x.2.1, x.2.2.1)]) []

/-- All contributions of a list of effects. -/
def treeItems (l : List Effect) : List (Nat × Nat × Nat × F16) :=
  l.flatMap fun e => match e with
    | .tree c t vals _ => vals.map fun p => (c, t, p.1, p.2)
    | _ => []

/-- A register write, which acts before what else its tick brings (R37). -/
def isWrite (e : Effect) : Bool := match e with | .regWrite _ _ _ => true | .sregWrite _ _ _ _ => true | _ => false

/-- Everything due on the current tick lands: register writes, accumulator additions grouped by slot, then the rest in the order put in
flight. -/
def landAll (s : State) : State :=
  let t := now s
  let due := (s.flights.filter fun f => decide (f.due ≤ t)).map (·.effect)
  let s := { s with flights := s.flights.filter fun f => ¬ f.due ≤ t }
  let s := each (due.filter isWrite) landEffect s
  let items := treeItems due
  let s := each (treeKeys items) (fun k s =>
    accAdd k.1 k.2.1 k.2.2 ((items.filter fun x => x.1 == k.1 && x.2.1 == k.2.1 && x.2.2.1 == k.2.2).map (·.2.2.2)) s) s
  each (due.filter fun e => !isWrite e) landEffect s

end Sys2Proof.Machine
end

