-- ==== Sys2Proof/Machine/Tick.lean ====
section
/-! DEFINITION. The passing of time (R61, R298, R397, R398, R478): one tick, and running to a tick. -/
namespace Sys2Proof.Machine

/-- Thirds of a tick that one REFCLK cycle advances the reference, by ratio code (R61, R63). -/
def thirds (code : Nat) : Nat :=
  match code with
  | 0 => 240
  | 1 => 192
  | 2 => 160
  | 3 => 120
  | _ => 80

/-- The ratio code in force. -/
def ratioCode (s : State) : Nat := fld s Reg.PWR_STRETCH 23 21

/-- Whether the forge is in a hold (R298). -/
def holding (s : State) : Bool := fld s Reg.FAB_COMBINE 5 5 == 1

/-- An hour of always-on time: wear counter 0, and counter 3 of every lit fabric port (R389; log 19). -/
def hourMark (s : State) : State :=
  each (List.range 48) (fun p s =>
    if portLasers s p then wear 3 0 p 1 s else s) (wear 0 0 0 1 s)

/-- One always-on cycle: the mandrel count, the hours of wear counter 0 (R389) and an entry into a deep state (R403). -/
def aonCycle (s : State) : State :=
  let s := { s with time := { s.time with cycles := s.time.cycles + 1, mandrel := s.time.mandrel + 1 } }
  entryTick (if s.time.cycles % 90000000000 = 0 then hourMark s else s)

/-- A REFCLK edge advances the reference in the tick that the new reference falls in (R478). -/
def refEdge (s : State) : State :=
  let n := thirds (ratioCode s)
  if (s.time.ref3 + n) / 3 ≤ now s then aonCycle { s with time := { s.time with ref3 := s.time.ref3 + n } } else s

/-- A casting whose load has not passed is not in force when the load stops (R317). -/
def dropLoading (s : State) : State := if schState s == 1 then { s with casting := none } else s

/-- A pending job fault or halt acts on the tick after it (R57, R66); a HOLD flit takes the fault to the works partner (R304). -/
def actPending (s : State) : State :=
  let t := now s
  let due : Option Nat → Bool := fun o => match o with | some x => decide (x < t) | none => false
  let s := if due s.run.faultAt && castingRuns s then setSchState 6 (event 2 6 (dropLoading s)) else s
  let s := if due s.run.faultAt && portUp s 46 && s.run.faultAt == some (t - 1) then
      emit (.ctrl (physOf s 46) 5 [if s.fab.holdStatus then 1 else 0, 1, 0]) s
    else s
  if due s.run.haltAt then
    let s' := { s with run := { s.run with haltAt := none } }
    if castingRuns s then setSchState 5 (dropLoading s') else s'
  else s

/-- Poison notices start in the first link slot after the taint, once per period (R345). -/
def poisonStart (s : State) : State :=
  match s.run.poisonFrom with
  | some p =>
    if s.run.on && !s.run.poisonSent && !s.run.sentPorts.isEmpty && decide (p ≤ stepTick s) then
      bump Reg.HLT_POISON_TX { s with run := { s.run with poisonSent := true } }
    else s
  | none => s

/-- The crystal's part in an instant: it runs on where the tick stands still, and whether an edge falls in the instant is left open (R397). -/
def crystal (s : State) : State :=
  { s with time := { s.time with
      rtc := s.time.rtc + (if Config.crystalEdge s.time.looks then 1 else 0), looks := s.time.looks + 1 } }

/-- One tick, once the link slot that began with the last has gone out. In a hold the fast clocks stand and one REFCLK cycle passes (R299);
with REFCLK lost only the crystal runs (R398); while RESET_N holds the part nothing does (R472). -/
def tickStep (s : State) : State :=
  let s := { s with events := [] }
  if s.pwr.inReset then s
  else if !s.time.refclk then crystal s
  else if holding s then bump Reg.FAB_HOLD_CYCLES (crystal (aonCycle s))
  else
    let s := sendSlots s
    let s := { s with time := { s.time with tick := s.time.tick + 1 } }
    landAll (poisonStart (actPending (refEdge (crystal s))))

/-- `n` ticks. -/
def ticks : Nat → State → State
  | 0, s => s
  | n + 1, s => ticks n (tickStep s)

/-- Runs at most `n` ticks, to the one in which the count of always-on cycles leaves `c`. -/
def cycleRun : Nat → Nat → State → State
  | 0, _, s => s
  | n + 1, c, s => if s.time.cycles = c then cycleRun n c (tickStep s) else s

/-- The crossbar serves an access: time runs to the edge that ends the always-on cycle in progress, at most 80 ticks away, so that each
cycle serves one access (R36, R478). The cycle does not end while REFCLK is lost or RESET_N is low. -/
def arrive (s : State) : State := if s.pwr.inReset || !s.time.refclk then s else cycleRun 81 s.time.cycles s

/-- An access of the control crossbar is served when its always-on cycle ends (R36, R478); while RESET_N holds the part there is none (R472). -/
def crossbar (f : State → State) (s : State) : State := if s.pwr.inReset then s else f (arrive s)

/-- Time runs until the tick counter shows `t`; a tick already past leaves the state as it is. -/
def runTo (t : Nat) (s : State) : State := ticks (t - now s) s

end Sys2Proof.Machine
end

