-- ==== Sys2Proof/Machine/Slot.lean ====
section
/-! DEFINITION. Issuing a slot word (R42 to R48, R53, R58): its issue tick, the checks that discard it whole, and HOLD. -/
namespace Sys2Proof.Machine

/-- Number of a place: cells by 256 × die + cell, link units from 1,024. -/
def placeKey (p : Place) : Nat :=
  match p with
  | .cell d c => 256 * d.val + c.val
  | .port q => 1024 + q.val

/-- Die of a place, 0 for a link unit (R66). -/
def placeDie (p : Place) : Nat := match p with | .cell d _ => d.val | .port _ => 0

/-- Logical cell or port of a place (R66). -/
def placeWhere (p : Place) : Nat := match p with | .cell _ c => c.val | .port q => q.val

/-- Whether a place is a link unit. -/
def isLink (p : Place) : Bool := match p with | .cell _ _ => false | .port _ => true

/-- Physical cell of a place. -/
def placePhys (s : State) (p : Place) : Nat := phys s (placeDie p) (placeWhere p)

/-- Key of a unit of a place. -/
def unitKey (p : Place) (unit : Nat) : Nat := placeKey p * 16 + unit

/-- Whether the unit has issued a word in the step. -/
def issuedBefore (s : State) (p : Place) (unit : Nat) : Bool := get (fun _ => 0) s.run.lastIssue (unitKey p unit) != 0

/-- Issue tick of a word: its delta from the unit's last word of the step, or from the start of the step (R45). -/
def issueTick (s : State) (unit : Nat) (w : Slot) : Nat :=
  let k := get (fun _ => 0) s.run.lastIssue (unitKey w.place unit)
  if k = 0 then s.run.start + w.delta.toNat else k - 1 + w.delta.toNat

/-- The stream under a key. -/
def streamOf (s : State) (key : Nat) : Stream := get (fun _ => Stream.init) s.streams key

/-- Replaces the stream under a key. -/
def setStream (key : Nat) (x : Stream) (s : State) : State := { s with streams := put (fun _ => Stream.init) s.streams key x }

/-- The stream of a place. -/
def streamAt (s : State) (p : Place) : Stream := streamOf s (placeKey p)

/-- The next word in the stream buffer of a place, if it is there. -/
def nextWord (s : State) (p : Place) : Option (BitVec 128) :=
  let st := streamAt s p
  (st.words.find? fun x => x.1 == st.issued).map (·.2)

/-- What the check bits of the next word show: 0 clean, 1 correctable, 2 not (R337). -/
def wordMark (s : State) (p : Place) : Nat := let st := streamAt s p; get (fun _ => 0) st.marks st.issued

/-- Whether a physical cell is in RUN: it has reached it, or the tick on which it does so has come (R59). -/
def inRun (s : State) (c : Nat) : Bool :=
  match (cellAt s c).power with
  | .run => true
  | .waking due => decide (due ≤ now s)
  | _ => false

/-- Whether the cell of a place is in RUN and its die not at rest (R53, R59). -/
def cellReady (s : State) (p : Place) : Bool := isLink p || (inRun s (placePhys s p) && !s.pwr.rests.contains (placeDie p))

/-- An evaluation word that its period does not run, as it does not commit: discarded without violation (R43, R222, R233). -/
def evalSkipped (s : State) (w : Slot) : Bool := w.evalSeg && !(s.run.evalDue && s.run.outcome == some 0)

/-- The monitors that refuse the word whole: WAKE 2, STREAM 5, OPCODE 9, STEPWIN 10 (R53, R58). `first` says that it is the unit's first
word of the step, `there` that it was in the stream buffer, `ok` that its operands are defined. -/
def slotFaults (s : State) (unit : Nat) (w : Slot) (first there ok : Bool) : List Nat :=
  let t := stepTick s
  (if cellReady s w.place then [] else [2]) ++ (if there then [] else [5])
    ++ (if ok && bits w.flags.toNat 7 6 == 0 && (first || w.delta != 0) && (isLink w.place == (unit == 6)) then [] else [9])
    ++ (if 2048 ≤ t ∧ t < stepPeriod s then [] else [10])

/-- The word has reached its tick: it is the reference of the next delta and leaves the stream buffer (R44, R45). -/
def markIssued (unit : Nat) (w : Slot) (t : Nat) (s : State) : State :=
  let st := streamAt s w.place
  setStream (placeKey w.place)
    { issued := st.issued + 1, asked := max st.asked (st.issued + 1), words := st.words.filter fun x => x.1 != st.issued,
      marks := put (fun _ => 0) st.marks st.issued 0 }
    { s with run := { s.run with
        lastIssue := put (fun _ => 0) s.run.lastIssue (unitKey w.place unit) (t + 1)
        evalRan := s.run.evalRan || (w.evalSeg && !evalSkipped s w) } }

/-- A word read from the stream buffer with an uncorrectable error is discarded: a job fault with a record of class 2, and the word's unit
and tick held where SCH_VIOL is all zero, which stays as it is (R339). -/
def wordLost (unit : Nat) (p : Place) (s : State) : State :=
  let s := if rd s Reg.SCH_VIOL = 0 then
      wr Reg.SCH_VIOL_TICK (now s) (wr Reg.SCH_VIOL_FIRST (16 * unit + 256 * placeDie p + 1024 * placeWhere p) s)
    else s
  jobFaultRec Reg.SCH_VIOL_FIRST (placeLoc unit (placeDie p) (placeWhere p)) (rd s Reg.SCH_VIOL_FIRST) s

/-- A corrected error of a stream buffer is counted for its cell or link unit (R337). -/
def wordCorrected (p : Place) (s : State) : State :=
  noteCorrected (match p with | .cell _ _ => placePhys s p | .port q => 2048 + q.val) 0 s

/-- Whether a word with unit and class `head` is the one that its unit issues: the stream buffer holds no other in its place. -/
def isNext (s : State) (head : BitVec 8) (w : Slot) : Bool :=
  match nextWord s w.place with
  | some x => x == Slot.bits head w
  | none => true

/-- Issues a word: time runs to its issue tick; it is discarded whole where its check bits or a monitor refuse it, else `body` is its
effect. A word that is not the next of its stream, or whose tick has passed, is no event. -/
def issue (head : BitVec 8) (w : Slot) (ok : State → Bool) (body : State → State) (s : State) : State :=
  let unit := head.toNat / 16
  if !s.run.on || schState s != 4 then s
  else
    let t := issueTick s unit w
    let s := runTo t s
    if schState s != 4 || now s != t || !isNext s head w then s
    else
      let first := !issuedBefore s w.place unit
      let there := (nextWord s w.place).isSome
      let mark := wordMark s w.place
      let skip := evalSkipped s w
      let s := markIssued unit w t s
      if there && mark == 2 then wordLost unit w.place s
      else
        let s := if there && mark == 1 then wordCorrected w.place s else s
        if skip then s
        else match slotFaults s unit w first there (ok s) with
          | [] => body s
          | l => each l (fun b s => viol b unit (placeDie w.place) (placeWhere w.place) s) s

/-- Bits [hi:lo] of the operand field (R45). -/
def opf (w : Slot) (hi lo : Nat) : Nat := bits w.ops.toNat hi lo

/-- Bits [127:120] that name a unit and class 0 (R45 to R47), with the reserved bits that an ACC HOLD has (R126). DESIGN CHOICE (log 23): the
other operand bits of a HOLD, which no rule names, are ignored. -/
def holdReady (head : BitVec 8) (w : Slot) (_ : State) : Bool :=
  decide (1 ≤ head.toNat / 16) && decide (head.toNat / 16 ≤ 6) && decide (head.toNat % 16 = 0)
    && (head.toNat / 16 != 2 || (opf w 68 64 == 0 && opf w 31 0 == 0))

/-- HOLD (R46): any unit's word of class 0 performs nothing; an undefined unit or class raises OPCODE (R45, R47). `head` is bits
[127:120]; one that names another class is not a HOLD. -/
def execHold (head : BitVec 8) (w : Slot) (s : State) : State :=
  if definedHead head then s else issue head w (holdReady head w) (fun s => s) s

/-- A flag of the word (R45). -/
def flagOf (w : Slot) (i : Nat) : Bool := bits w.flags.toNat i i == 1

/-- mask of the word (R48). -/
def maskOf (w : Slot) : Nat := bits w.flags.toNat 5 3

/-- The location of a word for taints and records. -/
def wordLoc (unit : Nat) (w : Slot) : List (Nat × Nat) := placeLoc unit (placeDie w.place) (placeWhere w.place)

/-- A violation that a word raises at its place. -/
def wordViol (bit unit : Nat) (w : Slot) (s : State) : State := viol bit unit (placeDie w.place) (placeWhere w.place) s

end Sys2Proof.Machine
end

