-- ==== Sys2Proof/Machine/Acc.lean ====
section
/-! DEFINITION. ACC words (R126 to R132): CLEAR, PRELOAD, DRAIN and DRAINCLR, the tile port and the drain interlock; and the entry of
array results into the adder tree (R122). -/
namespace Sys2Proof.Machine

/-- Ticks from entry to write of an addition (R123, latency-sheet entry 0x0004). -/
def treeDepth : Nat := 12

/-- Array results enter the tree of a tile from tick `t0`, 16 slots per tick; each addition is written 12 ticks after its entry (R122,
R123). -/
def enterTree (c tile t0 : Nat) (vals : List F16) (s : State) : State :=
  each (List.range 16) (fun g s =>
    launch (t0 + g + treeDepth)
      (.tree c tile (((List.range vals.length).zip vals).filter fun p => p.1 / 16 == g) (t0 + g)) s) s

/-- The ticks on which contributions not yet written enter the tree of a tile. -/
def entryTicks (s : State) (c t : Nat) : List Nat :=
  s.flights.filterMap fun f => match f.effect with
    | .tree c' t' _ e => if c' = c ∧ t' = t then some e else none
    | _ => none

/-- The interlock wait of a drain issued now (R131). -/
def drainWait (s : State) (c t : Nat) : Nat :=
  let T := now s
  ((entryTicks s c t).filter fun e => decide (e < T)).foldl (fun w e => max w (e + treeDepth - T)) 0

/-- Whether an ACC word may not have the tile port for ticks T to T + `span` (R53, R128): the port is claimed by an earlier ACC word, a
contribution enters in the span, or, with `before`, one has entered in T − 11 to T − 1. -/
def portTaken (s : State) (c t span : Nat) (before : Bool) : Bool :=
  let T := now s
  decide (T < (tileAt s c t).busy)
    || (entryTicks s c t).any fun e => (decide (T ≤ e) && decide (e ≤ T + span)) || (before && decide (e < T) && decide (T < e + treeDepth))

/-- Claims the tile port for `span` ticks after T, or discards the word with DBOOK (R58, R128). -/
def claimPort (c t span : Nat) (before : Bool) (w : Slot) (body : State → State) (s : State) : State :=
  if portTaken s c t span before then sticky (cellKey c Reg.ACC_STICKY) 5 (wordViol 0 2 w s)
  else body (setTile c t { tileAt s c t with busy := now s + span + 1 } s)

/-- The sum tile of a word. -/
def accTile (w : Slot) : Nat := opf w 95 89

/-- Binds the operands of a CLEAR or PRELOAD (R127). -/
def bindTile (c : Nat) (w : Slot) (s : State) : State :=
  let t := accTile w
  setTile c t { tileAt s c t with
    bound := true
    tid := BitVec.ofNat 16 (opf w 84 69)
    ebase := BitVec.ofNat 32 (opf w 63 32)
    ovf := Fin.ofNat 16 (opf w 88 85)
    hk := flagOf w 0 } s

/-- Operands of a CLEAR that are defined. -/
def clearReady (w : Slot) (s : State) : Bool :=
  decide (accTile w < sumTiles s (placePhys s w.place)) && decide (opf w 68 64 = 0) && decide (opf w 31 0 = 0)

/-- What a CLEAR whose operands are defined does on its issue tick. -/
def clearAct (w : Slot) (s : State) : State :=
  let c := placePhys s w.place
  claimPort c (accTile w) 0 true w (fun s => bindTile c w (clearTile c (accTile w) s)) s

/-- CLEAR (R127). -/
def execClear (w : Slot) (s : State) : State := issue 0x21 w (clearReady w) (clearAct w) s

/-- What PRELOAD makes of a value, and whether it was not finite (R127). -/
def preloadValue (v : F16) : F16 × Bool :=
  if isNaN v then (0, true)
  else if nonFinite v then (satAcc (decide (32768 ≤ v.toNat)), true)
  else if v = 0x8000 then (0, false)
  else (v, false)

/-- Operands of a PRELOAD that are defined. DESIGN CHOICE (log 23): bits [18:0], which no rule names for it, are held reserved. -/
def preloadReady (w : Slot) (s : State) : Bool :=
  decide (accTile w < sumTiles s (placePhys s w.place)) && decide (opf w 68 64 = 0) && decide (opf w 18 0 = 0) && decide (opf w 31 19 ≤ 8184)

/-- What a PRELOAD whose operands are defined does on its issue tick. -/
def preloadAct (w : Slot) (s : State) : State :=
  let c := placePhys s w.place
  let t := accTile w
  claimPort c t 3 true w (fun s =>
    let s := spRead 2 c (64 * opf w 31 19) 512 s
    let src := (codesOf 0 (spGet s c (64 * opf w 31 19) 512)).map (BitVec.ofNat 16)
    let vals := src.map preloadValue
    let s := bindTile c w (clearTile c t s)
    let s := each ((List.range 256).zip vals) (fun p s => setAcc c t p.1 p.2.1 s) s
    let s := if flagOf w 0 then noteCheck 2 c (((List.range 256).zip (src.zip vals)).map fun p =>
        (if p.2.2.2 then twiceCheck p.2.2.1 else sumCheck [dyF16 p.2.1] p.2.2.1).at_ (.acc c (t * 256 + p.1))) s else s
    let bad := (vals.filter (·.2)).length
    if bad = 0 then s else sticky (cellKey c Reg.ACC_STICKY) 2 (arrOvf c (opf w 88 85) bad s)) s

/-- PRELOAD (R127). -/
def execPreload (w : Slot) (s : State) : State := issue 0x24 w (preloadReady w) (preloadAct w) s

/-- f of R121: fold levels. -/
def foldLevels (F : Nat) : Nat := Nat.log2 (F + 1)

/-- Operands of a DRAIN or DRAINCLR that are defined. DESIGN CHOICE (log 23): bits [88:69], which no rule names for them, are held reserved. -/
def drainReady (w : Slot) (s : State) : Bool :=
  decide (accTile w < sumTiles s (placePhys s w.place)) && decide (opf w 88 64 = 0) && decide (opf w 50 0 = 0) && decide (opf w 63 51 ≤ 8184)

/-- What a DRAIN or DRAINCLR whose operands are defined does on its issue tick: 64 slots are read on each of four ticks (R131). -/
def drainAct (clear : Bool) (w : Slot) (s : State) : State :=
  let c := placePhys s w.place
  let t := accTile w
  let wait := drainWait s c t
  claimPort c t (wait + 3) false w (fun s =>
    let T := now s
    let s := if wait = 0 then s
      else wordViol 6 2 w (bumpFld Reg.SCH_DRAIN_WAITS 31 0 wait (bumpFld (cellKey c Reg.ACC_WAITS) 31 0 wait s))
    let part := fun (q : Nat) => Effect.drain c t (64 * opf w 63 51) (T + wait + 24 + 6 * foldLevels (foldArea s c)) clear (flagOf w 0) q
    each [1, 2, 3] (fun q s => launch (T + wait + q) (part q) s) (launchOrLand (T + wait) (part 0) s)) s

/-- A drain of either class (R131, R132). -/
def drainWord (clear : Bool) (w : Slot) (s : State) : State := issue (if clear then 0x23 else 0x22) w (drainReady w) (drainAct clear w) s

/-- DRAIN (R131). -/
def execDrain (w : Slot) (s : State) : State := drainWord false w s

/-- DRAINCLR (R131). -/
def execDrainclr (w : Slot) (s : State) : State := drainWord true w s

end Sys2Proof.Machine
end

