-- ==== Sys2Proof/Machine/Anvil.lean ====
section
/-! DEFINITION. The Anvil (07): STAGE, GEMM and GEMMACC. -/
namespace Sys2Proof.Machine

/-- A register as the load window sampled it (R172, R198). -/
def sampledReg (s : State) (k : Nat) : Nat := (get regDefault s.run.sampled k).toNat

/-- Format and scale byte of a tensor; 0xFFFF is plain F16 (R164, R168). -/
def tensorOf (s : State) (tid : Nat) : Option (Nat × Nat) :=
  if tid = 0xFFFF then some (0, 127)
  else match findTid s tid with
    | some i => (s.tab.copy[i]?).map fun e => (e.fmt, e.b)
    | none => none

/-- Whether a tensor may be an output of role 3, or is 0xFFFF (R168). -/
def roleThree (s : State) (tid : Nat) : Bool :=
  tid == 0xFFFF || match findTid s tid with
    | some i => (s.tab.copy[i]?).elim false fun e => e.role == 3
    | none => false

/-- Writes of elements of Anvil memory store fresh check bits. -/
def anvWrite (c lo n : Nat) (s : State) : State :=
  onCell c (fun x => { x with
    ecc := forget (fun k => decide (k / 2 ^ 24 = 4) && decide (lo ≤ k % 2 ^ 24) && decide (k % 2 ^ 24 < lo + n)) x.ecc }) s

/-- A double-booked ANV word (R175). -/
def anvDrop (c : Nat) (w : Slot) (s : State) : State := sticky (cellKey c Reg.ANV_STICKY) 4 (wordViol 0 3 w s)

/-! ### STAGE (R164) -/

/-- Bytes of a row of 64 elements (R162). -/
def rowBytes (fmt : Nat) : Nat := if fmt = 0 then 128 else if fmt = 3 then 32 else 64

/-- The element codes of a row. -/
def rowCodes (fmt : Nat) (b : List Byte) : List Nat :=
  if fmt = 3 then b.flatMap fun x => [x.toNat % 16, x.toNat / 16] else codesOf fmt b

/-- Row pitch in bytes of a field in 32-byte units, 0 for `row` (R164, R168). -/
def pitch (field row : Nat) : Nat := if field = 0 then row else 32 * field

/-- Ticks of a STAGE (R161). -/
def stageSpan (fmt : Nat) : Nat := if fmt = 0 then 32 else if fmt = 3 then 8 else 16

/-- The transpose of 64 × 64 elements. -/
def transposed (l : List Nat) : List Nat := (List.range 4096).map fun i => (l[64 * (i % 64) + i / 64]?).getD 0

/-- Operands of a STAGE that are defined. -/
def stageReady (w : Slot) (s : State) : Bool :=
  decide (opf w 48 0 = 0) && match tensorOf s (opf w 92 77) with
    | some f => decide (32 * opf w 76 63 + 63 * pitch (opf w 62 49) (rowBytes f.1) + rowBytes f.1 ≤ 524288)
    | none => false

/-- What a STAGE whose operands are defined does on its issue tick. -/
def stageAct (w : Slot) (s : State) : State :=
  let c := placePhys s w.place
  let f := (tensorOf s (opf w 92 77)).getD (0, 127)
  let i := 2 * opf w 95 95 + opf w 94 94
  let T := now s
  if decide (T < (cellAt s c).anvBusy.1) || decide (T < (bufAt s c i).busy) then anvDrop c w s
  else
    let n := rowBytes f.1
    let p := pitch (opf w 62 49) n
    let rows := (List.range 64).map fun a => (32 * opf w 76 63 + a * p)
    let s := each rows (fun a s => spRead 3 c a n s) s
    let codes := rows.flatMap fun a => rowCodes f.1 (spGet s c a n)
    let e := T + stageSpan f.1
    let elems := if opf w 93 93 = 1 then transposed codes else codes
    let s := setBuf c i ⟨true, e, Fmt.ofCode f.1, f.2, elems⟩ s
    let s := onCell c (fun x => { x with anvBusy := (e, x.anvBusy.2) }) (anvWrite c (4096 * i) 4096 s)
    let s := if flagOf w 0 then
        launch e (.check 3 c (((List.range 4096).zip elems).map fun v =>
          (moved (scaled (Fmt.ofCode f.1) f.2 v.2) (Fmt.ofCode f.1) f.2 v.2).at_ (.buf c i v.1))) s
      else s
    bump (cellKey c Reg.ANV_STAGES) s

/-- STAGE (R161, R164, R173, R175). -/
def execStage (w : Slot) (s : State) : State := issue 0x31 w (stageReady w) (stageAct w) s

/-! ### Products (R165 to R171) -/

/-- What the 64 products of an element come to: a NaN, infinities of each sign, and the exact sum of the finite ones. -/
structure Dot where
  nan : Bool
  pinf : Bool
  ninf : Bool
  sum : Dy
  deriving DecidableEq, Repr

/-- Adds a product to a sum (R165, R167). -/
def Dot.addProd (d : Dot) (x y : FV) : Dot :=
  let inf := fun (neg : Bool) => if neg then { d with ninf := true } else { d with pinf := true }
  match x, y with
  | .nan, _ | _, .nan => { d with nan := true }
  | .inf a, .inf b => inf (a != b)
  | .inf a, .fin b m _ => if m = 0 then { d with nan := true } else inf (a != b)
  | .fin a m _, .inf b => if m = 0 then { d with nan := true } else inf (a != b)
  | a, b => { d with sum := d.sum.add (a.dy.mul b.dy) }

/-- The result of an element: the products over the output scale plus the old value `o`, with whether it saturated (R165, R167). -/
def Dot.finish (d : Dot) (bo : Nat) (o : F16) : F16 × Bool :=
  let p := { d.sum with e := d.sum.e + 127 - bo }
  let d := match ofF16 o with
    | .nan => { d with nan := true }
    | .inf neg => if neg then { d with ninf := true } else { d with pinf := true }
    | .fin _ _ _ => d
  if d.nan || (d.pinf && d.ninf) then (nan16, false)
  else if d.pinf then (0x7F80, false)
  else if d.ninf then (0xFF80, false)
  else Dy.rne (p.add (dyF16 o))

/-- The pairs of operands whose products each of the 4,096 elements sums (R165). -/
def pairsOf (l r : AnvBuf) : List (List (FV × FV)) :=
  let rows := chunks 64 64 (l.elems.map (scaled l.fmt l.b))
  let cols := chunks 64 64 ((transposed r.elems).map (scaled r.fmt r.b))
  rows.flatMap fun x => cols.map fun y => x.zip y

/-- The sum of the products of an element. -/
def dotOf (l : List (FV × FV)) : Dot := l.foldl (fun (d : Dot) p => d.addProd p.1 p.2) ⟨false, false, false, ⟨0, 0⟩⟩

/-- The old values of a word's output array: +0 for a GEMM. -/
def oldOf (acc : Bool) (ch : Chain) : List F16 := if acc then ch.elems else List.replicate 4096 0

/-- The 4,096 results of a product over old values `o`. -/
def productOf (l r : AnvBuf) (bo : Nat) (o : List F16) : List (F16 × Bool) :=
  ((pairsOf l r).zip o).map fun p => (dotOf p.1).finish bo p.2

/-- The hallmark checks of a product's results: the products over the output scale and the old value predict each (R174, R333). -/
def productChecks (l r : AnvBuf) (bo : Nat) (o : List F16) (out : List F16) : List CheckVal :=
  ((pairsOf l r).zip (o.zip out)).map fun p =>
    termCheck ([dyF16 p.2.1] :: p.1.map fun q => [q.1.dy, q.2.dy, ⟨1, 127 - bo⟩]) p.2.2

/-- Operands of a product word; `acc` for GEMMACC (R166, R168, R173, R175). -/
def productOk (s : State) (w : Slot) (acc : Bool) : Bool :=
  let c := placePhys s w.place
  let ch := chainAt s c (opf w 93 93)
  decide (opf w 29 0 = 0) && (bufAt s c (opf w 95 95)).staged && (bufAt s c (2 + opf w 94 94)).staged
    && (if opf w 92 92 = 0 then decide (opf w 63 30 = 0)
        else decide (32 * opf w 63 50 + 63 * pitch (opf w 49 36) 128 + 128 ≤ 524288))
    && (if acc then decide (opf w 79 64 = 0) && ch.opened && decide (opf w 91 80 = ch.kb + 1) else roleThree s (opf w 79 64))

/-- Whether the keep mask of a word keeps its block (R171, R172). -/
def blockKept (s : State) (c : Nat) (m kx : Nat) : Bool :=
  m == 0 || bits (sampledReg s (cellKey c (Reg.ANV_KEEP + 4 * (2 * (m - 1) + kx / 32)))) (kx % 32) (kx % 32) == 1

/-- Operands of a GEMM or GEMMACC that are defined. -/
def productReady (acc : Bool) (w : Slot) (s : State) : Bool :=
  productOk s w acc

/-- What a GEMM or GEMMACC whose operands are defined does on its issue tick. -/
def productAct (acc : Bool) (w : Slot) (s : State) : State :=
  let c := placePhys s w.place
  let li := opf w 95 95
  let ri := 2 + opf w 94 94
  let oi := opf w 93 93
  let T := now s
  let l := bufAt s c li
  let r := bufAt s c ri
  let ch := chainAt s c oi
  if decide (T < (cellAt s c).anvBusy.2) || decide (T < l.busy) || decide (T < r.busy) || decide (T < ch.busy) then anvDrop c w s
  else
    let wide := l.fmt == .f16 || r.fmt == .f16
    let e := T + (if wide then 256 else 64)
    let wr := opf w 92 92 == 1
    let tid := if acc then ch.tid else opf w 79 64
    let bo := if acc then ch.bo else ((tensorOf s tid).map (·.2)).getD 127
    let s := anvRead c (4096 * li) 4096 (anvRead c (4096 * ri) 4096 s)
    let s := if acc then anvRead c (4096 * (4 + oi)) 4096 s else s
    let out := productOf l r bo (oldOf acc ch)
    let newSat := ((List.range 4096).zip out).filterMap fun p => if p.2.2 then some p.1 else none
    let sat := (if acc then ch.sat.filter fun i => !newSat.contains i else []) ++ newSat
    let s := if newSat.isEmpty then s else sticky (cellKey c Reg.ANV_STICKY) 0 s
    let s := setBuf c li { l with busy := e } s
    let s := setBuf c ri { r with busy := e } s
    let s := onCell c (fun x => { x with anvBusy := (x.anvBusy.1, e) }) (anvWrite c (4096 * (4 + oi)) 4096 s)
    let s := setChain c oi ⟨true, opf w 91 80, wide, tid, bo, if wr then e + 32 else e, out.map (·.1), sat⟩ s
    let s := if flagOf w 0 then launch e (.check 3 c (((List.range 4096).zip (productChecks l r bo (oldOf acc ch) (out.map (·.1)))).map fun p =>
        p.2.at_ (.chain c oi p.1))) s else s
    let s := bump (cellKey c Reg.ANV_PRODUCTS) s
    if wr then
      launch (e + 32) (.anvDrain c oi (32 * opf w 63 50) (pitch (opf w 49 36) 128) (blockKept s c (maskOf w) (opf w 35 30)) w.evalSeg
        (flagOf w 0) (stepTick s)) s
    else s

/-- A product word (R161, R165 to R168, R175); `acc` for GEMMACC. -/
def productWord (acc : Bool) (w : Slot) (s : State) : State := issue (if acc then 0x33 else 0x32) w (productReady acc w) (productAct acc w) s

/-- GEMM (R165). -/
def execGemm (w : Slot) (s : State) : State := productWord false w s

/-- GEMMACC (R166). -/
def execGemmacc (w : Slot) (s : State) : State := productWord true w s

/-- The load window closes every chain and empties every operand buffer of a cell (R166). -/
def anvilWindow (x : Cell) : Cell :=
  { x with
    bufs := mapVals AnvBuf.init (fun b => { b with staged := false }) x.bufs
    chains := mapVals Chain.init (fun b => { b with opened := false }) x.chains }

end Sys2Proof.Machine
end

