-- ==== Sys2Proof/Machine/Memory.lean ====
section
/-! DEFINITION. Memory stacks and the port arbiter (10): the memory slot tables, placing scheduled lines, refresh, the refill of stream
buffers, arbitration, scrub, repair and stack temperatures. -/
namespace Sys2Proof.Machine

/-! ### Memory slot tables (R244 to R248) -/

/-- The entries of a pseudo-channel's list as raw 64-bit values (R245). -/
def memList (s : State) (pc : Nat) : List Nat :=
  let d := sectionOf s 5
  let first := dramNat s (d.2 + 8 * pc) 4
  let n := dramNat s (d.2 + 8 * pc + 4) 4
  (List.range n).map fun i => dramNat s (d.2 + 4096 + 8 * (first + i)) 8

/-- Kind of a slot of a pseudo-channel, 0 unreserved, and the bank of its entry. -/
def slotKind (s : State) (pc slot : Nat) : Nat × Nat :=
  match (memList s pc).find? fun e => decide (bits e 31 0 ≤ slot) && decide (slot < bits e 31 0 + bits e 47 32) with
  | some e => (bits e 51 48, bits e 55 52)
  | none => (0, 0)

/-- Whether an entry breaks R246; `prev` is the end of the one before it. -/
def memEntryBad (period prev e : Nat) : Bool :=
  let start := bits e 31 0
  let len := bits e 47 32
  let kind := bits e 51 48
  decide (start < prev) || decide (len = 0) || decide (kind = 0) || decide (kind > 3) || decide (bits e 63 56 ≠ 0)
    || (kind == 3 && len != 1) || (kind != 3 && bits e 55 52 != 0) || decide (period / 4 - 1 < start + len)

/-- Whether the list of a pseudo-channel breaks R246. -/
def memListBad (s : State) (pc : Nat) : Bool :=
  let d := sectionOf s 5
  let past := decide (d.1 < dramNat s (d.2 + 8 * pc) 4 + dramNat s (d.2 + 8 * pc + 4) 4)
  past || ((memList s pc).foldl (fun (a : Nat × Bool) e =>
    (bits e 31 0 + bits e 47 32, a.2 || memEntryBad (stepPeriod s) a.1 e)) (0, false)).2

/-- The check of every list at the first load window after the arm (R246). -/
def memTablesCheck (s : State) : State :=
  if (List.range 512).any (memListBad s) then
    sticky Reg.MEM_STICKY 8 (launch (s.run.start + 2048) (.violation 9 0 0 0) s)
  else s

/-- A claim of a memory slot: bit 0 taken, [4:1] bank, [20:5] row, 21 whether it writes, 22 whether it activates the bank, 23 whether an
asynchronous agent has it; a forced refresh has bit 24. -/
def claimCode (bank row : Nat) (write act async : Bool) : Nat :=
  1 + 2 * bank + 32 * row + 2 ^ 21 * (if write then 1 else 0) + 2 ^ 22 * (if act then 1 else 0) + 2 ^ 23 * (if async then 1 else 0)

/-- Whole slots of a step period; the partial one at its end carries nothing (R244). -/
def slotCount (s : State) : Nat := stepPeriod s / 4

/-- The claim on a slot, 0 when none. -/
def claimOf (s : State) (pc slot : Nat) : Nat := get (fun _ => 0) s.mem.slots (2 ^ 32 * pc + slot)

/-- The claim on the slot that began `k` slots before slot `slot` of the step, or in the period before. -/
def claimAgo (s : State) (pc slot k : Nat) : Nat :=
  if k ≤ slot then claimOf s pc (slot - k)
  else if 4 * k ≤ stepPeriod s + 4 * slot then get (fun _ => 0) s.mem.prev (2 ^ 32 * pc + (stepPeriod s + 4 * slot - 4 * k) / 4)
  else 0

/-- Claims a slot. -/
def setClaim (pc slot v : Nat) (s : State) : State :=
  { s with mem := { s.mem with slots := put (fun _ => 0) s.mem.slots (2 ^ 32 * pc + slot) v } }

/-- A claim by a slot word's line. -/
def isLine (c : Nat) : Bool := bits c 0 0 == 1 && bits c 24 23 == 0

/-- An activation of a bank; `async` says whether those of agents count. -/
def activates (async : Bool) (bank c : Nat) : Bool :=
  bits c 0 0 == 1 && bits c 22 22 == 1 && bits c 4 1 == bank && bits c 24 24 == 0 && (async || bits c 23 23 == 0)

/-- A claim by a line of the row segment of a bank and row. -/
def sameRow (bank row c : Nat) : Bool := isLine c && bits c 4 1 == bank && bits c 20 5 == row

/-- Slots in which lines at given addresses lie: per pseudo-channel consecutive from `σ`, in the order of the list (R247). -/
def placeList (addrs : List Nat) (σ : Nat) : List (Nat × Nat) :=
  (addrs.foldl (fun (a : SMap Nat × List (Nat × Nat)) x =>
    let k := get (fun _ => 0) a.1 (pcOf x)
    (put (fun _ => 0) a.1 (pcOf x) (k + 1), a.2 ++ [(x, σ + k)])) ([], [])).2

/-- The addresses of `n` lines from `addr`. -/
def lineAddrs (addr n : Nat) : List Nat := (List.range n).map fun i => addr + 64 * i

/-- Whether a REF slot naming `bank` began `lo` to `hi` ticks before `slot`, in the step or, after the first, in the period before
(R248, R263). -/
def refNear (s : State) (pc bank slot lo hi : Nat) : Bool :=
  (memList s pc).any fun e => bits e 51 48 == 3 && bits e 55 52 == bank &&
    (let x := 4 * bits e 31 0
     decide (x + lo ≤ 4 * slot ∧ 4 * slot ≤ x + hi)
      || (rd s Reg.SCH_STEP != 0 && decide (x + lo ≤ 4 * slot + stepPeriod s ∧ 4 * slot + stepPeriod s ≤ x + hi)))

/-- Whether a scheduled activation of `bank` lies less than 24 slots before or after `slot` (R248). -/
def actNear (s : State) (pc bank slot : Nat) : Bool :=
  (List.range 24).any fun k => k != 0 && (activates false bank (claimAgo s pc slot k) || activates false bank (claimOf s pc (slot + k)))

/-- Whether the line before a slot is of the same row segment: the line then continues its run and activates nothing (R248). -/
def continues (s : State) (pc slot bank row : Nat) : Bool := decide (0 < slot) && sameRow bank row (claimAgo s pc slot 1)

/-- A line whose run a new line begins is no activation any longer. -/
def joinNext (pc slot bank row : Nat) (s : State) : State :=
  let c := claimOf s pc (slot + 1)
  if sameRow bank row c then setClaim pc (slot + 1) (claimCode bank row (bits c 21 21 == 1) false false) s else s

/-- Whether a scheduled access in a slot breaks the rules of R248. -/
def lineClash (s : State) (pc slot bank row : Nat) (write : Bool) : Bool :=
  let s' := joinNext pc slot bank row s
  let near := fun c => isLine c && bits c 21 21 == (if write then 0 else 1)
  refNear s pc bank slot 0 319 || (!continues s pc slot bank row && actNear s' pc bank slot)
    || (if write then near (claimOf s pc (slot + 1)) else near (claimAgo s pc slot 1))

/-- Whether a line of a MOV word lies outside a SCHED slot or breaks the rules of R248 (R247). -/
def lineBad (s : State) (pc slot bank row : Nat) (write : Bool) : Bool :=
  (slotKind s pc slot).1 != 1 || lineClash s pc slot bank row write

/-- The line's slot is claimed. -/
def claimLine (a slot : Nat) (write : Bool) (s : State) : State :=
  let run := continues s (pcOf a) slot (bankOf a) (rowOf a)
  setClaim (pcOf a) slot (claimCode (bankOf a) (rowOf a) write (!run) false) (joinNext (pcOf a) slot (bankOf a) (rowOf a) s)

/-- Checks and claims the slots of a MOV word's lines, from slot `σ` of the step: DBOOK 0 when a line's slot is taken, MSLOT 7 when one
breaks R247 or R248, each that applies (R56); a refused word claims nothing (R58). -/
def claimLines (addrs : List Nat) (σ : Nat) (write : Bool) (s : State) : List Nat × State :=
  let lines := placeList addrs σ
  let taken := lines.any fun p => isLine (claimOf s (pcOf p.1) p.2)
  let r := lines.foldl (fun (a : Bool × State) p =>
    (a.1 || lineBad a.2 (pcOf p.1) p.2 (bankOf p.1) (rowOf p.1) write, claimLine p.1 p.2 write a.2)) (false, s)
  match (if taken then [0] else []) ++ (if r.1 then [7] else []) with
  | [] => ([], r.2)
  | l => (l, s)

/-! ### Refresh (R249, R250, R265, R299) -/

/-- Key of a bank: 16 × pseudo-channel + bank. -/
def dramBankKey (pc bank : Nat) : Nat := 16 * pc + bank

/-- The refresh that a bank owes: 16 × the tick on which it fell due + the intervals for which it has been due, 0 none. -/
def refOwed (s : State) (pc bank : Nat) : Nat := get (fun _ => 0) s.mem.refDue (dramBankKey pc bank)

/-- Sets it. -/
def setRefOwed (pc bank v : Nat) (s : State) : State :=
  { s with mem := { s.mem with refDue := put (fun _ => 0) s.mem.refDue (dramBankKey pc bank) v } }

/-- Whether the bank has been refreshed since its refresh fell due at tick `t`: a REF slot naming it has begun whose use was not yet
final at that tick and that nothing else has taken (R249, R251). -/
def refreshed (s : State) (pc bank t : Nat) : Bool :=
  s.run.on && (memList s pc).any fun e => bits e 51 48 == 3 && bits e 55 52 == bank &&
    (let x := s.run.start + 4 * bits e 31 0
     let key := 2 ^ 32 * pc + bits e 31 0
     (decide (t + 8 ≤ x ∧ x < now s) && get (fun _ => 0) s.mem.slots key == 0)
      || (rd s Reg.SCH_STEP != 0 && decide (t + 8 + stepPeriod s ≤ x) && get (fun _ => 0) s.mem.prev key == 0))

/-- The first of the slots from `slot` on that nothing has taken. -/
def freeSlot (s : State) (pc slot : Nat) : Nat := slot + ((List.range 64).find? fun i => claimOf s pc (slot + i) == 0).getD 0

/-- The slot that begins next. -/
def nextSlot (s : State) : Nat := stepTick s / 4 + 1

/-- A claim by a refresh outside its REF slot. -/
def refreshClaim : Nat := 2 ^ 24 + 1

/-- BANK_REFRESH_DUE: an interval expires; the refresh waits for a REF slot naming the bank (R249). In a hold and while no step period
runs it is made at once (R299; log 87), and on a tripped stack in any slot (R265). -/
def execBankRefreshDue (stack : Fin 8) (pc : Fin 64) (bank : Fin 16) (s : State) : State :=
  let p := 64 * stack.val + pc.val
  if holding s || !s.run.on then setRefOwed p bank.val 0 s
  else if bits (fld s Reg.MEM_STATUS 7 0) stack.val stack.val = 1 then
    setClaim p (freeSlot s p (nextSlot s)) refreshClaim (setRefOwed p bank.val 0 s)
  else
    let old := refOwed s p bank.val
    setRefOwed p bank.val
      (if old = 0 || refreshed s p bank.val (old / 16) then 16 * now s + 1 else 16 * (old / 16) + min 15 (old % 16 + 1)) s

/-- Scheduled lines displaced from a slot, those of a stream refill among them, are delivered as uncorrectable (R250). -/
def displace (pc tick : Nat) (s : State) : State :=
  { s with flights := s.flights.map fun f =>
      if f.due = tick + 4 then
        match f.effect with
        | .fetch k n a l t u => { f with effect := .fetch k n a l t (u || pcOf a == pc) }
        | e => { f with effect := e }
      else if f.due = tick then
        match f.effect with
        | .loadLine c d a l u => { f with effect := .loadLine c d a l (u || pcOf a == pc) }
        | .storeLine c a d u => { f with effect := .storeLine c a d (u || pcOf d == pc) }
        | e => { f with effect := e }
      else f }

/-- FORCED_REFRESH: a refresh that fell due four intervals ago or earlier (its count is 1 when it falls due) goes into the next slot of the
pseudo-channel, whatever it carries; MSLOT and ref_late (R250). Nothing happens where no refresh is overdue, in another slot, or in a hold
(R299). -/
def execForcedRefresh (stack : Fin 8) (pc : Fin 64) (bank : Fin 16) (slot : BitVec 32) (s : State) : State :=
  let p := 64 * stack.val + pc.val
  let old := refOwed s p bank.val
  if !s.run.on || holding s || old % 16 < 5 || refreshed s p bank.val (old / 16) || slot.toNat != nextSlot s then s
  else
    let s := setClaim p slot.toNat refreshClaim (setRefOwed p bank.val 0 s)
    let s := displace p (s.run.start + 4 * slot.toNat) s
    sticky Reg.MEM_STICKY 4 (viol 7 0 (stack.val / 2) pc.val s)

/-! ### Slot streams (R44, R483) -/

/-- Where the words of a place's step lie: address and number of its training segment, and of its evaluation segment where the step runs
it (R43). -/
def placeSpans (s : State) (key : Nat) : List (Nat × Nat) :=
  let es := (segEntries s).filter fun e => e.key == key
  ((es.filter fun e => !e.evalSeg) ++ if s.run.evalDue then es.filter (·.evalSeg) else []).map fun e => (segBase s e, e.words)

/-- The address of word `k` of a list of spans, and how many words of its span are left from it on. -/
def wordAddr : List (Nat × Nat) → Nat → Option (Nat × Nat)
  | [], _ => none
  | (a, n) :: l, k => if k < n then some (a + 16 * k, n - k) else wordAddr l (k - n)

/-- The words that a refill of stream `key` takes next: their number, the address of the first and how many lie in its line, at most
`limit` words in all. -/
def nextFetch (s : State) (key limit : Nat) : Option (Nat × Nat × Nat) :=
  let k := (streamOf s key).asked
  match wordAddr (placeSpans s key) k with
  | some (a, n) => if k < limit then some (k, a, min (min n (limit - k)) ((64 - a % 64) / 16)) else none
  | none => none

/-- The most words that a stream's buffer of 4,096 has room for (R44). -/
def fetchRoom (s : State) (key : Nat) : Nat := (streamOf s key).issued + 4096

/-- Whether a refill is due on a pseudo-channel: some stream has room and its next words lie there (R251). -/
def refillDue (s : State) (pc : Nat) : Bool :=
  (segEntries s).any fun e => match nextFetch s e.key (fetchRoom s e.key) with
    | some (_, a, _) => pcOf a == pc
    | none => false

/-- The first STREAM slot of a pseudo-channel whose use is not yet final and that no refill has taken (R44, R251). -/
def streamSlot (s : State) (pc : Nat) : Option Nat :=
  ((memList s pc).filter fun e => bits e 51 48 == 2).findSome? fun e =>
    let first := max (bits e 31 0) (ceilDiv (stepTick s + 8) 4)
    (List.range (bits e 31 0 + bits e 47 32 - first)).findSome? fun i =>
      if claimOf s pc (first + i) == 0 then some (first + i) else none

/-- One line of a stream is asked for: its slot is claimed, and its words arrive when the slot ends (log 87). A refill is a scheduled access
of the slot table like any other: one that breaks R248 raises MSLOT at the claim and moves all the same (log 105). -/
def fetchLine (key limit : Nat) (s : State) : State :=
  match nextFetch s key limit with
  | none => s
  | some (k, a, n) =>
    match streamSlot s (pcOf a) with
    | none => s
    | some slot =>
      let clash := lineClash s (pcOf a) slot (bankOf a) (rowOf a) false
      let s := launch (s.run.start + 4 * slot + 4) (.fetch key k a n s.run.start false)
        (claimLine a slot false (setStream key { streamOf s key with asked := k + n } s))
      if clash then viol 7 0 (stackOf a / 2) (pcOf a) s else s

/-- STREAM_FETCH: the configuration system refills a stream buffer by `n` words at most, each line in a STREAM slot of its
pseudo-channel (R44). -/
def execStreamFetch (place : Place) (n : Fin 4097) (s : State) : State :=
  if !s.run.on || schState s != 4 then s
  else
    let key := placeKey place
    let limit := min ((streamOf s key).asked + n.val) (fetchRoom s key)
    each (List.range n.val) (fun _ => fetchLine key limit) s

/-! ### The arbiter (R251, R258 to R263) -/

/-- Weight of an agent. -/
def agentWeight (s : State) (a : Nat) : Nat := fld s (Reg.MEM_ARB_WEIGHT + 4 * a) 7 0

/-- Credit of an agent at a pseudo-channel. -/
def creditOf (s : State) (pc a : Nat) : Nat := get (fun _ => 0) s.mem.credits (8 * pc + a)

/-- Sets an agent's credit. -/
def setCredit (pc a v : Nat) (s : State) : State :=
  { s with mem := { s.mem with credits := put (fun _ => 0) s.mem.credits (8 * pc + a) v } }

/-- Offered slots of the window in progress, 0 when none is. -/
def windowAt (s : State) (pc : Nat) : Nat := get (fun _ => 0) s.mem.window pc

/-- Sets the count of offered slots of the window in progress. -/
def setWindow (pc v : Nat) (s : State) : State :=
  { s with mem := { s.mem with window := put (fun _ => 0) s.mem.window pc v } }

/-- The grant of a pseudo-channel: 1 + agent + 8 × slots left, and the tick of its first line; (0, 0) none. -/
def grantAt (s : State) (pc : Nat) : Nat × Nat := get (fun _ => (0, 0)) s.mem.grants pc

/-- Sets it. -/
def setGrant (pc : Nat) (g : Nat × Nat) (s : State) : State :=
  { s with mem := { s.mem with grants := put (fun _ => (0, 0)) s.mem.grants pc g } }

/-- A window starts: every agent's credit becomes its weight (R259). -/
def startWindow (pc : Nat) (s : State) : State :=
  setWindow pc 0 (each (List.range 6) (fun a s => setCredit pc a (agentWeight s a) s) s)

/-- An offered slot of a window passes; the window ends after MEM_ARB_WINDOW.len of them (R259). -/
def countSlot (pc : Nat) (s : State) : State :=
  let w := windowAt s pc + 1
  setWindow pc (if w ≥ fld s Reg.MEM_ARB_WINDOW 10 0 then 0 else w) s

/-- Whether a slot is offered: unreserved, or reserved and unused: a SCHED slot that no line claims, a STREAM slot with no refill due, a
REF slot with no refresh due (R251). -/
def offered (s : State) (pc slot : Nat) : Bool :=
  claimOf s pc slot == 0 && decide (slot < slotCount s) &&
    (let k := slotKind s pc slot
     if k.1 = 2 then !refillDue s pc
     else if k.1 = 3 then (let d := refOwed s pc k.2; d == 0 || refreshed s pc k.2 (d / 16))
     else true)

/-- The claim of a slot by a line of an agent's request: its agent stands in [27:25]. -/
def agentClaim (r : Req) (write act : Bool) : Nat := claimCode r.bank.val r.row.toNat write act true + 2 ^ 25 * r.agent.val

/-- Whether a claim is of the request's own agent, in the row that the request asks for. -/
def ownRow (r : Req) (c : Nat) : Bool :=
  bits c 23 23 == 1 && bits c 27 25 == r.agent.val && bits c 4 1 == r.bank.val && bits c 20 5 == r.row.toNat

/-- Whether a request's line may be granted: no activation of its bank in the preceding 24 slots but one by which its agent opened the
row it still reads or writes, as in the worked example of "sharing offered slots" (log 106), and no REF of the bank in the preceding 80
(R263). -/
def bankFree (s : State) (pc slot : Nat) (r : Req) : Bool :=
  !((List.range 25).any fun k => k != 0 && activates true r.bank.val (claimAgo s pc slot k) && !ownRow r (claimAgo s pc slot k))
    && !refNear s pc r.bank.val slot 4 320

/-- Whether the row that a request asks for is open by its own agent: the last activation of its bank in the step was that agent's, of that
row, and no REF of the bank came after it (R248, log 106). -/
def rowOpen (s : State) (pc slot : Nat) (r : Req) : Bool :=
  match (List.range (slot + 1)).find? fun k => k != 0 && activates true r.bank.val (claimAgo s pc slot k) with
  | some k => ownRow r (claimAgo s pc slot k) && !refNear s pc r.bank.val slot 4 (4 * k)
  | none => false

/-- A slot of a grant is used: its line is counted and, where the agent pays, a credit charged (R261, R266). `second` is the write of a line
read in the slot before: the one line has been counted and charged there (R242, log 106). -/
def moveLine (pc slot : Nat) (r : Req) (write second charge : Bool) (s : State) : State :=
  let s := setClaim pc slot (agentClaim r write (!rowOpen s pc slot r)) s
  if second then s
  else
    let a := r.agent.val
    bump (Reg.MEM_ARB_LINES + 4 * a) (if charge then setCredit pc a (creditOf s pc a - 1) s else s)

/-- The agent that the fullest-counter rule chooses among requests (R260). -/
def fullest (s : State) (pc : Nat) (reqs : List Req) : Option Req :=
  reqs.foldl (fun best r =>
    if agentWeight s r.agent.val > 0 ∧ creditOf s pc r.agent.val > 0 then
      match best with
      | none => some r
      | some b =>
        let x := creditOf s pc r.agent.val
        let y := creditOf s pc b.agent.val
        if x > y ∨ (x = y ∧ r.agent.val < b.agent.val) then some r else best
    else best) none

/-- The lowest agent of weight 0 among requests (R260). -/
def weightless (s : State) (reqs : List Req) : Option Req :=
  if reqs.any (fun r => decide (agentWeight s r.agent.val > 0)) then none
  else reqs.foldl (fun best r => match best with
    | none => some r
    | some b => if r.agent.val < b.agent.val then some r else best) none

/-- The offered slots that `lines` lines of a request take: a write of part of a line is a read and a write of that line (R242). -/
def slotsFor (r : Req) (lines : Nat) : Nat := if r.partLine then 2 * lines else lines

/-- A grant begins with its first line in an offered slot (R261); a write of part of a line begins with the read. -/
def beginGrant (pc slot lines : Nat) (r : Req) (charge : Bool) (s : State) : State :=
  let n := slotsFor r lines
  let s := moveLine pc slot r (r.write && !r.partLine) false charge s
  setGrant pc (if n ≤ 1 then (0, 0) else (1 + r.agent.val + 8 * (n - 1), s.run.start + 4 * slot)) s

/-- A fresh arbitration of an offered slot (R259, R260, R261, R263). -/
def arbitrate (pc slot : Nat) (reqs : List Req) (s : State) : State :=
  let reqs := reqs.filter fun r => decide (r.lines > 0)
  let ok := reqs.filter fun r => r.ready && bankFree s pc slot r
  let s := if windowAt s pc = 0 || (fullest s pc reqs).isNone then startWindow pc s else s
  let s := countSlot pc s
  match fullest s pc ok, weightless s ok with
  | some r, _ => beginGrant pc slot (min (min (creditOf s pc r.agent.val) 16) (min r.segment r.lines)) r true s
  | none, some r => beginGrant pc slot 1 r false s
  | none, none => s

/-- An offered slot under a grant: its next line, a wait where the bank is not free, or a cut and a fresh arbitration (R261 to R263). -/
def underGrant (pc slot : Nat) (reqs : List Req) (s : State) : State :=
  let g := grantAt s pc
  let a := g.1 % 8 - 1
  let left := g.1 / 8
  let cut := arbitrate pc slot reqs (bump Reg.MEM_ARB_CUTS (setGrant pc (0, 0) s))
  match reqs.find? fun r => r.agent.val == a with
  | none => cut
  | some r =>
    if !r.ready || decide (g.2 + fld s Reg.MEM_ARB_HOLD 15 0 ≤ s.run.start + 4 * slot) then cut
    else
      let s := countSlot pc (if windowAt s pc = 0 then startWindow pc s else s)
      if bankFree s pc slot r then
        let second := r.partLine && left % 2 == 1
        setGrant pc (if left ≤ 1 then (0, 0) else (1 + a + 8 * (left - 1), g.2))
          (moveLine pc slot r (r.write && (!r.partLine || second)) second (decide (0 < agentWeight s a)) s)
      else s

/-- The tick at which the arbiter decides a slot: 8 ticks before it begins (R251), and no sooner than the step begins (log 87). -/
def decisionTick (s : State) (slot : Nat) : Nat := max s.run.start (s.run.start + 4 * slot - 8)

/-- ARBITRATION_POINT: the arbiter decides an offered slot (R251, R259 to R263, R265). Slots are those of a step: with no period running, or
after its tick, there is no point. -/
def execArbitrationPoint (stack : Fin 8) (pc : Fin 64) (slot : BitVec 32) (reqs : List Req) (s : State) : State :=
  let p := 64 * stack.val + pc.val
  let t := decisionTick s slot.toNat
  let s := if s.run.on then runTo t s else s
  if !s.run.on || now s != t || !offered s p slot.toNat || bits (fld s Reg.MEM_STATUS 7 0) stack.val stack.val == 1 then s
  else if (grantAt s p).1 = 0 then arbitrate p slot.toNat reqs s
  else underGrant p slot.toNat reqs s

/-! ### Scrub and repair (R256, R257) -/

/-- SCRUB: agent 5 reads a line and rewrites it when corrected; 0 hours turns the scrub off, and a tripped stack is granted no asynchronous
line (R254, R256, R265). The count of a row's corrected
lines restarts with its first line (R257). -/
def execScrub (line : BitVec 33) (s : State) : State :=
  if fld s Reg.MEM_SCRUB 7 0 = 0 || bits (fld s Reg.MEM_STATUS 7 0) (line.toNat / 2 ^ 30) (line.toNat / 2 ^ 30) == 1 then s
  else
    let a := 64 * line.toNat
    dramRead a false
      (if bits a 9 6 = 0 then { s with mem := { s.mem with corrected := put (fun _ => 0) s.mem.corrected (rowKey a) 0 } } else s)

/-- PPR_RUN's effect: hard repair of every listed row starts (R257). -/
def pprStart (s : State) : State :=
  if castingRuns s || s.mem.repair.isEmpty then s else { s with mem := { s.mem with pprBusy := true } }

/-- One listed row after its repair: contents read by the controller, an asynchronous agent, and rewritten corrected where the code allows
and poisoned otherwise, or the row retired when the bank has no resource left (R257, R387). -/
def repairRow (k : Nat) (ok : Bool) (s : State) : State :=
  let st := k / 2 ^ 26
  let row := k % 2 ^ 26 / 1024
  let bank := k % 1024 / 64
  let pc := k % 64
  if ok then
    let base := st * 2 ^ 36 + row * 2 ^ 20 + bank * 2 ^ 16 + pc * 1024
    let s := each (List.range 16) (fun i s =>
      let a := base + 64 * i
      let m := outcomeOf s (lineOf a)
      let s := dramRead a false s
      dramLine a (dramGet s a 64) (decide (1 < m)) s) s
    wear 4 (st / 2) st 1 s
  else
    sticky Reg.MEM_STICKY 7 (retire (3, st, pc, bank, row) s)

/-- PPR_COMPLETE: the repair of the listed rows ends (R257). `repaired` says row by row, stack by stack, whether the repair succeeded. -/
def execPprComplete (repaired : List Bool) (s : State) : State :=
  if !s.mem.pprBusy then s
  else
    let rows := s.mem.repair.flatMap (·.2)
    let s := each ((List.range rows.length).zip rows) (fun p s => repairRow p.2 ((repaired[p.1]?).getD true) s) s
    let failed := (List.range rows.length).any fun i => !((repaired[i]?).getD true)
    let s := { s with mem := { s.mem with pprBusy := false, repair := [] } }
    let s := setFld Reg.MEM_STATUS 26 19 0 s
    if failed then capacityLoss [] s else s

/-! ### Stack temperature (R264, R265) -/

/-- Whether a whole stretch interval has passed since tick `t`. -/
def wholeInterval (t n : Nat) : Bool := decide (65536 * ceilDiv t 65536 + 65536 ≤ n)

/-- A threshold with hysteresis: 0 not in force, 1 in force, n + 2 in force and below since tick n. `above` says the reading is at the
threshold or above, `below` that it lies under the hysteresis band (R264, R409). -/
def hystStep (cur : Nat) (above below : Bool) (t : Nat) : Nat :=
  if above then 1
  else if cur = 0 then 0
  else if below then
    let since := if cur = 1 then t else cur - 2
    if wholeInterval since t then 0 else since + 2
  else 1

/-- The state of threshold `k` of stack `m`. -/
def heldAt (s : State) (m k : Nat) : Nat := get (fun _ => 0) s.mem.held (8 * m + k)

/-- Sets it. -/
def setHeld (m k v : Nat) (s : State) : State :=
  { s with mem := { s.mem with held := put (fun _ => 0) s.mem.held (8 * m + k) v } }

/-- The request level of a stack: the highest threshold in force. -/
def stackLevel (s : State) (m : Nat) : Nat := (List.range 5).foldl (fun l k => if k ≥ 1 ∧ heldAt s m k ≠ 0 then k else l) 0

/-- The thresholds of a stack against its last valid reading. While the stack is tripped, or from the third readout missed on, all four are
in force; from then on each falls under its hysteresis alone (R264, R265). -/
def stackThresholds (m : Nat) (s : State) : State :=
  let x := sx 8 (fld s (Reg.MEM_TEMP + 4 * m) 7 0)
  let t := fld s Reg.MEM_THERM 6 0
  let d := fld s Reg.MEM_THERM 9 7
  let h : Int := fld s Reg.MEM_THERM 12 10
  let all := bits (fld s Reg.MEM_STATUS 7 0) m m == 1 || decide (3 ≤ get (fun _ => 0) s.mem.misses m)
  each [1, 2, 3, 4] (fun k s =>
    let thr : Int := (t + (k - 1) * d : Nat)
    setHeld m k (hystStep (heldAt s m k) (all || decide (thr ≤ x)) (decide (x + h ≤ thr)) (now s)) s) s

/-- One stack's readout (R264, R265). -/
def stackReadout (m : Nat) (r : Option (BitVec 8)) (s : State) : State :=
  let reg := Reg.MEM_TEMP + 4 * m
  match r with
  | none =>
    let n := get (fun _ => 0) s.mem.misses m + 1
    let s := setFld reg 16 16 0 { s with mem := { s.mem with misses := put (fun _ => 0) s.mem.misses m n } }
    if n = 3 then setFld Reg.MEM_STATUS (8 + m) (8 + m) 1 (sticky Reg.MEM_STICKY 6 s) else s
  | some v =>
    let x := v.toInt
    let s := { s with mem := { s.mem with misses := put (fun _ => 0) s.mem.misses m 0 } }
    let peak := max x (sx 8 (fld s reg 15 8))
    let s := wr reg (v.toNat + 256 * unsx 8 peak + 65536) s
    let s := setFld Reg.MEM_STATUS (8 + m) (8 + m) (if 85 ≤ x then 1 else 0) s
    if 95 ≤ x then
      if bits (fld s Reg.MEM_STATUS 7 0) m m = 1 then s
      else
        let s := setFld Reg.MEM_STATUS m m 1 (sticky Reg.MEM_STICKY 5 s)
        jobFaultRec Reg.MEM_STATUS [(1, m / 2), (8, m)] (rd s Reg.MEM_STATUS) s
    else if x < 90 then setFld Reg.MEM_STATUS m m 0 s
    else s

/-- STACK_TEMP_READOUT: one reading per stack, absent where none is valid (R264, R265). -/
def execStackTempReadout (temps : List (Option (BitVec 8))) (s : State) : State :=
  let s := each (List.range 8) (fun m s => stackThresholds m (stackReadout m ((temps[m]?).getD none) s)) s
  let level := (List.range 8).foldl (fun l m => max l (stackLevel s m)) 0
  let s := setFld Reg.MEM_STATUS 18 16 level s
  localLevel (setFld Reg.PWR_STRETCH 8 6 level s)

end Sys2Proof.Machine
end

