-- ==== Sys2Proof/Machine/Mover.lean ====
section
/-! DEFINITION. MOV words (R480 to R482, R247, R234): COPY, LOAD, STORE, BRIDGE and CAPTURE, with the VERSION monitor (R217) and the
occupancy of declared rings (R53). -/
namespace Sys2Proof.Machine

/-! ### The master region (R215 to R217) -/

/-- The committed version (R216). -/
def version (s : State) : Nat := rd s Reg.SCH_VERSION

/-- First byte and length of buffer `x` of a die (R215). -/
def bufferSpan (s : State) (die x : Nat) : Nat × Nat :=
  let span := 65536 * rd s Reg.SCH_MASTER_SPAN
  (65536 * rd s (Reg.SCH_MASTER_BASE + 4 * die) + x * span, span)

/-- Whether a span of DRAM touches buffer `x` of any die. -/
def touches (s : State) (x a n : Nat) : Bool :=
  (List.range 4).any fun d => let b := bufferSpan s d x; overlap a n b.1 b.2

/-- Whether a span lies in the master region. -/
def inMaster (s : State) (a n : Nat) : Bool := touches s 0 a n || touches s 1 a n

/-- Whether a span touches the step record of either buffer (R215). -/
def inStepRecord (s : State) (a n : Nat) : Bool :=
  [0, 1].any fun x => overlap a n (bufferSpan s 0 x).1 (min (bufferSpan s 0 x).2 (65536 * rd s Reg.SCH_MASTER_REC))

/-- ver as a number. -/
def verOf (w : Slot) : Nat := if flagOf w 1 then 1 else 0

/-- The VERSION monitor on a LOAD (R217). -/
def loadVersionBad (s : State) (w : Slot) (a n : Nat) : Bool :=
  inMaster s a n && (verOf w != version s % 2 || touches s (1 - verOf w) a n || (!w.evalSeg && s.run.commitDone))

/-- Whether a span of DRAM lies in buffer `x` of a die (R215). -/
def insideBuffer (s : State) (x a n : Nat) : Bool :=
  (List.range 4).any fun d => let b := bufferSpan s d x; decide (b.1 ≤ a) && decide (a + n ≤ b.1 + b.2)

/-- Whether the master writes of the period are suppressed: its veto point has decided that it will not commit. A result of the commit point
suppresses none of them (R222). -/
def mastersOff (s : State) : Bool := s.run.suppressed && !s.run.proceeds

/-- The VERSION monitor on a STORE (R217). -/
def storeVersionBad (s : State) (w : Slot) (a n : Nat) : Bool :=
  inMaster s a n && (verOf w != (version s + 1) % 2 || !insideBuffer s ((version s + 1) % 2) a n || !s.run.vetoDone || s.run.commitDone || w.evalSeg
    || inStepRecord s a n)

/-- The state of a buffer in SCH_STAMP (R216). -/
def stampOf (s : State) (x : Nat) : Nat := fld s Reg.SCH_STAMP (2 * x + 1) (2 * x)

/-- Sets it. -/
def setStamp (x v : Nat) (s : State) : State := setFld Reg.SCH_STAMP (2 * x + 1) (2 * x) v s

/-- The first update write of a step puts the retired buffer into state writing (R216). -/
def markWriting (s : State) : State := let x := (version s + 1) % 2; if stampOf s x = 1 then setStamp x 2 s else s

/-! ### Rings (R40, R53) -/

/-- The kind-6 entries of a die in order of declaration: capacity in units and address (DEDUCED, log 10: they number its rings). -/
def ringsOf (s : State) (die : Nat) : List (Nat × Nat) :=
  (resEntries s).filterMap fun e => if e.1 == 6 && (e.2.1 == die || e.2.1 == 0xFF) then some (e.2.2.1, e.2.2.2) else none

/-- The ring of a die that holds a whole span of scratchpad, with its number. -/
def ringAt (s : State) (die a n : Nat) : Option Nat :=
  (ringsOf s die).findIdx? fun r => decide (r.2 ≤ a) && decide (a + n ≤ r.2 + 64 * r.1)

/-- Occupancy of a ring of a physical cell. -/
def ringUse (s : State) (c r : Nat) : Nat := get (fun _ => 0) (cellAt s c).ringBytes r

/-- Sets it. -/
def setRingUse (c r v : Nat) (s : State) : State :=
  onCell c (fun x => { x with ringBytes := put (fun _ => 0) x.ringBytes r v }) s

/-- A producer adds `units` to a ring: more than its capacity raises RING (R53). -/
def ringAdd (die c r units unit : Nat) (w : Slot) (s : State) : State :=
  let v := ringUse s c r + units
  let s := setRingUse c r v s
  if v > ((ringsOf s die)[r]?).elim 0 (·.1) then wordViol 4 unit w s else s

/-- The number among all kind-6 entries of ring `r` of a die (R296; log 9). -/
def worksRing (s : State) (die r : Nat) : Option Nat :=
  let l := (resEntries s).filter fun e => e.1 == 6
  (((List.range l.length).zip l).filter fun p => p.2.2.1 == die || p.2.2.1 == 0xFF)[r]?.map (·.1)

/-- Units that the casting frees in a ring count for the next MARK (R295). -/
def noteFreed (die r n : Nat) (s : State) : State :=
  match worksRing s die r with
  | some i =>
    if i < 8 then { s with fab := { s.fab with freed := put (fun _ => 0) s.fab.freed i (get (fun _ => 0) s.fab.freed i + n) } } else s
  | none => s

/-- A consumer takes `units` from a ring: more than it holds raises RING. -/
def ringTake (c r units unit : Nat) (w : Slot) (s : State) : State :=
  let v := ringUse s c r
  let s := noteFreed (c / 272) r (min v units) (setRingUse c r (v - units) s)
  if v < units then wordViol 4 unit w s else s

/-- The ring that a destination span lies in is filled (R481). -/
def produce (die c a n : Nat) (w : Slot) (s : State) : State :=
  match ringAt s die (64 * a) (64 * n) with
  | some r => ringAdd die c r n 5 w s
  | none => s

/-- The ring that a source span lies in is emptied. -/
def consume (die c a n : Nat) (w : Slot) (s : State) : State :=
  match ringAt s die (64 * a) (64 * n) with
  | some r => ringTake c r n 5 w s
  | none => s

/-! ### The words -/

/-- Sprue bridges between two compute dies (R17, R482). -/
def bridges (d e : Nat) : Nat := (if d % 2 = e % 2 then 0 else 1) + (if d / 2 = e / 2 then 0 else 1)

/-- sp of a MOV word, in lines. -/
def mvSp (w : Slot) : Nat := opf w 95 83
/-- Lines moved. -/
def mvLines (w : Slot) : Nat := opf w 82 70 + 1
/-- DRAM address in lines. -/
def mvDram (w : Slot) : Nat := opf w 69 37
/-- Destination scratchpad line. -/
def mvDsp (w : Slot) : Nat := opf w 59 47

/-- Operands of a COPY that are defined. -/
def copyReady (w : Slot) (_ : State) : Bool :=
  decide (opf w 69 68 = 0) && decide (opf w 46 0 = 0) && decide (mvSp w + mvLines w ≤ 8192) && decide (mvDsp w + mvLines w ≤ 8192)

/-- What a COPY whose operands are defined does on its issue tick. -/
def copyAct (w : Slot) (s : State) : State :=
  let die := placeDie w.place
  let c := placePhys s w.place
  let d := phys s die (opf w 67 60)
  let n := mvLines w
  let s := produce die d (mvDsp w) n w (consume die c (mvSp w) n w s)
  each (List.range n) (fun i s =>
    launchOrLand (now s + i) (.moveLine c (64 * (mvSp w + i)) d (64 * (mvDsp w + i)) (now s + 40 + i)) s) s

/-- COPY (R480, R481). -/
def execCopy (w : Slot) (s : State) : State := issue 0x51 w (copyReady w) (copyAct w) s

/-- Operands of a BRIDGE that are defined. -/
def bridgeReady (w : Slot) (_ : State) : Bool :=
  decide (opf w 69 68 ≠ placeDie w.place) && decide (opf w 46 0 = 0) && decide (mvSp w + mvLines w ≤ 8192)
      && decide (mvDsp w + mvLines w ≤ 8192)

/-- What a BRIDGE whose operands are defined does on its issue tick. -/
def bridgeAct (w : Slot) (s : State) : State :=
  let die := placeDie w.place
  let e := opf w 69 68
  let c := placePhys s w.place
  let d := phys s e (opf w 67 60)
  let n := mvLines w
  let k := bridges die e
  let s := produce e d (mvDsp w) n w (consume die c (mvSp w) n w s)
  each (List.range n) (fun i s =>
    launchOrLand (now s + i) (.moveLine c (64 * (mvSp w + i)) d (64 * (mvDsp w + i)) (now s + 40 + 80 * k + i)) s) s

/-- BRIDGE (R480, R482). -/
def execBridge (w : Slot) (s : State) : State := issue 0x54 w (bridgeReady w) (bridgeAct w) s

/-- Operands of a LOAD or STORE. -/
def dramOk (w : Slot) : Bool :=
  decide (opf w 36 0 = 0) && decide (mvSp w + mvLines w ≤ 8192) && decide (mvDram w + mvLines w ≤ 2 ^ 33)

/-- Bridges from the issuing die to the stack of a DRAM line address; of a span that runs on into a stack of another die, the first line's
(DESIGN CHOICE, log 88). -/
def dramBridges (w : Slot) (line : Nat) : Nat := bridges (placeDie w.place) (stackOf (64 * line) / 2)

/-- The source that a LOAD reads: entry 0 of an enabled intake ring of the issuing die stands for the entry of the batch in use (R325). -/
def intakeSource (s : State) (die a : Nat) : Nat :=
  let base := 2 ^ 20 * rd s (Reg.HST_INTAKE_BASE + 4 * die)
  let size := 2 ^ 20 * fld s (Reg.HST_INTAKE_GEOM + 4 * die) 31 16
  let n := fld s (Reg.HST_INTAKE_GEOM + 4 * die) 15 0
  if fld s Reg.HST_INTAKE_CTRL die die = 1 ∧ base ≤ a ∧ a < base + size ∧ n ≠ 0 then
    a + (rd s Reg.HST_INTAKE_BATCH % n) * size
  else a

/-- Operands of a LOAD that are defined. -/
def loadReady (w : Slot) (_ : State) : Bool :=
  dramOk w

/-- What a LOAD whose operands are defined does on its issue tick. -/
def loadAct (w : Slot) (s : State) : State :=
  let die := placeDie w.place
  let c := placePhys s w.place
  let n := mvLines w
  let a := intakeSource s die (64 * mvDram w)
  let k := dramBridges w (mvDram w)
  let t := now s
  let σ := ceilDiv (stepTick s + 8 + 40 * k) 4
  match claimLines (lineAddrs a n) σ false s with
  | (b :: l, s) => each (b :: l) (fun b s => wordViol b 5 w s) s
  | ([], s) =>
    let s := if loadVersionBad s w a (64 * n) then wordViol 3 5 w s else s
    let s := produce die c (mvSp w) n w s
    each ((List.range n).zip (placeList (lineAddrs a n) σ)) (fun p s =>
      launch (s.run.start + 4 * p.2.2)
        (.loadLine c (64 * (mvSp w + p.1)) p.2.1 (t + 180 + 80 * k + 4 * (p.2.2 - σ)) false) s) s

/-- LOAD (R247, R248, R217, R325, R481). -/
def execLoad (w : Slot) (s : State) : State := issue 0x52 w (loadReady w) (loadAct w) s

/-- Operands of a STORE that are defined. -/
def movStoreReady (w : Slot) (_ : State) : Bool :=
  dramOk w

/-- What a STORE whose operands are defined does on its issue tick. -/
def movStoreAct (w : Slot) (s : State) : State :=
  let die := placeDie w.place
  let c := placePhys s w.place
  let n := mvLines w
  let a := 64 * mvDram w
  let k := dramBridges w (mvDram w)
  let σ := ceilDiv (stepTick s + 60 + 80 * k) 4
  match claimLines (lineAddrs a n) σ true s with
  | (b :: l, s) => each (b :: l) (fun b s => wordViol b 5 w s) s
  | ([], s) =>
    let s := consume die c (mvSp w) n w s
    if mastersOff s && inMaster s a (64 * n) then s
    else
      let s := if storeVersionBad s w a (64 * n) then wordViol 3 5 w s else s
      let s := if inMaster s a (64 * n) then markWriting s else s
      each ((List.range n).zip (placeList (lineAddrs a n) σ)) (fun p s =>
        launch (s.run.start + 4 * p.2.2) (.storeLine c (64 * (mvSp w + p.1)) p.2.1 false) s) s

/-- STORE (R247, R248, R217, R222, R481). A store to the master region is suppressed where the veto point has decided that the
period will not commit. -/
def execMovStore (w : Slot) (s : State) : State := issue 0x53 w (movStoreReady w) (movStoreAct w) s

/-! ### Capture (R234 to R236) -/

/-- The DRAM capture ring: its address and its length in units. -/
def capBase (s : State) : Nat := (rd s Reg.SCH_CAP_BASE_LO + 2 ^ 32 * rd s Reg.SCH_CAP_BASE_HI) / 64 * 64
/-- Units of the capture ring. -/
def capLen (s : State) : Nat := rd s Reg.SCH_CAP_LEN
/-- Whether capture to DRAM runs. -/
def capOn (s : State) : Bool := fld s Reg.SCH_CAP_CTRL 0 0 == 1 && capLen s != 0

/-- Addresses of `n` units of the ring from position `at_`. -/
def capAddrs (s : State) (at_ n : Nat) : List Nat :=
  (List.range n).map fun i => capBase s + 64 * ((at_ + i) % capLen s)

/-- Reserves `n` units at the head: periods that it overwrites leave the ring (R236). -/
def capReserve (n : Nat) (s : State) : State :=
  let total := s.run.capCount + n
  let live := s.run.capMarks.filter fun m => decide (total ≤ m.1 + capLen s)
  let s := if live.length < s.run.capMarks.length then sticky Reg.SCH_STEP_STICKY 3 s else s
  let s := { s with run := { s.run with capCount := total, capMarks := live } }
  wr Reg.SCH_CAP_OLDEST ((live.head?).elim 0 (·.2)) (wr Reg.SCH_CAP_HEAD ((rd s Reg.SCH_CAP_HEAD + n) % capLen s) s)

/-- The header of a capture record (R235). -/
def capHeader (s : State) (type die cell array len gen tick flags phases tile ver : Nat) : List Byte :=
  natLE 1 type ++ natLE 1 die ++ natLE 1 cell ++ natLE 1 array ++ natLE 2 len ++ natLE 2 gen ++ natLE 4 (rd s Reg.SCH_STEP)
    ++ natLE 4 (rngStep s) ++ natLE 4 tick ++ natLE 1 flags ++ natLE 1 phases ++ natLE 1 tile ++ natLE 1 0 ++ natLE 4 ver
    ++ List.replicate 36 0

/-- The load window's step mark (R235, R236). DESIGN CHOICE (log 115): while SCH_CAP_CTRL.en is 0 none is reserved or written. -/
def stepMark (s : State) : State :=
  if !capOn s then s
  else
    let at_ := rd s Reg.SCH_CAP_HEAD
    let m := (s.run.capCount, at_)
    let s := asyncWrite (capBase s + 64 * at_) (capHeader s 4 0 0 0 1 0 0 0 0 0 (version s)) s
    let s := { s with run := { s.run with capMarks := s.run.capMarks ++ [m] } }
    capReserve 1 s

/-- `n` units are taken in a cell's capture ring 63 (R234). -/
def capOccupy (die c unit n : Nat) (w : Slot) (s : State) : State :=
  ringAdd die c 63 n unit w (onCell c (fun x => { x with ring63 := (x.ring63.1 + n, x.ring63.2) }) s)

/-- A record joins capture ring 63 of a cell: its bytes go to the ring's scratchpad and the ring fills (R53, R234). -/
def capRecordPut (die c unit : Nat) (w : Slot) (data : List Byte) (s : State) : State :=
  match (ringsOf s die)[63]? with
  | none => s
  | some r =>
    let n := data.length / 64
    let at_ := (cellAt s c).ring63.1
    let s := each ((List.range n).zip (chunks 64 n data)) (fun p s =>
      spPut c (r.2 + 64 * ((at_ + p.1) % (max r.1 1))) p.2 s) s
    capOccupy die c unit n w s

/-- Whether a die declares ring `r`. -/
def ringDeclared (s : State) (die r : Nat) : Bool := ((ringsOf s die)[r]?).isSome

/-- Operands of a CAPTURE that are defined. DESIGN CHOICE (log 115): in a cell that has not declared ring 63 it raises OPCODE, as R234 has it for
a cap flag there. -/
def captureReady (w : Slot) (s : State) : Bool :=
  decide (opf w 83 0 = 0) && decide (1 ≤ opf w 95 84) && ringDeclared s (placeDie w.place) 63

/-- The units of the CAPTURE words of this tick whose places come before `key`: those issued, and those that wait in the stream buffers
(R236). -/
def captureBefore (s : State) (key : Nat) : Nat :=
  let issued := if s.run.capTick.1 = now s then (s.run.capTick.2.2.filter fun x => decide (x.1 < key)).map (·.2) else []
  let waiting := (s.streams.filter fun kv => decide (kv.1 < key)).filterMap fun kv =>
    let p : Place := .cell (Fin.ofNat 4 (kv.1 / 256)) (Fin.ofNat 256 (kv.1 % 256))
    (nextWord s p).bind fun x =>
      let w := slotOf p false x
      if (x.extractLsb' 120 8).toNat = 0x55 ∧ issueTick s 5 w = now s ∧ captureReady w s then some (opf w 95 84) else none
  (issued ++ waiting).sum

/-- Notes the CAPTURE word of a place among those of this tick, with the head before them. -/
def noteCapture (key n : Nat) (s : State) : State :=
  let old := if s.run.capTick.1 = now s then s.run.capTick.2 else (rd s Reg.SCH_CAP_HEAD, [])
  { s with run := { s.run with capTick := (now s, old.1, old.2 ++ [(key, n)]) } }

/-- What a CAPTURE whose operands are defined does on its issue tick. -/
def captureAct (w : Slot) (s : State) : State :=
  let die := placeDie w.place
  let c := placePhys s w.place
  let n := opf w 95 84
  let x := (cellAt s c).ring63
  if !capOn s then
    setRingUse c 63 0 (onCell c (fun y => { y with ring63 := (x.1, x.1) }) s)
  else
    let r := ((ringsOf s die)[63]?).getD (1, 0)
    let head := if s.run.capTick.1 = now s then s.run.capTick.2.1 else rd s Reg.SCH_CAP_HEAD
    let addrs := capAddrs s (head + captureBefore s (placeKey w.place)) n
    let low := addrs.filter fun a => decide (a < addrs.headD 0)
    let sorted := low ++ addrs.filter fun a => ¬ a < addrs.headD 0
    let k := bridges die (stackOf (addrs.headD 0) / 2)
    let σ := ceilDiv (stepTick s + 60 + 80 * k) 4
    match claimLines sorted σ true s with
    | (b :: l, s) => each (b :: l) (fun b s => wordViol b 5 w s) s
    | ([], s) =>
      let s := ringTake c 63 n 5 w s
      let s := onCell c (fun y => { y with ring63 := (x.1, x.2 + n) }) (capReserve n (noteCapture (placeKey w.place) n s))
      let src := (List.range n).zip addrs
      each (placeList sorted σ) (fun p s =>
        let i := ((src.find? fun q => q.2 == p.1).map (·.1)).getD 0
        launch (s.run.start + 4 * p.2) (.storeLine c (r.2 + 64 * ((x.2 + i) % (max r.1 1))) p.1 false) s) s

/-- CAPTURE (R234, R236, R247). With capture off, the ring is emptied and nothing is written. -/
def execCapture (w : Slot) (s : State) : State := issue 0x55 w (captureReady w) (captureAct w) s

end Sys2Proof.Machine
end

