-- ==== Sys2Proof/Machine/Arrays.lean ====
section
/-! DEFINITION. Analogue arrays (03, 04): the stored column blocks, conversion and correction, and the ARR words EVAL, EVAL8, WRITE,
SWEEP, REPLAY and ASSAY with their verdicts. A raw converter code is a free value that keeps the limits of R117 where the column meets
them (log 11). -/
namespace Sys2Proof.Machine

/-! ### Rows and phases (R72 to R76) -/

/-- Whether the selected row mask masks a row (R94). -/
def rowMasked (s : State) (c m row : Nat) : Bool :=
  m != 0 && bits (rd s (cellKey c (Reg.ARR_ROWMASK + 4 * (8 * (m - 1) + row / 32)))) (row % 32) (row % 32) == 1

/-- The phases of a pass: live rows with their levels, 64 per phase in row order (R74). -/
def phases (s : State) (c m : Nat) (levels : List Int) : List (List (Nat × Int)) :=
  let live := ((List.range levels.length).zip levels).filter fun p => p.2 != 0 && !rowMasked s c m p.1
  chunks 64 (ceilDiv live.length 64) live

/-- A4 levels of 128 input bytes (R69, R72). -/
def levelsA4 (b : List Byte) : List Int := (List.range 256).map fun i => sx 4 (nibble b i)

/-- Levels of the high pass of 256 A8 bytes (R73). -/
def levelsHigh (b : List Byte) : List Int := b.map fun x => x.toInt / 16

/-- Levels of the low pass. -/
def levelsLow (b : List Byte) : List Int := b.map fun x => ((x.toNat % 16 : Nat) : Int)

/-! ### Conversion -/

/-- The exact sum of a column over the rows of a phase, in product units. -/
def phaseSum (s : State) (c a p : Nat) (rows : List (Nat × Int)) : Int :=
  rows.foldl (fun n r => n + (codeAt s c a p r.1).toInt * r.2) 0

/-- A corrected phase code in units of 2^-16 LSB (R84). -/
def corrected (t : Trim) (code : Int) : Int := (16 * code - trimOff t) * (4096 + trimGr t)

/-- Whether a corrected value lies within `num / den` LSB of the exact sum `S` at a range. -/
def within (t : Trim) (code S : Int) (range : Nat) (num den : Int) : Bool :=
  decide (den * (corrected t code * 2 ^ range - S * 65536).natAbs ≤ num * 65536 * 2 ^ range)

/-- A code clipped to the converter's limits. -/
def clip8 (v : Int) : Int := max (-128) (min 127 v)

/-- The code nearest to an exact sum under a column's trims. -/
def nearestCode (t : Trim) (S : Int) (range : Nat) : Int :=
  let g := 4096 + trimGr t
  let den := 16 * g * 2 ^ range
  clip8 ((2 * (S * 65536 + trimOff t * g * 2 ^ range) + den) / (2 * den))

/-- The limit of R117 on an array's column error, in eightieths of an LSB: none in a ramp or without a valid temperature. -/
def errorLimit (s : State) (c a : Nat) : Option Int :=
  let n := nameOf s c
  let x := arrAt s c a
  match cellTemp s n.1 n.2 with
  | none => none
  | some T => if x.rampLeft ≠ 0 then none else some (120 + max 0 (((T - x.tcal.toInt).natAbs : Int) - 64))

/-- The limit on a position of the conversion list: none where no slice serves its group (R97, R100). -/
def colLimit (s : State) (c a q : Nat) : Option Int := if groupLost (arrAt s c a) (q / 8) then none else errorLimit s c a

/-- The raw code of one column in one phase: free, within R117's limit where the column meets it, clipped where the sum leaves the
range (R86, R117; log 11). -/
def rawCode (lim : Option Int) (idx : Nat) (t : Trim) (S : Int) (range : Nat) : Int :=
  let f := (Config.adcCode idx).toInt
  match lim with
  | none => f
  | some l =>
    if !Config.adcWorks idx then f
    else if -128 * 2 ^ range ≤ S ∧ S ≤ 127 * 2 ^ range ∧ within t f S range l 80 then f
    else nearestCode t S range

/-- The codes of the 260 columns in each of a pass's phases, from free index `base` (R96). -/
def passCodes (s : State) (c a range base : Nat) (ph : List (List (Nat × Int))) : List (List Int) :=
  let cols := (List.range 260).map (listCol s c a)
  let trims := cols.map (trimAt s c a)
  ((List.range ph.length).zip ph).map fun p =>
    ((List.range 260).zip (cols.zip trims)).map fun q =>
      rawCode (colLimit s c a q.1) (base + 260 * p.1 + q.1) q.2.2 (phaseSum s c a q.2.1 p.2) range

/-! ### Occupancy (R78 to R80) -/

/-- Arrays of a cell that are occupied. -/
def occupied (s : State) (c : Nat) : Nat := ((cellAt s c).arrs.filter fun x => decide (now s < x.2.busy)).length

/-- Occupies an array for `span` ticks, or discards the word: DBOOK 0 on an occupied array, BUDGET 1 beyond 16 (R58, R79, R80). -/
def claimArray (c a span : Nat) (w : Slot) (body : State → State) (s : State) : State :=
  if now s < (arrAt s c a).busy then wordViol 0 1 w s
  else if occupied s c ≥ 16 then sticky (cellKey c Reg.ARR_STICKY) 4 (wordViol 1 1 w s)
  else body (setArr c a { arrAt s c a with busy := now s + span } s)

/-! ### EVAL, EVAL8 and REPLAY (R81, R84 to R86) -/

/-- Array operand. -/
def arrOp (w : Slot) : Nat := opf w 95 90

/-- Operands of EVAL, EVAL8 and REPLAY: `a8` for two passes, `replay` for REPLAY. -/
def evalOk (s : State) (w : Slot) (a8 replay : Bool) : Bool :=
  decide (opf w 89 83 < sumTiles s (placePhys s w.place)) && decide (opf w 51 0 = 0) && (a8 || decide (opf w 66 64 = 0)) && (replay || decide (opf w 67 67 = 0))
    && (!replay || decide (opf w 63 52 = 0)) && (replay || !a8 || decide (opf w 52 52 = 0))
    && (replay || decide (opf w 63 52 * 128 + (if a8 then 256 else 128) ≤ 524288))
    && (replay || !flagOf w 2 || ringDeclared s (placeDie w.place) 63)

/-- The corrected results of a word: codes by pass with range and shift, trims, exponents (R84, R85); each F16 with its saturation. -/
def evalResults (xe : Nat) (passes : List (Nat × List (List Int))) (trims : List Trim) (exps : List Nat) : List (F16 × Bool) :=
  ((List.range 256).zip (trims.zip exps)).map fun q =>
    let j := q.1
    let t := q.2.1
    let total := passes.foldl (fun n p =>
      n + (p.2.foldl (fun v codes => v + corrected t ((codes[j]?).getD 0)) 0) * 2 ^ p.1) (0 : Int)
    if total = 0 then (0, false) else f16Rne total (((q.2.2 : Int) - 127) + ((xe : Int) - 127) - 16)

/-- Clipped data-column codes (R86). -/
def clips (passes : List (Nat × List (List Int))) : Nat :=
  passes.foldl (fun n p => n + p.2.foldl (fun n codes =>
    n + ((codes.take 256).filter fun x => x == 127 || x == -128).length) 0) 0

/-- Counts a word's clipped codes and saturated results, and sends its results into the tree (R85, R86, R122). -/
def evalFinish (c tile ovf t0 : Nat) (passes : List (Nat × List (List Int))) (out : List (F16 × Bool)) (s : State) : State :=
  let n := clips passes
  let s := if n = 0 then s
    else sticky (cellKey c Reg.ARR_STICKY) 0 (bumpFld (cellKey c Reg.ARR_SAT_COUNT) 31 0 n (arrOvf c ovf n s))
  let k := (out.filter (·.2)).length
  let s := if k = 0 then s else sticky (cellKey c Reg.ARR_STICKY) 1 (arrOvf c ovf k s)
  enterTree c tile t0 (out.map (·.1)) s

/-- A failed assay check (R103). -/
def assayFail (die cell a : Nat) (s : State) : State :=
  let s := sticky Reg.CAL_STICKY 0 (bump Reg.CAL_CHECK_FAILS (calLast die cell a 0x1FF 1 s))
  taint 7 1 die cell a [(1, die), (2, cell), (4, 1), (5, a)] s

/-- Whether the assay columns of a phase fail their check (R102). -/
def assayBad (rows : List (Nat × Int)) (range : Nat) (trims : List Trim) (codes : List Int) : Bool :=
  (List.range 4).any fun k =>
    let E := rows.foldl (fun n r => n + assayCode k r.1 * r.2) (0 : Int)
    let hi : Int := 127 * 2 ^ range
    let lo : Int := -128 * 2 ^ range
    let code := (codes[256 + k]?).getD 0
    let t := (trims[256 + k]?).getD 0
    !(within t code (max lo (min hi E)) range 4 1 || (decide (hi ≤ E) && code == 127) || (decide (E ≤ lo) && code == -128))

/-- A trim record of an array (R115, R235). -/
def trimRecord (s : State) (die cell c a : Nat) : List Byte :=
  capHeader s 2 die cell a 18 (arrAt s c a).gen.toNat (stepTick s) 0 0 0 0
    ++ ((List.range 260).flatMap fun q =>
      let t := targetTrim s c a (listCol s c a q)
      natLE 4 (bits t.toNat 15 8 + 256 * bits t.toNat 25 16 + 262144 * trimN t))
    ++ List.replicate 48 0

/-- The capture records of a word with cap set (R92, R115, R235). -/
def captureCodes (die cell c a tile : Nat) (a8 : Bool) (passes : List (Nat × List (List Int))) (w : Slot) (s : State) : State :=
  let x := arrAt s c a
  let tag := (s.run.steps, x.gen.toNat)
  let s := if x.capAt = tag then s
    else capRecordPut die c 1 w (trimRecord s die cell c a) (setArr c a { x with capAt := tag } s)
  let n := fun i => ((passes[i]?).map fun p => p.2.length).getD 0
  let hdr := capHeader s 1 die cell a (1 + 4 * (n 0 + n 1)) x.gen.toNat (stepTick s)
    ((if a8 then 1 else 0) + (if x.rampLeft = 0 then 0 else 2)) (n 0 + 8 * n 1) tile 0
  let body := passes.flatMap fun p => p.2.flatMap fun codes => (codes.take 256).map fun v => BitVec.ofInt 8 v
  capRecordPut die c 1 w (hdr ++ body) s

/-- Phases run and skipped are counted (R75, R94). -/
def phasesRun (c ran skipped : Nat) (s : State) : State :=
  bumpFld (cellKey c Reg.ARR_PHASES_RUN) 31 0 ran (bumpFld (cellKey c Reg.ARR_PHASES_SKIPPED) 31 0 skipped s)

/-- An EVAL or EVAL8 that has its array (R72 to R77, R84 to R86, R92, R102). -/
def evaluate (a8 : Bool) (w : Slot) (s : State) : State :=
  let die := placeDie w.place
  let cell := placeWhere w.place
  let c := placePhys s w.place
  let a := arrOp w
  let tile := opf w 89 83
  let addr := 128 * opf w 63 52
  let len := if a8 then 256 else 128
  let s := advanceRamp c a (spRead 1 c addr len s)
  let b := spGet s c addr len
  let m := maskOf w
  let high := phases s c m (if a8 then levelsHigh b else levelsA4 b)
  let low := if a8 then phases s c m (levelsLow b) else []
  let base := s.freeCount
  let r := opf w 82 80
  let hc := passCodes s c a r base high
  let lc := passCodes s c a (opf w 66 64) (base + 260 * high.length) low
  let passes := if a8 then [(r + 4, hc), (opf w 66 64, lc)] else [(r, hc)]
  let cols := (List.range 260).map (listCol s c a)
  let trims := cols.map (trimAt s c a)
  let ran := high.length + low.length
  let s := phasesRun c ran ((if a8 then 8 else 4) - ran) (useFree (260 * ran) s)
  let s := if flagOf w 2 then captureCodes die cell c a tile a8 passes w s else s
  let bad := if fld s Reg.CAL_CTRL 7 7 = 0 then 0
    else ((high.zip hc).filter fun p => assayBad p.1 r trims p.2).length
      + ((low.zip lc).filter fun p => assayBad p.1 (opf w 66 64) trims p.2).length
  let s := each (List.range bad) (fun _ s => assayFail die cell a s) s
  evalFinish c tile (opf w 71 68) (now s + (if a8 then 129 else 65)) passes
    (evalResults (opf w 79 72) passes trims (cols.map (expAt s c a))) s

/-- Operands of an EVAL that are defined. -/
def evalReady (w : Slot) (s : State) : Bool :=
  evalOk s w false false

/-- What an EVAL whose operands are defined does on its issue tick. -/
def evalAct (w : Slot) (s : State) : State :=
  claimArray (placePhys s w.place) (arrOp w) 64 w (evaluate false w) s

/-- EVAL (R78, R84). -/
def execEval (w : Slot) (s : State) : State := issue 0x11 w (evalReady w) (evalAct w) s

/-- Operands of an EVAL8 that are defined. -/
def eval8Ready (w : Slot) (s : State) : Bool :=
  evalOk s w true false

/-- What an EVAL8 whose operands are defined does on its issue tick. -/
def eval8Act (w : Slot) (s : State) : State :=
  claimArray (placePhys s w.place) (arrOp w) 128 w (evaluate true w) s

/-- EVAL8 (R73, R84). -/
def execEval8 (w : Slot) (s : State) : State := issue 0x12 w (eval8Ready w) (eval8Act w) s

/-- The next record of replay ring 62 of a cell: its header and its codes (R234, R237). -/
def nextRecord (s : State) (die c : Nat) : List Byte :=
  let r := ((ringsOf s die)[62]?).getD (1, 0)
  let at_ := (cellAt s c).ring62
  (List.range 33).flatMap fun i => spGet s c (r.2 + 64 * ((at_ + i) % (max r.1 1))) 64

/-- A byte of a list. -/
def byteAt (b : List Byte) (i : Nat) : Nat := ((b[i]?).getD 0).toNat

/-- Operands of a REPLAY, the next record included (R81, R234, R237). -/
def replayReady (w : Slot) (s : State) : Bool :=
  let die := placeDie w.place
  let a8 := opf w 67 67 == 1
  let b := nextRecord s die (placePhys s w.place)
  evalOk s w a8 true && ringDeclared s die 62 && byteAt b 0 == 1 && byteAt b 3 == arrOp w && bits (byteAt b 0x14) 0 0 == opf w 67 67
    && byteAt b 0x16 == opf w 89 83

/-- The target trims of a recorded generation by position of the conversion list (R93, R115); free residuals for a generation that the array
has never held since its trims were loaded (log 12). -/
def replayTrims (s : State) (c a gen rng : Nat) : List Trim :=
  (List.range 260).map fun q => (trimsOf s c a gen rng q).getD (
    let f := Config.freeValue (s.freeCount + q)
    BitVec.ofNat 32 (trimN (trimAt s c a (listCol s c a q)) + 256 * (f.toNat % 256) + 65536 * (f.toNat / 256 % 1024)))

/-- What a REPLAY whose operands are defined does on its issue tick. -/
def replayAct (w : Slot) (s : State) : State :=
  let a8 := opf w 67 67 == 1
  claimArray (placePhys s w.place) (arrOp w) (if a8 then 128 else 64) w (fun s =>
    let die := placeDie w.place
    let c := placePhys s w.place
    let a := arrOp w
    let b := nextRecord s die c
    let ph := byteAt b 0x15
    let n0 := bits ph 2 0
    let n1 := if a8 then bits ph 5 3 else 0
    let codes := fun i => ((b.drop (64 + 256 * i)).take 256).map (·.toInt)
    let hc := (List.range n0).map codes
    let lc := (List.range n1).map fun i => codes (n0 + i)
    let passes := if a8 then [(opf w 82 80 + 4, hc), (opf w 66 64, lc)] else [(opf w 82 80, hc)]
    let cols := (List.range 260).map (listCol s c a)
    let trims := replayTrims s c a (leNat ((b.drop 6).take 2)) (leNat ((b.drop 12).take 4))
    let len := byteAt b 4 + 256 * byteAt b 5
    let s := ringTake c 62 len 1 w (useFree 260 s)
    let s := onCell c (fun x => { x with ring62 := x.ring62 + len }) s
    evalFinish c (opf w 89 83) (opf w 71 68) (now s + (if a8 then 129 else 65)) passes
      (evalResults (opf w 79 72) passes trims (cols.map (expAt s c a))) s) s

/-- REPLAY (R93, R237): the correction arithmetic on recorded codes. -/
def execReplay (w : Slot) (s : State) : State := issue 0x16 w (replayReady w) (replayAct w) s

/-! ### WRITE and SWEEP (R88 to R91) -/

/-- The corrected values of logical column `col` at `p` over patterns of rows stay within 3 LSB (R89, R91). `idx` gives the free index of
each phase. -/
def columnPasses (s : State) (c a p col range : Nat) (ph : List (List (Nat × Int))) (idx : Nat → Nat) : Bool :=
  let lim := colLimit s c a col
  let t := trimAt s c a p
  ((List.range ph.length).zip ph).all fun q =>
    let S := phaseSum s c a p q.2
    within t (rawCode lim (idx q.1) t S range) S range 3 1

/-- A pattern's phases: every row with its level, 64 driven rows per phase. -/
def patternPhases (level : Nat → Int) : List (List (Nat × Int)) :=
  let live := ((List.range 256).map fun i => (i, level i)).filter fun p => p.2 != 0
  chunks 64 (ceilDiv live.length 64) live

/-- The verify of R89 on a physical column that has just been programmed with `codes` and `exp`: whether the readback agrees and the analogue
part passes. -/
def verifyColumn (s : State) (c a p col : Nat) (codes : List Byte) (exp : Nat) : Bool :=
  (List.range 256).all (fun i => nibble (colBytes s c a p) i == nibble codes i) && expAt s c a p == exp
    && columnPasses s c a p col 3 (patternPhases fun _ => 1) (fun i => s.freeCount + 260 * i + col)

/-- Programs a column and verifies it (R88, R89): the verdict and the state after both. -/
def programVerified (c a p col : Nat) (codes : List Byte) (exp : Nat) (s : State) : Bool × State :=
  let s := programCol c a p codes exp s
  (verifyColumn s c a p col codes exp, phasesRun c 4 0 (useFree 1040 s))

/-- Programs and verifies a column from the 129 bytes of a fill. -/
def programBlock (c a p col : Nat) (b : List Byte) (s : State) : Bool × State :=
  programVerified c a p col (b.take 128) ((b[128]?).getD 0).toNat s

/-- A WRITE replaces the content of a request held in SPR_LOST, whose fill is outstanding from the request on (R381, R382). -/
def refreshLost (die cell a col : Nat) (content : List Byte) (s : State) : State :=
  match s.spr.lost with
  | none => s
  | some f =>
    let r := rd s Reg.SPR_LOST
    if bits r 3 2 ≠ die ∨ bits r 11 4 ≠ cell then s
    else if bits r 1 0 = 2 then { s with spr := { s.spr with lost := some { f with given := giveColumn a col content f.given } } }
    else if bits r 17 12 = a ∧ bits r 25 18 = col then { s with spr := { s.spr with lost := some { f with latched := content } } }
    else s

/-- A WRITE replaces the content of an outstanding fill of its column, or of its column within a fill of its cell (R382, R384). -/
def refreshFill (die cell a col : Nat) (content : List Byte) (s : State) : State :=
  each [0, 1] (fun slot s =>
    let k := fillKey die slot
    let r := rd s k
    if bits r 1 0 ≠ 0 ∧ bits r 3 2 = 1 ∧ bits r 11 4 = cell ∧ bits r 17 12 = a ∧ bits r 25 18 = col then
      let s := if bits r 1 0 = 3 then setFld k 1 0 2 s else s
      setFill die slot { fillAt s die slot with latched := content, progAt := none } s
    else if bits r 1 0 ≠ 0 ∧ bits r 3 2 = 2 ∧ bits r 11 4 = cell then
      let f := fillAt s die slot
      setFill die slot { f with given := giveColumn a col content f.given } s
    else s) (refreshLost die cell a col content s)

/-- A passed cell fill mirrors the ARR WRITEs of its cell until the map changes (R384). -/
def mirrorWrite (die cell a col : Nat) (codes : List Byte) (exp : Nat) (s : State) : State :=
  each [0, 1] (fun slot s =>
    let r := rd s (fillKey die slot)
    if bits r 3 0 = 11 ∧ bits r 11 4 = cell then
      let d := spareCell die (bits r 29 26)
      programCol d a (physCol s d a col) codes exp s
    else s) s

/-- Operands of a WRITE that are defined. -/
def writeReady (w : Slot) (_ : State) : Bool :=
  decide (opf w 73 64 = 0) && decide (opf w 51 0 = 0)

/-- What a WRITE whose operands are defined does on its issue tick. A suppressed one reads its source and does nothing more (R222). -/
def writeAct (w : Slot) (s : State) : State :=
  claimArray (placePhys s w.place) (arrOp w) 128 w (fun s =>
    let die := placeDie w.place
    let cell := placeWhere w.place
    let c := placePhys s w.place
    let a := arrOp w
    let col := opf w 89 82
    let exp := opf w 81 74
    let src := 128 * opf w 63 52
    let s := spRead 1 c src 128 s
    if s.run.suppressed then s
    else
      let s := if s.run.commitDone then s else wordViol 3 1 w s
      let codes := spGet s c src 128
      let p := physCol s c a col
      let s := refreshFill die cell a col (codes ++ [BitVec.ofNat 8 exp]) s
      if codes = colBytes s c a p ∧ exp = expAt s c a p then bump (cellKey c Reg.ARR_WRITES_UNCHANGED) s
      else
        let r := programVerified c a p col codes exp s
        let s := mirrorWrite die cell a col codes exp (bump (cellKey c Reg.ARR_WRITES_DONE) r.2)
        launch (now s + 128) (.verdict die cell a false (if r.1 then [] else [(col, 1)]) (codes ++ [BitVec.ofNat 8 exp])) s) s

/-- WRITE (R82, R88, R89, R217, R222, R231). -/
def execWrite (w : Slot) (s : State) : State := issue 0x14 w (writeReady w) (writeAct w) s

/-- Whether an effect is the verdict of a WRITE (or a SWEEP) on an array. -/
def isVerdict (die cell a : Nat) (swept : Bool) (e : Effect) : Bool :=
  match e with
  | .verdict d c a' k _ _ => d == die && c == cell && a' == a && k == swept
  | _ => false

/-- Time runs to the tick of a verdict in flight, on which it lands. -/
def toVerdict (die cell a : Nat) (swept : Bool) (s : State) : State :=
  match dueOf s (isVerdict die cell a swept) with
  | some t => runTo t s
  | none => s

/-- WRITE_VERDICT (R89, R90): the verdict at T + 128 of a WRITE that programmed its column; it lands on that tick whatever comes before. -/
def execWriteVerdict (die : Fin 4) (cell : Fin 256) (array : Fin 64) (s : State) : State := toVerdict die.val cell.val array.val false s

/-- The four patterns of R91: levels and range. -/
def sweepPatterns : List (Nat × List (List (Nat × Int))) :=
  [(3, patternPhases fun _ => 1), (3, patternPhases fun _ => -1), (5, patternPhases fun i => if i % 2 = 0 then 7 else 0),
   (5, patternPhases fun i => if i % 2 = 1 then -7 else 0)]

/-- Phases of the patterns before pattern `k`. -/
def phasesBefore (k : Nat) : Nat := if k < 3 then 4 * k else 10

/-- How a column fails a sweep: 0 not, 2 its check, 3 a pattern (R91). A column that fails both reports its check, which comes first (log 90:
the spec does not say which kind). -/
def sweepKind (s : State) (c a col : Nat) : Nat :=
  let p := physCol s c a col
  if blockCheck (colBytes s c a p) (expAt s c a p) ≠ checkAt s c a p then 2
  else if ((List.range 4).zip sweepPatterns).any fun q =>
      !columnPasses s c a p col q.2.1 q.2.2 (fun i => s.freeCount + 260 * (phasesBefore q.1 + i) + col) then 3
  else 0

/-- Operands of a SWEEP that are defined. -/
def sweepReady (w : Slot) (_ : State) : Bool :=
  decide (opf w 89 0 = 0)

/-- What a SWEEP whose operands are defined does on its issue tick. Its failing columns are reported in ascending logical order, so that
ARR_FAIL holds the highest (log 90: the spec does not give the order). -/
def sweepAct (w : Slot) (s : State) : State :=
  claimArray (placePhys s w.place) (arrOp w) 256 w (fun s =>
    let c := placePhys s w.place
    let a := arrOp w
    let fails := ((List.range 256).map fun col => (col, sweepKind s c a col)).filter fun p => p.2 != 0
    let s := setArr c a { arrAt s c a with sweepAt := s.run.steps } (phasesRun c 12 4 (useFree 3120 s))
    launch (now s + 256) (.verdict (placeDie w.place) (placeWhere w.place) a true fails []) s) s

/-- SWEEP (R91). -/
def execSweep (w : Slot) (s : State) : State := issue 0x15 w (sweepReady w) (sweepAct w) s

/-- SWEEP_VERDICT (R91, R90): at T + 256 every failing column is reported. -/
def execSweepVerdict (die : Fin 4) (cell : Fin 256) (array : Fin 64) (s : State) : State := toVerdict die.val cell.val array.val true s

end Sys2Proof.Machine
end

