-- ==== Sys2Proof/Machine/Calib.lean ====
section
/-! DEFINITION. Calibration (R96 to R116): the ASSAY word with its recalibration, the new trim set coming into force, slice rotation,
the programming of column fills (R382, R383, R386), and the writes of CAL_CTRL.force and CAL_TRIM (R104, R119). -/
namespace Sys2Proof.Machine

/-! ### Column fills (R382, R383) -/

/-- Address of the content that the host gave for a fill, if it gave one (R382). -/
def fillSource (s : State) (die slot : Nat) : Option Nat :=
  let hi := rd s (bankKey Reg.SPR_FILL_SRC_HI (2 * die + slot))
  if bits hi 31 31 = 1 then some (rd s (bankKey Reg.SPR_FILL_SRC_LO (2 * die + slot)) + 2 ^ 32 * bits hi 6 0) else none

/-- What a failing WRITE gave a column of a cell fill (R382, R384). -/
def givenContent (s : State) (die slot a col : Nat) : List Byte := get (fun _ => []) (fillAt s die slot).given (256 * a + col)

/-- The content of a column: what a failing WRITE gave it in a cell fill, else its own while it answers its check, else that of the host's
source (R382). -/
def columnContent (s : State) (die slot c a col : Nat) : Option (List Byte) :=
  let p := physCol s c a col
  if givenContent s die slot a col ≠ [] then some (givenContent s die slot a col)
  else if blockCheck (colBytes s c a p) (expAt s c a p) = checkAt s c a p then
    some (colBytes s c a p ++ [BitVec.ofNat 8 (expAt s c a p)])
  else (fillSource s die slot).map fun a => dramGet s a 129

/-- A source in DRAM is read where the content of a column comes from there (R254). -/
def sourceRead (die slot c a col : Nat) (s : State) : State :=
  let p := physCol s c a col
  if givenContent s die slot a col ≠ [] ∨ blockCheck (colBytes s c a p) (expAt s c a p) = checkAt s c a p then s
  else match fillSource s die slot with
    | some x => (readSpan x 129 s).2
    | none => s

/-- The content of a column fill: the failing WRITE's, the column's own when its check matches, the host's source, else none (R382). -/
def fillContent (s : State) (die slot : Nat) : Option (List Byte) :=
  let r := rd s (fillKey die slot)
  let f := fillAt s die slot
  if f.latched.length = 129 then some f.latched
  else columnContent s die slot (phys s die (bits r 11 4)) (bits r 17 12) (bits r 25 18)

/-- The reads that taking the content of a column fill makes. -/
def fillRead (die slot : Nat) (s : State) : State :=
  let r := rd s (fillKey die slot)
  if (fillAt s die slot).latched.length = 129 then s
  else sourceRead die slot (phys s die (bits r 11 4)) (bits r 17 12) (bits r 25 18) s

/-- An active column fill programs its spare, whose verify ends at tick `due` (R383, R386). -/
def fillProgram (die slot due : Nat) (s : State) : State :=
  let r := rd s (fillKey die slot)
  let c := phys s die (bits r 11 4)
  let a := bits r 17 12
  let p := 260 + bits r 29 26
  match fillContent s die slot with
  | none => sticky Reg.SPR_STICKY 5 s
  | some b =>
    let v := programBlock c a p (bits r 25 18) b (fillRead die slot s)
    launch due (.fillVerdict die slot v.1) (setFill die slot { fillAt v.2 die slot with progAt := some (now s) } v.2)

/-- The slot of an active column fill of an array that has not yet programmed its spare. -/
def fillOf (s : State) (die cell a : Nat) : Option Nat :=
  [0, 1].find? fun slot =>
    let r := rd s (fillKey die slot)
    bits r 3 0 == 6 && bits r 11 4 == cell && bits r 17 12 == a && (fillAt s die slot).progAt.isNone

/-! ### Triggers (R104 to R106) -/

/-- |temperature − t_cal| of an array, when the temperature is valid. -/
def tempMove (s : State) (die cell : Nat) (x : Arr) : Option Nat := (cellTemp s die cell).map fun T => (T - x.tcal.toInt).natAbs

/-- Whether a trigger is pending for an array (R104). -/
def triggered (s : State) (die cell : Nat) (x : Arr) : Bool :=
  !x.calibrated || x.pending || decide (x.forceSeen < s.run.force) ||
    match tempMove s die cell x with
    | none => true
    | some d => decide (s.run.delta < d)

/-- The overdue report of an array, once per step (R106). -/
def overdueCheck (die cell a : Nat) (s : State) : State :=
  let c := phys s die cell
  let x := arrAt s c a
  match tempMove s die cell x with
  | none => s
  | some d =>
    if d ≤ 2 * s.run.delta then s
    else
      let s := sticky Reg.CAL_STICKY 1 (calLast die cell a 0x1FF 6 s)
      if x.overdueAt = s.run.steps + 1 then s
      else record 7 (arrLoc die cell a) (rd s Reg.CAL_LAST) (setArr c a { x with overdueAt := s.run.steps + 1 } s)

/-! ### Recalibration (R108 to R114) -/

/-- The raw code of a position in a phase of a recalibration that starts at free index `base`. -/
def calCode (base p q : Nat) : Int := (Config.adcCode (base + 260 * p + q)).toInt

/-- The sum of codes of phases `lo` to `lo + 15` at a position, with the sign of the phase when `signed`. -/
def calSum (base lo q : Nat) (signed : Bool) : Int :=
  (List.range 16).foldl (fun n i => n + (if signed && i % 2 == 1 then -1 else 1) * calCode base (lo + i) q) 0

/-- The reference sum of AC0 and AC1 (R109). -/
def calRef (base : Nat) : Int := calSum base 16 256 true - calSum base 16 257 true

/-- What R109 makes of a data column: its new trims, or the kind of its reject (2 gain, 3 offset). A column that fails both, and a new gr out
of range, are gain rejects (log 91: the spec names one reject for both). -/
def recalColumn (base q : Nat) (sumA : Int) (t : Trim) : Trim ⊕ Nat :=
  let o := calSum base 0 q false
  let sj := calSum base 32 q true
  let n : Int := trimN t
  if 80000 * sj < 88 * sumA * (400 + 3 * n) then .inr 2
  else if o < -128 ∨ 127 < o then .inr 3
  else
    let nNew := (min 16 (max 0 (roundAway (sumA * (400 + 3 * n) - 800 * sj) (6 * sj)))).toNat
    let gr := roundAway (2048 * sumA * (400 + 3 * n)) (sj * (400 + 3 * nNew)) - 4096
    if gr < -512 ∨ 511 < gr then .inr 2 else .inl (mkTrim nNew o gr)

/-- Whether a column with its new trims passes phases 48 to 63 (R111). -/
def recalVerify (base q : Nat) (sumA : Int) (t : Trim) : Bool :=
  (List.range 16).all fun i =>
    let sgn : Int := if i % 2 = 0 then 1 else -1
    decide ((corrected t (calCode base (48 + i) q) * 32 - sgn * sumA * 65536).natAbs ≤ (2 * 32 * 65536 : Int))

/-- A rejected column (R110). -/
def rejectColumn (die cell a col kind : Nat) (s : State) : State :=
  let c := phys s die cell
  let p := physCol s c a col
  let s := sticky Reg.CAL_STICKY 2 (calLast die cell a p kind s)
  let s := recordOf 5 Reg.CAL_LAST (arrLoc die cell a ++ [(6, col)]) (rd s Reg.CAL_LAST) s
  brazeColumn die cell a col [] s

/-- The trims staged by a recalibration, by physical column: data columns that pass R109, and the offsets of the assay columns. DESIGN CHOICE
(log 91): an assay column's offset beyond −128 to 127 keeps its low 8 bits, as R109 gives it neither a reject nor a bound. -/
def stagedTrims (s : State) (c a base : Nat) (sumA : Int) : SMap Trim :=
  (List.range 260).foldl (fun m q =>
    let p := listCol s c a q
    let t := trimAt s c a p
    if q < 256 then
      match recalColumn base q sumA t with
      | .inl v => put (fun _ => 0) m p v
      | .inr _ => put (fun _ => 0) m p t
    else put (fun _ => 0) m p (mkTrim (trimN t) (calSum base 0 q false) (trimGr t))) []

/-- The recalibration of an ASSAY (R108 to R111). DESIGN CHOICE (log 91): where no valid temperature is sampled t_cal stays; after a faulty
reference the trigger stays pending, and neither the generation nor CAL_RECALS moves; the rejected columns of one recalibration are
reported by ascending logical column, so that CAL_LAST keeps the highest. -/
def recalibrate (die cell a : Nat) (s : State) : State :=
  let c := phys s die cell
  let base := s.freeCount
  let s := phasesRun c 64 0 (useFree 16640 s)
  let sumA := calRef base
  if sumA < 3200 ∨ 3968 < sumA then assayFail die cell a s
  else
    let kinds := (List.range 256).map fun q =>
      match recalColumn base q sumA (trimAt s c a (physCol s c a q)) with
      | .inr k => (q, k)
      | .inl v => (q, if recalVerify base q sumA v then 0 else 4)
    let T := ((cellTemp s die cell).getD (arrAt s c a).tcal.toInt)
    let staged := stagedTrims s c a base sumA
    let s := setArr c a { arrAt s c a with
      staged := some staged, stagedT := BitVec.ofInt 12 T, pending := false, forceSeen := s.run.force } (launch (now s + 1024) (.trims c a) s)
    each (kinds.filter fun p => p.2 != 0) (fun p s => rejectColumn die cell a p.1 p.2 s) s

/-- Operands of an ASSAY that are defined. -/
def assayReady (w : Slot) (_ : State) : Bool :=
  decide (opf w 89 0 = 0)

/-- What an ASSAY whose operands are defined does on its issue tick: a CAL_DELTA written before it is in force from here (R105). -/
def assayAct (w : Slot) (s : State) : State :=
  claimArray (placePhys s w.place) (arrOp w) 1024 w (fun s =>
    let s := { s with run := { s.run with delta := fld s Reg.CAL_DELTA 8 0 } }
    let die := placeDie w.place
    let cell := placeWhere w.place
    let c := placePhys s w.place
    let a := arrOp w
    let s := overdueCheck die cell a s
    if triggered s die cell (arrAt s c a) then
      let s := if (cellTemp s die cell).isNone then sticky Reg.CAL_STICKY 6 s else s
      recalibrate die cell a s
    else
      match fillOf s die cell a with
      | some slot => fillProgram die slot (now s + 128) s
      | none => s) s

/-- ASSAY (R82, R104, R106, R108, R383). -/
def execAssay (w : Slot) (s : State) : State := issue 0x13 w (assayReady w) (assayAct w) s

/-- Whether an effect brings a trim set of an array into force. -/
def isTrims (c a : Nat) (e : Effect) : Bool :=
  match e with
  | .trims c' a' => c' == c && a' == a
  | _ => false

/-- TRIM_SET_IN_FORCE (R111 to R114): the tick T + 1,024 of an ASSAY that recalibrated, on which its trim set comes into force whatever comes
before. -/
def execTrimSetInForce (die : Fin 4) (cell : Fin 256) (array : Fin 64) (s : State) : State :=
  match dueOf s (isTrims (phys s die.val cell.val) array.val) with
  | some t => runTo t s
  | none => s

/-! ### Slices (R97 to R100) -/

/-- SLICE_HANDOFF (R98 to R100): the end of a calibrating period reaches an array at once where it is free, else on its first free tick. -/
def execSliceHandoff (die : Fin 4) (cell : Fin 256) (array : Fin 64) (passed : Bool) (s : State) : State :=
  let busy := (arrAt s (phys s die.val cell.val) array.val).busy
  if now s < busy then launch busy (.handoff die.val cell.val array.val passed) s
  else applyHandoff die.val cell.val array.val passed s

/-! ### The assay interval (R107) -/

/-- Steps since an array's last SWEEP. -/
def sweepAge (s : State) (x : Arr) : Nat := s.run.steps - x.sweepAt

/-- The step boundary's check of the assay interval (R107). DESIGN CHOICE (log 91): overdue arrays are reported by ascending die, cell and
array, so that CAL_LAST keeps the highest; an array never swept counts its steps from the reset. -/
def sweepBoundary (s : State) : State :=
  let n := fld s Reg.CAL_INTERVAL 15 0
  if n = 0 ∨ s.run.steps ≤ n then s
  else
    each (List.range 65536) (fun k s =>
      let die := k / 16384
      let cell := k / 64 % 256
      let a := k % 64
      if sweepAge s (arrAt s (phys s die cell) a) ≤ n then s
      else
        let s := sticky Reg.CAL_STICKY 4 (calLast die cell a 0x1FF 7 s)
        record 7 (arrLoc die cell a) (rd s Reg.CAL_LAST) s) s

/-! ### Registers -/

/-- CAL_SEL in force: die, cell, array and column. -/
def calSel (s : State) : Nat × Nat × Nat × Nat :=
  let r := rd s Reg.CAL_SEL
  (bits r 1 0, bits r 9 2, bits r 15 10, bits r 24 16)

/-- The effect of CAL_CTRL.force: a trigger pends on every array (R104). -/
def calForce (s : State) : State := { s with run := { s.run with force := s.run.force + 1 } }

/-- The effect of a write of CAL_TRIM (R118, R119). -/
def calTrimWrite (v : Nat) (s : State) : State :=
  let q := calSel s
  let c := phys s q.1 q.2.1
  let a := q.2.2.1
  let col := q.2.2.2
  if 268 ≤ col then s
  else
    let x := arrAt s c a
    let old := trimAt s c a col
    let n := min 16 (bits v 4 0)
    let t : Trim := if 256 ≤ col ∧ col < 260 then mkTrim (trimN old) (sx 8 (bits v 15 8)) (trimGr old)
      else mkTrim n (sx 8 (bits v 15 8)) (sx 10 (bits v 25 16))
    let s := keepTrims c a s
    setArr c a { arrAt s c a with gen := x.gen + 1, ramp := x.ramp.filter fun e => e.1 != col } (setTrim c a col t s)

end Sys2Proof.Machine
end

