-- ==== Sys2Proof/Machine/Fabric.lean ====
section
/-! DEFINITION. The optical fabric (11): ports and training, control flits, slot tags, the time base, stretch combination, works windows
and holds, routes and parcels. -/
namespace Sys2Proof.Machine

/-- At a casting load, every port outside its mask goes dark (R400). -/
def darkenOthers (s : State) : State :=
  each (List.range 48) (fun p s => match logicalAt s p with
    | some l => if bits (portMask s) l l = 1 then s else darken p s
    | none => darken p s) s

/-- A port is down: a job fault, while a casting runs, naming it and its expected partner (R276). -/
def portFails (p : Nat) (s : State) : State :=
  if castingRuns s then
    let l := (logicalAt s p).getD 0x3F
    recordFull 2 (severityOf 2) [(7, l)] (detailOf Reg.FAB_PORT_STATUS (portStatus s p) ++ if l ≤ 46 then [("partner", partnerOf s l)] else [])
      0 (portStatus s p)
      (jobFault (sticky Reg.FAB_STICKY 4 s))
  else s

/-! ### Training and discovery (R277 to R281) -/

/-- Starts the training sequence of a port that is not UP (R277). -/
def startTraining (p : Nat) (s : State) : State :=
  if portState s p = 5 ∨ !mayTrain s p then s
  else
    let s := portDark p 0 s
    setPort p { portAt s p with stageAt := s.time.cycles + 1, beacons := 0 } s

/-- PORT_TRAINING (R277). -/
def execPortTraining (phys : Fin 48) (s : State) : State := startTraining phys.val s

/-- TRAINING_RETRY: every 100 ms on a port that is not UP and not training (R277). -/
def execTrainingRetry (phys : Fin 48) (s : State) : State :=
  if (portAt s phys.val).stageAt = 0 then startTraining phys.val s else s

/-- DISC_RUN: retrains every port that is not UP (R277, R305). -/
def execDiscRun (_src : Source) (s : State) : State := each (List.range 48) startTraining s

/-- The digest of the fabric map (R278, R432). -/
def mapHash (s : State) : List Byte := digest ((cfgRec s 2).getD [])

/-- A BEACON as the part sends it on a physical port (R278). -/
def beaconFlit (s : State) (p : Nat) : List Byte :=
  let x := portAt s p
  let b := fun (c : Bool) (n : Nat) => if c then n else 0
  let flags := b (cfgNat s 1 2 1 == addrSlot (ownAddr s)) 1 + b (roleActive s) 2 + b (castingRuns s) 4
    + b (roleActive s && fld s Reg.FAB_ADDR 31 16 == ownAddr s) 8
  natLE 1 1 ++ natLE 1 1 ++ natLE 1 p ++ natLE 1 ((logicalAt s p).getD 0xFF) ++ natLE 2 (ownAddr s) ++ natLE 2 (roleAddr s)
    ++ natLE 2 flags ++ natLE 2 (cfgNat s 4 0 2) ++ natLE 4 0 ++ natLE 8 s.time.mandrel.toNat ++ natLE 8 x.lastSent.toNat
    ++ natLE 4 (s.time.mandrel - x.lastAt).toNat ++ natLE 2 (fld s (portKey p) 11 3) ++ List.replicate 26 0
    ++ mapHash s ++ digest Config.identityKey ++ List.replicate 128 0

/-- Sends a BEACON on a physical port. -/
def sendBeacon (p : Nat) (s : State) : State := emit (.ctrl p 1 ((beaconFlit s p).map (·.toNat))) s

/-- A miswired port is reported with both ends (R279). -/
def miswired (p : Nat) (s : State) : State :=
  let s := sticky Reg.FAB_STICKY 1 (setPortState p 6 s)
  recordFull 9 1 [(7, (logicalAt s p).getD 0x3F)] [("FAB_ADDR", rd s Reg.FAB_ADDR), ("FAB_PORT_PARTNER", rd s (bankKey Reg.FAB_PORT_PARTNER p))]
    0 (rd s Reg.FAB_STICKY) s

/-- TRAINING_STAGE_END: a stage ends in its limit (`ok`) or overruns it (R277, R279). -/
def execTrainingStageEnd (phys : Fin 48) (ok : Bool) (s : State) : State :=
  let p := phys.val
  let x := portAt s p
  if x.stageAt = 0 ∨ !mayTrain s p then s
  else if !ok then portDark p 0 s
  else
    let next := setPort p { x with stageAt := s.time.cycles + 1 } s
    match portState s p with
    | 0 | 7 => setPortState p 1 next
    | 1 => setPortState p 2 next
    | 2 => setFld (portKey p) 15 12 0xF (setFld (portKey p) 11 3 0x1FF (setPortState p 3 next))
    | 3 => sendBeacon p (sendBeacon p (sendBeacon p (setPortState p 4 next)))
    | _ =>
      let done := setPort p { x with stageAt := 0, credits := 64 } s
      if partnerFits s p then setPortState p 5 done else miswired p done

/-- Tolerance of the offset to a partner, in 1/16 tick: 1 tick on a bench, 2 in a forge, 64 between forges (R283). -/
def lockTolerance (l : Nat) : Nat := if l ≤ 30 then 16 else if l ≤ 45 then 32 else 1024

/-- A partner's offset beyond the tolerance while a casting runs faults the job (R284). -/
def unlocked (l : Nat) (s : State) : State := jobFaultRec Reg.FAB_LOCK [(7, l)] (rd s Reg.FAB_LOCK) (sticky Reg.FAB_STICKY 5 s)

/-- Whether the mandrel count that a bench or forge partner sent, and the delay on the port, show an offset beyond the tolerance, whatever the
phases of the two REFCLKs: a cycle is 80 ticks (R283, R284; log 14). -/
def beaconOut (s : State) (p l sent : Nat) : Bool :=
  let delay := rd s (bankKey Reg.FAB_PORT_DELAY p)
  let off : Int := 1280 * ((sent : Int) - s.time.mandrel.toNat) + delay
  decide (l ≤ 45) && delay != 0 && decide (1280 + lockTolerance l < off.natAbs)

/-- BEACON: discovery and delay measurement, and the monitoring of the partner's offset; `flit` is the flit as received (R29, R278, R279, R284).
The measured delay is a free value (log 14). -/
def execBeacon (phys : Fin 48) (flit : List Byte) (s : State) : State :=
  let p := phys.val
  let f := fun o n => leNat ((flit.drop o).take n)
  if portState s p < 4 ∨ portState s p = 7 ∨ f 0 1 ≠ 1 ∨ !validAddr (f 4 2) ∨ !validAddr (f 6 2) then s
  else
    let x := portAt s p
    let y : Port := { x with
      beacons := x.beacons + 1
      lastSent := BitVec.ofNat 64 (f 0x10 8), lastAt := s.time.mandrel
      partnerRole := BitVec.ofNat 16 (f 6 2), partnerFlags := BitVec.ofNat 16 (f 8 2)
      partnerLogical := BitVec.ofNat 8 (f 3 1), partnerFeed := BitVec.ofNat 16 (f 0x0A 2)
      mapOk := (flit.drop 0x40).take 32 == mapHash s }
    let s := setPort p y (wr (bankKey Reg.FAB_PORT_PARTNER p) (f 4 2 + 65536 * (f 2 1 % 64)) s)
    let s := setFld Reg.FAB_ADDR 31 16 (findTimekeeper s) s
    let l := (logicalAt s p).getD 47
    let s := if castingRuns s && portUp s l && beaconOut s p l (f 0x10 8) then unlocked l s else s
    if f 0x18 8 = 0 then s
    else let v := fresh s; wr (bankKey Reg.FAB_PORT_DELAY p) (v.1.toNat % 2 ^ 20) v.2

/-- Sends a LOCK on a physical port: the mandrel count, and the one of the last LOCK received as its echo (R273, R283). -/
def sendLock (p : Nat) (s : State) : State := emit (.ctrl p 2 [s.time.mandrel.toNat, (portAt s p).lockSent.toNat]) s

/-- BEACON_TIMER: a BEACON, and on an UP port a LOCK with it (R278, R279, R283; log 14). -/
def execBeaconTimer (phys : Fin 48) (s : State) : State :=
  let p := phys.val
  if portState s p = 5 then sendLock p (sendBeacon p s) else if portState s p = 6 then sendBeacon p s else s

/-- DIM: the partner will darken the port by plan (R281). -/
def execDim (phys : Fin 48) (s : State) : State :=
  let p := phys.val
  if !portLasers s p then s
  else
    let s := portDark p 7 s
    setPort p { portAt s p with planned := true } s

/-- A parcel that came in on a physical port has left its buffer: the credit goes back (R300). -/
def returnCredit (phys : Option Nat) (s : State) : State :=
  match phys with
  | some p => emit (.ctrl p 7 [1]) s
  | none => s

/-- Parcels stored for a physical port go out as far as its credits reach (R300). -/
def flushStored (p : Nat) (s : State) : State :=
  each (s.fab.stored.filter fun x => x.1 == p) (fun x s =>
    let y := portAt s p
    if y.credits = 0 then s
    else
      let s := emit (.parcel p x.2.2) (setPort p { y with credits := y.credits - 1 } s)
      returnCredit x.2.1 { s with fab := { s.fab with stored := s.fab.stored.erase x } }) s

/-- CREDIT: parcel buffer credits come back, and parcels stored for the port go out (R300). -/
def execCredit (phys : Fin 48) (n : Fin 65) (s : State) : State :=
  let x := portAt s phys.val
  flushStored phys.val (setPort phys.val { x with credits := min 64 (x.credits + n.val) } s)

/-! ### Lanes (R275, R276) -/

/-- A lane stops working. -/
def laneDown (p lane : Nat) (s : State) : State := setFld (portKey p) (3 + lane) (3 + lane) 0 s

/-- The window of 2²⁰ codewords of 25.6 ns in progress: 671,088.64 always-on cycles (R270, R275; log 96). -/
def symbolWindow (s : State) : Nat := s.time.cycles * 100 / 67108864

/-- Symbols corrected on a lane in the window in progress (R275). -/
def laneSymbols (s : State) (p lane : Nat) : Nat :=
  let x := portAt s p
  if x.window = symbolWindow s then get (fun _ => 0) x.symbols lane else 0

/-- Whether a lane has corrected more symbols than FAB_LANE_THRESH allows (R275). -/
def laneNoisy (s : State) (p lane : Nat) : Bool := decide (2 ^ fld s Reg.FAB_LANE_THRESH 4 0 < laneSymbols s p lane)

/-- A codeword is corrected: counted, its lane and symbols held where they are the most since the last read, and the symbols added to the
lane's window (R274, R275). -/
def codewordFixed (p lane symbols : Nat) (s : State) : State :=
  if symbols = 0 then s
  else
    let key := bankKey Reg.FAB_PORT_FEC_UE p
    let s := bump (bankKey Reg.FAB_PORT_FEC_CE p) s
    let s := if 12 ≤ symbols ∧ get (fun _ => 0) s.health.inputs (64 + p) = 0 then riskInput (64 + p) 1 s else s
    let s := if fld s key 27 24 < symbols then setFld key 31 28 lane (setFld key 27 24 symbols s) else s
    let x := portAt s p
    let old := if x.window = symbolWindow s then x.symbols else []
    setPort p { x with window := symbolWindow s, symbols := put (fun _ => 0) old lane (get (fun _ => 0) old lane + symbols) } s

/-- Whether a lane works. -/
def laneWorks (s : State) (p lane : Nat) : Bool := fld s (portKey p) (3 + lane) (3 + lane) == 1

/-- A second lane is lost and no spare is left: the port goes down (R276). -/
def portLost (p : Nat) (s : State) : State := portFails p (portDark p 0 s)

/-- A lane other than lane 8 has lost light (R275, R276). One whose swap is under way waits for it; a swap requested for a lane that still
works gives way. -/
def laneLost (p l : Nat) (s : State) : State :=
  let s' := laneDown p l s
  if spareInUse s p || !laneWorks s p 8 then portLost p s
  else match (portAt s p).swapLane with
    | none => requestLane p l s'
    | some (j, _) => if j = l then s' else if laneWorks s p j then requestLane p l s' else portLost p s

/-- Lane 8 has lost light: as long as no lane needs it nothing else is lost (R276). -/
def spareLost (p : Nat) (s : State) : State :=
  let needed := match (portAt s p).swapLane with
    | some (j, _) => !laneWorks s p j
    | none => spareInUse s p
  if needed then portLost p s
  else
    let s := laneDown p 8 s
    setPort p { portAt s p with swapLane := none } s

/-- LANE_DEGRADED: a lane loses light (`dark`), or has corrected too many symbols (R275, R276). -/
def execLaneDegraded (phys : Fin 48) (lane : Fin 9) (dark : Bool) (s : State) : State :=
  let p := phys.val
  let l := lane.val
  if portState s p ≠ 5 ∨ fld s (portKey p) 15 12 = l ∨ (!dark && !laneNoisy s p l) then s
  else if dark then (if l = 8 then spareLost p s else laneLost p l s)
  else if l = 8 || spareTaken s p || !laneWorks s p 8 then s
  else requestLane p l s

/-- The repair of a port whose codewords taint a step again and again: the lane that corrected most moves to the spare where that is free; the
port itself is replaced by hand (R348, R390; log 101). -/
def requestPortLane (l : Nat) (s : State) : State :=
  let p := physOf s l
  let lane := fld s (bankKey Reg.FAB_PORT_FEC_UE p) 31 28
  if portState s p = 5 ∧ lane < 8 ∧ laneWorks s p lane ∧ laneWorks s p 8 ∧ !spareTaken s p then requestLane p lane s else s

/-- LANE: the partner requests a swap, or acknowledges one (R275). -/
def execLane (phys : Fin 48) (lane : Fin 9) (count : BitVec 64) (ack : Bool) (s : State) : State :=
  let p := phys.val
  if portState s p ≠ 5 ∨ ack ∨ lane.val = 8 ∨ spareTaken s p then s
  else emit (.ctrl p 4 [lane.val, count.toNat, 1]) (setPort p { portAt s p with swapLane := some (lane.val, count.toNat) } s)

/-- Lets time pass until the mandrel count reaches `m`. -/
def toMandrel : Nat → Nat → State → State
  | 0, _, s => s
  | f + 1, m, s => if m ≤ s.time.mandrel.toNat then s else toMandrel f m (tickStep s)

/-- Ticks that certainly reach mandrel count `m` (a cycle is at most 80 ticks, R61). -/
def mandrelFuel (s : State) (m : Nat) : Nat := 81 * (m - s.time.mandrel.toNat)

/-- LANE_SWAP: at the named mandrel count the lane's stream moves to lane 8 (R275). -/
def execLaneSwap (phys : Fin 48) (s : State) : State :=
  let p := phys.val
  match (portAt s p).swapLane with
  | none => s
  | some (l, m) =>
    let s := toMandrel (mandrelFuel s m) m s
    let s := sticky Reg.FAB_STICKY 3 (setPort p { portAt s p with swapLane := none } (laneDown p l (setFld (portKey p) 15 12 l s)))
    record 9 [(7, (logicalAt s p).getD 0x3F)] (rd s Reg.FAB_STICKY) s

/-! ### Codewords and tags (R272, R274, R294, R303, R304) -/

/-- UNCORRECTABLE_CODEWORD: counted; taints when it covers a scheduled data flit, drops a parcel, which counts once whatever the number of its
codewords (R274, R301). -/
def execUncorrectableCodeword (phys : Fin 48) (scheduled parcel : Bool) (s : State) : State :=
  let p := phys.val
  let s := sticky Reg.FAB_STICKY 2 (bumpFld (bankKey Reg.FAB_PORT_FEC_UE p) 23 0 1 s)
  let l := (logicalAt s p).getD 0x3F
  let s := if scheduled then taint 9 0 0 l 0 [(7, l)] s else s
  if parcel && !(portAt s p).parcelLost then
    setPort p { portAt s p with parcelLost := true } (sticky Reg.FAB_STICKY 9 (bump Reg.FAB_PARCEL_DROPS s))
  else s

/-- The stages whose BAR flits a logical port brings in the slot of number `k` modulo 64: barrier point, stage and tick, of those begun. -/
def barStages (s : State) (l k : Nat) : List (Bool × Nat × Nat) :=
  let of_ := fun (commit : Bool) (o : Option Barrier) => o.elim [] fun b =>
    ((stagesOf b.issued b.level).filter fun x => decide (x.2.2.1 ≤ l) && decide (l ≤ x.2.2.2) && decide (x.2.1 ≤ now s)
      && (x.2.1 - s.run.start) / 8 % 64 == k).map fun x => (commit, x.1, x.2.1)
  of_ false s.run.veto ++ of_ true s.run.commit

/-- The byte of a BAR flit joins the stage that it belongs to, the last one begun (R293). -/
def barArrives (l k : Nat) (v : Byte) (s : State) : State :=
  let c := barStages s l k
  match c.find? fun x => c.all fun y => decide (y.2.2 ≤ x.2.2) with
  | none => s
  | some x =>
    let join := fun (b : Barrier) => { b with got := put (fun _ => 0) b.got x.2.1 (get (fun _ => 0) b.got x.2.1 ||| v) }
    { s with run := if x.1 then { s.run with commit := s.run.commit.map join } else { s.run with veto := s.run.veto.map join } }

/-- The tick on which the notice of a tag acts that came on a logical port in the slot of number `k` modulo 64: latency-sheet entry 0x0109 after
its slot; the works port's acts as it comes (R292, R346). -/
def noticeTick (s : State) (l k : Nat) : Nat :=
  let lat := if l ≤ 30 then 1280 else 3280
  if !s.run.on || decide (45 < l) then now s
  else
    let first := s.run.start + 8 * k + lat
    if now s ≤ first then first - (first - now s) / 512 * 512 else first + 512 * ceilDiv (now s - first) 512

/-- SLOT_TAG: the tag of a link slot of a logical port, with the barrier byte that its first flit brings in a BAR slot and the codewords
corrected in it by lane and symbols; `overlapped` by an uncorrectable codeword it contributes nothing (R274, R293, R294, R297, R303, R304). -/
def execSlotTag (port : Fin 47) (tag : BitVec 24) (overlapped : Bool) (bar : Option Byte) (fixed : List (Fin 9 × Fin 16)) (s : State) : State :=
  let s := each fixed (fun x s => codewordFixed (physOf s port.val) x.1.val x.2.val s) s
  if overlapped then s
  else
    let t := tag.toNat
    let s := match bar with | some v => barArrives port.val (bits t 10 5) v s | none => s
    let notice := bits t 4 3 != 0
    let s := if notice then launchOrLand (noticeTick s port.val (bits t 10 5)) (.notice port.val (bits t 3 3 == 1) (bits t 4 4 == 1)) s else s
    if port.val = 46 then s
    else
      let s := if !s.fab.frozen && (bits t 16 16 == 1) == s.fab.par then
          { s with fab := { s.fab with held := s.fab.held ||| BitVec.ofNat 4 (bits t 14 11), heldHold := s.fab.heldHold || bits t 15 15 == 1 } }
        else s
      if bits t 19 17 = ratioCode s then s else jobFault (sticky Reg.FAB_STICKY 6 s)

/-! ### The time base (R282 to R284) -/

/-- Whether a logical port leads to the partner that the part follows: the timekeeper, or where no port leads to it the forge partner on
the timekeeper's bench, which follows it directly (R268, R283; log 14). -/
def follows (s : State) (l : Nat) : Bool :=
  let tk := fld s Reg.FAB_ADDR 31 16
  let own := ownAddr s
  let a := rd s (bankKey Reg.FAB_PORT_PARTNER (physOf s l)) % 65536
  a == tk || (addrBench own != addrBench tk && addrSlot own != addrSlot tk && decide (31 ≤ l) && addrBench a == addrBench tk)

/-- The tick counter and the phase of the tick reference step by an offset in 1/16 tick (R283). -/
def stepTicks (offset : Int) (s : State) : State :=
  let t := ((now s : Int) + offset / 16).toNat
  { s with time := { s.time with tick := BitVec.ofNat 64 t, ref3 := 3 * t } }

/-- The works lock: the timekeeper's tick counter steps onto that of a lower forge, and so of forge 0, where it is more than 64 ticks off, and
its forge follows it (R283; log 14). -/
def worksLock (offset : Int) (s : State) : State :=
  if castingRuns s ∨ fld s Reg.FAB_ADDR 31 16 ≠ ownAddr s
      ∨ addrForge (ownAddr s) ≤ addrForge (rd s (bankKey Reg.FAB_PORT_PARTNER (physOf s 46)) % 65536) ∨ offset.natAbs ≤ lockTolerance 46 then s
  else stepTicks offset s

/-- The forge's lock: with no casting running the part follows the timekeeper; with one running it only monitors (R283, R284). -/
def forgeLock (l : Nat) (sent : BitVec 64) (offset : BitVec 16) (s : State) : State :=
  let out := decide (lockTolerance l < offset.toInt.natAbs)
  let s := if follows s l then setFld Reg.FAB_LOCK 15 0 offset.toNat s else s
  if castingRuns s then (if out then unlocked l s else s)
  else if !follows s l then s
  else if !out then setFld Reg.FAB_LOCK 16 16 1 s
  else
    let delay := rd s (bankKey Reg.FAB_PORT_DELAY (physOf s l))
    let s := stepTicks offset.toInt s
    setFld Reg.FAB_LOCK 16 16 0 { s with time := { s.time with mandrel := sent + BitVec.ofNat 64 (delay / 1280) } }

/-- LOCK: `offset` is what the part measured to the partner, in 1/16 tick; an echo measures the delay, a free value (R283, R284; log 14). -/
def execLock (phys : Fin 48) (sent echo : BitVec 64) (offset : BitVec 16) (s : State) : State :=
  let p := phys.val
  match logicalAt s p with
  | none => s
  | some l =>
    if portState s p ≠ 5 ∨ 46 < l then s
    else
      let s := setPort p { portAt s p with lockSent := sent } s
      let s := if echo = 0 then s else let v := fresh s; wr (bankKey Reg.FAB_PORT_DELAY p) (v.1.toNat % 2 ^ 20) v.2
      if l = 46 then worksLock offset.toInt s else forgeLock l sent offset s

/-! ### Stretch combination (R64, R294) -/

/-- Thermometer code of a level, and level of a thermometer code (R63). -/
def thermo (level : Nat) : BitVec 4 := BitVec.ofNat 4 (2 ^ min level 4 - 1)
/-- The level. -/
def thermoLevel (b : BitVec 4) : Nat := ((List.range 4).filter fun i => b.toNat.testBit i).length

/-- Whether a works port that the route tables name lacks the MARK of a window (R297). -/
def markLacking (s : State) (window : Nat) : Bool :=
  let named := (List.range 480).any fun k =>
    let r := rd s (Reg.FAB_WROUTE + 4 * k)
    bits r 31 31 == 1 && bits r 15 0 == ownAddr s
  named && decide (get (fun _ => 0) s.fab.marks (addrForge (worksPartner s)) < window + 1)

/-- The next tick that is a multiple of `n`, the current one included. -/
def nextMultiple (n : Nat) (s : State) : Nat := n * ceilDiv (now s) n

/-- STRETCH_BOUNDARY: the held level comes into force and the local level is held for the next boundary (R64, R294, R297). -/
def execStretchBoundary (s : State) : State :=
  let t := nextMultiple 65536 s
  let s := runTo t s
  let held := s.fab.held
  let s := setFld Reg.FAB_COMBINE 4 4 (if s.fab.heldHold then 1 else 0) (setFld Reg.FAB_COMBINE 3 0 held.toNat s)
  let s := setFld Reg.PWR_STRETCH 23 21 (thermoLevel held) s
  let lack := decide ((t + 65536) % 2 ^ 20 = 0) && decide (2 ^ 20 ≤ t) && markLacking s (t / 2 ^ 20 - 1)
  { s with fab := { s.fab with
      held := thermo (fld s Reg.PWR_STRETCH 5 3), heldHold := lack, par := decide (t / 65536 % 2 = 1), frozen := false } }

/-- STRETCH_HALFWAY: the held level no longer changes (R294). -/
def execStretchHalfway (s : State) : State :=
  let s := runTo (65536 * (now s / 65536) + 32768) s
  { s with fab := { s.fab with frozen := true } }

/-! ### Works windows and holds (R295 to R299) -/

/-- Whether an UP port of a logical class is among those whose status has not come clear; that of a port gone down counts as clear (R293,
R298). -/
def anyUnclear (s : State) (lo hi : Nat) : Bool :=
  s.fab.holdOthers.any fun p => portState s p == 5 && (logicalAt s p).elim false fun l => decide (lo ≤ l) && decide (l ≤ hi)

/-- The status that the part sends on a logical port (R298): on bench ports its own in bit 0 and that of the third stage in bit 1, on forge
ports that of its bench, on the works port its own. -/
def holdStatusFor (s : State) (l : Nat) : Nat :=
  let n := fun (b : Bool) => if b then 1 else 0
  let own := s.fab.holdStatus
  let bench := own || anyUnclear s 0 30
  if l ≤ 30 then n own + 2 * n (bench || anyUnclear s 31 45) else if l ≤ 45 then n bench else n own

/-- The HOLD flits of the part: status, fault, release (R298, R304; when they go out: log 98). -/
def sendHold (release : Option (BitVec 64)) (s : State) : State :=
  let fault := if faultInForce s then 1 else 0
  each (upPorts s) (fun p t => match logicalAt s p with
    | some l => emit (.ctrl p 5 [holdStatusFor s l, fault, (release.map (·.toNat + 1)).getD 0]) t
    | none => t) s

/-- In a hold whose combined status is clear over the three stages, the timekeeper names the release, 200 cycles (8 µs) ahead (R298). -/
def tryRelease (s : State) : State :=
  if holding s && !s.fab.holdStatus && !anyUnclear s 0 45 && !(s.fab.holdFar.any fun p => portState s p == 5) && s.fab.release.isNone
      && fld s Reg.FAB_ADDR 31 16 == ownAddr s then
    let m := s.time.mandrel + 200
    sendHold (some m) { s with fab := { s.fab with release := some m } }
  else s

/-- The statuses that the part sends on the three classes of ports. -/
def holdStatuses (s : State) : List Nat := [0, 31, 46].map (holdStatusFor s)

/-- What a hold brought is taken in; the statuses that it changes are sent again (R298, log 98). -/
def holdChange (change : State → State) (s : State) : State :=
  let s' := change s
  tryRelease (if holdStatuses s' = holdStatuses s then s' else sendHold none s')

/-- The package's own hold status is taken anew (R298). -/
def updateHold (s : State) : State :=
  if !holding s then s
  else holdChange (fun s => { s with fab := { s.fab with holdStatus := markLacking s (now s / 2 ^ 20 - 1) } }) s

/-- MARK: a partner forge's window mark (R295, R296). `freed` are the units freed by receive ring. -/
def execMark (forge : Fin 96) (window : BitVec 44) (veto commit : Byte) (freed : List Nat) (s : State) : State :=
  let s := { s with fab := { s.fab with
    marks := put (fun _ => 0) s.fab.marks forge.val (max (window.toNat + 1) (get (fun _ => 0) s.fab.marks forge.val))
    markBytes := put (fun _ => (0, 0, 0)) s.fab.markBytes (4 * forge.val + window.toNat % 4) (window.toNat + 1, veto, commit) } }
  let s := each ((List.range 8).zip freed) (fun p s =>
    { s with fab := { s.fab with worksCredit := put (ringCap s) s.fab.worksCredit p.1 (get (ringCap s) s.fab.worksCredit p.1 + p.2) } }) s
  updateHold s

/-- Arrays occupied when a hold begins taint the step (R299). -/
def seamCheck (s : State) : State :=
  each (List.range 65536) (fun k s =>
    let die := k / 16384
    let cell := k / 64 % 256
    let a := k % 64
    if now s < (arrAt s (phys s die cell) a).busy then
      taint 11 1 die cell a [(1, die), (2, cell), (4, 1), (5, a)] (sticky Reg.FAB_STICKY 11 s)
    else s) s

/-- A hold begins (R297, R298). -/
def startHold (window : Nat) (s : State) : State :=
  let s := seamCheck s
  let s := setFld Reg.FAB_COMBINE 5 5 1 (bump Reg.FAB_HOLDS (sticky Reg.FAB_STICKY 7 s))
  let s := record 9 [] (rd s Reg.FAB_STICKY) s
  let of_ := fun (hi : Nat) => (upPorts s).filter fun p => (logicalAt s p).elim false fun l => decide (l ≤ hi)
  let s := { s with fab := { s.fab with holdStatus := markLacking s window, holdOthers := of_ 45, holdFar := of_ 30, release := none } }
  tryRelease (sendHold none s)

/-- WINDOW_BOUNDARY: the works port sends the MARK of the window that ends, and a hold in force begins (R295, R297). -/
def execWindowBoundary (s : State) : State :=
  let t := nextMultiple (2 ^ 20) s
  let s := runTo t s
  if t = 0 then s
  else
    let w := t / 2 ^ 20 - 1
    let freed := (List.range 8).map (get (fun _ => 0) s.fab.freed)
    let s := if portUp s 46 then
        emit (.ctrl (physOf s 46) 3 ([addrForge (roleAddr s), w, s.fab.winBytes.1.toNat, s.fab.winBytes.2.toNat] ++ freed)) s
      else s
    let s := { s with fab := { s.fab with freed := [], winBytes := (0, 0) } }
    if fld s Reg.FAB_COMBINE 4 4 = 1 then startHold w s else s

/-- Sets or clears a physical port in a list of those not yet clear. -/
def unclear (p : Nat) (on : Bool) (l : List Nat) : List Nat := l.filter (· != p) ++ if on then [p] else []

/-- HOLD_FLIT: a neighbour's hold status, fault flag or the release, which goes on to every port (R298, R304). -/
def execHoldFlit (phys : Fin 48) (status : BitVec 2) (fault : Bool) (release : Option (BitVec 64)) (s : State) : State :=
  let s := if fault then jobFault (sticky Reg.FAB_STICKY 12 s) else s
  let p := phys.val
  let l := (logicalAt s p).getD 47
  if !holding s || decide (45 < l) then s
  else
    let s := holdChange (fun s => { s with fab := { s.fab with
      holdOthers := unclear p (bits status.toNat 0 0 == 1) s.fab.holdOthers
      holdFar := unclear p (decide (l ≤ 30) && bits status.toNat 1 1 == 1) s.fab.holdFar } }) s
    match release with
    | some m => if s.fab.release.isNone then sendHold (some m) { s with fab := { s.fab with release := some m } } else s
    | none => s

/-- HOLD_RELEASE: the mandrel count reaches the release value and the forge leaves its hold (R298). -/
def execHoldRelease (s : State) : State :=
  match s.fab.release with
  | none => s
  | some m =>
    if !holding s then s
    else
      let s := toMandrel (mandrelFuel s m.toNat) m.toNat s
      setFld Reg.FAB_COMBINE 5 5 0 { s with fab := { s.fab with release := none, holdOthers := [], holdFar := [], holdStatus := false } }

/-! ### Routes and parcels (R300, R301) -/

/-- The bench port to a slot and the forge port to a bench, from the role carried (R268). -/
def benchPort (s : State) (slot : Nat) : Nat := (slot + 31 - addrSlot (roleAddr s)) % 32
/-- The forge port. -/
def forgePort (s : State) (bench : Nat) : Nat := 31 + (bench + 15 - addrBench (roleAddr s)) % 16

/-- Whether the partner of a logical port is active. -/
def partnerActive (s : State) (l : Nat) : Bool := bits (portAt s (physOf s l)).partnerFlags.toNat 1 1 == 1

/-- The next hop within the forge: the logical port to take, if any (rules 1 to 3 of R300). -/
def routeForge (s : State) (dst : Nat) : Option Nat :=
  if addrBench dst = addrBench (roleAddr s) then
    let l := benchPort s (addrSlot dst)
    if portUp s l then some l else none
  else
    let l := forgePort s (addrBench dst)
    if portUp s l && partnerActive s l then some l
    else (List.range 31).find? fun j => portUp s j && partnerActive s j

/-- Entry `g` of the route table for a forge: gateway, via, valid (R301). -/
def wroute (s : State) (f g : Nat) : Nat × Nat × Bool :=
  let r := rd s (Reg.FAB_WROUTE + 4 * (5 * f + g))
  (bits r 15 0, bits r 22 16, bits r 31 31 == 1)

/-- The next hop to a package address (R300). -/
def route (s : State) (dst : Nat) : Option Nat :=
  if addrForge dst = addrForge (roleAddr s) then routeForge s dst
  else if 96 ≤ addrForge dst then none
  else
    match ((List.range 5).map (wroute s (addrForge dst))).find? fun e => e.2.2 with
    | none => none
    | some e =>
      if e.1 = ownAddr s then (if portUp s 46 then some 46 else none) else routeForge s e.1

/-- A parcel that goes nowhere is dropped and counted (R301). -/
def dropParcel (s : State) : State := sticky Reg.FAB_STICKY 9 (bump Reg.FAB_PARCEL_DROPS s)

/-- Sends or stores a parcel for its next hop; `from_` is the physical port whose buffer it holds (R300, R301). -/
def forwardParcel (from_ : Option Nat) (p : Parcel) (s : State) : State :=
  match route s p.dst.toNat with
  | none => returnCredit from_ (dropParcel s)
  | some l =>
    let o := physOf s l
    flushStored o { s with fab := { s.fab with stored := s.fab.stored ++ [(o, from_, p)] } }

/-- A parcel of the part's own with a sequence number and a payload of whole data flits (R300). -/
def sendParcelSeq (dst agent seq : Nat) (payload : List Byte) (s : State) : State :=
  let n := max 1 (ceilDiv payload.length 256)
  let data := payload ++ List.replicate (256 * n - payload.length) 0
  forwardParcel none ⟨BitVec.ofNat 16 dst, BitVec.ofNat 16 (ownAddr s), BitVec.ofNat 8 agent, n, BitVec.ofNat 32 seq, shake256 data 16, data⟩ s

/-- A parcel of the part's own with the next sequence number of its counter. -/
def sendParcel (dst agent : Nat) (payload : List Byte) (s : State) : State :=
  sendParcelSeq dst agent s.fab.seq.toNat payload { s with fab := { s.fab with seq := s.fab.seq + 1 } }

/-- Parcel buffers of a physical port that are taken (R300). -/
def buffersUsed (s : State) (p : Nat) : Nat := (s.fab.stored.filter fun x => x.2.1 == some p).length

/-- PARCEL: stored whole and forwarded; one for the part itself is handed to its agent, whose command follows. `bad` says that an
uncorrectable codeword covers it, which may have counted its drop already (R29, R300, R301). One that finds the port's 64 buffers taken, which
its sender's credits rule out, is dropped (log 97). -/
def execParcel (phys : Fin 48) (p : Parcel) (bad : Bool) (s : State) : State :=
  let counted := (portAt s phys.val).parcelLost
  let s := setPort phys.val { portAt s phys.val with parcelLost := false } s
  if !validAddr p.dst.toNat || !validAddr p.src.toNat then s
  else if bad then returnCredit (some phys.val) (if counted then s else dropParcel s)
  else if 64 ≤ buffersUsed s phys.val then dropParcel s
  else if p.dst.toNat = ownAddr s then returnCredit (some phys.val) s
  else forwardParcel (some phys.val) p s

/-! ### Registers (R305, R306) -/

/-- FAB_CNT_CLR. -/
def execFabCntClr (_src : Source) (s : State) : State :=
  let s := wr Reg.FAB_HOLDS 0 (wr Reg.FAB_HOLD_CYCLES 0 (wr Reg.FAB_PARCEL_DROPS 0 s))
  each (List.range 48) (fun p s => setFld (bankKey Reg.FAB_PORT_FEC_UE p) 23 0 0 (wr (bankKey Reg.FAB_PORT_FEC_CE p) 0 s)) s

end Sys2Proof.Machine
end

