-- ==== Sys2Proof/Machine/Roce.lean ====
section
/-! DEFINITION. The RoCE engine and the mailbox (12): queue pairs, messages and NAKs of the part, the mailbox entries that the host-service
core completes, and what a change of owner clears. Opcodes and syndromes are InfiniBand's (PRESUMED, log 15). -/
namespace Sys2Proof.Machine

/-! ### Queue pairs (R311 to R314) -/

/-- State of a queue pair: 0 RESET, 1 INIT, 2 RTR, 3 RTS, 4 ERROR. -/
def qpState (s : State) (q : Nat) : Nat := bits (ctx s q 0) 2 0
/-- Class of a queue pair. -/
def qpClass (s : State) (q : Nat) : Nat := bits (ctx s q 0) 4 3
/-- Host port of a queue pair. -/
def qpPort (s : State) (q : Nat) : Nat := bits (ctx s q 0) 6 5
/-- Path MTU in bytes. -/
def qpMtu (s : State) (q : Nat) : Nat := 256 * 2 ^ bits (ctx s q 0) 9 7

/-- Sets a field of context register `i`. -/
def setCtx (q i hi lo v : Nat) (s : State) : State := setFld (bankKey (Reg.HST_QP_CTX0 + 4 * i) q) hi lo v s

/-- Whether a queue pair can receive: its port is up and it stands in RTR or RTS. -/
def qpListens (s : State) (q : Nat) : Bool :=
  fld s (Reg.HST_PORT + 4 * qpPort s q) 0 0 == 1 && (qpState s q == 2 || qpState s q == 3)

/-- The host stage of an ingot fails (R369, R371). -/
def hostStageFail (s : State) : State :=
  if fld s Reg.ING_STATUS 2 0 = 4 then
    sticky Reg.ING_STICKY 6 (setFld Reg.ING_STATUS 2 0 0 { s with ing := { s.ing with hostQps := [] } })
  else s

/-- A queue pair enters ERROR; its unacknowledged events are dropped (R312, R322, R369). -/
def qpError (q syndrome : Nat) (s : State) : State :=
  let lost := ((qpAt s q).unacked.filter (·.event)).length
  let s := bumpFld Reg.HST_EVT_DROPS 31 0 lost s
  let s := if fld s Reg.HST_STICKY 1 1 = 0 then wr Reg.HST_QP_ERR (q + 65536 * syndrome) s else s
  let s := sticky Reg.HST_STICKY 1 (setCtx q 0 2 0 4 (setQp q Qp.init s))
  if s.ing.hostQps.contains q then hostStageFail s else s

/-- Sends a NAK or RNR NAK with a syndrome for a PSN. -/
def sendNak (q : Nat) (psn : BitVec 24) (syndrome : Nat) (s : State) : State :=
  emitPacket q 0x11 psn syndrome [] (bump Reg.HST_NAKS s)

/-- A NAK that moves its queue pair to ERROR (R312). -/
def nakError (q : Nat) (psn : BitVec 24) (syndrome : Nat) (s : State) : State := qpError q syndrome (sendNak q psn syndrome s)

/-- Sends the acknowledgement of every packet received so far (R313). -/
def sendAck (q : Nat) (s : State) : State :=
  let x := qpAt s q
  if x.ackOwed = 0 then s
  else emitPacket q 0x11 (BitVec.ofNat 24 (ctx s q 3) - 1) 0 [] (setQp q { x with ackOwed := 0 } s)

/-- `n` more packets are to be acknowledged; the sixteenth makes the part acknowledge (R313). -/
def oweAck (q n : Nat) (s : State) : State :=
  let x := qpAt s q
  let s := setQp q { x with ackOwed := x.ackOwed + n, ackAt := if x.ackOwed = 0 then s.time.cycles else x.ackAt } s
  if x.ackOwed + n ≥ 16 then sendAck q s else s

/-- The opcode of packet `i` of `n` of a message: a SEND, or an RDMA WRITE (R310). -/
def opcodeOf (write : Bool) (i n : Nat) : Nat :=
  (if n = 1 then 4 else if i = 0 then 0 else if i + 1 = n then 2 else 1) + (if write then 6 else 0)

/-- Sends a message on a queue pair in packets of its MTU. -/
def sendMessage (q : Nat) (write : Bool) (va rkey : Nat) (data : List Byte) (s : State) : State :=
  let m := qpMtu s q
  let n := max 1 (ceilDiv data.length m)
  each (List.range n) (fun i s =>
    sendPacket q (opcodeOf write i n) (va + m * i) rkey ((data.drop (m * i)).take m) 0 false s) s

/-- Sends every unacknowledged packet from `psn` on again (R313). -/
def resend (q : Nat) (s : State) : State :=
  each (qpAt s q).unacked (emitPkt q) (setQp q { qpAt s q with sentAt := s.time.cycles } s)

/-- Whether a queue pair may move from a state to another by a write of its context (R312). -/
def qpMove (a b : Nat) : Bool := b == 0 || (a == 0 && b == 1) || (a == 1 && b == 2) || (a == 2 && b == 3)

/-- Whether the other fields of a context word 0 are consistent: a path MTU and a timeout that exist (R310, R312, R313). -/
def qpConsistent (v : Nat) : Bool := decide (bits v 9 7 ≤ 4) && decide (1 ≤ bits v 14 10)

/-- A queue pair in RESET: nothing sent or received, and the rate at which it starts, the line rate (R312, R327). -/
def qpReset (q : Nat) (s : State) : State := setCtx q 6 31 0 2000 (setQp q Qp.init s)

/-- A write of a context word of the selected queue pair: discarded in RTR and RTS where it changes another field than state (R312, R331);
`rw` are the bits that take writes. -/
def ctxWrite (i v : Nat) (s : State) : State :=
  let q := fld s Reg.HST_QP_SEL 12 0
  let old := ctx s q i
  let live := qpState s q == 2 || qpState s q == 3
  if i ≠ 0 then (if live && v != old then s else wr (bankKey (Reg.HST_QP_CTX0 + 4 * i) q) v s)
  else if live && v / 8 != old / 8 then s
  else
    let t := if qpMove (bits old 2 0) (bits v 2 0) && (bits v 2 0 == 0 || qpConsistent v) then bits v 2 0 else bits old 2 0
    let s := wr (bankKey Reg.HST_QP_CTX0 q) (v / 8 * 8 + t) s
    if t = 0 then qpReset q s else s

/-! ### The mailbox (R319 to R321) -/

/-- The 64 bytes of a mailbox entry. -/
def mboxEntry (s : State) (slot : Nat) : List Byte := (List.range 16).flatMap fun i => natLE 4 (rd s (Reg.HST_MBOX + 64 * slot + 4 * i))

/-- Writes a mailbox entry. -/
def mboxPut (slot : Nat) (b : List Byte) (s : State) : State :=
  each (List.range 16) (fun i s => wr (Reg.HST_MBOX + 64 * slot + 4 * i) (leNat ((b.drop (4 * i)).take 4)) s) s

/-- A field of an entry. -/
def entryField (b : List Byte) (off n : Nat) : Nat := leNat ((b.drop off).take n)

/-- HST_MBOX_CONS passes every entry whose predecessors have all completed. -/
def advanceCons : Nat → State → State
  | 0, s => s
  | f + 1, s =>
    let k := rd s Reg.HST_MBOX_CONS
    if get (fun _ => false) s.host.finished k then
      advanceCons f (wr Reg.HST_MBOX_CONS (k + 1)
        { s with host := { s.host with finished := put (fun _ => false) s.host.finished k false } })
    else s

/-- Entry number `k` completes with a status; one posted by SEND goes back as a SEND (R319, R320). -/
def finishEntry (k status : Nat) (s : State) : State :=
  let slot := k % 64
  let s := setFld (Reg.HST_MBOX + 64 * slot) 15 8 status s
  let q := get (fun _ => 0) s.host.from_ slot
  let s := { s with host := { s.host with
    finished := put (fun _ => false) s.host.finished k true
    from_ := put (fun _ => 0) s.host.from_ slot 0 } }
  let s := advanceCons 64 s
  if q = 0 then s else if qpState s (q - 1) = 3 then sendMessage (q - 1) false 0 0 (mboxEntry s slot) s else s

/-- Whether the reserved bytes and bits of an entry are 0 (R319). -/
def entryClean (b : List Byte) : Bool :=
  bits (entryField b 4 4) 31 20 == 0 && entryField b 9 1 == 0 && (b.drop 16).all (· == 0)

/-- The cell groups that an entry names, as (die, group), lowest first. -/
def entryGroups (b : List Byte) : List (Nat × Nat) :=
  let m := entryField b 4 4
  allGroups.filter fun g => bits m g.1 g.1 == 1 && bits m (4 + g.2) (4 + g.2) == 1

/-- Whether the fields of a register command are in range (R319). -/
def entryOk (b : List Byte) : Bool := entryClean b && !(entryGroups b).isEmpty && decide (entryField b 8 1 ≤ 31)

/-- An SREG_WRITE takes effect at a load window (R321). -/
def applySreg (b : List Byte) (s : State) : State :=
  each (entryGroups b) (fun g s => setSreg g.1 g.2 (entryField b 8 1) (BitVec.ofNat 16 (entryField b 10 2)) s) s

/-- An SREG_WRITE that is served takes effect for words that issue from the next tick on (R194, R321). -/
def servedSreg (b : List Byte) (s : State) : State :=
  each (entryGroups b) (fun g s =>
    launch (now s + 1) (.sregWrite g.1 g.2 (entryField b 8 1) (BitVec.ofNat 16 (entryField b 10 2))) s) s

/-- A scalar register as the core that writes it reads it back: with the write of its own that takes effect on the next tick. -/
def sregReadBack (s : State) (die g r : Nat) : F16 :=
  s.flights.foldl (fun v f => match f.effect with
    | .sregWrite d h q x => if d = die ∧ h = g ∧ q = r then x else v
    | _ => v) (sregAt s die g r)

/-- The host-service core takes up the next posted entry when its command satisfies `p`, while the hub's main domain, of which it is part,
runs (R320, R393, R401). -/
def serveEntry (p : Nat → Bool) (f : Nat → List Byte → State → State) (s : State) : State :=
  let k := s.host.taken.toNat
  if !hubRuns s || k == rd s Reg.HST_MBOX_PROD then s
  else
    let b := mboxEntry s (k % 64)
    if p (entryField b 0 1) then f k b { s with host := { s.host with taken := s.host.taken + 1 } } else s

/-- NOP: the entry completes with no effect. An entry of an undefined command is taken up here as well, with status 0x02 (R319). -/
def execNop (s : State) : State :=
  serveEntry (fun c => c == 0 || decide (3 ≤ c)) (fun k b s =>
    finishEntry k (if !entryClean b then 3 else if entryField b 0 1 = 0 then 1 else 2) s) s

/-- SREG_WRITE: from the next tick on, or waiting for its at_step (R319, R321). -/
def execSregWrite (s : State) : State :=
  serveEntry (· == 1) (fun k b s =>
    if !entryOk b then finishEntry k 3 s
    else if entryField b 12 4 = 0xFFFFFFFF then finishEntry k 1 (servedSreg b s)
    else { s with host := { s.host with waiting := s.host.waiting ++ [(k, entryField b 12 4)] } }) s

/-- SREG_READ: the register of the lowest named group (R319). -/
def execSregRead (s : State) : State :=
  serveEntry (· == 2) (fun k b s =>
    if !entryOk b then finishEntry k 3 s
    else
      let g := (entryGroups b).headD (0, 0)
      finishEntry k 1 (setFld (Reg.HST_MBOX + 64 * (k % 64) + 8) 31 16 (sregReadBack s g.1 g.2 (entryField b 8 1)).toNat s)) s

/-- At a load window the waiting SREG_WRITEs that are due take effect in mailbox order, superseded where an entry of the table names the
register (R149, R321). `comps` are the comp_sreg of the table. -/
def applyWaiting (rng : Nat) (comps : List Nat) (s : State) : State :=
  let due := s.host.waiting.filter fun w => decide (w.2 ≤ rng)
  let s := { s with host := { s.host with waiting := s.host.waiting.filter fun w => ¬ w.2 ≤ rng } }
  each due (fun w s =>
    let b := mboxEntry s (w.1 % 64)
    if comps.contains (entryField b 8 1) then finishEntry w.1 4 (applySreg b s) else finishEntry w.1 1 (applySreg b s)) s

/-- Entries in service end with status 0x03 when the core that serves them fails (R380). -/
def failEntries (s : State) : State :=
  let l := s.host.waiting
  each l (fun w s => finishEntry w.1 3 s) { s with host := { s.host with waiting := [] } }

/-! ### Registers and owner (R329 to R331) -/

/-- HST_CTRL.cnt_clr (R330). -/
def execHstCntClr (_src : Source) (s : State) : State :=
  each [Reg.HST_RX_DROPS, Reg.HST_NAKS, Reg.HST_CNP_RX, Reg.HST_CNP_TX, Reg.HST_EVT_DROPS] (fun r s => wr r 0 s) s

/-- What a new owner clears: every queue pair, regions 1 to 255 and the mailbox (R329). -/
def ownerClear (s : State) : State :=
  let banked := fun (a k : Nat) => decide (2 ^ 40 ≤ k) && decide ((k - 2 ^ 40) / 2 ^ 20 = a)
  let mbox := fun (k : Nat) => decide (Reg.HST_MBOX ≤ k) && decide (k < Reg.HST_MBOX + 4096)
  let qps := (s.regs.filter fun kv => banked Reg.HST_QP_CTX0 kv.1).map (·.1)
  let mrs := (s.regs.filter fun kv => banked Reg.HST_MR_KEY kv.1).map (·.1)
  let s := each qps (fun k s => qpReset ((k - 2 ^ 40) % 2 ^ 20) (setFld k 2 0 0 s)) s
  let s := each mrs (fun k s => setFld k 26 26 0 s) s
  let s := { s with regs := forget mbox s.regs, host := ⟨[], 0, [], [], []⟩ }
  hostStageFail (wr Reg.HST_MBOX_PROD 0 (wr Reg.HST_MBOX_CONS 0 s))

end Sys2Proof.Machine
end

