-- ==== Sys2Proof/Machine/Ingots.lean ====
section
/-! DEFINITION. Ingots and restart (14): calls, the warden and TAKE, the mould, buddy and host stages, guest slots, fetch and
restore. -/
namespace Sys2Proof.Machine

/-! ### Registers and places -/

/-- ING_STATUS.stage: 0 idle, 1 pending, 2 copy, 3 buddy, 4 host, 5 host_ack (R377). -/
def stage (s : State) : Nat := fld s Reg.ING_STATUS 2 0
/-- Sets it. -/
def setStage (v : Nat) (s : State) : State := setFld Reg.ING_STATUS 2 0 v s
/-- First byte of the mould. -/
def mouldBase (s : State) : Nat := 65536 * rd s Reg.ING_MOULD_BASE
/-- First byte of a guest slot. -/
def guestBase (s : State) (slot : Nat) : Nat := 65536 * (rd s Reg.ING_GUEST_BASE + slot * rd s Reg.ING_GUEST_LEN)
/-- Whether a guest slot is held. -/
def guestHeld (s : State) (slot : Nat) : Bool := fld s Reg.ING_GUEST_STAT slot slot == 1
/-- Own feed identifier. -/
def ownFeed (s : State) : Nat := fld s Reg.ING_FEED 15 0
/-- A record of class 11 (R351). -/
def ingotRecord (s : State) : State := record 11 [] (rd s Reg.HLT_RISK) s

/-- The warden: the lowest package address of the group table (R362). -/
def wardenAddr (s : State) : Nat := lowest (ownAddr s) ((groupEntries s).map (·.2))

/-- The lowest-addressed active member of a forge. -/
def forgeHead (s : State) (forge : Nat) : Option Nat :=
  match ((groupEntries s).map (·.2)).filter (addrForge · == forge) with
  | [] => none
  | l => some (lowest 0 l)

/-! ### Reading DRAM as an asynchronous agent -/

/-- Writes a span of the 39-bit address space as an asynchronous agent (R241, R242). -/
def writeSpan (a : Nat) (data : List Byte) (s : State) : State := asyncWrite (a % 2 ^ 39) data s

/-! ### Calls, the warden, TAKE (R361, R362) -/

/-- Addresses of the part's slot in the other benches of its forge, those that the group table has a package of. -/
def benchSlots (s : State) : List Nat :=
  let a := ownAddr s
  let here := ((groupEntries s).map (·.2)).filter fun x => addrForge x == addrForge a
  ((List.range 16).filter fun b => b != addrBench a && here.any fun x => addrBench x == b).map fun b => a - 32 * addrBench a + 32 * b

/-- Addresses of the part's 31 bench partners. -/
def benchMates (s : State) : List Nat :=
  let a := ownAddr s
  ((List.range 32).filter (· != addrSlot a)).map fun k => a - addrSlot a + k

/-- Sends TAKE parcels and keeps them for two repetitions (R362). -/
def sendTakes (dsts : List Nat) (target : Nat) (s : State) : State :=
  let l := dsts.map fun d => (d, target)
  let payload := natLE 4 (rd s Reg.HST_OWNER) ++ natLE 4 target
  each dsts (fun d s => sendParcel d 0x23 payload s) { s with ing := { s.ing with takeSent := l, takeRepeats := 2 } }

/-- Whom a package passes a TAKE on to, by the package it came from: the heads of the other forges when it is the warden's own, its slot
in the other benches for a head of a forge, its bench partners at both stages (R362). -/
def takeOnward (s : State) (src : Nat) : List Nat :=
  let own := ownAddr s
  let head := forgeHead s (addrForge own) == some own
  let heads := ((List.range 96).filterMap (forgeHead s)).filter (· != own)
  if src = own then heads ++ (if head then benchSlots s else []) ++ benchMates s
  else if head && src == wardenAddr s then benchSlots s ++ benchMates s
  else if addrForge src = addrForge own ∧ addrSlot src = addrSlot own ∧ addrBench src ≠ addrBench own then benchMates s
  else []

/-- Always-on cycles within which a TAKE of the same target is a later copy: the warden sends no other TAKE for gap_s seconds (R362;
log 102). -/
def takeGap (s : State) : Nat := 25000000 * max 1 (fld s Reg.ING_MARGIN 23 16)

/-- Whether a TAKE is a later copy of the one last acted on (R362). -/
def takeCopy (src target : Nat) (s : State) : Bool :=
  match s.ing.acted with
  | some (t, at_) => src != ownAddr s && t == target && decide (s.time.cycles < at_ + takeGap s)
  | none => false

/-- A TAKE that the part acts on (R362, R371). -/
def acceptTake (src target : Nat) (s : State) : State :=
  if takeCopy src target s then s
  else
    let s := sendTakes (takeOnward s src) target { s with ing := { s.ing with acted := some (target, s.time.cycles) } }
    if target ≤ rngStep s then ingotRecord (sticky Reg.ING_STICKY 4 s)
    else
      let s := wr Reg.ING_TARGET target { s with ing := { s.ing with target := some target } }
      if stage s = 0 then setStage 1 s else s

/-- A call reaches the warden (R362). -/
def wardenCall (s : State) : State :=
  let gap := 25000000 * fld s Reg.ING_MARGIN 23 16
  let recent := match s.ing.takeAt with
    | some t => decide (s.time.cycles < t + gap)
    | none => false
  if wardenAddr s ≠ ownAddr s || recent then s
  else
    let target := (rngStep s + fld s Reg.ING_MARGIN 15 0) % 2 ^ 32
    acceptTake (ownAddr s) target { s with ing := { s.ing with takeAt := some s.time.cycles } }

/-- Sends a CALL to the warden. A call for a buddy that is gone gives reason 1, risk (log 103). -/
def sendCall (cause : Nat) (s : State) : State :=
  if wardenAddr s = ownAddr s then wardenCall s else sendParcel (wardenAddr s) 0x22 (natLE 1 (if cause = 4 then 1 else cause)) s

/-- The part calls for an ingot (R361): cause 1 risk, 2 age, 3 software, 4 a buddy that is gone (R370). -/
def callIngot (reason : Nat) (s : State) : State :=
  let s := if s.ing.calls.contains reason then s else { s with ing := { s.ing with calls := s.ing.calls ++ [reason] } }
  sendCall reason (setFld Reg.ING_STATUS 3 3 1 s)

/-- ING_AGE (R372): always-on seconds. -/
def ingAge (s : State) : Nat :=
  match s.ing.ageFrom with
  | some m => min (2 ^ 32 - 1) ((s.time.mandrel.toNat - m) / 25000000)
  | none => 0

/-- CALL (R362). -/
def execCall (_p : Parcel) (s : State) : State := wardenCall s

/-- TAKE (R362): a copy that names another job is ignored. -/
def execTake (p : Parcel) (s : State) : State :=
  if leNat (p.payload.take 4) = rd s Reg.HST_OWNER then acceptTake p.src.toNat (leNat ((p.payload.drop 4).take 4)) s else s

/-- The age runs anew: its call and its report are over (R361, R372). -/
def ageRestart (from_ : Option Nat) (s : State) : State :=
  { s with ing := { s.ing with ageFrom := from_, overdue := false, calls := s.ing.calls.filter (· != 2) } }

/-- INGOT_AGE_CALL: ING_AGE reaches call_s (R361). -/
def execIngotAgeCall (s : State) : State :=
  if s.ing.calls.contains 2 || decide (ingAge s < fld s Reg.ING_POLICY 15 0) || s.ing.ageFrom.isNone then s else callIngot 2 s

/-- INGOT_OVERDUE: ING_AGE reaches max_s (R372). -/
def execIngotOverdue (s : State) : State :=
  if s.ing.overdue || decide (ingAge s < fld s Reg.ING_POLICY 31 16) || s.ing.ageFrom.isNone then s
  else ingotRecord (sticky Reg.ING_STICKY 1 { s with ing := { s.ing with overdue := true } })

/-- CALL_REPEAT: standing calls go out again (R361). A risk call stands while the monitor is disarmed (R355), an age call while the age
stands at call_s or above. -/
def execCallRepeat (s : State) : State :=
  let stands := fun (r : Nat) =>
    if r = 1 then fld s Reg.HLT_RISK_CFG 21 21 == 0 else if r = 2 then decide (fld s Reg.ING_POLICY 15 0 ≤ ingAge s) else true
  each (s.ing.calls.filter stands) sendCall s

/-- TAKE_REPEAT (R362). -/
def execTakeRepeat (s : State) : State :=
  if s.ing.takeRepeats = 0 then s
  else
    each s.ing.takeSent (fun d s => sendParcel d.1 0x23 (natLE 4 (rd s Reg.HST_OWNER) ++ natLE 4 d.2) s)
      { s with ing := { s.ing with takeRepeats := s.ing.takeRepeats - 1 } }

/-- ING_CALL (R361). -/
def execIngCall (_src : Source) (s : State) : State := callIngot 3 s

/-! ### The take and the mould (R358, R359, R363, R364) -/

/-- An ingot is abandoned (R364, R365). -/
def abandon (s : State) : State := ingotRecord (setStage 0 (sticky Reg.ING_STICKY 2 s))

/-- The manifest's bytes up to its section table, at the result tick of the taking commit; same_feed is marked once the buddy has answered
(R358, R368). -/
def manifestHead (s : State) : List Byte :=
  let f := fun k => natLE 4 (rd s k)
  let buddy := rd s Reg.ING_BUDDY
  natLE 4 0x474E4951 ++ natLE 2 1 ++ natLE 2 0 ++ f Reg.ING_LAST_SERIAL ++ f Reg.SCH_VERSION ++ natLE 4 (rngStep s)
    ++ f Reg.HST_OWNER ++ natLE 8 (now s) ++ natLE 2 (ownAddr s) ++ natLE 2 (roleAddr s) ++ natLE 2 (ownFeed s)
    ++ natLE 2 (if bits buddy 16 16 = 1 then bits buddy 15 0 else 0xFFFF) ++ f Reg.HST_INTAKE_BATCH ++ f Reg.SCH_STEP
    ++ castingHash s ++ capHash s ++ digest Config.identityKey

/-- The take of a commit (R363, R371); `recorded` says that the commit wrote its step record. -/
def takeHook (recorded : Bool) (s : State) : State :=
  match s.ing.target with
  | none => s
  | some t =>
    if rngStep s < t then s
    else
      let s := { s with ing := { s.ing with target := none } }
      if stage s = 2 ∨ stage s = 3 ∨ stage s = 4 then sticky Reg.ING_STICKY 3 s
      else
        let s := wr Reg.ING_LAST_VER (rd s Reg.SCH_VERSION) (wr Reg.ING_LAST_SERIAL (rd s Reg.ING_LAST_SERIAL + 1) s)
        let s := wr Reg.ING_PROGRESS 0 (setFld Reg.ING_STATUS 4 3 0 (setStage 2 s))
        let s := { s with ing := { s.ing with
          calls := [], takeMandrel := s.time.mandrel.toNat, manifest := manifestHead s } }
        if recorded then s else abandon s

/-- An ingot whose buffer a proceeding veto point is about to give up, still being copied, is abandoned (R364). -/
def vetoHook (s : State) : State :=
  if stage s = 2 ∧ rd s Reg.ING_LAST_VER ≠ rd s Reg.SCH_VERSION then abandon s else s

/-- A casting load during the copy abandons the ingot (R365). -/
def loadHook (s : State) : State := if stage s = 2 then abandon s else s

/-- Bytes filled up to whole units of 64 KiB. -/
def padUnits (l : List Byte) : List Byte := l ++ List.replicate (65536 * ceilDiv l.length 65536 - l.length) 0

/-- Whether each of the spare maps is stored: cell maps, bad-cell marks, tinker-core assignments, retired lists, wear counters, column remaps,
bad spare columns and retired marks, retired slices (R359, R388). -/
def mapStored (s : State) : List Bool :=
  match bankUsed s with
  | none => List.replicate 8 false
  | some b =>
    let cells := (List.range 1024).map fun l => (l, cellAt s (phys s (l / 256) (l % 256)))
    let every := fun (f : Nat → Cell → Nat → Bool) => cells.all fun p => (List.range 64).all fun a =>
      f (get (fun _ => BitVec.ofNat 56 (2 ^ 40 * 0x3F)) b.arrays (64 * p.1 + a)).toNat p.2 a
    [decide (b.cellMap = s.spr.cellMap), decide (b.badCells = s.spr.badCells), decide (b.cores = s.spr.coreSwaps),
     decide (b.retired = s.spr.retired), decide (b.wear = wearList s), decide (b.remaps = remapList s),
     every fun r c a => (List.range 8).all (fun k => (bits r (32 + k) (32 + k) == 1) == get (fun _ => false) c.colbad (a * 512 + 260 + k))
       && (bits r 31 31 == 1) == c.colretired.contains a,
     every fun r c a => bits r 45 40 == (get (fun _ => Arr.init) c.arrs a).retired.headD 0x3F % 64]

/-- The spare maps and wear counters as numbers, with the flags that tell which are stored (R359, R388, R389). -/
def mapNumbers (s : State) : List Nat :=
  (mapStored s).map (fun x => if x then 1 else 0) ++ s.spr.cellMap.flatMap (fun p => [p.1, p.2]) ++ s.spr.badCells
    ++ s.spr.coreSwaps.flatMap (fun p => [p.1, p.2]) ++ s.spr.retired.flatMap (fun r => [r.1, r.2.1, r.2.2.1, r.2.2.2.1, r.2.2.2.2])
    ++ s.cells.flatMap (fun c => c.1 :: c.2.colmap.flatMap (fun p => [p.1, p.2]) ++ c.2.colbad.map (·.1) ++ c.2.colretired
      ++ c.2.arrs.flatMap fun a => a.1 :: a.2.slice :: a.2.retired)
    ++ (s.regs.filter fun kv => decide (2 ^ 40 ≤ kv.1) && decide ((kv.1 - 2 ^ 40) / 2 ^ 20 = Reg.SPR_WEAR)).flatMap fun kv => [kv.1, kv.2.toNat]

/-- The spare-map section: the maps in their MRAM layout, of which the spec gives no bytes (R359, R436; log 16). -/
def mapSection (s : State) : List Byte := let m := mapNumbers s; (List.range 131072).map (Config.mapImage m)

/-- The fabric section: FAB_ROLE, the port map and the route table (R359). -/
def fabricSection (s : State) : List Byte :=
  natLE 4 (rd s Reg.FAB_ROLE) ++ (List.range 12).flatMap (fun i => natLE 4 (rd s (Reg.FAB_PORTMAP + 4 * i)))
    ++ (List.range 480).flatMap fun i => natLE 4 (rd s (Reg.FAB_WROUTE + 4 * i))

/-- The sections of the image as (type, die, content) in their order (R359). -/
def imageSections (s : State) : List (Nat × Nat × List Byte) :=
  let x := rd s Reg.ING_LAST_VER % 2
  let group := dramGet s (65536 * rd s Reg.ING_GROUP_BASE) (0x200 + 8 * fld s Reg.ING_GROUP_LEN 16 0)
  (List.range 4).map (fun d => (1, d, let b := bufferSpan s d x; dramGet s b.1 b.2))
    ++ [(2, 0, padUnits (fabricSection s)), (3, 0, padUnits group), (4, 0, mapSection s)]

/-- The section table of the manifest (R358). -/
def sectionTable (l : List (Nat × Nat × List Byte)) : List Byte :=
  let t := l.foldl (fun (a : Nat × List Byte) e =>
    let u := e.2.2.length / 65536
    (a.1 + u, a.2 ++ natLE 2 e.1 ++ natLE 1 e.2.1 ++ natLE 1 0 ++ natLE 4 u ++ natLE 4 a.1 ++ natLE 4 0)) (1, [])
  t.2 ++ List.replicate (128 - t.2.length) 0

/-- The whole image: manifest and sections (R358). -/
def imageOf (head : List Byte) (l : List (Nat × Nat × List Byte)) : List Byte :=
  let body := l.flatMap (·.2.2)
  let m := head ++ sectionTable l ++ digest body
  padUnits (m ++ digest m) ++ body

/-- Reads the sources of the image (R364, R365). -/
def readSources (s : State) : Bool × State :=
  let x := rd s Reg.ING_LAST_VER % 2
  let step := fun (a : Bool × State) (b : Nat × Nat) => let r := readSpan b.1 b.2 a.2; (a.1 && r.1, r.2)
  ((List.range 4).map (fun d => bufferSpan s d x) ++ [(65536 * rd s Reg.ING_GROUP_BASE, 0x200 + 8 * fld s Reg.ING_GROUP_LEN 16 0)]).foldl step (true, s)

/-! ### The buddy (R366, R368, R370) -/

/-- Parcels of an image. -/
def parcelsOf (len : Nat) : Nat := ceilDiv len 3840

/-- Sends the parcels of an image that its window of 4,096 admits, read by an asynchronous agent (R254, R366). A line that cannot be corrected
goes out as read, and the image's digest tells (log 104). -/
def sendWindow (o : Outgoing) (s : State) : Outgoing × State :=
  let last := min (parcelsOf o.len) (o.acked + 4096)
  ({ o with sendAt := max o.sendAt last },
    each ((List.range (last - o.sendAt)).map (o.sendAt + ·)) (fun k s =>
      let n := min 3840 (o.len - 3840 * k)
      let s := (readSpan (o.base + 3840 * k) n s).2
      sendParcelSeq o.dst 0x20 k (dramGet s (o.base + 3840 * k) n) s) s)

/-- The image goes on to the buddy. -/
def runBuddy (o : Outgoing) (s : State) : State := let r := sendWindow o s; { r.2 with ing := { r.2.ing with buddy := some r.1 } }

/-- The image goes on to a package that fetched it. -/
def runServe (o : Outgoing) (s : State) : State := let r := sendWindow o s; { r.2 with ing := { r.2.ing with serve := some r.1 } }

/-- The part finds its buddy gone (R370). -/
def buddyGone (s : State) : State := callIngot 4 (sticky Reg.ING_STICKY 7 { s with ing := { s.ing with byBuddy := false } })

/-- The ingot of the last take is secured (R370). -/
def secure (byBuddy : Bool) (s : State) : State :=
  let again := rd s Reg.ING_SEC_SERIAL == rd s Reg.ING_LAST_SERIAL && s.ing.secured
  let s := wr Reg.ING_SEC_VER (rd s Reg.ING_LAST_VER) (wr Reg.ING_SEC_SERIAL (rd s Reg.ING_LAST_SERIAL) s)
  ageRestart (some s.ing.takeMandrel)
    { s with ing := { s.ing with secured := true, byBuddy := byBuddy || (again && s.ing.byBuddy) } }

/-- The valid queue pairs of the host stage. -/
def ingotQps (s : State) : List Nat :=
  (List.range 4).filterMap fun i =>
    let r := rd s (Reg.ING_HOST_QP + 4 * i)
    if bits r 13 13 = 1 then some (bits r 12 0) else none

/-- The host stage starts: 1 MiB stretches rotate over the queue pairs, the manifest comes last, and each share ends with the serial (R369). -/
def startHost (s : State) : State :=
  let qs := ingotQps s
  let len := s.ing.imageLen
  let base := mouldBase s
  let va := rd s Reg.ING_HOST_VA_LO + 2 ^ 32 * rd s Reg.ING_HOST_VA_HI
  let rkey := rd s Reg.ING_HOST_RKEY
  let s := wr Reg.ING_PROGRESS 0 (setStage 4 { s with ing := { s.ing with hostQps := qs } })
  if qs.isEmpty || qs.any (fun q => qpState s q != 3 || qpClass s q != 3) || decide (65536 * rd s Reg.ING_HOST_LEN < len) then hostStageFail s
  else
    let pieces := (List.range (ceilDiv len 1048576)).map (fun k =>
      let a := if k = 0 then 65536 else 1048576 * k
      (k, a, min len (1048576 * (k + 1)) - a)) ++ [(0, 0, 65536)]
    let s := each pieces (fun x s =>
      let q := (qs[x.1 % qs.length]?).getD 0
      let s := (readSpan (base + x.2.1) x.2.2 s).2
      sendMessage q true (va + x.2.1) rkey (dramGet s (base + x.2.1) x.2.2) s) s
    wr Reg.ING_PROGRESS (len / 65536) (each qs (fun q s => sendPacket q 0x0B va rkey [] (rd s Reg.ING_LAST_SERIAL) false s) s)

/-- After the buddy stage (R371). -/
def afterBuddy (s : State) : State :=
  let s := { s with ing := { s.ing with buddy := none } }
  if fld s Reg.ING_HOST_CTRL 0 0 = 1 then startHost s else setStage 0 s

/-- The buddy stage fails (R366, R370). -/
def buddyFail (s : State) : State := afterBuddy (buddyGone (ingotRecord (sticky Reg.ING_STICKY 5 s)))

/-- Whether a queue pair has the WRITE with Immediate of the ingot in progress unacknowledged (R369). -/
def hostOwed (s : State) (q : Nat) : Bool :=
  (qpAt s q).unacked.any fun p => p.opcode == 0x0B && p.imm.toNat == rd s Reg.ING_LAST_SERIAL

/-- The host stage ends when every WRITE with Immediate has been acknowledged; `owed` says that the one of queue pair `q` was not before the
acknowledgement that has come in (R371). -/
def hostProgress (q : Nat) (owed : Bool) (s : State) : State :=
  if stage s ≠ 4 ∨ !owed ∨ hostOwed s q then s
  else
    let s := { s with ing := { s.ing with hostQps := s.ing.hostQps.filter (· != q) } }
    if s.ing.hostQps.isEmpty then setStage 5 s else s

/-- MOULD_COMPLETE: the copy ends and the next stage starts (R364, R371). The step record of the buffer must be complete. -/
def execMouldComplete (s : State) : State :=
  let x := rd s Reg.ING_LAST_VER % 2
  if stage s ≠ 2 ∨ fld s Reg.SCH_STAMP (4 + x) (4 + x) = 0 then s
  else
    let r := readSources s
    let img := imageOf s.ing.manifest (imageSections r.2)
    if !r.1 || decide (65536 * rd s Reg.ING_MOULD_LEN < img.length) then abandon r.2
    else
      let s := writeSpan (mouldBase s) img r.2
      let s := { s with ing := { s.ing with imageLen := img.length, mouldVoid := false } }
      let s := wr Reg.ING_PROGRESS (img.length / 65536) s
      if fld s Reg.ING_BUDDY 16 16 = 1 then
        runBuddy ⟨fld s Reg.ING_BUDDY 15 0, mouldBase s, img.length, 0, 0, 0, false⟩ (wr Reg.ING_PROGRESS 0 (setStage 3 s))
      else if fld s Reg.ING_HOST_CTRL 0 0 = 1 then startHost s
      else setStage 0 s

/-- What an ACK says of the image that goes out: its receiver's next sequence number. -/
def advance (o : Outgoing) (next : Nat) : Outgoing :=
  if o.acked < next then { o with acked := next, retries := 0 } else o

/-- The ingot is marked same_feed: in the flags of its manifest in the mould, with the digest formed anew (R358, R368). -/
def markSameFeed (s : State) : State :=
  let m := natLE 2 1 ++ (dramGet s (mouldBase s) 0x130).drop 8
  let head := (dramGet s (mouldBase s) 6) ++ m
  setFld Reg.ING_STATUS 4 4 1 (sticky Reg.ING_STICKY 0 (writeSpan (mouldBase s) (head ++ digest head) s))

/-- The buddy's first ACK gives its feed (R368). -/
def firstAck (o : Outgoing) (feed : Nat) (s : State) : State :=
  if o.heard then s
  else
    let s := setFld Reg.ING_FEED 31 16 feed s
    if feed = ownFeed s then markSameFeed s else s

/-- An ACK of an image that goes to a package that fetched it. -/
def serveAck (v : Outgoing) (src next status : Nat) (s : State) : State :=
  if v.dst ≠ src then s
  else if status = 0 then runServe (advance v next) s
  else { s with ing := { s.ing with serve := none } }

/-- ACK (R366, R368, R370). -/
def execAck (p : Parcel) (s : State) : State :=
  let f := fun o n => leNat ((p.payload.drop o).take n)
  let serve := s.ing.serve.elim s fun v => serveAck v p.src.toNat (f 4 4) (f 8 1) s
  match s.ing.buddy with
  | some o =>
    if o.dst = p.src.toNat ∧ f 0 4 = rd s Reg.ING_LAST_SERIAL ∧ stage s = 3 then
      let s := firstAck o (f 9 2) s
      match f 8 1 with
      | 0 => runBuddy { advance o (f 4 4) with heard := true } (wr Reg.ING_PROGRESS (3840 * f 4 4 / 65536) s)
      | 1 => afterBuddy (if fld s Reg.ING_STATUS 4 4 = 1 then s else secure true s)
      | _ => buddyFail s
    else serve
  | none => serve

/-- An image that makes no progress for 2 ms is sent again from the expected sequence; the sixteenth time in a row it is given up (R366). -/
def execBuddyTimeout (s : State) : State :=
  match s.ing.buddy, s.ing.serve with
  | some o, _ =>
    if stage s ≠ 3 then s
    else if o.retries ≥ 15 then buddyFail s
    else runBuddy { o with retries := o.retries + 1, sendAt := o.acked } s
  | none, some v =>
    if v.retries ≥ 15 then { s with ing := { s.ing with serve := none } } else runServe { v with retries := v.retries + 1, sendAt := v.acked } s
  | none, none => s

/-! ### Receiving an image (R367, R375) -/

/-- Sends an ACK to a package: serial, next expected sequence, status, own feed (R366). -/
def sendAckTo (dst serial next status : Nat) (s : State) : State :=
  sendParcel dst 0x21 (natLE 4 serial ++ natLE 4 next ++ natLE 1 status ++ natLE 2 (ownFeed s)) s

/-- Sections of an image as its manifest lists them: type, die, units, offset in units. -/
def manifestSections (m : List Byte) : List (Nat × Nat × Nat × Nat) :=
  ((List.range 8).map fun i =>
    let f := fun o n => leNat ((m.drop (0x90 + 16 * i + o)).take n)
    (f 0 2, f 2 1, f 4 4, f 8 4)).filter fun e => e.1 != 0

/-- Bytes of an image by its manifest. -/
def manifestLen (m : List Byte) : Nat := 65536 * (manifestSections m).foldl (fun n e => max n (e.2.2.1 + e.2.2.2)) 1

/-- Whether the digests of an image at an address match (R358), and the state after the asynchronous reads of it (R254). -/
def imageOk (base : Nat) (s : State) : Bool × State :=
  let len := manifestLen (dramGet s base 0x150)
  let s := (readSpan base len s).2
  let m := dramGet s base 0x150
  (digest (m.take 0x130) == m.drop 0x130 && digest (dramGet s (base + 65536) (len - 65536)) == (m.drop 0x110).take 32, s)

/-- The guest slot that a fill takes: not the one that holds the newer ingot (R367). -/
def fillSlot (s : State) : Nat :=
  if guestHeld s 0 && guestHeld s 1 then 1 - fld s Reg.ING_GUEST_STAT 2 2 else if guestHeld s 0 then 1 else 0

/-- First byte of the place that an incoming image fills. -/
def inBase (s : State) (x : Incoming) : Nat := if x.mould then mouldBase s else guestBase s x.slot
/-- Bytes of that place. -/
def inRoom (s : State) (mould : Bool) : Nat := 65536 * (if mould then rd s Reg.ING_MOULD_LEN else rd s Reg.ING_GUEST_LEN)

/-- Sets or clears GUEST_STAT.filling. -/
def setFilling (v : Nat) (s : State) : State := setFld Reg.ING_GUEST_STAT 3 3 v s

/-- What is known of the image that fills the mould or a guest slot. -/
def setIncoming (x : Incoming) (s : State) : State :=
  if x.mould then { s with ing := { s.ing with fetched := some x } } else { s with ing := { s.ing with incoming := some x } }

/-- The last parcel of an image has arrived: its digests are checked and the place is held (R367, R375). -/
def imageArrived (x : Incoming) (s : State) : State :=
  let base := inBase s x
  let r := imageOk base s
  let ok := r.1
  let st := if ok then 1 else 3
  let s := setIncoming { x with owed := 0, status := some st } r.2
  let s := if x.mould then { s with ing := { s.ing with fetching := false } } else s
  let s := if x.mould then
      (if ok then { s with ing := { s.ing with mouldVoid := false, imageLen := x.len } } else sticky Reg.ING_STICKY 10 s)
    else if ok then
      let ver := dramNat s (base + 0x0C) 4
      let s := setFld Reg.ING_GUEST_STAT 31 16 (dramNat s (base + 0x22) 2) (setFld Reg.ING_GUEST_STAT 2 2 x.slot s)
      let s := setFilling 0 (setFld Reg.ING_GUEST_STAT x.slot x.slot 1 s)
      let g := s.ing.guestLen
      wr (if x.slot = 0 then Reg.ING_GUEST0_VER else Reg.ING_GUEST1_VER) ver
        { s with ing := { s.ing with guestLen := if x.slot = 0 then (x.len, g.2) else (g.1, x.len) } }
    else setFilling 0 s
  sendAckTo x.src x.serial x.next st s

/-- A fill starts with the first parcel of a serial (R367). -/
def startFill (src : Nat) (mould : Bool) (data : List Byte) (s : State) : State :=
  let slot := fillSlot s
  let s := setIncoming ⟨src, mould, slot, leNat ((data.drop 8).take 4), manifestLen data, 0, 0, none⟩ s
  if mould then s else setFilling 1 (setFld Reg.ING_GUEST_STAT slot slot 0 s)

/-- What an ACK says of an incoming image: progress, or how it ended. -/
def incomingAck (x : Incoming) (s : State) : State :=
  sendAckTo x.src x.serial x.next (x.status.getD 0) (setIncoming { x with owed := 0 } s)

/-- The next parcel of an image is placed; parcels are acknowledged every 256, those that come again too (R366, R367). -/
def placeParcel (x : Incoming) (p : Parcel) (s : State) : State :=
  let next := x.status.isNone && p.seq.toNat == x.next
  let n := min p.payload.length (x.len - 3840 * x.next)
  let s := if next then writeSpan (inBase s x + 3840 * x.next) (p.payload.take n) s else s
  let x := { x with next := if next then x.next + 1 else x.next, owed := x.owed + 1 }
  if next && decide (parcelsOf x.len ≤ x.next) then imageArrived x s
  else if x.owed ≥ 256 then incomingAck x s
  else setIncoming x s

/-- DATA (R367, R375). -/
def execData (p : Parcel) (s : State) : State :=
  let src := p.src.toNat
  let serial := leNat ((p.payload.drop 8).take 4)
  let guest := fld s Reg.ING_GUEST 16 16 == 1 && src == fld s Reg.ING_GUEST 15 0
  let mould := (s.ing.fetching && src == fld s Reg.ING_RESTORE_SEL 31 16)
    || (!guest && s.ing.fetched.any fun x => x.src == src)
  if !mould && !guest then
    sendAckTo src (if p.seq = 0 then serial else 0) 0 2 (sticky Reg.ING_STICKY 8 s)
  else
    let known := fun (s : State) => if mould then s.ing.fetched else s.ing.incoming
    let fresh' := p.seq == 0 && (known s).all fun x => x.serial != serial || x.src != src
    if fresh' && decide (inRoom s mould < manifestLen p.payload) then
      sendAckTo src serial 0 2 (if mould then sticky Reg.ING_STICKY 10 { s with ing := { s.ing with fetching := false } } else s)
    else
      let s := if fresh' then startFill src mould p.payload s else s
      match known s with
      | some x => if x.src = src then placeParcel x p s else s
      | none => s

/-- BUDDY_ACK_TIMER: images of which parcels have arrived since their last ACK are acknowledged (R366). -/
def execBuddyAckTimer (s : State) : State :=
  each ([s.ing.incoming, s.ing.fetched].filterMap id) (fun x s => if x.owed = 0 then s else incomingAck x s) s

/-- FETCH: the held guest image of a role and version goes out as DATA parcels (R375). -/
def execFetch (p : Parcel) (s : State) : State :=
  let role := leNat (p.payload.take 2)
  let ver := leNat ((p.payload.drop 2).take 4)
  match [0, 1].find? fun k => guestHeld s k && dramNat s (guestBase s k + 0x22) 2 == role && dramNat s (guestBase s k + 0x0C) 4 == ver with
  | some k => runServe ⟨p.src.toNat, guestBase s k, if k = 0 then s.ing.guestLen.1 else s.ing.guestLen.2, 0, 0, 0, false⟩ s
  | none => s

/-! ### Commands of ING_CTRL (R370, R371, R374, R375, R378) -/

/-- Whether a restore or fetch may start (R375). -/
def restoreReady (s : State) : Bool := schState s == 2 && stage s == 0

/-- ING_FETCH (R375, R378). -/
def execIngFetch (_src : Source) (s : State) : State :=
  if !restoreReady s then sticky Reg.ING_STICKY 10 s
  else
    sendParcel (fld s Reg.ING_RESTORE_SEL 31 16) 0x24 (natLE 2 (fld s Reg.ING_RESTORE_ROLE 15 0) ++ natLE 4 (rd s Reg.ING_RESTORE_VER))
      { s with ing := { s.ing with fetching := true, fetched := none } }

/-- A step record's table entries by their bytes, in order (R218). -/
def recordEntries (b : List Byte) : List (List Byte) := chunks 64 ((b.length - 128) / 64) (b.drop 128)

/-- Restoring the working table by tid (R375). -/
def restoreTable (rec_ : List Byte) (s : State) : State :=
  let es := recordEntries rec_
  let s := asyncWrite (tableAddr s) ((rec_.drop 64).take 8) s
  each (List.range (tableLen s)) (fun i s =>
    let e := readEntry s i
    match es.find? fun b => leNat (b.take 2) == e.tid && b.any (· != 0) with
    | some b => asyncWrite (entryAddr s i) b s
    | none => writeEntry i (e.setFlag 0 false) s) s

/-- Restoring the fabric registers, without their reserved bits (R305, R375). -/
def restoreFabric (b : List Byte) (s : State) : State :=
  let w := fun i => leNat ((b.drop (4 * i)).take 4)
  let s := wr Reg.FAB_ROLE (w 0 &&& 0x1FFFF) s
  let s := each (List.range 12) (fun i s => wr (Reg.FAB_PORTMAP + 4 * i) (w (1 + i) &&& 0x3F3F3F3F) s) s
  each (List.range 480) (fun i s => wr (Reg.FAB_WROUTE + 4 * i) (w (13 + i) &&& 0x807FFFFF) s) s

/-- ING_RESTORE (R375, R378). -/
def execIngRestore (_src : Source) (s : State) : State :=
  let base := mouldBase s
  let m := dramGet s base 0x150
  let f := fun o n => leNat ((m.drop o).take n)
  let secs := manifestSections m
  let check := imageOk base s
  let clean := (readSpan base (manifestLen m) s).1
  let span := rd s Reg.SCH_MASTER_SPAN
  let ones := secs.filter (·.1 == 1)
  let whole := (List.range 4).all fun d => ones.any fun e => e.2.1 == d && e.2.2.1 == span
  if !restoreReady s then sticky Reg.ING_STICKY 10 s
  else if !(clean && check.1 && !s.ing.mouldVoid && f 0 4 == 0x474E4951 && f 4 2 == 1 && f 0x0C 4 == rd s Reg.ING_RESTORE_VER
      && f 0x14 4 == rd s Reg.HST_OWNER && whole && ones.all (·.2.2.1 == span)) then
    sticky Reg.ING_STICKY 10 check.2
  else
    let s := check.2
    let x := f 0x0C 4 % 2
    let at_ := fun (e : Nat × Nat × Nat × Nat) => dramGet s (base + 65536 * e.2.2.2) (65536 * e.2.2.1)
    let rec_ := (ones.find? (·.2.1 == 0)).elim [] fun e => (at_ e).take (65536 * rd s Reg.SCH_MASTER_REC)
    let fab := (secs.find? (·.1 == 2)).elim [] at_
    let s := each ones (fun e s => writeSpan (bufferSpan s e.2.1 x).1 (at_ e) s) s
    let s := wr Reg.SCH_VERSION (f 0x0C 4) (setStamp (1 - x) 3 (setStamp x 0 s))
    let s := restoreTable rec_ s
    let s := if fld s Reg.ING_RESTORE_SEL 0 0 = 1 then restoreFabric fab s else s
    setFld Reg.ING_STATUS 6 6 1 s

/-- ING_ABANDON: the ingot in progress ends (R371). -/
def execIngAbandon (_src : Source) (s : State) : State :=
  setStage 0 { s with ing := { s.ing with target := none, buddy := none, hostQps := [] } }

/-- What a purge and a change of owner do (R374). -/
def purgeAll (s : State) : State :=
  let s := setFld Reg.ING_GUEST_STAT 3 0 0 (setStage 0 s)
  { s with ing := { s.ing with
    target := none, acted := none, takeSent := [], takeRepeats := 0, buddy := none, serve := none, incoming := none, fetched := none
    fetching := false, hostQps := [], mouldVoid := true, guestLen := (0, 0) } }

/-- PURGE (R374): refused in stage copy. -/
def execPurge (_src : Source) (s : State) : State := if stage s = 2 then s else purgeAll s

/-- ING_HOST_ACK (R370, R371, R378). -/
def execIngHostAck (_src : Source) (serial : Word) (s : State) : State :=
  if stage s = 5 ∧ serial.toNat = rd s Reg.ING_LAST_SERIAL then setStage 0 (secure false s) else s

/-- HST_OWNER: a new owner (R329, R374). -/
def execHstOwnerWrite (src : Source) (v : Word) (s : State) : State :=
  let t := schState s
  if castingRuns s then accState src Reg.HST_OWNER s
  else if v.toNat = rd s Reg.HST_OWNER ∨ t = 2 ∨ stage s = 2 then s
  else purgeAll (ownerClear (wr Reg.HST_OWNER v.toNat s))

/-! ### Losing the buddy (R276, R281, R370) -/

/-- LOSS_OF_LIGHT: a port loses light. -/
def execLossOfLight (phys : Fin 48) (s : State) : State :=
  let p := phys.val
  let t := portState s p
  if t = 0 ∨ t = 7 then s
  else
    let spare := bits (portAt s p).partnerFlags.toNat 1 0 == 1
    let s := portDark p 0 (sticky Reg.FAB_STICKY 0 s)
    let s := if t = 5 ∧ !spare then portFails p s else s
    if fld s Reg.ING_BUDDY 16 16 = 1 ∧ fld s (bankKey Reg.FAB_PORT_PARTNER p) 15 0 = fld s Reg.ING_BUDDY 15 0 then buddyGone s else s

end Sys2Proof.Machine
end

