-- ==== Sys2Proof/Machine/Image.lean ====
section
/-! DEFINITION. A casting's image (R38 to R40, R483, R485): its header, directory and sections, and the checks of a load in their order with
their reject codes. -/
namespace Sys2Proof.Machine

/-! ### The image (R38, R39) -/

/-- Byte address of the image named in SCH_IMAGE (R66). -/
def imageAddr (s : State) : Nat := (rd s Reg.SCH_IMAGE_LO + 2 ^ 32 * rd s Reg.SCH_IMAGE_HI) % 2 ^ 39 / 64 * 64

/-- The directory entries in use: type, count, offset (R38, R39). -/
def directoryOf (s : State) (a : Nat) : List (Nat × Nat × Nat) :=
  ((List.range 16).map fun i =>
    let e := a + 0x40 + 16 * i
    (dramNat s e 2, dramNat s (e + 4) 4, dramNat s (e + 8) 8)).filter fun d => d.1 != 0

/-- The casting that a header describes (R38). -/
def headerOf (s : State) (a : Nat) : Casting :=
  ⟨a, dramNat s (a + 8) 8, dramNat s (a + 0x30) 4, dramNat s (a + 0x34) 2, bits (dramNat s (a + 0x36) 2) 0 0 == 1, directoryOf s a⟩

/-- Bytes of a section of `n` entries of a type (R38, R39, R147, R245, R285, R483, R485). -/
def sectionBytes (type n : Nat) : Nat :=
  match type with
  | 1 => 16 * n
  | 2 => 32 * n
  | 4 => 752 + 8 * n
  | 5 => 4096 + 8 * n
  | 6 => 64 + 64 * n
  | 7 => 32 + 8 * n
  | _ => 16 * n

/-- The span of a section in DRAM. -/
def sectionSpan (s : State) (type : Nat) : Nat × Nat := let d := sectionOf s type; (d.2, sectionBytes type d.1)

/-- The header fields other than magic, format and size are in range (code 0x08). -/
def headerFieldsOk (s : State) : Bool :=
  let a := imageAddr s
  let p := dramNat s (a + 0x30) 4
  decide (65536 ≤ p) && decide (p ≤ 2 ^ 31) && bits (dramNat s (a + 0x36) 2) 15 1 == 0 && (dramGet s (a + 0x38) 8).all (· == 0)
    && (dramGet s (a + 0x140) 192).all (· == 0)

/-- The directory is well formed and every section lies inside the image (R39, code 0x03). DESIGN CHOICE (log 83): the reserved field of an
unused entry, of type 0, is not looked at. -/
def directoryOk (s : State) : Bool :=
  match s.casting with
  | none => false
  | some c =>
    let types := c.dir.map (·.1)
    let clean := (List.range 16).all fun i =>
      let e := c.addr + 0x40 + 16 * i
      dramNat s e 2 == 0 || dramNat s (e + 2) 2 == 0
    let required := [1, 2, 3, 4, 5, 6, 7] ++ (if c.evalInt = 0 then [] else [8])
    decide (512 ≤ c.len) && clean && types.all (decide <| · ≤ 8) && decide (types.eraseDups.length = types.length)
      && required.all types.contains && c.dir.all fun d => d.2.2 % 64 == 0 && decide (d.2.2 + sectionBytes d.1 d.2.1 ≤ c.len)

/-- The segment directory keeps R483. -/
def segmentsOk (s : State) : Bool :=
  let d := sectionOf s 2
  let es := segEntries s
  let raw := (List.range d.1).all fun i =>
    let a := d.2 + 32 * i
    let place := dramNat s (a + 1) 1
    let die := dramNat s (a + 2) 1
    let wh := dramNat s (a + 4) 2
    decide (dramNat s a 1 ≤ 1) && decide (place ≤ 1) && decide (if place = 0 then die ≤ 3 ∧ wh ≤ 255 else die = 0 ∧ wh ≤ 46)
      && dramNat s (a + 3) 1 == 0 && dramNat s (a + 6) 2 == 0 && dramNat s (a + 8) 8 % 16 == 0 && (dramGet s (a + 0x14) 12).all (· == 0)
  let inside := es.all fun e => decide (e.offset + 16 * e.words ≤ 16 * (sectionOf s (if e.evalSeg then 8 else 3)).1)
  let keys := es.map fun e => (e.evalSeg, e.link, e.die, e.where_)
  raw && inside && decide (keys.eraseDups.length = keys.length)

/-- A wake-table entry: step tick, cell, action (R485). -/
structure WakeEntry where
  tick : Nat
  cell : Nat
  action : Nat
  deriving DecidableEq, Repr

/-- Entry `i` of the section. -/
def wakeEntry (s : State) (i : Nat) : WakeEntry :=
  let a := (sectionOf s 7).2 + 32 + 8 * i
  ⟨dramNat s a 4, dramNat s (a + 4) 1, dramNat s (a + 5) 1⟩

/-- The entries of a die's wake table. -/
def wakeTable (s : State) (die : Nat) : List WakeEntry :=
  let d := sectionOf s 7
  let first := dramNat s (d.2 + 8 * die) 4
  (List.range (dramNat s (d.2 + 8 * die + 4) 4)).map fun i => wakeEntry s (first + i)

/-- The wake tables keep R485. -/
def wakeTablesOk (s : State) : Bool :=
  let d := sectionOf s 7
  let period := s.casting.elim 0 (·.period)
  let index := (List.range 4).all fun k => decide (dramNat s (d.2 + 8 * k) 4 + dramNat s (d.2 + 8 * k + 4) 4 ≤ d.1)
  let clean := (List.range d.1).all fun i =>
    let e := wakeEntry s i
    decide (1 ≤ e.action) && decide (e.action ≤ 4) && (decide (e.action ≤ 2) || e.cell == 0) && decide (e.tick < period)
      && dramNat s (d.2 + 32 + 8 * i + 6) 2 == 0
  index && clean && (List.range 4).all fun k =>
    let t := wakeTable s k
    (t.zip (t.drop 1)).all fun p => decide (p.1.tick ≤ p.2.tick)

/-- The resource declaration keeps its own form (code 0x03). -/
def resourceFormOk (s : State) : Bool :=
  let d := sectionOf s 1
  (resEntries s).all (fun e =>
      decide (1 ≤ e.1) && decide (e.1 ≤ 7) && (decide (e.2.1 ≤ 3) || e.2.1 == 0xFF) && (e.1 != 1 || decide (e.2.2.2 < 65536)))
    && (List.range d.1).all fun i => dramNat s (d.2 + 16 * i + 3) 1 == 0

/-- The dies that an entry's die byte names. -/
def diesOf (b : Nat) : List Nat := if b = 0xFF then [0, 1, 2, 3] else [b]

/-- An entry of the resource declaration lies within the capability table (code 0x05): a ring in the scratchpad of a cell (item 7) or in
DRAM (item 9), as its address says (log 10), and no more ports than items 11 to 13 give. -/
def resourceFits (s : State) (e : Nat × Nat × Nat × Nat) : Bool :=
  let n := e.2.2.1
  let v := e.2.2.2
  match e.1 with
  | 1 => (diesOf e.2.1).all fun d => decide (n ≤ cellsInService s d)
  | 2 => [0, 1, 3, 7, 15].contains v && decide (n * (v + 1) ≤ 128)
  | 3 => decide (n ≤ 524288)
  | 4 => decide (v + n ≤ 2 ^ 39)
  | 5 => (diesOf e.2.1).all fun d => bits v 38 36 / 2 == d && bits (v + n - 1) 38 36 / 2 == d && decide (v + n ≤ 2 ^ 39)
  | 6 => decide (v + 64 * n ≤ if v < 524288 then 524288 else 2 ^ 39)
  | 7 => decide (v < 2 ^ 47) && decide (n ≤ 47)
  | _ => true

/-- The declaration provides the stream regions that the image needs (code 0x05). -/
def streamsFit (s : State) : Bool :=
  let es := segEntries s
  let table := 64 + 64 * (sectionOf s 6).1
  (List.range 4).all fun d =>
    let need := if d = 0 then streamBytes s 0 + table else streamBytes s d
    let used := d == 0 || es.any fun e => !e.link && e.die == d
    !used || ((resEntries s).any (fun e => e.1 == 5 && (e.2.1 == d || e.2.1 == 0xFF)) && decide (need ≤ (streamRegion s d).2))

/-- The checks of R40 in their order: the spans read for each, its reject code, and the check. -/
def loadChecks : List ((State → List (Nat × Nat)) × Nat × (State → Bool)) :=
  let none' := fun (_ : State) => ([] : List (Nat × Nat))
  [(fun s => [(imageAddr s, 512)], 1, fun s => dramNat s (imageAddr s) 4 == 0x54534351),
   (none', 2, fun s => dramNat s (imageAddr s + 4) 2 == 1 && dramNat s (imageAddr s + 6) 2 == 512),
   (none', 8, headerFieldsOk),
   (none', 3, directoryOk),
   (fun s => [sectionSpan s 2], 3, segmentsOk),
   (fun s => [sectionSpan s 7], 3, wakeTablesOk),
   (none', 4, fun s => dramGet s (imageAddr s + 0x10) 32 == capHash s),
   (fun s => [sectionSpan s 1], 3, resourceFormOk),
   (none', 5, fun s => (resEntries s).all (resourceFits s) && streamsFit s),
   (fun s => [(imageAddr s, s.casting.elim 0 (·.len))], 7, fun _ => true)]

/-- Whether the resource declaration of the image has passed its checks, with all that come before them (R40, R317). -/
def declarationOk (s : State) : Bool := (loadChecks.take 9).all fun c => c.2.2 s

/-- Runs the checks: 0, or the code of the first that fails; a line that does not read clean or corrected ends the load with 0x07. -/
def runChecks : List ((State → List (Nat × Nat)) × Nat × (State → Bool)) → State → Nat × State
  | [], s => (0, s)
  | (spans, code, ok) :: r, s =>
    let x := (spans s).foldl (fun (a : Bool × State) (b : Nat × Nat) => let y := readSpan b.1 b.2 a.2; (a.1 && y.1, y.2)) (true, s)
    if !x.1 then (7, x.2) else if ok x.2 then runChecks r x.2 else (code, x.2)

end Sys2Proof.Machine
end

