-- ==== Sys2Proof/Machine/Casting.lean ====
section
/-! DEFINITION. Loading, arming and halting a casting (R40, R41, R66): the load with its outcome, the copies that a passed load makes, and the
checks at the arm. -/
namespace Sys2Proof.Machine

/-! ### The load (R40, R41) -/

/-- Whether a load, an arm or a write of the SCH base registers is accepted: no casting runs (R66, R479). -/
def schOpen (s : State) : Bool := !castingRuns s

/-- What a load clears in a cell: tiles, side words and bindings (R120), function tables (R208) and rings (R53). -/
def castingClears (c : Cell) : Cell :=
  { c with
    acc := [], side := [], tiles := [], ecc := forget (fun k => k / 2 ^ 24 == 3 || k / 2 ^ 24 == 6 || k / 2 ^ 24 == 5) c.ecc
    tables := [], tableBusy := [], ringBytes := [], ring63 := (0, 0), ring62 := 0 }

/-- CASTING_LOAD: the load starts (R40, R66, R67, R208, R216, R238). The header is read and the ports outside the image's mask go dark, as the
image stands at that point (R317, R400; log 107). -/
def execCastingLoad (src : Source) (s : State) : State :=
  if !schOpen s then accState src Reg.SCH_CTRL s
  else
    let s := loadHook (setSchState 1 (setFld Reg.SCH_STATUS 11 4 0 s))
    let s := each [Reg.SCH_DRAIN_WAITS, Reg.SCH_LOG_HEAD, Reg.SCH_LOG_READ] (fun r s => wr r 0 s) s
    let s := wr Reg.SCH_STAMP 0xF (setFld Reg.ING_STATUS 6 6 0 s)
    darkenOthers <| mapCells castingClears { s with
      fab := { s.fab with worksCredit := [], freed := [] }
      casting := some (headerOf s (imageAddr s))
      run := { s.run with recBusy := [], faultAt := none, haltAt := none } }

/-- Copies the words of every segment into the stream regions, cells before links on die 0, in directory order, and after those of die 0
the tables of section 6: the working table (R40, R483). -/
def copyStreams (s : State) : State :=
  each (List.range 4) (fun d s =>
    let words := (regionEntries s d).flatMap fun e => dramGet s ((sectionOf s (if e.evalSeg then 8 else 3)).2 + e.offset) (16 * e.words)
    let table := sectionSpan s 6
    writeSpan (streamRegion s d).1 (words ++ if d = 0 then dramGet s table.1 table.2 else []) s) s

/-- A load passes: streams and working table are copied and the image hashed (R40). -/
def loadPassed (s : State) : State :=
  let c := s.casting.getD ⟨0, 0, 0, 0, false, []⟩
  let hash := digest (dramGet s c.addr c.len)
  let s := copyStreams s
  let s := each (List.range 8) (fun i s => wr (Reg.SCH_CASTING_HASH + 4 * i) (leNat ((hash.drop (4 * i)).take 4)) s) s
  setSchState 2 s

/-- CASTING_LOAD_COMPLETE: the checks of R40, then LOADED or REJECTED. -/
def execCastingLoadComplete (s : State) : State :=
  if schState s ≠ 1 then s
  else
    let r := runChecks loadChecks { s with casting := some (headerOf s (imageAddr s)) }
    if r.1 = 0 then loadPassed r.2
    else setSchState 7 (setFld Reg.SCH_STATUS 11 4 r.1 { r.2 with casting := none })

/-! ### Arm and halt (R66, R216, R276, R280, R324, R360, R372) -/

/-- Whether an enabled intake ring breaks R324. -/
def intakeBad (s : State) : Bool :=
  (List.range 4).any fun d =>
    let base := 2 ^ 20 * fld s (Reg.HST_INTAKE_BASE + 4 * d) 18 0
    let n := fld s (Reg.HST_INTAKE_GEOM + 4 * d) 15 0
    let size := 2 ^ 20 * fld s (Reg.HST_INTAKE_GEOM + 4 * d) 31 16
    let last := base + n * size - 1
    fld s Reg.HST_INTAKE_CTRL d d == 1
      && (decide (n < 2) || decide (size = 0) || base / 2 ^ 36 != last / 2 ^ 36 || base / 2 ^ 36 / 2 != d || decide (2 ^ 39 ≤ last))

/-- Whether every port that the casting uses is UP (R280). -/
def portsUp (s : State) : Bool := (List.range 47).all fun l => bits (portMask s) l l == 0 || portUp s l

/-- The start tick (R42). -/
def startTick (s : State) : Nat := rd s Reg.SCH_START_LO + 2 ^ 32 * rd s Reg.SCH_START_HI

/-- The stamps at the arm: the buffer of the committed version is committed, the other invalid (R216). -/
def armStamps (s : State) : State :=
  let x := version s % 2
  setStamp (1 - x) 3 (setStamp x 0 s)

/-- A run that has not begun its first period; steps since the reset, the trigger count and the delta in force go on (R104, R105, R107). -/
def freshRun (r : Run) : Run :=
  { on := false, start := 0, lastIssue := [], faultAt := none, haltAt := none, veto := none, commit := none, vetoDone := false,
    commitDone := false, proceeds := false, suppressed := false, outcome := none, evalDue := false, evalRan := false, lateOvf := 0,
    updNonfin := false, taintVeto := false, taintCommit := false, taintLoc := [], prevLoc := [], prevPoint := 0, rngStart := 0,
    versionAfter := 0, barByte := (0, 0, 0), ovfEntries := 0, firstNonfin := 0xFFFF, covUsed := false, firstPeriod := true,
    newBatch := true, recBusy := r.recBusy, sampled := [], violAt := r.violAt, claims := [], sentPorts := [], poisonSent := false,
    poisonFrom := none, missing := false, notReady := false, capMarks := r.capMarks, capCount := r.capCount, steps := r.steps,
    force := r.force, logRewinds := (0, 0), capTick := (0, 0, []), slotData := [], delta := r.delta }

/-- ARM (R66): step 0 is to start at the start tick, or the arm is refused. -/
def execArm (src : Source) (s : State) : State :=
  if castingRuns s then accState src Reg.SCH_CTRL s
  else if schState s ≠ 2 then s
  else if startTick s % 65536 ≠ 0 ∨ startTick s < now s + 65536 then setFld Reg.SCH_STATUS 11 4 6 s
  else if intakeBad s then sticky Reg.HST_STICKY 8 s
  else if !portsUp s then sticky Reg.FAB_STICKY 8 s
  else if !groupNamesOwn s then sticky Reg.ING_STICKY 9 s
  else
    let s := armStamps (wr Reg.HST_INTAKE_BATCH (rd s Reg.HST_INTAKE_FIRST) (wr Reg.SCH_STEP 0 s))
    let s := setFld Reg.SCH_OUTCOME 7 3 0 s
    let w := wardenAddr s
    let s := setFld Reg.ING_STATUS 5 5 (if w = ownAddr s then 1 else 0) (wr Reg.ING_WARDEN w s)
    let s := { s with run := freshRun s.run }
    setSchState 3 (if s.ing.secured then s else ageRestart (some s.time.mandrel.toNat) s)

/-- HALT (R66): issue stops on the next tick without a fault. DESIGN CHOICE (log 84): while no casting runs it does nothing, and while one is
LOADING it ends the load in HALTED. -/
def execHalt (_src : Source) (s : State) : State :=
  if castingRuns s ∧ s.run.haltAt = none then { s with run := { s.run with haltAt := some (now s) } } else s

end Sys2Proof.Machine
end

