-- ==== Sys2Proof/Machine/Link.lean ====
section
/-! DEFINITION. LNK words (R285 to R294, R488): link slot tables, SEND, RECV, RELAY and BARRIER. -/
namespace Sys2Proof.Machine

/-- The entries of list `i` (transmit list 2p, receive list 2p + 1 of logical port p) as raw 64-bit values (R285). -/
def linkList (s : State) (i : Nat) : List Nat :=
  let d := sectionOf s 4
  let first := dramNat s (d.2 + 8 * i) 4
  let n := dramNat s (d.2 + 8 * i + 4) 4
  (List.range n).map fun k => dramNat s (d.2 + 752 + 8 * (first + k)) 8

/-- Whether an entry breaks R285; `prev` is the end of the one before it. -/
def linkEntryBad (period prev e : Nat) : Bool :=
  let start := bits e 31 0
  let len := bits e 47 32
  let kind := bits e 51 48
  decide (start < prev) || decide (len = 0) || decide (kind = 0) || decide (kind > 3) || decide (bits e 63 52 ≠ 0)
    || decide (period / 8 - 1 < start + len)

/-- Whether a list breaks R285. -/
def linkListBad (s : State) (i : Nat) : Bool :=
  let d := sectionOf s 4
  let past := decide (d.1 < dramNat s (d.2 + 8 * i) 4 + dramNat s (d.2 + 8 * i + 4) 4)
  past || ((linkList s i).foldl (fun (a : Nat × Bool) e =>
    (bits e 31 0 + bits e 47 32, a.2 || linkEntryBad (stepPeriod s) a.1 e)) (0, false)).2

/-- The check of every list at the first load window after the arm (R285). -/
def linkTablesCheck (s : State) : State :=
  if (List.range 94).any (linkListBad s) then
    sticky Reg.FAB_STICKY 14 (launch (s.run.start + 2048) (.violation 9 0 0 0) s)
  else s

/-- Whether slot `k` of list `i` lies in an entry of a kind. -/
def linkSlotIs (s : State) (i k kind : Nat) : Bool :=
  (linkList s i).any fun e => decide (bits e 31 0 ≤ k) && decide (k < bits e 31 0 + bits e 47 32) && bits e 51 48 == kind

/-- Whether a link slot is claimed in this step. -/
def linkClaimed (s : State) (i k : Nat) : Bool := get (fun _ => 0) s.run.claims (2 ^ 32 * i + k) != 0

/-- Claims link slots. -/
def linkClaim (i : Nat) (ks : List Nat) (s : State) : State :=
  { s with run := { s.run with claims := ks.foldl (fun m k => put (fun _ => 0) m (2 ^ 32 * i + k) 1) s.run.claims } }

/-- Checks the claims of a word on (list, slot, kind) triples: LSLOT 8 first, then DBOOK 0 (R286). -/
def claimLink (l : List (Nat × Nat × Nat)) (w : Slot) (body : State → State) (s : State) : State :=
  if decide (stepTick s % 8 ≠ 0) || l.any fun x => !linkSlotIs s x.1 x.2.1 x.2.2 then wordViol 8 6 w s
  else if l.any fun x => linkClaimed s x.1 x.2.1 then wordViol 0 6 w s
  else body (each l (fun x s => linkClaim x.1 [x.2.1] s) s)

/-- Link slots ⌈n / 3⌉ of a word of `n` flits. -/
def slotsOf (n : Nat) : Nat := ceilDiv n 3

/-- The kind of slot that a port's data words claim: WORKS on port 46 (R287). -/
def dataKind (port : Nat) : Nat := if port = 46 then 3 else 1

/-- Operands of a SEND (R291). -/
def sendOk (w : Slot) : Bool :=
  let port := opf w 95 90
  let n := opf w 89 78
  decide (port ≤ 46) && decide (1 ≤ n) && decide (n ≤ 3072) && decide (opf w 51 0 = 0) && (port == 46 || decide (opf w 54 52 = 0))
    && decide (64 * opf w 67 55 + 256 * n ≤ 524288)

/-- Credit of works ring `r`: it starts at the ring's capacity (R296; log 9). -/
def worksCredit (s : State) (r : Nat) : Nat := get (ringCap s) s.fab.worksCredit r

/-- Sets it. -/
def setWorksCredit (r v : Nat) (s : State) : State :=
  { s with fab := { s.fab with worksCredit := put (ringCap s) s.fab.worksCredit r v } }

/-- Operands of a SEND that are defined. -/
def sendReady (w : Slot) (_ : State) : Bool :=
  sendOk w

/-- What a SEND whose operands are defined does on its issue tick. -/
def sendAct (w : Slot) (s : State) : State :=
  let port := opf w 95 90
  let n := opf w 89 78
  let k := stepTick s / 8
  let m := slotsOf n
  claimLink ((List.range m).map fun i => (2 * port, k + i, dataKind port)) w (fun s =>
    let c := phys s (opf w 77 76) (opf w 75 68)
    let a := 64 * opf w 67 55
    let s := if port = 46 then
        let r := opf w 54 52
        let have_ := worksCredit s r
        let s := setWorksCredit r (have_ - 4 * n) s
        if have_ < 4 * n then wordViol 4 6 w s else s
      else s
    each (List.range m) (fun i s =>
      launchOrLand (now s + 8 * i) (.linkSend c (a + 768 * i) (min 3 (n - 3 * i)) port (if port = 46 then opf w 54 52 else 0)) s) s) s

/-- SEND (R287, R296). -/
def execSend (w : Slot) (s : State) : State := issue 0x61 w (sendReady w) (sendAct w) s

/-- Latency from a SEND's issue to the last byte of its first slot in the receiver's scratchpad (R292); works data is usable from the
first tick of window w + 2 (R296). -/
def recvTick (s : State) (port : Nat) : Nat :=
  if port < 31 then now s + 1280 else if port < 46 then now s + 3280 else (now s / 2 ^ 20 + 2) * 2 ^ 20

/-- Format and scale of a tensor in the step's copy. -/
def tidFormat (s : State) (tid : Nat) : Option (Nat × Nat) :=
  match findTid s tid with
  | some i => (s.tab.copy[i]?).map fun e => (e.fmt, e.b)
  | none => none

/-- Operands of a RECV (R289, R291). -/
def recvOk (s : State) (w : Slot) : Bool :=
  let n := opf w 89 78
  let add := opf w 54 54
  let wide := if add = 0 then 256 else match tidFormat s (opf w 53 38) with
    | some f => if f.1 = 0 then 256 else 512
    | none => 256
  decide (opf w 95 90 ≤ 46) && decide (1 ≤ n) && decide (n ≤ 3072) && decide (opf w 21 0 = 0)
    && (if add = 0 then decide (opf w 53 22 = 0)
        else (match tidFormat s (opf w 53 38) with | some f => f.1 != 3 | none => false)
          && (opf w 37 22 == 0xFFFF || (match findTid s (opf w 37 22) with
            | some i => (s.tab.copy[i]?).elim false fun e => e.role == 3
            | none => false)))
    && decide (64 * opf w 67 55 + wide * n ≤ 524288)

/-- Operands of a RECV that are defined. -/
def recvReady (w : Slot) (s : State) : Bool :=
  recvOk s w

/-- Flits that are placed fill the ring of their cell that their span lies in, a link receive buffer of R53, whose producer the RECV is; more
than the ring holds raises RING. Works data belongs in a ring: a span in none overflows (R296; log 9). -/
def ringArrival (die c a n : Nat) (works : Bool) (w : Slot) (s : State) : State :=
  match ringAt s die a (256 * n) with
  | some r => ringAdd die c r (4 * n) 6 w s
  | none => if works then wordViol 4 6 w s else s

/-- The error that the check bits of flit `i` of a word show in the link receive buffer of a logical port (R337). -/
def rxMark (s : State) (port i : Nat) : Nat := get (fun _ => 0) s.fab.rxBad (4096 * port + i)

/-- The flits of a logical port's link receive buffer have been read. -/
def rxEmpty (port : Nat) (s : State) : State :=
  { s with fab := { s.fab with rxBad := forget (fun k => k / 4096 == port) s.fab.rxBad } }

/-- Flit `i` read from the link receive buffer on a tick, where its check bits show an error (R337). -/
def rxRead1 (port i due : Nat) (c : Option Nat) (s : State) : State :=
  if rxMark s port i = 0 then s else launchOrLand due (.rxRead port c (rxMark s port i)) s

/-- The tick on which flit `i` of a RECV lands: works data all on the first tick of its window (R288, R292, R296). -/
def flitTick (s : State) (port i : Nat) : Nat := recvTick s port + (if port = 46 then 0 else 8 * (i / 3))

/-- What a RECV whose operands are defined does on its issue tick. A flit that has not arrived writes nothing. -/
def recvAct (w : Slot) (flits : List (Option (List Byte))) (s : State) : State :=
  let port := opf w 95 90
  let n := opf w 89 78
  let k := stepTick s / 8
  let m := slotsOf n
  claimLink ((List.range m).map fun i => (2 * port + 1, k + i, dataKind port)) w (fun s =>
    let c := phys s (opf w 77 76) (opf w 75 68)
    let a := 64 * opf w 67 55
    if !((flits.take n).any Option.isSome) then wordViol 4 6 w s
    else
      let got := ((List.range n).zip flits).filterMap fun p => p.2.map fun d => (p.1, d)
      if opf w 54 54 = 0 then
        let s := ringArrival (opf w 77 76) c a n (port == 46) w s
        rxEmpty port (each got (fun p s =>
          let due := flitTick s port p.1
          let s := rxRead1 port p.1 due (some c) (launch due (.sp c (a + 256 * p.1) (p.2.take 256)) s)
          if rxMark s port p.1 = 2 then each (List.range 4) (fun i s => launch due (.spBad c (a + 256 * p.1 + 64 * i)) s) s else s) s)
      else
        let f := (tidFormat s (opf w 53 38)).getD (0, 127)
        let step := if f.1 = 0 then 256 else 512
        rxEmpty port (each got (fun p s =>
          let due := flitTick s port p.1 + 16
          launch due (.recvAdd c (a + step * p.1) f.1 f.2 (opf w 37 22) (8 * k) w.evalSeg (flagOf w 0) (p.2.take 256))
            (rxRead1 port p.1 due (some c) s)) s)) s

/-- RECV: the partner's flits land in place or are added (R288, R289). `flits` is what arrived in its slots, by the valid bits of their tags. -/
def execRecv (w : Slot) (flits : List (Option (List Byte))) (s : State) : State := issue 0x62 w (recvReady w) (recvAct w flits) s

/-- Operands of a RELAY that are defined. -/
def relayReady (w : Slot) (_ : State) : Bool :=
  decide (opf w 95 90 ≤ 46) && decide (1 ≤ opf w 89 78) && decide (opf w 89 78 ≤ 3072) && decide (opf w 77 72 ≤ 46)
      && decide (opf w 71 0 = 0)

/-- What a RELAY whose operands are defined does on its issue tick. -/
def relayAct (w : Slot) (flits : List (Option (List Byte))) (s : State) : State :=
  let port := opf w 95 90
  let n := opf w 89 78
  let k := stepTick s / 8
  claimLink ((List.range (slotsOf n)).map fun i => (2 * port, k + i, dataKind port)) w (fun s =>
    let from_ := opf w 77 72
    let s := each (List.range (slotsOf n)) (fun i s =>
      launchOrLand (now s + 8 * i) (.linkRelay port (((flits.take n).drop (3 * i)).take 3)) s) s
    rxEmpty from_ (each (List.range n) (fun i s =>
      if ((flits[i]?).getD none).isSome then rxRead1 from_ i (now s + 8 * (i / 3)) none s else s) s)) s

/-- RELAY: flits that arrived on another port go out in this port's slots (R290). -/
def execRelay (w : Slot) (flits : List (Option (List Byte))) (s : State) : State := issue 0x63 w (relayReady w) (relayAct w flits) s

/-- The barrier byte of the veto point or of the commit point, from the events so far (R219); 0 for a package with no role (R293). -/
def barrierByte (s : State) (commit : Bool) : Byte :=
  let b := fun (x : Bool) (n : Nat) => if x then n else 0
  BitVec.ofNat 8 (
    if !roleActive s then 0
    else if commit then b (faultInForce s) 1 + b s.run.taintCommit 2 + b s.run.updNonfin 4
    else b (faultInForce s) 1 + b s.run.taintVeto 2 + b (anyNonfin s) 4 + b (anyOvf s) 8 + b (anyCov s && !s.run.covUsed) 16)

/-- The BAR slots that a BARRIER at step tick `t` claims on the ports of the casting's mask (R293, R488). -/
def barSlots (s : State) (t level : Nat) : List (Nat × Nat × Nat) :=
  let on := (List.range 47).filter fun p => bits (portMask s) p p == 1
  (stagesOf (s.run.start + t) level).flatMap fun x =>
    (on.filter fun p => decide (x.2.2.1 ≤ p) && decide (p ≤ x.2.2.2)).map fun p => (2 * p, (x.2.1 - s.run.start) / 8, 2)

/-- Result tick of a BARRIER issued now (R293, R294). -/
def barrierDue (s : State) (level : Nat) : Nat :=
  if level = 0 then now s + 1208 else if level = 1 then now s + 5624 else jobTick (now s) + 5624

/-- The first tid of the table with nonfin > 0, 0xFFFF for none, and the number of entries with ovf > 0 (R238). -/
def statsOf (s : State) : Nat × Nat :=
  (((s.tab.stats.find? fun p => decide (p.2.nonfin > 0)).bind fun p => (s.tab.copy[p.1]?).map (·.tid)).getD 0xFFFF,
   (s.tab.stats.filter fun p => decide (p.2.ovf > 0)).length)

/-- The barrier's own record and the local byte of SCH_BAR; its stages go out in their link slots, and a level-2 BARRIER's forge byte joins
the marks of its window on the tick that its level-1 stages end (R293 to R295). -/
def barrierIssue (commit : Bool) (level : Nat) (s : State) : State :=
  let s := if commit then s else gatherArrays s
  let byte := barrierByte s commit
  let bar : Barrier := ⟨now s, barrierDue s level, byte, level, []⟩
  let s := if level = 2 then launch (now s + 5624) (.barForge commit) s else s
  if commit then setFld Reg.SCH_BAR 23 16 byte.toNat { s with run := { s.run with commit := some bar } }
  else
    setFld Reg.SCH_BAR 7 0 byte.toNat { s with run := { s.run with
      veto := some bar, barByte := (byte, s.run.barByte.2), firstNonfin := (statsOf s).1, ovfEntries := (statsOf s).2 } }

/-- Operands of a BARRIER that are defined. -/
def barrierReady (w : Slot) (s : State) : Bool :=
  let level := opf w 95 94
  decide (level ≤ 2) && decide (opf w 92 0 = 0)
      && (level != 2 || decide (now s + 5624 < (now s / 2 ^ 20 + 1) * 2 ^ 20))

/-- Whether a BARRIER of this tick waits in the segment of a lower logical port: the one that is served (R488). -/
def barrierBelow (s : State) (q : Nat) : Bool :=
  (List.range 47).any fun p => decide (p < q) && match nextWord s (.port (Fin.ofNat 47 p)) with
    | none => false
    | some x =>
      let w := slotOf (.port (Fin.ofNat 47 p)) false x
      (x.extractLsb' 120 8).toNat == 0x64 && issueTick s 6 w == now s && barrierReady w s

/-- What a BARRIER whose operands are defined does on its issue tick. -/
def barrierAct (w : Slot) (s : State) : State :=
  let level := opf w 95 94
  let commit := opf w 93 93 == 1
  if barrierDue s level ≥ s.run.start + stepPeriod s then wordViol 10 6 w s
  else if (if commit then s.run.commit else s.run.veto).isSome || barrierBelow s (placeWhere w.place) then wordViol 0 6 w s
  else claimLink (barSlots s (stepTick s) level) w (barrierIssue commit level) s

/-- BARRIER (R293, R294, R488). -/
def execBarrier (w : Slot) (s : State) : State := issue 0x64 w (barrierReady w) (barrierAct w) s

end Sys2Proof.Machine
end

