-- ==== Sys2Proof/Machine/StepSvc.lean ====
section
/-! DEFINITION. Step services (09, 13): the load window, what the barrier points decide, commit, rewind and skip, the step record, the end
of a period with its log entry, classification, and hallmark verdicts. -/
namespace Sys2Proof.Machine

/-! ### The load window (R42, R53, R59, R87, R107, R149, R165, R236, R246, R286, R326, R342, R380, R487) -/

/-- Number of the step that starts (R66). -/
def nextStep (s : State) : Nat := if schState s = 3 then 0 else (rd s Reg.SCH_STEP + 1) % 2 ^ 32

/-- The tick on which the next period starts (R42). -/
def periodStart (s : State) : Nat := if schState s = 3 then startTick s else s.run.start + stepPeriod s

/-- The record of a period that begins at tick `t` (R42). -/
def newPeriod (t rng : Nat) (r : Run) : Run :=
  { freshRun r with
    on := true, start := t, rngStart := rng, faultAt := r.faultAt, haltAt := r.haltAt, prevLoc := r.prevLoc, prevPoint := r.prevPoint,
    covUsed := r.covUsed, firstPeriod := r.firstPeriod, newBatch := r.newBatch, missing := r.missing, sampled := r.sampled }

/-- Spare tinker cores take over their groups (R380). -/
def applyCoreSwaps (s : State) : State :=
  let due := s.spr.swapDue.filter fun x => decide (x.1 < 4)
  let s := { s with spr := { s.spr with swapDue := s.spr.swapDue.filter fun x => ¬ x.1 < 4 } }
  each due (fun x s => takeFile x.1 x.2 s) s

/-- Cells that the wake table does not wake are in DOZE at the end of the window (R59). -/
def dozeOthers (s : State) : State :=
  each (List.range 4) (fun d s =>
    let woken := ((wakeTable s d).filter fun e => e.action == 1).map (·.cell)
    each ((List.range 256).filter fun c => !woken.contains c) (fun c s =>
      let p := phys s d c
      if (cellAt s p).power = .doze then s else onCell p (fun x => { x with power := .doze }) s) s) s

/-- The array overflow counters restart (R87). -/
def clearOvf (s : State) : State :=
  { s with regs := forget (fun k => decide (2 ^ 36 ≤ k) && decide (k < 2 ^ 40) && decide (Reg.ARR_OVF ≤ (k - 2 ^ 36) % 65536)
      && decide ((k - 2 ^ 36) % 65536 ≤ Reg.ARR_OVF + 0x3C)) s.regs }

/-- The registers of every cell in the window `lo` to `hi` that a map of registers lists. -/
def cellRegs (lo hi : Nat) (m : SMap Word) : SMap Word :=
  let off := fun (k : Nat) => (k - 2 ^ 36) % 65536
  m.filter fun (kv : Nat × Word) => decide (2 ^ 36 ≤ kv.1) && decide (kv.1 < 2 ^ 40) && decide (lo ≤ off kv.1) && decide (off kv.1 ≤ hi)

/-- The masks that the step uses: the lane masks as they stand, and the keep masks as they stand or, in a rewound run, those of the first run
of its batch (R172, R198, R224). -/
def sampleMasks (s : State) : State :=
  let keeps := cellRegs Reg.ANV_KEEP (Reg.ANV_KEEP + 0x34) (if s.run.newBatch then s.regs else s.run.sampled)
  let lanes := cellRegs Reg.BUR_LMASK (Reg.BUR_LMASK + 0x34) s.regs
  { s with run := { s.run with sampled := lanes.foldl (fun m kv => put (regDefault) m kv.1 kv.2) keeps } }

/-- Whether batch `b` is ready (R326). -/
def batchReady (s : State) : Bool :=
  let n := (rd s Reg.HST_INTAKE_PROD + 2 ^ 32 - rd s Reg.HST_INTAKE_BATCH) % 2 ^ 32
  decide (1 ≤ n) && decide (n ≤ 2 ^ 31)

/-- The intake check of a load window; the fault comes at the end of the window, so that its effects stand on the first tick after it (R326). -/
def intakeCheck (s : State) : State :=
  if fld s Reg.HST_INTAKE_CTRL 3 0 = 0 ∨ batchReady s then s
  else
    let s := recordOf 2 Reg.HST_INTAKE_BATCH [] (rd s Reg.HST_INTAKE_BATCH) (sticky Reg.HST_STICKY 7 s)
    launch (s.run.start + 2047) .starve s

/-- The job fault of a period that ended undecided (R487). -/
def missingFault (s : State) : State :=
  if s.run.missing then jobFaultRec Reg.SCH_OUTCOME [] (rd s Reg.SCH_OUTCOME) { s with run := { s.run with missing := false } } else s

/-- The checks and restarts of the first window after the arm (R246, R286). -/
def firstWindow (s : State) : State :=
  if s.run.firstPeriod then linkTablesCheck (memTablesCheck { s with run := { s.run with firstPeriod := false } }) else s

/-- The tables and registers that a load window sets (R149, R321, R380). -/
def windowRegisters (s : State) : State :=
  let comps := ((List.range (tableLen s)).map fun i => (readEntry s i).comp).filter (· != 0xFF)
  windowTable (applyWaiting (rngStep s) (comps.map (· % 32)) (applyCoreSwaps s))

/-- LOAD_WINDOW: a step period starts (R42). -/
def execLoadWindow (s : State) : State :=
  if s.run.on || (schState s != 3 && schState s != 4) then s
  else
    let t := periodStart s
    let s := runTo t s
    if schState s ≠ 3 ∧ schState s ≠ 4 then s
    else
      let n := nextStep s
      let s := setSchState 4 (wr Reg.SCH_STEP n s)
      let s := missingFault (wr Reg.HLT_TAINT 0 { s with run := newPeriod t (rngStep s) s.run })
      let s := dozeOthers (applyPassed s)
      let s := clearOvf (windowRegisters s)
      let s := firstWindow { s with mem := { s.mem with slots := [], prev := if n = 0 then [] else s.mem.slots, window := [] }, streams := [] }
      let s := intakeCheck (sampleMasks s)
      let s := stepMark (mapCells anvilWindow s)
      let due := s.casting.elim false fun c => c.evalInt != 0 && n % c.evalInt == 0 && fld s Reg.SCH_CTRL 3 3 == 0
      sweepBoundary { s with run := { s.run with evalDue := due, newBatch := false, steps := s.run.steps + 1 } }

/-! ### Outcomes (R154, R220, R221, R224, R238) -/

/-- Rewinds of the batch: overflow and taint. -/
def rewinds (s : State) : Nat × Nat := (fld s Reg.SCH_OUTCOME 4 3, fld s Reg.SCH_OUTCOME 6 5)

/-- The outcome of the period is decided (R238, R322). -/
def decideOutcome (code : Nat) (s : State) : State :=
  let s := setFld Reg.SCH_OUTCOME 2 0 code { s with run := { s.run with outcome := some code, logRewinds := rewinds s } }
  if fld s Reg.HST_CTRL 1 1 = 1 then event 3 code s else s

/-- Nothing of the period is committed: its WRITEs act no more, and after the veto point nor do its writes of the master region (R222). -/
def suppress (s : State) : State := { s with run := { s.run with suppressed := true } }

/-- A rewind: the same batch again (R224). -/
def rewind (code : Nat) (s : State) : State :=
  decideOutcome code (suppress (sticky Reg.SCH_STEP_STICKY 1 (bump Reg.SCH_REWINDS s)))

/-- The batch ends: its rewind counts return to zero and the intake goes on (R224, R325). -/
def endBatch (s : State) : State :=
  let s := setFld Reg.SCH_OUTCOME 7 3 0 { s with run := { s.run with newBatch := true, covUsed := false } }
  wr Reg.HST_INTAKE_BATCH (rd s Reg.HST_INTAKE_BATCH + 1) s

/-- A skip: the batch is dropped (R154, R224). -/
def skip (code : Nat) (s : State) : State :=
  let s := setRng ((rngStep s + 1) % 2 ^ 32) (skipTable (code == 5) s)
  endBatch (decideOutcome code (suppress (sticky Reg.SCH_STEP_STICKY 0 (bump Reg.SCH_SKIPS s))))

/-- A taint's location as classification compares it (R347): the place that its cause determines. -/
def taintPlace (l : List (Nat × Nat)) : List (Nat × Nat) := l.filter fun x => x.1 != 3 && x.1 != 6 && x.1 != 10

/-- The brazing that a permanent fault requests (R103, R348). -/
def requestBrazing (l : List (Nat × Nat)) (s : State) : State :=
  let cause := locAt l 11
  if 1 ≤ cause ∧ cause ≤ 7 then (if locHas l 1 then brazeCell (locAt l 1) (locAt l 2) s else s)
  else if cause = 8 then listRow (locAt l 10) s
  else if cause = 9 then requestPortLane (locAt l 7) s
  else s

/-- The classification of an earlier taint at the barrier point at which it was combined (R347): `loc` is what this run has recorded. -/
def classify (point : Nat) (s : State) : State :=
  if s.run.prevPoint ≠ point ∨ s.run.prevLoc = [] then s
  else
    let perm := fld s Reg.HLT_TAINT 0 0 == 1 && taintPlace s.run.taintLoc == taintPlace s.run.prevLoc
    let loc := s.run.prevLoc
    let s := { s with run := { s.run with prevLoc := [], prevPoint := 0 } }
    let s := wr Reg.HLT_CLASS (if perm then 2 else 1) (bump (if perm then Reg.HLT_PERMANENTS else Reg.HLT_TRANSIENTS) s)
    let s := recordFull 4 2 loc (detailOf Reg.HLT_CLASS (rd s Reg.HLT_CLASS)) (if perm then 2 else 1) (rd s Reg.HLT_CLASS) s
    if perm then requestBrazing loc (riskInput 3 1 s) else s

/-- A taint rewind, or the job fault after two of them (R220, R221). -/
def taintRewind (point : Nat) (s : State) : State :=
  let n := (rewinds s).2
  if n ≥ 2 then decideOutcome 6 (suppress (jobFault s))
  else
    let tainted := fld s Reg.HLT_TAINT 0 0 == 1
    let s := setFld Reg.SCH_OUTCOME 6 5 (n + 1)
      { s with run := { s.run with prevLoc := if tainted then s.run.taintLoc else [], prevPoint := if tainted then point else 0 } }
    rewind 3 s

/-- The veto point's decision by the first matching row (R220). -/
def decideVeto (byte : Nat) (s : State) : State :=
  if bits byte 0 0 = 1 then decideOutcome 6 (suppress (jobFault s))
  else if bits byte 1 1 = 1 then taintRewind 1 s
  else if bits byte 2 2 = 1 then skip 4 s
  else if bits byte 4 4 = 1 then
    rewind 2 (setFld Reg.SCH_OUTCOME 7 7 1 { (cautiousTable s) with run := { s.run with covUsed := true } })
  else if bits byte 3 3 = 1 then
    let n := (rewinds s).1
    if n < 2 then rewind 1 (setFld Reg.SCH_OUTCOME 4 3 (n + 1) (raiseTable s)) else skip 5 s
  else vetoHook { s with run := { s.run with proceeds := true } }

/-- VETO_RESULT: the combined byte on the veto point's result tick (R220, R222, R347). `others` is
what the last stage brings on that tick beyond what the slot tags have brought. -/
def execVetoResult (others : Byte) (s : State) : State :=
  match s.run.veto with
  | none => s
  | some b =>
    if !s.run.on || s.run.vetoDone then s
    else
      let s := runTo b.due s
      let byte := (s.run.veto.getD b).combined s false ||| others
      let s := setFld Reg.SCH_BAR 15 8 byte.toNat { s with
        run := { s.run with vetoDone := true, barByte := (s.run.barByte.1, byte, s.run.barByte.2.2) } }
      if schState s = 5 then s else decideVeto (byte.toNat ||| (if faultInForce s then 1 else 0)) (classify 1 s)

/-! ### The commit (R216, R218, R223) -/

/-- The step record of the version just committed (R218). -/
def stepRecord (s : State) : List Byte :=
  natLE 4 (version s) ++ natLE 4 (rd s Reg.SCH_STEP) ++ natLE 4 (rngStep s) ++ natLE 4 (jobSeed s) ++ castingHash s
    ++ List.replicate 16 0 ++ dramGet s (tableAddr s) (64 + 64 * tableLen s)

/-- Whether a commit writes a step record (R218). -/
def recordsStep (s : State) : Bool := decide (rd s Reg.SCH_MASTER_REC ≤ rd s Reg.SCH_MASTER_SPAN)

/-- The step-record write of a commit starts (R218); its lines are poisoned where they come from table lines that could not be read (R255). -/
def startRecord (s : State) : State :=
  let x := version s % 2
  let s := if s.run.recBusy.contains (1 - x) then sticky Reg.SCH_STEP_STICKY 5 s else s
  let s := setFld Reg.SCH_STAMP (4 + x) (4 + x) 0 s
  if !recordsStep s then s
  else
    let s := { s with run := { s.run with recBusy := x :: s.run.recBusy.filter (· != x) } }
    let bad := (List.range (1 + tableLen s)).map fun i => decide (1 < outcomeOf s (lineOf (tableAddr s + 64 * i)))
    let s := tableRead s
    let a := (bufferSpan s 0 x).1
    poisonLines a (bad.headD false :: bad) (writeSpan a (stepRecord s) s)

/-- A commit, in the order of R223. -/
def commit (s : State) : State :=
  let v := (version s + 1) % 2 ^ 32
  let s := setStamp (1 - v % 2) 1 (setStamp (v % 2) 0 (wr Reg.SCH_VERSION v s))
  let s := commitTable (setRng ((rngStep s + 1) % 2 ^ 32) s)
  let s := startRecord s
  let s := endBatch (decideOutcome 0 (bump Reg.SCH_COMMITS s))
  takeHook (recordsStep s) s

/-- The commit point's decision (R221, R222). -/
def decideCommit (byte : Nat) (s : State) : State :=
  if bits byte 0 0 = 1 then decideOutcome 6 (suppress (jobFault s))
  else if bits byte 1 1 = 1 then taintRewind 2 s
  else if bits byte 2 2 = 1 then skip 4 s
  else commit s

/-- COMMIT_RESULT: the combined byte on the commit point's result tick (R221); a fault on that tick prevents the commit (R57). -/
def execCommitResult (others : Byte) (s : State) : State :=
  match s.run.commit with
  | none => s
  | some b =>
    if !s.run.on || s.run.commitDone then s
    else
      let s := runTo b.due s
      let byte := ((s.run.commit.getD b).combined s true ||| others) &&& 7
      let s := setFld Reg.SCH_BAR 31 24 byte.toNat { s with
        run := { s.run with commitDone := true, barByte := (s.run.barByte.1, s.run.barByte.2.1, byte) } }
      if schState s = 5 ∨ !s.run.proceeds then s else decideCommit (byte.toNat ||| (if faultInForce s then 1 else 0)) (classify 2 s)

/-- STEP_RECORD_COMPLETE: rec_ok sets when the write is complete (R218). -/
def execStepRecordComplete (buf : Fin 2) (s : State) : State :=
  if s.run.recBusy.contains buf.val then
    setFld Reg.SCH_STAMP (4 + buf.val) (4 + buf.val) 1 { s with run := { s.run with recBusy := s.run.recBusy.filter (· != buf.val) } }
  else s

/-! ### The end of a period (R238, R240, R487) -/

/-- The step log entry of the period (R238). -/
def logEntry (s : State) (code : Nat) : List Byte :=
  let r := s.run
  let stats := if r.veto.isSome then (r.firstNonfin, r.ovfEntries) else statsOf (gatherArrays s)
  natLE 4 (rd s Reg.SCH_STEP) ++ natLE 4 r.rngStart ++ natLE 4 (version s) ++ natLE 1 code
    ++ [r.barByte.1, r.barByte.2.1, r.barByte.2.2] ++ natLE 1 r.logRewinds.1 ++ natLE 1 r.logRewinds.2
    ++ natLE 1 (if r.evalRan then 1 else 0) ++ natLE 1 0 ++ natLE 4 r.lateOvf ++ natLE 2 stats.1 ++ natLE 2 stats.2 ++ natLE 4 0

/-- Writes the step log entry (R238, R240). -/
def writeLog (code : Nat) (s : State) : State :=
  let n := rd s Reg.SCH_LOG_LEN
  if n = 0 then s
  else
    let k := rd s Reg.SCH_LOG_HEAD
    let base := (rd s Reg.SCH_LOG_BASE_LO + 2 ^ 32 * rd s Reg.SCH_LOG_BASE_HI) / 32 * 32
    let s := if (k + 2 ^ 32 - rd s Reg.SCH_LOG_READ) % 2 ^ 32 ≥ n then sticky Reg.SCH_STEP_STICKY 4 s else s
    wr Reg.SCH_LOG_HEAD ((k + 1) % 2 ^ 32) (asyncWrite (base + 32 * (k % n)) (logEntry s code) s)

/-- STEP_PERIOD_END: the period's outcome stands or is a missing result, and its log entry is written (R238, R487). -/
def execStepPeriodEnd (s : State) : State :=
  if !s.run.on then s
  else
    let s := runTo (s.run.start + stepPeriod s) s
    let off := fun (s : State) => { s with run := { s.run with on := false } }
    match s.run.outcome with
    | some c => off (writeLog c s)
    | none =>
      let c := if schState s = 5 then 7 else 6
      let missing := schState s == 4 && !faultInForce s
      let s := decideOutcome c { s with run := { s.run with missing := missing } }
      off (writeLog c s)

/-! ### Hallmark verdicts (R335, R343, R344) -/

/-- The hmark sticky bit of a unit: register offset in the cell's window and bit. -/
def hmarkBit (unit : Nat) : Option (Nat × Nat) :=
  match unit with
  | 2 => some (Reg.ACC_STICKY, 3)
  | 3 => some (Reg.ANV_STICKY, 2)
  | 4 => some (Reg.BUR_STICKY, 5)
  | _ => none

/-- A mismatch of a value written on a tick is counted and taints the step, and one of a value written before the commit point's BARRIER that
arrives after it faults the job (R335, R343, R344). -/
def hallmarkMismatch (unit : Nat) (place : Place) (written : Nat) (s : State) : State :=
  let s := bump Reg.HLT_HMARK_COUNT s
  let s := match hmarkBit unit with
    | some (r, b) => sticky (cellKey (placePhys s place) r) b s
    | none => s
  let s := taintCell 1 unit (placeDie place) (placeWhere place) s
  match s.run.commit with
  | some b =>
    if s.run.on && decide (written < b.issued) then
      jobFaultRec Reg.HLT_TAINT (placeLoc unit (placeDie place) (placeWhere place)) (rd s Reg.HLT_TAINT) s
    else s
  | none => s

/-- HALLMARK_VERDICT on value `i` of those that a unit wrote on tick `written`; `upset` is what an error has changed in it. The value stands
as computed. One that is not checked has no verdict; a match does nothing more (R333, R335, R336). -/
def execHallmarkVerdict (unit : Fin 7) (place : Place) (written : BitVec 64) (i : Nat) (upset : BitVec 16) (s : State) : State :=
  match checkedValue s unit.val (checkPlace s place) written.toNat i with
  | none => s
  | some x =>
    let s := x.spoil upset.toNat s
    if x.mismatch upset.toNat then hallmarkMismatch unit.val place written.toNat s else s

end Sys2Proof.Machine
end

