-- ==== Sys2Proof/Machine/Cells.lean ====
section
/-! DEFINITION. The wake tables at work (R59, R60, R399, R485): cells waking and dozing, dies at rest. -/
namespace Sys2Proof.Machine

/-- Sets the power state of a physical cell. -/
def setPower (c : Nat) (p : CellPower) (s : State) : State := onCell c (fun x => { x with power := p }) s

/-- Whether a physical cell is in DOZE, its shut-down complete. -/
def inDoze (s : State) (c : Nat) : Bool :=
  match (cellAt s c).power with
  | .doze => true
  | .shutting due latched => decide (due ≤ now s) && !latched
  | _ => false

/-- Whether the wake table of a die in the step that runs has an entry (R485). -/
def wakeEntryIs (s : State) (die tick cell action : Nat) : Bool :=
  s.run.on && (wakeTable s die).any fun e => e.tick == tick && e.cell == cell && e.action == action

/-- Carries out an entry of a wake table on its tick; without such an entry nothing happens. -/
def onEntry (die tick cell action : Nat) (f : State → State) (s : State) : State :=
  if wakeEntryIs s die tick cell action then f (runTo (s.run.start + tick) s) else s

/-- Whether a die has been up for the lead of R399. -/
def dieReady (s : State) (die : Nat) : Bool :=
  !s.pwr.rests.contains die && (let t := get (fun _ => 0) s.pwr.upAt die; t == 0 || decide (t + 24576 ≤ now s))

/-- WAKE (R59, R60, R399). -/
def execWake (die : Fin 4) (cell : Fin 256) (at_ : BitVec 32) (s : State) : State :=
  onEntry die.val at_.toNat cell.val 1 (fun s =>
    if !dieReady s die.val then viol 2 0 die.val cell.val s
    else
      let c := phys s die.val cell.val
      match (cellAt s c).power with
      | .doze => setPower c (.waking (now s + 64)) s
      | .shutting due _ => if due ≤ now s then setPower c (.waking (now s + 64)) s else setPower c (.shutting due true) s
      | _ => s) s

/-- CELL_IN_RUN (R59). -/
def execCellInRun (die : Fin 4) (cell : Fin 256) (s : State) : State :=
  let c := phys s die.val cell.val
  match (cellAt s c).power with
  | .waking due => setPower c .run (runTo due s)
  | _ => s

/-- DOZE (R59). DESIGN CHOICE (log 85): it cancels a wake that is latched, and shuts down a cell that still wakes. -/
def execDoze (die : Fin 4) (cell : Fin 256) (at_ : BitVec 32) (s : State) : State :=
  onEntry die.val at_.toNat cell.val 2 (fun s =>
    let c := phys s die.val cell.val
    match (cellAt s c).power with
    | .run | .waking _ => setPower c (.shutting (now s + 40) false) s
    | .shutting due true => setPower c (.shutting due false) s
    | _ => s) s

/-- DOZE_COMPLETE (R59, R60). -/
def execDozeComplete (die : Fin 4) (cell : Fin 256) (s : State) : State :=
  let c := phys s die.val cell.val
  match (cellAt s c).power with
  | .shutting due latched =>
    let s := runTo due s
    setPower c (if latched then .waking (due + 64) else .doze) s
  | _ => s

/-- Ticks until the PLL of a die has shut down: 12 µs, 300 always-on cycles, after its DIE_REST (R399, R406; log 108). -/
def pllStops (s : State) (die : Nat) : Nat :=
  ceilDiv ((get (fun _ => 0) s.pwr.restAt die + 299 - s.time.cycles) * thirds (ratioCode s)) 3

/-- A die's PLL starts to lock, after a shut-down still under way has ended (R399, R406, R411). -/
def bringUp (die : Nat) (s : State) : State :=
  if !s.pwr.rests.contains die then s
  else
    setFld Reg.PWR_STATUS (3 + die) (3 + die) 1
      { s with pwr := { s.pwr with rests := s.pwr.rests.filter (· != die), upAt := put (fun _ => 0) s.pwr.upAt die (now s + pllStops s die) } }

/-- DIE_UP (R399). -/
def execDieUp (die : Fin 4) (at_ : BitVec 32) (s : State) : State := onEntry die.val at_.toNat 0 3 (bringUp die.val) s

/-- DIE_REST: only where every cell of the die is in DOZE (R399). -/
def execDieRest (die : Fin 4) (at_ : BitVec 32) (s : State) : State :=
  onEntry die.val at_.toNat 0 4 (fun s =>
    if (List.range 256).all (fun l => inDoze s (phys s die.val l)) && !s.pwr.rests.contains die.val then
      setFld Reg.PWR_STATUS (3 + die.val) (3 + die.val) 0 { s with pwr := { s.pwr with
        rests := s.pwr.rests ++ [die.val], restAt := put (fun _ => 0) s.pwr.restAt die.val (s.time.cycles + 1) } }
    else s) s

/-- DIE_AUTO_UP: 24,576 ticks before a load window every resting die comes up (R399). -/
def execDieAutoUp (s : State) : State :=
  if schState s = 3 ∨ (s.run.on ∧ schState s = 4) then
    each (List.range 4) bringUp (runTo (periodStart s - 24576) s)
  else s

end Sys2Proof.Machine
end

