-- ==== Sys2Proof/Machine/Power.lean ====
section
/-! DEFINITION. Power, clocks and states (16): rails and PWR_GOOD failures, REFCLK, PMBus telemetry, entries into BANK and QUENCH, wake
sources, the wake from BANK, and the junction trips of R410. -/
namespace Sys2Proof.Machine

/-- n / d as a whole number where the spec states no rounding (log 4). -/
def wholeDiv (n d : Nat) : Nat := n / d + (if n % d ≠ 0 && Config.roundsUp n d then 1 else 0)

/-- Lets time pass until the always-on cycle count reaches `c`; `f` bounds the ticks. -/
def toCycle : Nat → Nat → State → State
  | 0, _, s => s
  | f + 1, c, s => if c ≤ s.time.cycles then s else toCycle f c (tickStep s)

/-- Lets `n` always-on cycles pass. -/
def runCycles (n : Nat) (s : State) : State := toCycle (81 * n) (s.time.cycles + n) s

/-! ### PMBus (R395, R396) -/

/-- The configured regulator devices, by their number in record 0x0006. -/
def pmbDevices (s : State) : List Nat := List.range (min 8 (cfgNat s 6 6 1))

/-- A command to a device, at the address that record 0x0006 gives it (R395). -/
def pmbSend (d code value : Nat) (s : State) : State := emit (.pmbus (cfgNat s 6 (7 + d) 1) code value) s

/-- VOUT_COMMAND with PWR_VCORE.mv to the VCORE devices. -/
def sendVcore (s : State) : State :=
  each ((pmbDevices s).filter Config.vcoreDevice) (fun d => pmbSend d 0x21 (fld s Reg.PWR_VCORE 9 0)) s

/-- Stores a value read over PMBus. -/
def setPmb (d item v : Nat) (s : State) : State :=
  { s with pwr := { s.pwr with pmb := put (fun _ => (0, 0)) s.pwr.pmb (8 * d + item) (v, s.time.cycles + 1) } }

/-- A fault in a STATUS_WORD (PRESUMED, PMBus 1.3: VOUT_OV 5, IOUT_OC 4, VIN_UV 3, and VOUT 15, which without VOUT_OV leaves
under-voltage; log 17). -/
def pmbFault (w : Nat) : Bool := bits w 5 3 != 0 || bits w 15 15 == 1
/-- An output voltage fault: VOUT_OV, or VOUT without it, which leaves under-voltage (log 17). -/
def pmbVout (w : Nat) : Bool := bits w 5 5 == 1 || bits w 15 15 == 1
/-- A warning for output current or temperature: IOUT without IOUT_OC, TEMPERATURE (log 17). -/
def pmbWarning (w : Nat) : Bool := (bits w 14 14 == 1 && bits w 4 4 == 0) || bits w 2 2 == 1

/-- One device's readings (R395, R396). -/
def readDevice (r : Reading) (s : State) : State :=
  let d := r.device.val
  let w := r.status.toNat
  let s := each [0x79, 0x88, 0x8B, 0x8C, 0x8D, 0x96] (fun c => pmbSend d c 0) s
  let vals := [r.vin, r.vout, r.iout, r.temp, r.pout, r.status]
  let s := each ((List.range 6).zip vals) (fun p => setPmb d p.1 p.2.toNat) s
  let vout := pmbVout w && Config.vcoreDevice d
  if pmbFault w then
    let s := sticky Reg.PWR_STICKY 2 (pmbSend d 0x03 0 s)
    let s := record 14 [] (rd s Reg.PWR_STICKY) s
    if vout then jobFault s else s
  else s

/-- TELEMETRY_CYCLE: every configured device is read once, except in QUENCH (R395, R396). -/
def execTelemetryCycle (readings : List Reading) (s : State) : State :=
  if pwrState s = 3 then s
  else
    let rs := readings.filter fun r => (pmbDevices s).contains r.device.val
    let s := each rs readDevice s
    let warn := rs.any fun r => pmbWarning r.status.toNat
    localLevel (setFld Reg.PWR_STRETCH 20 18 (if warn then 1 else 0) s)

/-! ### Loss of power and of the clock (R394, R398) -/

/-- A job fault in force stops a running casting at once: no tick follows in the domain that loses its clock or its rails (R57). -/
def stopCasting (s : State) : State := if castingRuns s then setSchState 6 (event 2 6 (jobFault s)) else s

/-- VCORE is gone: the part is as after a QUENCH without a valid quench image; records wait in the queue (R394, R410). -/
def powerLost (s : State) : State :=
  let q := s.health.queue
  let s := { railsLow [3, 2, 1, 0] s with pwr := { (railsLow [3, 2, 1, 0] s).pwr with entryAt := none, rising := 0 } }
  let s := loseDomains s
  let s := setFld Reg.HLT_AREC_QUEUE 9 0 q.length { s with health := { s.health with queue := q } }
  setFld Reg.PWR_STATUS 7 7 0 (setFld Reg.PWR_STATUS 2 0 3 s)

/-- PWR_GOOD_FAILURE: it does not rise within 1 ms of VCORE_EN, or falls while VCORE_EN is high (R394). -/
def execPwrGoodFailure (s : State) : State :=
  if bits s.pwr.rails 0 0 = 0 then s
  else
    let s := sticky Reg.PWR_STICKY 3 s
    powerLost (stopCasting (record 14 [] (rd s Reg.PWR_STICKY) s))

/-- REFCLK_LOSS (R398); with the hub's fast clock the host ports go down (R309). -/
def execRefclkLoss (s : State) : State :=
  if !s.time.refclk then s
  else
    let s := setFld Reg.PWR_STATUS 9 9 0 (sticky Reg.PWR_STICKY 1 { s with time := { s.time with refclk := false } })
    record 14 [] (rd s Reg.PWR_STICKY) (stopCasting (hostPortsDown s))

/-- Host ports enabled by the configuration come up with the hub's clock (R307, R309). -/
def hostPortsUp (s : State) : State :=
  each (List.range 4) (fun p s => if bits (cfgNat s 7 8 1) p p = 1 then setFld (Reg.HST_PORT + 4 * p) 0 0 1 s else s) s

/-- REFCLK_RETURN: the counts resume and the lock is lost (R398); with the hub's fast clock the host ports come up again (R309). -/
def execRefclkReturn (s : State) : State :=
  if s.time.refclk then s
  else
    let s := setFld Reg.FAB_LOCK 16 16 0 (setFld Reg.PWR_STATUS 9 9 1 { s with time := { s.time with refclk := true } })
    if hubRuns s then hostPortsUp s else s

/-! ### The junction source (R409, R410) -/

/-- The code of a thermal diode at a temperature in °C (R414). -/
def diodeCode (t : Nat) : Nat := 16 * (t + 64)

/-- Threshold k of the junction source in °C: 1 to 4 of PWR_TJ, 5 the trip at 105 °C. -/
def tjThreshold (s : State) (k : Nat) : Nat :=
  if k = 5 then 105 else fld s Reg.PWR_TJ 6 0 + (k - 1) * fld s Reg.PWR_TJ 9 7

/-- Whether threshold k is in force. -/
def tjHeld (s : State) (k : Nat) : Nat := get (fun _ => 0) s.pwr.tj k

/-- The junction source with the hottest diode at `code`; a reading `read` of 105 °C or above has its effects each time (R409, R410). -/
def tjSource (read code : Nat) (s : State) : State :=
  let h := fld s Reg.PWR_TJ 12 10
  let s := each [1, 2, 3, 4, 5] (fun k s =>
    let t := tjThreshold s k
    let v := hystStep (tjHeld s k) (decide (diodeCode t ≤ code)) (decide (code + 16 * h < diodeCode t)) (now s)
    let m := put (fun _ => 0) s.pwr.tj k v
    { s with pwr := { s.pwr with tj := m } }) s
  let level := if tjHeld s 5 ≠ 0 then 4 else [1, 2, 3, 4].foldl (fun l k => if tjHeld s k ≠ 0 then k else l) 0
  let s := localLevel (setFld Reg.PWR_STRETCH 11 9 level s)
  if diodeCode 105 ≤ read then
    let s := sticky Reg.PWR_STICKY 4 s
    jobFault (record 14 [] (rd s Reg.PWR_STICKY) s)
  else s

/-- Every enable drops at 115 °C: one journal entry, no record, no notice on any link (R410). The entry is a journal STORE like any other:
where 16 are outstanding it is counted as dropped (R459). -/
def thermTrip (s : State) : State :=
  if fld s Reg.PWR_STICKY 5 5 = 1 then s
  else
    let s := emit (.pin 4 false) (sticky Reg.PWR_STICKY 5 s)
    let s := journalIssue (journalEntry s 14 3 [] (rd s Reg.PWR_STICKY % 65536)) s
    let s := { s with health := { s.health with seq := s.health.seq + 1 } }
    let s := wr Reg.HLT_AREC_SEQ_LO s.health.seq s
    powerLost { s with health := { s.health with queue := [] } }

/-! ### Entering a deep state (R402 to R404) -/

/-- Whether an entry is accepted (R402, R404). -/
def deepOk (s : State) (target : Nat) : Bool :=
  let stage := fld s Reg.ING_STATUS 2 0
  !castingRuns s && (stage == 0 || stage == 5) && !s.mem.pprBusy
    && (target == 1 || (List.range 4).all fun d => fld s (Reg.PWR_QIMG_BASE + 4 * d) 31 31 == 1)

/-- WAIT: an accepted entry opens its window, and its sequence follows; otherwise the WAIT is a plain WFI (R402 to R404). The entry takes a
free time within R408 (log 18). -/
def execWait (s : State) : State :=
  let t := fld s Reg.PWR_MODE 1 0
  if pwrState s ≠ 0 ∨ t = 0 ∨ t = 3 then s
  else if !deepOk s t then sticky Reg.PWR_STICKY 0 (setFld Reg.PWR_MODE 1 0 0 s)
  else
    let s := if t = 1 then bumpFld Reg.PWR_ENTRIES 15 0 1 s else bumpFld Reg.PWR_ENTRIES 31 16 1 s
    let v := fresh s
    let span := 6 + v.1.toNat % (if t = 1 then 995 else 12495)
    let s := v.2
    setFld Reg.PWR_STATUS 2 0 1 { s with pwr := { s.pwr with
      entryAt := some s.time.cycles, entryEnd := s.time.cycles + span, deep := t } }

/-! ### Wake sources (R405, R451, R454) -/

/-- Whether the package is entering or in a deep state. -/
def sleeping (s : State) : Bool := pwrState s == 1 || pwrState s == 2 || pwrState s == 3

/-- Whether the entry window is open: edges and frames are lost (R403, R405). -/
def inWindow (s : State) : Bool := match s.pwr.entryAt with | some t => decide (s.time.cycles < t + 6) | none => false

/-- RTC_ALARM: the count has reached the alarm (R405). -/
def execRtcAlarm (s : State) : State :=
  if rd s Reg.PWR_ALARM_LO + 2 ^ 32 * fld s Reg.PWR_ALARM_HI 15 0 ≤ s.time.rtc.toNat then
    { s with pwr := { s.pwr with rtcLatch := true } }
  else s

/-- WAKE_PIN: the pin takes a level; in edge mode an edge of the set polarity is latched outside the window (R405). -/
def execWakePin (level : Bool) (s : State) : State :=
  let edge := s.pwr.pinLevel != level && level == (fld s Reg.PWR_WAKE_CFG 4 4 == 1)
  let latch := edge && fld s Reg.PWR_WAKE_CFG 3 3 == 1 && sleeping s && !inWindow s
  { s with pwr := { s.pwr with pinLevel := level, pinLatch := s.pwr.pinLatch || latch } }

/-- WAKE_FRAME: outside reset a matching frame is latched while the package sleeps, unless it ends inside the window, and counted in RUN
(R29, R405, R451). -/
def execWakeFrame (addr : BitVec 16) (s : State) : State :=
  if s.pwr.inReset || !validAddr addr.toNat || (addr.toNat != ownAddr s && addr.toNat != 0xFFFF) then s
  else if !sleeping s then bump Reg.MGT_WAKE_FRAMES s
  else if inWindow s then s
  else bump Reg.MGT_WAKE_FRAMES { s with pwr := { s.pwr with mgmtLatch := true } }

/-! ### Wakes (R406, R407) -/

/-- An entry under way completes before a wake begins (R406). -/
def endEntry (s : State) : State :=
  match s.pwr.entryAt with
  | some _ => toCycle (81 * (s.pwr.entryEnd - s.time.cycles)) s.pwr.entryEnd s
  | none => s

/-- Whether a wake begins: a cause stands and no 115 °C trip is held (R405, R410). -/
def wakes (s : State) : Bool := wakeCauses s != 0 && fld s Reg.PWR_STICKY 5 5 == 0

/-- PWR_WAKE_CAUSE and PWR_STICKY.latched as a wake begins (R406). -/
def recordCauses (s : State) : State :=
  let n := wakeCauses s
  let s' := wr Reg.PWR_WAKE_CAUSE (n + (if s.pwr.during then 16 else 0)) s
  if s.pwr.during then sticky Reg.PWR_STICKY 7 s' else s'

/-- The wake has completed: the latches that hold until then are clear, every die is up (R405, R407). -/
def wakeDone (s : State) : State :=
  let s := setFld Reg.PWR_STATUS 6 3 15 s
  setFld Reg.PWR_STATUS 2 0 0 { s with pwr := { s.pwr with
    dwiLatch := false, pinLatch := false, mgmtLatch := false, during := false, rests := [], upAt := [] } }

/-- BANK_WAKE: the entry is reversed, with 10 µs between the two enables (R394), and every port trains; the SCH state is unchanged, and the
cells doze until a load window wakes them (R59, R277, R407). -/
def execBankWake (s : State) : State :=
  let s := if s.pwr.deep = 1 then endEntry s else s
  if pwrState s ≠ 2 ∨ !wakes s then s
  else
    let s := driveRail 2 true (setFld Reg.PWR_STATUS 2 0 4 (recordCauses s))
    each (List.range 48) startTraining (hostPortsUp (wakeDone (driveRail 3 true (runCycles 250 s))))

end Sys2Proof.Machine
end

