-- ==== Sys2Proof/Machine/Touchstone.lean ====
section
/-! DEFINITION. The Touchstone monitor (17): conversions, window comparison, cross-checks, urgent requests, the current and power stretch
sources, and the TSM registers. -/
namespace Sys2Proof.Machine

/-! ### Channels (R413) -/

/-- Whether a channel is a thermal diode. -/
def isDiode (conv ch : Nat) : Bool := if conv = 8 then decide (ch ≤ 2) else decide (ch ≤ 8) || ch == 26

/-- The rail a channel senses, by number, when the part switches it (R393, R413). -/
def chanRail (conv ch : Nat) : Option Nat :=
  if conv = 8 then (if ch = 5 then some 0 else if ch = 6 then some 2 else if ch = 7 then some 3 else none)
  else if 9 ≤ ch ∧ ch ≤ 24 then some 0 else if ch = 25 then some 1 else none

/-- Whether window comparison is suspended: the channel's rail is switched off (R415). -/
def chanSuspended (s : State) (conv ch : Nat) : Bool :=
  match chanRail conv ch with | some r => bits s.pwr.rails r r == 0 | none => false

/-- The channels of a converter in ascending order from `from` on, and round to it again. -/
def roundFrom (start : Nat) : List Nat := (List.range 32).map fun i => (start + i) % 32

/-- What a converter converts next: its oldest urgent request, else the next enabled channel of its round (R415, R416). -/
def nextConv (s : State) (conv : Nat) : Option (Nat × Bool) :=
  match get (fun _ => ([] : List Nat)) s.tsm.urgent conv with
  | ch :: _ => some (ch, true)
  | [] => ((roundFrom (get (fun _ => 0) s.tsm.round conv)).find? (chanEn s conv)).map fun ch => (ch, false)

/-- What a converter converts: what it has begun, or, where it has begun nothing, what it would convert next. -/
def converting (s : State) (conv : Nat) : Option (Nat × Bool) :=
  match get (fun _ => 0) s.tsm.busy conv with
  | 0 => nextConv s conv
  | v => some ((v - 1) % 32, decide (32 ≤ v - 1))

/-- A round passes over channels: their last write of TSM_CH_WIN takes effect (R424). -/
def passOver (conv : Nat) (chans : List Nat) (s : State) : State :=
  each chans (fun c s => setChan conv c { chanAt s conv c with enBefore := none } s) s

/-- A converter begins its next conversion: an urgent request leaves those that wait, and a round passes over the disabled channels, whose
last write of TSM_CH_WIN takes effect there (R415, R416, R424; log 111). -/
def beginConv (conv : Nat) (s : State) : State :=
  match nextConv s conv with
  | none => passOver conv (List.range 32) { s with tsm := { s.tsm with busy := put (fun _ => 0) s.tsm.busy conv 0 } }
  | some (ch, urgent) =>
    let start := get (fun _ => 0) s.tsm.round conv
    let s := { s with tsm := { s.tsm with busy := put (fun _ => 0) s.tsm.busy conv (1 + ch + if urgent then 32 else 0) } }
    if urgent then
      let q := put (fun _ => ([] : List Nat)) s.tsm.urgent conv ((get (fun _ => ([] : List Nat)) s.tsm.urgent conv).drop 1)
      { s with tsm := { s.tsm with urgent := q } }
    else
      let s := passOver conv ((roundFrom start).takeWhile fun c => c != ch) s
      { s with tsm := { s.tsm with round := put (fun _ => 0) s.tsm.round conv (ch + 1) } }

/-- All channels as (converter, channel). -/
def allChans : List (Nat × Nat) := (List.range 9).flatMap fun v => (List.range 32).map fun c => (v, c)

/-- The code of a channel. -/
def chanCode (s : State) (p : Nat × Nat) : Nat := (chanAt s p.1 p.2).code.toNat

/-- The hottest valid diode: converter and channel (R421). -/
def hottest (s : State) : Option (Nat × Nat) :=
  (allChans.filter fun p => isDiode p.1 p.2 && chanValid s p.1 p.2).foldl (fun best p =>
    match best with
    | none => some p
    | some b => if chanCode s b < chanCode s p then some p else some b) none

/-! ### Window comparison (R418) -/

/-- Records an event in TSM_EVENT_FIRST when the register is empty. -/
def tsmFirst (conv ch kind : Nat) (s : State) : State :=
  if rd s Reg.TSM_EVENT_FIRST = 0 then wr Reg.TSM_EVENT_FIRST (conv + 16 * ch + 512 * kind) s else s

/-- A record of class 13, with the channel in its detail. -/
def tsmRecord (conv ch : Nat) (s : State) : State :=
  recordFull 13 1 [] [("conv", conv), ("channel", ch)] 0 (rd s Reg.TSM_EVENT_FIRST) s

/-- A channel leaves its band: the health core is interrupted among the rest. -/
def windowEvent (conv ch : Nat) (high : Bool) (s : State) : State :=
  let s := tsmFirst conv ch (if high then 1 else 2) (sticky Reg.TSM_STICKY 0 s)
  tsmRecord conv ch (emit (.healthIrq conv ch) (riskInput 4 1 (bump Reg.TSM_WIN_EVENTS s)))

/-- Compares a conversion with its window. -/
def compare' (conv ch code : Nat) (s : State) : State :=
  let w := chanWin s conv ch
  let lo := bits w 11 0
  let hi := bits w 23 12
  let h := 8 * bits w 27 24
  let x := chanAt s conv ch
  if !chanOn s conv ch || chanSuspended s conv ch then s
  else if x.out then (if lo + h ≤ code ∧ code + h ≤ hi then setChan conv ch { x with out := false } s else s)
  else if code < lo ∨ hi < code then windowEvent conv ch (decide (hi < code)) (setChan conv ch { x with out := true } s)
  else s

/-! ### Cross-checks (R419, R420) -/

/-- The other converter of a die. -/
def otherConv (conv : Nat) : Nat := if conv % 2 = 0 then conv + 1 else conv - 1

/-- Whether the two readings of a die's central diode are valid and disagree. -/
def diodesApart (s : State) (conv : Nat) : Bool :=
  let a := chanCode s (conv, 0)
  let b := chanCode s (otherConv conv, 0)
  chanValid s conv 0 && chanValid s (otherConv conv) 0 && decide (fld s Reg.TSM_PLAUS 7 0 < (a - b) + (b - a))

/-- The reading of a die's central diode that its consumers take after a conversion: the higher of the two while they disagree. -/
def centralCode (s : State) (conv : Nat) : Nat :=
  if diodesApart s conv then max (chanCode s (conv, 0)) (chanCode s (otherConv conv, 0)) else chanCode s (conv, 0)

/-- The plausibility check after a conversion of channel 0 of a die's converter. -/
def plausibility (conv : Nat) (s : State) : State :=
  if 8 ≤ conv || !chanValid s conv 0 || !chanValid s (otherConv conv) 0 then s
  else
    let apart := diodesApart s conv
    let die := conv / 2
    let n := if apart then get (fun _ => 0) s.tsm.runs die + 1 else 0
    let fails := decide (fld s Reg.TSM_PLAUS 11 8 ≤ n) && apart
    let runs := put (fun _ => 0) s.tsm.runs die (if fails then 0 else n)
    let s := { s with tsm := { s.tsm with runs := runs } }
    if fails then
      let s := tsmFirst conv 0 3 (sticky Reg.TSM_STICKY 1 (bump Reg.TSM_PLAUS_FAILS s))
      tsmRecord conv 0 (riskInput 7 1 s)
    else s

/-- A swing of more than 40 °C of a die's central diode adds to wear counter 2 (R389; log 19). -/
def swingCount (conv code : Nat) (s : State) : State :=
  let die := conv / 2
  let old := get (fun _ => (0, 0)) s.tsm.swing die
  let lo := if old.2 = 0 then code else min old.1 code
  let hi := max old.2 code
  let n := if 640 < hi - lo then (code, code) else (lo, hi)
  let m := put (fun _ => (0, 0)) s.tsm.swing die n
  let s := { s with tsm := { s.tsm with swing := m } }
  if 640 < hi - lo then wear 2 die 0 1 s else s

/-- The check of a reference channel. -/
def referenceCheck (conv ch code : Nat) (s : State) : State :=
  let mid := if conv = 8 then 9 else 28
  let bad := (ch == mid && (decide (code < 2040) || decide (2056 < code))) || (ch == mid + 1 && decide (8 < code))
  if bad then tsmRecord conv ch (sticky Reg.TSM_STICKY 2 s) else s

/-! ### Consumers (R409, R421) -/

/-- TSM_HOT and the junction source after a diode read `read`; a diode at 115 °C trips the part (R410). -/
def junction (read : Nat) (s : State) : State :=
  match hottest s with
  | none => s
  | some p =>
    let code := chanCode s p
    let s := wr Reg.TSM_HOT (code + 4096 * p.1 + 65536 * p.2) s
    if diodeCode 115 ≤ code then thermTrip s else tjSource read code s

/-- Sum of the codes of the valid die current-sense channels, in 1/64 A. -/
def currentCodes (s : State) : Nat :=
  (allChans.filter fun p => decide (p.1 < 8) && decide (17 ≤ p.2) && decide (p.2 ≤ 24) && chanValid s p.1 p.2).foldl
    (fun n p => n + chanCode s p) 0

/-- The valid VCORE supply senses of all dies: their codes, in 1/4 mV. -/
def vcoreCodes (s : State) : List Nat :=
  (allChans.filter fun p => decide (p.1 < 8) && decide (9 ≤ p.2) && decide (p.2 ≤ 16) && chanValid s p.1 p.2).map (chanCode s)

/-- A power sample in µW, from the sum of currents and the mean supply sense. -/
def powerSample (s : State) : Nat :=
  let v := vcoreCodes s
  if v = [] then 0 else wholeDiv (currentCodes s * v.foldl (· + ·) 0 * 1000) (256 * v.length)

/-- The mean of the samples of the last millisecond, in µW. -/
def powerMean (s : State) : Nat :=
  let l := s.tsm.power
  if l = [] then 0 else wholeDiv (l.foldl (fun n p => n + p.2) 0) l.length

/-- A threshold of the current source: 2 above PWR_ILIM for 10 µs, 4 above 2,100 A; it falls 5 % below (R409). -/
def curStep (k : Nat) (above : Bool) (limit : Nat) (s : State) : State :=
  let below := decide (100 * currentCodes s < 95 * 64 * limit)
  let v := hystStep (get (fun _ => 0) s.pwr.cur k) above below (now s)
  let m := put (fun _ => 0) s.pwr.cur k v
  { s with pwr := { s.pwr with cur := m } }

/-- The current stretch source, after a conversion of a current channel. -/
def currentSource (s : State) : State :=
  let lim := fld s Reg.PWR_ILIM 11 0
  let n := currentCodes s
  let since := if 64 * lim < n then (s.pwr.highSince <|> some s.time.cycles) else none
  let s := { s with pwr := { s.pwr with highSince := since } }
  let long := match since with | some t => decide (t + 250 ≤ s.time.cycles) | none => false
  let s := curStep 4 (decide (64 * 2100 < n)) 2100 (curStep 2 long lim s)
  let on := fun k => get (fun _ => 0) s.pwr.cur k != 0
  setFld Reg.PWR_STRETCH 14 12 (if on 4 then 4 else if on 2 then 2 else 0) s

/-- The power stretch source: one code up per stretch interval above the limit, one code down for each whole interval that power has stayed
below 95 % of it (R409). -/
def powerSource (s : State) : State :=
  let w := powerMean s
  let lim := 1000000 * fld s Reg.PWR_PLIM 10 0
  let i := now s / 65536 + 1
  let lv := fld s Reg.PWR_STRETCH 17 15
  if 100 * w < 95 * lim then
    let since := s.pwr.plimLow.getD (now s)
    if wholeInterval since (now s) then
      setFld Reg.PWR_STRETCH 17 15 (lv - 1) { s with pwr := { s.pwr with plimLow := some (65536 * (now s / 65536)) } }
    else { s with pwr := { s.pwr with plimLow := some since } }
  else
    let s := { s with pwr := { s.pwr with plimLow := none } }
    if lim < w ∧ s.pwr.plimAt < i then setFld Reg.PWR_STRETCH 17 15 (min 4 (lv + 1)) { s with pwr := { s.pwr with plimAt := i } } else s

/-- What a conversion of a current-sense channel re-forms: TSM_VCORE and two stretch sources. -/
def vcoreSources (s : State) : State :=
  let keep := s.tsm.power.filter fun p => decide (s.time.cycles < p.1 + msCycles 1)
  let s := { s with tsm := { s.tsm with power := keep ++ [(s.time.cycles, powerSample s)] } }
  let s := wr Reg.TSM_VCORE (wholeDiv (currentCodes s) 64 % 65536 + 65536 * (wholeDiv (powerMean s) 1000000 % 65536)) s
  localLevel (powerSource (currentSource s))

/-! ### Conversions (R413 to R418) -/

/-- The urgent requests waiting at a converter. -/
def urgentAt (s : State) (conv : Nat) : List Nat := get (fun _ => ([] : List Nat)) s.tsm.urgent conv

/-- Whether the converter makes this conversion: it is outside reset, runs, and converts this (R415, R416, R472). -/
def convMade (s : State) (conv ch : Nat) (urgent : Bool) : Bool :=
  !s.pwr.inReset && convRuns s conv && converting s conv == some (ch, urgent)

/-- A conversion has ended, which the converter may have begun unseen: it begins the next (R415, R416). -/
def convEnds (conv : Nat) (s : State) : State :=
  beginConv conv (if get (fun _ => 0) s.tsm.busy conv = 0 then beginConv conv s else s)

/-- A new reading of a cell group's diode is held against t_cal of every array of the group (R106). -/
def overdueGroup (conv ch : Nat) (s : State) : State :=
  if conv < 8 ∧ 1 ≤ ch ∧ ch ≤ 8 then
    each (List.range 1024) (fun k s =>
      overdueCheck (conv / 2) (16 * (8 * (conv % 2) + ch - 1) + k / 64) (k % 64) s) s
  else s

/-- CONVERSION: a converter ends a conversion; its code is stored, compared, checked and used (R416 to R421). -/
def execConversion (conv : Fin 9) (chan : Fin 32) (code : BitVec 12) (urgent : Bool) (s : State) : State :=
  let v := conv.val
  let c := chan.val
  if !convMade s v c urgent then s
  else
    let s := convEnds v s
    let s := setChan v c { chanAt s v c with code := code, urgent := urgent, takenAt := some s.time.cycles, enBefore := none } s
    let s := overdueGroup v c (compare' v c code.toNat s)
    let s := referenceCheck v c code.toNat (if c = 0 ∧ v < 8 then swingCount v (centralCode s v) (plausibility v s) else s)
    if isDiode v c then junction code.toNat s
    else if v < 8 ∧ 17 ≤ c ∧ c ≤ 24 then vcoreSources s
    else s

/-! ### Registers (R416, R423, R424) -/

/-- A write of TSM_URGENT: the request waits behind the conversion that runs, or is discarded when four wait or the converter does not exist;
a converter that converts nothing begins it at once. -/
def tsmUrgentWrite (v : Nat) (s : State) : State :=
  let conv := bits v 3 0
  let ch := bits v 8 4
  if 9 ≤ conv then s
  else
    let idle := fun (s : State) => get (fun _ => 0) s.tsm.busy conv == 0
    let s := if idle s then beginConv conv s else s
    if (urgentAt s conv).length ≥ 4 then sticky Reg.TSM_STICKY 3 s
    else
      let q := put (fun _ => ([] : List Nat)) s.tsm.urgent conv (urgentAt s conv ++ [ch])
      let s := { s with tsm := { s.tsm with urgent := q } }
      if idle s then beginConv conv s else s

/-- A write of TSM_CH_WIN of the selected channel: its band and its enable from the next conversion, its out state clear; a reserved channel
stays disabled. -/
def tsmChWinWrite (v : Nat) (s : State) : State :=
  let conv := fld s Reg.TSM_SEL 3 0
  let ch := fld s Reg.TSM_SEL 8 4
  if 9 ≤ conv then s
  else
    let v := if chanExists conv ch then v % 2 ^ 29 else v % 2 ^ 28
    setChan conv ch { chanAt s conv ch with out := false, enBefore := some (chanOn s conv ch) } (wr (bankKey Reg.TSM_CH_WIN (32 * conv + ch)) v s)

/-- TSM_CH_DATA of the selected channel (R423). -/
def tsmChData (s : State) : Nat :=
  let conv := fld s Reg.TSM_SEL 3 0
  let ch := fld s Reg.TSM_SEL 8 4
  if 9 ≤ conv then 0
  else
    let x := chanAt s conv ch
    let age := match x.takenAt with | some t => min 0xFFFF ((s.time.cycles - t) / 25) | none => 0xFFFF
    let b := fun (c : Bool) (n : Nat) => if c then n else 0
    x.code.toNat + b (chanValid s conv ch) 4096 + b x.out 8192 + b x.urgent 16384 + 65536 * age

/-- PWR_PMB_DATA of the selected device and item (R411). -/
def pmbData (s : State) : Nat :=
  let e := get (fun _ => (0, 0)) s.pwr.pmb (fld s Reg.PWR_PMB_SEL 5 0 / 8 + 8 * (fld s Reg.PWR_PMB_SEL 5 0 % 8))
  if e.2 = 0 then 0xFFFF0000 else e.1 % 65536 + 65536 * min 0xFFFF ((s.time.cycles + 1 - e.2) / 25000)

end Sys2Proof.Machine
end

