-- ==== Sys2Proof/Machine/Health.lean ====
section
/-! DEFINITION. Health (13): the assay record's encoding and sending, the risk score, reports, and journal STOREs (R349 to R357,
R434, R459). -/
namespace Sys2Proof.Machine

/-! ### CBOR (RFC 8949, core deterministic encoding; R349) -/

/-- The big-endian bytes of a value. -/
def natBE (n v : Nat) : List Byte := (natLE n v).reverse

/-- The head of an item: major type and argument in the shortest form. -/
def cborHead (major n : Nat) : List Byte :=
  let m := 32 * major
  if n < 24 then natBE 1 (m + n)
  else if n < 256 then natBE 1 (m + 24) ++ natBE 1 n
  else if n < 65536 then natBE 1 (m + 25) ++ natBE 2 n
  else if n < 2 ^ 32 then natBE 1 (m + 26) ++ natBE 4 n
  else natBE 1 (m + 27) ++ natBE 8 n

/-- An unsigned integer. -/
def cborUint (n : Nat) : List Byte := cborHead 0 n

/-- A byte string. -/
def cborBytes (b : List Byte) : List Byte := cborHead 2 b.length ++ b

/-- A text string of ASCII characters. -/
def cborText (t : String) : List Byte :=
  let b := t.toList.map fun c => BitVec.ofNat 8 c.toNat
  cborHead 3 b.length ++ b

/-- Whether one encoding comes before another, byte by byte. -/
def bytesLt : List Byte → List Byte → Bool
  | _, [] => false
  | [], _ :: _ => true
  | a :: x, b :: y => decide (a.toNat < b.toNat) || (a == b && bytesLt x y)

/-- Inserts an entry into a list in the order of encoded keys. -/
def insertKey (e : List Byte × List Byte) : List (List Byte × List Byte) → List (List Byte × List Byte)
  | [] => [e]
  | x :: l => if bytesLt e.1 x.1 then e :: x :: l else x :: insertKey e l

/-- A map of encoded keys and values, in the order of encoded keys. -/
def cborMap (l : List (List Byte × List Byte)) : List Byte :=
  let sorted := l.foldl (fun a e => insertKey e a) []
  cborHead 5 sorted.length ++ sorted.flatMap fun e => e.1 ++ e.2

/-! ### Assay records (R349 to R353) -/

/-- The assay key of the configuration, when there is one (record 0x0009, R353). -/
def assayKey (s : State) : Option (List Byte) := (cfgRec s 9).map fun v => (v.drop 40).take 32

/-- The entries of a record's map without the tag (R350). -/
def recordMap (s : State) (r : Rec) : List (List Byte × List Byte) :=
  let u := fun (k v : Nat) => [(cborUint k, cborUint v)]
  u 1 1 ++ u 2 (ownAddr s) ++ (match r.role with | some a => u 3 a | none => []) ++ u 4 r.seq ++ u 5 r.mandrel ++ u 6 r.tick
    ++ u 7 r.step ++ u 8 r.rng ++ u 9 r.cls ++ u 10 r.sev
    ++ (if r.loc = [] then [] else [(cborUint 11, cborMap (r.loc.map fun p => (cborUint p.1, cborUint p.2)))])
    ++ (if r.detail = [] then [] else [(cborUint 12, cborMap (r.detail.map fun p => (cborText p.1, cborUint p.2)))])
    ++ u 13 r.classif ++ (if r.suppressed = 0 then [] else u 14 r.suppressed)
    ++ (match r.casting with | some h => [(cborUint 16, cborBytes h)] | none => [])

/-- The record as it is sent, with its tag where an assay key is configured (R350, R353). -/
def recordBytes (s : State) (r : Rec) : List Byte :=
  let m := recordMap s r
  match assayKey s with
  | none => cborMap m
  | some k => cborMap (m ++ [(cborUint 15, cborBytes (shake256 (k ++ cborMap m) 16))])

/-- Whether the part is in the safe state (R434). -/
def safeState (s : State) : Bool := fld s Reg.NVS_STATUS 1 0 == 1

/-- The management MAC: the configured one, in the safe state the factory MAC of the identity region (R434, R444; log 3). -/
def mgmtMac (s : State) : List Byte :=
  if safeState s then natLE 4 (Config.perPart 0xD0000).toNat ++ natLE 2 (Config.perPart 0xD0004).toNat
  else ((cfgRec s 9).getD []).take 6

/-- The link-local address formed from a MAC (modified EUI-64, RFC 4291; PRESUMED, log 15). -/
def linkLocal (mac : List Byte) : List Byte :=
  [0xFE, 0x80] ++ List.replicate 6 0 ++ [((mac[0]?).getD 0) ^^^ 2] ++ (mac.drop 1).take 2 ++ [0xFF, 0xFE] ++ (mac.drop 3).take 3

/-- The management IPv6 address (R434, R444). -/
def mgmtAddr (s : State) : List Byte := if safeState s then linkLocal (mgmtMac s) else (((cfgRec s 9).getD []).drop 6).take 16

/-- Where records go: the collector of the configuration, in the safe state ff02::1 port 6,071 (R349, R434). -/
def collector (s : State) : List Byte × Nat :=
  if safeState s then (natBE 16 (0xff02 * 2 ^ 112 + 1), 6071)
  else ((((cfgRec s 9).getD []).drop 22).take 16, fld s Reg.HLT_AREC_CFG 31 16)

/-- ASSAY_RECORD_SEND: the oldest queued record leaves while the management link is up and the hub's main domain, which sends it, runs; it
carries the count of those suppressed since the last one sent, which starts again (R349, R350, R352, R393). -/
def execAssayRecordSend (s : State) : State :=
  match s.health.queue with
  | [] => s
  | r :: q =>
    if !s.mgt.link || !hubRuns s then s
    else
      let x := sentOf s r.cls r.loc
      let s := { s with health := { s.health with queue := q } }
      let s := setFld Reg.HLT_AREC_QUEUE 9 0 q.length s
      let c := collector s
      emit (.datagram (mgmtAddr s) c.1 c.2 (recordBytes s { r with suppressed := x.suppressed }))
        (setSent { x with at_ := some s.time.cycles, suppressed := 0 } s)

/-! ### The health monitor (R354, R355) -/

/-- The hottest valid die now, 1 + its code, 0 when no diode has a valid reading. -/
def hottestNow (s : State) : Nat := match hottest s with | some p => 1 + chanCode s p | none => 0

/-- Whole degrees beyond 2 °C by which the hottest die rose over the last 60 s, of which the score's own seconds keep the readings. Where no
reading stood then or stands now the rule gives no value, and it is `rise` (R354, R421; log 109). -/
def riseOver (s : State) (rise : Nat) : Nat :=
  let old := (s.tsm.history[59]?).getD 0
  if old = 0 ∨ hottestNow s = 0 then rise else (hottestNow s - old) / 16 - 2

/-- The event count of an input of the last second; k = 5 is the rise of the hottest die, k = 6 counts the ports whose peak reached 12 (R354). -/
def inputCount (s : State) (rise k : Nat) : Nat :=
  if k = 5 then riseOver s rise
  else if k = 6 then ((List.range 48).filter fun p => get (fun _ => 0) s.health.inputs (64 + p) != 0).length
  else get (fun _ => 0) s.health.inputs k

/-- The weighted sum of the inputs of R354. -/
def riskSum (s : State) (rise : Nat) : Nat :=
  (List.range 8).foldl (fun a k => a + fld s (Reg.HLT_RISK_W + 4 * k) 15 0 * min (inputCount s rise k) 65535) 0

/-- HEALTH_UPDATE: once per second the score decays and takes in the events of the second; crossing the threshold calls for an ingot
(R354, R355). -/
def execHealthUpdate (rise : BitVec 16) (s : State) : State :=
  let rho := rd s Reg.HLT_RISK
  let new := min (rho - rho / 2 ^ fld s Reg.HLT_RISK_CFG 20 16 + riskSum s rise.toNat) (2 ^ 32 - 1)
  let s := { (wr Reg.HLT_RISK new s) with
    health := { s.health with inputs := [] }, tsm := { s.tsm with history := (hottestNow s :: s.tsm.history).take 60 } }
  let thr := fld s Reg.HLT_RISK_CFG 15 0
  if thr ≤ new ∧ fld s Reg.HLT_RISK_CFG 21 21 = 1 then
    callIngot 1 (record 11 [] new (bump Reg.HLT_RISK_CALLS (setFld Reg.HLT_RISK_CFG 21 21 0 s)))
  else if 2 * new < thr then setFld Reg.HLT_RISK_CFG 21 21 1 s
  else s

/-- CORRECTED_REPORT: once per 60 s while a corrected-error count has grown (R351). -/
def execCorrectedReport (s : State) : State :=
  let n := (s.health.corrected.map (·.2)).sum
  if n = s.health.correctedSeen then s else record 12 [] 0 { s with health := { s.health with correctedSeen := n } }

/-- SAFE_STATE_REPORT: every 10 s a record of class 16 with the fail code (R434). -/
def execSafeStateReport (s : State) : State :=
  if safeState s then
    recordFull 16 3 [] [("fail_code", fld s Reg.NVS_STATUS 9 2)] 0 (rd s Reg.NVS_STATUS) s
  else s

/-- JOURNAL_STORE: the oldest outstanding entry is written into its slot of the journal (R459). -/
def execJournalStore (s : State) : State :=
  match s.health.journal with
  | [] => s
  | e :: r =>
    { s with
      health := { s.health with journal := r }
      nvs := { s.nvs with journal := putBytes noByte s.nvs.journal (32 * e.1) e.2 } }

end Sys2Proof.Machine
end

