-- ==== Sys2Proof/Machine/Boot.lean ====
section
/-! DEFINITION. Boot, configuration and security (18): the flash image and its checks, the configuration block, settings banks and STORE,
quotes; resets and the wake from QUENCH (R407, R472), which end in the same service. -/
namespace Sys2Proof.Machine

/-! ### The attached flash (R425 to R428)

A flash operand maps byte addresses below 2^32 to the contents, an unlisted one reading as erased, 0xFF. What the device itself answers
stands from 2^32 on: bytes 0 to 2 the JEDEC ID, byte 3 whether SFDP is present, bytes 4 to 7 its density in Mbit, byte 8 whether 4-byte
opcodes are listed, byte 9 the quad-enable requirement, byte 10 whether quad enable is set. From 2^33 on stand the bytes that a second read
of a block gives where they differ from those of the first (R429). -/

/-- Bytes of the flash. -/
def flashBytes (f : SMap Byte) (a n : Nat) : List Byte := getBytes (fun _ => 0xFF) f a n
/-- A block as the boot core takes it: read a second time where its digest does not match (R429). -/
def flashBlock (f : SMap Byte) (a n : Nat) (d : List Byte) : List Byte :=
  let b := flashBytes f a n
  if digest b = d then b
  else (List.range n).map fun i => get (fun _ => get (fun _ => 0xFF) f (a + i)) f (2 ^ 33 + a + i)

/-- A little-endian value of the flash. -/
def flashNat (f : SMap Byte) (a n : Nat) : Nat := leNat (flashBytes f a n)

/-- fw_offset, fw_len, cfg_offset and cfg_len of the header. -/
def fwOffset (f : SMap Byte) : Nat := flashNat f 8 4
/-- fw_len. -/
def fwLen (f : SMap Byte) : Nat := flashNat f 0xC 4
/-- cfg_offset. -/
def cfgOffset (f : SMap Byte) : Nat := flashNat f 0x80 4
/-- cfg_len. -/
def cfgLen (f : SMap Byte) : Nat := flashNat f 0x84 4

/-- The firmware block, by its digest in the header (R428, R429). -/
def fwBlock (f : SMap Byte) : List Byte := flashBlock f (fwOffset f) (fwLen f) (flashBytes f 0x20 32)
/-- The configuration block. -/
def cfgBlockOf (f : SMap Byte) : List Byte := flashBlock f (cfgOffset f) (cfgLen f) (flashBytes f 0xA0 32)

/-- Header magic, format, offsets and lengths valid (R427, R428). -/
def headerOk (f : SMap Byte) : Bool :=
  let fo := fwOffset f
  let fl := fwLen f
  let co := cfgOffset f
  let cl := cfgLen f
  flashNat f 0 4 == 0x544F4251 && flashNat f 4 2 == 1 && fo % 65536 == 0 && co % 65536 == 0
    && decide (65536 ≤ fl) && decide (fl ≤ 24 * 2 ^ 20) && decide (64 ≤ cl) && decide (cl ≤ 2 ^ 20)
    && decide (fo + fl ≤ 2 ^ 25) && decide (co + cl ≤ 2 ^ 25) && (decide (fo + fl ≤ co) || decide (co + cl ≤ fo))

/-- Whether a release-key slot is revoked: fuses of the part and those blown since (R430). -/
def revoked (s : State) : Nat := bits ((Config.perPart Reg.NVS_KEYS).toNat) 7 4 ||| s.nvs.fuses.toNat

/-! ### The configuration block (R432) -/

/-- The records of a configuration block after its header, as many as it counts; none when one overruns the block. -/
def cfgRecords : Nat → List Byte → Option (List (Nat × List Byte))
  | 0, _ => some []
  | n + 1, b =>
    let len := leNat ((b.drop 2).take 2)
    if b.length < 4 + len then none
    else (cfgRecords n (b.drop (4 + 4 * ceilDiv len 4))).map fun r => (leNat (b.take 2), (b.drop 4).take len) :: r

/-- RWN fields that a policy default may name beside those of a settings bank's values. -/
def otherRwn : List Nat :=
  [Reg.CAL_TRIM, Reg.SPR_CMAP, Reg.SPR_COLMAP, Reg.SPR_ARRAY, Reg.SPR_WEAR, Reg.TSM_CH_WIN, Reg.NVS_MIN_SVN]

/-- The RWN bits of the register at an offset. -/
def rwnMask (a : Nat) : Nat := ((rwnRows.find? fun r => decide (r.1 ≤ a) && decide (a ≤ r.2.1)).map (·.2.2)).getD 0

/-- Whether an offset holds an RWN field. -/
def isRwn (a : Nat) : Bool := a % 4 == 0 && (rwnMask a != 0 || otherRwn.contains a)

/-- A little-endian field of a record. -/
def recNat (v : List Byte) (off n : Nat) : Nat := leNat ((v.drop off).take n)

/-- The pairs of a policy record. -/
def policyPairs (v : List Byte) : List (Nat × Nat) := (List.range (v.length / 8)).map fun i => (recNat v (8 * i) 4, recNat v (8 * i + 4) 4)

/-- Whether the value of a record has the length and the ranges of its type. -/
def recordOk (r : Nat × List Byte) : Bool :=
  let v := r.2
  let n := v.length
  let package := fun (o : Nat) => decide (addrForge (recNat v o 2) < 96)
  match r.1 with
  | 1 => n == 3 && package 0 && decide (recNat v 2 1 ≤ 31)
  | 2 => n == 1970 && ((v.take 48).all fun b => decide (b.toNat ≤ 47)) && package 48
    && (List.range 480).all fun i =>
      let e := recNat v (50 + 4 * i) 4
      bits e 31 31 == 0 || (package (50 + 4 * i) && (decide (bits e 22 16 < 96) || bits e 22 16 == 0x7F))
  | 3 => n == 3 && package 0 && decide (recNat v 2 1 ≤ 1)
  | 4 => n == 2
  | 5 => n == 6 && package 0 && package 3 && decide (recNat v 2 1 ≤ 1) && decide (recNat v 5 1 ≤ 1)
  | 6 => n == 15 && decide (600 ≤ recNat v 0 2) && decide (recNat v 0 2 ≤ 800) && decide (1 ≤ recNat v 6 1) && decide (recNat v 6 1 ≤ 8)
  | 7 => n == 9 && decide (recNat v 0 8 < 2 ^ 48) && decide (recNat v 8 1 < 16)
  | 8 => n == 32 && decide (recNat v 0 1 ≤ 3)
  | 9 => n == 104
  | 10 => n % 8 == 0 && (policyPairs v).all fun p => isRwn p.1
  | t => decide (0x8000 ≤ t)

/-- Whether records name each type once, and each host port once, with one region-0 tag. -/
def recordsOnce (l : List (Nat × List Byte)) : Bool :=
  let known := l.filter fun r => decide (r.1 < 0x8000)
  let keys := known.map fun r => if r.1 = 8 then 256 + recNat r.2 0 1 else r.1
  let tags := (known.filter fun r => r.1 == 8).map fun r => recNat r.2 29 3
  decide keys.Nodup && tags.all fun t => t == tags.headD 0

/-- The configuration of a block, or none where it is malformed. -/
def parseConfig (b : List Byte) : Option (List (Nat × List Byte)) :=
  if leNat (b.take 4) ≠ 0x47464351 then none
  else if recNat b 4 2 ≠ 1 then none
  else
    match cfgRecords (recNat b 6 2) (b.drop 16) with
    | none => none
    | some l =>
      if l.all recordOk && recordsOnce l && [1, 2, 4, 6, 7, 9].all (fun t => l.any fun r => r.1 == t) then some l else none

/-! ### The checks (R429) -/

/-- The code of the first check that fails, 0 when all pass. `stored` is the owner hash and `minSvn` the version of the bank in use. -/
def bootCheck (s : State) (f : SMap Byte) (stored : List Byte) (minSvn : Nat) : Nat :=
  let id := flashBytes f (2 ^ 32) 3
  let pub := flashBytes f 0x40 64
  let own := flashBytes f 0xC0 64
  let slot := flashNat f 6 1
  if id == [0, 0, 0] || id == [0xFF, 0xFF, 0xFF] then 1
  else if flashNat f (2 ^ 32 + 3) 1 ≠ 1 ∨ flashNat f (2 ^ 32 + 4) 4 < 256 then 2
  else if !headerOk f then 3
  else if !Config.identityValid then 0xC
  else if 3 < slot ∨ digest pub ≠ Config.romKeyHash slot ∨ bits (revoked s) slot slot = 1 then 4
  else if !Config.slhVerify pub (flashBytes f 0 0x80) (flashBytes f 0x100 29792) then 5
  else if digest (fwBlock f) ≠ flashBytes f 0x20 32 then 6
  else if flashNat f 0x10 4 < minSvn then 7
  else if digest own ≠ stored ∧ stored ≠ List.replicate 32 0 then 8
  else if !Config.slhVerify own (flashBytes f 0 0x100) (flashBytes f 0x8000 29792) then 9
  else if digest (cfgBlockOf f) ≠ flashBytes f 0xA0 32 then 0xA
  else if (parseConfig (cfgBlockOf f)).isNone then 0xB
  else 0

/-! ### Settings banks (R436 to R438) -/

/-- Whether a sequence is later than another (R438). -/
def laterSeq (a b : Word) : Bool := let d := (a - b).toNat; decide (1 ≤ d) && decide (d ≤ 2 ^ 31)

/-- The bank that a boot takes: 0 A, 1 B, none where neither is valid. -/
def bankChoice (s : State) : Option Nat :=
  match s.nvs.bankA, s.nvs.bankB with
  | none, none => none
  | some _, none => some 0
  | none, some _ => some 1
  | some a, some b => some (if laterSeq b.seq a.seq then 1 else 0)

/-- Settings banks are selected: bank, sequence, owner hash (R438). -/
def selectBank (s : State) : State :=
  match bankChoice s with
  | none =>
    let s := setFld Reg.NVS_STATUS 14 13 1 { s with nvs := { s.nvs with owner := List.replicate 32 0 } }
    let s := sticky Reg.NVS_STICKY 1 (wr Reg.NVS_STORE_SEQ 0 s)
    record 16 [] (rd s Reg.NVS_STATUS) s
  | some k =>
    let s := setFld Reg.NVS_STATUS 14 13 (2 * k) s
    match bankUsed s with
    | none => s
    | some b => wr Reg.NVS_STORE_SEQ b.seq.toNat { s with nvs := { s.nvs with owner := b.owner } }

/-- The DWI match address of the settings, only the broadcast address where they are defaulted (R434, R455). -/
def storedDwi (s : State) : State :=
  wr Reg.MGT_DWI ((((bankUsed s).bind fun b => b.values.find? fun p => p.1 == Reg.MGT_DWI).map (·.2.toNat)).getD 0xFFFF) s

/-- An array record (R436): n, off, gr, t_cal in °C, data columns retired, bad spares, retired slice, programmings / 16,384. -/
def arrayRecord (s : State) (die cell a : Nat) : BitVec 56 :=
  let c := phys s die cell
  let x := arrAt s c a
  let data := (List.range 256).map fun q => trimAt s c a (physCol s c a q)
  let median := fun (l : List Int) => (l.mergeSort (fun x y => decide (x ≤ y)))[127]?.getD 0
  let t := Int.fdiv x.tcal.toInt 16 + (if x.tcal.toNat % 16 ≠ 0 && Config.roundsUp x.tcal.toNat 16 then 1 else 0)
  let bad := (List.range 8).foldl (fun n k => if colBad s c a (260 + k) then n + 2 ^ k else n) 0
  let prog := min 1023 (rd s (progKey c a) / 16384)
  BitVec.ofNat 56 ((median (data.map fun t => (trimN t : Int))).toNat + 2 ^ 5 * unsx 8 (median (data.map trimOff))
    + 2 ^ 13 * unsx 10 (median (data.map trimGr)) + 2 ^ 23 * unsx 8 t
    + (if (cellAt s c).colretired.contains a then 2 ^ 31 else 0) + 2 ^ 32 * bad + 2 ^ 40 * (x.retired.headD 0x3F % 64) + 2 ^ 46 * prog)

/-- The record of an array that nothing has changed. -/
def freshRecord : BitVec 56 := BitVec.ofNat 56 (2 ^ 40 * 0x3F)

/-- Registers that a bank keeps among its values: the rows of RWN registers and every channel window. -/
def valueKeys : List Nat :=
  rwnRows.flatMap (fun r => (List.range ((r.2.1 - r.1) / 4 + 1)).map fun i => r.1 + 4 * i)
    ++ (List.range 288).map fun e => bankKey Reg.TSM_CH_WIN e

/-- The working settings as a bank with a sequence number (R437, R439). -/
def workingBank (s : State) (seq : Word) : Bank where
  seq := seq
  owner := s.nvs.owner
  minSvn := BitVec.ofNat 32 (rd s Reg.NVS_MIN_SVN)
  values := valueKeys.map fun k => (k, BitVec.ofNat 32 (if k < 2 ^ 32 then rd s k &&& rwnMask k else rd s k))
  cellMap := s.spr.cellMap
  badCells := s.spr.badCells
  cores := s.spr.coreSwaps
  wear := wearList s
  retired := s.spr.retired
  remaps := remapList s
  arrays := (List.range 65536).foldl (fun m i =>
    put (fun _ => freshRecord) m i (arrayRecord s (i / 16384) (i / 64 % 256) (i % 64))) []

/-- What a bank holds from byte 0x40 on, as numbers, which its digest is a function of; the sequence is in the header (R436; log 4). -/
def Bank.numbers (b : Bank) : List Nat :=
  [b.minSvn.toNat, leNat b.owner] ++ b.values.flatMap (fun p => [p.1, p.2.toNat]) ++ b.cellMap.flatMap (fun p => [p.1, p.2])
    ++ b.badCells ++ b.cores.flatMap (fun p => [p.1, p.2]) ++ b.wear.flatMap (fun p => [p.1, p.2.toNat])
    ++ b.retired.flatMap (fun r => [r.1, r.2.1, r.2.2.1, r.2.2.2.1, r.2.2.2.2])
    ++ b.remaps.flatMap (fun r => [r.1, r.2.1, r.2.2.1, r.2.2.2.1, r.2.2.2.2]) ++ b.arrays.flatMap fun p => [p.1, p.2.toNat]

/-- NVS_SET_DIGEST: the digest of the bank in use, 0 in factory defaults. -/
def setDigest (s : State) : Nat := match bankUsed s with | some b => (Config.settingsDigest b.numbers).toNat | none => 0

/-- PWR_PLIM and PWR_ILIM take the caps of the configuration where they exceed them (R433). -/
def capLimits (s : State) : State :=
  if (cfgRec s 6).isNone then s
  else
  let w := cfgNat s 6 2 2
  let a := cfgNat s 6 4 2
  let s := if w < fld s Reg.PWR_PLIM 10 0 then setFld Reg.PWR_PLIM 10 0 w s else s
  if a < fld s Reg.PWR_ILIM 11 0 then setFld Reg.PWR_ILIM 11 0 a s else s

/-- The RWN bits of a register take a value, within its ranges (R10, R11, R438). -/
def applyRwn (k v : Nat) (s : State) : State :=
  if k < 2 ^ 32 then
    let m := rwnMask k
    wr k (clampWord rangeRows k ((rd s k &&& (2 ^ 32 - 1 - m)) ||| (v &&& m))) s
  else wr k v s

/-- A bank's values apply, in factory defaults none (R438). -/
def applyValues (s : State) : State :=
  match bankUsed s with
  | none => s
  | some b => wr Reg.NVS_MIN_SVN b.minSvn.toNat (each b.values (fun p => applyRwn p.1 p.2.toNat) s)

/-- Bits [30:0] of an array record of MRAM (R436): the one trim word of its columns, t_cal, and generation 0. -/
def storedTrims (c a v : Nat) (s : State) : State :=
  let t : Trim := mkTrim (min 16 (bits v 4 0)) (sx 8 (bits v 12 5)) (sx 10 (bits v 22 13))
  let s := each (List.range 256) (fun q s => setTrim c a (physCol s c a q) t s) s
  setArr c a { arrAt s c a with gen := 0, past := [], held := [], calibrated := false, tcal := BitVec.ofInt 12 (16 * sx 8 (bits v 30 23)) } s

/-- The bad spare columns of an array record, its retired slice and its retired flag (R436). -/
def storedFlaws (c a v : Nat) (s : State) : State :=
  let sl := bits v 45 40
  let s := if sl = 0x3F then s else setArr c a { arrAt s c a with retired := [sl], slice := sl } s
  let s := each ((List.range 8).filter fun k => bits v (32 + k) (32 + k) == 1) (fun k s =>
    onCell c (fun y => { y with colbad := put (fun _ => false) y.colbad (a * 512 + 260 + k) true }) s) s
  if bits v 31 31 = 1 then onCell c (fun y => { y with colretired := a :: y.colretired }) s else s

/-- A stored array record applies: trims of the data columns, t_cal, retirements, bad spares, programmings (R116, R437). -/
def applyArray (i : Nat) (r : BitVec 56) (trimsOnly : Bool) (s : State) : State :=
  let a := i % 64
  let c := phys s (i / 16384) (i / 64 % 256)
  let s := storedTrims c a r.toNat s
  if trimsOnly then s
  else wr (progKey c a) (16384 * bits r.toNat 55 46) (storedFlaws c a r.toNat s)

/-- Stored maps, wear and trims apply at a boot; fills are forgotten (R388, R431, R437). -/
def applyMaps (s : State) : State :=
  let old := fun (k : Nat) => decide (2 ^ 40 ≤ k) &&
    (decide ((k - 2 ^ 40) / 2 ^ 20 = Reg.SPR_WEAR) || decide ((k - 2 ^ 40) / 2 ^ 20 = Reg.SPR_FILL))
  let s := setFld Reg.SPR_STICKY 4 4 0 (wr Reg.SPR_LOST 0 { s with regs := forget old s.regs, spr := Spares.init, cells := [] })
  match bankUsed s with
  | none => s
  | some b =>
    let s := { s with spr := { s.spr with
      cellMap := b.cellMap, badCells := b.badCells, coreSwaps := b.cores, retired := b.retired } }
    let s := each b.wear (fun p s => wr p.1 p.2.toNat s) s
    let s := each b.remaps (fun r s => onCell (phys s r.1 r.2.1) (fun y =>
      { y with colmap := put (fun k => k % 256) y.colmap (r.2.2.1 * 256 + r.2.2.2.2) r.2.2.2.1 }) s) s
    each b.arrays (fun p s => applyArray p.1 p.2 false s) s

/-- Stored trims, t_cal and generations apply after QUENCH, with the maps in force (R116, R407). -/
def applyTrims (s : State) : State :=
  match bankUsed s with
  | none => s
  | some b => each b.arrays (fun p s => applyArray p.1 p.2 true s) s

/-! ### Applying the configuration (R432) -/

/-- A policy default that names a map, wear or trim view acts on the entry that the view's selection names at reset, where no settings are
stored, which would override it (R432, R438; log 56). -/
def viewDefault (a v : Nat) (s : State) : State :=
  if a = Reg.SPR_CMAP then cmapWrite v s
  else if a = Reg.SPR_COLMAP then colmapWrite v s
  else if a = Reg.SPR_ARRAY then sprArrayWrite v s
  else if a = Reg.SPR_WEAR then wr (bankKey Reg.SPR_WEAR 0) v s
  else if a = Reg.CAL_TRIM then calTrimWrite v s
  else s

/-- One record applies. -/
def applyRecord (r : Nat × List Byte) (s : State) : State :=
  let v := r.2
  match r.1 with
  | 1 =>
    let a := recNat v 0 2
    let active := if addrSlot a = recNat v 2 1 then 0 else 1
    wr Reg.FAB_ROLE (a + 65536 * active) (wr Reg.FAB_ADDR a s)
  | 2 =>
    let s := each (List.range 12) (fun i => wr (Reg.FAB_PORTMAP + 4 * i) (recNat v (4 * i) 4)) s
    each (List.range 480) (fun i => wr (Reg.FAB_WROUTE + 4 * i) (recNat v (50 + 4 * i) 4 &&& 0x807FFFFF)) s
  | 3 => wr Reg.FAB_ROLE (recNat v 0 2 + 65536 * recNat v 2 1) s
  | 4 => setFld Reg.ING_FEED 15 0 (recNat v 0 2) s
  | 5 =>
    wr Reg.ING_GUEST (recNat v 3 2 + 65536 * recNat v 5 1) (wr Reg.ING_BUDDY (recNat v 0 2 + 65536 * recNat v 2 1) s)
  | 6 => wr Reg.PWR_VCORE (recNat v 0 2) s
  | 8 => wr Reg.HST_KEY0 (recNat v 29 3) s
  | 9 => setFld Reg.HLT_AREC_CFG 31 16 (recNat v 38 2) s
  | 10 => each (policyPairs v) (fun p s =>
      if rwnMask p.1 ≠ 0 then applyRwn p.1 p.2 s
      else if p.1 = Reg.NVS_MIN_SVN then wr p.1 p.2 s
      else if p.1 = Reg.TSM_CH_WIN then wr (bankKey p.1 0) (p.2 % 2 ^ 29) s
      else if (bankUsed s).isNone then viewDefault p.1 p.2 s
      else s) s
  | _ => s

/-- The configuration in force applies, in the order of the table, and the configured address becomes the DWI match address
(R432, R438, R455). -/
def applyConfig (s : State) : State :=
  let l := s.nvs.config
  let s := each [1, 2, 3, 4, 5, 6, 7, 8, 9, 10] (fun t s => each (l.filter fun r => r.1 == t) applyRecord s) s
  s

/-- Configuration and then settings values, with the caps and the DWI address (R407, R433, R438, R455). -/
def applyDefaults (s : State) : State :=
  let s := capLimits (applyValues (applyConfig s))
  wr Reg.MGT_DWI (ownAddr s) s

/-! ### The boot sequence (R431) -/

/-- The slot after the valid journal entry with the latest sequence number (R486). -/
def journalHead (s : State) : Nat :=
  let entry := fun (k : Nat) => getBytes noByte s.nvs.journal (32 * k) 32
  let best := (List.range 1024).foldl (fun (b : Option (Nat × Nat)) k =>
    let e := entry k
    if crc16 (e.take 30) ≠ BitVec.ofNat 16 (leNat (e.drop 30)) then b
    else match b with
      | none => some (leNat (e.take 8), k)
      | some x => if x.1 < leNat (e.take 8) then some (leNat (e.take 8), k) else b) none
  match best with | some x => (x.2 + 1) % 1024 | none => 0

/-- A check has failed: the safe state, which runs no image and keeps VANA, VPHY and VLAS off (R434, R443). -/
def enterSafe (code : Nat) (s : State) : State :=
  let s := setFld Reg.NVS_KEYS 1 0 0 (wr Reg.NVS_FW_SVN 0 (railsLow [3, 2, 1] s))
  setFld Reg.NVS_STATUS 9 0 (1 + 4 * code) { s with
    pwr := { s.pwr with rising := 0 }
    nvs := { s.nvs with firmware := [], cfgBlock := [], config := [], releasePub := [] } }

/-- Every check has passed: fuses, configuration, settings, rails, ports (R430 to R432, R438). -/
def startImage (f : SMap Byte) (cfg : List (Nat × List Byte)) (s : State) : State :=
  let slot := flashNat f 6 1
  let kill := BitVec.ofNat 4 (setBits (flashNat f 7 1 % 16) slot slot 0)
  let new := kill &&& ~~~ BitVec.ofNat 4 (revoked s)
  let s := if new = 0 then s else sticky Reg.NVS_STICKY 4 s
  let s := { s with nvs := { s.nvs with
    fuses := s.nvs.fuses ||| new, config := cfg, firmware := fwBlock f, cfgBlock := cfgBlockOf f, releasePub := flashBytes f 0x40 64 } }
  let s := setFld Reg.NVS_KEYS 1 0 slot (wr Reg.NVS_FW_SVN (flashNat f 0x10 4) s)
  let s := applyDefaults (applyMaps s)
  let s := each (pmbDevices s) (fun d s => pmbSend d 0x20 0 (pmbSend d 0x03 0 s)) s
  let s := sendVcore s
  let s := each [1, 2, 3] (fun r s => driveRail r true (runCycles 250 s)) s
  let s := setFld Reg.PWR_STATUS 6 3 15 { s with pwr := { s.pwr with rising := 0, rests := [], upAt := [] } }
  let s := hostPortsUp (each (List.range 48) startTraining s)
  setFld Reg.NVS_STATUS 9 0 0 s

/-- The commands that the boot core gives the flash: those of the checks that it comes to (R425, R426, R429). -/
def flashCommands (f : SMap Byte) (code : Nat) : List Nat :=
  [0x66, 0x99, 0x9F] ++ (if code = 1 then [] else [0x5A])
    ++ (if code = 1 ∨ code = 2 then [] else 0x05 :: if flashNat f (2 ^ 32 + 8) 1 = 1 then [] else [0xB7])

/-- The working owner hash where check 0x08 has passed on a stored hash of zeros, whatever later checks say (R429). -/
def takeOwner (f : SMap Byte) (stored : List Byte) (code : Nat) (s : State) : State :=
  if stored = List.replicate 32 0 ∧ (code = 0 ∨ 9 ≤ code ∧ code ≤ 0xB) then
    sticky Reg.NVS_STICKY 3 { s with nvs := { s.nvs with owner := digest (flashBytes f 0xC0 64) } }
  else s

/-- The boot core reads the flash and checks it; its flash pins are driven from the first command on, and released after the last (R425, R426,
R429). -/
def bootFlash (s : State) : State :=
  let f := s.nvs.flash
  let four := flashNat f (2 ^ 32 + 8) 1 == 1
  let quad := flashNat f (2 ^ 32 + 9) 1 == 0 || flashNat f (2 ^ 32 + 10) 1 == 1
  let stored := match bankUsed s with | some b => b.owner | none => List.replicate 32 0
  let svn := match bankUsed s with | some b => b.minSvn.toNat | none => 0
  let code := bootCheck s f stored svn
  let s := emit (.pin 5 false) (emit (.flash (flashCommands f code) quad four) (emit (.pin 5 true) s))
  let s := takeOwner f stored code s
  match code, parseConfig (cfgBlockOf f) with
  | 0, some cfg => startImage f cfg s
  | 0, none => enterSafe 0xB s
  | code, _ => enterSafe code s

/-- The part boots from a flash: banks are selected, VCORE_EN rises, and once PWR_GOOD has risen the boot core goes on (R394, R431). -/
def bootStart (flash : SMap Byte) (s : State) : State :=
  let s := setFld Reg.NVS_STATUS 9 0 2 (setFld Reg.PWR_STATUS 2 0 0 s)
  let s := storedDwi (selectBank (setFld Reg.HLT_JRNL_HEAD 9 0 (journalHead s) s))
  let s := { driveRail 0 true s with nvs := { (driveRail 0 true s).nvs with flash := flash } }
  let s := { s with pwr := { s.pwr with rising := 1 } }
  if fld s Reg.PWR_STATUS 8 8 = 1 then bootFlash s else s

/-! ### Resets (R443, R472, R373) -/

/-- A power-on reset of the always-on domain: what is left is MRAM, the fuses and DRAM, and HOT_N goes high with thermtrip clear
(R10, R410, R435, R466, R472; log 5). -/
def hardReset (hold : Bool) (s : State) : State :=
  { State.reset with
    pending := s.pending, freeCount := s.freeCount, dram := s.dram
    out := if fld s Reg.PWR_STICKY 5 5 = 1 then s.out ++ [.pin 4 true] else s.out
    nvs := { Nvs.init with
      bankA := s.nvs.bankA, bankB := s.nvs.bankB, journal := s.nvs.journal, fuses := s.nvs.fuses, flash := s.nvs.flash }
    pwr := { Pwr.init with inReset := hold, pinLevel := s.pwr.pinLevel, rails := s.pwr.rails } }

/-- POWER_ON_RESET: RESET_N has been low for 1 µs (R472). -/
def execPowerOnReset (s : State) : State := railsLow [3, 2, 1, 0] (hardReset true s)

/-- The always-on domain comes up: REFCLK is there, a fresh epoch is drawn (R447, R472). -/
def alwaysOnUp (s : State) : State :=
  let v := fresh s
  wr Reg.MGT_EPOCH (v.1.toNat % 2 ^ 32) (setFld Reg.PWR_STATUS 9 9 1 { v.2 with pwr := { v.2.pwr with inReset := false } })

/-- A full power-on reset of the part's own accord: every enable goes low, and the boot raises them anew as PWR_GOOD rises (R407, R431). -/
def fullReset (s : State) : State := bootStart s.nvs.flash (alwaysOnUp (railsLow [3, 2, 1, 0] (hardReset false s)))

/-- RESET_RELEASE: RESET_N rises and the part boots (R431, R472). -/
def execResetRelease (flash : SMap Byte) (s : State) : State := if s.pwr.inReset then bootStart flash (alwaysOnUp s) else s

/-- REBOOT: every domain but the always-on one is reset and the part boots, with DIM on the ports that it darkens; refused while a casting
runs (R37, R281, R443). -/
def execReboot (src : Source) (flash : SMap Byte) (s : State) : State :=
  if castingRuns s then accState src Reg.NVS_CTRL s else bootStart flash (loseDomains (railsLow [3, 2, 1] (each (upPorts s) darken s)))

/-- RETRY: the boot is repeated from the flash reset, out of the safe state only (R434). -/
def execRetry (_src : Source) (flash : SMap Byte) (s : State) : State :=
  if !safeState s then s
  else bootFlash { setFld Reg.NVS_STATUS 9 0 2 s with nvs := { s.nvs with flash := flash } }

/-- An interrupted journal write leaves its slot invalid: any bytes whose CRC does not match (R459; log 4). -/
def tornJournal (s : State) : State :=
  match s.health.journal with
  | [] => s
  | e :: _ =>
    let body := (List.range 30).map fun i => BitVec.ofNat 8 (Config.freeValue (s.freeCount + i)).toNat
    let crc := (crc16 body).toNat + 1 + (Config.freeValue (s.freeCount + 30)).toNat % 65535
    { s with freeCount := s.freeCount + 31, nvs := { s.nvs with
        journal := putBytes noByte s.nvs.journal (32 * e.1) (body ++ natLE 2 crc) } }

/-- A STORE cut off leaves the bank it was writing old, invalid or new (R439; log 4). -/
def tornStore (s : State) : State :=
  match s.nvs.snapshot with
  | none => s
  | some b =>
    let v := fresh s
    let old := if bankNow s = 0 then s.nvs.bankB else s.nvs.bankA
    let x := match v.1.toNat % 3 with | 0 => old | 1 => none | _ => some b
    let s := v.2
    if bankNow s = 0 then { s with nvs := { s.nvs with bankB := x } } else { s with nvs := { s.nvs with bankA := x } }

/-- FEED_FAILURE: power is lost at any instant; DRAM goes with it, MRAM stays (R373, R439, R459). -/
def execFeedFailure (s : State) : State :=
  let s := hardReset true (tornStore (tornJournal s))
  { s with dram := ⟨[], []⟩, pwr := { s.pwr with rails := 0 } }

/-! ### The wake from QUENCH (R407) -/

/-- A fill restarts from its beginning after QUENCH (R386). -/
def restartFill (k : Nat) (s : State) : State :=
  let die := k / 2
  let slot := k % 2
  if fillState s die slot = 0 then s
  else
    let s := setFill die slot Fill.none s
    if fillState s die slot = 3 then setFld (fillKey die slot) 1 0 2 s else s

/-- A column is refilled from the quench image and verified (R89, R407). -/
def refillColumn (die i : Nat) (s : State) : State :=
  let k := columnOf i
  let c := phys s die k.1
  let a := k.2.1
  let p := physCol s c a k.2.2
  let b := dramGet s (qimgBase s die + 131 * i) 131
  let s := (readSpan (qimgBase s die + 131 * i) 131 s).2
  let v := programBlock c a p k.2.2 b s
  let s := v.2
  if v.1 then s else brazeColumn die k.1 a k.2.2 [] (sticky Reg.PWR_STICKY 6 s)

/-- Runs `f` with every register that QUENCH keeps left as it was (R397, R407 step 4). -/
def keepAcross (f : State → State) (s : State) : State :=
  let t := f s
  let kept := s.regs.filter fun kv => keptDeep kv.1
  { t with regs := kept.foldl (fun m (kv : Nat × Word) => put regDefault m kv.1 kv.2) (forget keptDeep t.regs) }

/-- Steps 2 to 6 of the wake: firmware from its copy, registers, configuration, settings, arrays (R407). -/
def quenchResume (s : State) : State :=
  let n := (fwCopy s).length
  let s := (readSpan (fwimgBase s) n s).2
  if digest (dramGet s (fwimgBase s) n) ≠ s.pwr.fwDigest then fullReset s
  else
    let s := resetRegs s
    let s := selectBank (setFld Reg.HLT_JRNL_HEAD 9 0 (journalHead s) s)
    let s := applyTrims (keepAcross applyDefaults s)
    let s := each (List.range 4) (fun d s => each (List.range 4194304) (refillColumn d) s) s
    let s := each (List.range 8) restartFill s
    let s := hostPortsUp (wakeDone { s with pwr := { s.pwr with rising := 0 } })
    setFld Reg.NVS_STATUS 1 0 0 (each (List.range 48) startTraining s)

/-- QUENCH_WAKE: VCORE_EN rises after VOUT_COMMAND, and the wake goes on with PWR_GOOD; without a valid image the part resets
(R395, R406, R407). -/
def execQuenchWake (s : State) : State :=
  let s := if s.pwr.deep = 2 then endEntry s else s
  if pwrState s ≠ 3 ∨ !wakes s then s
  else
    let s := recordCauses s
    if fld s Reg.PWR_STATUS 7 7 = 0 then fullReset s
    else
      let s := setFld Reg.NVS_STATUS 1 0 2 (setFld Reg.PWR_STATUS 2 0 4 s)
      driveRail 0 true (sendVcore { s with pwr := { s.pwr with rising := 2 } })

/-- PWR_GOOD_RISE: after 10 µs high the power-up under way goes on (R394). -/
def execPwrGoodRise (s : State) : State :=
  let s := setFld Reg.PWR_STATUS 8 8 1 s
  if bits s.pwr.rails 0 0 = 0 ∨ s.pwr.rising = 0 then s
  else
    let s := runCycles 250 s
    if s.pwr.rising = 1 then bootFlash s
    else quenchResume (driveRail 3 true (runCycles 250 (driveRail 2 true (runCycles 250 (driveRail 1 true s)))))

/-! ### STORE (R439) -/

/-- A STORE begins with a snapshot of the working settings. -/
def storeStart (s : State) : State :=
  let seq := match bankUsed s with | some b => b.seq + 1 | none => 1
  setFld Reg.NVS_STATUS 10 10 1 { s with nvs := { s.nvs with snapshot := some (workingBank s seq), tries := 0 } }

/-- STORE: a snapshot, or a pending request while one runs. -/
def execStore (_src : Source) (s : State) : State :=
  if s.nvs.snapshot.isSome then setFld Reg.NVS_STATUS 11 11 1 s else storeStart s

/-- The STORE ends; one that is pending follows. -/
def storeEnd (s : State) : State :=
  let s := setFld Reg.NVS_STATUS 10 10 0 { s with nvs := { s.nvs with snapshot := none, tries := 0 } }
  if fld s Reg.NVS_STATUS 11 11 = 1 then storeStart (setFld Reg.NVS_STATUS 11 11 0 s) else s

/-- Writes the bank not in use. -/
def writeBank (b : Option Bank) (s : State) : State :=
  if bankNow s = 0 then { s with nvs := { s.nvs with bankB := b } } else { s with nvs := { s.nvs with bankA := b } }

/-- STORE_COMPLETE: on a match the bank written comes into use; a mismatch retries once, then fails. -/
def execStoreComplete (matched : Bool) (s : State) : State :=
  match s.nvs.snapshot with
  | none => s
  | some b =>
    if matched then
      let same := decide (workingBank s b.seq = b)
      let k := 1 - bankNow s
      let s := setFld Reg.NVS_STATUS 14 13 (2 * k) (writeBank (some b) s)
      let s := bump Reg.NVS_STORES (wr Reg.NVS_STORE_SEQ b.seq.toNat s)
      let s := if same then setFld Reg.SPR_STICKY 4 4 0 { s with spr := { s.spr with dirty := false } } else s
      storeEnd s
    else if s.nvs.tries = 0 then { writeBank none s with nvs := { (writeBank none s).nvs with tries := 1 } }
    else
      let s := sticky Reg.NVS_STICKY 0 (writeBank none s)
      storeEnd (record 16 [] (rd s Reg.NVS_STATUS) s)

/-- OWNER_CLEAR. -/
def execOwnerClear (_src : Source) (s : State) : State := { s with nvs := { s.nvs with owner := List.replicate 32 0 } }

/-- NVS_MIN_SVN_WRITE: discarded below the stored value and above the running fw_svn. -/
def execNvsMinSvnWrite (_src : Source) (v : Word) (s : State) : State :=
  let stored := match bankUsed s with | some b => b.minSvn.toNat | none => 0
  if v.toNat < stored ∨ rd s Reg.NVS_FW_SVN < v.toNat then s else wr Reg.NVS_MIN_SVN v.toNat s

/-! ### Quotes (R442) -/

/-- Digest bytes of a 256-bit number. -/
def numBytes (n : Nat) : List Byte := natLE 32 n

/-- The digest of a block, zeros where the part runs without it. -/
def blockDigest (b : List Byte) : List Byte := if b = [] then List.replicate 32 0 else digest b

/-- The quote body: bytes 0x000 to 0x13F. -/
def quoteBody (s : State) : List Byte :=
  let b := fun (c : Bool) (n : Nat) => if c then n else 0
  let flags := b (castingLoaded s) 1 + b s.spr.dirty 2 + b (fld s Reg.NVS_STATUS 13 13 == 1) 4 + b (fld s Reg.NVS_STICKY 3 3 == 1) 8
  natLE 4 0x45545151 ++ natLE 2 1 ++ natLE 2 flags
    ++ natLE 4 (Config.perPart Reg.NVS_SERIAL_LO).toNat ++ natLE 4 (Config.perPart Reg.NVS_SERIAL_HI).toNat
    ++ (List.range 8).flatMap (fun i => natLE 4 (rd s (Reg.NVS_QUOTE_NONCE + 4 * i)))
    ++ natLE 8 (now s) ++ natLE 4 (rd s Reg.NVS_FW_SVN) ++ natLE 4 (rd s Reg.SCH_STATUS)
    ++ blockDigest s.nvs.firmware ++ blockDigest s.nvs.cfgBlock ++ numBytes (setDigest s)
    ++ (if castingLoaded s then castingHash s else List.replicate 32 0) ++ capHash s ++ s.nvs.owner ++ blockDigest s.nvs.releasePub
    ++ natLE 4 (rd s Reg.HST_OWNER) ++ List.replicate 28 0

/-- QUOTE: the body is sampled and its signing starts; one already running discards the request. -/
def execQuote (_src : Source) (s : State) : State :=
  if fld s Reg.NVS_STATUS 12 12 = 1 then sticky Reg.NVS_STICKY 2 s
  else setFld Reg.NVS_STATUS 12 12 1 { s with nvs := { s.nvs with quoteBody := quoteBody s } }

/-- QUOTE_COMPLETE: body and signature are written to DRAM. -/
def execQuoteComplete (s : State) : State :=
  if fld s Reg.NVS_STATUS 12 12 = 0 then s
  else
    let a := 64 * (rd s Reg.NVS_QUOTE_ADDR_LO / 64) + 2 ^ 32 * fld s Reg.NVS_QUOTE_ADDR_HI 6 0
    let data := s.nvs.quoteBody ++ Config.slhSign s.nvs.quoteBody
    setFld Reg.NVS_STATUS 12 12 0 (writeSpan a data { s with nvs := { s.nvs with quoteBody := [] } })

/-- The Polkar certificate (R441). -/
def certificate : List Byte :=
  let serial := (Config.perPart Reg.NVS_SERIAL_LO).toNat + 2 ^ 32 * (Config.perPart Reg.NVS_SERIAL_HI).toNat
  cborMap [(cborUint 1, cborUint serial), (cborUint 2, cborText "QH4-0512-B"), (cborUint 3, cborBytes Config.identityKey),
    (cborUint 4, cborUint Config.issuer.1), (cborUint 5, cborBytes Config.issuer.2)]

end Sys2Proof.Machine
end

