-- ==== Sys2Proof/Machine/Burnisher.lean ====
section
/-! DEFINITION. BUR words (08, 09): descriptors read and checked at the issue tick, the spans they claim, CHAIN, PERMUTE, GATHER, REDUCE,
SOFTMAX and UPDATE. -/
namespace Sys2Proof.Machine

/-! ### Descriptors (R184 to R187) -/

/-- The descriptor of no operand. -/
def noDesc : Desc := ⟨0, 0xFFFF, 0, 0, [1, 1, 1, 1], [0, 0, 0, 0], 0, 0, 127⟩

/-- Lowest and highest bit addresses that a descriptor's own extents reach (R186). -/
def Desc.reach (d : Desc) : Int × Int :=
  let ends := (d.ext.zip d.str).foldl (fun (a : Int × Int) p =>
    let x := ((p.1 : Int) - 1) * p.2
    (a.1 + min 0 x, a.2 + max 0 x)) (0, 0)
  let base : Int := (8 * d.base + d.width * d.sub : Nat)
  (base + d.width * ends.1, base + d.width * ends.2 + d.width - 1)

/-- Whether the fields of a descriptor lie in their ranges (R184, R186, R206). -/
def Desc.ok (d : Desc) : Bool :=
  decide (d.kind ≤ 3) && d.ext.all (decide <| 1 ≤ ·) && ([0, 1].contains ((d.str[0]?).getD 0 : Int))
    && (if d.kind = 3 then decide (16 ≤ d.base) && decide (d.base ≤ 31) && d.sub == 0 && d.ext == [544, 1, 1, 1] && (d.str[0]?).getD 0 == 1
        else
          decide (d.base ≤ 524287) && (d.width != 16 || d.base % 2 == 0)
            && (if d.kind = 2 then decide (d.sub ≤ 7) else if d.kind = 0 ∧ d.fmt = 3 then decide (d.sub ≤ 1) else d.sub == 0)
            && decide (0 ≤ d.reach.1) && decide (d.reach.2 < 8 * 524288))

/-- A descriptor of a wanted kind at address `u` in 64-byte units, or `none` where R186 refuses it. -/
def readDesc (s : State) (c u : Nat) (kinds : List Nat) : Option Desc :=
  let b := spGet s c (64 * u) 64
  let f := fun o n => leNat ((b.drop o).take n)
  let kind := f 6 1
  match (if kind = 0 then tensorOf s (f 4 2) else some (0, 127)) with
  | none => none
  | some t =>
    let d : Desc := ⟨f 0 4, f 4 2, kind, f 7 1, (List.range 4).map fun k => f (8 + 2 * k) 2,
      (List.range 4).map fun k => sx 32 (f (16 + 4 * k) 4), BitVec.ofNat 16 (f 32 2), t.1, t.2⟩
    if d.ok && kinds.contains kind && (b.drop 34).all (· == 0) then some d else none

/-- Whether a source follows a loop's extents in every dimension but `free` (R186). -/
def Desc.follows (d : Desc) (loop : List Nat) (free : Nat) : Bool :=
  (List.range 4).all fun k => k == free || d.ext[k]? == loop[k]? || d.str[k]? == some 0

/-! ### Resolving a word -/

/-- The lane mask that a word selects, as 64 bits (R188, R198). -/
def laneMask (s : State) (c m : Nat) : Nat :=
  if m = 0 then 0
  else sampledReg s (cellKey c (Reg.BUR_LMASK + 8 * (m - 1))) + 2 ^ 32 * sampledReg s (cellKey c (Reg.BUR_LMASK + 8 * (m - 1) + 4))

/-- The stage words of a chain program, or `none` where one that runs is undefined (R189, R191). -/
def readProgram (s : State) (c u nst : Nat) : Option (List BurStage) :=
  let l := (List.range nst).map fun k => leNat (spGet s c (32 * u + 4 * k) 4)
  if l.any fun x => decide (bits x 31 26 > 16) || decide (bits x 6 0 ≠ 0) then none
  else some (l.map fun x => ⟨bits x 31 26, bits x 25 23, bits x 22 20, bits x 19 17, bits x 16 12, bits x 11 8, bits x 7 7 == 1⟩)

/-- The selectors that the stages of a program name (R190). -/
def namedSels (l : List BurStage) : List Nat := ((List.range l.length).zip l).flatMap fun p => p.2.sels (p.1 == 0)

/-- The tables of pairs 8 to 15 that a program names (R208). -/
def namedTables (l : List BurStage) : List Nat :=
  l.filterMap fun st => if (st.op = 13 ∨ st.op = 14) ∧ 8 ≤ st.pair then some (2 * st.pair + (st.op - 13)) else none

/-- The image of a function table (R206). -/
def tableImage (s : State) (c t : Nat) : List F16 :=
  (List.range 544).map fun i => get (fun _ => nan16) (cellAt s c).tables (t * 1024 + i)

/-- What every BUR word but UPDATE reads at its issue tick. -/
def baseJob (s : State) (cls : Nat) (w : Slot) : BurJob :=
  let die := placeDie w.place
  let cell := placeWhere w.place
  ⟨placePhys s w.place, die, cell, cls, now s, stepTick s, w.evalSeg, opf w 43 43 == 1, laneMask s (placePhys s w.place) (maskOf w),
    noDesc, noDesc, noDesc, noDesc, [], (List.range 32).map (sregAt s die (cell / 16)), [], 0, false, false, 0, 63, flagOf w 0, [], 0⟩

/-- A CHAIN resolved (R186, R189 to R191, R206, R212). -/
def chainJob (s : State) (w : Slot) : Option BurJob := do
  let j := baseJob s 1 w
  let prog ← readProgram s j.cell (opf w 42 29) (opf w 28 26 + 1)
  let out ← readDesc s j.cell (opf w 95 83) [0, 3]
  let named := namedSels prog
  let src := fun (sel u : Nat) => if named.contains sel then readDesc s j.cell u [0] else some noDesc
  let a ← src 1 (opf w 82 70)
  let b ← src 2 (opf w 69 57)
  let c ← src 3 (opf w 56 44)
  let ok := fun (sel : Nat) (d : Desc) => !named.contains sel || d.follows out.ext 4
  if decide (opf w 25 0 = 0) && ok 1 a && ok 2 b && ok 3 c then
    some { j with out := out, a := a, b := b, c := c, prog := prog,
                  images := (namedTables prog).foldl (fun m t => put (fun _ => []) m t (tableImage s j.cell t)) [] }
  else none

/-- A PERMUTE resolved (R186, R199, R212). -/
def permuteJob (s : State) (w : Slot) : Option BurJob := do
  let j := baseJob s 2 w
  let out ← readDesc s j.cell (opf w 95 83) [0]
  let a ← readDesc s j.cell (opf w 82 70) [0]
  let b ← readDesc s j.cell (opf w 69 57) [1]
  if decide (opf w 56 44 = 0) && decide (opf w 42 0 = 0) && decide (a.extent 0 ≤ 256) && a.follows out.ext 0 && b.follows out.ext 4 then
    some { j with out := out, a := a, b := b }
  else none

/-- A GATHER resolved (R186, R200, R212). -/
def gatherJob (s : State) (w : Slot) : Option BurJob := do
  let j := baseJob s 3 w
  let out ← readDesc s j.cell (opf w 95 83) [0]
  let a ← readDesc s j.cell (opf w 82 70) [0]
  let b ← readDesc s j.cell (opf w 69 57) [1]
  if decide (opf w 56 44 = 0) && decide (opf w 42 0 = 0) && a.follows out.ext 1 && b.ext == out.ext.drop 1 ++ [1] then
    some { j with out := out, a := a, b := b }
  else none

/-- A REDUCE resolved (R186, R202, R212). -/
def reduceJob (s : State) (w : Slot) : Option BurJob := do
  let j := baseJob s 4 w
  let out ← readDesc s j.cell (opf w 95 83) [0]
  let a ← readDesc s j.cell (opf w 82 70) [0]
  if decide (opf w 69 44 = 0) && decide (opf w 39 0 = 0) && decide (opf w 42 40 ≤ 4) && out.ext == 1 :: a.ext.drop 1 then
    some { j with out := out, a := a, op := opf w 42 40 }
  else none

/-- A SOFTMAX resolved (R186, R203, R204, R212). -/
def softmaxJob (s : State) (w : Slot) : Option BurJob := do
  let j := baseJob s 5 w
  let out ← readDesc s j.cell (opf w 95 83) [0]
  let a ← readDesc s j.cell (opf w 82 70) [0]
  let masked := opf w 42 42 == 1
  let b ← (if masked then readDesc s j.cell (opf w 69 57) [2] else some noDesc)
  let sreg := opf w 24 19
  if decide (opf w 56 44 = 0) && decide (opf w 18 0 = 0) && (decide (sreg ≤ 31) || sreg == 63) && out.ext == a.ext
      && (!masked || b.follows out.ext 4) then
    some { j with out := out, a := a, b := b, maskEn := masked, triEn := opf w 41 41 == 1, triOff := sx 16 (opf w 40 25), sreg := sreg }
  else none

/-! ### Issue -/

/-- A word discarded for DBOOK (R182, R208). -/
def burDrop (c : Nat) (w : Slot) (s : State) : State := sticky (cellKey c Reg.BUR_STICKY) 7 (wordViol 0 4 w s)

/-- Claims the read ticks r0 to r1 and the write ticks w0 to w1 of a cell's Burnisher, or discards the word (R182). -/
def claimBur (c r0 r1 w0 w1 : Nat) (w : Slot) (body : State → State) (s : State) : State :=
  let live := (cellAt s c).burBusy.filter fun x => decide (now s ≤ x.2.2.2)
  if live.any fun x => (decide (r0 ≤ x.2.1) && decide (x.1 ≤ r1)) || (decide (w0 ≤ x.2.2.2) && decide (x.2.2.1 ≤ w1)) then burDrop c w s
  else body (onCell c (fun y => { y with burBusy := live ++ [(r0, r1, w0, w1)] }) s)

/-- Counts a BUR word and its beats (R213). -/
def burCount (c n : Nat) (s : State) : State :=
  bumpFld (cellKey c Reg.BUR_BEATS) 31 0 n (bump (cellKey c Reg.BUR_WORDS) s)

/-- Scalar registers read through their check bits: a corrected one is counted, an uncorrectable one taints with cause 6 (R337, R341). -/
def sregRead (die cell : Nat) (regs : List Nat) (s : State) : State :=
  each regs (fun r s =>
    let file := fileOf s die (cell / 16)
    match get (fun _ => 0) s.sregEcc (sregKey die file r) with
    | 0 => s
    | 1 => noteCorrected (4096 + 32 * die + file) 0 s
    | _ => taintCell 6 4 die cell s) s

/-- The scalar registers that a word reads (R190, R194, R204). -/
def BurJob.regs (j : BurJob) : List Nat :=
  if j.cls = 5 then (if j.sreg ≤ 31 then [j.sreg] else [])
  else ((((List.range j.prog.length).zip j.prog).filter fun p => (p.2.sels (p.1 == 0)).contains 4).map (·.2.sreg)).eraseDups

/-- A resolved word runs, or is discarded for its spans or its tables (R181, R182, R208). DESIGN CHOICE (log 113): a CHAIN that writes a table
and also names it in a TAB stage of its own runs, on the table as it stands. -/
def burRun (j : BurJob) (w : Slot) (s : State) : State :=
  let c := j.cell
  let tabs := namedTables j.prog
  let busy := fun (t : Nat) => get (fun _ => 0) (cellAt s c).tableBusy t
  if tabs.any fun t => decide (now s ≤ busy t) then burDrop c w s
  else
    let last := j.writeAt (j.out.beats - 1)
    claimBur c (now s) (now s + j.beats - 1) (j.writeAt 0) last w (fun s =>
      let s := sregRead j.die j.lcell j.regs (burCount c j.beats s)
      let s := if j.out.kind = 3 then
          onCell c (fun x => { x with tableBusy := put (fun _ => 0) x.tableBusy j.out.base (max last (busy j.out.base)) }) s
        else s
      burUnit j 0 s) s

/-- Operands of a BUR word other than UPDATE that are defined (R183, R186). -/
def burReady (job : State → Slot → Option BurJob) (w : Slot) (s : State) : Bool :=
  (job s w).elim false fun j => decide (1 ≤ j.beats) && decide (j.beats ≤ 2 ^ 20)

/-- What a BUR word other than UPDATE whose operands are defined does on its issue tick. -/
def burAct (job : State → Slot → Option BurJob) (w : Slot) (s : State) : State :=
  match job s w with
  | some j => burRun j w s
  | none => s

/-- A BUR word other than UPDATE (R181, R183, R186). -/
def burWord (head : BitVec 8) (job : State → Slot → Option BurJob) (w : Slot) (s : State) : State :=
  issue head w (burReady job w) (burAct job w) s

/-- CHAIN (R189). -/
def execChain (w : Slot) (s : State) : State := burWord 0x41 chainJob w s

/-- PERMUTE (R199). -/
def execPermute (w : Slot) (s : State) : State := burWord 0x42 permuteJob w s

/-- GATHER (R200). -/
def execGather (w : Slot) (s : State) : State := burWord 0x43 gatherJob w s

/-- REDUCE (R202). -/
def execReduce (w : Slot) (s : State) : State := burWord 0x44 reduceJob w s

/-- SOFTMAX (R204). -/
def execSoftmax (w : Slot) (s : State) : State := burWord 0x45 softmaxJob w s

/-! ### UPDATE (R225 to R230) -/

/-- An UPDATE resolved: operands and record checked (R226, R227), ring 63 declared under cap (R234). -/
def updateJob (s : State) (w : Slot) : Option UpdJob :=
  let die := placeDie w.place
  let cell := placeWhere w.place
  let c := placePhys s w.place
  let a := 128 * opf w 95 84
  let b := spGet s c a 128
  let f := fun o n => leNat ((b.drop o).take n)
  match tensorOf s (f 4 2) with
  | none => none
  | some t =>
    let fits := fun (x n : Nat) => decide (x + n ≤ 524288)
    let keep := (List.range 16).map fun k => f (0x28 + k) 1
    let m := maskOf w
    let keepReg := fun (k : Nat) => sampledReg s (cellKey c (Reg.ANV_KEEP + 4 * (2 * (m - 1) + k / 32)))
    if !w.evalSeg && decide (opf w 83 44 = 0) && decide (opf w 42 0 = 0) && fits (f 0 4) (blockBytes t.1) && fits (f 8 4) 131072
        && fits (f 12 4) 131072 && fits (f 16 4) 1024 && fits (f 20 4) 32768 && fits (f 24 4) 256
        && decide (f 28 4 < 2 ^ 24) && decide (f 32 4 < 2 ^ 24) && decide (f 38 1 ≤ 25) && f 39 1 == 0 && keep.all (decide <| · ≤ 63)
        && f 56 8 == 0 && f 96 32 == 0 && (!flagOf w 2 || ringDeclared s die 63) then
      some {
        cell := c, die := die, lcell := cell, start := now s, issued := stepTick s, checked := opf w 43 43 == 1, rec_ := a,
        gAddr := f 0 4, wTid := f 6 2, wAddr := f 8 4, mAddr := f 12 4, sAddr := f 16 4, codeAddr := f 20 4, expAddr := f 24 4,
        r0 := f 28 4, c0 := f 32 4, layer := f 36 2, gFmt := t.1, gB := t.2,
        hyp := (List.range 7).map fun k => sregAt s die (cell / 16) (f 38 1 + k),
        kept := keep.map fun k => m == 0 || bits (keepReg k) (k % 32) (k % 32) == 1
        hk := flagOf w 0, read := [], stats := none, clip := none, done := [], bad := false }
    else none

/-- The gradient record of an UPDATE with cap (R234, R235). -/
def gradientRecord (s : State) (j : UpdJob) : List Byte :=
  capHeader s 3 j.die j.lcell 0 2049 0 (stepTick s) 0 0 0 0
    ++ (List.range 65536).flatMap fun p =>
      let code := if j.gFmt = 0 then leNat (spGet s j.cell (j.gAddr + 2 * p) 2)
        else if j.gFmt = 3 then ((spGet s j.cell (j.gAddr + p / 2) 1).headD 0).toNat / (if p % 2 = 0 then 1 else 16) % 16
        else ((spGet s j.cell (j.gAddr + p) 1).headD 0).toNat
      natLE 2 (widen (Fmt.ofCode j.gFmt) j.gB code).code

/-- The VERSION monitor on an UPDATE (R217). -/
def updateVersionBad (s : State) (w : Slot) : Bool :=
  verOf w != (version s + 1) % 2 || !s.run.vetoDone || s.run.commitDone

/-- Operands of an UPDATE that are defined. -/
def updateReady (w : Slot) (s : State) : Bool :=
  (updateJob s w).isSome

/-- What an UPDATE whose operands are defined does on its issue tick. A suppressed one writes its ledger entry only; the units that its gradient
record would take in ring 63 stay counted (R222; log 94). -/
def updateAct (w : Slot) (s : State) : State :=
  match updateJob s w with
  | none => s
  | some j =>
    let T := now s
    claimBur j.cell T (T + 3071) (T + 2087) (T + 3110) w (fun s =>
      let s := sregRead j.die j.lcell ((List.range 7).map (leNat (spGet s j.cell (j.rec_ + 38) 1) + ·)) (burCount j.cell 3072 s)
      let ledger := fun (flags : Nat) (s : State) => launch (T + 3110) (.sp j.cell (j.rec_ + 0x40) (ledgerOnly s j flags)) s
      let cap := fun (s : State) => if flagOf w 2 then capRecordPut j.die j.cell 4 w (gradientRecord s j) s else s
      if mastersOff s then ledger 0 (if flagOf w 2 then capOccupy j.die j.cell 4 2049 w s else s)
      else
        let s := cap (if updateVersionBad s w then wordViol 3 4 w s else s)
        if hypOk j.hyp then updateRun j 0 s
        else launch (T + 2087) (.burWrite { j.empty with excs := [(2, 0, 0)] }) (ledger 4 s)) s

/-- UPDATE (R217, R222, R225 to R230, R234). -/
def execUpdate (w : Slot) (s : State) : State := issue 0x46 w (updateReady w) (updateAct w) s

end Sys2Proof.Machine
end

