-- ==== Sys2Proof/Machine/Fills.lean ====
section
/-! DEFINITION. Fills outside the schedule (R380 to R386): brazing requests, cell fills, tinker-core failures, the end of a fill with no
casting running, and the SPR register views. -/
namespace Sys2Proof.Machine

/-- BRAZE: the resource named in SPR_REQ (R381, R391). -/
def execBraze (_src : Source) (s : State) : State :=
  let r := rd s Reg.SPR_REQ
  let die := bits r 3 2
  let cell := bits r 11 4
  match bits r 1 0 with
  | 1 => brazeColumn die cell (bits r 17 12) (bits r 25 18) [] s
  | 2 => brazeCell die cell s
  | 3 => if cell < 16 then brazeCore die cell s else s
  | _ => s

/-- HEARTBEAT_LAPSE: the spare takes over; a hub core is replaced at once, and entries that the host-service core (the fourth of the hub,
01) had in service end with status 0x03 (R380, R387). A spare core that idles is then no longer free; a core already replaced changes
nothing. -/
def execHeartbeatLapse (die : Fin 5) (core : Fin 17) (s : State) : State :=
  let d := die.val
  let k := core.val
  let spare := if d = 4 then 4 else 16
  if spare < k then s
  else if k = spare ∧ !(s.spr.coreSwaps.any fun x => x.1 == d) then
    mapsChanged { s with spr := { s.spr with coreSwaps := s.spr.coreSwaps ++ [(d, k)] } }
  else if s.spr.coreSwaps.contains (d, k) then s
  else
    let hostService := k == 3 || (k == 4 && s.spr.coreSwaps.contains (4, 3))
    let s := brazeCore d k s
    if d = 4 then
      let s := { s with spr := { s.spr with swapDue := s.spr.swapDue.filter fun x => x.1 != 4 } }
      if hostService then failEntries s else s
    else s

/-! ### Cell fills (R384) -/

/-- Group diode of a physical cell: its row's (R34, R413). -/
def physTemp (s : State) (c : Nat) : Int := (groupTemp s (c / 272) (c % 272 / 17)).getD 0

/-- One array of the spare is recalibrated from the factory trims; an array whose reference sum fails leaves `false` (R109, R384). -/
def spareArray (d a : Nat) (acc : Bool × State) : Bool × State :=
  let s := acc.2
  let base := s.freeCount
  let s := useFree 16640 s
  let sumA := calRef base
  if sumA < 3200 ∨ 3968 < sumA then (false, s)
  else
    let set := stagedTrims s d a base sumA
    let s := each set (fun (e : Nat × Trim) s => setTrim d a e.1 e.2 s) s
    (acc.1, setArr d a { arrAt s d a with gen := 0, tcal := BitVec.ofInt 12 (physTemp s d), calibrated := true, past := [], held := [] } s)

/-- A spare cell fails its test or its calibration: the next free spare is taken, or the loss is beyond the spares (R384, R387). -/
def spareFails (die slot : Nat) (s : State) : State :=
  let r := rd s (fillKey die slot)
  let cell := bits r 11 4
  let s := { s with spr := { s.spr with badCells := s.spr.badCells ++ [spareCell die (bits r 29 26)] } }
  let s := mapsChanged (sticky Reg.SPR_STICKY 0 s)
  let s := record 15 [(1, die), (2, cell)] (rd s Reg.SPR_STICKY) s
  match freeCells s die with
  | [] => nextFill die slot (capacityLoss [(1, die), (2, cell)] (retire (2, die, cell, 0, 0) s))
  | c :: _ => setFld (fillKey die slot) 29 26 (c % 272 / 17) (setFill die slot { fillAt s die slot with tested := false } s)

/-- Whether fills pause: in BANK, from the entry to the end of the wake (R386). -/
def fillsPaused (s : State) : Bool := pwrState s != 0

/-- CELL_FILL: the spare is self-tested and its arrays recalibrated; mirroring starts (R384). -/
def execCellFill (die : Fin 4) (slot : Fin 2) (selfTest : Bool) (s : State) : State :=
  let r := rd s (fillKey die.val slot.val)
  if fillsPaused s ∨ bits r 3 0 ≠ 10 ∨ (fillAt s die.val slot.val).tested then s
  else if !selfTest then spareFails die.val slot.val s
  else
    let d := spareCell die.val (bits r 29 26)
    let s := onCell d (fun x => { x with trims := [] }) s
    let t := (List.range 64).foldl (fun acc a => spareArray d a acc) (true, s)
    if t.1 then setFill die.val slot.val { fillAt t.2 die.val slot.val with tested := true } t.2
    else spareFails die.val slot.val t.2

/-- A column of the spare is programmed and verified; one that fails sets fill_fail and is brazed from its array's own spares, and `false`
says that none is left (R384, R391). -/
def programSpare : Nat → Nat → Nat → Nat → List Byte → State → Bool × State
  | 0, _, _, _, _, s => (false, s)
  | f + 1, d, a, col, b, s =>
    let p := physCol s d a col
    let v := programBlock d a p col b s
    let s := v.2
    if v.1 then (true, s)
    else
      let s := sticky Reg.SPR_STICKY 0 s
      match freeSpares s d a with
      | [] => (false, s)
      | q :: _ => programSpare f d a col b (replaceColumn d a col p q s)

/-- CELL_FILL_COMPLETE: every data column of the spare is programmed from the failing cell, and the map change awaits the load window, or
takes effect at once with no casting running (R384, R386). A column without a source keeps the fill waiting (R382); a spare with an array that
has no usable column left fails as one whose self-test does (log 89). -/
def execCellFillComplete (die : Fin 4) (slot : Fin 2) (s : State) : State :=
  let r := rd s (fillKey die.val slot.val)
  if fillsPaused s ∨ bits r 3 0 ≠ 10 ∨ !(fillAt s die.val slot.val).tested then s
  else
    let c := phys s die.val (bits r 11 4)
    let d := spareCell die.val (bits r 29 26)
    let src := fun (i : Nat) => columnContent s die.val slot.val c (i / 256) (i % 256)
    if (List.range 16384).any fun i => (src i).isNone then sticky Reg.SPR_STICKY 5 s
    else
      let t := (List.range 16384).foldl (fun (acc : Bool × State) i =>
        let v := programSpare 9 d (i / 256) (i % 256) ((src i).getD []) (sourceRead die.val slot.val c (i / 256) (i % 256) acc.2)
        (acc.1 && v.1, v.2)) (true, s)
      let s := t.2
      if !t.1 then spareFails die.val slot.val s
      else
      let s := setFld (fillKey die.val slot.val) 1 0 3 s
      if castingRuns s then s else applyFill die.val slot.val s

/-- FILL_MAP_CHANGE: with no casting running, a column fill programs its spare, and when its verify passes the map changes (R383, R386). -/
def execFillMapChange (die : Fin 4) (slot : Fin 2) (s : State) : State :=
  let d := die.val
  let k := slot.val
  if castingRuns s ∨ fillsPaused s then s
  else if fillState s d k = 3 then applyFill d k s
  else
    let r := rd s (fillKey d k)
    if bits r 3 0 ≠ 6 then s
    else
      match fillContent s d k with
      | none => sticky Reg.SPR_STICKY 5 s
      | some b =>
        let c := phys s d (bits r 11 4)
        let a := bits r 17 12
        let p := 260 + bits r 29 26
        let v := programBlock c a p (bits r 25 18) b (fillRead d k s)
        let s := fillVerdict d k v.1 v.2
        if v.1 then applyFill d k s else s

/-! ### Register views (R391, R392) -/

/-- SPR_COUNT of the selected die. -/
def sprCount (s : State) : Nat :=
  let die := fld s Reg.SPR_SEL 1 0
  let core := if s.spr.coreSwaps.any (fun x => x.1 == die) then 0 else 32
  let used := ((remapList s).filter fun r => decide (r.1 = die) && decide (260 ≤ r.2.2.2.1)).length
  (freeCells s die).length + core + 65536 * used

/-- SPR_ARRAY of the selected array. -/
def sprArray (s : State) : Nat :=
  let q := colmapSel s
  let c := phys s q.1 q.2.1
  let a := q.2.2.1
  let mask := fun (f : Nat → Bool) => (List.range 8).foldl (fun n k => if f (260 + k) then n + 2 ^ k else n) 0
  mask (spareUsed s c a) + 256 * mask (colBad s c a) + (if (cellAt s c).colretired.contains a then 65536 else 0)

end Sys2Proof.Machine
end

