-- ==== Sys2Proof/Machine/Registers.lean ====
section
/-! DEFINITION. The control window (R4 to R11, R32 to R37): reads with the views onto other state and the latches, writes with access codes,
ranges and locks, and the commands that write one register. -/
namespace Sys2Proof.Machine

/-! ### Windows (R33 to R35, R392) -/

/-- The physical cell that SPR_PCELL_SEL names. -/
def pcell (s : State) : Nat := 272 * fld s Reg.SPR_PCELL_SEL 1 0 + min 271 (fld s Reg.SPR_PCELL_SEL 10 2)

/-- Address of a register of a logical cell (R32, R33). -/
def cellAddr (die cell off : Nat) : Nat := 0x10000000 + 2 ^ 24 * die + 2 ^ 16 * cell + off

/-- A per-cell address: the physical cell, the offset in its window, and the logical cell (256 × die + cell), none in the physical-cell
window. -/
def cellWindow (s : State) (a : Nat) : Option (Nat × Nat × Option Nat) :=
  if 0x10000000 ≤ a ∧ a < 0x14000000 then
    some (phys s (a / 2 ^ 24 % 4) (a / 65536 % 256), a % 65536, some (a / 65536 % 1024))
  else if 0x54000 ≤ a ∧ a < 0x5E000 then some (pcell s, a - 0x54000, none)
  else none

/-- The domain of a cell is in BANK or QUENCH, with the package or with its resting die (R35, R399). -/
def cellAsleep (s : State) (c : Nat) : Bool := pwrState s == 2 || pwrState s == 3 || s.pwr.rests.contains (c / 272)

/-- A fill of the physical cell is under way (R392). -/
def cellFilling (s : State) (c : Nat) : Bool :=
  (List.range 2).any fun k =>
    let r := rd s (fillKey (c / 272) k)
    decide (2 ≤ bits r 1 0) && bits r 3 2 == 2 && spareCell (c / 272) (bits r 29 26) == c

/-- Does an offset of the per-cell window hold a register (R5)? -/
def cellHolds (off : Nat) : Bool := (findRow rowsCell off).isSome

/-- Does an address hold a register (R5)? The table body of the CAP block is one of registers (R49). -/
def holdsReg (s : State) (a : Nat) : Bool :=
  match cellWindow s a with
  | some w => cellHolds w.2.1
  | none => (findRow (rowsOf a) a).isSome || (decide (0x100 ≤ a) && decide (a < 0x100 + (capBody s).length))

/-! ### Reads (R5 to R8) -/

/-- A register of a cell as it reads: the peeks and views, else the stored word. -/
def cellRead (s : State) (c off : Nat) (log : Option Nat) : Nat :=
  let k := fun (o : Nat) => rd s (cellKey c o)
  if off = Reg.ARR_PEEK_DATA then
    let q := k Reg.ARR_PEEK_SEL
    if castingRuns s then 0
    else (List.range 8).foldl (fun n i =>
      n + 16 ^ i * (codeAt s c (bits q 5 0) (bits q 14 6) (8 * bits q 19 15 + i)).toNat) 0
  else if off = Reg.ARR_PEEK_EXP then
    let q := k Reg.ARR_PEEK_SEL
    if castingRuns s then 0
    else expAt s c (bits q 5 0) (bits q 14 6) + 65536 * (checkAt s c (bits q 5 0) (bits q 14 6)).toNat
  else if off = Reg.ACC_DECL then sumTiles s c + 256 * foldArea s c
  else if off = Reg.ACC_PEEK_DATA then
    let q := k Reg.ACC_PEEK_SEL
    if castingRuns s then 0
    else (accAt s c (bits q 6 0) (bits q 14 7)).toNat + 65536 * sideAt s c (bits q 6 0) (bits q 14 7)
  else if off = Reg.ACC_PEEK_BIND then
    let t := tileAt s c (bits (k Reg.ACC_PEEK_SEL) 6 0)
    t.tid.toNat + 65536 * t.ovf.val + (if t.hk then 2 ^ 20 else 0)
  else if off = Reg.ACC_PEEK_EBASE then (tileAt s c (bits (k Reg.ACC_PEEK_SEL) 6 0)).ebase.toNat
  else if off = Reg.ANV_CHAIN0 ∨ off = Reg.ANV_CHAIN1 then
    let h := chainAt s c (off / 4 % 2)
    h.kb + (if h.opened then 4096 else 0) + (if h.wide then 8192 else 0) + 65536 * h.tid
  else if off = Reg.ANV_PEEK_DATA then
    let q := k Reg.ANV_PEEK_SEL
    if castingRuns s then 0
    else (((chainAt s c (bits q 0 0)).elems[64 * bits q 6 1 + bits q 12 7]?).getD 0).toNat
  else if Reg.BUR_SREG ≤ off ∧ off < Reg.BUR_SREG + 64 then
    match log with
    | none => 0
    | some l =>
      let r := 2 * ((off - Reg.BUR_SREG) / 4)
      (sregAt s (l / 256) (l % 256 / 16) r).toNat + 65536 * (sregAt s (l / 256) (l % 256 / 16) (r + 1)).toNat
  else if off = Reg.BUR_TAB_DATA then
    let q := k Reg.BUR_TAB_SEL
    if castingRuns s || decide (bits q 4 0 < 16) then 0
    else (((tableImage s c (bits q 4 0))[bits q 14 5]?).getD 0).toNat
  else if cellHolds off then k off
  else 0

/-- A word of a byte string at a byte offset, little-endian, 0 beyond its end. -/
def wordOf (b : List Byte) (off : Nat) : Nat := leNat ((b.drop off).take 4)

/-- CAL_TRIM, CAL_ARRAY_INFO and CAL_SLICE of the array that CAL_SEL names (R118). -/
def calRead (s : State) (a : Nat) : Nat :=
  let q := calSel s
  let c := phys s q.1 q.2.1
  let x := arrAt s c q.2.2.1
  if a = Reg.CAL_TRIM then (if 268 ≤ q.2.2.2 then 0 else (trimAt s c q.2.2.1 q.2.2.2).toNat)
  else if a = Reg.CAL_ARRAY_INFO then
    let slices := match x.retired with
      | [] => if fld s Reg.CAL_CTRL 1 1 = 1 then 0 else 1
      | [_] => 2
      | _ => 3
    x.gen.toNat + 65536 * x.tcal.toNat + (if triggered s q.1 q.2.1 x then 2 ^ 28 else 0) + (if x.rampLeft = 0 then 0 else 2 ^ 29)
      + 2 ^ 30 * slices
  else (x.retired.getLast?).getD x.slice % 64 + 64 * x.rampLeft + 65536 * min 0xFFFF (sweepAge s x)

/-- Whether any W1C bit of some rows is set; `k` gives the key of an address (R458). -/
def anySticky (s : State) (rows : List RegRow) (k : Nat → Nat) : Bool :=
  rows.any fun r => r.w1c != 0 && (List.range ((r.hi - r.lo) / 4 + 1)).any fun i => rd s (k (r.lo + 4 * i)) &&& r.w1c != 0

/-- The lowest logical cell with a set per-cell sticky bit, as 256 × die + cell (R458). -/
def stickyCell (s : State) : Option Nat := (List.range 1024).find? fun l => anySticky s rowsCell (cellKey (phys s (l / 256) (l % 256)))

/-- HLT_SUMMARY (R458, R461). -/
def summary (s : State) : Nat :=
  let blocks := [rowsSch, rowsPwr, rowsTsm, rowsCal, rowsSpr, rowsHlt, rowsIng, rowsMem, rowsFab, rowsHst, rowsNvs, rowsMgt]
  let n := ((List.range 12).zip blocks).foldl (fun n p => if anySticky s p.2 id then n + 2 ^ p.1 else n) 0
  n + (if (stickyCell s).isSome then 4096 else 0)

/-- HLT_CELL_FIRST: the lowest unit of the lowest cell with a sticky bit (R461). -/
def cellFirst (s : State) : Nat :=
  match stickyCell s with
  | none => 0
  | some l =>
    let c := phys s (l / 256) (l % 256)
    let unit := ([1, 2, 3, 4].find? fun u => rd s (cellKey c (8192 * (u - 1) + 4)) != 0).getD 0
    l / 256 + 4 * (l % 256) + 1024 * unit

/-- The wear counter that SPR_WEAR_SEL names; fields its index does not use are 0, and index 7 names none (R389, R391). -/
def wearKey (s : State) : Option Nat :=
  let r := rd s Reg.SPR_WEAR_SEL
  let e := fun (n : Nat) => some (bankKey Reg.SPR_WEAR n)
  match bits r 2 0 with
  | 0 => e 0
  | 1 => some (progKey (phys s (bits r 4 3) (bits r 12 5)) (bits r 18 13))
  | 3 => e (3 + 8192 * bits r 18 13)
  | 4 => e (4 + 8 * bits r 4 3 + 8192 * bits r 18 13)
  | 7 => none
  | n => e (n + 8 * bits r 4 3)

/-- The register that holds an entry selected by HST_MR_SEL, HST_PEER_SEL, SPR_SEL or SPR_WEAR_SEL, if the selection names one; region
index 0 is not an entry of the region table (R315, R331, R391). -/
def entryKey (s : State) (a : Nat) : Option Nat :=
  if Reg.HST_MR_BASE ≤ a ∧ a ≤ Reg.HST_MR_KEY then
    (if fld s Reg.HST_MR_SEL 7 0 = 0 then none else some (bankKey a (fld s Reg.HST_MR_SEL 7 0)))
  else if Reg.HST_PEER_IP ≤ a ∧ a < Reg.HST_PEER_IP + 16 then some (bankKey a (fld s Reg.HST_PEER_SEL 3 0))
  else if Reg.SPR_FILL ≤ a ∧ a ≤ Reg.SPR_FILL_SRC_HI then
    some (bankKey a (2 * fld s Reg.SPR_SEL 1 0 + fld s Reg.SPR_SEL 2 2))
  else if a = Reg.SPR_WEAR then wearKey s
  else none

/-- Whether an address belongs to a selected entry. -/
def isEntry (a : Nat) : Bool :=
  (decide (Reg.HST_MR_BASE ≤ a) && decide (a ≤ Reg.HST_MR_KEY))
    || (decide (Reg.HST_PEER_IP ≤ a) && decide (a < Reg.HST_PEER_IP + 16))
    || (decide (Reg.SPR_FILL ≤ a) && decide (a ≤ Reg.SPR_FILL_SRC_HI)) || a == Reg.SPR_WEAR

/-- The port registers of the port that FAB_PORT_SEL names; there is none above 47 (R305). -/
def portRead (s : State) (a : Nat) : Nat :=
  let p := fld s Reg.FAB_PORT_SEL 5 0
  if 48 ≤ p then 0 else if a = Reg.FAB_PORT_STATUS then portStatus s p else rd s (bankKey a p)

/-- Queue pairs in RTS bound to a host port (R330). -/
def portQps (s : State) (p : Nat) : Nat :=
  ((List.range 4).flatMap fun cls => qpsIn s 3 cls).countP fun q => qpPort s q == p

/-- A revision byte of the part: a letter and a digit of 0 to 9 (R14; log 3). -/
def revByte (v : Nat) : Nat := 16 * (v / 16 % 16) + v % 16 % 10

/-- The revisions of the compute dies, which are all the same, and of the rest (R13, R14). -/
def revisions (a : Nat) : Nat :=
  let b := fun (i : Nat) => revByte ((Config.perPart a).toNat / 256 ^ i % 256)
  if a = Reg.CAP_REV_COMPUTE then 0x01010101 * b 0 else b 0 + 256 * b 1 + 65536 * b 2 + 16777216 * b 3

/-- CAP block (R14, R49). -/
def capRead (s : State) (a : Nat) : Nat :=
  if a = Reg.CAP_REV_COMPUTE ∨ a = Reg.CAP_REV_OTHER then revisions a
  else if a = Reg.CAP_TABLE_LEN then (capBody s).length
  else if Reg.CAP_HASH ≤ a ∧ a < Reg.CAP_HASH + 32 then wordOf (capHash s) (a - Reg.CAP_HASH)
  else if 0x100 ≤ a then wordOf (capBody s) (a - 0x100)
  else if (findRow rowsCap a).isSome then rd s a else 0

/-- NVS block (R443). -/
def nvsRead (s : State) (a : Nat) : Nat :=
  let dig := fun (r : Nat) => decide (r ≤ a) && decide (a < r + 32)
  if a = Reg.NVS_SERIAL_LO ∨ a = Reg.NVS_SERIAL_HI then (Config.perPart a).toNat
  else if a = Reg.NVS_KEYS then setBits (rd s a) 7 4 (revoked s)
  else if a = Reg.NVS_CERT_LEN then certificate.length % 65536
  else if dig Reg.NVS_FW_DIGEST then wordOf (blockDigest s.nvs.firmware) (a - Reg.NVS_FW_DIGEST)
  else if dig Reg.NVS_CFG_DIGEST then wordOf (blockDigest s.nvs.cfgBlock) (a - Reg.NVS_CFG_DIGEST)
  else if dig Reg.NVS_SET_DIGEST then wordOf (numBytes (setDigest s)) (a - Reg.NVS_SET_DIGEST)
  else if dig Reg.NVS_OWNER_HASH then wordOf s.nvs.owner (a - Reg.NVS_OWNER_HASH)
  else if dig Reg.NVS_ID_HASH then wordOf (digest Config.identityKey) (a - Reg.NVS_ID_HASH)
  else if Reg.NVS_ID_PUB ≤ a ∧ a < Reg.NVS_ID_PUB + 64 then wordOf Config.identityKey (a - Reg.NVS_ID_PUB)
  else if Reg.NVS_CERT ≤ a then wordOf certificate (a - Reg.NVS_CERT)
  else rd s a

/-- A package-level register as it reads, apart from the reads that latch or clear. -/
def pkgView (s : State) (a : Nat) : Nat :=
  let port := a - Reg.HST_PORT
  if a < 0x10000 then capRead s a
  else if (findRow (rowsOf a) a).isNone then 0
  else if isEntry a then (match entryKey s a with | some k => rd s k | none => 0)
  else if a / 65536 = 11 then nvsRead s a
  else if a = Reg.SCH_STEP_TICK then (if s.run.on then stepTick s % 2 ^ 32 else 0)
  else if a = Reg.FAB_WINDOW then now s / 2 ^ 20 % 2 ^ 32
  else if Reg.FAB_PORT_STATUS ≤ a ∧ a ≤ Reg.FAB_PORT_FEC_UE then portRead s a
  else if Reg.HST_PORT ≤ a ∧ a < Reg.HST_PORT + 16 then setBits (rd s a) 31 16 (portQps s (port / 4))
  else if Reg.HST_QP_CTX0 ≤ a ∧ a ≤ Reg.HST_QP_CTX7 then rd s (bankKey a (fld s Reg.HST_QP_SEL 12 0))
  else if a = Reg.HLT_SUMMARY then summary s
  else if a = Reg.HLT_CELL_FIRST then cellFirst s
  else if Reg.HLT_JRNL ≤ a ∧ a < Reg.HLT_JRNL + 32768 then leNat (getBytes noByte s.nvs.journal (a - Reg.HLT_JRNL) 4)
  else if a = Reg.ING_AGE then min (ingAge s) (2 ^ 32 - 1)
  else if a = Reg.MGT_STATUS then (if s.mgt.link then 1 else 0) + 2 * min 7 ((tallyBusy s).length - 1)
  else if a = Reg.SPR_COUNT then sprCount s
  else if a = Reg.SPR_CMAP then
    let r := rd s Reg.SPR_CMAP_SEL
    phys s (bits r 1 0) (bits r 9 2) - 272 * bits r 1 0
  else if a = Reg.SPR_COLMAP then
    let q := colmapSel s
    physCol s (phys s q.1 q.2.1) q.2.2.1 q.2.2.2
  else if a = Reg.SPR_ARRAY then sprArray s
  else if a = Reg.PWR_PMB_DATA then pmbData s
  else if a = Reg.TSM_CH_WIN then
    (if 9 ≤ fld s Reg.TSM_SEL 3 0 then 0 else chanWin s (fld s Reg.TSM_SEL 3 0) (fld s Reg.TSM_SEL 8 4))
  else if a = Reg.TSM_CH_DATA then tsmChData s
  else rd s a

/-- A read that latches the upper half of its value in the register beside it. -/
def latchRead (hi v : Nat) (s : State) : Nat × State := (v % 2 ^ 32, wr hi (v / 2 ^ 32) s)

/-- SCH_TICK_LO (R62). -/
def readTickLo (s : State) : Nat × State := latchRead Reg.SCH_TICK_HI (now s) s
/-- FAB_MANDREL_LO (R305). -/
def readMandrelLo (s : State) : Nat × State := latchRead Reg.FAB_MANDREL_HI s.time.mandrel.toNat s
/-- HLT_AREC_SEQ_LO (R356). -/
def readSeqLo (s : State) : Nat × State := latchRead Reg.HLT_AREC_SEQ_HI s.health.seq s
/-- PWR_RTC_LO (R411). -/
def readRtcLo (s : State) : Nat × State := latchRead Reg.PWR_RTC_HI s.time.rtc.toNat s

/-- FAB_PORT_FEC_UE: the read clears peak and lane (R306). -/
def readFecUe (s : State) : Nat × State :=
  let p := fld s Reg.FAB_PORT_SEL 5 0
  (portRead s Reg.FAB_PORT_FEC_UE, if 48 ≤ p then s else setFld (bankKey Reg.FAB_PORT_FEC_UE p) 31 24 0 s)

/-- The word that a read of the register at byte address `a` returns, and the state after it (R5 to R8, R35). -/
def ctlRead (src : Source) (a : Nat) (s : State) : Nat × State :=
  let a := a / 4 * 4
  match cellWindow s a with
  | some w =>
    if !cellHolds w.2.1 || (w.2.2.isNone && (logicalOf s w.1).isSome) then (0, s)
    else if cellAsleep s w.1 then (0, accFirst 2 src a s)
    else (cellRead s w.1 w.2.1 w.2.2, s)
  | none =>
    if a = Reg.SCH_TICK_LO then readTickLo s
    else if a = Reg.FAB_MANDREL_LO then readMandrelLo s
    else if a = Reg.HLT_AREC_SEQ_LO then readSeqLo s
    else if a = Reg.PWR_RTC_LO then readRtcLo s
    else if a = Reg.FAB_PORT_FEC_UE then readFecUe s
    else if (Reg.CAL_TRIM ≤ a ∧ a ≤ Reg.CAL_SLICE) then
      (if cellAsleep s (phys s (calSel s).1 (calSel s).2.1) then (0, accFirst 2 src a s) else (calRead s a, s))
    else (pkgView s a, s)

/-- A read access by itself returns its word. -/
def answerRead (a : Nat) (r : Nat × State) : State := emit (.regRead a (BitVec.ofNat 32 r.1)) r.2

/-- SCH_TICK_LO_READ. -/
def execSchTickLoRead (_src : Source) (s : State) : State := answerRead Reg.SCH_TICK_LO (readTickLo s)
/-- FAB_MANDREL_LO_READ. -/
def execFabMandrelLoRead (_src : Source) (s : State) : State := answerRead Reg.FAB_MANDREL_LO (readMandrelLo s)
/-- HLT_AREC_SEQ_LO_READ. -/
def execHltArecSeqLoRead (_src : Source) (s : State) : State := answerRead Reg.HLT_AREC_SEQ_LO (readSeqLo s)
/-- PWR_RTC_LO_READ. -/
def execPwrRtcLoRead (_src : Source) (s : State) : State := answerRead Reg.PWR_RTC_LO (readRtcLo s)
/-- FAB_PORT_FEC_UE_READ. -/
def execFabPortFecUeRead (_src : Source) (s : State) : State := answerRead Reg.FAB_PORT_FEC_UE (readFecUe s)

/-! ### Plain writes (R7, R8, R11) -/

/-- Registers that a running casting also drives: those of the cells, the MEM block (R266) and the stretch request (R37). -/
def driven (k : Nat) : Bool := (decide (2 ^ 36 ≤ k) && decide (k < 2 ^ 40)) || k / 65536 == 8 || k == Reg.PWR_STRETCH

/-- A word written under a key: RW and RWN bits take the value within their ranges, a 1 clears a W1C bit unless an event has set it on this
tick, the rest stays (R8, R9, R11). Where the running casting drives the register the value takes effect on the next tick (R37). -/
def putBits (k : Nat) (r : RegRow) (ranges : List (Nat × Nat × Nat × Nat × Nat × Nat)) (a v : Nat) (s : State) : State :=
  let cleared := rd s k &&& (2 ^ 32 - 1 - (v &&& r.w1c &&& (2 ^ 32 - 1 - eventBits s k)))
  let new := clampWord ranges a ((cleared &&& (2 ^ 32 - 1 - r.rw)) ||| (v &&& r.rw))
  if castingRuns s && driven k && r.rw != 0 then launch (now s + 1) (.regWrite k r.rw new) (wr k cleared s) else wr k new s

/-- A plain write of a package-level register. -/
def putReg (a v : Nat) (s : State) : State :=
  match findRow (rowsOf a) a with
  | some r => putBits a r rangeRows a v s
  | none => s

/-- A plain write of a register of a cell. -/
def putCell (c off v : Nat) (s : State) : State :=
  match findRow rowsCell off with
  | some r => putBits (cellKey c off) r rangeRowsCell off v s
  | none => s

/-- Runs `f` when bit `i` of the word written is 1. -/
def onBit (v i : Nat) (f : State → State) (s : State) : State := if bits v i i = 1 then f s else s

/-! ### Registers of cells (R94, R134, R179, R213) -/

/-- An access to a register of a logical cell: refused while its domain sleeps (R35). -/
def toCell (src : Source) (die : Fin 4) (cell : Fin 256) (off : Nat) (f : Nat → State → State) (s : State) : State :=
  let c := phys s die.val cell.val
  if cellAsleep s c then accFirst 2 src (cellAddr die.val cell.val off) s else f c s

/-- A write accepted only while no casting runs (R37, R479). -/
def whenOpen (src : Source) (a : Nat) (f : State → State) (s : State) : State := if castingRuns s then accState src a s else f s

/-- Clears registers of a cell. -/
def zeroCell (c : Nat) (offs : List Nat) (s : State) : State := each offs (fun o s => wr (cellKey c o) 0 s) s

/-- ARR_CTRL.sat_clr. -/
def arrSatClr (c : Nat) (s : State) : State := zeroCell c [Reg.ARR_SAT_COUNT] s
/-- ARR_CTRL.cnt_clr. -/
def arrCntClr (c : Nat) (s : State) : State :=
  zeroCell c [Reg.ARR_PHASES_RUN, Reg.ARR_PHASES_SKIPPED, Reg.ARR_WRITES_DONE, Reg.ARR_WRITES_UNCHANGED] s
/-- ACC_CTRL.cnt_clr. -/
def accCntClr (c : Nat) (s : State) : State := zeroCell c [Reg.ACC_ADDS, Reg.ACC_FOLDS, Reg.ACC_ECC, Reg.ACC_WAITS] s
/-- ANV_CTRL.cnt_clr. -/
def anvCntClr (c : Nat) (s : State) : State := zeroCell c [Reg.ANV_PRODUCTS, Reg.ANV_STAGES, Reg.ANV_DISCARDS, Reg.ANV_ECC] s
/-- BUR_CTRL.cnt_clr. -/
def burCntClr (c : Nat) (s : State) : State :=
  zeroCell c [Reg.BUR_EMPTYROW, Reg.BUR_OOR_COUNT, Reg.BUR_WORDS, Reg.BUR_BEATS, Reg.BUR_ECC] s

/-- ARR_SAT_CLR. -/
def execArrSatClr (src : Source) (die : Fin 4) (cell : Fin 256) (s : State) : State := toCell src die cell Reg.ARR_CTRL arrSatClr s
/-- ARR_CNT_CLR. -/
def execArrCntClr (src : Source) (die : Fin 4) (cell : Fin 256) (s : State) : State := toCell src die cell Reg.ARR_CTRL arrCntClr s
/-- ACC_CNT_CLR. -/
def execAccCntClr (src : Source) (die : Fin 4) (cell : Fin 256) (s : State) : State := toCell src die cell Reg.ACC_CTRL accCntClr s
/-- ANV_CNT_CLR. -/
def execAnvCntClr (src : Source) (die : Fin 4) (cell : Fin 256) (s : State) : State := toCell src die cell Reg.ANV_CTRL anvCntClr s
/-- BUR_CNT_CLR. -/
def execBurCntClr (src : Source) (die : Fin 4) (cell : Fin 256) (s : State) : State := toCell src die cell Reg.BUR_CTRL burCntClr s

/-- A write of a selection register of a cell, while no casting runs (R94, R134, R179, R213). -/
def cellSelect (src : Source) (die : Fin 4) (cell : Fin 256) (off : Nat) (v : Word) (s : State) : State :=
  toCell src die cell off (fun c => whenOpen src (cellAddr die.val cell.val off) (putCell c off v.toNat)) s

/-- ARR_PEEK_SEL_WRITE (R95). -/
def execArrPeekSelWrite (src : Source) (die : Fin 4) (cell : Fin 256) (v : Word) (s : State) : State :=
  cellSelect src die cell Reg.ARR_PEEK_SEL v s
/-- ACC_PEEK_SEL_WRITE (R135). -/
def execAccPeekSelWrite (src : Source) (die : Fin 4) (cell : Fin 256) (v : Word) (s : State) : State :=
  cellSelect src die cell Reg.ACC_PEEK_SEL v s
/-- ANV_PEEK_SEL_WRITE (R180). -/
def execAnvPeekSelWrite (src : Source) (die : Fin 4) (cell : Fin 256) (v : Word) (s : State) : State :=
  cellSelect src die cell Reg.ANV_PEEK_SEL v s
/-- BUR_TAB_SEL_WRITE (R214). -/
def execBurTabSelWrite (src : Source) (die : Fin 4) (cell : Fin 256) (v : Word) (s : State) : State :=
  cellSelect src die cell Reg.BUR_TAB_SEL v s

/-- Registers of a cell that accept writes only while no casting runs. -/
def cellLocked (off : Nat) : Bool :=
  (decide (Reg.ARR_ROWMASK ≤ off) && decide (off < Reg.ARR_ROWMASK + 224))
    || [Reg.ARR_PEEK_SEL, Reg.ACC_PEEK_SEL, Reg.ANV_PEEK_SEL, Reg.BUR_TAB_SEL].contains off

/-- A record of a first event is held until its sticky bits are clear, and then reads as none (R130, R214). -/
def cellFreed (c off : Nat) (s : State) : State :=
  if off = Reg.BUR_STICKY ∧ fld s (cellKey c off) 4 0 = 0 then wr (cellKey c Reg.BUR_EXC_FIRST) 0 s
  else if off = Reg.ACC_STICKY ∧ fld s (cellKey c off) 1 1 = 0 then setFld (cellKey c Reg.ACC_LONGSUM) 7 7 0 s
  else s

/-- A word written to a register of a cell. -/
def cellWrite (c off v : Nat) (s : State) : State :=
  if off = Reg.ARR_CTRL then onBit v 1 (arrCntClr c) (onBit v 0 (arrSatClr c) s)
  else if off = Reg.ACC_CTRL then onBit v 0 (accCntClr c) s
  else if off = Reg.ANV_CTRL then onBit v 0 (anvCntClr c) s
  else if off = Reg.BUR_CTRL then onBit v 0 (burCntClr c) s
  else cellFreed c off (putCell c off v s)

/-! ### Registers of the package -/

/-- Clears registers. -/
def zeroRegs (l : List Nat) (s : State) : State := each l (fun a s => wr a 0 s) s

/-- MEM_CNT_CLR: the counters of R266 and the peak fields. -/
def execMemCntClr (_src : Source) (s : State) : State :=
  let s := each (List.range 8) (fun m s => setFld (Reg.MEM_TEMP + 4 * m) 15 8 0 (wr (Reg.MEM_ERR + 4 * m) 0 s)) s
  wr Reg.MEM_ARB_CUTS 0 (each (List.range 6) (fun a s => wr (Reg.MEM_ARB_LINES + 4 * a) 0 s) s)

/-- TSM_CNT_CLR (R423). -/
def execTsmCntClr (_src : Source) (s : State) : State := zeroRegs [Reg.TSM_WIN_EVENTS, Reg.TSM_PLAUS_FAILS] s

/-- MGT_CNT_CLR (R462). -/
def execMgtCntClr (_src : Source) (s : State) : State :=
  zeroRegs [Reg.MGT_TALLY_OK, Reg.MGT_TALLY_REJ, Reg.MGT_WAKE_FRAMES, Reg.MGT_DWI_FRAMES] s

/-- PPR_RUN: accepted only while no casting runs (R257, R266). -/
def execPprRun (src : Source) (s : State) : State := whenOpen src Reg.MEM_CTRL pprStart s

/-- FORCE: a trigger pends on every array; the rest of CAL_CTRL is not this command's (R104). -/
def execForce (_src : Source) (s : State) : State := calForce s

/-- CAL_TRIM_WRITE (R119): while no casting runs and the cell does not sleep. -/
def execCalTrimWrite (src : Source) (v : Word) (s : State) : State :=
  whenOpen src Reg.CAL_TRIM (fun s =>
    if cellAsleep s (phys s (calSel s).1 (calSel s).2.1) then accFirst 2 src Reg.CAL_TRIM s else calTrimWrite v.toNat s) s

/-- FAB_PORT_SEL_WRITE (R306). -/
def execFabPortSelWrite (_src : Source) (v : Word) (s : State) : State := putReg Reg.FAB_PORT_SEL v.toNat s

/-- PWR_RTC_HI_WRITE: the real-time clock takes the last word written to PWR_RTC_LO and this one together (R411, R412). -/
def execPwrRtcHiWrite (_src : Source) (v : Word) (s : State) : State :=
  let s := putReg Reg.PWR_RTC_HI v.toNat s
  { s with time := { s.time with rtc := BitVec.ofNat 48 (rd s Reg.PWR_RTC_LO + 2 ^ 32 * (v.toNat % 65536)) } }

/-- PWR_ALARM_HI_WRITE: the alarm's upper bits, and its latch is rearmed (R405, R411). -/
def execPwrAlarmHiWrite (_src : Source) (v : Word) (s : State) : State :=
  let s := putReg Reg.PWR_ALARM_HI v.toNat s
  { s with pwr := { s.pwr with rtcLatch := false } }

/-- PWR_PMB_SEL_WRITE (R412). -/
def execPwrPmbSelWrite (_src : Source) (v : Word) (s : State) : State := putReg Reg.PWR_PMB_SEL v.toNat s

/-- PWR_VCORE_WRITE: the setpoint, sent to the regulators, while no casting runs (R395, R412). -/
def execPwrVcoreWrite (src : Source) (v : Word) (s : State) : State :=
  whenOpen src Reg.PWR_VCORE (fun s => sendVcore (putReg Reg.PWR_VCORE v.toNat s)) s

/-- TSM_URGENT (R416). -/
def execTsmUrgent (_src : Source) (v : Word) (s : State) : State := tsmUrgentWrite v.toNat s

/-- TSM_SEL_WRITE (R424). -/
def execTsmSelWrite (_src : Source) (v : Word) (s : State) : State := putReg Reg.TSM_SEL v.toNat s

/-- TSM_CH_WIN_WRITE (R424). -/
def execTsmChWinWrite (_src : Source) (v : Word) (s : State) : State := tsmChWinWrite v.toNat s

/-- The selection registers of the SPR block (R391). -/
def sprSel (which : Fin 5) : Nat :=
  match which.val with
  | 0 => Reg.SPR_SEL
  | 1 => Reg.SPR_CMAP_SEL
  | 2 => Reg.SPR_COLMAP_SEL
  | 3 => Reg.SPR_WEAR_SEL
  | _ => Reg.SPR_PCELL_SEL

/-- SPR_SELECTION_WRITE (R392). -/
def execSprSelectionWrite (_src : Source) (which : Fin 5) (v : Word) (s : State) : State := putReg (sprSel which) v.toNat s

/-- The selection registers of the HST block (R331). -/
def hstSel (which : Fin 3) : Nat :=
  match which.val with
  | 0 => Reg.HST_MR_SEL
  | 1 => Reg.HST_QP_SEL
  | _ => Reg.HST_PEER_SEL

/-- HST_SELECTION_WRITE (R331). -/
def execHstSelectionWrite (_src : Source) (which : Fin 3) (v : Word) (s : State) : State := putReg (hstSel which) v.toNat s

/-- HST_MBOX_PROD_WRITE: the entries up to the new count are posted (R320). -/
def execHstMboxProdWrite (_src : Source) (v : Word) (s : State) : State := putReg Reg.HST_MBOX_PROD v.toNat s

/-- A write of context register `i` of the selected queue pair, within the bits that take writes (R330, R331). -/
def qpCtxWrite (i v : Nat) (s : State) : State :=
  let a := Reg.HST_QP_CTX0 + 4 * i
  match findRow rowsHst a with
  | none => s
  | some r =>
    if r.rw = 0 then s
    else ctxWrite i (clampWord rangeRows a ((ctx s (fld s Reg.HST_QP_SEL 12 0) i &&& (2 ^ 32 - 1 - r.rw)) ||| (v &&& r.rw))) s

/-- QP_STATE_WRITE: HST_QP_CTX0 of the selected queue pair (R312). -/
def execQpStateWrite (_src : Source) (v : Word) (s : State) : State := qpCtxWrite 0 v.toNat s

/-! ### A word write of any register (R5 to R9, R37) -/

/-- Package-level registers all of whose writable fields are locked while a casting runs: first and last address (R37). -/
def lockRows : List (Nat × Nat) :=
  [(Reg.SCH_IMAGE_LO, Reg.SCH_START_HI), (Reg.SCH_VERSION, Reg.SCH_VERSION), (Reg.SCH_MASTER_BASE, Reg.SCH_MASTER_REC),
   (Reg.SCH_LOG_BASE_LO, Reg.SCH_LOG_LEN), (Reg.SCH_CAP_BASE_LO, Reg.SCH_CAP_LEN), (Reg.CAL_SEL, Reg.CAL_SEL),
   (Reg.FAB_ROLE, Reg.FAB_ROLE), (Reg.FAB_PORTMAP, Reg.FAB_PORTMAP + 44), (Reg.FAB_WROUTE, Reg.FAB_WROUTE + 1916),
   (Reg.HST_INTAKE_CTRL, Reg.HST_INTAKE_FIRST), (Reg.HST_INTAKE_BASE, Reg.HST_INTAKE_GEOM + 12),
   (Reg.ING_BUDDY, Reg.ING_GUEST), (Reg.ING_MOULD_BASE, Reg.ING_GROUP_LEN), (Reg.PWR_QIMG_BASE, Reg.PWR_FWIMG_BASE),
   (Reg.SPR_CMAP, Reg.SPR_CMAP), (Reg.SPR_COLMAP, Reg.SPR_COLMAP)]

/-- Whether a register is one of them. -/
def locked (a : Nat) : Bool := lockRows.any fun r => decide (r.1 ≤ a) && decide (a ≤ r.2)

/-- SCH_CTRL: each of load, arm and halt acts as its own command; eval_inhibit is plain (R37, R66). A write that loads does not arm or halt
what it loads. -/
def schCtrl (src : Source) (v : Nat) (s : State) : State :=
  let runs := castingRuns s
  let load := bits v 0 0 == 1
  let s := putReg Reg.SCH_CTRL v s
  let s := if load then execCastingLoad src s else s
  let s := if bits v 1 1 = 1 ∧ (runs ∨ !load) then execArm src s else s
  if bits v 2 2 = 1 ∧ (runs ∨ !load) then execHalt src s else s

/-- CAL_CTRL: a change of check_en while a casting runs is refused, the rest takes effect (R37, R103). -/
def calCtrl (src : Source) (v : Nat) (s : State) : State :=
  let old := fld s Reg.CAL_CTRL 7 7
  let refused := castingRuns s && bits v 7 7 != old
  let s := if refused then accState src Reg.CAL_CTRL s else s
  onBit v 0 (execForce src) (putReg Reg.CAL_CTRL (if refused then setBits v 7 7 old else v) s)

/-- NVS_CTRL: a STORE's snapshot follows the write it comes with (R439, R442, R443); a boot reads the flash as it was last supplied. -/
def nvsCtrl (src : Source) (v : Nat) (s : State) : State :=
  let s := onBit v 2 (execOwnerClear src) s
  let s := onBit v 3 (execQuote src) (onBit v 0 (execStore src) s)
  let s := onBit v 1 (fun s => execRetry src s.nvs.flash s) s
  if bits v 15 8 = 0xB0 then execReboot src s.nvs.flash s else s

/-- ING_CTRL (R361, R371, R374, R375). -/
def ingCtrl (src : Source) (v : Nat) (s : State) : State :=
  let s := onBit v 2 (execIngFetch src) (onBit v 1 (execIngRestore src) (onBit v 0 (execIngCall src) s))
  onBit v 4 (execPurge src) (onBit v 3 (execIngAbandon src) s)

/-- What clearing sticky bits frees: records of a first event, and bits that stay set while their cause stands (R267, R391, R424, R461). -/
def pkgFreed (a : Nat) (s : State) : State :=
  if a = Reg.TSM_STICKY ∧ fld s a 1 0 = 0 then wr Reg.TSM_EVENT_FIRST 0 s
  else if a = Reg.MEM_STICKY ∧ fld s a 3 1 = 0 then wr Reg.MEM_UE_ADDR_HI 0 (wr Reg.MEM_UE_ADDR_LO 0 s)
  else if a = Reg.HLT_STICKY0 ∧ fld s a 2 0 = 0 then wr Reg.HLT_ACC_FIRST 0 s
  else if a = Reg.SPR_STICKY ∧ s.spr.dirty then sticky a 4 s
  else s

/-- A write of a selected entry (R331, R391). -/
def entryWrite (a v : Nat) (s : State) : State :=
  match entryKey s a, findRow (rowsOf a) a with
  | some k, some r => putBits k r rangeRows a v s
  | _, _ => s

/-- A word written to a package-level register that is not locked. -/
def pkgWrite (src : Source) (a v : Nat) (s : State) : State :=
  let w := BitVec.ofNat 32 v
  if a = Reg.SCH_CTRL then schCtrl src v s
  else if a = Reg.CAL_CTRL then calCtrl src v s
  else if a = Reg.NVS_CTRL then nvsCtrl src v s
  else if a = Reg.ING_CTRL then ingCtrl src v s
  else if a = Reg.MEM_CTRL then onBit v 1 (execPprRun src) (onBit v 0 (execMemCntClr src) s)
  else if a = Reg.FAB_CTRL then onBit v 1 (execFabCntClr src) (onBit v 0 (execDiscRun src) s)
  else if a = Reg.HST_CTRL then onBit v 0 (execHstCntClr src) (putReg a v s)
  else if a = Reg.TSM_CTRL then onBit v 0 (execTsmCntClr src) s
  else if a = Reg.MGT_CTRL then onBit v 0 (execMgtCntClr src) s
  else if a = Reg.SPR_CTRL then onBit v 0 (execBraze src) s
  else if a = Reg.ING_HOST_ACK then execIngHostAck src w s
  else if a = Reg.HST_OWNER then execHstOwnerWrite src w s
  else if a = Reg.NVS_MIN_SVN then execNvsMinSvnWrite src w s
  else if a = Reg.CAL_TRIM then execCalTrimWrite src w s
  else if a = Reg.TSM_URGENT then execTsmUrgent src w s
  else if a = Reg.TSM_CH_WIN then execTsmChWinWrite src w s
  else if a = Reg.PWR_VCORE then execPwrVcoreWrite src w s
  else if a = Reg.PWR_RTC_HI then execPwrRtcHiWrite src w s
  else if a = Reg.PWR_ALARM_HI then execPwrAlarmHiWrite src w s
  else if a = Reg.PWR_STRETCH then localLevel (putReg a v s)
  else if a = Reg.PWR_PLIM ∨ a = Reg.PWR_ILIM then capLimits (putReg a v s)
  else if a = Reg.PWR_STICKY then putReg a (setBits v 5 5 0) s
  else if a = Reg.SPR_CMAP then cmapWrite v s
  else if a = Reg.SPR_COLMAP then colmapWrite v s
  else if a = Reg.SPR_ARRAY then sprArrayWrite v s
  else if Reg.HST_QP_CTX0 ≤ a ∧ a ≤ Reg.HST_QP_CTX7 then qpCtxWrite ((a - Reg.HST_QP_CTX0) / 4) v s
  else if isEntry a then entryWrite a v s
  else pkgFreed a (putReg a v s)

/-- A whole word written to the register at byte address `a`, a multiple of 4. -/
def ctlWriteWord (src : Source) (a v : Nat) (s : State) : State :=
  match cellWindow s a with
  | some w =>
    if !cellHolds w.2.1 then s
    else if w.2.2.isNone && (logicalOf s w.1).isSome then s
    else if cellAsleep s w.1 then accFirst 2 src a s
    else if castingRuns s && (w.2.2.isNone || cellLocked w.2.1) then accState src a s
    else if w.2.2.isNone && cellFilling s w.1 then accState src a s
    else cellWrite w.1 w.2.1 v s
  | none => if locked a && castingRuns s then accState src a s else pkgWrite src a v s

/-- A write of `size` bytes at byte address `a`: a whole aligned word is written; a register covered in part is not (R6). -/
def ctlWrite (src : Source) (a v size : Nat) (s : State) : State :=
  if a % 4 = 0 ∧ size = 4 then ctlWriteWord src a v s
  else
    let part := fun (x : Nat) (s : State) => if holdsReg s x then accFirst 1 src x s else s
    each ((List.range 2).map fun i => a / 4 * 4 + 4 * i) (fun x s => if x < a + size ∧ size ≠ 0 then part x s else s) s

/-- A read that the crossbar serves (R36, R478). -/
def servedRead (src : Source) (a : Nat) (s : State) : Nat × State := ctlRead src a (arrive s)

/-- A write that the crossbar serves (R36, R478). -/
def servedWrite (src : Source) (a v size : Nat) (s : State) : State := ctlWrite src a v size (arrive s)

/-- REGISTER_WRITE. -/
def execRegisterWrite (src : Source) (addr : BitVec 32) (value : Word) (size : Fin 5) (s : State) : State :=
  ctlWrite src addr.toNat value.toNat size.val s

end Sys2Proof.Machine
end

