-- ==== Sys2Proof/Machine/HostRx.lean ====
section
/-! DEFINITION. What arrives at the host ports (12): ARP, Neighbour Solicitations, echo requests and other frames, RoCE v2 requests and
answers, and the timers of the RoCE engine. An RDMA or SEND command carries one message; it takes as many PSNs as it has packets at
the path MTU. Syndromes and READ response opcodes are InfiniBand's (PRESUMED, log 15). -/
namespace Sys2Proof.Machine

/-! ### Ethernet and IP (R307 to R309, R444) -/

/-- Whether a host port has a configured address record. -/
def hostHas (s : State) (port : Nat) : Bool := hostRec s port != []

/-- The value of bytes in network order, first byte most significant. -/
def beNat (b : List Byte) : Nat := leNat b.reverse

/-- A host port is up (R309). -/
def hostUp (s : State) (port : Nat) : Bool := fld s (Reg.HST_PORT + 4 * port) 0 0 == 1

/-- The management port answers: its link is up and the hub's main domain runs (R444, R449). -/
def mgmtUp (s : State) : Bool := s.mgt.link && hubRuns s

/-- The management IPv6 address as a number. -/
def mgmtIp (s : State) : Nat := beNat (mgmtAddr s)

/-- MAC of a port, port 4 the management port. -/
def portMac (s : State) (port : Nat) : List Byte := if port = 4 then mgmtMac s else ((hostRec s port).drop 1).take 6

/-- Whether an IPv6 address is the port's own. -/
def ownIp6 (s : State) (port addr : Nat) : Bool :=
  if port = 4 then addr == mgmtIp s else hostHas s port && addr == beNat (((hostRec s port).drop 13).take 16)

/-- Whether an IPv4 address is the host port's own. -/
def ownIp4 (s : State) (port addr : Nat) : Bool := hostHas s port && addr == beNat (((hostRec s port).drop 9).take 4)

/-- A frame is discarded: a host port counts it (R308, R444). -/
def discard (port : Nat) (s : State) : State := if port < 4 ∧ hostUp s port then bump Reg.HST_RX_DROPS s else s

/-- Whether a port takes part. -/
def answers (s : State) (port : Nat) : Bool := if port = 4 then mgmtUp s else hostUp s port

/-- The 802.1Q tag of a port's frames, 0 for none (R307); the management port has none. -/
def portVlan (s : State) (port : Nat) : Nat := if port = 4 then 0 else hostVlan s port

/-- ARP_REQUEST: answered for the port's own address: its MAC, its address, and the sender (R307, R308). `vlan` is the frame's 802.1Q tag. -/
def execArpRequest (port : Fin 4) (vlan : BitVec 16) (target : BitVec 32) (sender : List Byte) (s : State) : State :=
  if hostUp s port.val && vlan.toNat == portVlan s port.val && ownIp4 s port.val target.toNat then
    emit (.frame port.val 0 vlan.toNat (portMac s port.val ++ natBE 4 target.toNat ++ sender)) s
  else discard port.val s

/-- NEIGHBOUR_SOLICITATION: answered for the port's own address (R308, R444). -/
def execNeighbourSolicitation (port : Fin 5) (vlan : BitVec 16) (target : BitVec 128) (sender : List Byte) (s : State) : State :=
  if answers s port.val && vlan.toNat == portVlan s port.val && ownIp6 s port.val target.toNat then
    emit (.frame port.val 1 vlan.toNat (portMac s port.val ++ natBE 16 target.toNat ++ sender)) s
  else discard port.val s

/-- ICMP_ECHO_REQUEST: answered up to 1,500 bytes; the management port uses only IPv6 (R308, R444). -/
def execIcmpEchoRequest (port : Fin 5) (vlan : BitVec 16) (v6 : Bool) (target : BitVec 128) (payload : List Byte) (s : State) : State :=
  let own := if v6 then ownIp6 s port.val target.toNat else port.val != 4 && ownIp4 s port.val target.toNat
  if answers s port.val && vlan.toNat == portVlan s port.val && own && decide (payload.length ≤ 1500) then
    emit (.frame port.val 2 vlan.toNat payload) s
  else discard port.val s

/-- FRAME_DISCARD: any other frame. `unsup` says that it is a RoCE v2 packet with an opcode or transport outside R310, for queue pair `qp`
where that exists: the queue pair answers it with a NAK of Invalid Request (R308, R310, R312). -/
def execFrameDiscard (port : Fin 5) (unsup : Bool) (qp : Option (Fin 8192)) (psn : BitVec 24) (s : State) : State :=
  if !unsup || port.val == 4 || !hostUp s port.val then discard port.val s
  else
    let s := sticky Reg.HST_STICKY 0 s
    match qp with
    | some q => if qpListens s q.val then nakError q.val psn 0x61 s else discard port.val s
    | none => discard port.val s

/-- HOST_UNCORRECTABLE_CODEWORD (R330). -/
def execHostUncorrectableCodeword (port : Fin 4) (s : State) : State :=
  if hostUp s port.val then sticky (Reg.HST_PORT + 4 * port.val) 1 s else s

/-! ### Order of requests (R313, R328) -/

/-- A CE-marked packet is answered with a Congestion Notification Packet, at most one per HST_CC.cnp_us (R328). -/
def congested (q : Nat) (ce : Bool) (s : State) : State :=
  let x := qpAt s q
  let quiet := match x.cnpAt with
    | some t => decide (s.time.cycles < t + 25 * fld s Reg.HST_CC 27 20)
    | none => false
  if !ce || quiet then s
  else emitPacket q 0x81 0 0 [] (bump Reg.HST_CNP_TX (setQp q { x with cnpAt := some s.time.cycles } s))

/-- A duplicate WRITE or SEND is acknowledged again (R313). -/
def ackAgain (q : Nat) (s : State) : State := sendAck q (setQp q { qpAt s q with ackOwed := (qpAt s q).ackOwed + 1 } s)

/-- A PSN gap is answered once with a NAK of PSN Sequence Error for the PSN expected (R313). -/
def psnGap (q : Nat) (s : State) : State :=
  if (qpAt s q).nakSent then s
  else sendNak q (BitVec.ofNat 24 (ctx s q 3)) 0x60 (setQp q { qpAt s q with nakSent := true } s)

/-- PSN of a message against the one expected: in order, a duplicate, or after a gap. -/
def psnLag (s : State) (q : Nat) (psn : BitVec 24) : Nat := (BitVec.ofNat 24 (ctx s q 3) - psn).toNat

/-- A request of `n` packets arrives on a queue pair: the answer to one that its class does not admit, what a duplicate does, and what the
request does in its order (R311 to R314). `body` answers whether it was carried out and is to be acknowledged. -/
def request (q cls : Nat) (psn : BitVec 24) (ce : Bool) (n : Nat) (dup : State → State) (body : State → Bool × State) (s : State) : State :=
  if !qpListens s q then s
  else
    let s := congested q ce s
    let lag := psnLag s q psn
    if qpClass s q ≠ cls then nakError q psn 0x61 s
    else if lag ≠ 0 then (if lag < 2 ^ 23 then dup s else psnGap q s)
    else
      let r := body s
      if r.1 && qpListens r.2 q then
        let s := setCtx q 3 23 0 ((psn.toNat + n) % 2 ^ 24) r.2
        oweAck q n (setQp q { qpAt s q with nakSent := false } s)
      else r.2

/-! ### SEND to the mailbox (R320) -/

/-- MAILBOX_SEND: the 64 bytes take the next free entry and count into the producer index. -/
def execMailboxSend (qp : Fin 8192) (psn : BitVec 24) (ce : Bool) (payload : List Byte) (s : State) : State :=
  let q := qp.val
  request q 0 psn ce (max 1 (ceilDiv payload.length (qpMtu s q))) (ackAgain q) (fun s =>
    if payload.length ≠ 64 then (false, nakError q psn 0x61 s)
    else
      let k := rd s Reg.HST_MBOX_PROD
      if 64 ≤ (k + 2 ^ 32 - rd s Reg.HST_MBOX_CONS) % 2 ^ 32 then
        (false, sticky Reg.HST_STICKY 6 (sendNak q psn (0x20 + bits (ctx s q 0) 25 21) s))
      else
        let s := mboxPut (k % 64) payload (wr Reg.HST_MBOX_PROD (k + 1) s)
        (true, { s with host := { s.host with from_ := put (fun _ => 0) s.host.from_ (k % 64) (q + 1) } })) s

/-! ### Regions and protections (R315 to R318, R365, R404) -/

/-- Where an access by remote key goes: the control window, DRAM from an address, or a failure with its HST_STICKY bit (R315, R316). -/
def regionOf (s : State) (rkey va n : Nat) (write : Bool) : Option Nat × Nat :=
  let i := rkey % 256
  let tag := rkey / 256
  if i = 0 then
    if tag ≠ fld s Reg.HST_KEY0 23 0 then (none, 2)
    else if 0x14000000 < va + n then (none, 3)
    else (some 0, 0)
  else
    let key := rd s (bankKey Reg.HST_MR_KEY i)
    let base := 4096 * fld s (bankKey Reg.HST_MR_BASE i) 26 0
    let len := 4096 * fld s (bankKey Reg.HST_MR_LEN i) 26 0
    let va0 := rd s (bankKey Reg.HST_MR_VA_LO i) / 4096 * 4096 + 2 ^ 32 * rd s (bankKey Reg.HST_MR_VA_HI i)
    if bits key 26 26 = 0 ∨ bits key 23 0 ≠ tag ∨ bits key (if write then 25 else 24) (if write then 25 else 24) = 0 then (none, 2)
    else if va < va0 ∨ va0 + len < va + n then (none, 3)
    else (some (base + (va - va0)), 1)

/-- The intake entry in use by ring `d`: base and bytes (R325, R326). -/
def intakeEntry (s : State) (d : Nat) : Nat × Nat :=
  let size := 2 ^ 20 * fld s (Reg.HST_INTAKE_GEOM + 4 * d) 31 16
  let n := fld s (Reg.HST_INTAKE_GEOM + 4 * d) 15 0
  (2 ^ 20 * fld s (Reg.HST_INTAKE_BASE + 4 * d) 18 0 + rd s Reg.HST_INTAKE_BATCH % max 1 n * size, size)

/-- Areas of DRAM that the part protects against host writes now, as first byte and length: R317 while a casting loads, is loaded or runs;
R365 the mould while an ingot is under way, and guest slots held or filling. -/
def protectedSpans (s : State) : List (Nat × Nat) :=
  let t := schState s
  let dies := List.range 4
  let image := match s.casting with
    | some c => (c.addr, c.len) :: if t == 1 && !declarationOk s then [] else dies.map (streamRegion s)
    | none => []
  let masters := dies.flatMap fun d => [bufferSpan s d 0, bufferSpan s d 1]
  let rings := (dies.filter fun d => fld s Reg.HST_INTAKE_CTRL d d == 1 && !s.run.newBatch).map (intakeEntry s)
  let job := if 1 ≤ t ∧ t ≤ 4 then (imageAddr s, 512) :: (image ++ masters ++ rings) else []
  let mould := if stage s = 0 then [] else [(mouldBase s, 65536 * rd s Reg.ING_MOULD_LEN)]
  let filling := fun (k : Nat) => s.ing.incoming.any fun x => x.slot == k && x.status.isNone
  let guests := ((List.range 2).filter fun k => guestHeld s k || filling k).map fun k => (guestBase s k, 65536 * rd s Reg.ING_GUEST_LEN)
  job ++ mould ++ guests

/-- Whether a host write is refused (R317, R365). -/
def hostRefused (s : State) (a n : Nat) : Bool := (protectedSpans s).any fun r => overlap r.1 r.2 a n

/-- The regions of the QUENCH image and of the firmware copy (R404). -/
def quenchSpans (s : State) : List (Nat × Nat) :=
  (fwimgBase s, 2 ^ 25) :: (List.range 4).map fun d => (qimgBase s d, 131 * 4194304)

/-- A host write is placed in DRAM; it ends the validity of a QUENCH image it touches, and the mould then holds what the host put there
(R318, R375, R404). -/
def hostPlace (a : Nat) (data : List Byte) (s : State) : State :=
  let n := data.length
  let s := asyncWrite a data s
  let s := if (quenchSpans s).any (fun r => overlap r.1 r.2 a n) then setFld Reg.PWR_STATUS 7 7 0 s else s
  if overlap (mouldBase s) (65536 * rd s Reg.ING_MOULD_LEN) a n then { s with ing := { s.ing with mouldVoid := false } } else s

/-- The words that a span of the control window covers: address, first byte of the data, bytes of the word covered. -/
def windowWords (va n : Nat) : List (Nat × Nat × Nat) :=
  (List.range ((va % 4 + n + 3) / 4)).map fun i =>
    let a := va / 4 * 4 + 4 * i
    let lo := max a va
    (lo, lo - va, min (a + 4) (va + n) - lo)

/-- A host write of the control window, word by word in ascending address order (R6, R316). -/
def windowWrite (va : Nat) (data : List Byte) (s : State) : State :=
  each (windowWords va data.length) (fun (w : Nat × Nat × Nat) s =>
    servedWrite .host w.1 (leNat ((data.drop w.2.1).take w.2.2)) w.2.2 s) s

/-- A host read of the control window: the addressed bytes of each word (R6, R316). -/
def windowRead (va n : Nat) (s : State) : List Byte × State :=
  (windowWords va n).foldl (fun (r : List Byte × State) w =>
    let x := servedRead .host w.1 r.2
    (r.1 ++ (natLE 4 x.1).drop (w.1 % 4) |>.take (w.2.1 + w.2.2), x.2)) ([], s)

/-- Whether a write of the control window covers HST_OWNER (R329). -/
def ownerTouched (va n : Nat) : Bool := overlap Reg.HST_OWNER 4 va n

/-- RDMA_WRITE (R315 to R318): key, bounds and protections, then the data. A write of HST_OWNER takes effect after its acknowledgement
(R329). -/
def execRdmaWrite (qp : Fin 8192) (psn : BitVec 24) (ce : Bool) (rkey : Word) (va : BitVec 64) (payload : List Byte) (s : State) : State :=
  let q := qp.val
  let n := payload.length
  let pkts := max 1 (ceilDiv n (qpMtu s q))
  let where_ := regionOf s rkey.toNat va.toNat n true
  let late := where_.1 == some 0 && where_.2 == 0 && ownerTouched va.toNat n
  let go := qpListens s q && psnLag s q psn == 0 && qpClass s q == 1
  let s := request q 1 psn ce pkts (ackAgain q) (fun s =>
    match where_ with
    | (none, bit) => (false, nakError q psn 0x62 (sticky Reg.HST_STICKY bit s))
    | (some a, kind) =>
      if kind = 0 then (true, if late then s else windowWrite va.toNat payload s)
      else if hostRefused s a n then (false, nakError q psn 0x62 (sticky Reg.HST_STICKY 4 s))
      else (true, hostPlace a payload s)) s
  if late && go then windowWrite va.toNat payload (sendAck q s) else s

/-! ### READ (R313, R318) -/

/-- Opcode of READ response packet `i` of `n` (log 15). -/
def readOpcode (i n : Nat) : Nat := if n = 1 then 0x10 else if i = 0 then 0x0D else if i + 1 = n then 0x0F else 0x0E

/-- Sends the response packets of a READ from DRAM from packet `i` on, up to the packet that meets an uncorrectable line; whether all
were sent. -/
def readPackets (q a len mtu n : Nat) (psn : BitVec 24) : Nat → Nat → State → Bool × State
  | 0, _, s => (true, s)
  | f + 1, i, s =>
    let m := min mtu (len - mtu * i)
    let r := readSpan (a + mtu * i) m s
    if !r.1 && m != 0 then
      (false, nakError q (psn + BitVec.ofNat 24 i) 0x63 (sticky Reg.HST_STICKY 5 r.2))
    else
      readPackets q a len mtu n psn f (i + 1)
        (emitPacket q (readOpcode i n) (psn + BitVec.ofNat 24 i) 0 (dramGet r.2 (a + mtu * i) m) r.2)

/-- Carries out a READ: whether it was answered whole, and the state after it. -/
def serveRead (q : Nat) (psn : BitVec 24) (rkey va len mtu n : Nat) (s : State) : Bool × State :=
  match regionOf s rkey va len false with
  | (none, bit) => (false, nakError q psn 0x62 (sticky Reg.HST_STICKY bit s))
  | (some a, kind) =>
    if kind ≠ 0 then readPackets q a len mtu n psn n 0 s
    else if 4096 < len then (false, nakError q psn 0x61 s)
    else
      let r := windowRead va len s
      (true, each (List.range n) (fun i s =>
        emitPacket q (readOpcode i n) (psn + BitVec.ofNat 24 i) 0 ((r.1.drop (mtu * i)).take mtu) s) r.2)

/-- RDMA_READ_REQUEST: answered in response packets, which acknowledge what came before; a duplicate is executed again (R313, R315,
R316, R318). -/
def execRdmaReadRequest (qp : Fin 8192) (psn : BitVec 24) (ce : Bool) (rkey : Word) (va : BitVec 64) (len : BitVec 32) (s : State) : State :=
  let q := qp.val
  let mtu := qpMtu s q
  let n := max 1 (ceilDiv len.toNat mtu)
  let serve := serveRead q psn rkey.toNat va.toNat len.toNat mtu n
  request q 1 psn ce n (fun s => (serve s).2) (fun s =>
    let r := serve s
    if r.1 && qpListens r.2 q then
      let s := setCtx q 3 23 0 ((psn.toNat + n) % 2 ^ 24) r.2
      (false, setQp q { qpAt s q with nakSent := false, ackOwed := 0 } s)
    else r) s

/-! ### The part as requester (R312, R313, R322, R328) -/

/-- Whether a queue pair may send (R312). -/
def qpSends (s : State) (q : Nat) : Bool := qpListens s q && qpState s q == 3

/-- Whether a PSN is at or after another in the 24-bit order. -/
def psnAtOrAfter (a b : BitVec 24) : Bool := decide ((a - b).toNat < 2 ^ 23)

/-- Every packet before `psn` is acknowledged. -/
def ackedBefore (q : Nat) (psn : BitVec 24) (s : State) : State :=
  let x := qpAt s q
  let left := x.unacked.filter fun p => psnAtOrAfter p.psn psn
  if left.length = x.unacked.length then s else setQp q { x with unacked := left, retries := 0, rnrTries := 0, sentAt := s.time.cycles } s

/-- ACKNOWLEDGE: an acknowledgement, a NAK of PSN Sequence Error, an RNR NAK, or another NAK, of the part's own requests; then the host stage
of an ingot goes on (R312, R313, R322, R371). -/
def execAcknowledge (qp : Fin 8192) (psn : BitVec 24) (syndrome : Byte) (s : State) : State :=
  let q := qp.val
  let y := syndrome.toNat
  if !qpSends s q || !((qpAt s q).unacked.any fun p => p.psn == psn) then s
  else
    let owed := hostOwed s q
    let s :=
      if bits y 6 5 = 0 then
        let s := ackedBefore q (psn + 1) s
        setQp q { qpAt s q with rnrWait := false } s
      else if bits y 6 5 = 1 then
        let s := ackedBefore q psn s
        setQp q { qpAt s q with rnrWait := true, rnrSyn := y } s
      else if y = 0x60 then resend q (ackedBefore q psn s)
      else qpError q y (ackedBefore q psn s)
    hostProgress q owed s

/-- Lets time pass until `n` always-on cycles after cycle `from_`. -/
def sinceCycle (from_ n : Nat) (s : State) : State := toCycle (81 * (from_ + n - s.time.cycles)) (from_ + n) s

/-- Always-on cycles of the retransmission time-out of a queue pair: 4.096 µs × 2^timeout (R313). -/
def retransmitCycles (s : State) (q : Nat) : Nat := ceilDiv (1024 * 2 ^ bits (ctx s q 0) 14 10) 10

/-- RETRANSMIT_TIMEOUT: the time-out passes with no acknowledgement: go-back-N, or ERROR when `retry` attempts are spent (R312, R313). -/
def execRetransmitTimeout (qp : Fin 8192) (s : State) : State :=
  let q := qp.val
  let x := qpAt s q
  if !qpSends s q || x.unacked.isEmpty || x.rnrWait then s
  else
    let s := sinceCycle x.sentAt (retransmitCycles s q) s
    let y := qpAt s q
    if bits (ctx s q 0) 17 15 ≤ y.retries then qpError q 0 s
    else resend q (setQp q { y with retries := y.retries + 1 } s)

/-- RNR_TIMER: the SEND goes again, or ERROR when `rnr_retry` attempts are spent; 7 is unlimited (R312, R322, R330). -/
def execRnrTimer (qp : Fin 8192) (s : State) : State :=
  let q := qp.val
  let x := qpAt s q
  let limit := bits (ctx s q 0) 20 18
  if !qpSends s q || !x.rnrWait then s
  else if limit ≠ 7 ∧ limit ≤ x.rnrTries then qpError q x.rnrSyn s
  else resend q (setQp q { x with rnrWait := false, rnrTries := x.rnrTries + 1 } s)

/-- ACK_COALESCE_TIMER: 2 µs after a packet its acknowledgement leaves (R313). -/
def execAckCoalesceTimer (qp : Fin 8192) (s : State) : State :=
  let q := qp.val
  if qpListens s q && (qpAt s q).ackOwed != 0 then sendAck q (sinceCycle (qpAt s q).ackAt 50 s) else s

/-- α of a queue pair in units of 2⁻²⁰; it starts at 1, which the field of HST_QP_CTX6 does not hold (R328). -/
def alphaOf (s : State) (q : Nat) : Nat := if (qpAt s q).rateSet then bits (ctx s q 6) 31 12 else 2 ^ 20

/-- Sets the rate and α of a queue pair; an α of 1 reads as the reset value. -/
def setRate (q rate alpha : Nat) (s : State) : State :=
  let s := setCtx q 6 31 0 (rate % 4096 + 4096 * (alpha % 2 ^ 20)) s
  setQp q { qpAt s q with rateSet := decide (alpha < 2 ^ 20), rateAt := s.time.cycles } s

/-- CONGESTION_NOTIFICATION: rate and α after a CNP (R328). -/
def execCongestionNotification (qp : Fin 8192) (s : State) : State :=
  let q := qp.val
  if !qpSends s q then s
  else
    let alpha := alphaOf s q
    let rate := max (fld s Reg.HST_CC 19 12) (bits (ctx s q 6) 11 0 * (2 ^ 21 - alpha) / 2 ^ 21)
    setRate q rate (alpha + (2 ^ 20 - alpha) / 16) (bump Reg.HST_CNP_RX s)

/-- RATE_INCREASE_TIMER: 55 µs without a CNP (R327, R328): the line rate is 2,000 units of 100 Mbit/s. -/
def execRateIncreaseTimer (qp : Fin 8192) (s : State) : State :=
  let q := qp.val
  if !qpSends s q then s
  else
    let s := sinceCycle (qpAt s q).rateAt 1375 s
    setRate q (min 2000 (bits (ctx s q 6) 11 0 + fld s Reg.HST_CC 11 0)) (alphaOf s q * 15 / 16) s

end Sys2Proof.Machine
end

