-- ==== Sys2Proof/Machine/Mgmt.lean ====
section
/-! DEFINITION. Management (19): the tally protocol, the drawn-wire interface and the SGMII link. A tally command is a
request as it arrives (R449); a DWI command is a whole frame (R454). -/
namespace Sys2Proof.Machine

/-! ### The tally protocol (R445 to R450) -/

/-- A field of a message. -/
def msgField (m : List Byte) (off n : Nat) : Nat := leNat ((m.drop off).take n)

/-- Bytes of a message before its tag. -/
def msgBody (m : List Byte) : List Byte := m.take (m.length - 16)

/-- The tally key of the configuration (record 0x0009). -/
def tallyKey (s : State) : List Byte := (((cfgRec s 9).getD []).drop 72).take 32

/-- The tag of a message (R446), 16 zero bytes in the safe state (R450). -/
def tallyTag (s : State) (body : List Byte) : List Byte :=
  if safeState s then List.replicate 16 0 else shake256 (tallyKey s ++ body) 16

/-- Whether a request passes R446; in the safe state the tag is ignored (R450). -/
def tallyAuth (s : State) (m : List Byte) : Bool :=
  decide (40 ≤ m.length) && (safeState s || m.drop (m.length - 16) == tallyTag s (msgBody m)) && msgField m 0x14 2 == ownAddr s

/-- Whether every field is in its range and the length agrees with count (R445, R448). -/
def tallyForm (op : Nat) (m : List Byte) : Bool :=
  let count := msgField m 6 2
  msgField m 0 4 == 0x594C5451 && msgField m 4 1 == 1 && msgField m 5 1 == op && decide (1 ≤ count) && decide (count ≤ 256)
    && msgField m 0x10 4 % 4 == 0 && msgField m 0x17 1 == 0
    && m.length == 0x18 + (if op = 2 then 4 * count else 0) + 16

/-- What the safe state allows: reads of the CAP, PWR, HLT, NVS and MGT blocks and a write of NVS_CTRL.retry (R434, R450). -/
def safeAllows (op : Nat) (m : List Byte) : Bool :=
  let a := msgField m 0x10 4
  let count := msgField m 6 2
  if op = 1 then
    (List.range count).all fun i => a + 4 * i < 0x10000000 && [0, 2, 6, 11, 12].contains ((a + 4 * i) / 65536)
  else a == Reg.NVS_CTRL && count == 1 && msgField m 0x18 4 == 2

/-- A response to a request: op with bit 7, the epoch, the status and the data (R445). -/
def tallyResponse (s : State) (m : List Byte) (epoch status : Nat) (data : List Byte) : List Byte :=
  let body := natLE 4 0x594C5451 ++ natLE 1 1 ++ natLE 1 (msgField m 5 1 ||| 0x80) ++ natLE 2 (msgField m 6 2) ++ natLE 4 epoch
    ++ natLE 4 (msgField m 0xC 4) ++ natLE 4 (msgField m 0x10 4) ++ natLE 2 (ownAddr s) ++ natLE 1 status ++ natLE 1 0 ++ data
  body ++ tallyTag s body

/-- Reads words of the control window in ascending order as management. -/
def tallyWords (a count : Nat) (s : State) : List Byte × State :=
  (List.range count).foldl (fun (r : List Byte × State) i =>
    let x := servedRead .mgmt (a + 4 * i) r.2
    (r.1 ++ natLE 4 x.1, x.2)) ([], s)

/-- Performs a request of a later sequence number: its status, its data and the state after it (R448, R450). -/
def tallyRun (op : Nat) (m : List Byte) (s : State) : Nat × List Byte × State :=
  let a := msgField m 0x10 4
  let count := msgField m 6 2
  if !tallyForm op m then (4, [], s)
  else if 0x14000000 < a + 4 * count then (1, [], s)
  else if safeState s && !safeAllows op m then (2, [], s)
  else if op = 1 then
    let r := tallyWords a count s
    (0, r.1, r.2)
  else
    (0, [], each (List.range count) (fun i s => servedWrite .mgmt (a + 4 * i) (msgField m (0x18 + 4 * i) 4) 4 s) s)

/-- A tally request joins those that are served, one at a time in order of arrival (R449). -/
def tallyTaken (s : State) : State :=
  let busy := tallyBusy s
  let start := busy.foldl max s.time.cycles
  { s with mgt := { s.mgt with serving := busy ++ [start + Config.tallyCycles start] } }

/-- A tally request is carried out (R446 to R450). -/
def tallyServed (op : Nat) (m : List Byte) (s : State) : State :=
  if !tallyAuth s m then
    let s := sticky Reg.MGT_STICKY 0 (bump Reg.MGT_TALLY_REJ s)
    record 17 [] (rd s Reg.MGT_STICKY) s
  else
    let epoch := rd s Reg.MGT_EPOCH
    let seq := msgField m 0xC 4
    let last := rd s Reg.MGT_TALLY_SEQ
    if msgField m 8 4 ≠ epoch then emit (.tally (tallyResponse s m epoch 3 [])) s
    else if seq = last then (if s.mgt.lastResp = [] then s else emit (.tally s.mgt.lastResp) s)
    else if !laterSeq (BitVec.ofNat 32 seq) (BitVec.ofNat 32 last) then sticky Reg.MGT_STICKY 1 (bump Reg.MGT_TALLY_REJ s)
    else
      let r := tallyRun op m s
      let resp := tallyResponse s m epoch r.1 r.2.1
      let t := wr Reg.MGT_TALLY_SEQ seq r.2.2
      let t := if r.1 = 0 then bump Reg.MGT_TALLY_OK t else t
      emit (.tally resp) { t with mgt := { t.mgt with lastResp := resp } }

/-- A tally request of an op arrives: it is dropped while the hub's main domain does not run, and where eight wait beside the one in service
(R449). Its effect is carried out as it is taken (log 79). -/
def tally (op : Nat) (m : List Byte) (s : State) : State :=
  if !mgmtUp s then s
  else if 9 ≤ (tallyBusy s).length then sticky Reg.MGT_STICKY 2 s
  else tallyServed op m (tallyTaken s)

/-- TALLY_READ: a request that asks for no other valid op. -/
def execTallyRead (msg : List Byte) (s : State) : State := if msgField msg 5 1 = 2 then s else tally 1 msg s

/-- TALLY_WRITE. -/
def execTallyWrite (msg : List Byte) (s : State) : State := if msgField msg 5 1 = 1 then s else tally 2 msg s

/-! ### The drawn-wire interface (R454 to R456) -/

/-- Whether a frame's address matches the package, which is out of reset (R454, R455); an invalid address matches none (R29). -/
def dwiMatch (s : State) (addr : BitVec 16) : Bool :=
  !s.pwr.inReset && validAddr addr.toNat && (addr.toNat == fld s Reg.MGT_DWI 15 0 || addr.toNat == 0xFFFF)

/-- DWI_WAKE: a matching package that is entering or in BANK or QUENCH latches the wake (R405, R454). -/
def execDwiWake (addr : BitVec 16) (s : State) : State :=
  if !dwiMatch s addr then s
  else
    let s := bump Reg.MGT_DWI_FRAMES s
    if sleeping s then { s with pwr := { s.pwr with dwiLatch := true } } else s

/-- Registers that the always-on domain serves by itself (R397, R434, R455). -/
def alwaysOnReg (a : Nat) : Bool :=
  (a / 65536 == 2)
    || [Reg.HLT_STICKY0, Reg.HLT_ACC_FIRST, Reg.HLT_AREC_SEQ_LO, Reg.HLT_AREC_SEQ_HI, Reg.HLT_RISK, Reg.HLT_RISK_CFG, Reg.ING_LAST_SERIAL, Reg.ING_SEC_SERIAL,
        Reg.ING_SEC_VER, Reg.MGT_EPOCH, Reg.MGT_TALLY_SEQ, Reg.MGT_DWI, Reg.NVS_STATUS].contains a
    || (decide (Reg.HLT_RISK_W ≤ a) && decide (a < Reg.HLT_RISK_W + 32))

/-- A DWI read: through the crossbar while the hub's main domain runs, else of the always-on domain alone; of NVS_STATUS that holds boot and
fail_code (R434, R455). -/
def dwiWord (a : Nat) (s : State) : Nat × State :=
  if hubRuns s then servedRead .dwi a s
  else if !alwaysOnReg a then (0, s)
  else
    let r := servedRead .dwi a s
    (if a = Reg.NVS_STATUS then r.1 % 1024 else r.1, r.2)

/-- DWI_READ: the addressed package returns the word; a READ to 0xFFFF is ignored (R454). -/
def execDwiRead (addr : BitVec 16) (offset : BitVec 18) (s : State) : State :=
  if !dwiMatch s addr || addr.toNat == 0xFFFF then s
  else
    let r := dwiWord (4 * offset.toNat) (bump Reg.MGT_DWI_FRAMES s)
    emit (.dwi (BitVec.ofNat 32 r.1)) r.2

/-- DWI_TIMEOUT: the frame in progress is dropped (R456). -/
def execDwiTimeout (s : State) : State := if s.pwr.inReset then s else sticky Reg.MGT_STICKY 4 s

/-! ### The management link (R444, R462) -/

/-- SGMII_LINK_LOST. -/
def execSgmiiLinkLost (s : State) : State :=
  if s.mgt.link then sticky Reg.MGT_STICKY 3 { s with mgt := { s.mgt with link := false } } else s

/-- SGMII_LINK_UP. -/
def execSgmiiLinkUp (s : State) : State := if s.pwr.inReset then s else { s with mgt := { s.mgt with link := true } }

end Sys2Proof.Machine
end

