-- ==== Sys2Proof/Machine/Meanings.lean ====
section
/-! DEFINITION. The meaning of each command, one definition per row of the opcode table: the command's effect on everything but the
queue of waiting commands. No command ends the part without a next state: its faults are states (R57, R410, R472). -/
namespace Sys2Proof.Machine

/-- A command is served: its effect on everything but the queue. -/
def served (f : State → State) (s : State) : Host.Outcome State Fault Refusal := .next (withQueue s.pending (f s))

/-- A command that comes by the control crossbar. -/
def accessed (f : State → State) (s : State) : Host.Outcome State Fault Refusal := served (crossbar f) s

/-- HOLD. -/
def doHold (head : BitVec 8) (w : Slot) (s : State) : Host.Outcome State Fault Refusal := served (execHold head w) s
/-- EVAL. -/
def doEval (w : Slot) (s : State) : Host.Outcome State Fault Refusal := served (execEval w) s
/-- EVAL8. -/
def doEval8 (w : Slot) (s : State) : Host.Outcome State Fault Refusal := served (execEval8 w) s
/-- ASSAY. -/
def doAssay (w : Slot) (s : State) : Host.Outcome State Fault Refusal := served (execAssay w) s
/-- WRITE. -/
def doWrite (w : Slot) (s : State) : Host.Outcome State Fault Refusal := served (execWrite w) s
/-- SWEEP. -/
def doSweep (w : Slot) (s : State) : Host.Outcome State Fault Refusal := served (execSweep w) s
/-- REPLAY. -/
def doReplay (w : Slot) (s : State) : Host.Outcome State Fault Refusal := served (execReplay w) s
/-- CLEAR. -/
def doClear (w : Slot) (s : State) : Host.Outcome State Fault Refusal := served (execClear w) s
/-- PRELOAD. -/
def doPreload (w : Slot) (s : State) : Host.Outcome State Fault Refusal := served (execPreload w) s
/-- DRAIN. -/
def doDrain (w : Slot) (s : State) : Host.Outcome State Fault Refusal := served (execDrain w) s
/-- DRAINCLR. -/
def doDrainclr (w : Slot) (s : State) : Host.Outcome State Fault Refusal := served (execDrainclr w) s
/-- STAGE. -/
def doStage (w : Slot) (s : State) : Host.Outcome State Fault Refusal := served (execStage w) s
/-- GEMM. -/
def doGemm (w : Slot) (s : State) : Host.Outcome State Fault Refusal := served (execGemm w) s
/-- GEMMACC. -/
def doGemmacc (w : Slot) (s : State) : Host.Outcome State Fault Refusal := served (execGemmacc w) s
/-- CHAIN. -/
def doChain (w : Slot) (s : State) : Host.Outcome State Fault Refusal := served (execChain w) s
/-- PERMUTE. -/
def doPermute (w : Slot) (s : State) : Host.Outcome State Fault Refusal := served (execPermute w) s
/-- GATHER. -/
def doGather (w : Slot) (s : State) : Host.Outcome State Fault Refusal := served (execGather w) s
/-- REDUCE. -/
def doReduce (w : Slot) (s : State) : Host.Outcome State Fault Refusal := served (execReduce w) s
/-- SOFTMAX. -/
def doSoftmax (w : Slot) (s : State) : Host.Outcome State Fault Refusal := served (execSoftmax w) s
/-- UPDATE. -/
def doUpdate (w : Slot) (s : State) : Host.Outcome State Fault Refusal := served (execUpdate w) s
/-- COPY. -/
def doCopy (w : Slot) (s : State) : Host.Outcome State Fault Refusal := served (execCopy w) s
/-- LOAD. -/
def doLoad (w : Slot) (s : State) : Host.Outcome State Fault Refusal := served (execLoad w) s
/-- MOV_STORE. -/
def doMovStore (w : Slot) (s : State) : Host.Outcome State Fault Refusal := served (execMovStore w) s
/-- BRIDGE. -/
def doBridge (w : Slot) (s : State) : Host.Outcome State Fault Refusal := served (execBridge w) s
/-- CAPTURE. -/
def doCapture (w : Slot) (s : State) : Host.Outcome State Fault Refusal := served (execCapture w) s
/-- SEND. -/
def doSend (w : Slot) (s : State) : Host.Outcome State Fault Refusal := served (execSend w) s
/-- RECV. -/
def doRecv (w : Slot) (flits : List (Option (List Byte))) (s : State) : Host.Outcome State Fault Refusal := served (execRecv w flits) s
/-- RELAY. -/
def doRelay (w : Slot) (flits : List (Option (List Byte))) (s : State) : Host.Outcome State Fault Refusal := served (execRelay w flits) s
/-- BARRIER. -/
def doBarrier (w : Slot) (s : State) : Host.Outcome State Fault Refusal := served (execBarrier w) s
/-- CASTING_LOAD. -/
def doCastingLoad (src : Source) (s : State) : Host.Outcome State Fault Refusal := accessed (execCastingLoad src) s
/-- CASTING_LOAD_COMPLETE. -/
def doCastingLoadComplete (s : State) : Host.Outcome State Fault Refusal := served execCastingLoadComplete s
/-- ARM. -/
def doArm (src : Source) (s : State) : Host.Outcome State Fault Refusal := accessed (execArm src) s
/-- HALT. -/
def doHalt (src : Source) (s : State) : Host.Outcome State Fault Refusal := accessed (execHalt src) s
/-- LOAD_WINDOW. -/
def doLoadWindow (s : State) : Host.Outcome State Fault Refusal := served execLoadWindow s
/-- VETO_RESULT. -/
def doVetoResult (others : Byte) (s : State) : Host.Outcome State Fault Refusal := served (execVetoResult others) s
/-- COMMIT_RESULT. -/
def doCommitResult (others : Byte) (s : State) : Host.Outcome State Fault Refusal := served (execCommitResult others) s
/-- STEP_PERIOD_END. -/
def doStepPeriodEnd (s : State) : Host.Outcome State Fault Refusal := served execStepPeriodEnd s
/-- STEP_RECORD_COMPLETE. -/
def doStepRecordComplete (buf : Fin 2) (s : State) : Host.Outcome State Fault Refusal := served (execStepRecordComplete buf) s
/-- HALLMARK_VERDICT. -/
def doHallmarkVerdict (unit : Fin 7) (place : Place) (written : BitVec 64) (upset : Upset) (s : State) :
    Host.Outcome State Fault Refusal := served (execHallmarkVerdict unit place written upset.index upset.bits) s
/-- WAKE. -/
def doWake (die : Fin 4) (cell : Fin 256) (at_ : BitVec 32) (s : State) : Host.Outcome State Fault Refusal := served (execWake die cell at_) s
/-- CELL_IN_RUN. -/
def doCellInRun (die : Fin 4) (cell : Fin 256) (s : State) : Host.Outcome State Fault Refusal := served (execCellInRun die cell) s
/-- DOZE. -/
def doDoze (die : Fin 4) (cell : Fin 256) (at_ : BitVec 32) (s : State) : Host.Outcome State Fault Refusal := served (execDoze die cell at_) s
/-- DOZE_COMPLETE. -/
def doDozeComplete (die : Fin 4) (cell : Fin 256) (s : State) : Host.Outcome State Fault Refusal := served (execDozeComplete die cell) s
/-- DIE_UP. -/
def doDieUp (die : Fin 4) (at_ : BitVec 32) (s : State) : Host.Outcome State Fault Refusal := served (execDieUp die at_) s
/-- DIE_REST. -/
def doDieRest (die : Fin 4) (at_ : BitVec 32) (s : State) : Host.Outcome State Fault Refusal := served (execDieRest die at_) s
/-- DIE_AUTO_UP. -/
def doDieAutoUp (s : State) : Host.Outcome State Fault Refusal := served execDieAutoUp s
/-- SLICE_HANDOFF. -/
def doSliceHandoff (die : Fin 4) (cell : Fin 256) (array : Fin 64) (passed : Bool) (s : State) : Host.Outcome State Fault Refusal := served (execSliceHandoff die cell array passed) s
/-- WRITE_VERDICT. -/
def doWriteVerdict (die : Fin 4) (cell : Fin 256) (array : Fin 64) (s : State) : Host.Outcome State Fault Refusal := served (execWriteVerdict die cell array) s
/-- SWEEP_VERDICT. -/
def doSweepVerdict (die : Fin 4) (cell : Fin 256) (array : Fin 64) (s : State) : Host.Outcome State Fault Refusal := served (execSweepVerdict die cell array) s
/-- TRIM_SET_IN_FORCE. -/
def doTrimSetInForce (die : Fin 4) (cell : Fin 256) (array : Fin 64) (s : State) : Host.Outcome State Fault Refusal := served (execTrimSetInForce die cell array) s
/-- ARBITRATION_POINT. -/
def doArbitrationPoint (stack : Fin 8) (pc : Fin 64) (slot : BitVec 32) (reqs : List Req) (s : State) : Host.Outcome State Fault Refusal := served (execArbitrationPoint stack pc slot reqs) s
/-- BANK_REFRESH_DUE. -/
def doBankRefreshDue (stack : Fin 8) (pc : Fin 64) (bank : Fin 16) (s : State) : Host.Outcome State Fault Refusal := served (execBankRefreshDue stack pc bank) s
/-- FORCED_REFRESH. -/
def doForcedRefresh (stack : Fin 8) (pc : Fin 64) (bank : Fin 16) (slot : BitVec 32) (s : State) : Host.Outcome State Fault Refusal := served (execForcedRefresh stack pc bank slot) s
/-- SCRUB. -/
def doScrub (line : BitVec 33) (s : State) : Host.Outcome State Fault Refusal := served (execScrub line) s
/-- STACK_TEMP_READOUT. -/
def doStackTempReadout (temps : List (Option (BitVec 8))) (s : State) : Host.Outcome State Fault Refusal := served (execStackTempReadout temps) s
/-- SLOT_TAG. -/
def doSlotTag (port : Fin 47) (tag : BitVec 24) (news : SlotNews) (s : State) : Host.Outcome State Fault Refusal :=
  served (execSlotTag port tag news.overlapped news.bar news.fixed) s
/-- UNCORRECTABLE_CODEWORD. -/
def doUncorrectableCodeword (phys : Fin 48) (scheduled parcel : Bool) (s : State) : Host.Outcome State Fault Refusal := served (execUncorrectableCodeword phys scheduled parcel) s
/-- BEACON. -/
def doBeacon (phys : Fin 48) (flit : List Byte) (s : State) : Host.Outcome State Fault Refusal := served (execBeacon phys flit) s
/-- BEACON_TIMER. -/
def doBeaconTimer (phys : Fin 48) (s : State) : Host.Outcome State Fault Refusal := served (execBeaconTimer phys) s
/-- LOCK. -/
def doLock (phys : Fin 48) (sent echo : BitVec 64) (offset : BitVec 16) (s : State) : Host.Outcome State Fault Refusal := served (execLock phys sent echo offset) s
/-- MARK. -/
def doMark (forge : Fin 96) (window : BitVec 44) (veto commit : Byte) (freed : List Nat) (s : State) : Host.Outcome State Fault Refusal := served (execMark forge window veto commit freed) s
/-- LANE. -/
def doLane (phys : Fin 48) (lane : Fin 9) (count : BitVec 64) (ack : Bool) (s : State) : Host.Outcome State Fault Refusal := served (execLane phys lane count ack) s
/-- LANE_DEGRADED. -/
def doLaneDegraded (phys : Fin 48) (lane : Fin 9) (dark : Bool) (s : State) : Host.Outcome State Fault Refusal := served (execLaneDegraded phys lane dark) s
/-- LANE_SWAP. -/
def doLaneSwap (phys : Fin 48) (s : State) : Host.Outcome State Fault Refusal := served (execLaneSwap phys) s
/-- HOLD_FLIT. -/
def doHoldFlit (phys : Fin 48) (status : BitVec 2) (fault : Bool) (release : Option (BitVec 64)) (s : State) : Host.Outcome State Fault Refusal := served (execHoldFlit phys status fault release) s
/-- HOLD_RELEASE. -/
def doHoldRelease (s : State) : Host.Outcome State Fault Refusal := served execHoldRelease s
/-- DIM. -/
def doDim (phys : Fin 48) (s : State) : Host.Outcome State Fault Refusal := served (execDim phys) s
/-- CREDIT. -/
def doCredit (phys : Fin 48) (n : Fin 65) (s : State) : Host.Outcome State Fault Refusal := served (execCredit phys n) s
/-- LOSS_OF_LIGHT. -/
def doLossOfLight (phys : Fin 48) (s : State) : Host.Outcome State Fault Refusal := served (execLossOfLight phys) s
/-- PORT_TRAINING. -/
def doPortTraining (phys : Fin 48) (s : State) : Host.Outcome State Fault Refusal := served (execPortTraining phys) s
/-- TRAINING_STAGE_END. -/
def doTrainingStageEnd (phys : Fin 48) (ok : Bool) (s : State) : Host.Outcome State Fault Refusal := served (execTrainingStageEnd phys ok) s
/-- TRAINING_RETRY. -/
def doTrainingRetry (phys : Fin 48) (s : State) : Host.Outcome State Fault Refusal := served (execTrainingRetry phys) s
/-- STRETCH_BOUNDARY. -/
def doStretchBoundary (s : State) : Host.Outcome State Fault Refusal := served execStretchBoundary s
/-- STRETCH_HALFWAY. -/
def doStretchHalfway (s : State) : Host.Outcome State Fault Refusal := served execStretchHalfway s
/-- WINDOW_BOUNDARY. -/
def doWindowBoundary (s : State) : Host.Outcome State Fault Refusal := served execWindowBoundary s
/-- PARCEL. -/
def doParcel (phys : Fin 48) (p : Parcel) (bad : Bool) (s : State) : Host.Outcome State Fault Refusal := served (execParcel phys p bad) s
/-- DATA. -/
def doData (p : Parcel) (s : State) : Host.Outcome State Fault Refusal := served (execData p) s
/-- ACK. -/
def doAck (p : Parcel) (s : State) : Host.Outcome State Fault Refusal := served (execAck p) s
/-- CALL. -/
def doCall (p : Parcel) (s : State) : Host.Outcome State Fault Refusal := served (execCall p) s
/-- TAKE. -/
def doTake (p : Parcel) (s : State) : Host.Outcome State Fault Refusal := served (execTake p) s
/-- FETCH. -/
def doFetch (p : Parcel) (s : State) : Host.Outcome State Fault Refusal := served (execFetch p) s
/-- MOULD_COMPLETE. -/
def doMouldComplete (s : State) : Host.Outcome State Fault Refusal := served execMouldComplete s
/-- BUDDY_TIMEOUT. -/
def doBuddyTimeout (s : State) : Host.Outcome State Fault Refusal := served execBuddyTimeout s
/-- BUDDY_ACK_TIMER. -/
def doBuddyAckTimer (s : State) : Host.Outcome State Fault Refusal := served execBuddyAckTimer s
/-- INGOT_AGE_CALL. -/
def doIngotAgeCall (s : State) : Host.Outcome State Fault Refusal := served execIngotAgeCall s
/-- INGOT_OVERDUE. -/
def doIngotOverdue (s : State) : Host.Outcome State Fault Refusal := served execIngotOverdue s
/-- CALL_REPEAT. -/
def doCallRepeat (s : State) : Host.Outcome State Fault Refusal := served execCallRepeat s
/-- TAKE_REPEAT. -/
def doTakeRepeat (s : State) : Host.Outcome State Fault Refusal := served execTakeRepeat s
/-- ING_CALL. -/
def doIngCall (src : Source) (s : State) : Host.Outcome State Fault Refusal := accessed (execIngCall src) s
/-- ING_RESTORE. -/
def doIngRestore (src : Source) (s : State) : Host.Outcome State Fault Refusal := accessed (execIngRestore src) s
/-- ING_FETCH. -/
def doIngFetch (src : Source) (s : State) : Host.Outcome State Fault Refusal := accessed (execIngFetch src) s
/-- ING_ABANDON. -/
def doIngAbandon (src : Source) (s : State) : Host.Outcome State Fault Refusal := accessed (execIngAbandon src) s
/-- PURGE. -/
def doPurge (src : Source) (s : State) : Host.Outcome State Fault Refusal := accessed (execPurge src) s
/-- ING_HOST_ACK. -/
def doIngHostAck (src : Source) (serial : Word) (s : State) : Host.Outcome State Fault Refusal := accessed (execIngHostAck src serial) s
/-- TALLY_READ. -/
def doTallyRead (msg : List Byte) (s : State) : Host.Outcome State Fault Refusal := served (execTallyRead msg) s
/-- TALLY_WRITE. -/
def doTallyWrite (msg : List Byte) (s : State) : Host.Outcome State Fault Refusal := served (execTallyWrite msg) s
/-- WAKE_FRAME. -/
def doWakeFrame (addr : BitVec 16) (s : State) : Host.Outcome State Fault Refusal := served (execWakeFrame addr) s
/-- DWI_WAKE. -/
def doDwiWake (addr : BitVec 16) (s : State) : Host.Outcome State Fault Refusal := served (execDwiWake addr) s
/-- DWI_READ. -/
def doDwiRead (addr : BitVec 16) (offset : BitVec 18) (s : State) : Host.Outcome State Fault Refusal := served (execDwiRead addr offset) s
/-- DWI_TIMEOUT. -/
def doDwiTimeout (s : State) : Host.Outcome State Fault Refusal := served execDwiTimeout s
/-- ARP_REQUEST. -/
def doArpRequest (at_ : Arrival 4) (target : BitVec 32) (sender : List Byte) (s : State) : Host.Outcome State Fault Refusal :=
  served (execArpRequest at_.port at_.vlan target sender) s
/-- NEIGHBOUR_SOLICITATION. -/
def doNeighbourSolicitation (at_ : Arrival 5) (target : BitVec 128) (sender : List Byte) (s : State) : Host.Outcome State Fault Refusal :=
  served (execNeighbourSolicitation at_.port at_.vlan target sender) s
/-- ICMP_ECHO_REQUEST. -/
def doIcmpEchoRequest (at_ : Arrival 5) (v6 : Bool) (target : BitVec 128) (payload : List Byte) (s : State) : Host.Outcome State Fault Refusal :=
  served (execIcmpEchoRequest at_.port at_.vlan v6 target payload) s
/-- FRAME_DISCARD. -/
def doFrameDiscard (port : Fin 5) (unsup : Bool) (qp : Option (Fin 8192)) (psn : BitVec 24) (s : State) : Host.Outcome State Fault Refusal := served (execFrameDiscard port unsup qp psn) s
/-- MAILBOX_SEND. -/
def doMailboxSend (qp : Fin 8192) (psn : BitVec 24) (ce : Bool) (payload : List Byte) (s : State) : Host.Outcome State Fault Refusal := served (execMailboxSend qp psn ce payload) s
/-- RDMA_WRITE. -/
def doRdmaWrite (qp : Fin 8192) (psn : BitVec 24) (ce : Bool) (rkey : Word) (va : BitVec 64) (payload : List Byte) (s : State) : Host.Outcome State Fault Refusal := served (execRdmaWrite qp psn ce rkey va payload) s
/-- RDMA_READ_REQUEST. -/
def doRdmaReadRequest (qp : Fin 8192) (psn : BitVec 24) (ce : Bool) (rkey : Word) (va : BitVec 64) (len : BitVec 32) (s : State) : Host.Outcome State Fault Refusal := served (execRdmaReadRequest qp psn ce rkey va len) s
/-- ACKNOWLEDGE. -/
def doAcknowledge (qp : Fin 8192) (psn : BitVec 24) (syndrome : Byte) (s : State) : Host.Outcome State Fault Refusal := served (execAcknowledge qp psn syndrome) s
/-- CONGESTION_NOTIFICATION. -/
def doCongestionNotification (qp : Fin 8192) (s : State) : Host.Outcome State Fault Refusal := served (execCongestionNotification qp) s
/-- RETRANSMIT_TIMEOUT. -/
def doRetransmitTimeout (qp : Fin 8192) (s : State) : Host.Outcome State Fault Refusal := served (execRetransmitTimeout qp) s
/-- ACK_COALESCE_TIMER. -/
def doAckCoalesceTimer (qp : Fin 8192) (s : State) : Host.Outcome State Fault Refusal := served (execAckCoalesceTimer qp) s
/-- RATE_INCREASE_TIMER. -/
def doRateIncreaseTimer (qp : Fin 8192) (s : State) : Host.Outcome State Fault Refusal := served (execRateIncreaseTimer qp) s
/-- NOP. -/
def doNop (s : State) : Host.Outcome State Fault Refusal := served execNop s
/-- SREG_WRITE. -/
def doSregWrite (s : State) : Host.Outcome State Fault Refusal := served execSregWrite s
/-- SREG_READ. -/
def doSregRead (s : State) : Host.Outcome State Fault Refusal := served execSregRead s
/-- HST_MBOX_PROD_WRITE. -/
def doHstMboxProdWrite (src : Source) (v : Word) (s : State) : Host.Outcome State Fault Refusal := accessed (execHstMboxProdWrite src v) s
/-- HST_OWNER_WRITE. -/
def doHstOwnerWrite (src : Source) (v : Word) (s : State) : Host.Outcome State Fault Refusal := accessed (execHstOwnerWrite src v) s
/-- QP_STATE_WRITE. -/
def doQpStateWrite (src : Source) (v : Word) (s : State) : Host.Outcome State Fault Refusal := accessed (execQpStateWrite src v) s
/-- HST_SELECTION_WRITE. -/
def doHstSelectionWrite (src : Source) (which : Fin 3) (v : Word) (s : State) : Host.Outcome State Fault Refusal := accessed (execHstSelectionWrite src which v) s
/-- HST_CNT_CLR. -/
def doHstCntClr (src : Source) (s : State) : Host.Outcome State Fault Refusal := accessed (execHstCntClr src) s
/-- ARR_SAT_CLR. -/
def doArrSatClr (src : Source) (die : Fin 4) (cell : Fin 256) (s : State) : Host.Outcome State Fault Refusal := accessed (execArrSatClr src die cell) s
/-- ARR_CNT_CLR. -/
def doArrCntClr (src : Source) (die : Fin 4) (cell : Fin 256) (s : State) : Host.Outcome State Fault Refusal := accessed (execArrCntClr src die cell) s
/-- ARR_PEEK_SEL_WRITE. -/
def doArrPeekSelWrite (src : Source) (die : Fin 4) (cell : Fin 256) (v : Word) (s : State) : Host.Outcome State Fault Refusal := accessed (execArrPeekSelWrite src die cell v) s
/-- FORCE. -/
def doForce (src : Source) (s : State) : Host.Outcome State Fault Refusal := accessed (execForce src) s
/-- CAL_TRIM_WRITE. -/
def doCalTrimWrite (src : Source) (v : Word) (s : State) : Host.Outcome State Fault Refusal := accessed (execCalTrimWrite src v) s
/-- ACC_CNT_CLR. -/
def doAccCntClr (src : Source) (die : Fin 4) (cell : Fin 256) (s : State) : Host.Outcome State Fault Refusal := accessed (execAccCntClr src die cell) s
/-- ACC_PEEK_SEL_WRITE. -/
def doAccPeekSelWrite (src : Source) (die : Fin 4) (cell : Fin 256) (v : Word) (s : State) : Host.Outcome State Fault Refusal := accessed (execAccPeekSelWrite src die cell v) s
/-- ANV_CNT_CLR. -/
def doAnvCntClr (src : Source) (die : Fin 4) (cell : Fin 256) (s : State) : Host.Outcome State Fault Refusal := accessed (execAnvCntClr src die cell) s
/-- ANV_PEEK_SEL_WRITE. -/
def doAnvPeekSelWrite (src : Source) (die : Fin 4) (cell : Fin 256) (v : Word) (s : State) : Host.Outcome State Fault Refusal := accessed (execAnvPeekSelWrite src die cell v) s
/-- BUR_CNT_CLR. -/
def doBurCntClr (src : Source) (die : Fin 4) (cell : Fin 256) (s : State) : Host.Outcome State Fault Refusal := accessed (execBurCntClr src die cell) s
/-- BUR_TAB_SEL_WRITE. -/
def doBurTabSelWrite (src : Source) (die : Fin 4) (cell : Fin 256) (v : Word) (s : State) : Host.Outcome State Fault Refusal := accessed (execBurTabSelWrite src die cell v) s
/-- MEM_CNT_CLR. -/
def doMemCntClr (src : Source) (s : State) : Host.Outcome State Fault Refusal := accessed (execMemCntClr src) s
/-- PPR_RUN. -/
def doPprRun (src : Source) (s : State) : Host.Outcome State Fault Refusal := accessed (execPprRun src) s
/-- DISC_RUN. -/
def doDiscRun (src : Source) (s : State) : Host.Outcome State Fault Refusal := accessed (execDiscRun src) s
/-- FAB_CNT_CLR. -/
def doFabCntClr (src : Source) (s : State) : Host.Outcome State Fault Refusal := accessed (execFabCntClr src) s
/-- FAB_PORT_SEL_WRITE. -/
def doFabPortSelWrite (src : Source) (v : Word) (s : State) : Host.Outcome State Fault Refusal := accessed (execFabPortSelWrite src v) s
/-- FAB_PORT_FEC_UE_READ. -/
def doFabPortFecUeRead (src : Source) (s : State) : Host.Outcome State Fault Refusal := accessed (execFabPortFecUeRead src) s
/-- SCH_TICK_LO_READ. -/
def doSchTickLoRead (src : Source) (s : State) : Host.Outcome State Fault Refusal := accessed (execSchTickLoRead src) s
/-- FAB_MANDREL_LO_READ. -/
def doFabMandrelLoRead (src : Source) (s : State) : Host.Outcome State Fault Refusal := accessed (execFabMandrelLoRead src) s
/-- HLT_AREC_SEQ_LO_READ. -/
def doHltArecSeqLoRead (src : Source) (s : State) : Host.Outcome State Fault Refusal := accessed (execHltArecSeqLoRead src) s
/-- PWR_RTC_LO_READ. -/
def doPwrRtcLoRead (src : Source) (s : State) : Host.Outcome State Fault Refusal := accessed (execPwrRtcLoRead src) s
/-- PWR_RTC_HI_WRITE. -/
def doPwrRtcHiWrite (src : Source) (v : Word) (s : State) : Host.Outcome State Fault Refusal := accessed (execPwrRtcHiWrite src v) s
/-- PWR_ALARM_HI_WRITE. -/
def doPwrAlarmHiWrite (src : Source) (v : Word) (s : State) : Host.Outcome State Fault Refusal := accessed (execPwrAlarmHiWrite src v) s
/-- PWR_PMB_SEL_WRITE. -/
def doPwrPmbSelWrite (src : Source) (v : Word) (s : State) : Host.Outcome State Fault Refusal := accessed (execPwrPmbSelWrite src v) s
/-- PWR_VCORE_WRITE. -/
def doPwrVcoreWrite (src : Source) (v : Word) (s : State) : Host.Outcome State Fault Refusal := accessed (execPwrVcoreWrite src v) s
/-- TSM_CNT_CLR. -/
def doTsmCntClr (src : Source) (s : State) : Host.Outcome State Fault Refusal := accessed (execTsmCntClr src) s
/-- TSM_URGENT. -/
def doTsmUrgent (src : Source) (v : Word) (s : State) : Host.Outcome State Fault Refusal := accessed (execTsmUrgent src v) s
/-- TSM_SEL_WRITE. -/
def doTsmSelWrite (src : Source) (v : Word) (s : State) : Host.Outcome State Fault Refusal := accessed (execTsmSelWrite src v) s
/-- TSM_CH_WIN_WRITE. -/
def doTsmChWinWrite (src : Source) (v : Word) (s : State) : Host.Outcome State Fault Refusal := accessed (execTsmChWinWrite src v) s
/-- BRAZE. -/
def doBraze (src : Source) (s : State) : Host.Outcome State Fault Refusal := accessed (execBraze src) s
/-- SPR_SELECTION_WRITE. -/
def doSprSelectionWrite (src : Source) (which : Fin 5) (v : Word) (s : State) : Host.Outcome State Fault Refusal := accessed (execSprSelectionWrite src which v) s
/-- CELL_FILL. -/
def doCellFill (die : Fin 4) (slot : Fin 2) (selfTest : Bool) (s : State) : Host.Outcome State Fault Refusal := served (execCellFill die slot selfTest) s
/-- CELL_FILL_COMPLETE. -/
def doCellFillComplete (die : Fin 4) (slot : Fin 2) (s : State) : Host.Outcome State Fault Refusal := served (execCellFillComplete die slot) s
/-- HEARTBEAT_LAPSE. -/
def doHeartbeatLapse (die : Fin 5) (core : Fin 17) (s : State) : Host.Outcome State Fault Refusal := served (execHeartbeatLapse die core) s
/-- STORE. -/
def doStore (src : Source) (s : State) : Host.Outcome State Fault Refusal := accessed (execStore src) s
/-- STORE_COMPLETE. -/
def doStoreComplete (matched : Bool) (s : State) : Host.Outcome State Fault Refusal := served (execStoreComplete matched) s
/-- RETRY. -/
def doRetry (src : Source) (flash : SMap Byte) (s : State) : Host.Outcome State Fault Refusal := accessed (execRetry src flash) s
/-- OWNER_CLEAR. -/
def doOwnerClear (src : Source) (s : State) : Host.Outcome State Fault Refusal := accessed (execOwnerClear src) s
/-- QUOTE. -/
def doQuote (src : Source) (s : State) : Host.Outcome State Fault Refusal := accessed (execQuote src) s
/-- QUOTE_COMPLETE. -/
def doQuoteComplete (s : State) : Host.Outcome State Fault Refusal := served execQuoteComplete s
/-- REBOOT. -/
def doReboot (src : Source) (flash : SMap Byte) (s : State) : Host.Outcome State Fault Refusal := accessed (execReboot src flash) s
/-- NVS_MIN_SVN_WRITE. -/
def doNvsMinSvnWrite (src : Source) (v : Word) (s : State) : Host.Outcome State Fault Refusal := accessed (execNvsMinSvnWrite src v) s
/-- MGT_CNT_CLR. -/
def doMgtCntClr (src : Source) (s : State) : Host.Outcome State Fault Refusal := accessed (execMgtCntClr src) s
/-- REGISTER_WRITE. -/
def doRegisterWrite (src : Source) (addr : BitVec 32) (value : Word) (size : Fin 5) (s : State) : Host.Outcome State Fault Refusal := accessed (execRegisterWrite src addr value size) s
/-- WAIT. -/
def doWait (s : State) : Host.Outcome State Fault Refusal := served execWait s
/-- RTC_ALARM. -/
def doRtcAlarm (s : State) : Host.Outcome State Fault Refusal := served execRtcAlarm s
/-- WAKE_PIN. -/
def doWakePin (level : Bool) (s : State) : Host.Outcome State Fault Refusal := served (execWakePin level) s
/-- BANK_WAKE. -/
def doBankWake (s : State) : Host.Outcome State Fault Refusal := served execBankWake s
/-- QUENCH_WAKE. -/
def doQuenchWake (s : State) : Host.Outcome State Fault Refusal := served execQuenchWake s
/-- PWR_GOOD_FAILURE. -/
def doPwrGoodFailure (s : State) : Host.Outcome State Fault Refusal := served execPwrGoodFailure s
/-- REFCLK_LOSS. -/
def doRefclkLoss (s : State) : Host.Outcome State Fault Refusal := served execRefclkLoss s
/-- REFCLK_RETURN. -/
def doRefclkReturn (s : State) : Host.Outcome State Fault Refusal := served execRefclkReturn s
/-- TELEMETRY_CYCLE. -/
def doTelemetryCycle (readings : List Reading) (s : State) : Host.Outcome State Fault Refusal := served (execTelemetryCycle readings) s
/-- CONVERSION. -/
def doConversion (conv : Fin 9) (chan : Fin 32) (code : BitVec 12) (urgent : Bool) (s : State) : Host.Outcome State Fault Refusal := served (execConversion conv chan code urgent) s
/-- HEALTH_UPDATE. -/
def doHealthUpdate (rise : BitVec 16) (s : State) : Host.Outcome State Fault Refusal := served (execHealthUpdate rise) s
/-- CORRECTED_REPORT. -/
def doCorrectedReport (s : State) : Host.Outcome State Fault Refusal := served execCorrectedReport s
/-- SAFE_STATE_REPORT. -/
def doSafeStateReport (s : State) : Host.Outcome State Fault Refusal := served execSafeStateReport s
/-- ASSAY_RECORD_SEND. -/
def doAssayRecordSend (s : State) : Host.Outcome State Fault Refusal := served execAssayRecordSend s
/-- JOURNAL_STORE. -/
def doJournalStore (s : State) : Host.Outcome State Fault Refusal := served execJournalStore s
/-- POWER_ON_RESET. -/
def doPowerOnReset (s : State) : Host.Outcome State Fault Refusal := served execPowerOnReset s
/-- RESET_RELEASE. -/
def doResetRelease (flash : SMap Byte) (s : State) : Host.Outcome State Fault Refusal := served (execResetRelease flash) s
/-- STREAM_FETCH. -/
def doStreamFetch (place : Place) (n : Fin 4097) (s : State) : Host.Outcome State Fault Refusal := served (execStreamFetch place n) s
/-- RNR_TIMER. -/
def doRnrTimer (qp : Fin 8192) (s : State) : Host.Outcome State Fault Refusal := served (execRnrTimer qp) s
/-- SGMII_LINK_LOST. -/
def doSgmiiLinkLost (s : State) : Host.Outcome State Fault Refusal := served execSgmiiLinkLost s
/-- SGMII_LINK_UP. -/
def doSgmiiLinkUp (s : State) : Host.Outcome State Fault Refusal := served execSgmiiLinkUp s
/-- HOST_UNCORRECTABLE_CODEWORD. -/
def doHostUncorrectableCodeword (port : Fin 4) (s : State) : Host.Outcome State Fault Refusal := served (execHostUncorrectableCodeword port) s
/-- PWR_GOOD_RISE. -/
def doPwrGoodRise (s : State) : Host.Outcome State Fault Refusal := served execPwrGoodRise s
/-- PPR_COMPLETE. -/
def doPprComplete (repaired : List Bool) (s : State) : Host.Outcome State Fault Refusal := served (execPprComplete repaired) s
/-- FEED_FAILURE. -/
def doFeedFailure (s : State) : Host.Outcome State Fault Refusal := served execFeedFailure s
/-- FILL_MAP_CHANGE. -/
def doFillMapChange (die : Fin 4) (slot : Fin 2) (s : State) : Host.Outcome State Fault Refusal := served (execFillMapChange die slot) s

end Sys2Proof.Machine
end

