-- ==== Sys2Proof/Machine/Dispatch.lean ====
section
/-! DEFINITION. The command's meaning, arm by arm. -/
namespace Sys2Proof.Machine

def exec (i : Instr) (s : State) : Host.Outcome State Fault Refusal :=
  match i with
  | .hold head w => Sys2Proof.Machine.doHold head w s
  | .eval w => Sys2Proof.Machine.doEval w s
  | .eval8 w => Sys2Proof.Machine.doEval8 w s
  | .assay w => Sys2Proof.Machine.doAssay w s
  | .write w => Sys2Proof.Machine.doWrite w s
  | .sweep w => Sys2Proof.Machine.doSweep w s
  | .replay w => Sys2Proof.Machine.doReplay w s
  | .clear w => Sys2Proof.Machine.doClear w s
  | .preload w => Sys2Proof.Machine.doPreload w s
  | .drain w => Sys2Proof.Machine.doDrain w s
  | .drainclr w => Sys2Proof.Machine.doDrainclr w s
  | .stage w => Sys2Proof.Machine.doStage w s
  | .gemm w => Sys2Proof.Machine.doGemm w s
  | .gemmacc w => Sys2Proof.Machine.doGemmacc w s
  | .chain w => Sys2Proof.Machine.doChain w s
  | .permute w => Sys2Proof.Machine.doPermute w s
  | .gather w => Sys2Proof.Machine.doGather w s
  | .reduce w => Sys2Proof.Machine.doReduce w s
  | .softmax w => Sys2Proof.Machine.doSoftmax w s
  | .update w => Sys2Proof.Machine.doUpdate w s
  | .copy w => Sys2Proof.Machine.doCopy w s
  | .load w => Sys2Proof.Machine.doLoad w s
  | .movStore w => Sys2Proof.Machine.doMovStore w s
  | .bridge w => Sys2Proof.Machine.doBridge w s
  | .capture w => Sys2Proof.Machine.doCapture w s
  | .send w => Sys2Proof.Machine.doSend w s
  | .recv w flits => Sys2Proof.Machine.doRecv w flits s
  | .relay w flits => Sys2Proof.Machine.doRelay w flits s
  | .barrier w => Sys2Proof.Machine.doBarrier w s
  | .castingLoad src => Sys2Proof.Machine.doCastingLoad src s
  | .castingLoadComplete => Sys2Proof.Machine.doCastingLoadComplete s
  | .arm src => Sys2Proof.Machine.doArm src s
  | .halt src => Sys2Proof.Machine.doHalt src s
  | .loadWindow => Sys2Proof.Machine.doLoadWindow s
  | .vetoResult others => Sys2Proof.Machine.doVetoResult others s
  | .commitResult others => Sys2Proof.Machine.doCommitResult others s
  | .stepPeriodEnd => Sys2Proof.Machine.doStepPeriodEnd s
  | .stepRecordComplete buf => Sys2Proof.Machine.doStepRecordComplete buf s
  | .hallmarkVerdict unit place written upset => Sys2Proof.Machine.doHallmarkVerdict unit place written upset s
  | .wake die cell at_ => Sys2Proof.Machine.doWake die cell at_ s
  | .cellInRun die cell => Sys2Proof.Machine.doCellInRun die cell s
  | .doze die cell at_ => Sys2Proof.Machine.doDoze die cell at_ s
  | .dozeComplete die cell => Sys2Proof.Machine.doDozeComplete die cell s
  | .dieUp die at_ => Sys2Proof.Machine.doDieUp die at_ s
  | .dieRest die at_ => Sys2Proof.Machine.doDieRest die at_ s
  | .dieAutoUp => Sys2Proof.Machine.doDieAutoUp s
  | .sliceHandoff die cell array passed => Sys2Proof.Machine.doSliceHandoff die cell array passed s
  | .writeVerdict die cell array => Sys2Proof.Machine.doWriteVerdict die cell array s
  | .sweepVerdict die cell array => Sys2Proof.Machine.doSweepVerdict die cell array s
  | .trimSetInForce die cell array => Sys2Proof.Machine.doTrimSetInForce die cell array s
  | .arbitrationPoint stack pc slot reqs => Sys2Proof.Machine.doArbitrationPoint stack pc slot reqs s
  | .bankRefreshDue stack pc bank => Sys2Proof.Machine.doBankRefreshDue stack pc bank s
  | .forcedRefresh stack pc bank slot => Sys2Proof.Machine.doForcedRefresh stack pc bank slot s
  | .scrub line => Sys2Proof.Machine.doScrub line s
  | .stackTempReadout temps => Sys2Proof.Machine.doStackTempReadout temps s
  | .slotTag port tag news => Sys2Proof.Machine.doSlotTag port tag news s
  | .uncorrectableCodeword phys scheduled parcel => Sys2Proof.Machine.doUncorrectableCodeword phys scheduled parcel s
  | .beacon phys flit => Sys2Proof.Machine.doBeacon phys flit s
  | .beaconTimer phys => Sys2Proof.Machine.doBeaconTimer phys s
  | .lock phys sent echo offset => Sys2Proof.Machine.doLock phys sent echo offset s
  | .mark forge window veto commit freed => Sys2Proof.Machine.doMark forge window veto commit freed s
  | .lane phys lane count ack => Sys2Proof.Machine.doLane phys lane count ack s
  | .laneDegraded phys lane dark => Sys2Proof.Machine.doLaneDegraded phys lane dark s
  | .laneSwap phys => Sys2Proof.Machine.doLaneSwap phys s
  | .holdFlit phys status fault release => Sys2Proof.Machine.doHoldFlit phys status fault release s
  | .holdRelease => Sys2Proof.Machine.doHoldRelease s
  | .dim phys => Sys2Proof.Machine.doDim phys s
  | .credit phys n => Sys2Proof.Machine.doCredit phys n s
  | .lossOfLight phys => Sys2Proof.Machine.doLossOfLight phys s
  | .portTraining phys => Sys2Proof.Machine.doPortTraining phys s
  | .trainingStageEnd phys ok => Sys2Proof.Machine.doTrainingStageEnd phys ok s
  | .trainingRetry phys => Sys2Proof.Machine.doTrainingRetry phys s
  | .stretchBoundary => Sys2Proof.Machine.doStretchBoundary s
  | .stretchHalfway => Sys2Proof.Machine.doStretchHalfway s
  | .windowBoundary => Sys2Proof.Machine.doWindowBoundary s
  | .parcel phys p bad => Sys2Proof.Machine.doParcel phys p bad s
  | .data p => Sys2Proof.Machine.doData p s
  | .ack p => Sys2Proof.Machine.doAck p s
  | .call p => Sys2Proof.Machine.doCall p s
  | .take p => Sys2Proof.Machine.doTake p s
  | .fetch p => Sys2Proof.Machine.doFetch p s
  | .mouldComplete => Sys2Proof.Machine.doMouldComplete s
  | .buddyTimeout => Sys2Proof.Machine.doBuddyTimeout s
  | .buddyAckTimer => Sys2Proof.Machine.doBuddyAckTimer s
  | .ingotAgeCall => Sys2Proof.Machine.doIngotAgeCall s
  | .ingotOverdue => Sys2Proof.Machine.doIngotOverdue s
  | .callRepeat => Sys2Proof.Machine.doCallRepeat s
  | .takeRepeat => Sys2Proof.Machine.doTakeRepeat s
  | .ingCall src => Sys2Proof.Machine.doIngCall src s
  | .ingRestore src => Sys2Proof.Machine.doIngRestore src s
  | .ingFetch src => Sys2Proof.Machine.doIngFetch src s
  | .ingAbandon src => Sys2Proof.Machine.doIngAbandon src s
  | .purge src => Sys2Proof.Machine.doPurge src s
  | .ingHostAck src serial => Sys2Proof.Machine.doIngHostAck src serial s
  | .tallyRead msg => Sys2Proof.Machine.doTallyRead msg s
  | .tallyWrite msg => Sys2Proof.Machine.doTallyWrite msg s
  | .wakeFrame addr => Sys2Proof.Machine.doWakeFrame addr s
  | .dwiWake addr => Sys2Proof.Machine.doDwiWake addr s
  | .dwiRead addr offset => Sys2Proof.Machine.doDwiRead addr offset s
  | .dwiTimeout => Sys2Proof.Machine.doDwiTimeout s
  | .arpRequest arrival target sender => Sys2Proof.Machine.doArpRequest arrival target sender s
  | .neighbourSolicitation arrival target sender => Sys2Proof.Machine.doNeighbourSolicitation arrival target sender s
  | .icmpEchoRequest arrival v6 target payload => Sys2Proof.Machine.doIcmpEchoRequest arrival v6 target payload s
  | .frameDiscard port unsup qp psn => Sys2Proof.Machine.doFrameDiscard port unsup qp psn s
  | .mailboxSend qp psn ce payload => Sys2Proof.Machine.doMailboxSend qp psn ce payload s
  | .rdmaWrite qp psn ce rkey va payload => Sys2Proof.Machine.doRdmaWrite qp psn ce rkey va payload s
  | .rdmaReadRequest qp psn ce rkey va len => Sys2Proof.Machine.doRdmaReadRequest qp psn ce rkey va len s
  | .acknowledge qp psn syndrome => Sys2Proof.Machine.doAcknowledge qp psn syndrome s
  | .congestionNotification qp => Sys2Proof.Machine.doCongestionNotification qp s
  | .retransmitTimeout qp => Sys2Proof.Machine.doRetransmitTimeout qp s
  | .ackCoalesceTimer qp => Sys2Proof.Machine.doAckCoalesceTimer qp s
  | .rateIncreaseTimer qp => Sys2Proof.Machine.doRateIncreaseTimer qp s
  | .nop => Sys2Proof.Machine.doNop s
  | .sregWrite => Sys2Proof.Machine.doSregWrite s
  | .sregRead => Sys2Proof.Machine.doSregRead s
  | .hstMboxProdWrite src v => Sys2Proof.Machine.doHstMboxProdWrite src v s
  | .hstOwnerWrite src v => Sys2Proof.Machine.doHstOwnerWrite src v s
  | .qpStateWrite src v => Sys2Proof.Machine.doQpStateWrite src v s
  | .hstSelectionWrite src which v => Sys2Proof.Machine.doHstSelectionWrite src which v s
  | .hstCntClr src => Sys2Proof.Machine.doHstCntClr src s
  | .arrSatClr src die cell => Sys2Proof.Machine.doArrSatClr src die cell s
  | .arrCntClr src die cell => Sys2Proof.Machine.doArrCntClr src die cell s
  | .arrPeekSelWrite src die cell v => Sys2Proof.Machine.doArrPeekSelWrite src die cell v s
  | .force src => Sys2Proof.Machine.doForce src s
  | .calTrimWrite src v => Sys2Proof.Machine.doCalTrimWrite src v s
  | .accCntClr src die cell => Sys2Proof.Machine.doAccCntClr src die cell s
  | .accPeekSelWrite src die cell v => Sys2Proof.Machine.doAccPeekSelWrite src die cell v s
  | .anvCntClr src die cell => Sys2Proof.Machine.doAnvCntClr src die cell s
  | .anvPeekSelWrite src die cell v => Sys2Proof.Machine.doAnvPeekSelWrite src die cell v s
  | .burCntClr src die cell => Sys2Proof.Machine.doBurCntClr src die cell s
  | .burTabSelWrite src die cell v => Sys2Proof.Machine.doBurTabSelWrite src die cell v s
  | .memCntClr src => Sys2Proof.Machine.doMemCntClr src s
  | .pprRun src => Sys2Proof.Machine.doPprRun src s
  | .discRun src => Sys2Proof.Machine.doDiscRun src s
  | .fabCntClr src => Sys2Proof.Machine.doFabCntClr src s
  | .fabPortSelWrite src v => Sys2Proof.Machine.doFabPortSelWrite src v s
  | .fabPortFecUeRead src => Sys2Proof.Machine.doFabPortFecUeRead src s
  | .schTickLoRead src => Sys2Proof.Machine.doSchTickLoRead src s
  | .fabMandrelLoRead src => Sys2Proof.Machine.doFabMandrelLoRead src s
  | .hltArecSeqLoRead src => Sys2Proof.Machine.doHltArecSeqLoRead src s
  | .pwrRtcLoRead src => Sys2Proof.Machine.doPwrRtcLoRead src s
  | .pwrRtcHiWrite src v => Sys2Proof.Machine.doPwrRtcHiWrite src v s
  | .pwrAlarmHiWrite src v => Sys2Proof.Machine.doPwrAlarmHiWrite src v s
  | .pwrPmbSelWrite src v => Sys2Proof.Machine.doPwrPmbSelWrite src v s
  | .pwrVcoreWrite src v => Sys2Proof.Machine.doPwrVcoreWrite src v s
  | .tsmCntClr src => Sys2Proof.Machine.doTsmCntClr src s
  | .tsmUrgent src v => Sys2Proof.Machine.doTsmUrgent src v s
  | .tsmSelWrite src v => Sys2Proof.Machine.doTsmSelWrite src v s
  | .tsmChWinWrite src v => Sys2Proof.Machine.doTsmChWinWrite src v s
  | .braze src => Sys2Proof.Machine.doBraze src s
  | .sprSelectionWrite src which v => Sys2Proof.Machine.doSprSelectionWrite src which v s
  | .cellFill die slot selfTest => Sys2Proof.Machine.doCellFill die slot selfTest s
  | .cellFillComplete die slot => Sys2Proof.Machine.doCellFillComplete die slot s
  | .heartbeatLapse die core => Sys2Proof.Machine.doHeartbeatLapse die core s
  | .store src => Sys2Proof.Machine.doStore src s
  | .storeComplete matched => Sys2Proof.Machine.doStoreComplete matched s
  | .retry src flash => Sys2Proof.Machine.doRetry src flash s
  | .ownerClear src => Sys2Proof.Machine.doOwnerClear src s
  | .quote src => Sys2Proof.Machine.doQuote src s
  | .quoteComplete => Sys2Proof.Machine.doQuoteComplete s
  | .reboot src flash => Sys2Proof.Machine.doReboot src flash s
  | .nvsMinSvnWrite src v => Sys2Proof.Machine.doNvsMinSvnWrite src v s
  | .mgtCntClr src => Sys2Proof.Machine.doMgtCntClr src s
  | .registerWrite src addr value size => Sys2Proof.Machine.doRegisterWrite src addr value size s
  | .wait => Sys2Proof.Machine.doWait s
  | .rtcAlarm => Sys2Proof.Machine.doRtcAlarm s
  | .wakePin level => Sys2Proof.Machine.doWakePin level s
  | .bankWake => Sys2Proof.Machine.doBankWake s
  | .quenchWake => Sys2Proof.Machine.doQuenchWake s
  | .pwrGoodFailure => Sys2Proof.Machine.doPwrGoodFailure s
  | .refclkLoss => Sys2Proof.Machine.doRefclkLoss s
  | .refclkReturn => Sys2Proof.Machine.doRefclkReturn s
  | .telemetryCycle readings => Sys2Proof.Machine.doTelemetryCycle readings s
  | .conversion conv chan code urgent => Sys2Proof.Machine.doConversion conv chan code urgent s
  | .healthUpdate rise => Sys2Proof.Machine.doHealthUpdate rise s
  | .correctedReport => Sys2Proof.Machine.doCorrectedReport s
  | .safeStateReport => Sys2Proof.Machine.doSafeStateReport s
  | .assayRecordSend => Sys2Proof.Machine.doAssayRecordSend s
  | .journalStore => Sys2Proof.Machine.doJournalStore s
  | .powerOnReset => Sys2Proof.Machine.doPowerOnReset s
  | .resetRelease flash => Sys2Proof.Machine.doResetRelease flash s
  | .streamFetch place n => Sys2Proof.Machine.doStreamFetch place n s
  | .rnrTimer qp => Sys2Proof.Machine.doRnrTimer qp s
  | .sgmiiLinkLost => Sys2Proof.Machine.doSgmiiLinkLost s
  | .sgmiiLinkUp => Sys2Proof.Machine.doSgmiiLinkUp s
  | .hostUncorrectableCodeword port => Sys2Proof.Machine.doHostUncorrectableCodeword port s
  | .pwrGoodRise => Sys2Proof.Machine.doPwrGoodRise s
  | .pprComplete repaired => Sys2Proof.Machine.doPprComplete repaired s
  | .feedFailure => Sys2Proof.Machine.doFeedFailure s
  | .fillMapChange die slot => Sys2Proof.Machine.doFillMapChange die slot s

end Sys2Proof.Machine
end

