-- ==== Sys2Proof/Safety.lean ====
section
/-! DEFINITION. What a sound state is, and when a slot word acts, in the terms the statements use. -/
namespace Sys2Proof.Machine

/-- Every memory of a cell is in canonical form. -/
def Cell.canonical (x : Cell) : Bool :=
  wf noByte x.sp && wf (fun _ => 0) x.spBad && wf (fun _ => 0) x.ecc && wf defaultCode x.codes && wf defaultExp x.exps
    && wf defaultCheck x.checks && wf (fun _ => 0) x.trims && wf (fun _ => Arr.init) x.arrs && wf (fun k => k % 256) x.colmap
    && wf (fun _ => false) x.colbad && wf (fun _ => 0) x.usedCols && wf (fun _ => 0) x.acc && wf (fun _ => 0) x.side && wf (fun _ => Tile.init) x.tiles
    && wf (fun _ => AnvBuf.init) x.bufs && wf (fun _ => Chain.init) x.chains && wf (fun _ => nan16) x.tables
    && wf (fun _ => 0) x.tableBusy && wf (fun _ => 0) x.ringBytes

/-- Every memory of the state is in canonical form: the registers, DRAM and the marks of its lines, the cells, and each cell's
memories. -/
def State.canonical (s : State) : Bool :=
  wf regDefault s.regs && wf noByte s.dram.bytes && wf (fun _ => 0) s.dram.marks && wf (fun _ => Cell.init) s.cells
    && s.cells.all fun p => p.2.canonical

/-- A physical cell without what an ACC word may change of it: the accumulator, its side words and check bits, and the tile bindings. -/
def accAside (x : Cell) : Cell := { x with acc := [], side := [], ecc := [], tiles := [] }

/-! ### When a slot word acts (R42 to R45, R53, R58) -/

/-- The state in which a slot word with unit and class `head` acts: time has run to its issue tick, and the word is its unit's last. A
corrected error of the stream buffer has been counted. -/
def atIssue (head : BitVec 8) (w : Slot) (s : State) : State :=
  let unit := head.toNat / 16
  let t := issueTick s unit w
  let s' := runTo t s
  if (nextWord s' w.place).isSome && wordMark s' w.place == 1 then wordCorrected w.place (markIssued unit w t s') else markIssued unit w t s'

/-- Whether a slot word reaches its issue tick: a step period runs, the casting is RUNNING now and at that tick, the word is the next of its
stream and can be read, and the period does not skip it. -/
def reaches (head : BitVec 8) (w : Slot) (s : State) : Bool :=
  let t := issueTick s (head.toNat / 16) w
  let s' := runTo t s
  s.run.on && schState s == 4 && schState s' == 4 && now s' == t && isNext s' head w
    && !((nextWord s' w.place).isSome && wordMark s' w.place == 2) && !evalSkipped s' w

/-- The monitors that refuse a slot word whole on its issue tick; `ready` says whether its operands are defined. -/
def refusals (head : BitVec 8) (w : Slot) (ready : State → Bool) (s : State) : List Nat :=
  let unit := head.toNat / 16
  let s' := runTo (issueTick s unit w) s
  slotFaults (atIssue head w s) unit w (!issuedBefore s' w.place unit) (nextWord s' w.place).isSome (ready (atIssue head w s))

/-- Whether a slot word is executed: it reaches its issue tick and no monitor refuses it. -/
def acts (head : BitVec 8) (w : Slot) (ready : State → Bool) (s : State) : Bool :=
  reaches head w s && (refusals head w ready s).isEmpty

/-- The operand check of a command that issues a slot word; none for the other commands. -/
def slotReady (c : Instr) : Option (State → Bool) :=
  match c with
  | .hold head w => some (holdReady head w)
  | .eval w => some (evalReady w)
  | .eval8 w => some (eval8Ready w)
  | .assay w => some (assayReady w)
  | .write w => some (writeReady w)
  | .sweep w => some (sweepReady w)
  | .replay w => some (replayReady w)
  | .clear w => some (clearReady w)
  | .preload w => some (preloadReady w)
  | .drain w => some (drainReady w)
  | .drainclr w => some (drainReady w)
  | .stage w => some (stageReady w)
  | .gemm w => some (productReady false w)
  | .gemmacc w => some (productReady true w)
  | .chain w => some (burReady chainJob w)
  | .permute w => some (burReady permuteJob w)
  | .gather w => some (burReady gatherJob w)
  | .reduce w => some (burReady reduceJob w)
  | .softmax w => some (burReady softmaxJob w)
  | .update w => some (updateReady w)
  | .copy w => some (copyReady w)
  | .load w => some (loadReady w)
  | .movStore w => some (movStoreReady w)
  | .bridge w => some (bridgeReady w)
  | .capture w => some (captureReady w)
  | .send w => some (sendReady w)
  | .recv w _ => some (recvReady w)
  | .relay w _ => some (relayReady w)
  | .barrier w => some (barrierReady w)
  | _ => none

/-- Unit and class, the word and the operand check of a command that issues a slot word; none for the other commands. -/
def slotWord (c : Instr) : Option (BitVec 8 × Slot × (State → Bool)) :=
  match slotWordOf c, slotReady c with
  | some (head, w), some ready => some (head, w, ready)
  | _, _ => none

/-! ### Reporting (R56, R322, R342, R352, R459) -/

/-- The registers that reporting writes: those of violations, taints, assay records, their journal entries and refused accesses, and the
PSN of a queue pair that an event goes out on. -/
def reportKey (k : Nat) : Bool :=
  [Reg.SCH_VIOL, Reg.SCH_VIOL_FIRST, Reg.SCH_VIOL_TICK, Reg.HLT_TAINT, Reg.HLT_TAINT_TICK, Reg.HLT_TAINT_WHERE, Reg.HLT_LATE_TAINTS,
    Reg.HLT_AREC_SEQ_LO, Reg.HLT_AREC_QUEUE, Reg.HLT_AREC_DROPS, Reg.HLT_JRNL_HEAD, Reg.HLT_JRNL_DROPS, Reg.HLT_STICKY0,
    Reg.HLT_ACC_FIRST, Reg.HST_EVT_DROPS].contains k || decide ((k - 2 ^ 40) / 2 ^ 20 = Reg.HST_QP_CTX0 + 8)

/-- The step without the marks that violations, job faults and taints leave in it. -/
def Run.unmarked (r : Run) : Run :=
  { r with violAt := none, faultAt := none, taintLoc := [], taintVeto := false, taintCommit := false, poisonFrom := none }

/-- `t` differs from `s` at most in what reporting writes: its registers, the record queue and the journal, the packets of events, and the
marks that violations, taints and job faults leave in the step. -/
structure OnlyReports (s t : State) : Prop where
  time : t.time = s.time
  freeCount : t.freeCount = s.freeCount
  regs : ∀ k, reportKey k = false → rd t k = rd s k
  checks : t.checks = s.checks
  casting : t.casting = s.casting
  run : t.run.unmarked = s.run.unmarked
  tab : t.tab = s.tab
  streams : t.streams = s.streams
  cells : t.cells = s.cells
  flights : t.flights = s.flights
  dram : t.dram = s.dram
  mem : t.mem = s.mem
  fab : t.fab = s.fab
  ing : t.ing = s.ing
  spr : t.spr = s.spr
  pwr : t.pwr = s.pwr
  tsm : t.tsm = s.tsm
  nvs : t.nvs = s.nvs
  mgt : t.mgt = s.mgt
  sreg : t.sreg = s.sreg
  sregEcc : t.sregEcc = s.sregEcc

/-! ### The veto point (R220) -/

/-- The outcome that the combined byte of the veto point decides by the first matching row of R220, none where the period proceeds; `o` and
`x` are the overflow and taint rewinds of the batch so far. -/
def vetoCode (byte o x : Nat) : Option Nat :=
  if bits byte 0 0 = 1 then some 6
  else if bits byte 1 1 = 1 then some (if 2 ≤ x then 6 else 3)
  else if bits byte 2 2 = 1 then some 4
  else if bits byte 4 4 = 1 then some 2
  else if bits byte 3 3 = 1 then some (if o < 2 then 1 else 5)
  else none

end Sys2Proof.Machine
end

