-- ==== Sys2Proof/Certificates/Slice0/Obligations.lean ====
section
/-! DEFINITION. The statements for the provers: what each command does where it completes, what it leaves alone, and what holds of the
machine as a whole. `cites` and the rules' own words stand in OBLIGATIONS.json. -/
open Sys2Proof Sys2Proof.Machine

/-! ### The block as a machine -/

/-- A step is the command at the front of the queue, on the state with the rest of the queue. -/
def Obligations.StepRunsFront : Prop :=
  ∀ (s : State) (c : Instr) (rest : List Instr), s.pending = c :: rest → step s = exec c { s with pending := rest }

/-- With no command waiting a step is one tick (log 1, DESIGN CHOICE). A tick: the counter advances by one while REFCLK runs outside a hold;
in a hold the fast clocks stand and an always-on cycle passes; with REFCLK lost neither counts; while RESET_N holds the part nothing passes but the
instant itself, with the sticky bits that its events have set. -/
def Obligations.TickPasses : Prop :=
  (∀ s : State, s.pending = [] → step s = .next (tickStep s)) ∧
  (∀ s : State,
    (s.pwr.inReset = true → tickStep s = { s with events := [] }) ∧
    (s.pwr.inReset = false → s.time.refclk = false → (tickStep s).time.tick = s.time.tick ∧ (tickStep s).time.cycles = s.time.cycles ∧
      (tickStep s).time.mandrel = s.time.mandrel ∧ (tickStep s).regs = s.regs) ∧
    (s.pwr.inReset = false → s.time.refclk = true → holding s = true → (tickStep s).time.tick = s.time.tick ∧
      (tickStep s).time.cycles = s.time.cycles + 1 ∧ (tickStep s).time.mandrel = s.time.mandrel + 1) ∧
    (s.pwr.inReset = false → s.time.refclk = true → holding s = false → (tickStep s).time.tick = s.time.tick + 1 ∧
      s.time.cycles ≤ (tickStep s).time.cycles ∧ (tickStep s).time.cycles ≤ s.time.cycles + 1))

/-- Every command completes, and leaves the queue as it is. Each command that is no slot word has its own effect, one of the control window
at the end of its always-on cycle, or none while RESET_N holds the part (the slot words: RefusedAndHeldWords). `n` steps take the first `n`
commands off the queue, in order, and no step stops. -/
def Obligations.ExecKeepsQueue : Prop :=
  (∀ (c : Instr) (s : State), ∃ t, exec c s = .next t ∧ t.pending = s.pending) ∧
  (∀ (n : Nat) (s : State), n ≤ s.pending.length →
    ∃ t, core.run n s = .next t ∧ State.pending t = s.pending.drop n) ∧
  (∀ (src : Source) (s : State),
    exec (.castingLoad src) s = .next (withQueue s.pending (crossbar (execCastingLoad src) s)) ∧
    exec (.arm src) s = .next (withQueue s.pending (crossbar (execArm src) s)) ∧
    exec (.halt src) s = .next (withQueue s.pending (crossbar (execHalt src) s)) ∧
    exec (.ingCall src) s = .next (withQueue s.pending (crossbar (execIngCall src) s)) ∧
    exec (.ingRestore src) s = .next (withQueue s.pending (crossbar (execIngRestore src) s)) ∧
    exec (.ingFetch src) s = .next (withQueue s.pending (crossbar (execIngFetch src) s)) ∧
    exec (.ingAbandon src) s = .next (withQueue s.pending (crossbar (execIngAbandon src) s)) ∧
    exec (.purge src) s = .next (withQueue s.pending (crossbar (execPurge src) s)) ∧
    exec (.hstCntClr src) s = .next (withQueue s.pending (crossbar (execHstCntClr src) s)) ∧
    exec (.force src) s = .next (withQueue s.pending (crossbar (execForce src) s)) ∧
    exec (.memCntClr src) s = .next (withQueue s.pending (crossbar (execMemCntClr src) s)) ∧
    exec (.pprRun src) s = .next (withQueue s.pending (crossbar (execPprRun src) s)) ∧
    exec (.discRun src) s = .next (withQueue s.pending (crossbar (execDiscRun src) s)) ∧
    exec (.fabCntClr src) s = .next (withQueue s.pending (crossbar (execFabCntClr src) s)) ∧
    exec (.fabPortFecUeRead src) s = .next (withQueue s.pending (crossbar (execFabPortFecUeRead src) s)) ∧
    exec (.schTickLoRead src) s = .next (withQueue s.pending (crossbar (execSchTickLoRead src) s)) ∧
    exec (.fabMandrelLoRead src) s = .next (withQueue s.pending (crossbar (execFabMandrelLoRead src) s)) ∧
    exec (.hltArecSeqLoRead src) s = .next (withQueue s.pending (crossbar (execHltArecSeqLoRead src) s)) ∧
    exec (.pwrRtcLoRead src) s = .next (withQueue s.pending (crossbar (execPwrRtcLoRead src) s)) ∧
    exec (.tsmCntClr src) s = .next (withQueue s.pending (crossbar (execTsmCntClr src) s)) ∧
    exec (.braze src) s = .next (withQueue s.pending (crossbar (execBraze src) s)) ∧
    exec (.store src) s = .next (withQueue s.pending (crossbar (execStore src) s)) ∧
    exec (.ownerClear src) s = .next (withQueue s.pending (crossbar (execOwnerClear src) s)) ∧
    exec (.quote src) s = .next (withQueue s.pending (crossbar (execQuote src) s)) ∧
    exec (.mgtCntClr src) s = .next (withQueue s.pending (crossbar (execMgtCntClr src) s))) ∧
  (∀ (s : State),
    exec .castingLoadComplete s = .next (withQueue s.pending (execCastingLoadComplete s)) ∧
    exec .loadWindow s = .next (withQueue s.pending (execLoadWindow s)) ∧
    exec .stepPeriodEnd s = .next (withQueue s.pending (execStepPeriodEnd s)) ∧
    exec .dieAutoUp s = .next (withQueue s.pending (execDieAutoUp s)) ∧
    exec .holdRelease s = .next (withQueue s.pending (execHoldRelease s)) ∧
    exec .stretchBoundary s = .next (withQueue s.pending (execStretchBoundary s)) ∧
    exec .stretchHalfway s = .next (withQueue s.pending (execStretchHalfway s)) ∧
    exec .windowBoundary s = .next (withQueue s.pending (execWindowBoundary s)) ∧
    exec .mouldComplete s = .next (withQueue s.pending (execMouldComplete s)) ∧
    exec .buddyTimeout s = .next (withQueue s.pending (execBuddyTimeout s)) ∧
    exec .buddyAckTimer s = .next (withQueue s.pending (execBuddyAckTimer s)) ∧
    exec .ingotAgeCall s = .next (withQueue s.pending (execIngotAgeCall s)) ∧
    exec .ingotOverdue s = .next (withQueue s.pending (execIngotOverdue s)) ∧
    exec .callRepeat s = .next (withQueue s.pending (execCallRepeat s)) ∧
    exec .takeRepeat s = .next (withQueue s.pending (execTakeRepeat s)) ∧
    exec .dwiTimeout s = .next (withQueue s.pending (execDwiTimeout s)) ∧
    exec .nop s = .next (withQueue s.pending (execNop s)) ∧
    exec .sregWrite s = .next (withQueue s.pending (execSregWrite s)) ∧
    exec .sregRead s = .next (withQueue s.pending (execSregRead s)) ∧
    exec .quoteComplete s = .next (withQueue s.pending (execQuoteComplete s)) ∧
    exec .wait s = .next (withQueue s.pending (execWait s)) ∧
    exec .rtcAlarm s = .next (withQueue s.pending (execRtcAlarm s)) ∧
    exec .bankWake s = .next (withQueue s.pending (execBankWake s)) ∧
    exec .quenchWake s = .next (withQueue s.pending (execQuenchWake s)) ∧
    exec .pwrGoodFailure s = .next (withQueue s.pending (execPwrGoodFailure s)) ∧
    exec .refclkLoss s = .next (withQueue s.pending (execRefclkLoss s)) ∧
    exec .refclkReturn s = .next (withQueue s.pending (execRefclkReturn s)) ∧
    exec .correctedReport s = .next (withQueue s.pending (execCorrectedReport s)) ∧
    exec .safeStateReport s = .next (withQueue s.pending (execSafeStateReport s)) ∧
    exec .assayRecordSend s = .next (withQueue s.pending (execAssayRecordSend s)) ∧
    exec .journalStore s = .next (withQueue s.pending (execJournalStore s)) ∧
    exec .powerOnReset s = .next (withQueue s.pending (execPowerOnReset s)) ∧
    exec .sgmiiLinkLost s = .next (withQueue s.pending (execSgmiiLinkLost s)) ∧
    exec .sgmiiLinkUp s = .next (withQueue s.pending (execSgmiiLinkUp s)) ∧
    exec .pwrGoodRise s = .next (withQueue s.pending (execPwrGoodRise s)) ∧
    exec .feedFailure s = .next (withQueue s.pending (execFeedFailure s))) ∧
  (∀ (others : Byte) (s : State),
    exec (.vetoResult others) s = .next (withQueue s.pending (execVetoResult others s)) ∧
    exec (.commitResult others) s = .next (withQueue s.pending (execCommitResult others s))) ∧
  (∀ (buf : Fin 2) (s : State),
    exec (.stepRecordComplete buf) s = .next (withQueue s.pending (execStepRecordComplete buf s))) ∧
  (∀ (unit : Fin 7) (place : Place) (written : BitVec 64) (i : Nat) (upset : BitVec 16) (s : State),
    exec (.hallmarkVerdict unit place written ⟨i, upset⟩) s = .next (withQueue s.pending (execHallmarkVerdict unit place written i upset s))) ∧
  (∀ (die : Fin 4) (cell : Fin 256) (at_ : BitVec 32) (s : State),
    exec (.wake die cell at_) s = .next (withQueue s.pending (execWake die cell at_ s)) ∧
    exec (.doze die cell at_) s = .next (withQueue s.pending (execDoze die cell at_ s))) ∧
  (∀ (die : Fin 4) (cell : Fin 256) (s : State),
    exec (.cellInRun die cell) s = .next (withQueue s.pending (execCellInRun die cell s)) ∧
    exec (.dozeComplete die cell) s = .next (withQueue s.pending (execDozeComplete die cell s))) ∧
  (∀ (die : Fin 4) (at_ : BitVec 32) (s : State),
    exec (.dieUp die at_) s = .next (withQueue s.pending (execDieUp die at_ s)) ∧
    exec (.dieRest die at_) s = .next (withQueue s.pending (execDieRest die at_ s))) ∧
  (∀ (die : Fin 4) (cell : Fin 256) (array : Fin 64) (passed : Bool) (s : State),
    exec (.sliceHandoff die cell array passed) s = .next (withQueue s.pending (execSliceHandoff die cell array passed s))) ∧
  (∀ (die : Fin 4) (cell : Fin 256) (array : Fin 64) (s : State),
    exec (.writeVerdict die cell array) s = .next (withQueue s.pending (execWriteVerdict die cell array s)) ∧
    exec (.sweepVerdict die cell array) s = .next (withQueue s.pending (execSweepVerdict die cell array s)) ∧
    exec (.trimSetInForce die cell array) s = .next (withQueue s.pending (execTrimSetInForce die cell array s))) ∧
  (∀ (stack : Fin 8) (pc : Fin 64) (slot : BitVec 32) (reqs : List Req) (s : State),
    exec (.arbitrationPoint stack pc slot reqs) s = .next (withQueue s.pending (execArbitrationPoint stack pc slot reqs s))) ∧
  (∀ (stack : Fin 8) (pc : Fin 64) (bank : Fin 16) (s : State),
    exec (.bankRefreshDue stack pc bank) s = .next (withQueue s.pending (execBankRefreshDue stack pc bank s))) ∧
  (∀ (stack : Fin 8) (pc : Fin 64) (bank : Fin 16) (slot : BitVec 32) (s : State),
    exec (.forcedRefresh stack pc bank slot) s = .next (withQueue s.pending (execForcedRefresh stack pc bank slot s))) ∧
  (∀ (line : BitVec 33) (s : State),
    exec (.scrub line) s = .next (withQueue s.pending (execScrub line s))) ∧
  (∀ (temps : List (Option (BitVec 8))) (s : State),
    exec (.stackTempReadout temps) s = .next (withQueue s.pending (execStackTempReadout temps s))) ∧
  (∀ (port : Fin 47) (tag : BitVec 24) (overlapped : Bool) (bar : Option Byte) (fixed : List (Fin 9 × Fin 16)) (s : State),
    exec (.slotTag port tag ⟨overlapped, bar, fixed⟩) s = .next (withQueue s.pending (execSlotTag port tag overlapped bar fixed s))) ∧
  (∀ (phys : Fin 48) (scheduled parcel : Bool) (s : State),
    exec (.uncorrectableCodeword phys scheduled parcel) s = .next (withQueue s.pending (execUncorrectableCodeword phys scheduled parcel s))) ∧
  (∀ (phys : Fin 48) (flit : List Byte) (s : State),
    exec (.beacon phys flit) s = .next (withQueue s.pending (execBeacon phys flit s))) ∧
  (∀ (phys : Fin 48) (s : State),
    exec (.beaconTimer phys) s = .next (withQueue s.pending (execBeaconTimer phys s)) ∧
    exec (.laneSwap phys) s = .next (withQueue s.pending (execLaneSwap phys s)) ∧
    exec (.dim phys) s = .next (withQueue s.pending (execDim phys s)) ∧
    exec (.lossOfLight phys) s = .next (withQueue s.pending (execLossOfLight phys s)) ∧
    exec (.portTraining phys) s = .next (withQueue s.pending (execPortTraining phys s)) ∧
    exec (.trainingRetry phys) s = .next (withQueue s.pending (execTrainingRetry phys s))) ∧
  (∀ (phys : Fin 48) (sent echo : BitVec 64) (offset : BitVec 16) (s : State),
    exec (.lock phys sent echo offset) s = .next (withQueue s.pending (execLock phys sent echo offset s))) ∧
  (∀ (forge : Fin 96) (window : BitVec 44) (veto commit : Byte) (freed : List Nat) (s : State),
    exec (.mark forge window veto commit freed) s = .next (withQueue s.pending (execMark forge window veto commit freed s))) ∧
  (∀ (phys : Fin 48) (lane : Fin 9) (count : BitVec 64) (ack : Bool) (s : State),
    exec (.lane phys lane count ack) s = .next (withQueue s.pending (execLane phys lane count ack s))) ∧
  (∀ (phys : Fin 48) (lane : Fin 9) (dark : Bool) (s : State),
    exec (.laneDegraded phys lane dark) s = .next (withQueue s.pending (execLaneDegraded phys lane dark s))) ∧
  (∀ (phys : Fin 48) (status : BitVec 2) (fault : Bool) (release : Option (BitVec 64)) (s : State),
    exec (.holdFlit phys status fault release) s = .next (withQueue s.pending (execHoldFlit phys status fault release s))) ∧
  (∀ (phys : Fin 48) (n : Fin 65) (s : State),
    exec (.credit phys n) s = .next (withQueue s.pending (execCredit phys n s))) ∧
  (∀ (phys : Fin 48) (ok : Bool) (s : State),
    exec (.trainingStageEnd phys ok) s = .next (withQueue s.pending (execTrainingStageEnd phys ok s))) ∧
  (∀ (phys : Fin 48) (p : Parcel) (bad : Bool) (s : State),
    exec (.parcel phys p bad) s = .next (withQueue s.pending (execParcel phys p bad s))) ∧
  (∀ (p : Parcel) (s : State),
    exec (.data p) s = .next (withQueue s.pending (execData p s)) ∧
    exec (.ack p) s = .next (withQueue s.pending (execAck p s)) ∧
    exec (.call p) s = .next (withQueue s.pending (execCall p s)) ∧
    exec (.take p) s = .next (withQueue s.pending (execTake p s)) ∧
    exec (.fetch p) s = .next (withQueue s.pending (execFetch p s))) ∧
  (∀ (src : Source) (serial : Word) (s : State),
    exec (.ingHostAck src serial) s = .next (withQueue s.pending (crossbar (execIngHostAck src serial) s))) ∧
  (∀ (msg : List Byte) (s : State),
    exec (.tallyRead msg) s = .next (withQueue s.pending (execTallyRead msg s)) ∧
    exec (.tallyWrite msg) s = .next (withQueue s.pending (execTallyWrite msg s))) ∧
  (∀ (addr : BitVec 16) (s : State),
    exec (.wakeFrame addr) s = .next (withQueue s.pending (execWakeFrame addr s)) ∧
    exec (.dwiWake addr) s = .next (withQueue s.pending (execDwiWake addr s))) ∧
  (∀ (addr : BitVec 16) (offset : BitVec 18) (s : State),
    exec (.dwiRead addr offset) s = .next (withQueue s.pending (execDwiRead addr offset s))) ∧
  (∀ (port : Fin 4) (vlan : BitVec 16) (target : BitVec 32) (sender : List Byte) (s : State),
    exec (.arpRequest ⟨port, vlan⟩ target sender) s = .next (withQueue s.pending (execArpRequest port vlan target sender s))) ∧
  (∀ (port : Fin 5) (vlan : BitVec 16) (target : BitVec 128) (sender : List Byte) (s : State),
    exec (.neighbourSolicitation ⟨port, vlan⟩ target sender) s = .next (withQueue s.pending (execNeighbourSolicitation port vlan target sender s))) ∧
  (∀ (port : Fin 5) (vlan : BitVec 16) (v6 : Bool) (target : BitVec 128) (payload : List Byte) (s : State),
    exec (.icmpEchoRequest ⟨port, vlan⟩ v6 target payload) s = .next (withQueue s.pending (execIcmpEchoRequest port vlan v6 target payload s))) ∧
  (∀ (port : Fin 5) (unsup : Bool) (qp : Option (Fin 8192)) (psn : BitVec 24) (s : State),
    exec (.frameDiscard port unsup qp psn) s = .next (withQueue s.pending (execFrameDiscard port unsup qp psn s))) ∧
  (∀ (qp : Fin 8192) (psn : BitVec 24) (ce : Bool) (payload : List Byte) (s : State),
    exec (.mailboxSend qp psn ce payload) s = .next (withQueue s.pending (execMailboxSend qp psn ce payload s))) ∧
  (∀ (qp : Fin 8192) (psn : BitVec 24) (ce : Bool) (rkey : Word) (va : BitVec 64) (payload : List Byte) (s : State),
    exec (.rdmaWrite qp psn ce rkey va payload) s = .next (withQueue s.pending (execRdmaWrite qp psn ce rkey va payload s))) ∧
  (∀ (qp : Fin 8192) (psn : BitVec 24) (ce : Bool) (rkey : Word) (va : BitVec 64) (len : BitVec 32) (s : State),
    exec (.rdmaReadRequest qp psn ce rkey va len) s = .next (withQueue s.pending (execRdmaReadRequest qp psn ce rkey va len s))) ∧
  (∀ (qp : Fin 8192) (psn : BitVec 24) (syndrome : Byte) (s : State),
    exec (.acknowledge qp psn syndrome) s = .next (withQueue s.pending (execAcknowledge qp psn syndrome s))) ∧
  (∀ (qp : Fin 8192) (s : State),
    exec (.congestionNotification qp) s = .next (withQueue s.pending (execCongestionNotification qp s)) ∧
    exec (.retransmitTimeout qp) s = .next (withQueue s.pending (execRetransmitTimeout qp s)) ∧
    exec (.ackCoalesceTimer qp) s = .next (withQueue s.pending (execAckCoalesceTimer qp s)) ∧
    exec (.rateIncreaseTimer qp) s = .next (withQueue s.pending (execRateIncreaseTimer qp s)) ∧
    exec (.rnrTimer qp) s = .next (withQueue s.pending (execRnrTimer qp s))) ∧
  (∀ (src : Source) (v : Word) (s : State),
    exec (.hstMboxProdWrite src v) s = .next (withQueue s.pending (crossbar (execHstMboxProdWrite src v) s)) ∧
    exec (.hstOwnerWrite src v) s = .next (withQueue s.pending (crossbar (execHstOwnerWrite src v) s)) ∧
    exec (.qpStateWrite src v) s = .next (withQueue s.pending (crossbar (execQpStateWrite src v) s)) ∧
    exec (.calTrimWrite src v) s = .next (withQueue s.pending (crossbar (execCalTrimWrite src v) s)) ∧
    exec (.fabPortSelWrite src v) s = .next (withQueue s.pending (crossbar (execFabPortSelWrite src v) s)) ∧
    exec (.pwrRtcHiWrite src v) s = .next (withQueue s.pending (crossbar (execPwrRtcHiWrite src v) s)) ∧
    exec (.pwrAlarmHiWrite src v) s = .next (withQueue s.pending (crossbar (execPwrAlarmHiWrite src v) s)) ∧
    exec (.pwrPmbSelWrite src v) s = .next (withQueue s.pending (crossbar (execPwrPmbSelWrite src v) s)) ∧
    exec (.pwrVcoreWrite src v) s = .next (withQueue s.pending (crossbar (execPwrVcoreWrite src v) s)) ∧
    exec (.tsmUrgent src v) s = .next (withQueue s.pending (crossbar (execTsmUrgent src v) s)) ∧
    exec (.tsmSelWrite src v) s = .next (withQueue s.pending (crossbar (execTsmSelWrite src v) s)) ∧
    exec (.tsmChWinWrite src v) s = .next (withQueue s.pending (crossbar (execTsmChWinWrite src v) s)) ∧
    exec (.nvsMinSvnWrite src v) s = .next (withQueue s.pending (crossbar (execNvsMinSvnWrite src v) s))) ∧
  (∀ (src : Source) (which : Fin 3) (v : Word) (s : State),
    exec (.hstSelectionWrite src which v) s = .next (withQueue s.pending (crossbar (execHstSelectionWrite src which v) s))) ∧
  (∀ (src : Source) (die : Fin 4) (cell : Fin 256) (s : State),
    exec (.arrSatClr src die cell) s = .next (withQueue s.pending (crossbar (execArrSatClr src die cell) s)) ∧
    exec (.arrCntClr src die cell) s = .next (withQueue s.pending (crossbar (execArrCntClr src die cell) s)) ∧
    exec (.accCntClr src die cell) s = .next (withQueue s.pending (crossbar (execAccCntClr src die cell) s)) ∧
    exec (.anvCntClr src die cell) s = .next (withQueue s.pending (crossbar (execAnvCntClr src die cell) s)) ∧
    exec (.burCntClr src die cell) s = .next (withQueue s.pending (crossbar (execBurCntClr src die cell) s))) ∧
  (∀ (src : Source) (die : Fin 4) (cell : Fin 256) (v : Word) (s : State),
    exec (.arrPeekSelWrite src die cell v) s = .next (withQueue s.pending (crossbar (execArrPeekSelWrite src die cell v) s)) ∧
    exec (.accPeekSelWrite src die cell v) s = .next (withQueue s.pending (crossbar (execAccPeekSelWrite src die cell v) s)) ∧
    exec (.anvPeekSelWrite src die cell v) s = .next (withQueue s.pending (crossbar (execAnvPeekSelWrite src die cell v) s)) ∧
    exec (.burTabSelWrite src die cell v) s = .next (withQueue s.pending (crossbar (execBurTabSelWrite src die cell v) s))) ∧
  (∀ (src : Source) (which : Fin 5) (v : Word) (s : State),
    exec (.sprSelectionWrite src which v) s = .next (withQueue s.pending (crossbar (execSprSelectionWrite src which v) s))) ∧
  (∀ (die : Fin 4) (slot : Fin 2) (selfTest : Bool) (s : State),
    exec (.cellFill die slot selfTest) s = .next (withQueue s.pending (execCellFill die slot selfTest s))) ∧
  (∀ (die : Fin 4) (slot : Fin 2) (s : State),
    exec (.cellFillComplete die slot) s = .next (withQueue s.pending (execCellFillComplete die slot s)) ∧
    exec (.fillMapChange die slot) s = .next (withQueue s.pending (execFillMapChange die slot s))) ∧
  (∀ (die : Fin 5) (core : Fin 17) (s : State),
    exec (.heartbeatLapse die core) s = .next (withQueue s.pending (execHeartbeatLapse die core s))) ∧
  (∀ (matched : Bool) (s : State),
    exec (.storeComplete matched) s = .next (withQueue s.pending (execStoreComplete matched s))) ∧
  (∀ (src : Source) (flash : SMap Byte) (s : State),
    exec (.retry src flash) s = .next (withQueue s.pending (crossbar (execRetry src flash) s)) ∧
    exec (.reboot src flash) s = .next (withQueue s.pending (crossbar (execReboot src flash) s))) ∧
  (∀ (src : Source) (addr : BitVec 32) (value : Word) (size : Fin 5) (s : State),
    exec (.registerWrite src addr value size) s = .next (withQueue s.pending (crossbar (execRegisterWrite src addr value size) s))) ∧
  (∀ (level : Bool) (s : State),
    exec (.wakePin level) s = .next (withQueue s.pending (execWakePin level s))) ∧
  (∀ (readings : List Reading) (s : State),
    exec (.telemetryCycle readings) s = .next (withQueue s.pending (execTelemetryCycle readings s))) ∧
  (∀ (conv : Fin 9) (chan : Fin 32) (code : BitVec 12) (urgent : Bool) (s : State),
    exec (.conversion conv chan code urgent) s = .next (withQueue s.pending (execConversion conv chan code urgent s))) ∧
  (∀ (rise : BitVec 16) (s : State),
    exec (.healthUpdate rise) s = .next (withQueue s.pending (execHealthUpdate rise s))) ∧
  (∀ (flash : SMap Byte) (s : State),
    exec (.resetRelease flash) s = .next (withQueue s.pending (execResetRelease flash s))) ∧
  (∀ (place : Place) (n : Fin 4097) (s : State),
    exec (.streamFetch place n) s = .next (withQueue s.pending (execStreamFetch place n s))) ∧
  (∀ (port : Fin 4) (s : State),
    exec (.hostUncorrectableCodeword port) s = .next (withQueue s.pending (execHostUncorrectableCodeword port s))) ∧
  (∀ (repaired : List Bool) (s : State),
    exec (.pprComplete repaired) s = .next (withQueue s.pending (execPprComplete repaired s)))

/-- Right after a reset every memory is in canonical form, and no command waits. -/
def Obligations.ResetCanonical : Prop := State.reset.canonical = true ∧ State.reset.pending = []

/-- From every state whose memories are in canonical form, a step answers a state whose memories are. -/
def Obligations.StepKeepsCanonical : Prop := ∀ s t : State, s.canonical = true → step s = .next t → t.canonical = true

/-! ### Slot words -/

/-- A slot word that a monitor refuses on its issue tick does nothing but raise its violations. HOLD only anchors the next delta; a HOLD
whose head names another class is no event.
Every slot word that acts has its effect on the state of its issue tick. The 128 bits of a word, taken apart by unit and
class, give the command and every field of it back.
Where the rules leave a point open the model follows logs 23 and 115. -/
def Obligations.RefusedAndHeldWords : Prop :=
  (∀ (c : Instr) (head : BitVec 8) (w : Slot) (ready : State → Bool) (s : State),
    slotWord c = some (head, w, ready) → s.canonical = true → reaches head w s = true → refusals head w ready s ≠ [] →
    ∃ t, exec c s = .next t ∧ OnlyReports (atIssue head w s) t ∧
      ∀ b ∈ refusals head w ready s, fld t Reg.SCH_VIOL b b = 1) ∧
  (∀ (head : BitVec 8) (w : Slot) (s : State),
    (acts head w (holdReady head w) s = true →
      ∃ t, exec (.hold head w) s = .next t ∧ t = withQueue s.pending (atIssue head w s)) ∧
    (definedHead head = true → exec (.hold head w) s = .next s)) ∧
  (∀ (w : Slot) (flits : List (Option (List Byte))) (s : State),
    (acts 0x11 w (evalReady w) s = true → exec (.eval w) s = .next (withQueue s.pending (evalAct w (atIssue 0x11 w s)))) ∧
    (acts 0x12 w (eval8Ready w) s = true → exec (.eval8 w) s = .next (withQueue s.pending (eval8Act w (atIssue 0x12 w s)))) ∧
    (acts 0x13 w (assayReady w) s = true → exec (.assay w) s = .next (withQueue s.pending (assayAct w (atIssue 0x13 w s)))) ∧
    (acts 0x14 w (writeReady w) s = true → exec (.write w) s = .next (withQueue s.pending (writeAct w (atIssue 0x14 w s)))) ∧
    (acts 0x15 w (sweepReady w) s = true → exec (.sweep w) s = .next (withQueue s.pending (sweepAct w (atIssue 0x15 w s)))) ∧
    (acts 0x16 w (replayReady w) s = true → exec (.replay w) s = .next (withQueue s.pending (replayAct w (atIssue 0x16 w s)))) ∧
    (acts 0x21 w (clearReady w) s = true → exec (.clear w) s = .next (withQueue s.pending (clearAct w (atIssue 0x21 w s)))) ∧
    (acts 0x24 w (preloadReady w) s = true → exec (.preload w) s = .next (withQueue s.pending (preloadAct w (atIssue 0x24 w s)))) ∧
    (acts 0x22 w (drainReady w) s = true → exec (.drain w) s = .next (withQueue s.pending (drainAct false w (atIssue 0x22 w s)))) ∧
    (acts 0x23 w (drainReady w) s = true → exec (.drainclr w) s = .next (withQueue s.pending (drainAct true w (atIssue 0x23 w s)))) ∧
    (acts 0x31 w (stageReady w) s = true → exec (.stage w) s = .next (withQueue s.pending (stageAct w (atIssue 0x31 w s)))) ∧
    (acts 0x32 w (productReady false w) s = true → exec (.gemm w) s = .next (withQueue s.pending (productAct false w (atIssue 0x32 w s)))) ∧
    (acts 0x33 w (productReady true w) s = true → exec (.gemmacc w) s = .next (withQueue s.pending (productAct true w (atIssue 0x33 w s)))) ∧
    (acts 0x41 w (burReady chainJob w) s = true → exec (.chain w) s = .next (withQueue s.pending (burAct chainJob w (atIssue 0x41 w s)))) ∧
    (acts 0x42 w (burReady permuteJob w) s = true → exec (.permute w) s = .next (withQueue s.pending (burAct permuteJob w (atIssue 0x42 w s)))) ∧
    (acts 0x43 w (burReady gatherJob w) s = true → exec (.gather w) s = .next (withQueue s.pending (burAct gatherJob w (atIssue 0x43 w s)))) ∧
    (acts 0x44 w (burReady reduceJob w) s = true → exec (.reduce w) s = .next (withQueue s.pending (burAct reduceJob w (atIssue 0x44 w s)))) ∧
    (acts 0x45 w (burReady softmaxJob w) s = true → exec (.softmax w) s = .next (withQueue s.pending (burAct softmaxJob w (atIssue 0x45 w s)))) ∧
    (acts 0x46 w (updateReady w) s = true → exec (.update w) s = .next (withQueue s.pending (updateAct w (atIssue 0x46 w s)))) ∧
    (acts 0x51 w (copyReady w) s = true → exec (.copy w) s = .next (withQueue s.pending (copyAct w (atIssue 0x51 w s)))) ∧
    (acts 0x52 w (loadReady w) s = true → exec (.load w) s = .next (withQueue s.pending (loadAct w (atIssue 0x52 w s)))) ∧
    (acts 0x53 w (movStoreReady w) s = true → exec (.movStore w) s = .next (withQueue s.pending (movStoreAct w (atIssue 0x53 w s)))) ∧
    (acts 0x54 w (bridgeReady w) s = true → exec (.bridge w) s = .next (withQueue s.pending (bridgeAct w (atIssue 0x54 w s)))) ∧
    (acts 0x55 w (captureReady w) s = true → exec (.capture w) s = .next (withQueue s.pending (captureAct w (atIssue 0x55 w s)))) ∧
    (acts 0x61 w (sendReady w) s = true → exec (.send w) s = .next (withQueue s.pending (sendAct w (atIssue 0x61 w s)))) ∧
    (acts 0x62 w (recvReady w) s = true → exec (.recv w flits) s = .next (withQueue s.pending (recvAct w flits (atIssue 0x62 w s)))) ∧
    (acts 0x63 w (relayReady w) s = true → exec (.relay w flits) s = .next (withQueue s.pending (relayAct w flits (atIssue 0x63 w s)))) ∧
    (acts 0x64 w (barrierReady w) s = true → exec (.barrier w) s = .next (withQueue s.pending (barrierAct w (atIssue 0x64 w s))))) ∧
  (∀ (c : Instr) (head : BitVec 8) (w : Slot) (flits : List (Option (List Byte))), slotWordOf c = some (head, w) →
    (∀ v f, c = .recv v f ∨ c = .relay v f → f = flits) → slotCommand w.place w.evalSeg (Slot.bits head w) flits = c)

/-- CLEAR empties its tile and the fold positions and binds it; it claims the port for its tick alone, and changes nothing else. PRELOAD
empties and binds its tile and fold positions likewise and puts the 256 values of its source in the tile; it claims the port for four ticks.
The accumulator elsewhere, every other component of the cell, every other cell, DRAM and what is in flight stay as they are.
Where the rules leave a point open the model follows log 23. -/
def Obligations.TileFillsFromWord : Prop :=
  (∀ (w : Slot) (s : State), s.canonical = true → acts 0x21 w (clearReady w) s = true →
    let s' := atIssue 0x21 w s
    let c := placePhys s' w.place
    let n := accTile w
    portTaken s' c n 0 true = false →
    ∃ t, exec (.clear w) s = .next t ∧
      (∀ j, j < 256 → accAt t c n j = 0 ∧ sideAt t c n j = 0) ∧
      (∀ k j, k < foldArea s' c → j < 256 → accAt t c (foldTile (foldArea s' c) n k) j = 0) ∧
      tileAt t c n = ⟨true, BitVec.ofNat 16 (opf w 84 69), BitVec.ofNat 32 (opf w 63 32), Fin.ofNat 16 (opf w 88 85), flagOf w 0, now s' + 1⟩ ∧
      (∀ m j, m ≠ n → (∀ k, k < foldArea s' c → m ≠ foldTile (foldArea s' c) n k) → j < 256 → accAt t c m j = accAt s' c m j) ∧
      (∀ m j, m ≠ n → j < 256 → sideAt t c m j = sideAt s' c m j) ∧ accAside (cellAt t c) = accAside (cellAt s' c) ∧
      (∀ m, m ≠ n → tileAt t c m = tileAt s' c m) ∧
      (∀ b, b ≠ c → cellAt t b = cellAt s' b) ∧
      t.regs = s'.regs ∧ t.dram = s'.dram ∧ t.flights = s'.flights) ∧
  (∀ (w : Slot) (s : State), s.canonical = true → acts 0x24 w (preloadReady w) s = true →
    let s' := atIssue 0x24 w s
    let c := placePhys s' w.place
    let n := accTile w
    portTaken s' c n 3 true = false →
    ∃ t, exec (.preload w) s = .next t ∧
      (∀ j, j < 256 → ∃ v, (codesOf 0 (spGet s' c (64 * opf w 31 19) 512))[j]? = some v ∧
        accAt t c n j = (preloadValue (BitVec.ofNat 16 v)).1 ∧ sideAt t c n j = 0) ∧
      tileAt t c n = ⟨true, BitVec.ofNat 16 (opf w 84 69), BitVec.ofNat 32 (opf w 63 32), Fin.ofNat 16 (opf w 88 85), flagOf w 0, now s' + 4⟩ ∧
      (∀ k j, k < foldArea s' c → foldTile (foldArea s' c) n k ≠ n → j < 256 → accAt t c (foldTile (foldArea s' c) n k) j = 0) ∧
      (∀ m j, m ≠ n → (∀ k, k < foldArea s' c → m ≠ foldTile (foldArea s' c) n k) → j < 256 → accAt t c m j = accAt s' c m j) ∧
      (∀ m j, m ≠ n → j < 256 → sideAt t c m j = sideAt s' c m j) ∧ accAside (cellAt t c) = accAside (cellAt s' c) ∧
      (∀ m, m ≠ n → tileAt t c m = tileAt s' c m) ∧
      (∀ b, b ≠ c → cellAt t b = cellAt s' b) ∧ t.dram = s'.dram ∧ t.flights = s'.flights)

/-- A drain waits out what has entered its tile and not yet been written, then reads it, 64 slots a tick in order on four ticks; a wait counts
and raises the DRAIN violation. With no wait the first 64 combined values are on their way to scratchpad at once, and their checks where hk
is set. Each read sends what it combines on its way; DRAINCLR clears each slot, fold position and side word as it is read, DRAIN leaves them;
the binding stays.
Where the rules leave a point open the model follows log 23. -/
def Obligations.DrainReadsTile : Prop :=
  (∀ (clr : Bool) (w : Slot) (s : State), s.canonical = true → acts (if clr then 0x23 else 0x22) w (drainReady w) s = true →
    let s' := atIssue (if clr then 0x23 else 0x22) w s
    let c := placePhys s' w.place
    let n := accTile w
    let F := foldArea s' c
    let wait := drainWait s' c n
    let land := now s' + wait + 24 + 6 * foldLevels F
    let part := fun (q : Nat) => Effect.drain c n (64 * opf w 63 51) land clr (flagOf w 0) q
    let rows := (List.range 64).map fun j => accAt s' c n j :: (List.range F).map fun k => accAt s' c (foldTile F n k) j
    let out := rows.map fun r => (drainLevels 4 r).1
    portTaken s' c n (wait + 3) false = false →
    ∃ t, exec (if clr then .drainclr w else .drain w) s = .next t ∧
      (0 < wait → t.flights = s'.flights ++ (List.range 4).map (fun q => ⟨now s' + wait + q, part q⟩) ∧
        fld t Reg.SCH_VIOL 6 6 = 1 ∧ rd t (cellKey c Reg.ACC_WAITS) = satAdd 32 (rd s' (cellKey c Reg.ACC_WAITS)) wait ∧
        rd t Reg.SCH_DRAIN_WAITS = satAdd 32 (rd s' Reg.SCH_DRAIN_WAITS) wait ∧ (cellAt t c).acc = (cellAt s' c).acc ∧
        (cellAt t c).side = (cellAt s' c).side) ∧
      (wait = 0 → t.flights = s'.flights ++ ⟨land, .sp c (64 * opf w 63 51) (out.flatMap fun v => natLE 2 v.toNat)⟩ ::
          ((if flagOf w 0 then [⟨land, .check 2 c (((List.range 64).zip (rows.zip out)).map fun p =>
            (sumCheck (p.2.1.map dyF16) p.2.2).at_ (.sp c (8 * (64 * opf w 63 51 + 2 * p.1))))⟩] else [])
          ++ [1, 2, 3].map fun q => ⟨now s' + q, part q⟩) ∧
        rd t (cellKey c Reg.ACC_WAITS) = rd s' (cellKey c Reg.ACC_WAITS) ∧ rd t Reg.SCH_DRAIN_WAITS = rd s' Reg.SCH_DRAIN_WAITS ∧
        ∀ j, j < 256 → accAt t c n j = (if clr ∧ j < 64 then 0 else accAt s' c n j) ∧
          sideAt t c n j = (if clr ∧ j < 64 then 0 else sideAt s' c n j)) ∧
      tileAt t c n = { tileAt s' c n with busy := now s' + wait + 4 } ∧ (∀ m, m ≠ n → tileAt t c m = tileAt s' c m) ∧
      accAside (cellAt t c) = accAside (cellAt s' c) ∧ (∀ b, b ≠ c → cellAt t b = cellAt s' b) ∧ t.dram = s'.dram) ∧
  (∀ (c n addr land q : Nat) (clr hk : Bool) (s : State), s.canonical = true → q < 4 →
    let F := foldArea s c
    let rows := (List.range 64).map fun j => accAt s c n (64 * q + j) :: (List.range F).map fun k => accAt s c (foldTile F n k) (64 * q + j)
    let out := rows.map fun r => (drainLevels 4 r).1
    let t := landEffect (.drain c n addr land clr hk q) s
    t.flights = s.flights ++ ⟨land, .sp c (addr + 128 * q) (out.flatMap fun v => natLE 2 v.toNat)⟩ ::
      (if hk then [⟨land, .check 2 c (((List.range 64).zip (rows.zip out)).map fun p =>
        (sumCheck (p.2.1.map dyF16) p.2.2).at_ (.sp c (8 * (addr + 2 * (64 * q + p.1)))))⟩] else []) ∧
    (∀ j, j < 256 → sideAt t c n j = (if clr ∧ j / 64 = q then 0 else sideAt s c n j) ∧
      ∀ m, m = n ∨ (∃ k, k < F ∧ m = foldTile F n k) → accAt t c m j = (if clr ∧ j / 64 = q then 0 else accAt s c m j)) ∧
    (∀ m j, m ≠ n → (∀ k, k < F → m ≠ foldTile F n k) → j < 256 → accAt t c m j = accAt s c m j) ∧
    (∀ m, tileAt t c m = tileAt s c m) ∧ accAside (cellAt t c) = accAside (cellAt s c) ∧
    (∀ b, b ≠ c → cellAt t b = cellAt s b) ∧ t.dram = s.dram)

/-- STAGE fills its operand buffer with the rows of its source, transposed where the word says so, with the format and scale of its tensor;
the buffer and the stage port are held for the ticks of R161, and nothing else of the cell's engines changes. GEMM and GEMMACC put the 4,096
results of R165 to R167 into their output array and hold both operand buffers, the output array and the MAC array for the ticks of R161; a
word that writes its array out puts the drain in flight, which ends on its tick with the 64 rows in scratchpad, zeros where the keep mask
drops the block, and the chain closed. When STAGE reads its source (at its issue tick, log 25), from when the results stand in the output
array (from the issue tick, log 26) and that a drain lands whole on its last tick (log 13) are the model's readings. -/
def Obligations.AnvilRuns : Prop :=
  (∀ (w : Slot) (s : State), s.canonical = true → acts 0x31 w (stageReady w) s = true →
    let s' := atIssue 0x31 w s
    let c := placePhys s' w.place
    let i := 2 * opf w 95 95 + opf w 94 94
    let f := (tensorOf s' (opf w 92 77)).getD (0, 127)
    let n := rowBytes f.1
    let e := now s' + stageSpan f.1
    let codes := ((List.range 64).map fun a => 32 * opf w 76 63 + a * pitch (opf w 62 49) n).flatMap fun a => rowCodes f.1 (spGet s' c a n)
    let elems := if opf w 93 93 = 1 then transposed codes else codes
    (cellAt s' c).anvBusy.1 ≤ now s' → (bufAt s' c i).busy ≤ now s' →
    ∃ t, exec (.stage w) s = .next t ∧
      bufAt t c i = ⟨true, e, Fmt.ofCode f.1, f.2, elems⟩ ∧
      (∀ j, j ≠ i → bufAt t c j = bufAt s' c j) ∧ (∀ j, chainAt t c j = chainAt s' c j) ∧
      (cellAt t c).anvBusy = (e, (cellAt s' c).anvBusy.2) ∧
      (∀ b, b ≠ c → cellAt t b = cellAt s' b) ∧ (cellAt t c).sp = (cellAt s' c).sp ∧ t.dram = s'.dram ∧
      t.flights = s'.flights ++ (if flagOf w 0 then
        [⟨e, .check 3 c (((List.range 4096).zip elems).map fun v =>
          (moved (scaled (Fmt.ofCode f.1) f.2 v.2) (Fmt.ofCode f.1) f.2 v.2).at_ (.buf c i v.1))⟩] else [])) ∧
  (∀ (acc : Bool) (w : Slot) (s : State), s.canonical = true → acts (if acc then 0x33 else 0x32) w (productReady acc w) s = true →
    let s' := atIssue (if acc then 0x33 else 0x32) w s
    let c := placePhys s' w.place
    let l := bufAt s' c (opf w 95 95)
    let r := bufAt s' c (2 + opf w 94 94)
    let o := opf w 93 93
    let ch := chainAt s' c o
    let wide := l.fmt == .f16 || r.fmt == .f16
    let e := now s' + (if wide then 256 else 64)
    let tid := if acc then ch.tid else opf w 79 64
    let bo := if acc then ch.bo else ((tensorOf s' tid).map (·.2)).getD 127
    let out := productOf l r bo (oldOf acc ch)
    (cellAt s' c).anvBusy.2 ≤ now s' → l.busy ≤ now s' → r.busy ≤ now s' → ch.busy ≤ now s' →
    ∃ t, exec (if acc then .gemmacc w else .gemm w) s = .next t ∧
      (chainAt t c o).elems = out.map (·.1) ∧ (chainAt t c o).kb = opf w 91 80 ∧ (chainAt t c o).tid = tid ∧ (chainAt t c o).bo = bo ∧
      (chainAt t c o).opened = true ∧ (chainAt t c o).busy = (if opf w 92 92 = 1 then e + 32 else e) ∧
      (∀ j, j ≠ o → chainAt t c j = chainAt s' c j) ∧
      (bufAt t c (opf w 95 95)).busy = e ∧ (bufAt t c (2 + opf w 94 94)).busy = e ∧
      (bufAt t c (opf w 95 95)).elems = l.elems ∧ (bufAt t c (2 + opf w 94 94)).elems = r.elems ∧
      (cellAt t c).anvBusy = ((cellAt s' c).anvBusy.1, e) ∧
      (∀ b, b ≠ c → cellAt t b = cellAt s' b) ∧ (cellAt t c).sp = (cellAt s' c).sp ∧ t.dram = s'.dram ∧
      t.flights = s'.flights
        ++ (if flagOf w 0 then [⟨e, .check 3 c (((List.range 4096).zip (productChecks l r bo (oldOf acc ch) (out.map (·.1)))).map fun p =>
          p.2.at_ (.chain c o p.1))⟩] else [])
        ++ (if opf w 92 92 = 1 then [⟨e + 32, .anvDrain c o (32 * opf w 63 50) (pitch (opf w 49 36) 128)
          (blockKept s' c (maskOf w) (opf w 35 30)) w.evalSeg (flagOf w 0) (stepTick s')⟩] else [])) ∧
  (∀ (c i a p issued : Nat) (kept evalSeg hk : Bool) (s : State), s.canonical = true → 128 ≤ p → (chainAt s c i).elems.length = 4096 →
    let t := landEffect (.anvDrain c i a p kept evalSeg hk issued) s
    (∀ k, k < 64 → spGet t c (a + k * p) 128 =
      (if kept then ((chainAt s c i).elems.drop (64 * k)).take 64 else List.replicate 64 0).flatMap fun v => natLE 2 v.toNat) ∧
    (chainAt t c i).opened = false ∧ (∀ x, (∀ k, k < 64 → x < a + k * p ∨ a + k * p + 128 ≤ x) → spGet t c x 1 = spGet s c x 1) ∧
    (∀ b, b ≠ c → cellAt t b = cellAt s b) ∧ t.dram = s.dram ∧ t.flights = s.flights)

/-- EVAL and EVAL8 occupy their array for 64 and 128 ticks. Their 256 results are those that R84 forms of the phases of the source, the
codes of each phase and the array's trims and exponents; 16 of them a tick, one for each slot of the tile in order, enter the adder tree
from tick T + 65 and T + 129 on. Codes, exponents and scratchpad's source stay as they are. REPLAY occupies its array as the word of its
record would, takes the record from replay ring 62, and does the same on the record's codes with the trims of the record's generation. A raw
code is a free value (log 11).
Where the rules leave a point open the model follows logs 12, 71 and 72. -/
def Obligations.EvalEntersTree : Prop :=
  (∀ (a8 : Bool) (w : Slot) (s : State), s.canonical = true →
    acts (if a8 then 0x12 else 0x11) w (if a8 then eval8Ready w else evalReady w) s = true →
    let s' := atIssue (if a8 then 0x12 else 0x11) w s
    let c := placePhys s' w.place
    let a := arrOp w
    let span := if a8 then 128 else 64
    let len := if a8 then 256 else 128
    let x := advanceRamp c a (spRead 1 c (128 * opf w 63 52) len (setArr c a { arrAt s' c a with busy := now s' + span } s'))
    let src := spGet x c (128 * opf w 63 52) len
    let high := phases x c (maskOf w) (if a8 then levelsHigh src else levelsA4 src)
    let low := if a8 then phases x c (maskOf w) (levelsLow src) else []
    let hc := passCodes x c a (opf w 82 80) x.freeCount high
    let lc := passCodes x c a (opf w 66 64) (x.freeCount + 260 * high.length) low
    let passes := if a8 then [(opf w 82 80 + 4, hc), (opf w 66 64, lc)] else [(opf w 82 80, hc)]
    let cols := (List.range 260).map (listCol x c a)
    let out := evalResults (opf w 79 72) passes (cols.map (trimAt x c a)) (cols.map (expAt x c a))
    (arrAt s' c a).busy ≤ now s' → occupied s' c < 16 →
    ∃ t, exec (if a8 then .eval8 w else .eval w) s = .next t ∧ (arrAt t c a).busy = now s' + span ∧
      t.flights = s'.flights ++ (List.range 16).map (fun g => ⟨now s' + span + 1 + g + 12,
        .tree c (opf w 89 83) (((List.range 256).zip (out.map (·.1))).filter fun p => p.1 / 16 == g) (now s' + span + 1 + g)⟩) ∧
      t.freeCount = s'.freeCount + 260 * (high.length + low.length) ∧
      (cellAt t c).codes = (cellAt s' c).codes ∧ (cellAt t c).exps = (cellAt s' c).exps ∧ (cellAt t c).acc = (cellAt s' c).acc ∧
      (∀ b, b ≠ c → cellAt t b = cellAt s' b) ∧ t.dram = s'.dram ∧ (flagOf w 2 = false → (cellAt t c).sp = (cellAt s' c).sp)) ∧
  (∀ (w : Slot) (s : State), s.canonical = true → acts 0x16 w (replayReady w) s = true →
    let s' := atIssue 0x16 w s
    let c := placePhys s' w.place
    let a := arrOp w
    let a8 := opf w 67 67 == 1
    let span := if a8 then 128 else 64
    let rec_ := nextRecord s' (placeDie w.place) c
    let n0 := bits (byteAt rec_ 0x15) 2 0
    let n1 := if a8 then bits (byteAt rec_ 0x15) 5 3 else 0
    let codes := fun i => ((rec_.drop (64 + 256 * i)).take 256).map (·.toInt)
    let hc := (List.range n0).map codes
    let lc := (List.range n1).map fun i => codes (n0 + i)
    let passes := if a8 then [(opf w 82 80 + 4, hc), (opf w 66 64, lc)] else [(opf w 82 80, hc)]
    let cols := (List.range 260).map (listCol s' c a)
    let trims := replayTrims s' c a (leNat ((rec_.drop 6).take 2)) (leNat ((rec_.drop 12).take 4))
    let out := evalResults (opf w 79 72) passes trims (cols.map (expAt s' c a))
    (arrAt s' c a).busy ≤ now s' → occupied s' c < 16 →
    ∃ t, exec (.replay w) s = .next t ∧ (arrAt t c a).busy = now s' + span ∧
      (cellAt t c).ring62 = (cellAt s' c).ring62 + (byteAt rec_ 4 + 256 * byteAt rec_ 5) ∧
      t.flights = s'.flights ++ (List.range 16).map (fun g => ⟨now s' + span + 1 + g + 12,
        .tree c (opf w 89 83) (((List.range 256).zip (out.map (·.1))).filter fun p => p.1 / 16 == g) (now s' + span + 1 + g)⟩) ∧
      (cellAt t c).codes = (cellAt s' c).codes ∧ (cellAt t c).exps = (cellAt s' c).exps ∧ (cellAt t c).sp = (cellAt s' c).sp ∧
      (∀ b, b ≠ c → cellAt t b = cellAt s' b) ∧ t.dram = s'.dram)

/-- After a WRITE that is not suppressed its logical column holds the codes and the exponent that the word names, where its sites take them
(log 11: a faulty site keeps another value), whether or not it had to be programmed; the array is occupied for 128 ticks, and a column that
was programmed has its verdict on the way; a WRITE that issues before the commit point's result raises the VERSION violation. A suppressed
WRITE programs nothing, counts nothing and raises none. SWEEP occupies its array for 256 ticks, counts its phases, resets the age of its
last sweep, and sends the columns that fail to its verdict. ASSAY occupies its array for 1,024 ticks and brings a written CAL_DELTA into
force; where a trigger pends, a new trim set waits for its end if and only if the reference sum passes (R109). Where none pends and no
column fill waits on it, it does nothing else. Programming, phases and the pass or fail of each column are decided on the issue tick (log
28, DEDUCED). An ARR word that finds its array free but 16 arrays of its cell occupied raises BUDGET and sets ARR_STICKY.budget, and does
nothing else.
Where the rules leave a point open the model follows logs 90 and 91. -/
def Obligations.ArraysOccupied : Prop :=
  (∀ (w : Slot) (s : State), s.canonical = true → acts 0x14 w (writeReady w) s = true →
    let s' := atIssue 0x14 w s
    let c := placePhys s' w.place
    let die := placeDie w.place
    let a := arrOp w
    let col := opf w 89 82
    let p := physCol s' c a col
    let codes := spGet s' c (128 * opf w 63 52) 128
    let same := codes = colBytes s' c a p ∧ opf w 81 74 = expAt s' c a p
    (arrAt s' c a).busy ≤ now s' → occupied s' c < 16 →
    (∀ slot, slot < 2 → fld s' (fillKey die slot) 3 0 = 11 → spareCell die (fld s' (fillKey die slot) 29 26) ≠ c) →
    ∃ t, exec (.write w) s = .next t ∧ (arrAt t c a).busy = now s' + 128 ∧
      (s'.run.suppressed = false → ¬ same → t.flights = s'.flights ++ [⟨now s' + 128, .verdict die (placeWhere w.place) a false
          (if verifyColumn (programCol c a p codes (opf w 81 74) s') c a p col codes (opf w 81 74) then [] else [(col, 1)])
          (codes ++ [BitVec.ofNat 8 (opf w 81 74)])⟩] ∧
        expAt t c a p = siteTakes s'.freeCount 256 (opf w 81 74) % 256 ∧
        ∀ i, i < 256 → (codeAt t c a p i).toNat = nibble (takenCodes s'.freeCount codes) i) ∧
      (s'.run.suppressed = false → same → t.flights = s'.flights ∧ (cellAt t c).codes = (cellAt s' c).codes ∧
        (cellAt t c).exps = (cellAt s' c).exps ∧ rd t (cellKey c Reg.ARR_WRITES_UNCHANGED) =
          min (rd s' (cellKey c Reg.ARR_WRITES_UNCHANGED) + 1) (2 ^ 32 - 1)) ∧
      (s'.run.suppressed = true → (cellAt t c).codes = (cellAt s' c).codes ∧ (cellAt t c).exps = (cellAt s' c).exps ∧ t.flights = s'.flights ∧
        ((cellAt s' c).spBad = [] → t.regs = s'.regs)) ∧
      (s'.run.suppressed = false → s'.run.commitDone = false → fld t Reg.SCH_VIOL 3 3 = 1) ∧
      (cellAt t c).sp = (cellAt s' c).sp ∧ t.dram = s'.dram) ∧
  (∀ (w : Slot) (s : State), s.canonical = true → acts 0x15 w (sweepReady w) s = true →
    let s' := atIssue 0x15 w s
    let c := placePhys s' w.place
    let a := arrOp w
    let x := setArr c a { arrAt s' c a with busy := now s' + 256 } s'
    (arrAt s' c a).busy ≤ now s' → occupied s' c < 16 →
    ∃ t, exec (.sweep w) s = .next t ∧
      arrAt t c a = { arrAt s' c a with busy := now s' + 256, sweepAt := s'.run.steps } ∧ (∀ b, b ≠ a → arrAt t c b = arrAt s' c b) ∧
      t.flights = s'.flights ++ [⟨now s' + 256, .verdict (placeDie w.place) (placeWhere w.place) a true
        (((List.range 256).map fun col => (col, sweepKind x c a col)).filter fun q => q.2 != 0) []⟩] ∧
      rd t (cellKey c Reg.ARR_PHASES_RUN) = min (rd s' (cellKey c Reg.ARR_PHASES_RUN) + 12) (2 ^ 32 - 1) ∧
      (∀ k, k ≠ cellKey c Reg.ARR_PHASES_RUN → k ≠ cellKey c Reg.ARR_PHASES_SKIPPED → rd t k = rd s' k) ∧
      (cellAt t c).codes = (cellAt s' c).codes ∧ (cellAt t c).sp = (cellAt s' c).sp ∧ (∀ b, b ≠ c → cellAt t b = cellAt s' b) ∧
      t.dram = s'.dram) ∧
  (∀ (w : Slot) (s : State), s.canonical = true → acts 0x13 w (assayReady w) s = true →
    let s' := atIssue 0x13 w s
    let c := placePhys s' w.place
    let die := placeDie w.place
    let cell := placeWhere w.place
    let a := arrOp w
    let x := arrAt s' c a
    let pends := triggered { s' with run := { s'.run with delta := fld s' Reg.CAL_DELTA 8 0 } } die cell x
    x.busy ≤ now s' → occupied s' c < 16 →
    ∃ t, exec (.assay w) s = .next t ∧ (arrAt t c a).busy = now s' + 1024 ∧ (arrAt t c a).gen = x.gen ∧
      t.run.delta = fld s' Reg.CAL_DELTA 8 0 ∧
      (pends = true →
        (3200 ≤ calRef s'.freeCount ∧ calRef s'.freeCount ≤ 3968 →
          (arrAt t c a).staged = some (stagedTrims s' c a s'.freeCount (calRef s'.freeCount)) ∧ (arrAt t c a).pending = false ∧
          t.flights = s'.flights ++ [⟨now s' + 1024, .trims c a⟩]) ∧
        (calRef s'.freeCount < 3200 ∨ 3968 < calRef s'.freeCount →
          (arrAt t c a).staged = x.staged ∧ fld t Reg.CAL_STICKY 0 0 = 1 ∧ t.flights = s'.flights)) ∧
      (pends = false → fillOf s' die cell a = none →
        (cellAt t c).codes = (cellAt s' c).codes ∧ (arrAt t c a).staged = x.staged ∧ t.flights = s'.flights) ∧
      (cellAt t c).sp = (cellAt s' c).sp ∧ (pends = true ∨ fillOf s' die cell a = none → t.dram = s'.dram)) ∧
  (∀ (c : Instr) (head : BitVec 8) (w : Slot) (ready : State → Bool) (s : State), s.canonical = true →
    slotWord c = some (head, w, ready) → head.toNat / 16 = 1 → head.toNat % 16 ≠ 0 → acts head w ready s = true →
    let s' := atIssue head w s
    let p := placePhys s' w.place
    (arrAt s' p (arrOp w)).busy ≤ now s' → 16 ≤ occupied s' p →
    ∃ t, exec c s = .next t ∧ fld t Reg.SCH_VIOL 1 1 = 1 ∧ fld t (cellKey p Reg.ARR_STICKY) 4 4 = 1 ∧
      (∀ k, k ≠ cellKey p Reg.ARR_STICKY → reportKey k = false → rd t k = rd s' k) ∧ t.cells = s'.cells ∧ t.dram = s'.dram ∧
      t.flights = s'.flights)

/-- A BUR word other than UPDATE: with its spans and its tables free, it claims its read and write ticks, reads its first beat on the issue
tick, and has what that beat completes on the way to its write tick and its next beat on the way. Scratchpad does not change before the
first write tick. An UPDATE with its spans free claims 3,072 read ticks and 1,024 write ticks and reads its first gradient beat; a one that
the veto point's decision suppresses writes its ledger record alone, at T + 3,110; hyperparameters outside their ranges are an exception of
kind 2 at T + 2,087, with the ledger flagged.
Where the rules leave a point open the model follows logs 13 and 32. -/
def Obligations.BurnisherRuns : Prop :=
  (∀ (c : Instr) (head : BitVec 8) (w : Slot) (s : State) (job : State → Slot → Option BurJob) (j : BurJob),
    (c = .chain w ∧ head = 0x41 ∧ job = chainJob ∨ c = .permute w ∧ head = 0x42 ∧ job = permuteJob ∨
      c = .gather w ∧ head = 0x43 ∧ job = gatherJob ∨ c = .reduce w ∧ head = 0x44 ∧ job = reduceJob ∨
      c = .softmax w ∧ head = 0x45 ∧ job = softmaxJob) →
    s.canonical = true → acts head w (burReady job w) s = true →
    let s' := atIssue head w s
    let last := j.writeAt (j.out.beats - 1)
    let b := j.beatAt 0
    let j' := match b with | .source m => readBeat s' m j | _ => j
    let outs := match b with | .source m => rowsDone j' m | .output q => [(q, beatOut j q (beatRuns s' j q))]
    job s' w = some j → (namedTables j.prog).all (fun t => get (fun _ => 0) (cellAt s' j.cell).tableBusy t < now s') = true →
    (cellAt s' j.cell).burBusy.all (fun x => decide (x.2.2.2 < now s') ||
      ((decide (x.2.1 < now s') || decide (now s' + j.beats - 1 < x.1)) && (decide (x.2.2.2 < j.writeAt 0) || decide (last < x.2.2.1)))) = true →
    ∃ t, exec c s = .next t ∧ (now s', now s' + j.beats - 1, j.writeAt 0, last) ∈ (cellAt t j.cell).burBusy ∧
      t.flights = s'.flights ++ outs.map (fun p => ⟨j.writeAt p.1, .burWrite p.2⟩)
        ++ (if 1 < j.beats then [⟨j.start + 1, .bur j' 1⟩] else []) ∧
      (cellAt t j.cell).sp = (cellAt s' j.cell).sp ∧ (∀ b, b ≠ j.cell → cellAt t b = cellAt s' b) ∧ t.dram = s'.dram) ∧
  (∀ (w : Slot) (s : State) (j : UpdJob), s.canonical = true → acts 0x46 w (updateReady w) s = true →
    let s' := atIssue 0x46 w s
    updateJob s' w = some j →
    (cellAt s' j.cell).burBusy.all (fun x => decide (x.2.2.2 < now s') ||
      ((decide (x.2.1 < now s') || decide (now s' + 3071 < x.1)) && (decide (x.2.2.2 < now s' + 2087) || decide (now s' + 3110 < x.2.2.1)))) = true →
    ∃ t, exec (.update w) s = .next t ∧
      (now s', now s' + 3071, now s' + 2087, now s' + 3110) ∈ (cellAt t j.cell).burBusy ∧
      (mastersOff s' = false → hypOk j.hyp = true → flagOf w 2 = false →
        t.flights = s'.flights ++ [⟨j.start + 1, .update { j with read := beatCodes s' j.cell j.gAddr j.gFmt 0 } 1⟩]) ∧
      (mastersOff s' = true → t.flights = s'.flights ++ [⟨now s' + 3110, .sp j.cell (j.rec_ + 0x40) (ledgerOnly s' j 0)⟩]) ∧
      (mastersOff s' = false → hypOk j.hyp = false → t.flights = s'.flights ++
        [⟨now s' + 3110, .sp j.cell (j.rec_ + 0x40) (ledgerOnly s' j 4)⟩, ⟨now s' + 2087, .burWrite { j.empty with excs := [(2, 0, 0)] }⟩]) ∧
      (flagOf w 2 = false → (cellAt t j.cell).sp = (cellAt s' j.cell).sp) ∧ (∀ b, b ≠ j.cell → cellAt t b = cellAt s' b) ∧
      t.dram = s'.dram)

/-- COPY and BRIDGE read line i of their source on tick T + i and write it 40 ticks and 80 per bridge later, with its check bits: the first
line is in flight as read at the issue tick, the others wait for theirs. LOAD whose memory slots are free reads its lines in them and lands
line i in scratchpad 180 ticks and 80 per bridge after the issue, four per slot of waiting; nothing else moves before that. STORE whose
memory slots are free writes its lines in them; a store to the master region that the veto point's decision suppresses writes nothing, but
still empties its ring and keeps its slots. A LOAD or STORE whose slots are not free raises its violations and moves nothing. CAPTURE with
capture off empties capture ring 63 of its cell and writes nothing; with capture on and its memory slots free it puts its units in flight to
the DRAM ring, behind those of the CAPTURE words of its tick that come first, and advances the head by them.
Where the rules leave a point open the model follows logs 10, 30, 88 and 115. -/
def Obligations.MoverWordsMove : Prop :=
  (∀ (bridge : Bool) (w : Slot) (s : State), s.canonical = true →
    acts (if bridge then 0x54 else 0x51) w (if bridge then bridgeReady w else copyReady w) s = true →
    let s' := atIssue (if bridge then 0x54 else 0x51) w s
    let c := placePhys s' w.place
    let e := if bridge then opf w 69 68 else placeDie w.place
    let d := phys s' e (opf w 67 60)
    let land := now s' + 40 + (if bridge then 80 * bridges (placeDie w.place) e else 0)
    ∃ t, exec (if bridge then .bridge w else .copy w) s = .next t ∧
      t.flights = s'.flights ++ ⟨land, .spLine d (64 * mvDsp w) (spGet s' c (64 * mvSp w) 64) (spMarks s' c (64 * mvSp w))⟩ ::
        (List.range (mvLines w - 1)).map (fun i =>
          ⟨now s' + (i + 1), .moveLine c (64 * (mvSp w + (i + 1))) d (64 * (mvDsp w + (i + 1))) (land + (i + 1))⟩) ∧
      (∀ b, (cellAt t b).sp = (cellAt s' b).sp) ∧ t.dram = s'.dram) ∧
  (∀ (w : Slot) (s : State), s.canonical = true → acts 0x52 w (loadReady w) s = true →
    let s' := atIssue 0x52 w s
    let c := placePhys s' w.place
    let a := intakeSource s' (placeDie w.place) (64 * mvDram w)
    let k := dramBridges w (mvDram w)
    let σ := ceilDiv (stepTick s' + 8 + 40 * k) 4
    let claim := claimLines (lineAddrs a (mvLines w)) σ false s'
    (claim.1 = [] → ∃ t, exec (.load w) s = .next t ∧ t.mem = claim.2.mem ∧
      t.flights = s'.flights ++ ((List.range (mvLines w)).zip (placeList (lineAddrs a (mvLines w)) σ)).map (fun p =>
        ⟨s'.run.start + 4 * p.2.2, .loadLine c (64 * (mvSp w + p.1)) p.2.1 (now s' + 180 + 80 * k + 4 * (p.2.2 - σ)) false⟩) ∧
      (∀ b, (cellAt t b).sp = (cellAt s' b).sp) ∧ t.dram = s'.dram) ∧
    (claim.1 ≠ [] → ∃ t, exec (.load w) s = .next t ∧ OnlyReports s' t ∧ ∀ b ∈ claim.1, fld t Reg.SCH_VIOL b b = 1)) ∧
  (∀ (w : Slot) (s : State), s.canonical = true → acts 0x53 w (movStoreReady w) s = true →
    let s' := atIssue 0x53 w s
    let c := placePhys s' w.place
    let addrs := lineAddrs (64 * mvDram w) (mvLines w)
    let σ := ceilDiv (stepTick s' + 60 + 80 * dramBridges w (mvDram w)) 4
    let claim := claimLines addrs σ true s'
    (claim.1 = [] → ∃ t, exec (.movStore w) s = .next t ∧ t.mem = claim.2.mem ∧
      (mastersOff s' && inMaster s' (64 * mvDram w) (64 * mvLines w) = false → t.flights = s'.flights ++
        ((List.range (mvLines w)).zip (placeList addrs σ)).map fun p =>
          ⟨s'.run.start + 4 * p.2.2, .storeLine c (64 * (mvSp w + p.1)) p.2.1 false⟩) ∧
      (mastersOff s' && inMaster s' (64 * mvDram w) (64 * mvLines w) = true → t.flights = s'.flights) ∧
      (∀ b, (cellAt t b).sp = (cellAt s' b).sp) ∧ t.dram = s'.dram) ∧
    (claim.1 ≠ [] → ∃ t, exec (.movStore w) s = .next t ∧ OnlyReports s' t ∧ ∀ b ∈ claim.1, fld t Reg.SCH_VIOL b b = 1)) ∧
  (∀ (w : Slot) (s : State), s.canonical = true → acts 0x55 w (captureReady w) s = true →
    let s' := atIssue 0x55 w s
    let c := placePhys s' w.place
    let n := opf w 95 84
    let ring := ((ringsOf s' (placeDie w.place))[63]?).getD (1, 0)
    let head := if s'.run.capTick.1 = now s' then s'.run.capTick.2.1 else rd s' Reg.SCH_CAP_HEAD
    let addrs := capAddrs s' (head + captureBefore s' (placeKey w.place)) n
    let sorted := (addrs.filter fun a => decide (a < addrs.headD 0)) ++ addrs.filter fun a => ¬ a < addrs.headD 0
    let σ := ceilDiv (stepTick s' + 60 + 80 * bridges (placeDie w.place) (stackOf (addrs.headD 0) / 2)) 4
    let claim := claimLines sorted σ true s'
    let unit := fun (a : Nat) => ((((List.range n).zip addrs).find? fun q => q.2 == a).map (·.1)).getD 0
    (capOn s' = false → ∃ t, exec (.capture w) s = .next t ∧ ringUse t c 63 = 0 ∧ t.flights = s'.flights ∧ t.regs = s'.regs ∧
      (∀ b, (cellAt t b).sp = (cellAt s' b).sp) ∧ t.dram = s'.dram) ∧
    (capOn s' = true → claim.1 = [] → ∃ t, exec (.capture w) s = .next t ∧
      rd t Reg.SCH_CAP_HEAD = (rd s' Reg.SCH_CAP_HEAD + n) % capLen s' ∧ ringUse t c 63 = ringUse s' c 63 - n ∧
      t.flights = s'.flights ++ (placeList sorted σ).map (fun p => ⟨s'.run.start + 4 * p.2,
        .storeLine c (ring.2 + 64 * (((cellAt s' c).ring63.2 + unit p.1) % max ring.1 1)) p.1 false⟩) ∧
      (∀ b, (cellAt t b).sp = (cellAt s' b).sp) ∧ t.dram = s'.dram))

/-- SEND and RELAY with their link slots reserved and free claim them, put the flits of the first slot into the present link slot, and those
of each later slot eight ticks after the one before. RECV with its link slots reserved and free claims them; the flits that came are read
from the link receive buffer with its check bits and land in place, or are added, from the tick that R292 gives on, three flits every eight
ticks, works data all on the first tick of its window, each at its own place, and fill the ring that their span lies in; works data in no
ring raises violation 4, and so does a RECV with none there, which writes nothing. On the first tick of a link slot every port that carries
slots sends the slot's tag with what it has to send.
Where the rules leave a point open the model follows logs 10, 38 and 95. -/
def Obligations.LinkSlotsMove : Prop :=
  (∀ (flits : List (Option (List Byte))) (relay : Bool) (w : Slot) (s : State), s.canonical = true →
    acts (if relay then 0x63 else 0x61) w (if relay then relayReady w else sendReady w) s = true →
    let s' := atIssue (if relay then 0x63 else 0x61) w s
    let port := opf w 95 90
    let n := opf w 89 78
    let k := stepTick s' / 8
    let from_ := phys s' (opf w 77 76) (opf w 75 68)
    let ring := if port = 46 then opf w 54 52 else 0
    let rx := opf w 77 72
    stepTick s' % 8 = 0 →
    (∀ i, i < slotsOf n → linkSlotIs s' (2 * port) (k + i) (dataKind port) = true ∧ linkClaimed s' (2 * port) (k + i) = false) →
    ∃ t, exec (if relay then .relay w flits else .send w) s = .next t ∧
      (∀ i, i < slotsOf n → linkClaimed t (2 * port) (k + i) = true) ∧
      t.run.slotData = s'.run.slotData ++ [if relay then (port, 0, (flits.take n).take 3)
        else (port, ring, (chunks 256 (min 3 n) (spGet s' from_ (64 * opf w 67 55) (256 * min 3 n))).map some)] ∧
      t.flights = s'.flights ++ (List.range (slotsOf n - 1)).map (fun i => ⟨now s' + 8 * (i + 1),
        if relay then .linkRelay port (((flits.take n).drop (3 * (i + 1))).take 3)
        else .linkSend from_ (64 * opf w 67 55 + 768 * (i + 1)) (min 3 (n - 3 * (i + 1))) port ring⟩)
        ++ (if relay then ((List.range n).filter fun i => decide (3 ≤ i) && ((flits[i]?).getD none).isSome && rxMark s' rx i != 0).map
          (fun i => ⟨now s' + 8 * (i / 3), .rxRead rx none (rxMark s' rx i)⟩) else []) ∧
      t.cells = s'.cells ∧ t.dram = s'.dram) ∧
  (∀ (flits : List (Option (List Byte))) (w : Slot) (s : State), s.canonical = true → acts 0x62 w (recvReady w) s = true →
    let s' := atIssue 0x62 w s
    let port := opf w 95 90
    let n := opf w 89 78
    let k := stepTick s' / 8
    let c := phys s' (opf w 77 76) (opf w 75 68)
    let a := 64 * opf w 67 55
    let f := (tidFormat s' (opf w 53 38)).getD (0, 127)
    let came := (flits.take n).any Option.isSome
    let got := ((List.range n).zip flits).filterMap fun p => p.2.map fun d => (p.1, d)
    let mark := fun (i : Nat) => rxMark s' port i
    let read := fun (i due : Nat) => if mark i = 0 then [] else [Flight.mk due (.rxRead port (some c) (mark i))]
    let ring := ringAt s' (opf w 77 76) a (256 * n)
    stepTick s' % 8 = 0 →
    (∀ i, i < slotsOf n → linkSlotIs s' (2 * port + 1) (k + i) (dataKind port) = true ∧ linkClaimed s' (2 * port + 1) (k + i) = false) →
    ∃ t, exec (.recv w flits) s = .next t ∧
      (∀ i, i < slotsOf n → linkClaimed t (2 * port + 1) (k + i) = true) ∧
      (came = false → fld t Reg.SCH_VIOL 4 4 = 1 ∧ t.flights = s'.flights) ∧
      (came = true → opf w 54 54 = 0 → (t.flights = s'.flights ++ got.flatMap fun p =>
          let due := recvTick s' port + (if port = 46 then 0 else 8 * (p.1 / 3))
          ⟨due, .sp c (a + 256 * p.1) (p.2.take 256)⟩ :: (read p.1 due
            ++ if mark p.1 = 2 then (List.range 4).map fun i => ⟨due, .spBad c (a + 256 * p.1 + 64 * i)⟩ else [])) ∧
        (∀ r, ring = some r → ringUse t c r = ringUse s' c r + 4 * n) ∧
        (port = 46 ∧ ring = none → fld t Reg.SCH_VIOL 4 4 = 1)) ∧
      (came = true → opf w 54 54 ≠ 0 → t.flights = s'.flights ++ got.flatMap fun p =>
        let due := recvTick s' port + (if port = 46 then 0 else 8 * (p.1 / 3)) + 16
        read p.1 due ++ [⟨due, .recvAdd c (a + (if f.1 = 0 then 256 else 512) * p.1) f.1 f.2 (opf w 37 22) (8 * k)
          w.evalSeg (flagOf w 0) (p.2.take 256)⟩]) ∧
      (∀ b, (cellAt t b).sp = (cellAt s' b).sp) ∧ (ring = none ∨ opf w 54 54 ≠ 0 → t.cells = s'.cells) ∧ t.dram = s'.dram) ∧
  (∀ s : State, s.run.on = true → stepTick s % 8 = 0 → stepTick s + 8 ≤ stepPeriod s →
    let t := sendSlots s
    t.out = s.out ++ (litPorts s).map (fun l => .flits l (stepTick s / 8) (sentTag s l (stepTick s / 8) (validBits (slotOut s l).2))
      (slotOut s l).1 (slotOut s l).2) ∧
    t.run.slotData = [] ∧ t.regs = s.regs ∧ t.cells = s.cells ∧ t.dram = s.dram ∧ t.flights = s.flights)

/-- BARRIER in its place takes down its barrier point, with the result tick of R293 and R294 and the package's own byte, which SCH_BAR
shows; a level-2 one sends the forge's byte for the marks of its window when its level-1 stages end.
Where the rules leave a point open the model follows log 31. -/
def Obligations.BarrierTakesPoint : Prop :=
  ∀ (w : Slot) (s : State), s.canonical = true → acts 0x64 w (barrierReady w) s = true →
    let s' := atIssue 0x64 w s
    let level := opf w 95 94
    let commit := opf w 93 93 == 1
    let slots := barSlots s' (stepTick s') level
    barrierDue s' level < s'.run.start + stepPeriod s' → (if commit then s'.run.commit else s'.run.veto) = none →
    barrierBelow s' (placeWhere w.place) = false →
    stepTick s' % 8 = 0 → slots.all (fun x => linkSlotIs s' x.1 x.2.1 x.2.2 && !linkClaimed s' x.1 x.2.1) = true →
    ∃ t, exec (.barrier w) s = .next t ∧
      let byte := barrierByte (if commit then s' else gatherArrays s') commit
      (if commit then t.run.commit else t.run.veto) = some ⟨now s', barrierDue s' level, byte, level, []⟩ ∧
      (if commit then fld t Reg.SCH_BAR 23 16 else fld t Reg.SCH_BAR 7 0) = byte.toNat ∧
      (if commit then t.run.veto = s'.run.veto else t.run.commit = s'.run.commit) ∧
      t.flights = s'.flights ++ (if level = 2 then [⟨now s' + 5624, .barForge commit⟩] else []) ∧
      t.cells = s'.cells ∧ t.dram = s'.dram

/-! ### Castings and step services -/

/-- CASTING_LOAD with no casting running: state LOADING with reject code 0, the header read, all four stamp fields invalid, the step log and
the drain waits restarted; the tiles with their bindings, the function tables and the rings of every cell are empty (the rings: log 39,
DESIGN CHOICE). While a casting runs it is refused and changes nothing but the record of the refused access. CASTING_LOAD_COMPLETE ends
LOADING: in LOADED with the casting that the header describes where every check of R40 passes, else in REJECTED with the code of the first
check that fails and no casting. In any other state it does nothing. ARM in LOADED with a start tick that R66 allows, the intake rings, the
ports and the group table in order: ARMED, step 0, the stamps of the committed version and the other buffer. A start tick that R66 refuses
leaves LOADED with reject code 6. HALT while a casting runs is marked for the next tick; what HALT does in the other states, and while
LOADING, is the model's choice (log 84).
Where the rules leave a point open the model follows logs 67, 80 and 107. -/
def Obligations.CastingsLoadAndArm : Prop :=
  (∀ (src : Source) (x : State), x.canonical = true →
    x.pwr.inReset = false →
    let s := arrive x
    (castingRuns s = false → ∃ t, exec (.castingLoad src) x = .next t ∧ schState t = 1 ∧ fld t Reg.SCH_STATUS 11 4 = 0 ∧
      t.casting = some (headerOf s (imageAddr s)) ∧ rd t Reg.SCH_STAMP = 0xF ∧ rd t Reg.SCH_LOG_HEAD = 0 ∧ rd t Reg.SCH_LOG_READ = 0 ∧ rd t Reg.SCH_DRAIN_WAITS = 0 ∧
      (∀ c, (cellAt t c).tables = [] ∧ (cellAt t c).ringBytes = [] ∧ (cellAt t c).acc = [] ∧ (cellAt t c).side = [] ∧
        (cellAt t c).tiles = [] ∧ (cellAt t c).sp = (cellAt s c).sp) ∧ t.dram = s.dram ∧
      t.run.haltAt = none ∧ t.run.faultAt = none) ∧
    (castingRuns s = true → ∃ t, exec (.castingLoad src) x = .next t ∧ OnlyReports s t ∧ fld t Reg.HLT_STICKY0 2 2 = 1)) ∧
  (∀ s : State, s.canonical = true →
    let r := runChecks loadChecks { s with casting := some (headerOf s (imageAddr s)) }
    (schState s = 1 → ∃ t, exec .castingLoadComplete s = .next t ∧ t.cells = s.cells ∧
      if r.1 = 0 then schState t = 2 ∧ t.casting = some (headerOf s (imageAddr s))
      else schState t = 7 ∧ fld t Reg.SCH_STATUS 11 4 = r.1 ∧ t.casting = none ∧ ∀ a, a < 2 ^ 39 → dramByte t a = dramByte s a) ∧
    (schState s ≠ 1 → exec .castingLoadComplete s = .next s)) ∧
  (∀ (src : Source) (x : State), x.canonical = true →
    x.pwr.inReset = false →
    let s := arrive x
    (schState s = 2 → startTick s % 65536 = 0 → now s + 65536 ≤ startTick s → intakeBad s = false → portsUp s = true → groupNamesOwn s = true →
      ∃ t, exec (.arm src) x = .next t ∧ schState t = 3 ∧ rd t Reg.SCH_STEP = 0 ∧ rd t Reg.HST_INTAKE_BATCH = rd s Reg.HST_INTAKE_FIRST ∧
        stampOf t (version s % 2) = 0 ∧ stampOf t (1 - version s % 2) = 3 ∧ t.run = freshRun s.run ∧
        t.cells = s.cells ∧ t.dram = s.dram ∧ t.flights = s.flights) ∧
    (schState s = 2 → (startTick s % 65536 ≠ 0 ∨ startTick s < now s + 65536) →
      ∃ t, exec (.arm src) x = .next t ∧ schState t = 2 ∧ fld t Reg.SCH_STATUS 11 4 = 6 ∧ t.run = s.run ∧
        (∀ k, k ≠ Reg.SCH_STATUS → rd t k = rd s k) ∧ t.cells = s.cells ∧ t.dram = s.dram) ∧
    (castingRuns s = true → s.run.haltAt = none → ∃ t, exec (.halt src) x = .next t ∧ t.run = { s.run with haltAt := some (now s) } ∧
      t.regs = s.regs ∧ t.cells = s.cells ∧ t.dram = s.dram ∧ t.flights = s.flights) ∧
    (castingRuns s = false → exec (.halt src) x = .next s))

/-- LOAD_WINDOW of an armed or running casting opens a step period on its start tick: RUNNING, the step number, no outcome and no barrier
yet, no stream word fetched, no slot claimed, every operand buffer empty and every chain closed. -/
def Obligations.LoadWindowOpens : Prop :=
  ∀ s : State, s.canonical = true → s.run.on = false → (schState s = 3 ∨ schState s = 4) →
    let s' := runTo (periodStart s) s
    (schState s' = 3 ∨ schState s' = 4) →
    ∃ t, exec .loadWindow s = .next t ∧ schState t = 4 ∧ rd t Reg.SCH_STEP = nextStep s' ∧ rd t Reg.HLT_TAINT = 0 ∧
      t.run.on = true ∧ t.run.start = periodStart s ∧ t.run.outcome = none ∧ t.run.veto = none ∧ t.run.commit = none ∧
      t.run.suppressed = false ∧ t.run.newBatch = false ∧ t.run.steps = s'.run.steps + 1 ∧ t.streams = [] ∧ t.mem.slots = [] ∧
      (∀ c i, (bufAt t c i).staged = false) ∧ (∀ c i, (chainAt t c i).opened = false)

/-- VETO_RESULT on the result tick of a veto point that is not yet decided: the combined byte shows in SCH_BAR, and the first matching row
of R220 decides, a fault of the part's own included: an outcome that suppresses the period, or none and the period proceeds. COMMIT_RESULT
on the result tick of a commit point that is not yet decided, in a period that proceeds: a fault, a taint or a non-finite update decides an
outcome that commits nothing; otherwise the period commits: outcome 0, the next version, its buffer committed and the other retired.
Where the rules leave a point open the model follows log 95. -/
def Obligations.BarriersDecide : Prop :=
  (∀ (others : Byte) (s : State) (b : Barrier), s.canonical = true → s.run.veto = some b → s.run.on = true → s.run.vetoDone = false →
    let s' := runTo b.due s
    let byte := (s'.run.veto.getD b).combined s' false ||| others
    let code := vetoCode (byte.toNat ||| (if faultInForce s' then 1 else 0)) (fld s' Reg.SCH_OUTCOME 4 3) (fld s' Reg.SCH_OUTCOME 6 5)
    schState s' ≠ 5 →
    ∃ t, exec (.vetoResult others) s = .next t ∧ t.run.vetoDone = true ∧ fld t Reg.SCH_BAR 15 8 = byte.toNat ∧
      (∀ k, code = some k → t.run.outcome = some k ∧ t.run.suppressed = true ∧ fld t Reg.SCH_OUTCOME 2 0 = k) ∧
      (code = none → t.run.proceeds = true ∧ t.run.outcome = s'.run.outcome ∧ t.run.suppressed = s'.run.suppressed) ∧
      rd t Reg.SCH_VERSION = rd s' Reg.SCH_VERSION) ∧
  (∀ (others : Byte) (s : State) (b : Barrier), s.canonical = true → s.run.commit = some b → s.run.on = true → s.run.commitDone = false →
    let s' := runTo b.due s
    let byte := ((s'.run.commit.getD b).combined s' true ||| others) &&& 7
    let d := byte.toNat ||| (if faultInForce s' then 1 else 0)
    let v := (version s' + 1) % 2 ^ 32
    schState s' ≠ 5 → s'.run.proceeds = true →
    ∃ t, exec (.commitResult others) s = .next t ∧ t.run.commitDone = true ∧ fld t Reg.SCH_BAR 31 24 = byte.toNat ∧
      (d = 0 → t.run.outcome = some 0 ∧ rd t Reg.SCH_VERSION = v ∧ stampOf t (v % 2) = 0 ∧ stampOf t (1 - v % 2) = 1 ∧
        t.run.newBatch = true ∧ rd t Reg.SCH_COMMITS = min (rd s' Reg.SCH_COMMITS + 1) (2 ^ 32 - 1)) ∧
      (d ≠ 0 → t.run.suppressed = true ∧ rd t Reg.SCH_VERSION = version s' ∧
        t.run.outcome = some (if bits d 0 0 = 1 then 6
          else if bits d 1 1 = 1 then (if 2 ≤ fld s' Reg.SCH_OUTCOME 6 5 then 6 else 3) else 4)))

/-- STEP_PERIOD_END ends the period: its outcome stands, or is 7 after a halt and 6 otherwise. STEP_RECORD_COMPLETE sets rec_ok of its
buffer alone. STREAM_FETCH asks for the next line of a stream in a free STREAM slot of its pseudo-channel, which it claims as a scheduled
access, with violation 7 where R248 forbids the access (log 105, DESIGN CHOICE); on the tick that the slot ends (log 87, DESIGN CHOICE) the
words of the line join the buffer, as uncorrectable where a forced refresh has displaced them. -/
def Obligations.PeriodServices : Prop :=
  (∀ s : State, s.canonical = true → s.run.on = true →
    let s' := runTo (s.run.start + stepPeriod s) s
    ∃ t, exec .stepPeriodEnd s = .next t ∧ t.run.on = false ∧
      t.run.outcome = (match s'.run.outcome with | some c => some c | none => some (if schState s' = 5 then 7 else 6)) ∧
      t.cells = s'.cells ∧ t.flights = s'.flights) ∧
  (∀ (x : Fin 2) (s : State), s.canonical = true → s.run.recBusy.contains x.val = true →
    ∃ t, exec (.stepRecordComplete x) s = .next t ∧ fld t Reg.SCH_STAMP (4 + x.val) (4 + x.val) = 1 ∧
      t.run.recBusy = s.run.recBusy.filter (· != x.val) ∧ (∀ k, k ≠ Reg.SCH_STAMP → rd t k = rd s k) ∧
      t.cells = s.cells ∧ t.dram = s.dram) ∧
  (∀ (p : Place) (n : Fin 4097) (s : State) (k a m slot : Nat), s.run.on = true → schState s = 4 →
    let key := placeKey p
    let limit := min ((streamOf s key).asked + n.val) (fetchRoom s key)
    (nextFetch s key limit = some (k, a, m) → streamSlot s (pcOf a) = some slot → limit ≤ k + m →
      ∃ t, exec (.streamFetch p n) s = .next t ∧
        t.streams = put (fun _ => Stream.init) s.streams key { streamOf s key with asked := k + m } ∧
        t.mem.slots = (claimLine a slot false s).mem.slots ∧
        t.flights = s.flights ++ [⟨s.run.start + 4 * slot + 4, .fetch key k a m s.run.start false⟩] ∧
        (if lineClash s (pcOf a) slot (bankOf a) (rowOf a) false then fld t Reg.SCH_VIOL 7 7 = 1 else t.regs = s.regs ∧ t.run = s.run) ∧
        t.cells = s.cells ∧ t.dram = s.dram) ∧
    (nextFetch s key limit = none → exec (.streamFetch p n) s = .next s)) ∧
  (∀ (key k a m : Nat) (ue : Bool) (s : State), s.run.on = true → markOf s (lineOf (a / 64 * 64)) = 0 →
    let st := streamOf s key
    let t := landEffect (.fetch key k a m s.run.start ue) s
    t.streams = put (fun _ => Stream.init) s.streams key { st with words := st.words ++
      ((List.range m).map fun i => (k + i, BitVec.ofNat 128 (dramNat s (a + 16 * i) 16))).filter fun x => decide (st.issued ≤ x.1) } ∧
    (if ue then fld t Reg.MEM_STICKY 1 1 = 1 else t.regs = s.regs) ∧ t.cells = s.cells ∧ t.dram = s.dram ∧ t.flights = s.flights)

/-! ### Power of cells and dies -/

/-- A wake-table entry that wakes a cell in DOZE of a die that is up starts its wake: RUN 64 ticks later. One that dozes a cell in RUN or
waking starts its shut-down: DOZE 40 ticks later. CELL_IN_RUN and DOZE_COMPLETE end the two, a WAKE latched in the shut-down starting at its
end. Nothing else of the cell changes. That a cell still waking shuts down too is the model's choice (log 85). DIE_UP ends the rest of its die
and shows its PLL locked, whose lock counts from the end of a shut-down still under way (log 108, DESIGN CHOICE); DIE_REST of a die whose
cells are all in DOZE puts it to rest; DIE_AUTO_UP brings every resting die up 24,576 ticks before the next period.
Where the rules leave a point open the model follows log 81. -/
def Obligations.CellAndDiePower : Prop :=
  (∀ (die : Fin 4) (cell : Fin 256) (at_ : BitVec 32) (s : State), s.canonical = true →
    (wakeEntryIs s die.val at_.toNat cell.val 1 = true →
      let s' := runTo (s.run.start + at_.toNat) s
      let c := phys s' die.val cell.val
      dieReady s' die.val = true → (cellAt s' c).power = .doze →
      ∃ t, exec (.wake die cell at_) s = .next t ∧ cellAt t c = { cellAt s' c with power := .waking (now s' + 64) } ∧
        (∀ b, b ≠ c → cellAt t b = cellAt s' b) ∧ t.regs = s'.regs ∧ t.dram = s'.dram) ∧
    (wakeEntryIs s die.val at_.toNat cell.val 2 = true →
      let s' := runTo (s.run.start + at_.toNat) s
      let c := phys s' die.val cell.val
      ((cellAt s' c).power = .run ∨ ∃ d, (cellAt s' c).power = .waking d) →
      ∃ t, exec (.doze die cell at_) s = .next t ∧ cellAt t c = { cellAt s' c with power := .shutting (now s' + 40) false } ∧
        (∀ b, b ≠ c → cellAt t b = cellAt s' b) ∧ t.regs = s'.regs ∧ t.dram = s'.dram) ∧
    (∀ d, (cellAt s (phys s die.val cell.val)).power = .waking d →
      ∃ t, exec (.cellInRun die cell) s = .next t ∧
        cellAt t (phys s die.val cell.val) = { cellAt (runTo d s) (phys s die.val cell.val) with power := .run } ∧
        t.regs = (runTo d s).regs ∧ t.dram = (runTo d s).dram) ∧
    (∀ d latched, (cellAt s (phys s die.val cell.val)).power = .shutting d latched →
      ∃ t, exec (.dozeComplete die cell) s = .next t ∧
        cellAt t (phys s die.val cell.val) =
          { cellAt (runTo d s) (phys s die.val cell.val) with power := if latched then .waking (d + 64) else .doze } ∧
        t.regs = (runTo d s).regs ∧ t.dram = (runTo d s).dram)) ∧
  (∀ (die : Fin 4) (at_ : BitVec 32) (s : State), s.canonical = true →
    (wakeEntryIs s die.val at_.toNat 0 3 = true →
      let s' := runTo (s.run.start + at_.toNat) s
      s'.pwr.rests.contains die.val = true →
      ∃ t, exec (.dieUp die at_) s = .next t ∧ t.pwr.rests = s'.pwr.rests.filter (· != die.val) ∧
        t.pwr.upAt = put (fun _ => 0) s'.pwr.upAt die.val (now s' + pllStops s' die.val) ∧
        fld t Reg.PWR_STATUS (3 + die.val) (3 + die.val) = 1 ∧ (∀ k, k ≠ Reg.PWR_STATUS → rd t k = rd s' k) ∧
        t.cells = s'.cells ∧ t.dram = s'.dram) ∧
    (wakeEntryIs s die.val at_.toNat 0 4 = true →
      let s' := runTo (s.run.start + at_.toNat) s
      (List.range 256).all (fun l => inDoze s' (phys s' die.val l)) = true → s'.pwr.rests.contains die.val = false →
      ∃ t, exec (.dieRest die at_) s = .next t ∧ t.pwr.rests = s'.pwr.rests ++ [die.val] ∧
        t.pwr.restAt = put (fun _ => 0) s'.pwr.restAt die.val (s'.time.cycles + 1) ∧
        fld t Reg.PWR_STATUS (3 + die.val) (3 + die.val) = 0 ∧ (∀ k, k ≠ Reg.PWR_STATUS → rd t k = rd s' k) ∧
        t.cells = s'.cells ∧ t.dram = s'.dram) ∧
    ((schState s = 3 ∨ s.run.on = true ∧ schState s = 4) →
      let s' := runTo (periodStart s - 24576) s
      ∃ t, exec .dieAutoUp s = .next t ∧ (∀ d, d < 4 → t.pwr.rests.contains d = false) ∧
        (∀ k, k ≠ Reg.PWR_STATUS → rd t k = rd s' k) ∧ t.cells = s'.cells ∧ t.dram = s'.dram))

/-! ### Verdicts of analogue arrays -/

/-- WRITE_VERDICT and SWEEP_VERDICT run the time to the verdict in flight for their array, on whose tick it lands whatever comes before. A
verdict with no failing column changes nothing. One with failing columns sets write_fail or sweep_fail and names array, column and kind of
the last of them in ARR_FAIL; a failing column of an array with a spare left asks for one: with both fill slots of its die free, slot 0
becomes active for it.
Where the rules leave a point open the model follows log 28. -/
def Obligations.VerdictsReport : Prop :=
  (∀ (die : Fin 4) (cell : Fin 256) (array : Fin 64) (s : State) (due : Nat),
    (dueOf s (isVerdict die.val cell.val array.val false) = some due →
      ∃ t, exec (.writeVerdict die cell array) s = .next t ∧ t = withQueue s.pending (runTo due s)) ∧
    (dueOf s (isVerdict die.val cell.val array.val true) = some due →
      ∃ t, exec (.sweepVerdict die cell array) s = .next t ∧ t = withQueue s.pending (runTo due s))) ∧
  (∀ (die : Fin 4) (cell : Fin 256) (array : Fin 64) (swept : Bool) (latched : List Byte) (s : State), s.canonical = true →
    wf (fun _ => Fill.none) s.spr.fills = true →
    let c := phys s die.val cell.val
    let bit := if swept then 3 else 2
    landEffect (.verdict die.val cell.val array.val swept [] latched) s = s ∧
    (∀ (fails : List (Nat × Nat)) (f : Nat × Nat), c < 1088 → fails.getLast? = some f → f.1 < 256 → f.2 < 4 →
      let t := landEffect (.verdict die.val cell.val array.val swept fails latched) s
      fld t (cellKey c Reg.ARR_STICKY) bit bit = 1 ∧ rd t (cellKey c Reg.ARR_FAIL) = array.val + 64 * f.1 + 16384 * f.2) ∧
    (∀ f : Nat × Nat, f.1 < 256 → freeSpares s c array.val ≠ [] →
      let t := landEffect (.verdict die.val cell.val array.val swept [f] latched) s
      t.cells = s.cells ∧ t.dram = s.dram ∧ t.flights = s.flights ∧
      (fillState s die.val 0 = 0 → fillState s die.val 1 = 0 →
        fld t (fillKey die.val 0) 25 0 = 2 + 4 + 16 * cell.val + 4096 * array.val + 262144 * f.1 ∧
        (fillAt t die.val 0).latched = latched)))

/-- TRIM_SET_IN_FORCE runs the time to the tick of its trim set. On it, in native mode, every column of the conversion list takes its new
trims whole; in ramped mode it takes the new n, keeps its off, and heads for the new trims over the next 256 evaluations. The generation
advances, the trims before it stay known under the old one, t_cal is the temperature of the calibration, and CAL_RECALS counts it.
SLICE_HANDOFF waits for the end of what occupies its array. On a free array with rotation on, a calibrating slice that passed takes its
group, unless a slice is retired; one that failed is retired and reported with kind 5, and the cell is replaced only where a conversion group
is left without a slice. With rotation off nothing happens.
Where the rules leave a point open the model follows logs 12, 28 and 29. -/
def Obligations.TrimSetsAndHandoffs : Prop :=
  (∀ (die : Fin 4) (cell : Fin 256) (array : Fin 64) (s : State) (due : Nat),
    dueOf s (isTrims (phys s die.val cell.val) array.val) = some due →
    ∃ t, exec (.trimSetInForce die cell array) s = .next t ∧ t = withQueue s.pending (runTo due s)) ∧
  (∀ (c a : Nat) (set : SMap Trim) (s : State), s.canonical = true → wf (fun _ => none) (arrAt s c a).past = true →
    (arrAt s c a).staged = some set →
    let t := landEffect (.trims c a) s
    let x := arrAt s c a
    let ramped := s.casting.elim false (·.decith)
    let new := fun q => get (fun _ => (0 : Trim)) set (listCol s c a q)
    (∀ q, q < 260 → targetTrim t c a (listCol s c a q) = new q ∧
      (ramped = false → trimAt t c a (listCol s c a q) = new q) ∧
      (ramped = true → trimN (trimAt t c a (listCol s c a q)) = trimN (new q) ∧
        trimOff (trimAt t c a (listCol s c a q)) = trimOff (trimAt s c a (listCol s c a q)))) ∧
    (∀ rng q, q < 260 → (x.held.find? fun e => e.1 == x.gen.toNat && decide (rng < e.2.1)) = none →
      trimsOf t c a x.gen.toNat rng q = some (targetTrim s c a (listCol s c a q))) ∧
    (arrAt t c a).gen = x.gen + 1 ∧ (arrAt t c a).tcal = x.stagedT ∧ (arrAt t c a).calibrated = true ∧
    (arrAt t c a).staged = none ∧ (arrAt t c a).rampLeft = (if ramped then 256 else 0) ∧
    (∀ b, b ≠ a → arrAt t c b = arrAt s c b) ∧ (∀ b, b ≠ c → cellAt t b = cellAt s b) ∧
    (cellAt t c).codes = (cellAt s c).codes ∧ (cellAt t c).sp = (cellAt s c).sp ∧
    rd t Reg.CAL_RECALS = min (rd s Reg.CAL_RECALS + 1) (2 ^ 32 - 1) ∧ (ramped = true → fld t Reg.CAL_STICKY 5 5 = 1) ∧
    (∀ k, k ≠ Reg.CAL_RECALS → k ≠ Reg.CAL_STICKY → rd t k = rd s k) ∧ t.dram = s.dram ∧ t.flights = s.flights) ∧
  (∀ (die : Fin 4) (cell : Fin 256) (array : Fin 64) (passed : Bool) (s : State), s.canonical = true →
    let c := phys s die.val cell.val
    let x := arrAt s c array.val
    let lost := if x.retired = [] then x.slice else dueSlice s
    let y := { x with retired := x.retired ++ [lost] }
    (now s < x.busy → ∃ t, exec (.sliceHandoff die cell array passed) s = .next t ∧
      t = { s with flights := s.flights ++ [⟨x.busy, .handoff die.val cell.val array.val passed⟩] }) ∧
    (x.busy ≤ now s → fld s Reg.CAL_CTRL 1 1 = 0 → exec (.sliceHandoff die cell array passed) s = .next s) ∧
    (x.busy ≤ now s → fld s Reg.CAL_CTRL 1 1 = 1 → passed = true →
      ∃ t, exec (.sliceHandoff die cell array passed) s = .next t ∧
        arrAt t c array.val = (if x.retired = [] then { x with slice := dueSlice s } else x) ∧ t.regs = s.regs ∧ t.dram = s.dram ∧
        (∀ a, a ≠ array.val → arrAt t c a = arrAt s c a) ∧ (∀ b, b ≠ c → cellAt t b = cellAt s b)) ∧
    (x.busy ≤ now s → fld s Reg.CAL_CTRL 1 1 = 1 → passed = false → x.retired.contains lost = false →
      ∃ t, exec (.sliceHandoff die cell array passed) s = .next t ∧ arrAt t c array.val = y ∧ fld t Reg.CAL_STICKY 3 3 = 1 ∧
        rd t Reg.CAL_LAST = die.val + 4 * cell.val + 1024 * array.val + 65536 * 0x1FF + 33554432 * 5 ∧ fld t Reg.SPR_STICKY 4 4 = 1 ∧
        (∀ a, a ≠ array.val → arrAt t c a = arrAt s c a) ∧ (∀ b, b ≠ c → cellAt t b = cellAt s b) ∧ t.dram = s.dram ∧
        ((List.range 33).any (groupLost y) = false → t.spr = { s.spr with dirty := true }) ∧
        ((List.range 33).any (groupLost y) = true → freeCells s die.val ≠ [] → fillState s die.val 0 = 0 → fillState s die.val 1 = 0 →
          fld t (fillKey die.val 0) 11 0 = 2 + 8 + 16 * cell.val)))

/-! ### Memory stacks -/

/-- ARBITRATION_POINT of an offered slot. With no grant in force the agent that R260 chooses among those that can move a line begins a grant
of as many lines as its credit, its segment and its request allow: the slot is its own, the line is counted and charged, and the slots left
of the grant stand with the tick of its first line. Under a grant whose agent can go on the next line moves, the second slot of the write of
part of a line without another count or charge; a row that its own agent opened makes no line wait (log 106, DEDUCED). Where the agent is gone, has no
data, or has held the port for MEM_ARB_HOLD, the grant is cut and counted as cut. A slot that is not offered stays as it is.
Where the rules leave a point open the model follows log 87. -/
def Obligations.ArbitrationGrants : Prop :=
  ∀ (stack : Fin 8) (pc : Fin 64) (slot : BitVec 32) (reqs : List Req) (s : State), s.canonical = true →
    let p := 64 * stack.val + pc.val
    let at_ := s.run.start + 4 * slot.toNat
    let s' := runTo (decisionTick s slot.toNat) s
    let g := grantAt s' p
    let a := g.1 % 8 - 1
    s.run.on = true → s'.run.on = true → s'.run.start = s.run.start → now s' = decisionTick s slot.toNat →
    bits (fld s' Reg.MEM_STATUS 7 0) stack.val stack.val = 0 →
    wf (fun _ => 0) s'.mem.slots = true → wf (fun _ => 0) s'.mem.credits = true → wf (fun _ => 0) s'.mem.window = true →
    wf (fun _ => (0, 0)) s'.mem.grants = true →
    (offered s' p slot.toNat = false → ∃ t, exec (.arbitrationPoint stack pc slot reqs) s = .next t ∧ t = withQueue s.pending s') ∧
    (∀ r : Req, offered s' p slot.toNat = true → g.1 = 0 →
      let live := reqs.filter fun r => decide (r.lines > 0)
      let ok := live.filter fun r => r.ready && bankFree s' p slot.toNat r
      let x := countSlot p (if windowAt s' p = 0 || (fullest s' p live).isNone then startWindow p s' else s')
      let n := slotsFor r (min (min (creditOf x p r.agent.val) 16) (min r.segment r.lines))
      fullest x p ok = some r →
      ∃ t, exec (.arbitrationPoint stack pc slot reqs) s = .next t ∧
        claimOf t p slot.toNat = agentClaim r (r.write && !r.partLine) (!rowOpen s' p slot.toNat r) ∧
        (∀ q k, k < 2 ^ 32 → (q ≠ p ∨ k ≠ slot.toNat) → claimOf t q k = claimOf s' q k) ∧
        creditOf t p r.agent.val = creditOf x p r.agent.val - 1 ∧
        grantAt t p = (if n ≤ 1 then (0, 0) else (1 + r.agent.val + 8 * (n - 1), at_)) ∧
        rd t (Reg.MEM_ARB_LINES + 4 * r.agent.val) = min (rd s' (Reg.MEM_ARB_LINES + 4 * r.agent.val) + 1) (2 ^ 32 - 1) ∧
        (∀ k, k ≠ Reg.MEM_ARB_LINES + 4 * r.agent.val → rd t k = rd s' k) ∧
        t.cells = s'.cells ∧ t.dram = s'.dram ∧ t.flights = s'.flights) ∧
    (∀ r : Req, offered s' p slot.toNat = true → g.1 ≠ 0 → (reqs.find? fun r => r.agent.val == a) = some r → r.ready = true →
      at_ < g.2 + fld s' Reg.MEM_ARB_HOLD 15 0 → bankFree s' p slot.toNat r = true →
      let second := r.partLine && g.1 / 8 % 2 == 1
      let y := countSlot p (if windowAt s' p = 0 then startWindow p s' else s')
      ∃ t, exec (.arbitrationPoint stack pc slot reqs) s = .next t ∧
        claimOf t p slot.toNat = agentClaim r (r.write && (!r.partLine || second)) (!rowOpen s' p slot.toNat r) ∧
        creditOf t p a = (if second || agentWeight s' a == 0 then creditOf y p a else creditOf y p a - 1) ∧
        grantAt t p = (if g.1 / 8 ≤ 1 then (0, 0) else (1 + a + 8 * (g.1 / 8 - 1), g.2)) ∧
        rd t (Reg.MEM_ARB_LINES + 4 * a) =
          (if second then rd s' (Reg.MEM_ARB_LINES + 4 * a) else min (rd s' (Reg.MEM_ARB_LINES + 4 * a) + 1) (2 ^ 32 - 1)) ∧
        (∀ k, k ≠ Reg.MEM_ARB_LINES + 4 * a → rd t k = rd s' k) ∧ t.cells = s'.cells ∧ t.dram = s'.dram ∧ t.flights = s'.flights) ∧
    (offered s' p slot.toNat = true → g.1 ≠ 0 → ((reqs.find? fun r => r.agent.val == a) = none ∨
        ∃ r, (reqs.find? fun r => r.agent.val == a) = some r ∧ (r.ready = false ∨ g.2 + fld s' Reg.MEM_ARB_HOLD 15 0 ≤ at_)) →
      ∃ t, exec (.arbitrationPoint stack pc slot reqs) s = .next t ∧
        rd t Reg.MEM_ARB_CUTS = min (rd s' Reg.MEM_ARB_CUTS + 1) (2 ^ 32 - 1) ∧
        t.cells = s'.cells ∧ t.dram = s'.dram ∧ t.flights = s'.flights)

/-- BANK_REFRESH_DUE starts or counts what its bank owes; in a hold and while no period runs the refresh is made at once (the second is the
model's choice, log 87), on a tripped stack in the first free slot. FORCED_REFRESH of a bank whose refresh fell due four intervals ago or
earlier, in the slot that begins next, pays it and takes the slot, displaces the scheduled lines there, raises violation 7 and sets
ref_late; elsewhere it does nothing. SCRUB reads its line: a corrected line is rewritten clean and counted, a line that does not read clean
keeps its condition and sets the sticky bit of its kind, a report of the inner code is counted, a clean one changes no register; with the
scrub off or the stack tripped nothing happens. No byte that a read of DRAM delivers changes.
Where the rules leave a point open the model follows logs 71, 73 and 86. -/
def Obligations.RefreshAndScrub : Prop :=
  (∀ (stack : Fin 8) (pc : Fin 64) (bank : Fin 16) (slot : BitVec 32) (s : State), s.canonical = true →
    wf (fun _ => 0) s.mem.refDue = true → wf (fun _ => 0) s.mem.slots = true →
    let p := 64 * stack.val + pc.val
    let k := dramBankKey p bank.val
    let old := refOwed s p bank.val
    let trip := bits (fld s Reg.MEM_STATUS 7 0) stack.val stack.val
    (∃ t, exec (.bankRefreshDue stack pc bank) s = .next t ∧
      (holding s = true ∨ s.run.on = false → refOwed t p bank.val = 0 ∧ t.mem.slots = s.mem.slots) ∧
      (holding s = false → s.run.on = true → trip = 1 →
        refOwed t p bank.val = 0 ∧ claimOf t p (freeSlot s p (nextSlot s)) = refreshClaim) ∧
      (holding s = false → s.run.on = true → trip = 0 → t.mem.slots = s.mem.slots ∧
        (old = 0 ∨ refreshed s p bank.val (old / 16) = true → refOwed t p bank.val = 16 * now s + 1) ∧
        (old ≠ 0 → refreshed s p bank.val (old / 16) = false →
          refOwed t p bank.val / 16 = old / 16 ∧ refOwed t p bank.val % 16 = min 15 (old % 16 + 1))) ∧
      (∀ j, j ≠ k → get (fun _ => 0) t.mem.refDue j = get (fun _ => 0) s.mem.refDue j) ∧
      t.regs = s.regs ∧ t.cells = s.cells ∧ t.dram = s.dram ∧ t.flights = s.flights) ∧
    (s.run.on = true → holding s = false → 5 ≤ old % 16 → refreshed s p bank.val (old / 16) = false → slot.toNat = nextSlot s →
      ∃ t, exec (.forcedRefresh stack pc bank slot) s = .next t ∧ refOwed t p bank.val = 0 ∧ claimOf t p slot.toNat = refreshClaim ∧
        (∀ j, j ≠ k → get (fun _ => 0) t.mem.refDue j = get (fun _ => 0) s.mem.refDue j) ∧
        t.flights = (displace p (s.run.start + 4 * slot.toNat) s).flights ∧ fld t Reg.SCH_VIOL 7 7 = 1 ∧ fld t Reg.MEM_STICKY 4 4 = 1 ∧
        (∀ k, k ≠ Reg.MEM_STICKY → reportKey k = false → rd t k = rd s k) ∧ t.cells = s.cells ∧ t.dram = s.dram) ∧
    (s.run.on = false ∨ holding s = true ∨ old % 16 < 5 ∨ refreshed s p bank.val (old / 16) = true ∨ slot.toNat ≠ nextSlot s →
      exec (.forcedRefresh stack pc bank slot) s = .next s)) ∧
  (∀ (line : BitVec 33) (s : State), s.canonical = true →
    let m := markOf s line.toNat
    let o := (readLine m).1
    let e := Reg.MEM_ERR + 4 * stackOf (64 * line.toNat)
    let st := line.toNat / 2 ^ 30
    (fld s Reg.MEM_SCRUB 7 0 = 0 ∨ bits (fld s Reg.MEM_STATUS 7 0) st st = 1 → exec (.scrub line) s = .next s) ∧
    (fld s Reg.MEM_SCRUB 7 0 ≠ 0 → bits (fld s Reg.MEM_STATUS 7 0) st st = 0 → ∃ t, exec (.scrub line) s = .next t ∧ (∀ a, dramByte t a = dramByte s a) ∧ t.cells = s.cells ∧
      t.flights = s.flights ∧ (∀ l, l ≠ line.toNat → markOf t l = markOf s l) ∧ markOf t line.toNat = (if o = 1 then 0 else m) ∧
      fld t e 31 24 = min (fld s e 31 24 + bits m 1 1) 0xFF ∧
      (m = 0 → t.regs = s.regs) ∧
      (o = 1 → fld t e 15 0 = min (fld s e 15 0 + 1) 0xFFFF ∧ fld t Reg.MEM_STICKY 0 0 = 1) ∧
      (o = 2 → fld t e 23 16 = min (fld s e 23 16 + 1) 0xFF ∧ fld t Reg.MEM_STICKY 1 1 = 1) ∧
      (o = 3 → fld t e 23 16 = min (fld s e 23 16 + 1) 0xFF ∧ fld t Reg.MEM_STICKY 3 3 = 1) ∧
      (o = 4 → fld t e 23 16 = fld s e 23 16 ∧ fld t Reg.MEM_STICKY 2 2 = 1)))

/-- STACK_TEMP_READOUT: a valid reading shows in MEM_TEMP with its peak, sets the refresh rate bit from 85 °C on, and trips the stack from
95 °C on until it reads below 90; a missing one clears the valid bit. The level it asks for goes into PWR_STRETCH with the highest of all
sources. PPR_RUN with listed rows and no casting running starts the repair, which changes nothing else; while a casting runs it is refused.
PPR_COMPLETE ends it: the list is empty, a repaired row's lines are clean where the code corrected them and poisoned where not, no byte that
a read of DRAM delivers changes, and a row with no resource left joins the retired list.
Where the rules leave a point open the model follows logs 71 and 74. -/
def Obligations.TemperaturesAndRepair : Prop :=
  (∀ (temps : List (Option (BitVec 8))) (s : State), s.canonical = true →
    ∃ t, exec (.stackTempReadout temps) s = .next t ∧
      (∀ m v, m < 8 → temps[m]? = some (some v) →
        fld t (Reg.MEM_TEMP + 4 * m) 7 0 = v.toNat ∧ fld t (Reg.MEM_TEMP + 4 * m) 16 16 = 1 ∧
        sx 8 (fld t (Reg.MEM_TEMP + 4 * m) 15 8) = max v.toInt (sx 8 (fld s (Reg.MEM_TEMP + 4 * m) 15 8)) ∧
        fld t Reg.MEM_STATUS (8 + m) (8 + m) = (if 85 ≤ v.toInt then 1 else 0) ∧
        fld t Reg.MEM_STATUS m m = (if 95 ≤ v.toInt then 1 else if v.toInt < 90 then 0 else fld s Reg.MEM_STATUS m m)) ∧
      (∀ m, m < 8 → temps[m]? = some none → fld t (Reg.MEM_TEMP + 4 * m) 16 16 = 0 ∧ fld t Reg.MEM_STATUS m m = fld s Reg.MEM_STATUS m m) ∧
      fld t Reg.PWR_STRETCH 8 6 = fld t Reg.MEM_STATUS 18 16 ∧
      fld t Reg.PWR_STRETCH 5 3 = min 4 ([fld s Reg.PWR_STRETCH 2 0, fld t Reg.PWR_STRETCH 8 6, fld s Reg.PWR_STRETCH 11 9,
        fld s Reg.PWR_STRETCH 14 12, fld s Reg.PWR_STRETCH 17 15, fld s Reg.PWR_STRETCH 20 18].foldl max 0) ∧
      t.cells = s.cells ∧ t.dram = s.dram ∧ t.flights = s.flights) ∧
  (∀ (src : Source) (x : State), x.canonical = true →
    x.pwr.inReset = false →
    let s := arrive x
    (castingRuns s = false → s.mem.repair ≠ [] →
      ∃ t, exec (.pprRun src) x = .next t ∧ t.mem = { s.mem with pprBusy := true } ∧ t.regs = s.regs ∧ t.dram = s.dram ∧ t.cells = s.cells) ∧
    (castingRuns s = true → ∃ t, exec (.pprRun src) x = .next t ∧ OnlyReports s t ∧ fld t Reg.HLT_STICKY0 2 2 = 1)) ∧
  (∀ (repaired : List Bool) (s : State), s.canonical = true → s.mem.pprBusy = true →
    let rows : List Nat := s.mem.repair.flatMap (·.2)
    ∃ t, exec (.pprComplete repaired) s = .next t ∧ t.mem.pprBusy = false ∧ t.mem.repair = [] ∧
      fld t Reg.MEM_STATUS 26 19 = 0 ∧ t.cells = s.cells ∧
      ((∀ k ∈ rows, k < 2 ^ 29) → ∀ a, a < 2 ^ 39 → dramByte t a = dramByte s a) ∧
      (∀ i k n : Nat, rows[i]? = some k → k < 2 ^ 29 → (repaired[i]?).getD true = true → n < 16 →
        let l := (k / 2 ^ 26 * 2 ^ 36 + k % 2 ^ 26 / 1024 * 2 ^ 20 + k % 1024 / 64 * 2 ^ 16 + k % 64 * 1024) / 64 + n
        markOf t l = (if outcomeOf s l ≤ 1 then 0 else condition true false 0)) ∧
      (∀ i k : Nat, rows[i]? = some k → (repaired[i]?).getD true = false →
        fld t Reg.MEM_STICKY 7 7 = 1 ∧ (3, k / 2 ^ 26, k % 64, k % 1024 / 64, k % 2 ^ 26 / 1024) ∈ t.spr.retired))

/-! ### Optical ports -/

/-- PORT_TRAINING starts the sequence of a port that is not UP and may be lit, TRAINING_RETRY of one that is not in it, DISC_RUN of every
one. A stage that ends well leads to the next: beacons at 4, UP or miswired at the end; one that overruns leads back to DARK. Where the port
may not be lit nothing happens. -/
def Obligations.PortsTrain : Prop :=
  ∀ (phys : Fin 48) (s : State), s.canonical = true → wf (fun _ => Port.init) s.fab.ports = true →
    let p := phys.val
    let x := portAt s p
    let st := portState s p
    (st ≠ 5 → mayTrain s p = true → ∃ t, exec (.portTraining phys) s = .next t ∧ portState t p = 0 ∧ (portAt t p).stageAt = s.time.cycles + 1 ∧
      (∀ k, k ≠ portKey p → rd t k = rd s k) ∧ (∀ q, q ≠ p → portAt t q = portAt s q) ∧ t.cells = s.cells ∧ t.dram = s.dram) ∧
    (st = 5 ∨ mayTrain s p = false → exec (.portTraining phys) s = .next s) ∧
    (st ≠ 5 → mayTrain s p = true → x.stageAt = 0 → ∃ t, exec (.trainingRetry phys) s = .next t ∧ portState t p = 0 ∧
      (portAt t p).stageAt = s.time.cycles + 1 ∧ (∀ k, k ≠ portKey p → rd t k = rd s k) ∧ t.cells = s.cells ∧ t.dram = s.dram) ∧
    (st = 5 ∨ mayTrain s p = false ∨ x.stageAt ≠ 0 → exec (.trainingRetry phys) s = .next s) ∧
    (s.pwr.inReset = false → ∀ src, let s' := arrive s
      wf (fun _ => Port.init) s'.fab.ports = true → ∃ t, exec (.discRun src) s = .next t ∧ t.cells = s'.cells ∧ t.dram = s'.dram ∧
      ∀ q, q < 48 → (portState s' q ≠ 5 → mayTrain s' q = true → portState t q = 0 ∧ (portAt t q).stageAt = s'.time.cycles + 1) ∧
        (portState s' q = 5 ∨ mayTrain s' q = false → rd t (portKey q) = rd s' (portKey q))) ∧
    (x.stageAt = 0 ∨ mayTrain s p = false → ∀ ok, exec (.trainingStageEnd phys ok) s = .next s) ∧
    (x.stageAt ≠ 0 → mayTrain s p = true → ∃ t, exec (.trainingStageEnd phys false) s = .next t ∧ portState t p = 0 ∧
      (portAt t p).stageAt = 0 ∧ (∀ k, k ≠ portKey p → rd t k = rd s k) ∧ t.out = s.out ∧ t.cells = s.cells) ∧
    (x.stageAt ≠ 0 → mayTrain s p = true → ∃ t, exec (.trainingStageEnd phys true) s = .next t ∧
      portState t p = (if st = 0 ∨ st = 7 then 1 else if st < 4 then st + 1 else if partnerFits s p then 5 else 6) ∧
      (st = 2 → fld t (portKey p) 15 12 = 0xF ∧ fld t (portKey p) 11 3 = 0x1FF) ∧
      (st = 3 → ∃ b, t.out = s.out ++ List.replicate 3 (.ctrl p 1 b)) ∧
      (4 ≤ st → st ≠ 7 → (portAt t p).credits = 64 ∧ (partnerFits s p = false → fld t Reg.FAB_STICKY 1 1 = 1)) ∧
      t.cells = s.cells ∧ t.dram = s.dram)

/-- BEACON of a partner, once the port is in discovery: what the flit says is kept, FAB_PORT_PARTNER names the partner and its port, and
FAB_ADDR the timekeeper; a delay is measured when the flit returns a time, and is left open (log 14). While a casting runs, a partner whose
offset is out of tolerance raises a job fault. A flit of another type, or with an address of forge 96 to 127, is discarded. BEACON_TIMER
sends the part's own, and on an UP port a LOCK with it (log 14). -/
def Obligations.BeaconsDiscover : Prop :=
  ∀ (phys : Fin 48) (flit : List Byte) (s : State), s.canonical = true → wf (fun _ => Port.init) s.fab.ports = true →
    let p := phys.val
    let f := fun o n => leNat ((flit.drop o).take n)
    let beacon := Output.ctrl p 1 ((beaconFlit s p).map (·.toNat))
    (portState s p < 4 ∨ portState s p = 7 ∨ f 0 1 ≠ 1 ∨ validAddr (f 4 2) = false ∨ validAddr (f 6 2) = false →
      exec (.beacon phys flit) s = .next s) ∧
    (4 ≤ portState s p → portState s p ≠ 7 → f 0 1 = 1 → validAddr (f 4 2) = true → validAddr (f 6 2) = true →
      ∃ t, exec (.beacon phys flit) s = .next t ∧
      rd t (bankKey Reg.FAB_PORT_PARTNER p) = f 4 2 + 65536 * (f 2 1 % 64) ∧ fld t Reg.FAB_ADDR 31 16 = findTimekeeper t ∧
      (portAt t p).beacons = (portAt s p).beacons + 1 ∧ (portAt t p).lastSent = BitVec.ofNat 64 (f 0x10 8) ∧
      (portAt t p).lastAt = s.time.mandrel ∧ (portAt t p).partnerFlags = BitVec.ofNat 16 (f 8 2) ∧
      (portAt t p).mapOk = ((flit.drop 0x40).take 32 == mapHash s) ∧
      (f 0x18 8 = 0 → rd t (bankKey Reg.FAB_PORT_DELAY p) = rd s (bankKey Reg.FAB_PORT_DELAY p)) ∧
      (f 0x18 8 ≠ 0 → rd t (bankKey Reg.FAB_PORT_DELAY p) < 2 ^ 20) ∧
      (castingRuns s = false → t.run = s.run ∧ fld t Reg.FAB_STICKY 5 5 = fld s Reg.FAB_STICKY 5 5) ∧
      (castingRuns s = true → f 0x18 8 = 0 → portUp t ((logicalAt s p).getD 47) = true →
        beaconOut t p ((logicalAt s p).getD 47) (f 0x10 8) = true → fld t Reg.FAB_STICKY 5 5 = 1 ∧ t.run.faultAt.isSome = true) ∧
      (∀ k, k ≠ bankKey Reg.FAB_PORT_PARTNER p → k ≠ bankKey Reg.FAB_PORT_DELAY p → k ≠ Reg.FAB_ADDR → k ≠ Reg.FAB_STICKY →
        reportKey k = false → rd t k = rd s k) ∧
      t.cells = s.cells ∧ t.dram = s.dram ∧ t.out = s.out) ∧
    (portState s p = 5 → ∃ t, exec (.beaconTimer phys) s = .next t ∧
      t.out = s.out ++ [beacon, .ctrl p 2 [s.time.mandrel.toNat, (portAt s p).lockSent.toNat]] ∧ t.regs = s.regs ∧ t.fab = s.fab ∧
      t.cells = s.cells) ∧
    (portState s p = 6 → ∃ t, exec (.beaconTimer phys) s = .next t ∧ t.out = s.out ++ [beacon] ∧ t.regs = s.regs ∧ t.fab = s.fab ∧
      t.cells = s.cells) ∧
    (portState s p ≠ 5 → portState s p ≠ 6 → exec (.beaconTimer phys) s = .next s)

/-- DIM darkens by plan a port that is lit or trains, so that no lane of it works, and nothing else. CREDIT gives parcel buffers back up to
64, and as many parcels stored for the port as there are credits leave in order, each giving the credit of the buffer it held back to the
port it came by. PARCEL: one with an invalid address is discarded; one that an uncorrectable codeword covers is dropped, its credit
returned, and counted unless that codeword's own command has counted it already; one for the part is taken and its credit returned; one for
elsewhere leaves by the port of its route where that has a credit, and then its own credit returns, else it stays stored; where there is no
route it is dropped and counted and its credit returns. One for which the port has no buffer is dropped (log 97). -/
def Obligations.CreditsAndParcels : Prop :=
  (∀ (phys : Fin 48) (n : Fin 65) (s : State), s.canonical = true → wf (fun _ => Port.init) s.fab.ports = true →
    let p := phys.val
    let c := min 64 ((portAt s p).credits + n.val)
    let waiting := s.fab.stored.filter fun x => x.1 == p
    (portLasers s p = false → exec (.dim phys) s = .next s) ∧
    (portLasers s p = true → ∃ t, exec (.dim phys) s = .next t ∧ portState t p = 7 ∧ (portAt t p).planned = true ∧ (portAt t p).stageAt = 0 ∧
      fld t (portKey p) 11 3 = 0 ∧
      (∀ k, k ≠ portKey p → rd t k = rd s k) ∧ (∀ q, q ≠ p → portAt t q = portAt s q) ∧ t.cells = s.cells ∧ t.run = s.run) ∧
    (∃ t, exec (.credit phys n) s = .next t ∧
      t.out = s.out ++ (waiting.take c).flatMap (fun x => .parcel p x.2.2 :: x.2.1.elim [] fun q => [.ctrl q 7 [1]]) ∧
      (portAt t p).credits = c - min c waiting.length ∧ t.fab.stored.length = s.fab.stored.length - min c waiting.length ∧
      (t.fab.stored.filter fun x => x.1 != p) = (s.fab.stored.filter fun x => x.1 != p) ∧
      t.regs = s.regs ∧ t.cells = s.cells ∧ t.dram = s.dram)) ∧
  (∀ (phys : Fin 48) (x : Parcel) (s : State), s.canonical = true → wf (fun _ => Port.init) s.fab.ports = true →
    let credit := Output.ctrl phys.val 7 [1]
    let counted := (portAt s phys.val).parcelLost
    let s0 := setPort phys.val { portAt s phys.val with parcelLost := false } s
    let dropped := fun t : State => rd t Reg.FAB_PARCEL_DROPS = min (rd s Reg.FAB_PARCEL_DROPS + 1) (2 ^ 32 - 1) ∧ fld t Reg.FAB_STICKY 9 9 = 1 ∧
      t.fab = s0.fab ∧ t.cells = s.cells ∧ t.dram = s.dram
    let sound := validAddr x.dst.toNat = true ∧ validAddr x.src.toNat = true
    (¬ sound → ∀ bad, exec (.parcel phys x bad) s = .next s0) ∧
    (sound → counted = false → ∃ t, exec (.parcel phys x true) s = .next t ∧ dropped t ∧ t.out = s.out ++ [credit]) ∧
    (sound → counted = true → ∃ t, exec (.parcel phys x true) s = .next t ∧ t.regs = s.regs ∧ t.fab = s0.fab ∧ t.out = s.out ++ [credit] ∧
      t.cells = s.cells ∧ t.dram = s.dram) ∧
    (sound → 64 ≤ buffersUsed s phys.val → ∃ t, exec (.parcel phys x false) s = .next t ∧ dropped t ∧ t.out = s.out) ∧
    (sound → buffersUsed s phys.val < 64 → x.dst.toNat = ownAddr s → ∃ t, exec (.parcel phys x false) s = .next t ∧
      t.out = s.out ++ [credit] ∧ t.regs = s.regs ∧ t.fab = s0.fab ∧ t.cells = s.cells ∧ t.dram = s.dram) ∧
    (sound → buffersUsed s phys.val < 64 → x.dst.toNat ≠ ownAddr s → route s x.dst.toNat = none →
      ∃ t, exec (.parcel phys x false) s = .next t ∧ dropped t ∧ t.out = s.out ++ [credit]) ∧
    (∀ l, sound → buffersUsed s phys.val < 64 → x.dst.toNat ≠ ownAddr s → route s x.dst.toNat = some l →
      let o := physOf s l
      ∃ t, exec (.parcel phys x false) s = .next t ∧ t.regs = s.regs ∧ t.cells = s.cells ∧ t.dram = s.dram ∧
        ((portAt s o).credits = 0 → t.out = s.out ∧ t.fab.stored = s.fab.stored ++ [(o, some phys.val, x)]) ∧
        ((portAt s o).credits ≠ 0 → (s.fab.stored.filter fun y => y.1 == o) = [] →
          t.out = s.out ++ [.parcel o x, credit] ∧ t.fab.stored = s.fab.stored ∧ (portAt t o).credits = (portAt s o).credits - 1)))

/-- A lane of an UP port that goes dark, or has corrected more symbols than the threshold allows, while lane 8 is free asks the partner for a
swap 800 mandrel counts ahead; one that goes dark takes the port down, all its lanes dark, where lane 8 carries another lane's stream, does not
work, or is promised to another dark lane; where it is promised to a lane that still works the dark lane takes it. Lane 8 itself is missed only
where a lane needs it. LANE of the partner acknowledges its request. LANE_SWAP moves the stream of the named lane to lane 8. LOSS_OF_LIGHT
takes a lit port to DARK and sets port_down; an UP port whose partner is no spare raises a job fault while a casting runs, and with the buddy
behind it the part finds its buddy gone and calls for a new ingot (log 103).
Where the rules leave a point open the model follows logs 37 and 96. -/
def Obligations.LanesAndLight : Prop :=
  (∀ (phys : Fin 48) (lane : Fin 9) (count : BitVec 64) (s : State), s.canonical = true → wf (fun _ => Port.init) s.fab.ports = true →
    let p := phys.val
    let l := lane.val
    let m := s.time.mandrel.toNat + 800
    (∀ dark, portState s p = 5 → fld s (portKey p) 15 12 ≠ l → l < 8 → dark = true ∨ laneNoisy s p l = true → spareTaken s p = false →
      fld s (portKey p) 11 11 = 1 → ∃ t, exec (.laneDegraded phys lane dark) s = .next t ∧ (portAt t p).swapLane = some (l, m) ∧
        t.out = s.out ++ [.ctrl p 4 [l, m, 0]] ∧ fld t (portKey p) (3 + l) (3 + l) = (if dark then 0 else fld s (portKey p) (3 + l) (3 + l)) ∧
        portState t p = 5 ∧ (∀ k, k ≠ portKey p → rd t k = rd s k) ∧ t.cells = s.cells) ∧
    (laneNoisy s p l = false → exec (.laneDegraded phys lane false) s = .next s) ∧
    (portState s p = 5 → spareTaken s p = true ∨ l = 8 → exec (.laneDegraded phys lane false) s = .next s) ∧
    (portState s p = 5 → fld s (portKey p) 15 12 ≠ l →
      let down := ∃ t, exec (.laneDegraded phys lane true) s = .next t ∧ portState t p = 0 ∧ fld t (portKey p) 11 3 = 0 ∧
        (castingRuns s = true → fld t Reg.FAB_STICKY 4 4 = 1 ∧ t.run.faultAt.isSome = true) ∧ t.cells = s.cells ∧ t.dram = s.dram
      let stays := fun (lane8 : Option (Nat × Nat)) (out : List Output) => ∃ t, exec (.laneDegraded phys lane true) s = .next t ∧
        portState t p = 5 ∧ fld t (portKey p) (3 + l) (3 + l) = 0 ∧ (portAt t p).swapLane = lane8 ∧ t.out = s.out ++ out ∧
        (∀ k, k ≠ portKey p → rd t k = rd s k) ∧ t.run = s.run ∧ t.cells = s.cells ∧ t.dram = s.dram
      (l < 8 → spareInUse s p = true ∨ laneWorks s p 8 = false → down) ∧
      (∀ j n, l < 8 → spareInUse s p = false → laneWorks s p 8 = true → (portAt s p).swapLane = some (j, n) →
        (j = l → stays (some (l, n)) []) ∧ (j ≠ l → laneWorks s p j = true → stays (some (l, m)) [.ctrl p 4 [l, m, 0]]) ∧
        (j ≠ l → laneWorks s p j = false → down)) ∧
      (l = 8 → (portAt s p).swapLane = none → (spareInUse s p = true → down) ∧ (spareInUse s p = false → stays none [])) ∧
      (∀ j n, l = 8 → (portAt s p).swapLane = some (j, n) → (laneWorks s p j = false → down) ∧ (laneWorks s p j = true → stays none []))) ∧
    (portState s p = 5 → l ≠ 8 → spareTaken s p = false → ∃ t, exec (.lane phys lane count false) s = .next t ∧
      (portAt t p).swapLane = some (l, count.toNat) ∧ t.out = s.out ++ [.ctrl p 4 [l, count.toNat, 1]] ∧ t.regs = s.regs ∧
      t.cells = s.cells) ∧
    (exec (.lane phys lane count true) s = .next s) ∧
    (∀ j n, (portAt s p).swapLane = some (j, n) → j < 8 →
      let s' := toMandrel (mandrelFuel s n) n s
      ∃ t, exec (.laneSwap phys) s = .next t ∧ fld t (portKey p) 15 12 = j ∧ fld t (portKey p) (3 + j) (3 + j) = 0 ∧
        fld t Reg.FAB_STICKY 3 3 = 1 ∧ (∀ k, k ≠ portKey p → k ≠ Reg.FAB_STICKY → reportKey k = false → rd t k = rd s' k) ∧
        t.cells = s'.cells ∧ t.dram = s'.dram) ∧
    ((portAt s p).swapLane = none → exec (.laneSwap phys) s = .next s)) ∧
  (∀ (phys : Fin 48) (s : State), s.canonical = true →
    let p := phys.val
    let buddy := fld s Reg.ING_BUDDY 16 16 = 1 ∧ fld s (bankKey Reg.FAB_PORT_PARTNER p) 15 0 = fld s Reg.ING_BUDDY 15 0
    (portState s p = 0 ∨ portState s p = 7 → exec (.lossOfLight phys) s = .next s) ∧
    (portState s p ≠ 0 → portState s p ≠ 7 → ∃ t, exec (.lossOfLight phys) s = .next t ∧ portState t p = 0 ∧ fld t (portKey p) 11 3 = 0 ∧
      fld t Reg.FAB_STICKY 0 0 = 1 ∧
      (portState s p = 5 → bits (portAt s p).partnerFlags.toNat 1 0 ≠ 1 → castingRuns s = true →
        fld t Reg.FAB_STICKY 4 4 = 1 ∧ t.run.faultAt.isSome = true) ∧
      (buddy → t.ing.byBuddy = false ∧ 4 ∈ t.ing.calls ∧ fld t Reg.ING_STICKY 7 7 = 1 ∧ fld t Reg.ING_STATUS 3 3 = 1) ∧
      (¬ buddy → t.ing = s.ing) ∧ t.cells = s.cells ∧ t.dram = s.dram))

/-! ### Slot tags, the time base, windows and holds -/

/-- SLOT_TAG: a poison or fault bit reaches the flag on the tick that the latency sheet gives it, a later tick by a flight of its own: a
poison bit taints a step in progress with cause 10, a fault bit raises a job fault. The tag of a neighbour in the forge adds its level to
the held one, a different ratio is a job fault, and the byte of a BAR flit joins the stage that it belongs to. A corrected codeword is
counted, and its symbols on its lane. An overlapped tag says nothing. UNCORRECTABLE_CODEWORD is counted, taints where it covers a scheduled
data flit and drops a parcel, which counts once whatever the number of its codewords. LOCK on an UP port of the partner that the part
follows shows the offset; with a casting running an offset out of tolerance is a job fault, and nothing steps; with none running the part
follows, locked within the tolerance and stepping by whole ticks outside it (log 14, DESIGN CHOICE); on the works port the timekeeper's tick
steps onto that of a lower forge, and so of forge 0, where it is more than 64 off. STRETCH_BOUNDARY brings the held level into force on the
next multiple of 65,536 ticks and holds the local one for the next; halfway the held level is frozen.
Where the rules leave a point open the model follows log 95. -/
def Obligations.TagsLocksStretches : Prop :=
  (∀ (port : Fin 47) (tag : BitVec 24) (bar : Option Byte) (fixed : List (Fin 9 × Fin 16)) (s : State), s.canonical = true →
    let v := tag.toNat
    let at_ := noticeTick s port.val (bits v 10 5)
    (exec (.slotTag port tag ⟨true, bar, []⟩) s = .next s) ∧
    (∃ t, exec (.slotTag port tag ⟨true, bar, fixed⟩) s = .next t ∧ t.fab.held = s.fab.held ∧ t.run = s.run ∧ t.cells = s.cells ∧
      t.dram = s.dram ∧ t.flights = s.flights) ∧
    (∃ t, exec (.slotTag port tag ⟨false, bar, fixed⟩) s = .next t ∧
      (bits v 3 3 = 1 → at_ ≤ now s → fld t Reg.FAB_STICKY 13 13 = 1 ∧ (s.run.on = true → fld t Reg.HLT_TAINT 0 0 = 1)) ∧
      (bits v 4 4 = 1 → at_ ≤ now s → fld t Reg.FAB_STICKY 12 12 = 1 ∧ (castingRuns s = true → t.run.faultAt.isSome = true)) ∧
      t.flights = (if bits v 4 3 ≠ 0 ∧ now s < at_ then s.flights ++ [⟨at_, .notice port.val (bits v 3 3 == 1) (bits v 4 4 == 1)⟩]
        else s.flights) ∧
      (port.val ≠ 46 → s.fab.frozen = false → (bits v 16 16 == 1) = s.fab.par → t.fab.held = s.fab.held ||| BitVec.ofNat 4 (bits v 14 11)) ∧
      (port.val = 46 ∨ s.fab.frozen = true ∨ (bits v 16 16 == 1) ≠ s.fab.par → t.fab.held = s.fab.held) ∧
      (port.val ≠ 46 → bits v 19 17 ≠ ratioCode s → fld t Reg.FAB_STICKY 6 6 = 1 ∧ (castingRuns s = true → t.run.faultAt.isSome = true)) ∧
      (∀ (b : Byte) (y : Barrier) (i at_ : Nat), bar = some b → barStages s port.val (bits v 10 5) = [(false, i, at_)] →
        s.run.veto = some y → wf (fun _ => 0) y.got = true →
        ∃ z, t.run.veto = some z ∧ get (fun _ => 0) z.got i = get (fun _ => 0) y.got i ||| b ∧ z.byte = y.byte ∧ z.due = y.due) ∧
      t.cells = s.cells ∧ t.dram = s.dram) ∧
    (∀ (lane : Fin 9) (n : Fin 16), n.val ≠ 0 → wf (fun _ => Port.init) s.fab.ports = true →
      let q := physOf s port.val
      wf (fun _ => 0) (portAt s q).symbols = true →
      ∃ t, exec (.slotTag port tag ⟨true, bar, [(lane, n)]⟩) s = .next t ∧
        rd t (bankKey Reg.FAB_PORT_FEC_CE q) = min (rd s (bankKey Reg.FAB_PORT_FEC_CE q) + 1) (2 ^ 32 - 1) ∧
        fld t (bankKey Reg.FAB_PORT_FEC_UE q) 27 24 = max n.val (fld s (bankKey Reg.FAB_PORT_FEC_UE q) 27 24) ∧
        laneSymbols t q lane.val = laneSymbols s q lane.val + n.val)) ∧
  (∀ (port : Nat) (poison fault : Bool) (s : State), s.canonical = true →
    let t := landEffect (.notice port poison fault) s
    (poison = true → fld t Reg.FAB_STICKY 13 13 = 1 ∧ (s.run.on = true → fld t Reg.HLT_TAINT 0 0 = 1)) ∧
    (fault = true → fld t Reg.FAB_STICKY 12 12 = 1 ∧ (castingRuns s = true → t.run.faultAt.isSome = true)) ∧
    t.cells = s.cells ∧ t.dram = s.dram ∧ t.flights = s.flights) ∧
  (∀ (phys : Fin 48) (scheduled parcel : Bool) (s : State), s.canonical = true →
    let e := bankKey Reg.FAB_PORT_FEC_UE phys.val
    ∃ t, exec (.uncorrectableCodeword phys scheduled parcel) s = .next t ∧ fld t e 23 0 = min (fld s e 23 0 + 1) (2 ^ 24 - 1) ∧
      fld t Reg.FAB_STICKY 2 2 = 1 ∧ (scheduled = true → s.run.on = true → fld t Reg.HLT_TAINT 0 0 = 1) ∧
      (parcel = true → (portAt s phys.val).parcelLost = false → rd t Reg.FAB_PARCEL_DROPS = min (rd s Reg.FAB_PARCEL_DROPS + 1) (2 ^ 32 - 1) ∧
        fld t Reg.FAB_STICKY 9 9 = 1 ∧ (wf (fun _ => Port.init) s.fab.ports = true → (portAt t phys.val).parcelLost = true)) ∧
      (parcel = false ∨ (portAt s phys.val).parcelLost = true → rd t Reg.FAB_PARCEL_DROPS = rd s Reg.FAB_PARCEL_DROPS) ∧ t.cells = s.cells ∧ t.dram = s.dram ∧ t.flights = s.flights) ∧
  (∀ (phys : Fin 48) (sent echo : BitVec 64) (offset : BitVec 16) (s : State) (l : Nat), s.canonical = true →
    let out := decide (lockTolerance l < offset.toInt.natAbs)
    let tick := BitVec.ofNat 64 ((now s : Int) + offset.toInt / 16).toNat
    let delay := bankKey Reg.FAB_PORT_DELAY phys.val
    let far := fld s Reg.FAB_ADDR 31 16 = ownAddr s ∧
      addrForge (rd s (bankKey Reg.FAB_PORT_PARTNER (physOf s 46)) % 65536) < addrForge (ownAddr s) ∧ out = true
    logicalAt s phys.val = some l → l ≤ 46 → portState s phys.val = 5 →
    ∃ t, exec (.lock phys sent echo offset) s = .next t ∧ (echo = 0 → rd t delay = rd s delay) ∧ (echo ≠ 0 → rd t delay < 2 ^ 20) ∧
      (l ≠ 46 → fld t Reg.FAB_LOCK 15 0 = if follows s l then offset.toNat else fld s Reg.FAB_LOCK 15 0) ∧
      (l ≠ 46 → castingRuns s = true → t.time = s.time ∧ (out = true → fld t Reg.FAB_STICKY 5 5 = 1 ∧ t.run.faultAt.isSome = true) ∧
        (out = false → t.run = s.run)) ∧
      (l ≠ 46 → castingRuns s = false → follows s l = true → fld t Reg.FAB_LOCK 16 16 = (if out then 0 else 1) ∧
        t.time.tick = (if out then tick else s.time.tick) ∧ (∀ k, k ≠ Reg.FAB_LOCK → k ≠ delay → rd t k = rd s k)) ∧
      (l ≠ 46 → castingRuns s = false → follows s l = false → t.time = s.time ∧ (∀ k, k ≠ delay → rd t k = rd s k)) ∧
      (l = 46 → castingRuns s = false → far → t.time.tick = tick) ∧
      (l = 46 → castingRuns s = true ∨ ¬ far → t.time = s.time) ∧
      (l = 46 → ∀ k, k ≠ delay → rd t k = rd s k) ∧
      t.time.cycles = s.time.cycles ∧ t.cells = s.cells ∧ t.dram = s.dram) ∧
  (∀ s : State, s.canonical = true →
    let s' := runTo (nextMultiple 65536 s) s
    let h := runTo (65536 * (now s / 65536) + 32768) s
    (∃ t, exec .stretchBoundary s = .next t ∧ fld t Reg.FAB_COMBINE 3 0 = s'.fab.held.toNat ∧
      fld t Reg.FAB_COMBINE 4 4 = (if s'.fab.heldHold then 1 else 0) ∧ fld t Reg.PWR_STRETCH 23 21 = thermoLevel s'.fab.held ∧
      t.fab.held = thermo (fld s' Reg.PWR_STRETCH 5 3) ∧ t.fab.frozen = false ∧
      (∀ k, k ≠ Reg.FAB_COMBINE → k ≠ Reg.PWR_STRETCH → rd t k = rd s' k) ∧ t.cells = s'.cells ∧ t.dram = s'.dram ∧ t.run = s'.run) ∧
    (∃ t, exec .stretchHalfway s = .next t ∧ t.fab.frozen = true ∧ t.fab.held = h.fab.held ∧ t.regs = h.regs ∧ t.cells = h.cells ∧
      t.dram = h.dram ∧ t.run = h.run))

/-- MARK keeps a forge's newest window and its barrier bytes, and gives the units it frees back to their rings. WINDOW_BOUNDARY sends the
MARK of the window that ends and starts a hold where one is in force, which is counted and reported; HOLD_FLIT in a hold keeps a neighbour's
status, takes on the release and raises the fault; HOLD_RELEASE ends the hold on its mandrel count.
Where the rules leave a point open the model follows logs 9, 37 and 98. -/
def Obligations.WindowsAndHolds : Prop :=
  ∀ (forge : Fin 96) (window : BitVec 44) (veto commit : Byte) (freed : List Nat) (phys : Fin 48) (status : BitVec 2) (fault : Bool)
    (release : Option (BitVec 64)) (s : State), s.canonical = true →
    let s' := runTo (nextMultiple (2 ^ 20) s) s
    let w := nextMultiple (2 ^ 20) s / 2 ^ 20 - 1
    let inHold := holding s = true ∧ (logicalAt s phys.val).getD 47 ≤ 45
    (∃ t, exec (.mark forge window veto commit freed) s = .next t ∧
      (wf (fun _ => 0) s.fab.marks = true →
        get (fun _ => 0) t.fab.marks forge.val = max (window.toNat + 1) (get (fun _ => 0) s.fab.marks forge.val) ∧
        ∀ g, g ≠ forge.val → get (fun _ => 0) t.fab.marks g = get (fun _ => 0) s.fab.marks g) ∧
      (wf (fun _ => (0, 0, 0)) s.fab.markBytes = true →
        get (fun _ => (0, 0, 0)) t.fab.markBytes (4 * forge.val + window.toNat % 4) = (window.toNat + 1, veto, commit)) ∧
      (freed = [] → t.fab.worksCredit = s.fab.worksCredit) ∧
      (∀ n, freed = [n] → wf (ringCap s) s.fab.worksCredit = true → worksCredit t 0 = worksCredit s 0 + n) ∧
      t.regs = s.regs ∧ t.cells = s.cells ∧ t.dram = s.dram) ∧
    (nextMultiple (2 ^ 20) s ≠ 0 → ∃ t, exec .windowBoundary s = .next t ∧ t.fab.winBytes = (0, 0) ∧ t.fab.freed = [] ∧
      (portUp s' 46 = true → Output.ctrl (physOf s' 46) 3 ([addrForge (roleAddr s'), w, s'.fab.winBytes.1.toNat, s'.fab.winBytes.2.toNat]
        ++ (List.range 8).map (get (fun _ => 0) s'.fab.freed)) ∈ t.out) ∧
      (fld s' Reg.FAB_COMBINE 4 4 = 0 → t.regs = s'.regs) ∧
      (fld s' Reg.FAB_COMBINE 4 4 = 1 → holding t = true ∧ fld t Reg.FAB_STICKY 7 7 = 1 ∧
        rd t Reg.FAB_HOLDS = min (rd s' Reg.FAB_HOLDS + 1) (2 ^ 32 - 1)) ∧ t.cells = s'.cells ∧ t.dram = s'.dram ∧ t.flights = s'.flights) ∧
    (∃ t, exec (.holdFlit phys status fault release) s = .next t ∧
      (fault = true → fld t Reg.FAB_STICKY 12 12 = 1 ∧ (castingRuns s = true → t.run.faultAt.isSome = true)) ∧
      (¬ inHold → t.fab = s.fab) ∧
      (inHold → (phys.val ∈ t.fab.holdOthers ↔ bits status.toNat 0 0 = 1) ∧ (release ≠ none → t.fab.release ≠ none) ∧
        (∀ m, release = some m → s.fab.release = none → fld s Reg.FAB_ADDR 31 16 ≠ ownAddr s → t.fab.release = some m)) ∧
      (∀ k, k ≠ Reg.FAB_STICKY → rd t k = rd s k) ∧ t.cells = s.cells ∧ t.dram = s.dram) ∧
    (∀ m, s.fab.release = some m → holding s = true →
      let r := toMandrel (mandrelFuel s m.toNat) m.toNat s
      ∃ t, exec .holdRelease s = .next t ∧ holding t = false ∧ t.fab.release = none ∧ t.fab.holdOthers = [] ∧
        (∀ k, k ≠ Reg.FAB_COMBINE → rd t k = rd r k) ∧ t.cells = r.cells ∧ t.dram = r.dram) ∧
    (s.fab.release = none → exec .holdRelease s = .next s)

/-! ### Parcels and ingots -/

/-- DATA nobody asked for is answered with status 2 and sets unexpected; the first parcel of an image starts to fill a guest slot, the next ones
in sequence are placed in the guest slot or the mould, and one that comes again counts for the acknowledgement of every 256. BUDDY_ACK_TIMER
acknowledges. FETCH sends a held image. ACK of status 0 moves the window, the first of them giving the buddy's feed, of status 1 secures the
ingot; BUDDY_TIMEOUT sends again from the expected parcel, and the sixteenth gives the buddy stage up. What is sent is read from DRAM, which
delivers the same bytes after.
Where the rules leave a point open the model follows logs 42 and 104. -/
def Obligations.ImagesTravel : Prop :=
  let delivers := fun (s t : State) => ∀ a, a < 2 ^ 39 → dramByte t a = dramByte s a
  (∀ (x : Parcel) (s : State), s.canonical = true →
    let src := x.src.toNat
    let guest := fld s Reg.ING_GUEST 16 16 == 1 && src == fld s Reg.ING_GUEST 15 0
    let mould := (s.ing.fetching && src == fld s Reg.ING_RESTORE_SEL 31 16) || (!guest && s.ing.fetched.any fun y => y.src == src)
    let serial := leNat ((x.payload.drop 8).take 4)
    let slot := fillSlot s
    let len := manifestLen x.payload
    let known := if mould then s.ing.fetched else s.ing.incoming
    let after := fun (y : Incoming) => if mould then { s.ing with fetched := some y } else { s.ing with incoming := some y }
    (mould = false → guest = false → ∃ t, exec (.data x) s = .next t ∧ fld t Reg.ING_STICKY 8 8 = 1 ∧
      t.ing = s.ing ∧ t.fab.seq = s.fab.seq + 1 ∧ t.dram = s.dram ∧ t.cells = s.cells) ∧
    (guest = true → mould = false → (∀ y, s.ing.incoming = some y → y.serial ≠ serial ∨ y.src ≠ src) → x.seq = 0 →
      len ≤ 65536 * rd s Reg.ING_GUEST_LEN → ∃ t, exec (.data x) s = .next t ∧
        t.ing = { s.ing with incoming := some ⟨src, false, slot, serial, len, 1, 1, none⟩ } ∧
        fld t Reg.ING_GUEST_STAT 3 3 = 1 ∧ fld t Reg.ING_GUEST_STAT slot slot = 0 ∧
        (let w := writeSpan (guestBase s slot) (x.payload.take (min x.payload.length len)) s
        t.dram = w.dram ∧ (∀ k, k ≠ Reg.ING_GUEST_STAT → rd t k = rd w k) ∧ t.cells = s.cells ∧ t.out = s.out)) ∧
    (∀ y, (mould || guest) = true → known = some y → y.src = src → y.mould = mould → y.status = none → x.seq ≠ 0 → x.seq.toNat = y.next →
      y.next + 1 < parcelsOf y.len → y.owed + 1 < 256 →
      ∃ t, exec (.data x) s = .next t ∧ t.ing = after { y with next := y.next + 1, owed := y.owed + 1 } ∧
        (let w := writeSpan (inBase s y + 3840 * y.next) (x.payload.take (min x.payload.length (y.len - 3840 * y.next))) s
        t.dram = w.dram ∧ t.regs = w.regs ∧ t.cells = s.cells ∧ t.out = s.out)) ∧
    (∀ y, (mould || guest) = true → known = some y → y.src = src → y.mould = mould → x.seq ≠ 0 → (y.status.isSome ∨ x.seq.toNat ≠ y.next) →
      ∃ t, exec (.data x) s = .next t ∧ t.ing = after { y with owed := if y.owed + 1 < 256 then y.owed + 1 else 0 } ∧
        t.fab.seq = (if y.owed + 1 < 256 then s.fab.seq else s.fab.seq + 1) ∧ t.dram = s.dram ∧ t.cells = s.cells)) ∧
  (∀ s : State, s.canonical = true → (∀ y, s.ing.incoming = some y → y.mould = false) → (∀ y, s.ing.fetched = some y → y.mould = true) →
    let owes := [s.ing.incoming, s.ing.fetched].filter fun o => o.any fun y => y.owed != 0
    (owes = [] → exec .buddyAckTimer s = .next s) ∧
    (∃ t, exec .buddyAckTimer s = .next t ∧
      t.ing = { s.ing with incoming := s.ing.incoming.map fun y => { y with owed := 0 }, fetched := s.ing.fetched.map fun y => { y with owed := 0 } } ∧
      t.fab.seq = s.fab.seq + BitVec.ofNat 32 owes.length ∧ t.dram = s.dram ∧ t.cells = s.cells)) ∧
  (∀ (x : Parcel) (s : State) (k : Nat), s.canonical = true →
    ([0, 1].find? fun k => guestHeld s k && dramNat s (guestBase s k + 0x22) 2 == leNat (x.payload.take 2)
      && dramNat s (guestBase s k + 0x0C) 4 == leNat ((x.payload.drop 2).take 4)) = some k →
    ∃ t, exec (.fetch x) s = .next t ∧ ∃ o, t.ing.serve = some o ∧ o.dst = x.src.toNat ∧ o.base = guestBase s k ∧
      o.len = (if k = 0 then s.ing.guestLen.1 else s.ing.guestLen.2) ∧ o.acked = 0 ∧ o.sendAt = min (parcelsOf o.len) 4096 ∧
      delivers s t ∧ t.cells = s.cells) ∧
  (∀ (x : Parcel) (s : State) (o : Outgoing), s.canonical = true →
    let f := fun a n => leNat ((x.payload.drop a).take n)
    s.ing.buddy = some o → o.dst = x.src.toNat → f 0 4 = rd s Reg.ING_LAST_SERIAL → stage s = 3 →
    (f 8 1 = 0 → ∃ t, exec (.ack x) s = .next t ∧ ∃ y, t.ing.buddy = some y ∧ y.acked = max o.acked (f 4 4) ∧ y.heard = true ∧
      fld t Reg.ING_FEED 31 16 = (if o.heard then fld s Reg.ING_FEED 31 16 else f 9 2) ∧ stage t = 3 ∧
      (o.heard = true ∨ f 9 2 ≠ ownFeed s → delivers s t) ∧ t.cells = s.cells) ∧
    (f 8 1 = 1 → o.heard = true ∨ f 9 2 ≠ ownFeed s → fld s Reg.ING_STATUS 4 4 = 0 → fld s Reg.ING_HOST_CTRL 0 0 = 0 →
      ∃ t, exec (.ack x) s = .next t ∧ stage t = 0 ∧ t.ing.buddy = none ∧ t.ing.secured = true ∧ t.ing.byBuddy = true ∧
        rd t Reg.ING_SEC_SERIAL = rd s Reg.ING_LAST_SERIAL ∧ rd t Reg.ING_SEC_VER = rd s Reg.ING_LAST_VER ∧ t.dram = s.dram ∧
        t.cells = s.cells)) ∧
  (∀ (s : State) (o : Outgoing), s.canonical = true → s.ing.buddy = some o → stage s = 3 →
    (o.retries < 15 → ∃ t, exec .buddyTimeout s = .next t ∧ ∃ y, t.ing.buddy = some y ∧ y.retries = o.retries + 1 ∧ y.acked = o.acked ∧
      stage t = 3 ∧ delivers s t ∧ t.cells = s.cells) ∧
    (15 ≤ o.retries → fld s Reg.ING_HOST_CTRL 0 0 = 0 → ∃ t, exec .buddyTimeout s = .next t ∧ t.ing.buddy = none ∧ stage t = 0 ∧
      fld t Reg.ING_STICKY 5 5 = 1 ∧ t.dram = s.dram ∧ t.cells = s.cells))

/-- Calls stand from the age, the software or the risk until the take, and go to the warden again at every CALL_REPEAT. The warden answers a
call with a TAKE of a target a margin ahead; a package acts on a TAKE of its own job that is no later copy of the one it last acted on (log 102),
and takes its target where that is later than its rng_step.
Where the rules leave a point open the model follows log 43. -/
def Obligations.IngotCalls : Prop :=
  ∀ (x : Parcel) (src : Source) (s : State), s.canonical = true →
    let gap := 25000000 * fld s Reg.ING_MARGIN 23 16
    let target := (rngStep s + fld s Reg.ING_MARGIN 15 0) % 2 ^ 32
    let named := leNat ((x.payload.drop 4).take 4)
    let ours := leNat (x.payload.take 4) = rd s Reg.HST_OWNER
    let copy := takeCopy x.src.toNat named s
    (wardenAddr s ≠ ownAddr s → exec (.call x) s = .next s) ∧
    (wardenAddr s = ownAddr s → (∀ a, s.ing.takeAt = some a → a + gap ≤ s.time.cycles) → rngStep s < target →
      ∃ t, exec (.call x) s = .next t ∧ t.ing.takeAt = some s.time.cycles ∧ t.ing.target = some target ∧ rd t Reg.ING_TARGET = target ∧
        stage t = (if stage s = 0 then 1 else stage s) ∧ t.ing.takeRepeats = 2 ∧ t.dram = s.dram ∧ t.cells = s.cells) ∧
    (¬ ours → exec (.take x) s = .next s) ∧
    (ours → copy = true → exec (.take x) s = .next s) ∧
    (ours → copy = false → ∃ t, exec (.take x) s = .next t ∧ t.ing.acted = some (named, s.time.cycles) ∧
      (rngStep s < named → rd t Reg.ING_TARGET = named ∧ t.ing.target = some named ∧ stage t = (if stage s = 0 then 1 else stage s)) ∧
      (named ≤ rngStep s → fld t Reg.ING_STICKY 4 4 = 1 ∧ t.ing.target = s.ing.target ∧ rd t Reg.ING_TARGET = rd s Reg.ING_TARGET) ∧
      t.dram = s.dram ∧ t.cells = s.cells) ∧
    (s.pwr.inReset = false → ∃ t, exec (.ingCall src) s = .next t ∧ 3 ∈ t.ing.calls ∧ fld t Reg.ING_STATUS 3 3 = 1 ∧ t.dram = (arrive s).dram ∧
      t.cells = (arrive s).cells) ∧
    (s.ing.calls.contains 2 = false → fld s Reg.ING_POLICY 15 0 ≤ ingAge s → s.ing.ageFrom.isSome = true →
      ∃ t, exec .ingotAgeCall s = .next t ∧ 2 ∈ t.ing.calls ∧ fld t Reg.ING_STATUS 3 3 = 1 ∧ t.dram = s.dram ∧ t.cells = s.cells) ∧
    (s.ing.overdue = false → fld s Reg.ING_POLICY 31 16 ≤ ingAge s → s.ing.ageFrom.isSome = true →
      ∃ t, exec .ingotOverdue s = .next t ∧ t.ing.overdue = true ∧ fld t Reg.ING_STICKY 1 1 = 1 ∧
        (∀ k, k ≠ Reg.ING_STICKY → reportKey k = false → rd t k = rd s k) ∧ t.dram = s.dram ∧ t.cells = s.cells) ∧
    (s.ing.calls = [3] ∨ s.ing.calls = [4] → wardenAddr s ≠ ownAddr s → ∃ t, exec .callRepeat s = .next t ∧ t.ing = s.ing ∧ t.fab.seq = s.fab.seq + 1 ∧
      t.dram = s.dram ∧ t.cells = s.cells) ∧
    (s.ing.calls = [] → exec .callRepeat s = .next s) ∧
    (s.ing.takeRepeats = 0 → exec .takeRepeat s = .next s) ∧
    (s.ing.takeRepeats ≠ 0 → ∃ t, exec .takeRepeat s = .next t ∧ t.ing = { s.ing with takeRepeats := s.ing.takeRepeats - 1 } ∧
      t.fab.seq = s.fab.seq + BitVec.ofNat 32 s.ing.takeSent.length ∧ t.dram = s.dram ∧ t.cells = s.cells)

/-- MOULD_COMPLETE in stage copy with the step record complete: an image that cannot be read or does not fit is abandoned; the others fill
the mould, and with no buddy and no host stage the ingot ends. ING_RESTORE and ING_FETCH outside LOADED or beside an ingot in progress only
set restore_bad, as a restore does of an image that its checks reject. A restore that passes them commits the image's version and buffer; a
fetch asks for the image. ING_ABANDON ends the ingot, PURGE forgets every image unless the copy runs, ING_HOST_ACK of the last serial
secures it.
Where the rules leave a point open the model follows logs 16, 44 and 70. -/
def Obligations.IngotsFillAndRestore : Prop :=
  (∀ s : State, s.canonical = true →
    let x := rd s Reg.ING_LAST_VER % 2
    let r := readSources s
    let img := imageOf s.ing.manifest (imageSections r.2)
    (stage s ≠ 2 ∨ fld s Reg.SCH_STAMP (4 + x) (4 + x) = 0 → exec .mouldComplete s = .next s) ∧
    (stage s = 2 → fld s Reg.SCH_STAMP (4 + x) (4 + x) = 1 → ∃ t, exec .mouldComplete s = .next t ∧ t.cells = s.cells ∧
      if r.1 = false ∨ 65536 * rd s Reg.ING_MOULD_LEN < img.length then
        stage t = 0 ∧ fld t Reg.ING_STICKY 2 2 = 1 ∧ t.dram = r.2.dram
      else
        (∀ a, a < 2 ^ 39 → dramByte t a = dramByte (writeSpan (mouldBase s) img r.2) a) ∧ t.ing.mouldVoid = false ∧ t.ing.imageLen = img.length ∧
        (fld s Reg.ING_BUDDY 16 16 = 1 → stage t = 3 ∧ ∃ o, t.ing.buddy = some o ∧ o.dst = fld s Reg.ING_BUDDY 15 0 ∧ o.acked = 0 ∧ o.heard = false) ∧
        (fld s Reg.ING_BUDDY 16 16 = 0 → fld s Reg.ING_HOST_CTRL 0 0 = 0 → stage t = 0 ∧
          rd t Reg.ING_PROGRESS = img.length / 65536 % 2 ^ 32))) ∧
  (∀ (src : Source) (serial : Word) (x : State), x.canonical = true →
    x.pwr.inReset = false →
    let s := arrive x
    let base := mouldBase s
    let m := dramGet s base 0x150
    let f := fun o n => leNat ((m.drop o).take n)
    let ones := (manifestSections m).filter (·.1 == 1)
    let span := rd s Reg.SCH_MASTER_SPAN
    let good := (readSpan base (manifestLen m) s).1 && !s.ing.mouldVoid && (imageOk base s).1 && f 0 4 == 0x474E4951 && f 4 2 == 1
      && f 0x0C 4 == rd s Reg.ING_RESTORE_VER && f 0x14 4 == rd s Reg.HST_OWNER
      && ((List.range 4).all fun d => ones.any fun e => e.2.1 == d && e.2.2.1 == span) && ones.all (·.2.2.1 == span)
    (restoreReady s = false → ∀ c, c = .ingRestore src ∨ c = .ingFetch src → ∃ t, exec c x = .next t ∧ fld t Reg.ING_STICKY 10 10 = 1 ∧
      (∀ k, k ≠ Reg.ING_STICKY → rd t k = rd s k) ∧ t.ing = s.ing ∧ t.dram = s.dram ∧ t.cells = s.cells ∧ t.out = s.out) ∧
    (restoreReady s = true → ∃ t, exec (.ingRestore src) x = .next t ∧ t.cells = s.cells ∧
      if good then rd t Reg.SCH_VERSION = f 0x0C 4 ∧ stampOf t (f 0x0C 4 % 2) = 0 ∧ stampOf t (1 - f 0x0C 4 % 2) = 3 ∧
        fld t Reg.ING_STATUS 6 6 = 1
      else fld t Reg.ING_STICKY 10 10 = 1 ∧ rd t Reg.SCH_VERSION = rd s Reg.SCH_VERSION ∧ ∀ a, a < 2 ^ 39 → dramByte t a = dramByte s a) ∧
    (restoreReady s = true → ∃ t, exec (.ingFetch src) x = .next t ∧ t.ing = { s.ing with fetching := true, fetched := none } ∧
      t.fab.seq = s.fab.seq + 1 ∧ t.dram = s.dram ∧ t.cells = s.cells) ∧
    (∃ t, exec (.ingAbandon src) x = .next t ∧ stage t = 0 ∧ t.ing.target = none ∧ t.ing.buddy = none ∧ t.ing.hostQps = [] ∧
      (∀ k, k ≠ Reg.ING_STATUS → rd t k = rd s k) ∧ t.dram = s.dram ∧ t.cells = s.cells) ∧
    (stage s = 2 → exec (.purge src) x = .next s) ∧
    (stage s ≠ 2 → ∃ t, exec (.purge src) x = .next t ∧ stage t = 0 ∧ fld t Reg.ING_GUEST_STAT 3 0 = 0 ∧ t.ing.target = none ∧
      t.ing.incoming = none ∧ t.ing.serve = none ∧ t.ing.takeSent = [] ∧ t.ing.mouldVoid = true ∧ (∀ k, k ≠ Reg.ING_STATUS → k ≠ Reg.ING_GUEST_STAT → rd t k = rd s k) ∧
      t.dram = s.dram ∧ t.cells = s.cells) ∧
    (stage s = 5 → serial.toNat = rd s Reg.ING_LAST_SERIAL → ∃ t, exec (.ingHostAck src serial) x = .next t ∧ stage t = 0 ∧
      rd t Reg.ING_SEC_SERIAL = serial.toNat ∧ rd t Reg.ING_SEC_VER = rd s Reg.ING_LAST_VER ∧ t.ing.secured = true ∧
      t.dram = s.dram ∧ t.cells = s.cells) ∧
    (stage s ≠ 5 ∨ serial.toNat ≠ rd s Reg.ING_LAST_SERIAL → exec (.ingHostAck src serial) x = .next s))

/-! ### Management -/

/-- A tally request that finds eight others waiting beside the one in service is dropped and sets queue; the others join those that are served
(log 79). One that fails authentication is counted and reported; one of another epoch, or the last sequence number again, is answered
and not executed; a later one is executed, answered, and its response kept. A read returns the words of its addresses in order, a write
writes them; either leaves MGT_TALLY_SEQ at the request's sequence number.
Where the rules leave a point open the model follows logs 21, 51 and 52. -/
def Obligations.TallyServes : Prop :=
  ∀ (op : Nat) (c : Instr) (m : List Byte) (s : State), s.canonical = true →
    (op = 1 ∧ c = .tallyRead m ∨ op = 2 ∧ c = .tallyWrite m) → msgField m 5 1 = op →
    let seq := msgField m 0xC 4
    let last := rd s Reg.MGT_TALLY_SEQ
    let q := tallyTaken s
    let r := tallyRun op m q
    let room := (tallyBusy s).length < 9
    (mgmtUp s = false → exec c s = .next s) ∧
    (mgmtUp s = true → ¬ room → ∃ t, exec c s = .next t ∧ fld t Reg.MGT_STICKY 2 2 = 1 ∧ (∀ k, k ≠ Reg.MGT_STICKY → rd t k = rd s k) ∧
      t.mgt = s.mgt ∧ t.out = s.out ∧ t.cells = s.cells ∧ t.dram = s.dram) ∧
    (room → (tallyBusy q).length ≤ (tallyBusy s).length + 1) ∧
    (mgmtUp s = true → room → tallyAuth s m = false → ∃ t, exec c s = .next t ∧ fld t Reg.MGT_STICKY 0 0 = 1 ∧
      rd t Reg.MGT_TALLY_REJ = min (rd s Reg.MGT_TALLY_REJ + 1) (2 ^ 32 - 1) ∧ rd t Reg.MGT_TALLY_SEQ = last ∧ t.mgt = q.mgt ∧
      t.cells = s.cells ∧ t.dram = s.dram) ∧
    (mgmtUp s = true → room → tallyAuth s m = true → msgField m 8 4 ≠ rd s Reg.MGT_EPOCH → ∃ t, exec c s = .next t ∧
      t.out = s.out ++ [.tally (tallyResponse s m (rd s Reg.MGT_EPOCH) 3 [])] ∧ t.regs = s.regs ∧ t.mgt = q.mgt ∧ t.cells = s.cells) ∧
    (mgmtUp s = true → room → tallyAuth s m = true → msgField m 8 4 = rd s Reg.MGT_EPOCH → seq = last → s.mgt.lastResp ≠ [] → ∃ t, exec c s = .next t ∧
      t.out = s.out ++ [.tally s.mgt.lastResp] ∧ t.regs = s.regs ∧ t.mgt = q.mgt ∧ t.cells = s.cells) ∧
    (mgmtUp s = true → room → tallyAuth s m = true → msgField m 8 4 = rd s Reg.MGT_EPOCH → seq ≠ last →
      laterSeq (BitVec.ofNat 32 seq) (BitVec.ofNat 32 last) = false → ∃ t, exec c s = .next t ∧ fld t Reg.MGT_STICKY 1 1 = 1 ∧
      rd t Reg.MGT_TALLY_REJ = min (rd s Reg.MGT_TALLY_REJ + 1) (2 ^ 32 - 1) ∧ t.out = s.out ∧ t.mgt = q.mgt ∧ t.cells = s.cells) ∧
    (mgmtUp s = true → room → tallyAuth s m = true → msgField m 8 4 = rd s Reg.MGT_EPOCH →
      laterSeq (BitVec.ofNat 32 seq) (BitVec.ofNat 32 last) = true → ∃ t, exec c s = .next t ∧
      t.out = r.2.2.out ++ [.tally (tallyResponse s m (rd s Reg.MGT_EPOCH) r.1 r.2.1)] ∧ rd t Reg.MGT_TALLY_SEQ = seq ∧
      t.mgt.lastResp = tallyResponse s m (rd s Reg.MGT_EPOCH) r.1 r.2.1 ∧ t.cells = r.2.2.cells ∧ t.dram = r.2.2.dram ∧
      (op = 1 → tallyForm 1 m = true → msgField m 0x10 4 + 4 * msgField m 6 2 ≤ 0x14000000 → safeState s = false →
        r = (0, tallyWords (msgField m 0x10 4) (msgField m 6 2) q)) ∧
      (op = 2 → tallyForm 2 m = true → msgField m 0x10 4 + 4 * msgField m 6 2 ≤ 0x14000000 → safeState s = false →
        r = (0, [], each (List.range (msgField m 6 2)) (fun i s =>
          servedWrite .mgmt (msgField m 0x10 4 + 4 * i) (msgField m (0x18 + 4 * i) 4) 4 s) q)))

/-- A WAKE_FRAME for the part is counted in RUN, and latched as a wake cause while it sleeps, outside the window; a DWI wake likewise.
DWI_READ answers with the register of its offset; DWI_TIMEOUT and a lost SGMII link set their sticky bits; SGMII_LINK_UP raises the link.
Where the rules leave a point open the model follows log 52. -/
def Obligations.ManagementWires : Prop :=
  ∀ (addr : BitVec 16) (offset : BitVec 18) (s : State), s.canonical = true →
    let frames := fun (k : Nat) (t : State) => rd t k = min (rd s k + 1) (2 ^ 32 - 1) ∧ ∀ j, j ≠ k → rd t j = rd s j
    let r := dwiWord (4 * offset.toNat) (bump Reg.MGT_DWI_FRAMES s)
    (addr.toNat ≠ ownAddr s → addr.toNat ≠ 0xFFFF → exec (.wakeFrame addr) s = .next s) ∧
    (validAddr addr.toNat = false ∨ s.pwr.inReset = true → exec (.wakeFrame addr) s = .next s) ∧
    (s.pwr.inReset = false → validAddr addr.toNat = true → (addr.toNat = ownAddr s ∨ addr.toNat = 0xFFFF) → (sleeping s = false ∨ inWindow s = false) → ∃ t, exec (.wakeFrame addr) s = .next t ∧
      frames Reg.MGT_WAKE_FRAMES t ∧ t.pwr.mgmtLatch = (sleeping s || s.pwr.mgmtLatch) ∧ t.cells = s.cells ∧ t.dram = s.dram) ∧
    (dwiMatch s addr = false → exec (.dwiWake addr) s = .next s ∧ exec (.dwiRead addr offset) s = .next s) ∧
    (dwiMatch s addr = true → ∃ t, exec (.dwiWake addr) s = .next t ∧ frames Reg.MGT_DWI_FRAMES t ∧
      t.pwr.dwiLatch = (sleeping s || s.pwr.dwiLatch) ∧ t.cells = s.cells ∧ t.dram = s.dram) ∧
    (dwiMatch s addr = true → addr.toNat ≠ 0xFFFF → ∃ t, exec (.dwiRead addr offset) s = .next t ∧
      t.out = r.2.out ++ [.dwi (BitVec.ofNat 32 r.1)] ∧ t.regs = r.2.regs ∧ t.cells = r.2.cells ∧ t.dram = r.2.dram) ∧
    (s.pwr.inReset = false → ∃ t, exec .dwiTimeout s = .next t ∧ fld t Reg.MGT_STICKY 4 4 = 1 ∧ (∀ k, k ≠ Reg.MGT_STICKY → rd t k = rd s k) ∧
      t.cells = s.cells ∧ t.out = s.out) ∧
    (s.mgt.link = true → ∃ t, exec .sgmiiLinkLost s = .next t ∧ t.mgt.link = false ∧ fld t Reg.MGT_STICKY 3 3 = 1 ∧
      (∀ k, k ≠ Reg.MGT_STICKY → rd t k = rd s k) ∧ t.cells = s.cells) ∧
    (s.mgt.link = false → exec .sgmiiLinkLost s = .next s) ∧
    (s.pwr.inReset = false → ∃ t, exec .sgmiiLinkUp s = .next t ∧ t.mgt.link = true ∧ t.regs = s.regs ∧ t.cells = s.cells)

/-! ### Host attachment -/

/-- ARP, Neighbour Solicitations and echo requests of up to 1,500 bytes with the port's 802.1Q tag are answered for the port's own address;
what is not answered on a host port that is up counts in HST_RX_DROPS. An unsupported RoCE packet sets HST_STICKY.unsup, and moves its
listening queue pair to ERROR with a NAK of Invalid Request. An uncorrectable codeword sets fec_ue of its port.
Where the rules leave a point open the model follows logs 50 and 58. -/
def Obligations.FramesAnswered : Prop :=
  ∀ (port : Fin 4) (vlan : BitVec 16) (v4 : BitVec 32) (v6 : BitVec 128) (sender : List Byte) (q : Fin 8192) (psn : BitVec 24) (s : State),
    s.canonical = true → hostUp s port.val = true →
    let p : Fin 5 := ⟨port.val, by omega⟩
    let tag := vlan.toNat = hostVlan s port.val
    let own := fun six => if six then ownIp6 s port.val v6.toNat else ownIp4 s port.val v4.toNat
    let own' := fun six => if six then ownIp6 s port.val v6.toNat else ownIp4 s port.val v6.toNat
    let answered := fun (c : Instr) (kind : Nat) (data : List Byte) => ∃ t, exec c s = .next t ∧
      t.out = s.out ++ [.frame port.val kind vlan.toNat data] ∧ t.regs = s.regs ∧ t.cells = s.cells ∧ t.dram = s.dram
    let dropped := fun (c : Instr) => ∃ t, exec c s = .next t ∧ rd t Reg.HST_RX_DROPS = min (rd s Reg.HST_RX_DROPS + 1) (2 ^ 32 - 1) ∧
      (∀ k, k ≠ Reg.HST_RX_DROPS → rd t k = rd s k) ∧ t.out = s.out ∧ t.cells = s.cells ∧ t.dram = s.dram
    (tag → own false = true → answered (.arpRequest ⟨port, vlan⟩ v4 sender) 0 (portMac s port.val ++ natBE 4 v4.toNat ++ sender)) ∧
    (¬ tag ∨ own false = false → dropped (.arpRequest ⟨port, vlan⟩ v4 sender)) ∧
    (tag → own true = true → answered (.neighbourSolicitation ⟨p, vlan⟩ v6 sender) 1 (portMac s port.val ++ natBE 16 v6.toNat ++ sender)) ∧
    (¬ tag ∨ own true = false → dropped (.neighbourSolicitation ⟨p, vlan⟩ v6 sender)) ∧
    (∀ six, tag → own' six = true → sender.length ≤ 1500 → answered (.icmpEchoRequest ⟨p, vlan⟩ six v6 sender) 2 sender) ∧
    (∀ six, ¬ tag ∨ own' six = false ∨ 1500 < sender.length → dropped (.icmpEchoRequest ⟨p, vlan⟩ six v6 sender)) ∧
    dropped (.frameDiscard p false (some q) psn) ∧
    (qpListens s q.val = true → ∃ t, exec (.frameDiscard p true (some q) psn) s = .next t ∧ fld t Reg.HST_STICKY 0 0 = 1 ∧
      qpState t q.val = 4 ∧ Output.packet (packetHead s q.val 0 0) q.val 0x11 psn 0x61 [] ∈ t.out ∧ t.cells = s.cells ∧ t.dram = s.dram) ∧
    (∃ t, exec (.hostUncorrectableCodeword port) s = .next t ∧ fld t (Reg.HST_PORT + 4 * port.val) 1 1 = 1 ∧
      (∀ k, k ≠ Reg.HST_PORT + 4 * port.val → rd t k = rd s k) ∧ t.out = s.out ∧ t.cells = s.cells)

/-- A SEND of 64 bytes in order on a mailbox queue pair takes the next free entry and counts into HST_MBOX_PROD; with 64 entries waiting it
is answered with an RNR NAK. The host-service core then takes entries in order: NOP completes with status 1, an undefined command with
status 2, SREG_WRITE writes its register in every group named from the next tick on, SREG_READ returns that of the lowest group.
Where the rules leave a point open the model follows logs 46 and 52. -/
def Obligations.MailboxServes : Prop :=
  (∀ (qp : Fin 8192) (psn : BitVec 24) (payload : List Byte) (s : State), s.canonical = true →
    let q := qp.val
    let k := rd s Reg.HST_MBOX_PROD
    let waiting := (k + 2 ^ 32 - rd s Reg.HST_MBOX_CONS) % 2 ^ 32
    qpListens s q = true → psnLag s q psn = 0 → qpClass s q = 0 → payload.length = 64 →
    (waiting < 64 → ∃ t, exec (.mailboxSend qp psn false payload) s = .next t ∧ rd t Reg.HST_MBOX_PROD = (k + 1) % 2 ^ 32 ∧
      mboxEntry t (k % 64) = payload ∧ bits (ctx t q 3) 23 0 = (psn.toNat + 1) % 2 ^ 24 ∧ t.cells = s.cells ∧ t.dram = s.dram) ∧
    (64 ≤ waiting → ∃ t, exec (.mailboxSend qp psn false payload) s = .next t ∧ rd t Reg.HST_MBOX_PROD = k ∧
      fld t Reg.HST_STICKY 6 6 = 1 ∧ t.out = s.out ++ [.packet (packetHead s q 0 0) q 0x11 psn (0x20 + bits (ctx s q 0) 25 21) []] ∧
      ctx t q 3 = ctx s q 3 ∧ t.cells = s.cells ∧ t.dram = s.dram)) ∧
  (∀ s : State, s.canonical = true →
    let k := s.host.taken.toNat
    let b := mboxEntry s (k % 64)
    let cmd := entryField b 0 1
    let r := entryField b 8 1
    let v := BitVec.ofNat 16 (entryField b 10 2)
    let g := (entryGroups b).headD (0, 0)
    let status := fun t : State => fld t (Reg.HST_MBOX + 64 * (k % 64)) 15 8
    let next := fun t : State => t.host.taken = s.host.taken + 1 ∧ t.sreg = s.sreg ∧ t.cells = s.cells ∧ t.dram = s.dram
    (k = rd s Reg.HST_MBOX_PROD ∨ hubRuns s = false → exec .nop s = .next s ∧ exec .sregWrite s = .next s ∧ exec .sregRead s = .next s) ∧
    (k ≠ rd s Reg.HST_MBOX_PROD → hubRuns s = true → get (fun _ => 0) s.host.from_ (k % 64) = 0 →
      (cmd = 0 ∨ 3 ≤ cmd → ∃ t, exec .nop s = .next t ∧ status t = (if entryClean b = false then 3 else if cmd = 0 then 1 else 2) ∧
        t.flights = s.flights ∧ next t) ∧
      (cmd = 1 → entryOk b = true → entryField b 12 4 = 0xFFFFFFFF → ∃ t, exec .sregWrite s = .next t ∧ status t = 1 ∧
        t.flights = s.flights ++ (entryGroups b).map (fun g => ⟨now s + 1, .sregWrite g.1 g.2 r v⟩) ∧ next t) ∧
      (cmd = 1 → entryOk b = true → entryField b 12 4 ≠ 0xFFFFFFFF → ∃ t, exec .sregWrite s = .next t ∧
        t.host.waiting = s.host.waiting ++ [(k, entryField b 12 4)] ∧ t.regs = s.regs ∧ t.flights = s.flights ∧ next t) ∧
      (cmd = 2 → entryOk b = true → ∃ t, exec .sregRead s = .next t ∧ status t = 1 ∧
        fld t (Reg.HST_MBOX + 64 * (k % 64) + 8) 31 16 = (sregReadBack s g.1 g.2 r).toNat ∧ t.flights = s.flights ∧ next t) ∧
      (entryOk b = false → ∃ t, (cmd = 1 → exec .sregWrite s = .next t) ∧ (cmd = 2 → exec .sregRead s = .next t) ∧
        (cmd = 1 ∨ cmd = 2 → status t = 3 ∧ next t)))) ∧
  (∀ (die g r : Nat) (v : F16) (s : State), wf (fun _ => 0) s.sreg = true → die < 4 → g < 16 → r < 32 →
    let t := landEffect (.sregWrite die g r v) s
    sregAt t die g r = v ∧ t.regs = s.regs ∧ t.cells = s.cells ∧ t.dram = s.dram ∧
    ∀ d h q, d < 4 → h < 16 → q < 32 → (d, h, q) ≠ (die, g, r) → sregAt t d h q = sregAt s d h q)

/-- An RDMA WRITE in order on a data queue pair with its key, bounds and protections met places its bytes in DRAM and advances the expected
PSN; a READ returns them. One whose key or bounds fail, or that a protection refuses, is answered with a NAK of Remote Access Error and
moves the queue pair to ERROR; so is one on a queue pair whose class does not admit it, whatever its PSN, with a NAK of Invalid Request.
Where the rules leave a point open the model follows logs 48, 68 and 70. -/
def Obligations.RemoteAccess : Prop :=
  ∀ (qp : Fin 8192) (psn : BitVec 24) (rkey : Word) (va : BitVec 64) (payload : List Byte) (len : BitVec 32) (s : State), s.canonical = true →
    let q := qp.val
    let n := payload.length
    let head := packetHead s q 0 0
    let nak := fun t : State => qpState t q = 4 ∧ Output.packet head q 0x11 psn 0x62 [] ∈ t.out ∧ t.dram = s.dram ∧ t.cells = s.cells
    (qpListens s q = true → qpClass s q ≠ 1 → ∀ c, c = .rdmaWrite qp psn false rkey va payload ∨ c = .rdmaReadRequest qp psn false rkey va len →
      ∃ t, exec c s = .next t ∧ qpState t q = 4 ∧ Output.packet head q 0x11 psn 0x61 [] ∈ t.out ∧ t.dram = s.dram ∧ t.cells = s.cells) ∧
    (qpListens s q = true → psnLag s q psn = 0 → qpClass s q = 1 →
    (∀ a, regionOf s rkey.toNat va.toNat n true = (some a, 1) → hostRefused s a n = false →
      ∃ t, exec (.rdmaWrite qp psn false rkey va payload) s = .next t ∧ t.dram = (asyncWrite a payload s).dram ∧
        bits (ctx t q 3) 23 0 = (psn.toNat + max 1 (ceilDiv n (qpMtu s q))) % 2 ^ 24 ∧ t.cells = s.cells) ∧
    (∀ a, regionOf s rkey.toNat va.toNat n true = (some a, 1) → hostRefused s a n = true →
      ∃ t, exec (.rdmaWrite qp psn false rkey va payload) s = .next t ∧ nak t ∧ fld t Reg.HST_STICKY 4 4 = 1) ∧
    (∀ bit, bit = 2 ∨ bit = 3 → regionOf s rkey.toNat va.toNat n true = (none, bit) →
      ∃ t, exec (.rdmaWrite qp psn false rkey va payload) s = .next t ∧ nak t ∧ fld t Reg.HST_STICKY bit bit = 1) ∧
    (∀ a, regionOf s rkey.toNat va.toNat len.toNat false = (some a, 1) → s.dram.marks = [] → 0 < len.toNat → len.toNat ≤ qpMtu s q →
      ∃ t, exec (.rdmaReadRequest qp psn false rkey va len) s = .next t ∧
        t.out = s.out ++ [.packet head q 0x10 psn 0 (dramGet s a len.toNat)] ∧ bits (ctx t q 3) 23 0 = (psn.toNat + 1) % 2 ^ 24 ∧
        t.dram = s.dram ∧ t.cells = s.cells) ∧
    (∀ bit, bit = 2 ∨ bit = 3 → regionOf s rkey.toNat va.toNat len.toNat false = (none, bit) →
      ∃ t, exec (.rdmaReadRequest qp psn false rkey va len) s = .next t ∧ nak t ∧ fld t Reg.HST_STICKY bit bit = 1))

/-- Answers and timers of a queue pair in RTS. ACKNOWLEDGE removes what it acknowledges from the packets kept; a time-out, once it has
passed, and the RNR timer send the rest again, or move the queue pair to ERROR when their attempts are spent; the coalescing timer
acknowledges; a congestion notification lowers the rate, never below its floor, and the rate timer raises it, never above the line rate.
Where the rules leave a point open the model follows logs 47 and 49. -/
def Obligations.QueuePairTimers : Prop :=
  ∀ (qp : Fin 8192) (psn : BitVec 24) (s : State), s.canonical = true → wf (fun _ => Qp.init) s.host.qps = true →
    let q := qp.val
    let x := qpAt s q
    let rate := fun t : State => bits (ctx t q 6) 11 0
    let limit := bits (ctx s q 0) 20 18
    let late := sinceCycle x.sentAt (retransmitCycles s q) s
    let soon := sinceCycle x.ackAt 50 s
    let then_ := sinceCycle x.rateAt 1375 s
    let same := fun (s t : State) => t.cells = s.cells ∧ t.dram = s.dram
    let packets := fun (s : State) => (qpAt s q).unacked.map fun p =>
      Output.packet (packetHead s q p.va.toNat p.rkey.toNat) q p.opcode.toNat p.psn p.imm.toNat p.payload
    qpSends s q = true →
    ((x.unacked.any fun p => p.psn == psn) = true → ∃ t, exec (.acknowledge qp psn 0) s = .next t ∧
        (qpAt t q).unacked = x.unacked.filter (fun p => psnAtOrAfter p.psn (psn + 1)) ∧ (qpAt t q).rnrWait = false ∧ qpState t q = 3 ∧ same s t) ∧
    ((x.unacked.any fun p => p.psn == psn) = true → ∃ t, exec (.acknowledge qp psn 0x61) s = .next t ∧ qpState t q = 4 ∧
      fld t Reg.HST_STICKY 1 1 = 1 ∧ same s t) ∧
    (x.unacked ≠ [] → x.rnrWait = false → wf (fun _ => Qp.init) late.host.qps = true → (qpAt late q).retries < bits (ctx late q 0) 17 15 →
      ∃ t, exec (.retransmitTimeout qp) s = .next t ∧ t.out = late.out ++ packets late ∧
      (qpAt t q).retries = (qpAt late q).retries + 1 ∧ t.regs = late.regs ∧ same late t) ∧
    (x.unacked ≠ [] → x.rnrWait = false → bits (ctx late q 0) 17 15 ≤ (qpAt late q).retries → ∃ t, exec (.retransmitTimeout qp) s = .next t ∧
      qpState t q = 4 ∧ fld t Reg.HST_STICKY 1 1 = 1 ∧ t.out = late.out ∧ same late t) ∧
    (x.rnrWait = true → (limit = 7 ∨ x.rnrTries < limit) → ∃ t, exec (.rnrTimer qp) s = .next t ∧ t.out = s.out ++ packets s ∧
      (qpAt t q).rnrTries = x.rnrTries + 1 ∧ t.regs = s.regs ∧ same s t) ∧
    (x.rnrWait = true → limit ≠ 7 → limit ≤ x.rnrTries → ∃ t, exec (.rnrTimer qp) s = .next t ∧ qpState t q = 4 ∧ same s t) ∧
    (x.ackOwed ≠ 0 → (qpAt soon q).ackOwed ≠ 0 → ∃ t, exec (.ackCoalesceTimer qp) s = .next t ∧
      t.out = soon.out ++ [.packet (packetHead soon q 0 0) q 0x11 (BitVec.ofNat 24 (ctx soon q 3) - 1) 0 []] ∧ t.regs = soon.regs ∧
      same soon t) ∧
    (∃ t, exec (.congestionNotification qp) s = .next t ∧ fld s Reg.HST_CC 19 12 ≤ rate t ∧
      rate t = max (fld s Reg.HST_CC 19 12) (rate s * (2 ^ 21 - alphaOf s q) / 2 ^ 21) ∧
      rd t Reg.HST_CNP_RX = min (rd s Reg.HST_CNP_RX + 1) (2 ^ 32 - 1) ∧ same s t) ∧
    (∃ t, exec (.rateIncreaseTimer qp) s = .next t ∧ rate t = min 2000 (rate then_ + fld then_ Reg.HST_CC 11 0) ∧ rate t ≤ 2000 ∧
      (∀ k, k ≠ bankKey (Reg.HST_QP_CTX0 + 24) q → rd t k = rd then_ k) ∧ same then_ t)

/-! ### The control window -/

/-- Every counter-clear sets the counters of its block to 0 and touches no other register and no memory; those of a cell do so while the
cell does not sleep. A read of the low half of the tick counter, the mandrel count, the record sequence or the clock returns it and latches
the upper half in the register beside it. A read of FAB_PORT_FEC_UE returns it and clears its peak and lane. Each is served at the end of its
always-on cycle. -/
def Obligations.CountersAndLatches : Prop :=
  (∀ (src : Source) (die : Fin 4) (cell : Fin 256) (x : State), x.canonical = true →
    x.pwr.inReset = false →
    let s := arrive x
    let c := phys s die.val cell.val
    let zero := fun (i : Instr) (ks : List Nat) => ∃ t, exec i x = .next t ∧ (∀ k ∈ ks, rd t k = 0) ∧ (∀ k, k ∉ ks → rd t k = rd s k) ∧
      t.cells = s.cells ∧ t.dram = s.dram ∧ t.run = s.run
    zero (.hstCntClr src) [Reg.HST_RX_DROPS, Reg.HST_NAKS, Reg.HST_CNP_RX, Reg.HST_CNP_TX, Reg.HST_EVT_DROPS] ∧
    zero (.tsmCntClr src) [Reg.TSM_WIN_EVENTS, Reg.TSM_PLAUS_FAILS] ∧
    zero (.mgtCntClr src) [Reg.MGT_TALLY_OK, Reg.MGT_TALLY_REJ, Reg.MGT_WAKE_FRAMES, Reg.MGT_DWI_FRAMES] ∧
    (cellAsleep s c = false →
      zero (.arrSatClr src die cell) [cellKey c Reg.ARR_SAT_COUNT] ∧
      zero (.arrCntClr src die cell) ([Reg.ARR_PHASES_RUN, Reg.ARR_PHASES_SKIPPED, Reg.ARR_WRITES_DONE, Reg.ARR_WRITES_UNCHANGED].map (cellKey c)) ∧
      zero (.accCntClr src die cell) ([Reg.ACC_ADDS, Reg.ACC_FOLDS, Reg.ACC_ECC, Reg.ACC_WAITS].map (cellKey c)) ∧
      zero (.anvCntClr src die cell) ([Reg.ANV_PRODUCTS, Reg.ANV_STAGES, Reg.ANV_DISCARDS, Reg.ANV_ECC].map (cellKey c)) ∧
      zero (.burCntClr src die cell) ([Reg.BUR_EMPTYROW, Reg.BUR_OOR_COUNT, Reg.BUR_WORDS, Reg.BUR_BEATS, Reg.BUR_ECC].map (cellKey c))) ∧
    (cellAsleep s c = true → ∀ i, i = .arrSatClr src die cell ∨ i = .arrCntClr src die cell ∨ i = .accCntClr src die cell ∨
      i = .anvCntClr src die cell ∨ i = .burCntClr src die cell → ∃ t, exec i x = .next t ∧ fld t Reg.HLT_STICKY0 1 1 = 1 ∧
      (∀ k, k ≠ Reg.HLT_STICKY0 → k ≠ Reg.HLT_ACC_FIRST → rd t k = rd s k) ∧ t.cells = s.cells) ∧
    (∃ t, exec (.memCntClr src) x = .next t ∧ rd t Reg.MEM_ARB_CUTS = 0 ∧ (∀ a, a < 6 → rd t (Reg.MEM_ARB_LINES + 4 * a) = 0) ∧
      (∀ m, m < 8 → rd t (Reg.MEM_ERR + 4 * m) = 0 ∧ fld t (Reg.MEM_TEMP + 4 * m) 15 8 = 0 ∧
        fld t (Reg.MEM_TEMP + 4 * m) 7 0 = fld s (Reg.MEM_TEMP + 4 * m) 7 0) ∧ t.cells = s.cells ∧ t.dram = s.dram) ∧
    (∃ t, exec (.fabCntClr src) x = .next t ∧ rd t Reg.FAB_HOLDS = 0 ∧ rd t Reg.FAB_HOLD_CYCLES = 0 ∧ rd t Reg.FAB_PARCEL_DROPS = 0 ∧
      (∀ p, p < 48 → rd t (bankKey Reg.FAB_PORT_FEC_CE p) = 0 ∧ fld t (bankKey Reg.FAB_PORT_FEC_UE p) 23 0 = 0 ∧
        fld t (bankKey Reg.FAB_PORT_FEC_UE p) 31 24 = fld s (bankKey Reg.FAB_PORT_FEC_UE p) 31 24) ∧ t.cells = s.cells ∧ t.dram = s.dram)) ∧
  (∀ (src : Source) (x : State), x.canonical = true →
    x.pwr.inReset = false →
    let s := arrive x
    let latches := fun (c : Instr) (lo hi value : Nat) => ∃ t, exec c x = .next t ∧ t.out = s.out ++ [.regRead lo (BitVec.ofNat 32 value)] ∧
      rd t hi = value / 2 ^ 32 % 2 ^ 32 ∧ (∀ k, k ≠ hi → rd t k = rd s k) ∧ t.time = s.time ∧ t.cells = s.cells ∧ t.dram = s.dram
    let ue := bankKey Reg.FAB_PORT_FEC_UE (fld s Reg.FAB_PORT_SEL 5 0)
    latches (.schTickLoRead src) Reg.SCH_TICK_LO Reg.SCH_TICK_HI (now s) ∧
    latches (.fabMandrelLoRead src) Reg.FAB_MANDREL_LO Reg.FAB_MANDREL_HI s.time.mandrel.toNat ∧
    latches (.hltArecSeqLoRead src) Reg.HLT_AREC_SEQ_LO Reg.HLT_AREC_SEQ_HI s.health.seq ∧
    latches (.pwrRtcLoRead src) Reg.PWR_RTC_LO Reg.PWR_RTC_HI s.time.rtc.toNat ∧
    (fld s Reg.FAB_PORT_SEL 5 0 < 48 → ∃ t, exec (.fabPortFecUeRead src) x = .next t ∧
      t.out = s.out ++ [.regRead Reg.FAB_PORT_FEC_UE (BitVec.ofNat 32 (rd s ue))] ∧ fld t ue 31 24 = 0 ∧ fld t ue 23 0 = fld s ue 23 0 ∧
      (∀ k, k ≠ ue → rd t k = rd s k) ∧ t.cells = s.cells ∧ t.dram = s.dram) ∧
    (48 ≤ fld s Reg.FAB_PORT_SEL 5 0 → ∃ t, exec (.fabPortFecUeRead src) x = .next t ∧
      t.out = s.out ++ [.regRead Reg.FAB_PORT_FEC_UE 0] ∧ t.regs = s.regs ∧ t.cells = s.cells ∧ t.dram = s.dram))

/-- A selection register takes the value written, each field to the nearer limit of its range, and no other register changes; that of a cell
while no casting runs and the cell does not sleep. REGISTER_WRITE of a whole word: plain and set-by-hardware bits of a register take what R7
to R11 give them, a bit that an event set on the same tick staying set; where the running casting drives the register the plain bits take it
on the next tick; an offset without a register and a register covered in part keep theirs; a locked register keeps its value while a casting
runs, and the refusal is recorded. Each is served at the end of its always-on cycle.
Where the rules leave a point open the model follows logs 21, 62 and 65. -/
def Obligations.RegistersTakeWrites : Prop :=
  (∀ (src : Source) (v : Word) (die : Fin 4) (cell : Fin 256) (x : State), x.canonical = true →
    x.pwr.inReset = false →
    let s := arrive x
    let c := phys s die.val cell.val
    let n := v.toNat
    let takes := fun (i : Instr) (k hi lo y : Nat) => ∃ t, exec i x = .next t ∧ fld t k hi lo = y ∧ (∀ j, j ≠ k → rd t j = rd s j) ∧
      t.cells = s.cells ∧ t.dram = s.dram ∧ t.run = s.run
    takes (.hstSelectionWrite src 0 v) Reg.HST_MR_SEL 7 0 (max 1 (n % 256)) ∧
    takes (.hstSelectionWrite src 1 v) Reg.HST_QP_SEL 12 0 (n % 8192) ∧ takes (.hstSelectionWrite src 2 v) Reg.HST_PEER_SEL 3 0 (n % 16) ∧
    takes (.sprSelectionWrite src 0 v) Reg.SPR_SEL 2 0 (n % 8) ∧ takes (.sprSelectionWrite src 1 v) Reg.SPR_CMAP_SEL 9 0 (n % 1024) ∧
    takes (.sprSelectionWrite src 2 v) Reg.SPR_COLMAP_SEL 23 0 (n % 2 ^ 24) ∧ takes (.sprSelectionWrite src 3 v) Reg.SPR_WEAR_SEL 18 0 (n % 2 ^ 19) ∧
    takes (.sprSelectionWrite src 4 v) Reg.SPR_PCELL_SEL 10 2 (min 271 (n / 4 % 512)) ∧
    takes (.fabPortSelWrite src v) Reg.FAB_PORT_SEL 5 0 (n % 64) ∧ takes (.tsmSelWrite src v) Reg.TSM_SEL 8 0 (n % 512) ∧
    takes (.pwrPmbSelWrite src v) Reg.PWR_PMB_SEL 5 0 (n % 64) ∧
    (castingRuns s = false → cellAsleep s c = false →
      takes (.arrPeekSelWrite src die cell v) (cellKey c Reg.ARR_PEEK_SEL) 14 6 (min 267 (n / 64 % 512)) ∧
      takes (.arrPeekSelWrite src die cell v) (cellKey c Reg.ARR_PEEK_SEL) 5 0 (n % 64) ∧
      takes (.accPeekSelWrite src die cell v) (cellKey c Reg.ACC_PEEK_SEL) 14 0 (n % 2 ^ 15) ∧
      takes (.anvPeekSelWrite src die cell v) (cellKey c Reg.ANV_PEEK_SEL) 12 0 (n % 2 ^ 13) ∧
      takes (.burTabSelWrite src die cell v) (cellKey c Reg.BUR_TAB_SEL) 4 0 (n % 32) ∧
      takes (.burTabSelWrite src die cell v) (cellKey c Reg.BUR_TAB_SEL) 14 5 (min 543 (n / 32 % 1024))) ∧
    (castingRuns s = true → cellAsleep s c = false → ∀ i, i = .arrPeekSelWrite src die cell v ∨ i = .accPeekSelWrite src die cell v ∨
      i = .anvPeekSelWrite src die cell v ∨ i = .burTabSelWrite src die cell v →
      ∃ t, exec i x = .next t ∧ OnlyReports s t ∧ fld t Reg.HLT_STICKY0 2 2 = 1)) ∧
  (∀ (src : Source) (addr : BitVec 32) (v : Word) (x : State), x.canonical = true →
    x.pwr.inReset = false →
    let s := arrive x
    let a := addr.toNat
    let cleared := fun r : RegRow => rd s a &&& (2 ^ 32 - 1 - (v.toNat &&& r.w1c &&& (2 ^ 32 - 1 - eventBits s a)))
    let new := fun r : RegRow => clampWord rangeRows a ((cleared r &&& (2 ^ 32 - 1 - r.rw)) ||| (v.toNat &&& r.rw))
    (∀ r, a ∈ [Reg.MEM_SCRUB, Reg.MEM_ARB_WINDOW, Reg.MEM_ARB_HOLD, Reg.MEM_THERM, Reg.MEM_ARB_WEIGHT, Reg.CAL_DELTA, Reg.CAL_INTERVAL,
        Reg.HLT_RISK_W, Reg.HLT_RISK_CFG, Reg.HLT_AREC_CFG, Reg.HLT_JRNL_CFG, Reg.ING_POLICY, Reg.ING_MARGIN, Reg.PWR_TJ, Reg.PWR_WAKE_CFG,
        Reg.TSM_PLAUS, Reg.HST_CC, Reg.SPR_REQ, Reg.FAB_STICKY, Reg.CAL_STICKY, Reg.ING_STICKY, Reg.HST_STICKY, Reg.MGT_STICKY] →
      findRow (rowsOf a) a = some r → ∃ t, exec (.registerWrite src addr v 4) x = .next t ∧
        rd t a = (if castingRuns s && driven a then cleared r else new r) ∧
        t.flights = (if castingRuns s && driven a then s.flights ++ [⟨now s + 1, .regWrite a r.rw (new r)⟩] else s.flights) ∧
        (∀ k, k ≠ a → rd t k = rd s k) ∧ t.cells = s.cells ∧ t.dram = s.dram ∧ t.run = s.run ∧ t.out = s.out) ∧
    (a % 4 = 0 → cellWindow s a = none → locked a = false → findRow (rowsOf a) a = none → exec (.registerWrite src addr v 4) x = .next s) ∧
    (a % 4 = 0 → cellWindow s a = none → locked a = true → castingRuns s = true →
      ∃ t, exec (.registerWrite src addr v 4) x = .next t ∧ OnlyReports s t ∧ fld t Reg.HLT_STICKY0 2 2 = 1) ∧
    (∀ size : Fin 5, size ≠ 4 ∨ a % 4 ≠ 0 → ∃ t, exec (.registerWrite src addr v size) x = .next t ∧ OnlyReports s t ∧
      (holdsReg s (a / 4 * 4) = true → size ≠ 0 → fld t Reg.HLT_STICKY0 0 0 = 1))) ∧
  (∀ (k mask v : Nat) (s : State), s.canonical = true → k ≠ Reg.PWR_STRETCH → mask < 2 ^ 32 → v < 2 ^ 32 →
    let t := landEffect (.regWrite k mask v) s
    rd t k = ((rd s k &&& (2 ^ 32 - 1 - mask)) ||| (v &&& mask)) ∧ (∀ j, j ≠ k → rd t j = rd s j) ∧ t.cells = s.cells ∧ t.dram = s.dram)

/-- Registers whose write does more than take a value: the mailbox producer, the owner, a queue pair's state, the clock and its alarm,
VCORE, urgent conversions, a channel's window, forced recalibration, trims, and the least firmware version. Each is served at the end of its
always-on cycle.
Where the rules leave a point open the model follows logs 21, 47, 63 and 111. -/
def Obligations.RegisterCommands : Prop :=
  ∀ (src : Source) (v : Word) (x : State), x.canonical = true →
    x.pwr.inReset = false →
    let s := arrive x
    let n := v.toNat
    let q := fld s Reg.HST_QP_SEL 12 0
    let old := ctx s q 0
    let sel := calSel s
    let cell := phys s sel.1 sel.2.1
    let conv := fld s Reg.TSM_SEL 3 0
    let ch := fld s Reg.TSM_SEL 8 4
    let stored := (bankUsed s).elim 0 fun b => b.minSvn.toNat
    let same := fun t : State => t.cells = s.cells ∧ t.dram = s.dram
    (∃ t, exec (.hstMboxProdWrite src v) x = .next t ∧ rd t Reg.HST_MBOX_PROD = n ∧ (∀ k, k ≠ Reg.HST_MBOX_PROD → rd t k = rd s k) ∧ same t) ∧
    (castingRuns s = true → ∃ t, exec (.hstOwnerWrite src v) x = .next t ∧ OnlyReports s t) ∧
    (castingRuns s = false → schState s ≠ 2 → stage s ≠ 2 → n ≠ rd s Reg.HST_OWNER → ∃ t, exec (.hstOwnerWrite src v) x = .next t ∧
      rd t Reg.HST_OWNER = n ∧ stage t = 0 ∧ rd t Reg.HST_MBOX_PROD = 0 ∧ rd t Reg.HST_MBOX_CONS = 0 ∧ t.host.qps = [] ∧
      (∀ p, p < 8192 → qpState t p = 0) ∧ same t) ∧
    (∀ b, qpMove (bits old 2 0) b = true → b < 5 → bits old 9 7 ≤ 4 → 1 ≤ bits old 14 10 → n = setBits old 2 0 b →
      ∃ t, exec (.qpStateWrite src v) x = .next t ∧ qpState t q = b ∧ ctx t q 0 = n ∧ (b = 0 → ctx t q 6 = 2000) ∧
        (∀ k, k ≠ bankKey Reg.HST_QP_CTX0 q → (b = 0 → k ≠ bankKey (Reg.HST_QP_CTX0 + 24) q) → rd t k = rd s k) ∧ same t) ∧
    (∃ t, exec (.pwrRtcHiWrite src v) x = .next t ∧ t.time.rtc = BitVec.ofNat 48 (rd s Reg.PWR_RTC_LO + 2 ^ 32 * (n % 65536)) ∧
      t.time.tick = s.time.tick ∧ (∀ k, k ≠ Reg.PWR_RTC_HI → rd t k = rd s k) ∧ same t) ∧
    (∃ t, exec (.pwrAlarmHiWrite src v) x = .next t ∧ fld t Reg.PWR_ALARM_HI 15 0 = n % 65536 ∧ t.pwr.rtcLatch = false ∧
      (∀ k, k ≠ Reg.PWR_ALARM_HI → rd t k = rd s k) ∧ same t) ∧
    (castingRuns s = false → ∃ t, exec (.pwrVcoreWrite src v) x = .next t ∧ fld t Reg.PWR_VCORE 9 0 = max 600 (min 800 (n % 1024)) ∧
      t.out = s.out ++ ((pmbDevices s).filter Config.vcoreDevice).map (fun d => .pmbus (cfgNat s 6 (7 + d) 1) 0x21 (max 600 (min 800 (n % 1024)))) ∧
      (∀ k, k ≠ Reg.PWR_VCORE → rd t k = rd s k) ∧ same t) ∧
    (castingRuns s = true → ∃ t, exec (.pwrVcoreWrite src v) x = .next t ∧ OnlyReports s t) ∧
    (bits n 3 0 < 9 → (urgentAt s (bits n 3 0)).length < 4 → wf (fun _ => []) s.tsm.urgent = true → ∃ t, exec (.tsmUrgent src v) x = .next t ∧
      urgentAt t (bits n 3 0) = urgentAt s (bits n 3 0) ++ [bits n 8 4] ∧ t.regs = s.regs ∧ same t) ∧
    (bits n 3 0 < 9 → 4 ≤ (urgentAt s (bits n 3 0)).length → ∃ t, exec (.tsmUrgent src v) x = .next t ∧ fld t Reg.TSM_STICKY 3 3 = 1 ∧
      t.tsm = s.tsm ∧ same t) ∧
    (conv < 9 → wf (fun _ => Chan.init) s.tsm.chans = true → ∃ t, exec (.tsmChWinWrite src v) x = .next t ∧
      chanWin t conv ch = (if chanExists conv ch then n % 2 ^ 29 else n % 2 ^ 28) ∧ (chanAt t conv ch).out = false ∧
      (chanAt t conv ch).code = (chanAt s conv ch).code ∧
      (∀ k, k ≠ bankKey Reg.TSM_CH_WIN (32 * conv + ch) → rd t k = rd s k) ∧ same t) ∧
    (∃ t, exec (.force src) x = .next t ∧ t.run.force = s.run.force + 1 ∧ t.regs = s.regs ∧ same t) ∧
    (castingRuns s = false → cellAsleep s cell = false → sel.2.2.2 < 256 → ∃ t, exec (.calTrimWrite src v) x = .next t ∧
      trimAt t cell sel.2.2.1 sel.2.2.2 = mkTrim (min 16 (bits n 4 0)) (sx 8 (bits n 15 8)) (sx 10 (bits n 25 16)) ∧
      (arrAt t cell sel.2.2.1).gen = (arrAt s cell sel.2.2.1).gen + 1 ∧ (∀ b, b ≠ cell → cellAt t b = cellAt s b) ∧ t.regs = s.regs ∧
      t.dram = s.dram) ∧
    (stored ≤ n → n ≤ rd s Reg.NVS_FW_SVN → ∃ t, exec (.nvsMinSvnWrite src v) x = .next t ∧ rd t Reg.NVS_MIN_SVN = n ∧
      (∀ k, k ≠ Reg.NVS_MIN_SVN → rd t k = rd s k) ∧ same t) ∧
    (n < stored ∨ rd s Reg.NVS_FW_SVN < n → exec (.nvsMinSvnWrite src v) x = .next s)

/-! ### Spares -/

/-- BRAZE requests what SPR_REQ names: with the fill slots of its die free and a spare left, a column or a cell takes slot 0 and is active;
a cell request absorbs the column request of its cell that SPR_LOST holds. A tinker core is replaced by the spare of its die at once in the
working map. HEARTBEAT_LAPSE does so for the core that failed; a spare core that idles is then no longer free; a core that fails on a die
whose spare serves is a loss beyond the spares.
Where the rules leave a point open the model follows logs 53 and 101. -/
def Obligations.BrazingRequests : Prop :=
  let replaced := fun (s t : State) (x : Nat × Nat) => t.spr.coreSwaps = s.spr.coreSwaps ++ [x] ∧ fld t Reg.SPR_STICKY 6 6 = 1 ∧
    fld t Reg.SPR_STICKY 4 4 = 1 ∧ t.cells = s.cells ∧ t.dram = s.dram
  (∀ (src : Source) (x : State), x.canonical = true →
    x.pwr.inReset = false →
    let s := arrive x
    let r := rd s Reg.SPR_REQ
    let d := bits r 3 2
    let cell := bits r 11 4
    let free := fillState s d 0 = 0 ∧ fillState s d 1 = 0
    (bits r 1 0 = 0 → exec (.braze src) x = .next s) ∧
    (bits r 1 0 = 1 → free → freeSpares s (phys s d cell) (bits r 17 12) ≠ [] → ∃ t, exec (.braze src) x = .next t ∧
      fld t (fillKey d 0) 25 0 = 6 + 16 * cell + 4096 * bits r 17 12 + 262144 * bits r 25 18 ∧
      (∀ k, k ≠ fillKey d 0 → rd t k = rd s k) ∧ t.cells = s.cells ∧ t.dram = s.dram) ∧
    (bits r 1 0 = 2 → free → freeCells s d ≠ [] → ∃ t, exec (.braze src) x = .next t ∧ fld t (fillKey d 0) 25 0 = 10 + 16 * cell ∧
      (∀ k, k ≠ fillKey d 0 → (k = Reg.SPR_LOST → s.spr.lost = none) → rd t k = rd s k) ∧ t.cells = s.cells ∧ t.dram = s.dram) ∧
    (bits r 1 0 = 3 → cell < 16 → (s.spr.coreSwaps.any fun x => x.1 == d) = false →
      ∃ t, exec (.braze src) x = .next t ∧ replaced s t (d, cell)) ∧
    (bits r 1 0 = 3 → 16 ≤ cell → exec (.braze src) x = .next s)) ∧
  (∀ (die : Fin 5) (core : Fin 17) (s : State), s.canonical = true →
    let spare := if die.val = 4 then 4 else 16
    let swapped := s.spr.coreSwaps.any fun x => x.1 == die.val
    (core.val < spare → swapped = false → ∃ t, exec (.heartbeatLapse die core) s = .next t ∧ replaced s t (die.val, core.val)) ∧
    (core.val = spare → swapped = false → ∃ t, exec (.heartbeatLapse die core) s = .next t ∧ fld t Reg.SPR_STICKY 4 4 = 1 ∧
      t.spr.coreSwaps = s.spr.coreSwaps ++ [(die.val, spare)] ∧ (∀ k, k ≠ Reg.SPR_STICKY → rd t k = rd s k) ∧
      t.cells = s.cells ∧ t.dram = s.dram) ∧
    (core.val ≤ spare → swapped = true → s.spr.coreSwaps.contains (die.val, core.val) = false →
      ∃ t, exec (.heartbeatLapse die core) s = .next t ∧ fld t Reg.SPR_STICKY 3 3 = 1 ∧ t.spr.coreSwaps = s.spr.coreSwaps ∧
        (castingRuns s = true → t.run.faultAt.isSome = true) ∧ t.cells = s.cells ∧ t.dram = s.dram) ∧
    (spare < core.val ∨ s.spr.coreSwaps.contains (die.val, core.val) = true → exec (.heartbeatLapse die core) s = .next s))

/-- CELL_FILL recalibrates the arrays of the spare, which is then tested or marked bad; a spare that fails its self-test is marked bad.
CELL_FILL_COMPLETE passes the fill, or brings the spare into service at once with no casting running; it waits where a column has no source,
and a spare with an array that has no usable column left is marked bad. FILL_MAP_CHANGE, with no casting running, brings a passed column or
cell into service; it programs an active column, which comes into service when its verify passes and whose spare is marked bad when it does
not; without a source it waits. Fills pause outside RUN, and no cell changes but the spare's or the column's.
Where the rules leave a point open the model follows logs 11 and 60. -/
def Obligations.FillsApply : Prop :=
  ∀ (die : Fin 4) (slot : Fin 2) (s : State), s.canonical = true → wf (fun _ => Fill.none) s.spr.fills = true →
    wf homeCell s.spr.cellMap = true →
    let k := fillKey die.val slot.val
    let r := rd s k
    let c := phys s die.val (bits r 11 4)
    let d := spareCell die.val (bits r 29 26)
    let a := bits r 17 12
    let col := bits r 25 18
    let p := 260 + bits r 29 26
    let tested := (fillAt s die.val slot.val).tested
    let src := fun (i : Nat) => columnContent s die.val slot.val c (i / 256) (i % 256)
    let alone := fun (t : State) (e : Nat) => (∀ b, b ≠ e → cellAt t b = cellAt s b) ∧ ∀ x, x < 2 ^ 39 → dramByte t x = dramByte s x
    (pwrState s ≠ 0 → (∀ o, exec (.cellFill die slot o) s = .next s) ∧ exec (.cellFillComplete die slot) s = .next s ∧
      exec (.fillMapChange die slot) s = .next s) ∧
    (pwrState s = 0 → bits r 3 0 = 10 → tested = false → ∃ t, exec (.cellFill die slot false) s = .next t ∧
      d ∈ t.spr.badCells ∧ fld t Reg.SPR_STICKY 0 0 = 1 ∧ t.cells = s.cells ∧ t.dram = s.dram) ∧
    (pwrState s = 0 → bits r 3 0 = 10 → tested = false → ∃ t, exec (.cellFill die slot true) s = .next t ∧
      ((fillAt t die.val slot.val).tested = true ∨ d ∈ t.spr.badCells) ∧ t.freeCount = s.freeCount + 64 * 16640 ∧ alone t d) ∧
    (pwrState s = 0 → bits r 3 0 = 10 → tested = true → (∀ i, i < 16384 → (src i).isSome = true) → castingRuns s = true →
      ∃ t, exec (.cellFillComplete die slot) s = .next t ∧ (fillState t die.val slot.val = 3 ∨ d ∈ t.spr.badCells) ∧
        t.spr.cellMap = s.spr.cellMap ∧ alone t d) ∧
    (pwrState s = 0 → bits r 3 0 = 10 → tested = true → (∀ i, i < 16384 → (src i).isSome = true) → castingRuns s = false →
      ∃ t, exec (.cellFillComplete die slot) s = .next t ∧ alone t d ∧
        (phys t die.val (bits r 11 4) = d ∧ c ∈ t.spr.badCells ∧ (cellAt t d).sp = (cellAt s c).sp ∧ (cellAt t d).acc = (cellAt s c).acc ∨
          d ∈ t.spr.badCells ∧ t.spr.cellMap = s.spr.cellMap)) ∧
    (pwrState s = 0 → bits r 3 0 = 10 → tested = true → (∃ i, i < 16384 ∧ src i = none) →
      ∃ t, exec (.cellFillComplete die slot) s = .next t ∧ fld t Reg.SPR_STICKY 5 5 = 1 ∧ rd t k = r ∧ t.cells = s.cells ∧ t.dram = s.dram) ∧
    (castingRuns s = true → exec (.fillMapChange die slot) s = .next s) ∧
    (castingRuns s = false → pwrState s = 0 → bits r 3 0 = 7 → remapCount s < 4096 → fillState s die.val (1 - slot.val) = 0 →
      s.spr.lost = none → ∃ t, exec (.fillMapChange die slot) s = .next t ∧ physCol t c a col = p ∧ colBad t c a (physCol s c a col) = true ∧
        (arrAt t c a).pending = true ∧ rd t k = 0 ∧ fld t Reg.SPR_STICKY 4 4 = 1 ∧ alone t c) ∧
    (castingRuns s = false → pwrState s = 0 → bits r 3 0 = 11 → ∃ t, exec (.fillMapChange die slot) s = .next t ∧
      phys t die.val (bits r 11 4) = d ∧ c ∈ t.spr.badCells ∧ fld t Reg.SPR_STICKY 4 4 = 1 ∧ alone t d) ∧
    (∀ b, castingRuns s = false → pwrState s = 0 → bits r 3 0 = 6 → fillContent s die.val slot.val = some b → remapCount s < 4096 →
      let v := programBlock c a p col b (fillRead die.val slot.val s)
      ∃ t, exec (.fillMapChange die slot) s = .next t ∧ alone t c ∧ colBytes t c a p = colBytes v.2 c a p ∧
        (b.length = 129 → colBytes t c a p = b.take 128 ∨
          ∃ i, i < 257 ∧ (Config.siteHolds ((fillRead die.val slot.val s).freeCount + i)).isSome = true) ∧
        (v.1 = true → physCol t c a col = p ∧ colBad t c a (physCol s c a col) = true) ∧
        (v.1 = false → colBad t c a p = true ∧ fld t Reg.SPR_STICKY 0 0 = 1)) ∧
    (castingRuns s = false → pwrState s = 0 → bits r 3 0 = 6 → fillContent s die.val slot.val = none →
      ∃ t, exec (.fillMapChange die slot) s = .next t ∧ fld t Reg.SPR_STICKY 5 5 = 1 ∧ (∀ j, j ≠ Reg.SPR_STICKY → rd t j = rd s j) ∧
        t.cells = s.cells ∧ t.dram = s.dram)

/-! ### Settings, quotes and boots -/

/-- STORE snapshots the working settings, or is pending while one runs; when its read-back matches, the bank not in use holds the snapshot
and comes into use; a mismatch retries once, then fails; a request pending while it ran starts the next one then. OWNER_CLEAR
zeroes the working owner hash. QUOTE samples its body, QUOTE_COMPLETE writes body and signature to DRAM.
Where the rules leave a point open the model follows logs 4, 7 and 56. -/
def Obligations.SettingsAndQuotes : Prop :=
  ∀ (src : Source) (b : Bank) (x : State), x.canonical = true →
    x.pwr.inReset = false →
    let s := arrive x
    let other := fun t : State => if bankNow s = 0 then t.nvs.bankB else t.nvs.bankA
    let used := fun t : State => if bankNow s = 0 then t.nvs.bankA else t.nvs.bankB
    let same := fun t : State => t.cells = s.cells ∧ t.dram = s.dram
    let at_ := 64 * (rd s Reg.NVS_QUOTE_ADDR_LO / 64) + 2 ^ 32 * fld s Reg.NVS_QUOTE_ADDR_HI 6 0
    let rest := fun (t : State) (k : Nat) => ∀ j, j ≠ k → rd t j = rd s j
    (s.nvs.snapshot = none → ∃ t, exec (.store src) x = .next t ∧ fld t Reg.NVS_STATUS 10 10 = 1 ∧
      (∃ y, t.nvs.snapshot = some y ∧ y.owner = s.nvs.owner ∧ y.cellMap = s.spr.cellMap ∧ y.badCells = s.spr.badCells ∧
        y.minSvn.toNat = rd s Reg.NVS_MIN_SVN ∧ y.seq = (match bankUsed s with | some z => z.seq + 1 | none => 1)) ∧
      rest t Reg.NVS_STATUS ∧ same t) ∧
    (s.nvs.snapshot = some b → ∃ t, exec (.store src) x = .next t ∧ fld t Reg.NVS_STATUS 11 11 = 1 ∧ t.nvs = s.nvs ∧
      rest t Reg.NVS_STATUS ∧ same t) ∧
    (s.nvs.snapshot = some b → fld s Reg.NVS_STATUS 11 11 = 0 → ∃ t, exec (.storeComplete true) s = .next t ∧
      other t = some b ∧ used t = used s ∧ bankNow t = 1 - bankNow s ∧ fld t Reg.NVS_STATUS 13 13 = 0 ∧ fld t Reg.NVS_STATUS 10 10 = 0 ∧
      rd t Reg.NVS_STORE_SEQ = b.seq.toNat ∧ rd t Reg.NVS_STORES = min (rd s Reg.NVS_STORES + 1) (2 ^ 32 - 1) ∧ t.nvs.snapshot = none ∧ same t) ∧
    (s.nvs.snapshot = some b → fld s Reg.NVS_STATUS 11 11 = 1 → ∃ t, exec (.storeComplete true) s = .next t ∧
      other t = some b ∧ used t = used s ∧ bankNow t = 1 - bankNow s ∧ fld t Reg.NVS_STATUS 11 11 = 0 ∧ fld t Reg.NVS_STATUS 10 10 = 1 ∧
      (∃ y, t.nvs.snapshot = some y ∧ y.owner = s.nvs.owner ∧ y.cellMap = s.spr.cellMap ∧ y.seq = b.seq + 1) ∧ same t) ∧
    (s.nvs.snapshot = some b → s.nvs.tries = 0 → ∃ t, exec (.storeComplete false) s = .next t ∧ other t = none ∧ used t = used s ∧
      t.nvs.tries = 1 ∧ t.nvs.snapshot = some b ∧ t.regs = s.regs ∧ same t) ∧
    (s.nvs.snapshot = some b → s.nvs.tries ≠ 0 → fld s Reg.NVS_STATUS 11 11 = 0 → ∃ t, exec (.storeComplete false) s = .next t ∧ other t = none ∧
      used t = used s ∧ fld t Reg.NVS_STICKY 0 0 = 1 ∧ fld t Reg.NVS_STATUS 10 10 = 0 ∧ t.nvs.snapshot = none ∧ same t) ∧
    (s.nvs.snapshot = none → ∀ m, exec (.storeComplete m) s = .next s) ∧
    (∃ t, exec (.ownerClear src) x = .next t ∧ t.nvs.owner = List.replicate 32 0 ∧ t.nvs.bankA = s.nvs.bankA ∧ t.nvs.bankB = s.nvs.bankB ∧
      t.regs = s.regs ∧ same t) ∧
    (fld s Reg.NVS_STATUS 12 12 = 0 → ∃ t, exec (.quote src) x = .next t ∧ fld t Reg.NVS_STATUS 12 12 = 1 ∧ t.nvs.quoteBody = quoteBody s ∧
      rest t Reg.NVS_STATUS ∧ same t) ∧
    (fld s Reg.NVS_STATUS 12 12 = 1 → ∃ t, exec (.quote src) x = .next t ∧ fld t Reg.NVS_STICKY 2 2 = 1 ∧ t.nvs = s.nvs ∧
      rest t Reg.NVS_STICKY ∧ same t) ∧
    (fld s Reg.NVS_STATUS 12 12 = 1 → ∃ t, exec .quoteComplete s = .next t ∧ fld t Reg.NVS_STATUS 12 12 = 0 ∧
      (Config.slhSign s.nvs.quoteBody).length = 29792 ∧
      (let w := writeSpan at_ (s.nvs.quoteBody ++ Config.slhSign s.nvs.quoteBody) s
      t.dram = w.dram ∧ (∀ k, k ≠ Reg.NVS_STATUS → rd t k = rd w k) ∧ t.cells = s.cells)) ∧
    (fld s Reg.NVS_STATUS 12 12 = 0 → exec .quoteComplete s = .next s)

/-- RETRY in the safe state reads and checks the flash again: NVS_STATUS says booted, or the safe state with the code of the first check
that fails. REBOOT resets every domain but the always-on one and starts a boot; while a casting runs it is refused. RESET_RELEASE starts the
first boot, which waits for PWR_GOOD; PWR_GOOD_RISE shows in PWR_STATUS and lets a waiting boot read the flash.
Where the rules leave a point open the model follows logs 54, 55 and 63. -/
def Obligations.BootsRun : Prop :=
  let codeOf := fun (s : State) (f : SMap Byte) (b : Option Bank) =>
    bootCheck s f (match b with | some b => b.owner | none => List.replicate 32 0) (match b with | some b => b.minSvn.toNat | none => 0)
  let code := fun (s : State) (f : SMap Byte) => codeOf s f (bankUsed s)
  let verdict := fun (t : State) (n : Nat) => fld t Reg.NVS_STATUS 9 0 = (if n = 0 then 0 else 1 + 4 * n)
  (∀ (src : Source) (flash : SMap Byte) (x : State), x.canonical = true →
    x.pwr.inReset = false →
    let s := arrive x
    let bank := match bankChoice s with | none => none | some 0 => s.nvs.bankA | some _ => s.nvs.bankB
    (safeState s = false → exec (.retry src flash) x = .next s) ∧
    (safeState s = true → ∃ t, exec (.retry src flash) x = .next t ∧ verdict t (code s flash) ∧ t.nvs.flash = flash) ∧
    (castingRuns s = true → ∃ t, exec (.reboot src flash) x = .next t ∧ OnlyReports s t ∧ fld t Reg.HLT_STICKY0 2 2 = 1) ∧
    (castingRuns s = false → fld s Reg.PWR_STATUS 8 8 = 0 → ∃ t, exec (.reboot src flash) x = .next t ∧ t.casting = none ∧ schState t = 0 ∧
      fld t Reg.NVS_STATUS 9 0 = 2 ∧ t.pwr.rising = 1 ∧ bits t.pwr.rails 0 0 = 1 ∧ t.nvs.flash = flash ∧ t.dram = s.dram ∧
      t.time = s.time ∧ ∀ c, (cellAt t c).sp = [] ∧ (cellAt t c).codes = []) ∧
    (castingRuns s = false → fld s Reg.PWR_STATUS 8 8 = 1 → bits s.pwr.rails 0 0 = 1 →
      ∃ t, exec (.reboot src flash) x = .next t ∧ t.casting = none ∧ t.nvs.flash = flash ∧ verdict t (codeOf s flash bank))) ∧
  (∀ (flash : SMap Byte) (s : State), s.canonical = true →
    let p := runCycles 250 (setFld Reg.PWR_STATUS 8 8 1 s)
    (s.pwr.inReset = false → exec (.resetRelease flash) s = .next s) ∧
    (s.pwr.inReset = true → fld s Reg.PWR_STATUS 8 8 = 0 → ∃ t, exec (.resetRelease flash) s = .next t ∧ t.pwr.inReset = false ∧
      fld t Reg.NVS_STATUS 9 0 = 2 ∧ t.pwr.rising = 1 ∧ bits t.pwr.rails 0 0 = 1 ∧ t.nvs.flash = flash ∧ fld t Reg.PWR_STATUS 9 9 = 1 ∧
      t.cells = s.cells ∧ t.dram = s.dram) ∧
    ((bits s.pwr.rails 0 0 = 0 ∨ s.pwr.rising = 0) → ∃ t, exec .pwrGoodRise s = .next t ∧ fld t Reg.PWR_STATUS 8 8 = 1 ∧
      (∀ k, k ≠ Reg.PWR_STATUS → rd t k = rd s k) ∧ t.cells = s.cells ∧ t.dram = s.dram) ∧
    (bits s.pwr.rails 0 0 = 1 → s.pwr.rising = 1 → ∃ t, exec .pwrGoodRise s = .next t ∧ verdict t (code p p.nvs.flash)))

/-! ### Power -/

/-- WAIT with BANK or QUENCH as its target and the conditions of R402 met: the entry is counted and its window opens, and six always-on cycles
later, not before, every port goes dark by plan, a DIM on each that was lit, the host ports go down, every cell dozes, and for QUENCH the images
are written; with a condition unmet the target is dropped and entry_refused set; with no target or outside RUN it is a plain WFI. RTC_ALARM and
an edge of the WAKE pin are latched. BANK_WAKE and QUENCH_WAKE begin where a cause stands, once an entry under way has ended, and record it;
BANK_WAKE raises VLAS_EN 10 µs after VPHY_EN; without a valid quench image the part resets and boots.
Where the rules leave a point open the model follows logs 18 and 59. -/
def Obligations.DeepStates : Prop :=
  ∀ s : State, s.canonical = true →
    let target := fld s Reg.PWR_MODE 1 0
    let causes := wakeCauses s + (if s.pwr.during then 16 else 0)
    let window := fun t : State => (∀ k, k ≠ Reg.PWR_STATUS → k ≠ Reg.PWR_ENTRIES → rd t k = rd s k) ∧ t.cells = s.cells ∧ t.dram = s.dram ∧
      t.out = s.out
    let begun := driveRail 2 true (setFld Reg.PWR_STATUS 2 0 4 (recordCauses s))
    let later := runCycles 250 begun
    (pwrState s ≠ 0 ∨ target = 0 ∨ target = 3 → exec .wait s = .next s) ∧
    (pwrState s = 0 → target = 1 ∨ target = 2 → deepOk s target = false → ∃ t, exec .wait s = .next t ∧ fld t Reg.PWR_STICKY 0 0 = 1 ∧
      fld t Reg.PWR_MODE 1 0 = 0 ∧ (∀ k, k ≠ Reg.PWR_STICKY → k ≠ Reg.PWR_MODE → rd t k = rd s k) ∧ t.pwr = s.pwr ∧ t.cells = s.cells) ∧
    (pwrState s = 0 → target = 1 → deepOk s 1 = true → ∃ t, exec .wait s = .next t ∧ pwrState t = 1 ∧ t.pwr.deep = 1 ∧
      t.pwr.entryAt = some s.time.cycles ∧ s.time.cycles + 6 ≤ t.pwr.entryEnd ∧ t.pwr.entryEnd ≤ s.time.cycles + 1000 ∧
      fld t Reg.PWR_ENTRIES 15 0 = min (fld s Reg.PWR_ENTRIES 15 0 + 1) 65535 ∧ window t) ∧
    (pwrState s = 0 → target = 2 → deepOk s 2 = true → ∃ t, exec .wait s = .next t ∧ pwrState t = 1 ∧ t.pwr.deep = 2 ∧
      t.pwr.entryAt = some s.time.cycles ∧ s.time.cycles + 6 ≤ t.pwr.entryEnd ∧ t.pwr.entryEnd ≤ s.time.cycles + 12500 ∧
      fld t Reg.PWR_ENTRIES 31 16 = min (fld s Reg.PWR_ENTRIES 31 16 + 1) 65535 ∧ window t) ∧
    (∀ a, s.pwr.entryAt = some a → s.time.cycles < s.pwr.entryEnd →
      (s.time.cycles ≠ a + 6 → entryTick s = s) ∧
      (s.time.cycles = a + 6 → (∀ p, p < 4 → fld (entryTick s) (Reg.HST_PORT + 4 * p) 0 0 = 0) ∧
        (∀ p, p < 48 → portState (entryTick s) p = 7 ∧ fld (entryTick s) (portKey p) 11 3 = 0) ∧
        (entryTick s).out = s.out ++ ((List.range 48).filter (portLasers s)).map (fun p => .ctrl p 6 []) ∧
        (∀ c, cellAt (entryTick s) c = { cellAt s c with power := .doze }) ∧
        (entryTick s).dram = (if s.pwr.deep = 2 then writeFirmware (each (List.range 4) writeImage s) else s).dram)) ∧
    (rd s Reg.PWR_ALARM_LO + 2 ^ 32 * fld s Reg.PWR_ALARM_HI 15 0 ≤ s.time.rtc.toNat → ∃ t, exec .rtcAlarm s = .next t ∧
      t.pwr = { s.pwr with rtcLatch := true } ∧ t.regs = s.regs ∧ t.cells = s.cells) ∧
    (s.time.rtc.toNat < rd s Reg.PWR_ALARM_LO + 2 ^ 32 * fld s Reg.PWR_ALARM_HI 15 0 → exec .rtcAlarm s = .next s) ∧
    (∀ level, ∃ t, exec (.wakePin level) s = .next t ∧ t.pwr.pinLevel = level ∧
      t.pwr.pinLatch = (s.pwr.pinLatch || (s.pwr.pinLevel != level && level == (fld s Reg.PWR_WAKE_CFG 4 4 == 1)
        && fld s Reg.PWR_WAKE_CFG 3 3 == 1 && sleeping s && !inWindow s)) ∧ t.regs = s.regs ∧ t.cells = s.cells) ∧
    (rd begun Reg.PWR_WAKE_CAUSE = causes ∧ pwrState begun = 4 ∧ bits begun.pwr.rails 2 2 = 1 ∧ bits begun.pwr.rails 3 3 = bits s.pwr.rails 3 3) ∧
    (s.pwr.entryAt = none ∨ s.pwr.deep ≠ 1 → pwrState s = 2 → wakes s = true → ∃ t, exec .bankWake s = .next t ∧ pwrState t = 0 ∧
      rd t Reg.PWR_WAKE_CAUSE = rd later Reg.PWR_WAKE_CAUSE ∧ bits t.pwr.rails 2 2 = bits later.pwr.rails 2 2 ∧ bits t.pwr.rails 3 3 = 1 ∧
      t.time = later.time ∧ t.pwr.dwiLatch = false ∧ t.pwr.pinLatch = false ∧ t.pwr.mgmtLatch = false ∧ t.pwr.rests = [] ∧
      schState t = schState later ∧ t.cells = later.cells ∧ t.dram = later.dram) ∧
    (s.pwr.entryAt = none ∨ s.pwr.deep ≠ 2 → pwrState s = 3 → wakes s = true → fld s Reg.PWR_STATUS 7 7 = 0 → ∃ t, exec .quenchWake s = .next t ∧
      fld t Reg.NVS_STATUS 9 0 = 2 ∧ t.pwr.rising = 1 ∧ bits t.pwr.rails 0 0 = 1 ∧ t.pwr.inReset = false ∧ t.casting = none ∧
      t.cells = [] ∧ t.dram = s.dram) ∧
    (s.pwr.deep = 1 → (endEntry s).pwr.entryAt = none → exec .bankWake s = exec .bankWake (endEntry s)) ∧
    (s.pwr.deep = 2 → (endEntry s).pwr.entryAt = none → exec .quenchWake s = exec .quenchWake (endEntry s)) ∧
    (s.pwr.entryAt = none ∨ s.pwr.deep ≠ 2 → pwrState s = 3 → wakes s = true → fld s Reg.PWR_STATUS 7 7 = 1 → ∃ t, exec .quenchWake s = .next t ∧
      pwrState t = 4 ∧ rd t Reg.PWR_WAKE_CAUSE = causes ∧ bits t.pwr.rails 0 0 = 1 ∧ t.pwr.rising = 2 ∧ fld t Reg.NVS_STATUS 1 0 = 2 ∧
      t.cells = s.cells ∧ t.dram = s.dram) ∧
    (s.pwr.entryAt = none ∨ s.pwr.deep ≠ 1 → (pwrState s ≠ 2 ∨ wakes s = false) → exec .bankWake s = .next s) ∧
    (s.pwr.entryAt = none ∨ s.pwr.deep ≠ 2 → (pwrState s ≠ 3 ∨ wakes s = false) → exec .quenchWake s = .next s)

/-- A PWR_GOOD failure with VCORE on drops every rail and leaves the part as after QUENCH with no valid image, its records kept. Losing
REFCLK stops a running casting with a fault and takes the host ports down; its return drops the lock, and with the hub running the configured
host ports come up. A power-on reset leaves every register at its reset value and keeps
DRAM and the settings banks; losing the feed loses DRAM too.
Where the rules leave a point open the model follows logs 52, 54 and 57. -/
def Obligations.PowerFails : Prop :=
  ∀ s : State, s.canonical = true →
    (bits s.pwr.rails 0 0 = 0 → exec .pwrGoodFailure s = .next s) ∧
    (bits s.pwr.rails 0 0 = 1 → ∃ t, exec .pwrGoodFailure s = .next t ∧ fld t Reg.PWR_STICKY 3 3 = 1 ∧ pwrState t = 3 ∧
      fld t Reg.PWR_STATUS 7 7 = 0 ∧ (∀ r, r < 4 → bits t.pwr.rails r r = 0) ∧ t.casting = none ∧ t.run = Run.init ∧
      (∀ c, (cellAt t c).sp = [] ∧ (cellAt t c).acc = []) ∧ s.health.queue.length ≤ t.health.queue.length ∧ t.dram = s.dram) ∧
    (s.time.refclk = true → ∃ t, exec .refclkLoss s = .next t ∧ t.time = { s.time with refclk := false } ∧ fld t Reg.PWR_STATUS 9 9 = 0 ∧
      fld t Reg.PWR_STICKY 1 1 = 1 ∧ (castingRuns s = true → schState t = 6) ∧ (castingRuns s = false → schState t = schState s) ∧
      (∀ p, p < 4 → fld t (Reg.HST_PORT + 4 * p) 0 0 = 0) ∧ t.cells = s.cells ∧ t.dram = s.dram) ∧
    (s.time.refclk = false → exec .refclkLoss s = .next s) ∧
    (s.time.refclk = false → ∃ t, exec .refclkReturn s = .next t ∧ t.time = { s.time with refclk := true } ∧ fld t Reg.PWR_STATUS 9 9 = 1 ∧
      fld t Reg.FAB_LOCK 16 16 = 0 ∧
      (∀ p, p < 4 → fld t (Reg.HST_PORT + 4 * p) 0 0 = if hubRuns t ∧ bits (cfgNat s 7 8 1) p p = 1 then 1 else fld s (Reg.HST_PORT + 4 * p) 0 0) ∧
      (∀ k, k ≠ Reg.PWR_STATUS → k ≠ Reg.FAB_LOCK → (∀ p, p < 4 → k ≠ Reg.HST_PORT + 4 * p) → rd t k = rd s k) ∧ t.cells = s.cells) ∧
    (s.time.refclk = true → exec .refclkReturn s = .next s) ∧
    (∃ t, exec .powerOnReset s = .next t ∧ (∀ k, rd t k = rd State.reset k) ∧ t.pwr.inReset = true ∧ (∀ r, r < 4 → bits t.pwr.rails r r = 0) ∧
      t.casting = none ∧ t.cells = [] ∧ t.dram = s.dram ∧ t.nvs.bankA = s.nvs.bankA ∧ t.nvs.bankB = s.nvs.bankB ∧
      t.nvs.fuses = s.nvs.fuses) ∧
    (∃ t, exec .feedFailure s = .next t ∧ (∀ k, rd t k = rd State.reset k) ∧ t.pwr.inReset = true ∧ t.pwr.rails = 0 ∧ t.cells = [] ∧
      t.dram.bytes = [] ∧ t.dram.marks = [] ∧ (s.nvs.snapshot = none → t.nvs.bankA = s.nvs.bankA ∧ t.nvs.bankB = s.nvs.bankB) ∧
      (s.health.journal = [] → t.nvs.journal = s.nvs.journal))

/-- TELEMETRY_CYCLE outside QUENCH reads every configured device at the address that its configuration gives it and stores the six values
with the cycle of their reading, sets PWR_STICKY for a fault in a status, and asks for a stretch while a warning stands. CONVERSION of the
channel that its converter converts: the code is stored with its cycle, and the channel's last written enable is in force; one outside the
window of an enabled channel in band sets TSM_STICKY and counts. A diode at 115 °C trips the part. One that the converter does not make
changes nothing.
Where the rules leave a point open the model follows logs 17, 75 and 111. -/
def Obligations.SensorsReport : Prop :=
  (∀ (rs : List Reading) (s : State), s.canonical = true → wf (fun _ => (0, 0)) s.pwr.pmb = true →
    let read := rs.filter fun r => (pmbDevices s).contains r.device.val
    (pwrState s = 3 → exec (.telemetryCycle rs) s = .next s) ∧
    (pwrState s ≠ 3 → ∃ t, exec (.telemetryCycle rs) s = .next t ∧
      (∀ r ∈ read, (read.filter fun x => x.device == r.device) = [r] →
        ∀ i v, (i, v) ∈ (List.range 6).zip [r.vin, r.vout, r.iout, r.temp, r.pout, r.status] →
          get (fun _ => (0, 0)) t.pwr.pmb (8 * r.device.val + i) = (v.toNat, s.time.cycles + 1)) ∧
      (∀ r ∈ read, ∀ code ∈ [0x79, 0x88, 0x8B, 0x8C, 0x8D, 0x96], Output.pmbus (cfgNat s 6 (7 + r.device.val) 1) code 0 ∈ t.out) ∧
      ((read.any fun r => pmbFault r.status.toNat) = true → fld t Reg.PWR_STICKY 2 2 = 1) ∧
      fld t Reg.PWR_STRETCH 20 18 = (if (read.any fun r => pmbWarning r.status.toNat) then 1 else 0) ∧
      fld t Reg.PWR_STRETCH 23 21 = fld s Reg.PWR_STRETCH 23 21 ∧ t.cells = s.cells ∧ t.dram = s.dram)) ∧
  (∀ (conv : Fin 9) (chan : Fin 32) (code : BitVec 12) (urgent : Bool) (s : State), s.canonical = true → wf (fun _ => Chan.init) s.tsm.chans = true →
    let v := conv.val
    let c := chan.val
    let w := chanWin s v c
    (convMade s v c urgent = false → exec (.conversion conv chan code urgent) s = .next s) ∧
    (convMade s v c urgent = true → isDiode v c = false → ∃ t, exec (.conversion conv chan code urgent) s = .next t ∧
      (chanAt t v c).code = code ∧ (chanAt t v c).takenAt = some s.time.cycles ∧ (chanAt t v c).urgent = urgent ∧
      (chanAt t v c).enBefore = none ∧ (∀ x y, y < 32 → x ≠ v → chanAt t x y = chanAt s x y) ∧
      (∀ y, y < 32 → y ≠ c → chanAt t v y = { chanAt s v y with enBefore := (chanAt t v y).enBefore }) ∧
      (chanEn s v c = true → chanSuspended s v c = false → (chanAt s v c).out = false → (code.toNat < bits w 11 0 ∨ bits w 23 12 < code.toNat) →
        (chanAt t v c).out = true ∧ fld t Reg.TSM_STICKY 0 0 = 1 ∧
        rd t Reg.TSM_WIN_EVENTS = min (rd s Reg.TSM_WIN_EVENTS + 1) (2 ^ 32 - 1)) ∧
      (chanEn s v c = false → (chanAt t v c).out = (chanAt s v c).out ∧ rd t Reg.TSM_WIN_EVENTS = rd s Reg.TSM_WIN_EVENTS) ∧
      t.cells = s.cells ∧ t.dram = s.dram) ∧
    (convMade s v c urgent = true → isDiode v c = true → chanEn s v c = true → diodeCode 115 ≤ code.toNat → fld s Reg.PWR_STICKY 5 5 = 0 →
      ∃ t, exec (.conversion conv chan code urgent) s = .next t ∧ fld t Reg.PWR_STICKY 5 5 = 1 ∧ (∀ r, r < 4 → bits t.pwr.rails r r = 0) ∧
        pwrState t = 3 ∧ t.casting = none ∧ t.dram = s.dram) ∧
    (convMade s v c urgent = true → isDiode v c = true →
      ∃ t, exec (.conversion conv chan code urgent) s = .next t ∧ t.dram = s.dram ∧
        (fld t Reg.PWR_STICKY 5 5 = 1 ∨ (chanAt t v c).code = code ∧ (chanAt t v c).takenAt = some s.time.cycles ∧
          (chanAt t v c).urgent = urgent)))

/-! ### The monitor and health -/

/-- HEALTH_UPDATE decays the score, adds the events of the second and keeps the hottest die's reading, of which the one 60 s old gives the
rise, its operand only where no such reading stands (log 109); at the threshold an armed monitor disarms and calls for an ingot, and below
half of it arms again. CORRECTED_REPORT and SAFE_STATE_REPORT form their records; ASSAY_RECORD_SEND sends the oldest one queued, with the
count of those suppressed, while the hub's main domain runs; JOURNAL_STORE writes the oldest entry outstanding.
Where the rules leave a point open the model follows logs 52, 76 and 110. -/
def Obligations.HealthReports : Prop :=
  ∀ (rise : BitVec 16) (s : State), s.canonical = true →
    let rho := rd s Reg.HLT_RISK
    let new := min (rho - rho / 2 ^ fld s Reg.HLT_RISK_CFG 20 16 + riskSum s rise.toNat) (2 ^ 32 - 1)
    let thr := fld s Reg.HLT_RISK_CFG 15 0
    let armed := fld s Reg.HLT_RISK_CFG 21 21
    let n := (s.health.corrected.map (·.2)).sum
    let same := fun t : State => t.cells = s.cells ∧ t.dram = s.dram
    (∃ t, exec (.healthUpdate rise) s = .next t ∧ rd t Reg.HLT_RISK = new ∧ t.health.inputs = [] ∧
      t.tsm.history = (hottestNow s :: s.tsm.history).take 60 ∧
      ((s.tsm.history[59]?).getD 0 ≠ 0 → hottestNow s ≠ 0 → ∀ other, riskSum s rise.toNat = riskSum s other) ∧
      (thr ≤ new → armed = 1 → fld t Reg.HLT_RISK_CFG 21 21 = 0 ∧ fld t Reg.ING_STATUS 3 3 = 1 ∧ 1 ∈ t.ing.calls ∧
        rd t Reg.HLT_RISK_CALLS = min (rd s Reg.HLT_RISK_CALLS + 1) (2 ^ 32 - 1)) ∧
      (armed = 0 → fld t Reg.HLT_RISK_CFG 21 21 = (if 2 * new < thr ∧ ¬ thr ≤ new then 1 else 0) ∧ t.ing = s.ing) ∧ same t) ∧
    (n = s.health.correctedSeen → exec .correctedReport s = .next s) ∧
    (n ≠ s.health.correctedSeen → ∃ t, exec .correctedReport s = .next t ∧ t.health.correctedSeen = n ∧
      (∀ k, reportKey k = false → rd t k = rd s k) ∧ same t) ∧
    (safeState s = false → exec .safeStateReport s = .next s) ∧
    (safeState s = true → ∃ t, exec .safeStateReport s = .next t ∧ t.health.seq = s.health.seq + 1 ∧
      rd t Reg.HLT_AREC_SEQ_LO = (s.health.seq + 1) % 2 ^ 32 ∧ same t) ∧
    (∀ r q, s.health.queue = r :: q → s.mgt.link = true → hubRuns s = true → ∃ t, exec .assayRecordSend s = .next t ∧ t.health.queue = q ∧
      fld t Reg.HLT_AREC_QUEUE 9 0 = q.length % 1024 ∧ t.out = s.out ++ [.datagram (mgmtAddr s) (collector s).1 (collector s).2
        (recordBytes s { r with suppressed := (sentOf s r.cls r.loc).suppressed })] ∧
      (∀ k, k ≠ Reg.HLT_AREC_QUEUE → rd t k = rd s k) ∧ same t) ∧
    (s.health.queue = [] ∨ s.mgt.link = false ∨ hubRuns s = false → exec .assayRecordSend s = .next s) ∧
    (∀ e r, s.health.journal = e :: r → wf noByte s.nvs.journal = true → e.2.length = 32 → ∃ t, exec .journalStore s = .next t ∧
      t.health.journal = r ∧ getBytes noByte t.nvs.journal (32 * e.1) 32 = e.2 ∧ t.regs = s.regs ∧ same t) ∧
    (s.health.journal = [] → exec .journalStore s = .next s)

/-! ### Time and arithmetic -/

/-- Rounding the exact value of a finite F16 pattern to nearest even gives the pattern back and does not saturate; an exact zero gives +0.
-/
def Obligations.RoundingKeepsValues : Prop :=
  ∀ v : F16, nonFinite v = false → Dy.rne (dyF16 v) = (if v.toNat % 2 ^ 15 = 0 then 0 else v, false)

/-! ### Single rules of the spec -/

/-- A read of SCH_TICK_LO latches the upper 32 bits of the same tick in SCH_TICK_HI, and the next read of SCH_TICK_HI returns them (R62). -/
def Obligations.TickReadLatches : Prop :=
  ∀ (src y : Source) (x : State), x.canonical = true →
    x.pwr.inReset = false →
    let s := arrive x
    ∃ t, exec (.schTickLoRead src) x = .next t ∧ t.out = s.out ++ [.regRead Reg.SCH_TICK_LO (BitVec.ofNat 32 (now s))] ∧
      ctlRead y Reg.SCH_TICK_HI t = (now s / 2 ^ 32, t) ∧ (∀ k, k ≠ Reg.SCH_TICK_HI → rd t k = rd s k) ∧ t.time = s.time ∧
      t.cells = s.cells ∧ t.dram = s.dram

/-- A change of HST_OWNER invalidates the mould, both guest slots and every target, and returns the ingot stage to idle; PURGE does the same
and keeps the owner; both are refused while the stage is copy (R374). -/
def Obligations.OwnerChangeForgetsImages : Prop :=
  ∀ (src : Source) (v : Word) (x : State), x.canonical = true →
    x.pwr.inReset = false →
    let s := arrive x
    let gone := fun t : State => t.ing.mouldVoid = true ∧ fld t Reg.ING_GUEST_STAT 1 0 = 0 ∧ t.ing.target = none ∧ stage t = 0 ∧
      t.cells = s.cells ∧ t.dram = s.dram
    (stage s ≠ 2 → castingRuns s = false → schState s ≠ 2 → v.toNat ≠ rd s Reg.HST_OWNER →
      ∃ t, exec (.hstOwnerWrite src v) x = .next t ∧ rd t Reg.HST_OWNER = v.toNat ∧ gone t) ∧
    (stage s ≠ 2 → ∃ t, exec (.purge src) x = .next t ∧ rd t Reg.HST_OWNER = rd s Reg.HST_OWNER ∧ gone t) ∧
    (stage s = 2 → exec (.purge src) x = .next s ∧ ∃ t, exec (.hstOwnerWrite src v) x = .next t ∧ OnlyReports s t)

/-- A write of PWR_PMB_SEL takes effect at once, one of PWR_RTC_HI loads the last PWR_RTC_LO with its own value, and one of PWR_VCORE while
a casting runs is discarded and recorded as an access in the wrong state (R412). -/
def Obligations.PowerRegistersTake : Prop :=
  ∀ (src : Source) (v : Word) (x : State), x.canonical = true →
    x.pwr.inReset = false →
    let s := arrive x
    (∃ t, exec (.pwrPmbSelWrite src v) x = .next t ∧ fld t Reg.PWR_PMB_SEL 5 0 = v.toNat % 64 ∧ (∀ k, k ≠ Reg.PWR_PMB_SEL → rd t k = rd s k) ∧
      t.cells = s.cells ∧ t.dram = s.dram) ∧
    (∃ t, exec (.pwrRtcHiWrite src v) x = .next t ∧ t.time.rtc.toNat = rd s Reg.PWR_RTC_LO + 2 ^ 32 * (v.toNat % 65536) ∧
      (∀ k, k ≠ Reg.PWR_RTC_HI → rd t k = rd s k) ∧ t.cells = s.cells ∧ t.dram = s.dram) ∧
    (castingRuns s = true → ∃ t, exec (.pwrVcoreWrite src v) x = .next t ∧ OnlyReports s t ∧ rd t Reg.PWR_VCORE = rd s Reg.PWR_VCORE ∧
      fld t Reg.HLT_STICKY0 2 2 = 1)

/-- An ARR word that names an array still occupied raises DBOOK and is discarded whole; the earlier word keeps the array and all it has put
in flight (R79). -/
def Obligations.OccupiedArrayRefuses : Prop :=
  ∀ (c : Instr) (head : BitVec 8) (w : Slot) (ready : State → Bool) (s : State), s.canonical = true →
    slotWord c = some (head, w, ready) → head.toNat / 16 = 1 → head.toNat % 16 ≠ 0 → acts head w ready s = true →
    let s' := atIssue head w s
    let p := placePhys s' w.place
    now s' < (arrAt s' p (arrOp w)).busy →
    ∃ t, exec c s = .next t ∧ OnlyReports s' t ∧ fld t Reg.SCH_VIOL 0 0 = 1 ∧ arrAt t p (arrOp w) = arrAt s' p (arrOp w) ∧
      t.flights = s'.flights

/-- A BUR word whose count of beats lies outside 1 to 2^20 raises the OPCODE violation and is discarded whole (R183). -/
def Obligations.LongWordRefused : Prop :=
  ∀ (c : Instr) (head : BitVec 8) (w : Slot) (s : State) (job : State → Slot → Option BurJob) (j : BurJob),
    (c = .chain w ∧ head = 0x41 ∧ job = chainJob ∨ c = .permute w ∧ head = 0x42 ∧ job = permuteJob ∨
      c = .gather w ∧ head = 0x43 ∧ job = gatherJob ∨ c = .reduce w ∧ head = 0x44 ∧ job = reduceJob ∨
      c = .softmax w ∧ head = 0x45 ∧ job = softmaxJob) →
    s.canonical = true → reaches head w s = true →
    let s' := atIssue head w s
    job s' w = some j → (j.beats = 0 ∨ 2 ^ 20 < j.beats) →
    ∃ t, exec c s = .next t ∧ OnlyReports s' t ∧ fld t Reg.SCH_VIOL 9 9 = 1

/-- When the feed of the buddy's first ACK equals its own, the ingot is marked same_feed in the manifest that the mould holds, the part sets
ING_STICKY.buddyfeed and ING_STATUS.same_feed, and status 1 does not secure it, nor a later one (R368). -/
def Obligations.SharedFeedSecuresNothing : Prop :=
  ∀ (x : Parcel) (s : State) (o : Outgoing), s.canonical = true →
    let f := fun a n => leNat ((x.payload.drop a).take n)
    let notSecured := fun t : State => t.ing.secured = s.ing.secured ∧ t.ing.byBuddy = s.ing.byBuddy ∧
      rd t Reg.ING_SEC_SERIAL = rd s Reg.ING_SEC_SERIAL ∧ rd t Reg.ING_SEC_VER = rd s Reg.ING_SEC_VER
    let manifest := mouldBase s % 2 ^ 39
    s.ing.buddy = some o → o.dst = x.src.toNat → f 0 4 = rd s Reg.ING_LAST_SERIAL → stage s = 3 →
    (o.heard = false → f 9 2 = ownFeed s → ∃ t, exec (.ack x) s = .next t ∧ fld t Reg.ING_STICKY 0 0 = 1 ∧ fld t Reg.ING_STATUS 4 4 = 1 ∧
      dramByte t (manifest + 6) = 1 ∧ dramByte t (manifest + 7) = 0 ∧ (f 8 1 = 1 → notSecured t) ∧
      (∀ a, a < 2 ^ 39 → (a < manifest ∨ manifest + 0x150 ≤ a) → dramByte t a = dramByte s a) ∧ t.cells = s.cells) ∧
    (o.heard = true → fld s Reg.ING_STATUS 4 4 = 1 → f 8 1 = 1 → ∃ t, exec (.ack x) s = .next t ∧ fld t Reg.ING_STATUS 4 4 = 1 ∧ notSecured t ∧
      (∀ a, a < 2 ^ 39 → dramByte t a = dramByte s a) ∧ t.cells = s.cells)

/-- With HLT_AREC_CFG.en at 0 a record that would have been sent counts in HLT_AREC_DROPS and takes a sequence number; journalling is as
with en at 1, and no sticky bit changes but as it does there (R357). -/
def Obligations.RecordsCountWhenOff : Prop :=
  ∀ (cls sev first classif : Nat) (loc : List (Nat × Nat)) (detail : List (String × Nat)) (s : State), s.canonical = true →
    fld s Reg.HLT_AREC_CFG 0 0 = 0 →
    (sev < 3 → ∀ a, (sentOf s cls loc).at_ = some a → a + msCycles (fld s Reg.HLT_AREC_CFG 15 8) ≤ s.time.cycles) →
    let t := recordFull cls sev loc detail classif first s
    let u := recordFull cls sev loc detail classif first (setFld Reg.HLT_AREC_CFG 0 0 1 s)
    rd t Reg.HLT_AREC_DROPS = min (rd s Reg.HLT_AREC_DROPS + 1) (2 ^ 32 - 1) ∧ t.health.seq = s.health.seq + 1 ∧
      t.health.queue = s.health.queue ∧ t.health.journal = u.health.journal ∧ rd t Reg.HLT_JRNL_HEAD = rd u Reg.HLT_JRNL_HEAD ∧
      rd t Reg.HLT_JRNL_DROPS = rd u Reg.HLT_JRNL_DROPS ∧
      (∀ k, k ≠ Reg.HLT_AREC_CFG → k ≠ Reg.HLT_AREC_DROPS → k ≠ Reg.HLT_AREC_QUEUE → rd t k = rd u k)

/-- HALLMARK_VERDICT: a value that no word with hk wrote on the tick named, or whose verdict comes more than 24 ticks after it, has none; the
value stands in its place as computed, its upset bits flipped where nothing else has been written there since (log 99); a match changes nothing
else; a mismatch is counted, sets the hmark bit of the unit's cell, and taints a step in progress. The hallmark of an
operation (R332, R333): the residues that its terms and the increment of its rounding predict agree with the residue of the value written,
so that a value that nothing has changed never mismatches; a value formed twice mismatches under every change; and one flipped fraction bit
of a finite value, or one flipped bit of an index, always shows.
Where the rules leave a point open the model follows log 22. -/
def Obligations.HallmarkVerdicts : Prop :=
  (∀ (u : Fin 7) (p : Place) (written : BitVec 64) (i : Nat) (upset : BitVec 16) (s : State), s.canonical = true →
    let v := checkedValue s u.val (checkPlace s p) written.toNat i
    (v = none → exec (.hallmarkVerdict u p written ⟨i, upset⟩) s = .next s) ∧
    (written.toNat + 24 < now s → exec (.hallmarkVerdict u p written ⟨i, upset⟩) s = .next s) ∧
    (∀ x, v = some x → x.mismatch upset.toNat = false → exec (.hallmarkVerdict u p written ⟨i, upset⟩) s = .next (x.spoil upset.toNat s)) ∧
    (∀ x, v = some x → x.mismatch upset.toNat = true → ∃ t, exec (.hallmarkVerdict u p written ⟨i, upset⟩) s = .next t ∧
      rd t Reg.HLT_HMARK_COUNT = min (rd s Reg.HLT_HMARK_COUNT + 1) (2 ^ 32 - 1) ∧
      (∀ r b, hmarkBit u.val = some (r, b) → fld t (cellKey (placePhys s p) r) b b = 1) ∧
      (s.run.on = true → fld t Reg.HLT_TAINT 0 0 = 1) ∧ t.cells = (x.spoil upset.toNat s).cells ∧ t.dram = s.dram ∧ t.flights = s.flights)) ∧
  (∀ (x : CheckVal) (u : Nat) (s : State), s.canonical = true →
    let t := x.spoil u s
    let kept := fun (c : Nat) => (∀ b, b ≠ c → cellAt t b = cellAt s b) ∧ t.regs = s.regs ∧ t.dram = s.dram
    (x.held s ≠ some x.code → t = s) ∧
    (x.held s = some x.code →
      (∀ c i, x.spot = .acc c i ∨ x.spot = .table c i → x.held t = some (x.code ^^^ u % 2 ^ x.fmt.width) ∧ kept c) ∧
      (∀ c a, x.spot = .sp c a → a % 8 + x.fmt.width ≤ 8 * ((x.fmt.width + 7) / 8) →
        x.held t = some (x.code ^^^ u % 2 ^ x.fmt.width) ∧ kept c ∧ cellAt t c = { cellAt s c with sp := (cellAt t c).sp } ∧
        ∀ b, b < a / 8 ∨ a / 8 + (x.fmt.width + 7) / 8 ≤ b → spGet t c b 1 = spGet s c b 1))) ∧
  (∀ x : CheckVal, x.mismatch 0 = false) ∧
  (∀ (x : CheckVal) (u : Nat), x.by_ = .twice → u % 2 ^ x.fmt.width ≠ 0 → x.mismatch u = true) ∧
  (∀ (x : CheckVal) (k : Nat), x.by_ = .index → k < x.fmt.width → x.mismatch (2 ^ k) = true) ∧
  (∀ (x : CheckVal) (v : F16) (k : Nat), x.by_ = .residue → x.fmt = .f16 → x.code = v.toNat → nonFinite v = false → k < 7 →
    x.mismatch (2 ^ k) = true) ∧
  (∀ (l : List Dy) (eref : Int), hresMul l eref = hresDy (termValue l) eref) ∧
  (∀ (l : List (List Dy)) (eref : Int), hresSum l eref = hresDy (Dy.sum (l.map termValue)) eref)
end

