-- ==== Sys2Proof/Laws/Bits.lean ====
section
/-! SUPPORT. Bit fields of a word: what reading and replacing one does. -/
set_option Elab.async false
namespace Sys2Proof.Machine

theorem testBit_bits (v hi lo i : Nat) : (bits v hi lo).testBit i = (decide (i < hi + 1 - lo) && v.testBit (lo + i)) := by
  simp [bits, Nat.testBit_mod_two_pow, Nat.testBit_shiftRight]

theorem setBits_eq (v hi lo x : Nat) :
    setBits v hi lo x = 2 ^ lo * (2 ^ (hi + 1 - lo) * (v / 2 ^ lo / 2 ^ (hi + 1 - lo)) + x % 2 ^ (hi + 1 - lo)) + v % 2 ^ lo := by
  have h1 := Nat.div_add_mod v (2 ^ lo)
  have h2 := Nat.div_add_mod (v / 2 ^ lo) (2 ^ (hi + 1 - lo))
  generalize hw : hi + 1 - lo = w at *
  simp only [setBits, bits, Nat.shiftRight_eq_div_pow, hw]
  generalize v / 2 ^ lo / 2 ^ w = q at *
  generalize v / 2 ^ lo % 2 ^ w = m at *
  generalize x % 2 ^ w = y at *
  generalize v / 2 ^ lo = d at *
  generalize v % 2 ^ lo = r at *
  subst h2
  subst h1
  have e : 2 ^ lo * (2 ^ w * q + m) + r - m * 2 ^ lo = 2 ^ lo * (2 ^ w * q) + r := by
    rw [Nat.mul_add, Nat.mul_comm m]; omega
  rw [e, Nat.mul_add, Nat.mul_comm y]; omega

theorem testBit_setBits (v hi lo x i : Nat) :
    (setBits v hi lo x).testBit i = if lo ≤ i ∧ i ≤ hi then x.testBit (i - lo) else v.testBit i := by
  rw [setBits_eq, Nat.testBit_two_pow_mul_add _ (Nat.mod_lt _ (Nat.two_pow_pos _))]
  by_cases h1 : i < lo
  · have : ¬ (lo ≤ i ∧ i ≤ hi) := by omega
    simp [h1, this, Nat.testBit_mod_two_pow]
  · rw [if_neg h1, Nat.testBit_two_pow_mul_add _ (Nat.mod_lt _ (Nat.two_pow_pos _))]
    by_cases h2 : i - lo < hi + 1 - lo
    · have : lo ≤ i ∧ i ≤ hi := by omega
      simp [h2, this, Nat.testBit_mod_two_pow]
    · have : ¬ (lo ≤ i ∧ i ≤ hi) := by omega
      rw [if_neg h2, if_neg this, Nat.testBit_div_two_pow, Nat.testBit_div_two_pow]
      congr 1
      by_cases h : hi + 1 ≤ lo <;> omega

/-- A replaced field reads as what replaced it. -/
theorem bits_setBits {hi lo : Nat} (v x : Nat) : bits (setBits v hi lo x) hi lo = x % 2 ^ (hi + 1 - lo) := by
  apply Nat.eq_of_testBit_eq
  intro i
  rw [testBit_bits, testBit_setBits, Nat.testBit_mod_two_pow]
  by_cases h : i < hi + 1 - lo
  · have : lo ≤ lo + i ∧ lo + i ≤ hi := by omega
    simp [h, this]
  · simp [h]

/-- A field that does not meet the replaced one reads as before. -/
theorem bits_setBits_ne {hi lo hi' lo' : Nat} (v x : Nat) (h : hi' < lo ∨ hi < lo') :
    bits (setBits v hi lo x) hi' lo' = bits v hi' lo' := by
  apply Nat.eq_of_testBit_eq
  intro i
  rw [testBit_bits, testBit_bits, testBit_setBits]
  by_cases h' : i < hi' + 1 - lo'
  · have : ¬ (lo ≤ lo' + i ∧ lo' + i ≤ hi) := by omega
    simp [h', this]
  · simp [h']

theorem setBits_lt {v hi lo x n : Nat} (hv : v < 2 ^ n) (hh : hi < n) : setBits v hi lo x < 2 ^ n := by
  apply Nat.lt_pow_two_of_testBit
  intro i h'
  rw [testBit_setBits]
  have : ¬ (lo ≤ i ∧ i ≤ hi) := by omega
  rw [if_neg this]
  exact Nat.testBit_eq_false_of_lt (lt_of_lt_of_le hv (Nat.pow_le_pow_right (by decide) h'))

theorem bits_lt (v hi lo : Nat) : bits v hi lo < 2 ^ (hi + 1 - lo) := Nat.mod_lt _ (Nat.two_pow_pos _)

/-- Setting a bit leaves the fields that do not hold it. -/
theorem bits_or_ne {v b hi lo : Nat} (h : b < lo ∨ hi < b) : bits (v ||| 2 ^ b) hi lo = bits v hi lo := by
  apply Nat.eq_of_testBit_eq
  intro i
  rw [testBit_bits, testBit_bits, Nat.testBit_or, Nat.testBit_two_pow]
  by_cases h' : i < hi + 1 - lo
  · have : ¬ b = lo + i := by omega
    simp [this]
  · simp [h']

theorem bits_or_self (v b : Nat) : bits (v ||| 2 ^ b) b b = 1 := by
  have h : bits (v ||| 2 ^ b) b b < 2 := by simpa using bits_lt (v ||| 2 ^ b) b b
  have h0 : (bits (v ||| 2 ^ b) b b).testBit 0 = true := by rw [testBit_bits]; simp
  have : bits (v ||| 2 ^ b) b b ≠ 0 := by intro e; rw [e] at h0; simp at h0
  omega

end Sys2Proof.Machine
end

