-- ==== Sys2Proof/Laws/Store.lean ====
section
/-! SUPPORT. What sparse storage does: reading after writing, and that every operation keeps the canonical form. -/
set_option Elab.async false
namespace Sys2Proof.Machine

variable {α : Type} [DecidableEq α] {d : Nat → α}

theorem wfFrom_cons {lo j : Nat} {v : α} {r : SMap α} :
    wfFrom d lo ((j, v) :: r) = true ↔ lo ≤ j ∧ v ≠ d j ∧ wfFrom d (j + 1) r = true := by
  simp [wfFrom, and_assoc]

theorem wfFrom_mono {lo lo' : Nat} (h : lo' ≤ lo) : ∀ {m : SMap α}, wfFrom d lo m = true → wfFrom d lo' m = true
  | [], _ => rfl
  | (_, _) :: _, hm => by
    rw [wfFrom_cons] at hm ⊢
    exact ⟨h.trans hm.1, hm.2⟩

/-- A key below every listed one reads as unlisted. -/
theorem get_below {lo k : Nat} (h : k < lo) : ∀ {m : SMap α}, wfFrom d lo m = true → get d m k = d k
  | [], _ => rfl
  | (j, v) :: r, hm => by
    rw [wfFrom_cons] at hm
    have : k < j := by omega
    simp [get, this, this.ne]

theorem wfFrom_put {lo k : Nat} {v : α} (h : lo ≤ k) : ∀ {m : SMap α}, wfFrom d lo m = true → wfFrom d lo (put d m k v) = true
  | [], _ => by
    by_cases hv : v = d k <;> simp [put, hv, wfFrom, h]
  | (j, w) :: r, hm => by
    rw [wfFrom_cons] at hm
    obtain ⟨hj, hw, hr⟩ := hm
    rcases lt_trichotomy k j with hk | rfl | hk
    · by_cases hv : v = d k
      · simpa [put, hk.ne, hk, hv, wfFrom_cons] using ⟨hj, hw, hr⟩
      · simpa [put, hk.ne, hk, hv, wfFrom_cons] using ⟨h, ⟨hw, hr⟩⟩
    · by_cases hv : v = d k
      · simpa [put, hv] using wfFrom_mono (by omega) hr
      · simpa [put, hv, wfFrom_cons] using ⟨hj, hr⟩
    · have : ¬ k < j := by omega
      simpa [put, hk.ne', this, wfFrom_cons] using ⟨hj, hw, wfFrom_put (by omega) hr⟩

theorem wf_put {k : Nat} {v : α} {m : SMap α} (h : wf d m = true) : wf d (put d m k v) = true := wfFrom_put (Nat.zero_le k) h

theorem get_put_from {lo k : Nat} {v : α} : ∀ {m : SMap α}, wfFrom d lo m = true → get d (put d m k v) k = v
  | [], _ => by by_cases hv : v = d k <;> simp [put, get, hv]
  | (j, w) :: r, hm => by
    rw [wfFrom_cons] at hm
    obtain ⟨_, _, hr⟩ := hm
    rcases lt_trichotomy k j with hk | rfl | hk
    · by_cases hv : v = d k <;> simp [put, get, hk.ne, hk, hv]
    · by_cases hv : v = d k
      · simpa [put, hv] using get_below (by omega) hr
      · simp [put, get, hv]
    · have : ¬ k < j := by omega
      simpa [put, get, hk.ne', this] using get_put_from hr

/-- A value written is read back. -/
theorem get_put {k : Nat} {v : α} {m : SMap α} (h : wf d m = true) : get d (put d m k v) k = v := get_put_from h

theorem get_put_ne_from {lo k k' : Nat} {v : α} (hne : k' ≠ k) :
    ∀ {m : SMap α}, wfFrom d lo m = true → get d (put d m k v) k' = get d m k'
  | [], _ => by
    by_cases hv : v = d k
    · simp [put, hv]
    · by_cases hl : k' < k <;> simp [put, get, hv, hne, hl]
  | (j, w) :: r, hm => by
    rw [wfFrom_cons] at hm
    obtain ⟨_, _, hr⟩ := hm
    rcases lt_trichotomy k j with hk | rfl | hk
    · by_cases hv : v = d k
      · simp [put, hk.ne, hk, hv]
      · simp only [put, hk.ne, hk, hv, if_false, if_true, get, hne]
        by_cases hl : k' < k
        · have : k' < j := by omega
          simp [hl, this, this.ne]
        · simp [hl]
    · by_cases hv : v = d k
      · simp only [put, hv, if_true, get, hne, if_false]
        by_cases hl : k' < k
        · simpa [hl] using get_below (by omega) hr
        · simp [hl]
      · simp [put, get, hv, hne]
    · have : ¬ k < j := by omega
      simp only [put, hk.ne', this, if_false, get]
      by_cases he : k' = j
      · simp [he]
      · by_cases hl : k' < j
        · simp [he, hl]
        · simpa [he, hl] using get_put_ne_from hne hr

/-- Other keys read as before. -/
theorem get_put_ne {k k' : Nat} {v : α} {m : SMap α} (h : wf d m = true) (hne : k' ≠ k) :
    get d (put d m k v) k' = get d m k' := get_put_ne_from hne h

theorem wf_putBytes {d : Nat → Byte} {l : List Byte} {m : SMap Byte} {a : Nat} (h : wf d m = true) :
    wf d (putBytes d m a l) = true := by
  induction l generalizing m a with
  | nil => exact h
  | cons b l ih => exact ih (wf_put h)

/-- Bytes outside the written span read as before. -/
theorem get_putBytes_out {d : Nat → Byte} {k : Nat} : ∀ {l : List Byte} {m : SMap Byte} {a : Nat}, wf d m = true →
    (k < a ∨ a + l.length ≤ k) → get d (putBytes d m a l) k = get d m k
  | [], _, _, _, _ => rfl
  | b :: l, m, a, h, hk => by
    have hl : (b :: l).length = l.length + 1 := rfl
    rw [putBytes, get_putBytes_out (wf_put h) (by omega), get_put_ne h (by omega)]

/-- A byte of the written span reads as written. -/
theorem get_putBytes_in {d : Nat → Byte} : ∀ {l : List Byte} {m : SMap Byte} {a : Nat}, wf d m = true →
    ∀ i, (h : i < l.length) → get d (putBytes d m a l) (a + i) = l[i]
  | b :: l, m, a, hm, 0, _ => by
    rw [putBytes, get_putBytes_out (wf_put hm) (by omega)]
    exact get_put hm
  | b :: l, m, a, hm, i + 1, h => by
    have := get_putBytes_in (l := l) (a := a + 1) (wf_put (k := a) (v := b) hm) i (by simpa using h)
    rw [putBytes, show a + (i + 1) = a + 1 + i by omega, this]
    rfl

theorem wfFrom_filter {p : Nat × α → Bool} : ∀ {m : SMap α} {lo : Nat}, wfFrom d lo m = true → wfFrom d lo (m.filter p) = true
  | [], _, _ => rfl
  | (j, v) :: r, lo, hm => by
    rw [wfFrom_cons] at hm
    by_cases hp : p (j, v) = true
    · rw [List.filter_cons_of_pos hp, wfFrom_cons]
      exact ⟨hm.1, hm.2.1, wfFrom_filter hm.2.2⟩
    · rw [List.filter_cons_of_neg hp]
      exact wfFrom_mono (by omega) (wfFrom_filter hm.2.2)

theorem wf_forget {p : Nat → Bool} {m : SMap α} (h : wf d m = true) : wf d (forget p m) = true := wfFrom_filter h

theorem wfFrom_mapVals {f : α → α} {e : α} :
    ∀ {m : SMap α} {lo : Nat}, wfFrom (fun _ => e) lo m = true → wfFrom (fun _ => e) lo (mapVals e f m) = true
  | [], _, _ => rfl
  | (j, v) :: r, lo, hm => by
    rw [wfFrom_cons] at hm
    have ih : wfFrom (fun _ => e) (j + 1) (mapVals e f r) = true := wfFrom_mapVals hm.2.2
    by_cases hp : f v = e
    · have : mapVals e f ((j, v) :: r) = mapVals e f r := by simp [mapVals, hp]
      rw [this]
      exact wfFrom_mono (by omega) ih
    · have : mapVals e f ((j, v) :: r) = (j, f v) :: mapVals e f r := by simp [mapVals, hp]
      rw [this, wfFrom_cons]
      exact ⟨hm.1, hp, ih⟩

theorem wf_mapVals {f : α → α} {e : α} {m : SMap α} (h : wf (fun _ => e) m = true) : wf (fun _ => e) (mapVals e f m) = true :=
  wfFrom_mapVals h

theorem mem_mapVals {f : α → α} {e : α} {m : SMap α} {p : Nat × α} (h : p ∈ mapVals e f m) : ∃ q ∈ m, p = (q.1, f q.2) := by
  obtain ⟨q, hq, rfl⟩ := List.mem_map.1 (List.mem_filter.1 h).1
  exact ⟨q, hq, rfl⟩

theorem mem_put {m : SMap α} {k : Nat} {v : α} {p : Nat × α} (h : p ∈ put d m k v) : p = (k, v) ∨ p ∈ m := by
  induction m with
  | nil =>
    by_cases hv : v = d k <;> simp_all [put]
  | cons q r ih =>
    obtain ⟨j, w⟩ := q
    simp only [put] at h
    split at h
    · split at h <;> simp_all
      aesop
    · split at h
      · split at h <;> simp_all
      · rcases List.mem_cons.1 h with h | h
        · simp [h]
        · rcases ih h with h | h <;> simp [h]

omit [DecidableEq α] in
/-- What a listed value is read as. -/
theorem get_mem {m : SMap α} {k : Nat} (P : α → Prop) (hd : P (d k)) (h : ∀ p ∈ m, P p.2) : P (get d m k) := by
  induction m with
  | nil => exact hd
  | cons q r ih =>
    obtain ⟨j, w⟩ := q
    simp only [get]
    split
    · exact h _ List.mem_cons_self
    · split
      · exact hd
      · exact ih fun p hp => h p (List.mem_cons_of_mem _ hp)

end Sys2Proof.Machine
end

