-- ==== Sys2Proof/Laws/Canon.lean ====
section
/-! SUPPORT. The canonical form of the state's memories under the operations that everything is written over. -/
set_option Elab.async false
namespace Sys2Proof.Machine

/-- The canonical form of a cell, field by field. -/
structure CellCanon (x : Cell) : Prop where
  sp : wf noByte x.sp = true
  spBad : wf (fun _ => 0) x.spBad = true
  ecc : wf (fun _ => 0) x.ecc = true
  codes : wf defaultCode x.codes = true
  exps : wf defaultExp x.exps = true
  checks : wf defaultCheck x.checks = true
  trims : wf (fun _ => 0) x.trims = true
  arrs : wf (fun _ => Arr.init) x.arrs = true
  colmap : wf (fun k => k % 256) x.colmap = true
  colbad : wf (fun _ => false) x.colbad = true
  usedCols : wf (fun _ => 0) x.usedCols = true
  acc : wf (fun _ => 0) x.acc = true
  side : wf (fun _ => 0) x.side = true
  tiles : wf (fun _ => Tile.init) x.tiles = true
  bufs : wf (fun _ => AnvBuf.init) x.bufs = true
  chains : wf (fun _ => Chain.init) x.chains = true
  tables : wf (fun _ => nan16) x.tables = true
  tableBusy : wf (fun _ => 0) x.tableBusy = true
  ringBytes : wf (fun _ => 0) x.ringBytes = true

theorem cellCanon_iff {x : Cell} : x.canonical = true ↔ CellCanon x := by
  simp only [Cell.canonical, Bool.and_eq_true]
  exact ⟨fun h => ⟨h.1.1.1.1.1.1.1.1.1.1.1.1.1.1.1.1.1.1, h.1.1.1.1.1.1.1.1.1.1.1.1.1.1.1.1.1.2, h.1.1.1.1.1.1.1.1.1.1.1.1.1.1.1.1.2, h.1.1.1.1.1.1.1.1.1.1.1.1.1.1.1.2, h.1.1.1.1.1.1.1.1.1.1.1.1.1.1.2, h.1.1.1.1.1.1.1.1.1.1.1.1.1.2, h.1.1.1.1.1.1.1.1.1.1.1.1.2, h.1.1.1.1.1.1.1.1.1.1.1.2, h.1.1.1.1.1.1.1.1.1.1.2, h.1.1.1.1.1.1.1.1.1.2, h.1.1.1.1.1.1.1.1.2, h.1.1.1.1.1.1.1.2, h.1.1.1.1.1.1.2, h.1.1.1.1.1.2, h.1.1.1.1.2, h.1.1.1.2, h.1.1.2, h.1.2, h.2⟩, fun h => ⟨⟨⟨⟨⟨⟨⟨⟨⟨⟨⟨⟨⟨⟨⟨⟨⟨⟨h.1, h.2⟩, h.3⟩, h.4⟩, h.5⟩, h.6⟩, h.7⟩, h.8⟩, h.9⟩, h.10⟩, h.11⟩, h.12⟩, h.13⟩, h.14⟩, h.15⟩, h.16⟩, h.17⟩, h.18⟩, h.19⟩⟩

/-- The canonical form, field by field. -/
structure Canon (s : State) : Prop where
  regs : wf regDefault s.regs = true
  bytes : wf noByte s.dram.bytes = true
  marks : wf (fun _ => 0) s.dram.marks = true
  cells : wf (fun _ => Cell.init) s.cells = true
  each : ∀ p ∈ s.cells, CellCanon p.2

theorem canon_iff {s : State} : s.canonical = true ↔ Canon s := by
  simp only [State.canonical, Bool.and_eq_true, List.all_eq_true, cellCanon_iff]
  exact ⟨fun h => ⟨h.1.1.1.1, h.1.1.1.2, h.1.1.2, h.1.2, h.2⟩, fun h => ⟨⟨⟨⟨h.1, h.2⟩, h.3⟩, h.4⟩, h.5⟩⟩

/-- Registers, DRAM and cells alone decide. -/
theorem canon_congr {s t : State} (h : Canon s) (hr : t.regs = s.regs) (hd : t.dram = s.dram) (hc : t.cells = s.cells) : Canon t :=
  ⟨hr ▸ h.1, hd ▸ h.2, hd ▸ h.3, hc ▸ h.4, hc ▸ h.5⟩

theorem canon_mk {s : State} (h : Canon s) {a1 a2 a3 a5 a6 a7 a8 a9 a10 a12 a14 a15 a16 a17 a18 a19 a20 a21 a22 a23 a24 a25 a26} :
    Canon ⟨a1, a2, a3, s.regs, a5, a6, a7, a8, a9, a10, s.cells, a12, s.dram, a14, a15, a16, a17, a18, a19, a20, a21, a22, a23, a24, a25, a26⟩ :=
  canon_congr h rfl rfl rfl

theorem canon_wr {k v : Nat} {s : State} (h : Canon s) : Canon (wr k v s) := ⟨wf_put h.1, h.2, h.3, h.4, h.5⟩

theorem canon_each {α : Type} {l : List α} {f : α → State → State} {s : State} (hf : ∀ x s, Canon s → Canon (f x s)) (h : Canon s) :
    Canon (each l f s) := by
  unfold each
  induction l generalizing s with
  | nil => exact h
  | cons x l ih => exact ih (hf x s h)

theorem cellCanon_init : CellCanon Cell.init := ⟨rfl, rfl, rfl, rfl, rfl, rfl, rfl, rfl, rfl, rfl, rfl, rfl, rfl, rfl, rfl, rfl, rfl, rfl, rfl⟩

theorem cellCanon_at {s : State} (h : Canon s) (c : Nat) : CellCanon (cellAt s c) := get_mem CellCanon cellCanon_init h.5

theorem canon_setCell {c : Nat} {x : Cell} {s : State} (hx : CellCanon x) (h : Canon s) : Canon (setCell c x s) :=
  ⟨h.1, h.2, h.3, wf_put h.4, fun p hp => (mem_put hp).elim (fun e => e ▸ hx) (h.5 p)⟩

theorem canon_onCell {c : Nat} {f : Cell → Cell} {s : State} (hf : ∀ x, CellCanon x → CellCanon (f x))
    (h : Canon s) : Canon (onCell c f s) := canon_setCell (hf _ (cellCanon_at h c)) h

theorem canon_mapCells {f : Cell → Cell} {s : State} (hf : ∀ x, CellCanon x → CellCanon (f x))
    (h : Canon s) : Canon (mapCells f s) :=
  ⟨h.1, h.2, h.3, wf_mapVals h.4, fun _ hp => by
    obtain ⟨q, hq, rfl⟩ := mem_mapVals hp
    exact hf _ (h.5 q hq)⟩

theorem wf_foldPut {α β : Type} [DecidableEq α] {d : Nat → α} {l : List β} {k : β → Nat} {v : SMap α → β → α} {m : SMap α}
    (h : wf d m = true) : wf d (l.foldl (fun m i => put d m (k i) (v m i)) m) = true := by
  induction l generalizing m with
  | nil => exact h
  | cons x l ih => exact ih (wf_put h)

/-- A change of a cell that leaves its memories. -/
theorem CellCanon.same {x y : Cell} (h : CellCanon x) (h0 : y.sp = x.sp := by rfl) (h1 : y.spBad = x.spBad := by rfl) (h2 : y.ecc = x.ecc := by rfl) (h3 : y.codes = x.codes := by rfl) (h4 : y.exps = x.exps := by rfl) (h5 : y.checks = x.checks := by rfl) (h6 : y.trims = x.trims := by rfl) (h7 : y.arrs = x.arrs := by rfl) (h8 : y.colmap = x.colmap := by rfl) (h9 : y.colbad = x.colbad := by rfl) (h10 : y.usedCols = x.usedCols := by rfl) (h11 : y.acc = x.acc := by rfl) (h12 : y.side = x.side := by rfl) (h13 : y.tiles = x.tiles := by rfl) (h14 : y.bufs = x.bufs := by rfl) (h15 : y.chains = x.chains := by rfl) (h16 : y.tables = x.tables := by rfl) (h17 : y.tableBusy = x.tableBusy := by rfl) (h18 : y.ringBytes = x.ringBytes := by rfl) : CellCanon y := by
  constructor <;> simp only [h0, h1, h2, h3, h4, h5, h6, h7, h8, h9, h10, h11, h12, h13, h14, h15, h16, h17, h18] <;> first | exact h.sp | exact h.spBad | exact h.ecc | exact h.codes | exact h.exps | exact h.checks | exact h.trims | exact h.arrs | exact h.colmap | exact h.colbad | exact h.usedCols | exact h.acc | exact h.side | exact h.tiles | exact h.bufs | exact h.chains | exact h.tables | exact h.tableBusy | exact h.ringBytes

theorem canon_foldl {α β : Type} {l : List α} {f : β × State → α → β × State} {a : β × State}
    (hf : ∀ a x, Canon a.2 → Canon (f a x).2) (h : Canon a.2) : Canon (l.foldl f a).2 := by
  induction l generalizing a with
  | nil => exact h
  | cons x l ih => exact ih (hf a x h)

theorem canon_regs {s t : State} (hr : wf regDefault t.regs = true) (h : Canon s) (hd : t.dram = s.dram := by rfl)
    (hc : t.cells = s.cells := by rfl) : Canon t := ⟨hr, hd ▸ h.2, hd ▸ h.3, hc ▸ h.4, hc ▸ h.5⟩

theorem canon_marks {s t : State} (hm : wf (fun _ => 0) t.dram.marks = true) (h : Canon s) (hb : t.dram.bytes = s.dram.bytes := by rfl)
    (hr : t.regs = s.regs := by rfl) (hc : t.cells = s.cells := by rfl) : Canon t := ⟨hr ▸ h.1, hb ▸ h.2, hm, hc ▸ h.4, hc ▸ h.5⟩

theorem canon_ite {c : Prop} [Decidable c] {a b : State} (h1 : Canon a) (h2 : Canon b) : Canon (if c then a else b) := by
  split <;> assumption

theorem canon_snd {α : Type} {x : α × State} {a : α} {s : State} (e : x = (a, s)) (h : Canon x.2) : Canon s := by
  subst e; exact h

theorem canon_cut {v : State} (h : Canon v) {P : Prop} (k : Canon v → P) : P := k h

end Sys2Proof.Machine
end

