-- ==== Sys2Proof/Laws/CanonOps.lean ====
section
/-! SUPPORT. The canonical form of the memories under the shared operations, what lands and the passing of time. -/
set_option Elab.async false
set_option linter.tactic.unusedName false
set_option linter.unreachableTactic false
set_option linter.unusedTactic false
namespace Sys2Proof.Machine

theorem cellCanon_blockPut {l : List Nat} {key : Nat} {b : List Byte} {e : Nat} {k : BitVec 16} {x : Cell} (h : CellCanon x) :
    CellCanon (blockPut l key b e k x) :=
  { h with codes := wf_foldPut h.codes, exps := wf_put h.exps, checks := wf_put h.checks }

theorem cellCanon_mirrored {old new : Cell} (ho : CellCanon old) (hn : CellCanon new) : CellCanon (mirrored old new) :=
  { hn with sp := ho.sp, spBad := ho.spBad, acc := ho.acc, side := ho.side, tiles := ho.tiles, tables := ho.tables }

theorem cellCanon_renewArrs {l : List Nat} {x : Cell} (h : CellCanon x) : CellCanon (renewArrs l x) :=
  { h with
    arrs := by
      have : ∀ {m : SMap Arr}, wf (fun _ => Arr.init) m = true → wf (fun _ => Arr.init) (l.foldl (fun m a =>
          put (fun _ => Arr.init) m a { get (fun _ => Arr.init) m a with pending := true, gen := 0 }) m) = true := by
        induction l with
        | nil => exact fun h => h
        | cons a l ih => exact fun h => ih (wf_put h)
      exact this h.arrs }

theorem cellCanon_unpowered {x : Cell} (h : CellCanon x) : CellCanon x.unpowered :=
  { cellCanon_init with
    colmap := h.colmap, colbad := h.colbad, usedCols := h.usedCols
    arrs := by
      have : ∀ (l : SMap Arr) {m : SMap Arr}, wf (fun _ => Arr.init) m = true → wf (fun _ => Arr.init) (l.foldl (fun m p =>
          if p.2.slice = 0 ∧ p.2.retired = [] then m
          else put (fun _ => Arr.init) m p.1 { Arr.init with slice := p.2.slice, retired := p.2.retired }) m) = true := by
        intro l
        induction l with
        | nil => exact fun h => h
        | cons p l ih => intro m hm; exact ih (by dsimp only; split; exacts [hm, wf_put hm])
      exact this _ rfl }

theorem canon_setFld {k : Nat} {hi : Nat} {lo : Nat} {v : Nat} {s : State} (h : Canon s) : Canon (setFld k hi lo v s) := by
  unfold setFld
  repeat' first
    | with_reducible apply canon_wr
    | with_reducible assumption

theorem canon_sticky {k bit : Nat} {s : State} (h : Canon s) : Canon (sticky k bit s) := canon_mk (canon_wr h)

theorem canon_bumpFld {k : Nat} {hi : Nat} {lo : Nat} {n : Nat} {s : State} (h : Canon s) : Canon (bumpFld k hi lo n s) := by
  unfold bumpFld
  repeat' first
    | with_reducible apply canon_setFld
    | with_reducible assumption

theorem canon_bump {k : Nat} {s : State} (h : Canon s) : Canon (bump k s) := by
  unfold bump
  repeat' first
    | with_reducible apply canon_bumpFld
    | with_reducible assumption

theorem canon_withQueue {q : List Instr} {s : State} (h : Canon s) : Canon (withQueue q s) := by
  unfold withQueue
  repeat' first
    | with_reducible exact canon_mk (by assumption)
    | with_reducible assumption

theorem canon_localLevel {s : State} (h : Canon s) : Canon (localLevel s) := by
  unfold localLevel
  repeat' first
    | (extract_lets -lift +onlyGivenNames s1; first | (refine canon_cut (v := s1) ?_ ?_ <;> [(unfold s1; clear s1); (intro _; try clear_value s1)]) | (refine canon_cut (v := s1.2) ?_ ?_ <;> [(unfold s1; clear s1); (intro _; try clear_value s1)]) | try clear_value s1)
    | with_reducible apply canon_setFld
    | with_reducible assumption

theorem canon_emit {o : Output} {s : State} (h : Canon s) : Canon (emit o s) := by
  unfold emit
  repeat' first
    | with_reducible exact canon_mk (by assumption)
    | with_reducible assumption

theorem canon_fresh {s : State} (h : Canon s) : Canon (fresh s).2 := by
  unfold fresh
  repeat' first
    | with_reducible exact canon_mk (by assumption)
    | with_reducible assumption

theorem canon_setArr {c : Nat} {a : Nat} {x : Arr} {s : State} (h : Canon s) : Canon (setArr c a x s) := by
  unfold setArr
  repeat' first
    | (with_reducible apply canon_onCell); intro x hx; first | exact { hx with arrs := wf_put hx.arrs } | exact hx.same
    | with_reducible exact canon_mk (by assumption)
    | with_reducible assumption

theorem canon_spPut {c addr : Nat} {data : List Byte} {s : State} (h : Canon s) : Canon (spPut c addr data s) :=
  canon_onCell (fun _ hx => { hx with sp := wf_putBytes hx.sp, spBad := (by dsimp only; exact wf_forget hx.spBad) }) h

theorem canon_setMark {line m : Nat} {s : State} (h : Canon s) : Canon (setMark line m s) := ⟨h.1, h.2, wf_put h.3, h.4, h.5⟩

theorem canon_dramPut {a : Nat} {data : List Byte} {s : State} (h : Canon s) : Canon (dramPut a data s) :=
  ⟨h.1, wf_putBytes h.2, h.3, h.4, h.5⟩

theorem canon_journalIssue {entry : List Byte} {s : State} (h : Canon s) : Canon (journalIssue entry s) := by
  unfold journalIssue
  repeat' first
    | (extract_lets -lift +onlyGivenNames s1; first | (refine canon_cut (v := s1) ?_ ?_ <;> [(unfold s1; clear s1); (intro _; try clear_value s1)]) | (refine canon_cut (v := s1.2) ?_ ?_ <;> [(unfold s1; clear s1); (intro _; try clear_value s1)]) | try clear_value s1)
    | with_reducible apply canon_sticky
    | with_reducible apply canon_bump
    | with_reducible apply canon_setFld
    | split
    | with_reducible exact canon_mk (by assumption)
    | with_reducible assumption

theorem canon_setSent {x : Sent} {s : State} (h : Canon s) : Canon (setSent x s) := by
  unfold setSent
  repeat' first
    | with_reducible exact canon_mk (by assumption)
    | with_reducible assumption

theorem canon_enqueue {r : Rec} {s : State} (h : Canon s) : Canon (enqueue r s) := by
  unfold enqueue
  dsimp only
  repeat' first
    | (extract_lets -lift +onlyGivenNames s1; first | (refine canon_cut (v := s1) ?_ ?_ <;> [(unfold s1; clear s1); (intro _; try clear_value s1)]) | (refine canon_cut (v := s1.2) ?_ ?_ <;> [(unfold s1; clear s1); (intro _; try clear_value s1)]) | try clear_value s1)
    | with_reducible apply canon_setFld
    | with_reducible apply canon_bump
    | split
    | with_reducible exact canon_mk (by assumption)
    | with_reducible assumption

theorem canon_recordFull {cls : Nat} {sev : Nat} {loc : List (Nat × Nat)} {detail : List (String × Nat)} {classif : Nat} {first : Nat} {s : State} (h : Canon s) : Canon (recordFull cls sev loc detail classif first s) := by
  unfold recordFull
  repeat' first
    | (extract_lets -lift +onlyGivenNames s1; first | (refine canon_cut (v := s1) ?_ ?_ <;> [(unfold s1; clear s1); (intro _; try clear_value s1)]) | (refine canon_cut (v := s1.2) ?_ ?_ <;> [(unfold s1; clear s1); (intro _; try clear_value s1)]) | try clear_value s1)
    | with_reducible apply canon_setSent
    | with_reducible apply canon_wr
    | with_reducible apply canon_journalIssue
    | with_reducible apply canon_enqueue
    | with_reducible apply canon_bump
    | split
    | with_reducible exact canon_mk (by assumption)
    | with_reducible assumption

theorem canon_recordOf {cls : Nat} {reg : Nat} {loc : List (Nat × Nat)} {first : Nat} {s : State} (h : Canon s) : Canon (recordOf cls reg loc first s) := by
  unfold recordOf
  repeat' first
    | with_reducible apply canon_recordFull
    | with_reducible assumption

theorem canon_record {cls : Nat} {loc : List (Nat × Nat)} {first : Nat} {s : State} (h : Canon s) : Canon (record cls loc first s) := by
  unfold record
  repeat' first
    | with_reducible apply canon_recordOf
    | with_reducible assumption

theorem canon_riskInput {k : Nat} {n : Nat} {s : State} (h : Canon s) : Canon (riskInput k n s) := by
  unfold riskInput
  repeat' first
    | with_reducible exact canon_mk (by assumption)
    | with_reducible assumption

theorem canon_noteCorrected {place : Nat} {k : Nat} {s : State} (h : Canon s) : Canon (noteCorrected place k s) := by
  unfold noteCorrected
  repeat' first
    | with_reducible apply canon_riskInput
    | with_reducible exact canon_mk (by assumption)
    | with_reducible assumption

theorem canon_setQp {q : Nat} {x : Qp} {s : State} (h : Canon s) : Canon (setQp q x s) := by
  unfold setQp
  repeat' first
    | with_reducible exact canon_mk (by assumption)
    | with_reducible assumption

theorem canon_emitPacket {q : Nat} {opcode : Nat} {psn : BitVec 24} {syndrome : Nat} {payload : List Byte} {s : State} (h : Canon s) : Canon (emitPacket q opcode psn syndrome payload s) := by
  unfold emitPacket
  repeat' first
    | with_reducible apply canon_emit
    | with_reducible assumption

theorem canon_emitPkt {q : Nat} {p : Pkt} {s : State} (h : Canon s) : Canon (emitPkt q p s) := by
  unfold emitPkt
  repeat' first
    | with_reducible apply canon_emit
    | with_reducible assumption

theorem canon_sendPacket {q : Nat} {opcode : Nat} {va : Nat} {rkey : Nat} {payload : List Byte} {imm : Nat} {event : Bool} {s : State} (h : Canon s) : Canon (sendPacket q opcode va rkey payload imm event s) := by
  unfold sendPacket
  repeat' first
    | (extract_lets -lift +onlyGivenNames s1; first | (refine canon_cut (v := s1) ?_ ?_ <;> [(unfold s1; clear s1); (intro _; try clear_value s1)]) | (refine canon_cut (v := s1.2) ?_ ?_ <;> [(unfold s1; clear s1); (intro _; try clear_value s1)]) | try clear_value s1)
    | with_reducible apply canon_event
    | with_reducible apply canon_emitPkt
    | with_reducible apply canon_setQp
    | with_reducible apply canon_wr
    | split
    | with_reducible exact canon_mk (by assumption)
    | with_reducible assumption

theorem canon_event {etype : Nat} {code : Nat} {s : State} (h : Canon s) : Canon (event etype code s) := by
  unfold event
  repeat' first
    | (extract_lets -lift +onlyGivenNames s1; first | (refine canon_cut (v := s1) ?_ ?_ <;> [(unfold s1; clear s1); (intro _; try clear_value s1)]) | (refine canon_cut (v := s1.2) ?_ ?_ <;> [(unfold s1; clear s1); (intro _; try clear_value s1)]) | try clear_value s1)
    | with_reducible apply canon_bump
    | (with_reducible apply canon_each); intros
    | with_reducible apply canon_sendPacket
    | split
    | with_reducible assumption

theorem canon_setSchState {t : Nat} {s : State} (h : Canon s) : Canon (setSchState t s) := by
  unfold setSchState
  repeat' first
    | with_reducible apply canon_event
    | with_reducible apply canon_setFld
    | split
    | with_reducible assumption

theorem canon_accFirst {kind : Nat} {src : Source} {addr : Nat} {s : State} (h : Canon s) : Canon (accFirst kind src addr s) := by
  unfold accFirst
  repeat' first
    | (extract_lets -lift +onlyGivenNames s1; first | (refine canon_cut (v := s1) ?_ ?_ <;> [(unfold s1; clear s1); (intro _; try clear_value s1)]) | (refine canon_cut (v := s1.2) ?_ ?_ <;> [(unfold s1; clear s1); (intro _; try clear_value s1)]) | try clear_value s1)
    | with_reducible apply canon_wr
    | with_reducible apply canon_sticky
    | split
    | with_reducible assumption

theorem canon_accState {src : Source} {addr : Nat} {s : State} (h : Canon s) : Canon (accState src addr s) := by
  unfold accState
  repeat' first
    | with_reducible apply canon_accFirst
    | with_reducible assumption

theorem canon_jobFault {s : State} (h : Canon s) : Canon (jobFault s) := by
  unfold jobFault
  repeat' first
    | split
    | with_reducible exact canon_mk (by assumption)
    | with_reducible assumption

theorem canon_jobFaultRec {reg : Nat} {loc : List (Nat × Nat)} {first : Nat} {s : State} (h : Canon s) : Canon (jobFaultRec reg loc first s) := by
  unfold jobFaultRec
  repeat' first
    | with_reducible apply canon_recordOf
    | with_reducible apply canon_jobFault
    | with_reducible assumption

theorem canon_viol {bit : Nat} {unit : Nat} {die : Nat} {wh : Nat} {s : State} (h : Canon s) : Canon (viol bit unit die wh s) := by
  unfold viol
  repeat' first
    | (extract_lets -lift +onlyGivenNames s1; first | (refine canon_cut (v := s1) ?_ ?_ <;> [(unfold s1; clear s1); (intro _; try clear_value s1)]) | (refine canon_cut (v := s1.2) ?_ ?_ <;> [(unfold s1; clear s1); (intro _; try clear_value s1)]) | try clear_value s1)
    | with_reducible apply canon_sticky
    | with_reducible apply canon_wr
    | with_reducible apply canon_record
    | with_reducible apply canon_jobFault
    | split
    | with_reducible exact canon_mk (by assumption)
    | with_reducible assumption

theorem canon_taintMark {cause : Nat} {unit : Nat} {die : Nat} {wh : Nat} {sub : Nat} {loc : List (Nat × Nat)} {s : State} (h : Canon s) : Canon (taintMark cause unit die wh sub loc s) := by
  unfold taintMark
  repeat' first
    | (extract_lets -lift +onlyGivenNames s1; first | (refine canon_cut (v := s1) ?_ ?_ <;> [(unfold s1; clear s1); (intro _; try clear_value s1)]) | (refine canon_cut (v := s1.2) ?_ ?_ <;> [(unfold s1; clear s1); (intro _; try clear_value s1)]) | try clear_value s1)
    | with_reducible apply canon_wr
    | with_reducible exact canon_mk (by assumption)
    | with_reducible assumption

theorem canon_taintPoint {s : State} (h : Canon s) : Canon (taintPoint s) := by
  unfold taintPoint
  repeat' first
    | with_reducible exact canon_mk (by assumption)
    | with_reducible assumption

theorem canon_taint {cause : Nat} {unit : Nat} {die : Nat} {wh : Nat} {sub : Nat} {loc : List (Nat × Nat)} {s : State} (h : Canon s) : Canon (taint cause unit die wh sub loc s) := by
  unfold taint
  repeat' first
    | (extract_lets -lift +onlyGivenNames s1; first | (refine canon_cut (v := s1) ?_ ?_ <;> [(unfold s1; clear s1); (intro _; try clear_value s1)]) | (refine canon_cut (v := s1.2) ?_ ?_ <;> [(unfold s1; clear s1); (intro _; try clear_value s1)]) | try clear_value s1)
    | with_reducible apply canon_riskInput
    | with_reducible apply canon_taintMark
    | with_reducible apply canon_recordFull
    | with_reducible apply canon_bump
    | with_reducible apply canon_record
    | with_reducible apply canon_taintPoint
    | split
    | with_reducible assumption

theorem canon_taintCell {cause : Nat} {unit : Nat} {die : Nat} {cell : Nat} {s : State} (h : Canon s) : Canon (taintCell cause unit die cell s) := by
  unfold taintCell
  repeat' first
    | with_reducible apply canon_taint
    | with_reducible assumption

theorem canon_launch {due : Nat} {e : Effect} {s : State} (h : Canon s) : Canon (launch due e s) := by
  unfold launch
  repeat' first
    | with_reducible exact canon_mk (by assumption)
    | with_reducible assumption

theorem canon_listRow {a : Nat} {s : State} (h : Canon s) : Canon (listRow a s) := by
  unfold listRow
  repeat' first
    | (extract_lets -lift +onlyGivenNames s1; first | (refine canon_cut (v := s1) ?_ ?_ <;> [(unfold s1; clear s1); (intro _; try clear_value s1)]) | (refine canon_cut (v := s1.2) ?_ ?_ <;> [(unfold s1; clear s1); (intro _; try clear_value s1)]) | try clear_value s1)
    | with_reducible apply canon_setFld
    | split
    | with_reducible exact canon_mk (by assumption)
    | with_reducible assumption

theorem canon_countCorrected {a : Nat} {s : State} (h : Canon s) : Canon (countCorrected a s) := by
  unfold countCorrected
  repeat' first
    | (extract_lets -lift +onlyGivenNames s1; first | (refine canon_cut (v := s1) ?_ ?_ <;> [(unfold s1; clear s1); (intro _; try clear_value s1)]) | (refine canon_cut (v := s1.2) ?_ ?_ <;> [(unfold s1; clear s1); (intro _; try clear_value s1)]) | try clear_value s1)
    | with_reducible apply canon_listRow
    | split
    | with_reducible exact canon_mk (by assumption)
    | with_reducible assumption

theorem canon_correctedRead {a : Nat} {s : State} (h : Canon s) : Canon (correctedRead a s) := by
  unfold correctedRead
  repeat' first
    | (extract_lets -lift +onlyGivenNames s1; first | (refine canon_cut (v := s1) ?_ ?_ <;> [(unfold s1; clear s1); (intro _; try clear_value s1)]) | (refine canon_cut (v := s1.2) ?_ ?_ <;> [(unfold s1; clear s1); (intro _; try clear_value s1)]) | try clear_value s1)
    | with_reducible apply canon_noteCorrected
    | with_reducible apply canon_sticky
    | with_reducible apply canon_bumpFld
    | with_reducible apply canon_countCorrected
    | with_reducible apply canon_setMark
    | with_reducible apply canon_dramPut
    | with_reducible assumption

theorem canon_failedRead {a : Nat} {m : Nat} {sched : Bool} {s : State} (h : Canon s) : Canon (failedRead a m sched s) := by
  unfold failedRead
  repeat' first
    | (extract_lets -lift +onlyGivenNames s1; first | (refine canon_cut (v := s1) ?_ ?_ <;> [(unfold s1; clear s1); (intro _; try clear_value s1)]) | (refine canon_cut (v := s1.2) ?_ ?_ <;> [(unfold s1; clear s1); (intro _; try clear_value s1)]) | try clear_value s1)
    | with_reducible apply canon_wr
    | with_reducible apply canon_sticky
    | with_reducible apply canon_bumpFld
    | with_reducible apply canon_record
    | with_reducible apply canon_taint
    | split
    | with_reducible assumption

theorem canon_recordRead {a : Nat} {m : Nat} {sched : Bool} {s : State} (h : Canon s) : Canon (recordRead a m sched s) := by
  unfold recordRead
  repeat' first
    | (extract_lets -lift +onlyGivenNames s1; first | (refine canon_cut (v := s1) ?_ ?_ <;> [(unfold s1; clear s1); (intro _; try clear_value s1)]) | (refine canon_cut (v := s1.2) ?_ ?_ <;> [(unfold s1; clear s1); (intro _; try clear_value s1)]) | try clear_value s1)
    | with_reducible apply canon_bumpFld
    | with_reducible apply canon_correctedRead
    | with_reducible apply canon_failedRead
    | split
    | with_reducible assumption

theorem canon_dramRead {a : Nat} {sched : Bool} {s : State} (h : Canon s) : Canon (dramRead a sched s) := by
  unfold dramRead
  repeat' first
    | with_reducible apply canon_recordRead
    | split
    | with_reducible assumption

theorem canon_readSpan {a : Nat} {n : Nat} {s : State} (h : Canon s) : Canon (readSpan a n s).2 := by
  unfold readSpan
  repeat' first
    | (with_reducible apply canon_foldl) <;> intros
    | (extract_lets -lift +onlyGivenNames s1; first | (refine canon_cut (v := s1) ?_ ?_ <;> [(unfold s1; clear s1); (intro _; try clear_value s1)]) | (refine canon_cut (v := s1.2) ?_ ?_ <;> [(unfold s1; clear s1); (intro _; try clear_value s1)]) | try clear_value s1)
    | with_reducible apply canon_dramRead
    | with_reducible assumption

theorem canon_dramLine {a : Nat} {data : List Byte} {bad : Bool} {s : State} (h : Canon s) : Canon (dramLine a data bad s) := by
  unfold dramLine
  repeat' first
    | with_reducible apply canon_setMark
    | with_reducible apply canon_dramPut
    | with_reducible assumption

theorem canon_asyncLine {a : Nat} {n : Nat} {line : Nat} {s : State} (h : Canon s) : Canon (asyncLine a n line s) := by
  unfold asyncLine
  repeat' first
    | (extract_lets -lift +onlyGivenNames s1; first | (refine canon_cut (v := s1) ?_ ?_ <;> [(unfold s1; clear s1); (intro _; try clear_value s1)]) | (refine canon_cut (v := s1.2) ?_ ?_ <;> [(unfold s1; clear s1); (intro _; try clear_value s1)]) | try clear_value s1)
    | with_reducible apply canon_setMark
    | with_reducible apply canon_dramRead
    | with_reducible apply canon_dramLine
    | split
    | with_reducible assumption

theorem canon_asyncWrite {a : Nat} {data : List Byte} {s : State} (h : Canon s) : Canon (asyncWrite a data s) := by
  unfold asyncWrite
  repeat' first
    | (extract_lets -lift +onlyGivenNames s1; first | (refine canon_cut (v := s1) ?_ ?_ <;> [(unfold s1; clear s1); (intro _; try clear_value s1)]) | (refine canon_cut (v := s1.2) ?_ ?_ <;> [(unfold s1; clear s1); (intro _; try clear_value s1)]) | try clear_value s1)
    | with_reducible apply canon_dramPut
    | (with_reducible apply canon_each); intros
    | with_reducible apply canon_asyncLine
    | with_reducible assumption

theorem canon_writeEntry {i : Nat} {e : TabEntry} {s : State} (h : Canon s) : Canon (writeEntry i e s) := by
  unfold writeEntry
  repeat' first
    | with_reducible apply canon_asyncWrite
    | with_reducible assumption

theorem canon_writeEntries {l : List TabEntry} {s : State} (h : Canon s) : Canon (writeEntries l s) := by
  unfold writeEntries
  repeat' first
    | (with_reducible apply canon_each); intros
    | with_reducible apply canon_writeEntry
    | with_reducible assumption

theorem canon_setRng {v : Nat} {s : State} (h : Canon s) : Canon (setRng v s) := by
  unfold setRng
  repeat' first
    | with_reducible apply canon_asyncWrite
    | split
    | with_reducible assumption

theorem canon_setStat {i : Nat} {x : Stat} {s : State} (h : Canon s) : Canon (setStat i x s) := by
  unfold setStat
  repeat' first
    | with_reducible exact canon_mk (by assumption)
    | with_reducible assumption

theorem canon_noteConv {i : Nat} {x : F16} {ovf : Nat} {tick : Nat} {s : State} (h : Canon s) : Canon (noteConv i x ovf tick s) := by
  unfold noteConv
  repeat' first
    | (extract_lets -lift +onlyGivenNames s1; first | (refine canon_cut (v := s1) ?_ ?_ <;> [(unfold s1; clear s1); (intro _; try clear_value s1)]) | (refine canon_cut (v := s1.2) ?_ ?_ <;> [(unfold s1; clear s1); (intro _; try clear_value s1)]) | try clear_value s1)
    | with_reducible apply canon_setStat
    | with_reducible apply canon_sticky
    | split
    | with_reducible exact canon_mk (by assumption)
    | with_reducible assumption

theorem canon_noteConvs {tid : Nat} {l : List (F16 × Nat)} {evalSeg : Bool} {tick : Nat} {s : State} (h : Canon s) : Canon (noteConvs tid l evalSeg tick s) := by
  unfold noteConvs
  repeat' first
    | (extract_lets -lift +onlyGivenNames s1; first | (refine canon_cut (v := s1) ?_ ?_ <;> [(unfold s1; clear s1); (intro _; try clear_value s1)]) | (refine canon_cut (v := s1.2) ?_ ?_ <;> [(unfold s1; clear s1); (intro _; try clear_value s1)]) | try clear_value s1)
    | with_reducible apply canon_sticky
    | (with_reducible apply canon_each); intros
    | with_reducible apply canon_noteConv
    | split
    | with_reducible exact canon_mk (by assumption)
    | with_reducible assumption

theorem canon_gatherArrays {s : State} (h : Canon s) : Canon (gatherArrays s) := by
  unfold gatherArrays
  repeat' first
    | (extract_lets -lift +onlyGivenNames s1; first | (refine canon_cut (v := s1) ?_ ?_ <;> [(unfold s1; clear s1); (intro _; try clear_value s1)]) | (refine canon_cut (v := s1.2) ?_ ?_ <;> [(unfold s1; clear s1); (intro _; try clear_value s1)]) | try clear_value s1)
    | (with_reducible apply canon_each); intros
    | with_reducible apply canon_setStat
    | split
    | with_reducible exact canon_mk (by assumption)
    | with_reducible assumption

theorem canon_commitTable {s : State} (h : Canon s) : Canon (commitTable s) := by
  unfold commitTable
  repeat' first
    | (extract_lets -lift +onlyGivenNames s1; first | (refine canon_cut (v := s1) ?_ ?_ <;> [(unfold s1; clear s1); (intro _; try clear_value s1)]) | (refine canon_cut (v := s1.2) ?_ ?_ <;> [(unfold s1; clear s1); (intro _; try clear_value s1)]) | try clear_value s1)
    | with_reducible apply canon_bump
    | (with_reducible apply canon_each); intros
    | with_reducible apply canon_writeEntries
    | with_reducible apply canon_asyncWrite
    | split
    | with_reducible exact canon_mk (by assumption)
    | with_reducible assumption

theorem canon_raiseTable {s : State} (h : Canon s) : Canon (raiseTable s) := by
  unfold raiseTable
  repeat' first
    | (extract_lets -lift +onlyGivenNames s1; first | (refine canon_cut (v := s1) ?_ ?_ <;> [(unfold s1; clear s1); (intro _; try clear_value s1)]) | (refine canon_cut (v := s1.2) ?_ ?_ <;> [(unfold s1; clear s1); (intro _; try clear_value s1)]) | try clear_value s1)
    | (with_reducible apply canon_each); intros
    | with_reducible apply canon_writeEntry
    | with_reducible apply canon_bump
    | split
    | with_reducible exact canon_mk (by assumption)
    | with_reducible assumption

theorem canon_cautiousTable {s : State} (h : Canon s) : Canon (cautiousTable s) := by
  unfold cautiousTable
  repeat' first
    | (extract_lets -lift +onlyGivenNames s1; first | (refine canon_cut (v := s1) ?_ ?_ <;> [(unfold s1; clear s1); (intro _; try clear_value s1)]) | (refine canon_cut (v := s1.2) ?_ ?_ <;> [(unfold s1; clear s1); (intro _; try clear_value s1)]) | try clear_value s1)
    | (with_reducible apply canon_each); intros
    | with_reducible apply canon_writeEntry
    | with_reducible apply canon_asyncWrite
    | split
    | with_reducible exact canon_mk (by assumption)
    | with_reducible assumption

theorem canon_skipTable {ovf : Bool} {s : State} (h : Canon s) : Canon (skipTable ovf s) := by
  unfold skipTable
  repeat' first
    | (extract_lets -lift +onlyGivenNames s1; first | (refine canon_cut (v := s1) ?_ ?_ <;> [(unfold s1; clear s1); (intro _; try clear_value s1)]) | (refine canon_cut (v := s1.2) ?_ ?_ <;> [(unfold s1; clear s1); (intro _; try clear_value s1)]) | try clear_value s1)
    | with_reducible apply canon_writeEntries
    | with_reducible apply canon_bump
    | split
    | with_reducible exact canon_mk (by assumption)
    | with_reducible assumption

theorem canon_setSreg {die : Nat} {g : Nat} {r : Nat} {v : F16} {s : State} (h : Canon s) : Canon (setSreg die g r v s) := by
  unfold setSreg
  repeat' first
    | (extract_lets -lift +onlyGivenNames s1; first | (refine canon_cut (v := s1) ?_ ?_ <;> [(unfold s1; clear s1); (intro _; try clear_value s1)]) | (refine canon_cut (v := s1.2) ?_ ?_ <;> [(unfold s1; clear s1); (intro _; try clear_value s1)]) | try clear_value s1)
    | with_reducible exact canon_mk (by assumption)
    | with_reducible assumption

theorem canon_takeFile {die : Nat} {g : Nat} {s : State} (h : Canon s) : Canon (takeFile die g s) := by
  unfold takeFile
  repeat' first
    | (extract_lets -lift +onlyGivenNames s1; first | (refine canon_cut (v := s1) ?_ ?_ <;> [(unfold s1; clear s1); (intro _; try clear_value s1)]) | (refine canon_cut (v := s1.2) ?_ ?_ <;> [(unfold s1; clear s1); (intro _; try clear_value s1)]) | try clear_value s1)
    | (with_reducible apply canon_each); intros
    | with_reducible exact canon_mk (by assumption)
    | with_reducible assumption

theorem canon_tableRead {s : State} (h : Canon s) : Canon (tableRead s) := by
  unfold tableRead
  repeat' first
    | with_reducible apply canon_readSpan
    | split
    | with_reducible assumption

theorem canon_windowTable {s : State} (h : Canon s) : Canon (windowTable s) := by
  unfold windowTable
  repeat' first
    | (extract_lets -lift +onlyGivenNames s1; first | (refine canon_cut (v := s1) ?_ ?_ <;> [(unfold s1; clear s1); (intro _; try clear_value s1)]) | (refine canon_cut (v := s1.2) ?_ ?_ <;> [(unfold s1; clear s1); (intro _; try clear_value s1)]) | try clear_value s1)
    | with_reducible apply canon_tableRead
    | with_reducible apply canon_launch
    | (with_reducible apply canon_each); intros
    | with_reducible apply canon_setSreg
    | split
    | with_reducible exact canon_mk (by assumption)
    | with_reducible assumption

theorem canon_retire {r : Nat × Nat × Nat × Nat × Nat} {s : State} (h : Canon s) : Canon (retire r s) := by
  unfold retire
  repeat' first
    | (extract_lets -lift +onlyGivenNames s1; first | (refine canon_cut (v := s1) ?_ ?_ <;> [(unfold s1; clear s1); (intro _; try clear_value s1)]) | (refine canon_cut (v := s1.2) ?_ ?_ <;> [(unfold s1; clear s1); (intro _; try clear_value s1)]) | try clear_value s1)
    | split
    | with_reducible exact canon_mk (by assumption)
    | with_reducible assumption

theorem canon_mapsChanged {s : State} (h : Canon s) : Canon (mapsChanged s) := by
  unfold mapsChanged
  repeat' first
    | with_reducible apply canon_sticky
    | with_reducible exact canon_mk (by assumption)
    | with_reducible assumption

theorem canon_wear {counter : Nat} {die : Nat} {unit : Nat} {n : Nat} {s : State} (h : Canon s) : Canon (wear counter die unit n s) := by
  unfold wear
  repeat' first
    | with_reducible apply canon_mapsChanged
    | with_reducible apply canon_bumpFld
    | with_reducible assumption

theorem canon_markColBad {c : Nat} {a : Nat} {p : Nat} {s : State} (h : Canon s) : Canon (markColBad c a p s) := by
  unfold markColBad
  repeat' first
    | with_reducible apply canon_mapsChanged
    | (with_reducible apply canon_onCell); intro x hx; first | exact { hx with colbad := wf_put hx.colbad } | exact hx.same
    | with_reducible exact canon_mk (by assumption)
    | with_reducible assumption

theorem canon_setColMap {c : Nat} {a : Nat} {col : Nat} {p : Nat} {s : State} (h : Canon s) : Canon (setColMap c a col p s) := by
  unfold setColMap
  repeat' first
    | with_reducible apply canon_mapsChanged
    | (with_reducible apply canon_onCell); intro x hx; first | exact { hx with colmap := wf_put hx.colmap, usedCols := wf_put hx.usedCols } | exact hx.same
    | with_reducible exact canon_mk (by assumption)
    | with_reducible assumption

theorem canon_moveTrims {old : Nat} {new : Nat} {s : State} (h : Canon s) : Canon (moveTrims old new s) := by
  unfold moveTrims
  repeat' first
    | (extract_lets -lift +onlyGivenNames s1; first | (refine canon_cut (v := s1) ?_ ?_ <;> [(unfold s1; clear s1); (intro _; try clear_value s1)]) | (refine canon_cut (v := s1.2) ?_ ?_ <;> [(unfold s1; clear s1); (intro _; try clear_value s1)]) | try clear_value s1)
    | (with_reducible apply canon_each); intros
    | with_reducible apply canon_setArr
    | with_reducible exact canon_mk (by assumption)
    | with_reducible assumption

theorem canon_setCellMap {die : Nat} {cell : Nat} {c : Nat} {s : State} (h : Canon s) : Canon (setCellMap die cell c s) := by
  unfold setCellMap
  repeat' first
    | (extract_lets -lift +onlyGivenNames s1; first | (refine canon_cut (v := s1) ?_ ?_ <;> [(unfold s1; clear s1); (intro _; try clear_value s1)]) | (refine canon_cut (v := s1.2) ?_ ?_ <;> [(unfold s1; clear s1); (intro _; try clear_value s1)]) | try clear_value s1)
    | with_reducible apply canon_moveTrims
    | with_reducible apply canon_mapsChanged
    | split
    | with_reducible exact canon_mk (by assumption)
    | with_reducible assumption

theorem canon_setFill {die : Nat} {slot : Nat} {f : Fill} {s : State} (h : Canon s) : Canon (setFill die slot f s) := by
  unfold setFill
  repeat' first
    | with_reducible exact canon_mk (by assumption)
    | with_reducible assumption

theorem canon_clearFill {die : Nat} {slot : Nat} {s : State} (h : Canon s) : Canon (clearFill die slot s) := by
  unfold clearFill
  repeat' first
    | with_reducible apply canon_setFill
    | with_reducible apply canon_wr
    | with_reducible assumption

theorem canon_placeFill {slot : Nat} {kind : Nat} {die : Nat} {cell : Nat} {a : Nat} {col : Nat} {f : Fill} {s : State} (h : Canon s) : Canon (placeFill slot kind die cell a col f s) := by
  unfold placeFill
  repeat' first
    | (extract_lets -lift +onlyGivenNames s1; first | (refine canon_cut (v := s1) ?_ ?_ <;> [(unfold s1; clear s1); (intro _; try clear_value s1)]) | (refine canon_cut (v := s1.2) ?_ ?_ <;> [(unfold s1; clear s1); (intro _; try clear_value s1)]) | try clear_value s1)
    | with_reducible apply canon_setFill
    | with_reducible apply canon_wr
    | split
    | with_reducible assumption

theorem canon_capacityLoss {loc : List (Nat × Nat)} {s : State} (h : Canon s) : Canon (capacityLoss loc s) := by
  unfold capacityLoss
  repeat' first
    | (extract_lets -lift +onlyGivenNames s1; first | (refine canon_cut (v := s1) ?_ ?_ <;> [(unfold s1; clear s1); (intro _; try clear_value s1)]) | (refine canon_cut (v := s1.2) ?_ ?_ <;> [(unfold s1; clear s1); (intro _; try clear_value s1)]) | try clear_value s1)
    | with_reducible apply canon_mapsChanged
    | with_reducible apply canon_sticky
    | with_reducible apply canon_jobFault
    | with_reducible apply canon_record
    | with_reducible assumption

theorem canon_nextFill {die : Nat} {slot : Nat} {s : State} (h : Canon s) : Canon (nextFill die slot s) := by
  unfold nextFill
  repeat' first
    | (extract_lets -lift +onlyGivenNames s1; first | (refine canon_cut (v := s1) ?_ ?_ <;> [(unfold s1; clear s1); (intro _; try clear_value s1)]) | (refine canon_cut (v := s1.2) ?_ ?_ <;> [(unfold s1; clear s1); (intro _; try clear_value s1)]) | try clear_value s1)
    | with_reducible apply canon_clearFill
    | with_reducible apply canon_setFld
    | with_reducible apply canon_placeFill
    | with_reducible apply canon_wr
    | split
    | with_reducible exact canon_mk (by assumption)
    | with_reducible assumption

theorem canon_fillRequest {kind : Nat} {die : Nat} {cell : Nat} {a : Nat} {col : Nat} {f : Fill} {s : State} (h : Canon s) : Canon (fillRequest kind die cell a col f s) := by
  unfold fillRequest
  repeat' first
    | (extract_lets -lift +onlyGivenNames s1; first | (refine canon_cut (v := s1) ?_ ?_ <;> [(unfold s1; clear s1); (intro _; try clear_value s1)]) | (refine canon_cut (v := s1.2) ?_ ?_ <;> [(unfold s1; clear s1); (intro _; try clear_value s1)]) | try clear_value s1)
    | with_reducible apply canon_placeFill
    | with_reducible apply canon_sticky
    | with_reducible apply canon_jobFault
    | with_reducible apply canon_record
    | with_reducible apply canon_wr
    | split
    | with_reducible exact canon_mk (by assumption)
    | with_reducible assumption

theorem canon_absorbSlot {die cell slot : Nat} {t : SMap (List Byte) × State} (h : Canon t.2) : Canon (absorbSlot die cell slot t).2 := by
  unfold absorbSlot
  dsimp only
  split
  · exact canon_nextFill h
  · exact h

theorem canon_absorbFills {die cell : Nat} {given : SMap (List Byte)} {s : State} (h : Canon s) :
    Canon (absorbFills die cell given s).2 := by
  unfold absorbFills
  extract_lets lost held given1 s1
  exact canon_absorbSlot (canon_absorbSlot (canon_ite (canon_mk (canon_wr h)) h))

theorem canon_brazeWith {die : Nat} {cell : Nat} {given : SMap (List Byte)} {s : State} (h : Canon s) : Canon (brazeWith die cell given s) := by
  unfold brazeWith
  repeat' first
    | (extract_lets -lift +onlyGivenNames s1; first | (refine canon_cut (v := s1) ?_ ?_ <;> [(unfold s1; clear s1); (intro _; try clear_value s1)]) | (refine canon_cut (v := s1.2) ?_ ?_ <;> [(unfold s1; clear s1); (intro _; try clear_value s1)]) | try clear_value s1)
    | with_reducible apply canon_capacityLoss
    | with_reducible apply canon_retire
    | with_reducible apply canon_absorbFills
    | with_reducible apply canon_fillRequest
    | split
    | with_reducible exact canon_mk (by assumption)
    | with_reducible assumption

theorem canon_brazeCell {die : Nat} {cell : Nat} {s : State} (h : Canon s) : Canon (brazeCell die cell s) := by
  unfold brazeCell
  repeat' first
    | with_reducible apply canon_brazeWith
    | with_reducible assumption

theorem canon_brazeColumn {die : Nat} {cell : Nat} {a : Nat} {col : Nat} {latched : List Byte} {s : State} (h : Canon s) : Canon (brazeColumn die cell a col latched s) := by
  unfold brazeColumn
  repeat' first
    | (extract_lets -lift +onlyGivenNames s1; first | (refine canon_cut (v := s1) ?_ ?_ <;> [(unfold s1; clear s1); (intro _; try clear_value s1)]) | (refine canon_cut (v := s1.2) ?_ ?_ <;> [(unfold s1; clear s1); (intro _; try clear_value s1)]) | try clear_value s1)
    | (with_reducible apply canon_onCell); intro x hx; first | exact hx.same
    | with_reducible apply canon_capacityLoss
    | with_reducible apply canon_retire
    | with_reducible apply canon_brazeWith
    | with_reducible apply canon_fillRequest
    | split
    | with_reducible exact canon_mk (by assumption)
    | with_reducible assumption

theorem canon_brazeCore {die : Nat} {core : Nat} {s : State} (h : Canon s) : Canon (brazeCore die core s) := by
  unfold brazeCore
  repeat' first
    | (extract_lets -lift +onlyGivenNames s1; first | (refine canon_cut (v := s1) ?_ ?_ <;> [(unfold s1; clear s1); (intro _; try clear_value s1)]) | (refine canon_cut (v := s1.2) ?_ ?_ <;> [(unfold s1; clear s1); (intro _; try clear_value s1)]) | try clear_value s1)
    | (with_reducible apply canon_each); intros
    | with_reducible apply canon_retire
    | with_reducible apply canon_capacityLoss
    | with_reducible apply canon_mapsChanged
    | with_reducible apply canon_sticky
    | with_reducible apply canon_record
    | split
    | with_reducible exact canon_mk (by assumption)
    | with_reducible assumption

theorem canon_holdTrims {c : Nat} {a : Nat} {s : State} (h : Canon s) : Canon (holdTrims c a s) := by
  unfold holdTrims
  repeat' first
    | (extract_lets -lift +onlyGivenNames s1; first | (refine canon_cut (v := s1) ?_ ?_ <;> [(unfold s1; clear s1); (intro _; try clear_value s1)]) | (refine canon_cut (v := s1.2) ?_ ?_ <;> [(unfold s1; clear s1); (intro _; try clear_value s1)]) | try clear_value s1)
    | with_reducible apply canon_setArr
    | with_reducible exact canon_mk (by assumption)
    | with_reducible assumption

theorem canon_takeColumn {c : Nat} {a : Nat} {col : Nat} {p : Nat} {s : State} (h : Canon s) : Canon (takeColumn c a col p s) := by
  unfold takeColumn
  repeat' first
    | (extract_lets -lift +onlyGivenNames s1; first | (refine canon_cut (v := s1) ?_ ?_ <;> [(unfold s1; clear s1); (intro _; try clear_value s1)]) | (refine canon_cut (v := s1.2) ?_ ?_ <;> [(unfold s1; clear s1); (intro _; try clear_value s1)]) | try clear_value s1)
    | with_reducible apply canon_setColMap
    | with_reducible apply canon_holdTrims
    | with_reducible apply canon_sticky
    | split
    | with_reducible assumption

theorem canon_replaceColumn {c : Nat} {a : Nat} {col : Nat} {old : Nat} {p : Nat} {s : State} (h : Canon s) : Canon (replaceColumn c a col old p s) := by
  unfold replaceColumn
  repeat' first
    | with_reducible apply canon_wear
    | with_reducible apply canon_takeColumn
    | with_reducible apply canon_markColBad
    | with_reducible assumption

theorem canon_applyFill {die : Nat} {slot : Nat} {s : State} (h : Canon s) : Canon (applyFill die slot s) := by
  unfold applyFill
  repeat' first
    | (extract_lets -lift +onlyGivenNames s1; first | (refine canon_cut (v := s1) ?_ ?_ <;> [(unfold s1; clear s1); (intro _; try clear_value s1)]) | (refine canon_cut (v := s1.2) ?_ ?_ <;> [(unfold s1; clear s1); (intro _; try clear_value s1)]) | try clear_value s1)
    | with_reducible apply canon_nextFill
    | with_reducible apply canon_capacityLoss
    | with_reducible apply canon_retire
    | with_reducible apply canon_replaceColumn
    | with_reducible apply canon_setArr
    | (with_reducible apply canon_onCell); intro x hx; first | with_reducible exact (cellCanon_mirrored (cellCanon_at (by assumption) _) hx) | with_reducible exact (cellCanon_renewArrs hx) | exact hx.same
    | with_reducible apply canon_wear
    | with_reducible apply canon_setCellMap
    | split
    | with_reducible exact canon_mk (by assumption)
    | with_reducible assumption

theorem canon_fillVerdict {die : Nat} {slot : Nat} {ok : Bool} {s : State} (h : Canon s) : Canon (fillVerdict die slot ok s) := by
  unfold fillVerdict
  repeat' first
    | (extract_lets -lift +onlyGivenNames s1; first | (refine canon_cut (v := s1) ?_ ?_ <;> [(unfold s1; clear s1); (intro _; try clear_value s1)]) | (refine canon_cut (v := s1.2) ?_ ?_ <;> [(unfold s1; clear s1); (intro _; try clear_value s1)]) | try clear_value s1)
    | with_reducible apply canon_setFld
    | with_reducible apply canon_sticky
    | with_reducible apply canon_markColBad
    | with_reducible apply canon_record
    | with_reducible apply canon_brazeColumn
    | with_reducible apply canon_nextFill
    | with_reducible apply canon_setFill
    | split
    | with_reducible exact canon_mk (by assumption)
    | with_reducible assumption

theorem canon_applyPassed {s : State} (h : Canon s) : Canon (applyPassed s) := by
  unfold applyPassed
  repeat' first
    | (with_reducible apply canon_each); intros
    | with_reducible apply canon_applyFill
    | split
    | with_reducible assumption

theorem canon_noteCheck {unit : Nat} {place : Nat} {vals : List CheckVal} {s : State} (h : Canon s) : Canon (noteCheck unit place vals s) := by
  unfold noteCheck
  repeat' first
    | split
    | with_reducible exact canon_mk (by assumption)
    | with_reducible assumption

theorem canon_setPort {p : Nat} {x : Port} {s : State} (h : Canon s) : Canon (setPort p x s) := by
  unfold setPort
  repeat' first
    | with_reducible exact canon_mk (by assumption)
    | with_reducible assumption

theorem canon_setPortState {p : Nat} {v : Nat} {s : State} (h : Canon s) : Canon (setPortState p v s) := by
  unfold setPortState
  repeat' first
    | with_reducible apply canon_setFld
    | with_reducible assumption

theorem canon_ctrlAll {ports : List Nat} {type : Nat} {args : List Nat} {s : State} (h : Canon s) : Canon (ctrlAll ports type args s) := by
  unfold ctrlAll
  repeat' first
    | (with_reducible apply canon_each); intros
    | with_reducible apply canon_emit
    | with_reducible assumption

theorem canon_slotFlits {l : Nat} {ring : Nat} {data : List (Option (List Byte))} {s : State} (h : Canon s) : Canon (slotFlits l ring data s) := by
  unfold slotFlits
  repeat' first
    | with_reducible exact canon_mk (by assumption)
    | with_reducible assumption

theorem canon_sendSlots {s : State} (h : Canon s) : Canon (sendSlots s) := by
  unfold sendSlots
  repeat' first
    | (extract_lets -lift +onlyGivenNames s1; first | (refine canon_cut (v := s1) ?_ ?_ <;> [(unfold s1; clear s1); (intro _; try clear_value s1)]) | (refine canon_cut (v := s1.2) ?_ ?_ <;> [(unfold s1; clear s1); (intro _; try clear_value s1)]) | try clear_value s1)
    | (with_reducible apply canon_each); intros
    | with_reducible apply canon_emit
    | split
    | with_reducible exact canon_mk (by assumption)
    | with_reducible assumption

theorem canon_setAcc {c : Nat} {t : Nat} {j : Nat} {v : F16} {s : State} (h : Canon s) : Canon (setAcc c t j v s) := by
  unfold setAcc
  repeat' first
    | (with_reducible apply canon_onCell); intro x hx; first | exact { hx with acc := wf_put hx.acc } | exact hx.same
    | with_reducible exact canon_mk (by assumption)
    | with_reducible assumption

theorem canon_setSide {c : Nat} {t : Nat} {j : Nat} {v : Nat} {s : State} (h : Canon s) : Canon (setSide c t j v s) := by
  unfold setSide
  repeat' first
    | (with_reducible apply canon_onCell); intro x hx; first | exact { hx with side := wf_put hx.side } | exact hx.same
    | with_reducible exact canon_mk (by assumption)
    | with_reducible assumption

theorem canon_setTile {c : Nat} {t : Nat} {x : Tile} {s : State} (h : Canon s) : Canon (setTile c t x s) := by
  unfold setTile
  repeat' first
    | (with_reducible apply canon_onCell); intro x hx; first | exact { hx with tiles := wf_put hx.tiles } | exact hx.same
    | with_reducible exact canon_mk (by assumption)
    | with_reducible assumption

theorem canon_arrOvf {c : Nat} {k : Nat} {n : Nat} {s : State} (h : Canon s) : Canon (arrOvf c k n s) := by
  unfold arrOvf
  repeat' first
    | (extract_lets -lift +onlyGivenNames s1; first | (refine canon_cut (v := s1) ?_ ?_ <;> [(unfold s1; clear s1); (intro _; try clear_value s1)]) | (refine canon_cut (v := s1.2) ?_ ?_ <;> [(unfold s1; clear s1); (intro _; try clear_value s1)]) | try clear_value s1)
    | with_reducible apply canon_sticky
    | with_reducible apply canon_bumpFld
    | split
    | with_reducible exact canon_mk (by assumption)
    | with_reducible assumption

theorem canon_eccRead {c : Nat} {kind : Nat} {index : Nat} {s : State} (h : Canon s) : Canon (eccRead c kind index s) := by
  unfold eccRead
  repeat' first
    | (extract_lets -lift +onlyGivenNames s1; first | (refine canon_cut (v := s1) ?_ ?_ <;> [(unfold s1; clear s1); (intro _; try clear_value s1)]) | (refine canon_cut (v := s1.2) ?_ ?_ <;> [(unfold s1; clear s1); (intro _; try clear_value s1)]) | try clear_value s1)
    | with_reducible apply canon_bumpFld
    | with_reducible apply canon_noteCorrected
    | with_reducible apply canon_taintCell
    | with_reducible apply canon_sticky
    | split
    | with_reducible assumption

theorem canon_eccWrite {c : Nat} {kind : Nat} {index : Nat} {s : State} (h : Canon s) : Canon (eccWrite c kind index s) := by
  unfold eccWrite
  repeat' first
    | (with_reducible apply canon_onCell); intro x hx; first | exact { hx with ecc := wf_put hx.ecc } | exact hx.same
    | split
    | with_reducible exact canon_mk (by assumption)
    | with_reducible assumption

theorem canon_accAdd {c : Nat} {t : Nat} {j : Nat} {vals : List F16} {s : State} (h : Canon s) : Canon (accAdd c t j vals s) := by
  unfold accAdd
  repeat' first
    | (extract_lets -lift +onlyGivenNames s1; first | (refine canon_cut (v := s1) ?_ ?_ <;> [(unfold s1; clear s1); (intro _; try clear_value s1)]) | (refine canon_cut (v := s1.2) ?_ ?_ <;> [(unfold s1; clear s1); (intro _; try clear_value s1)]) | try clear_value s1)
    | with_reducible apply canon_eccRead
    | with_reducible apply canon_sticky
    | with_reducible apply canon_arrOvf
    | with_reducible apply canon_noteCheck
    | with_reducible apply canon_eccWrite
    | with_reducible apply canon_bump
    | with_reducible apply canon_setSide
    | with_reducible apply canon_setAcc
    | with_reducible apply canon_wr
    | split
    | with_reducible assumption

theorem canon_clearSlots {c : Nat} {t : Nat} {lo : Nat} {hi : Nat} {s : State} (h : Canon s) : Canon (clearSlots c t lo hi s) := by
  unfold clearSlots
  repeat' first
    | (extract_lets -lift +onlyGivenNames s1; first | (refine canon_cut (v := s1) ?_ ?_ <;> [(unfold s1; clear s1); (intro _; try clear_value s1)]) | (refine canon_cut (v := s1.2) ?_ ?_ <;> [(unfold s1; clear s1); (intro _; try clear_value s1)]) | try clear_value s1)
    | (with_reducible apply canon_onCell); intro x hx; first | exact { hx with acc := (by dsimp only; exact wf_forget hx.acc), side := (by dsimp only; exact wf_forget hx.side), ecc := (by dsimp only; exact wf_forget hx.ecc) } | exact hx.same
    | with_reducible exact canon_mk (by assumption)
    | with_reducible assumption

theorem canon_clearTile {c : Nat} {t : Nat} {s : State} (h : Canon s) : Canon (clearTile c t s) := canon_clearSlots h

theorem canon_drainRead {c : Nat} {t : Nat} {addr : Nat} {land : Nat} {clear : Bool} {hk : Bool} {q : Nat} {s : State} (h : Canon s) : Canon (drainRead c t addr land clear hk q s) := by
  unfold drainRead
  repeat' first
    | (extract_lets -lift +onlyGivenNames s1; first | (refine canon_cut (v := s1) ?_ ?_ <;> [(unfold s1; clear s1); (intro _; try clear_value s1)]) | (refine canon_cut (v := s1.2) ?_ ?_ <;> [(unfold s1; clear s1); (intro _; try clear_value s1)]) | try clear_value s1)
    | (with_reducible apply canon_each); intros
    | with_reducible apply canon_eccRead
    | with_reducible apply canon_sticky
    | with_reducible apply canon_arrOvf
    | with_reducible apply canon_launch
    | with_reducible apply canon_clearSlots
    | split
    | with_reducible assumption

theorem canon_spTaintLine {c : Nat} {addr : Nat} {s : State} (h : Canon s) : Canon (spTaintLine c addr s) := by
  unfold spTaintLine
  repeat' first
    | (with_reducible apply canon_onCell); intro x hx; first | exact { hx with spBad := wf_foldPut hx.spBad } | exact hx.same
    | with_reducible exact canon_mk (by assumption)
    | with_reducible assumption

theorem canon_spRead {unit : Nat} {c : Nat} {addr : Nat} {n : Nat} {s : State} (h : Canon s) : Canon (spRead unit c addr n s) := by
  unfold spRead
  repeat' first
    | (extract_lets -lift +onlyGivenNames s1; first | (refine canon_cut (v := s1) ?_ ?_ <;> [(unfold s1; clear s1); (intro _; try clear_value s1)]) | (refine canon_cut (v := s1.2) ?_ ?_ <;> [(unfold s1; clear s1); (intro _; try clear_value s1)]) | try clear_value s1)
    | with_reducible apply canon_noteCorrected
    | with_reducible apply canon_taintCell
    | split
    | with_reducible assumption

theorem canon_portSent {port : Nat} {s : State} (h : Canon s) : Canon (portSent port s) := by
  unfold portSent
  repeat' first
    | split
    | with_reducible exact canon_mk (by assumption)
    | with_reducible assumption

theorem canon_setBuf {c : Nat} {i : Nat} {x : AnvBuf} {s : State} (h : Canon s) : Canon (setBuf c i x s) := by
  unfold setBuf
  repeat' first
    | (with_reducible apply canon_onCell); intro x hx; first | exact { hx with bufs := wf_put hx.bufs } | exact hx.same
    | with_reducible exact canon_mk (by assumption)
    | with_reducible assumption

theorem canon_setChain {c : Nat} {i : Nat} {x : Chain} {s : State} (h : Canon s) : Canon (setChain c i x s) := by
  unfold setChain
  repeat' first
    | (with_reducible apply canon_onCell); intro x hx; first | exact { hx with chains := wf_put hx.chains } | exact hx.same
    | with_reducible exact canon_mk (by assumption)
    | with_reducible assumption

theorem canon_anvRead {c : Nat} {lo : Nat} {n : Nat} {s : State} (h : Canon s) : Canon (anvRead c lo n s) := by
  unfold anvRead
  repeat' first
    | (with_reducible apply canon_each); intros
    | with_reducible apply canon_eccRead
    | with_reducible assumption

theorem canon_anvDrained {c : Nat} {i : Nat} {addr : Nat} {pitch : Nat} {kept : Bool} {evalSeg : Bool} {hk : Bool} {issued : Nat} {s : State} (h : Canon s) : Canon (anvDrained c i addr pitch kept evalSeg hk issued s) := by
  unfold anvDrained
  repeat' first
    | (extract_lets -lift +onlyGivenNames s1; first | (refine canon_cut (v := s1) ?_ ?_ <;> [(unfold s1; clear s1); (intro _; try clear_value s1)]) | (refine canon_cut (v := s1.2) ?_ ?_ <;> [(unfold s1; clear s1); (intro _; try clear_value s1)]) | try clear_value s1)
    | with_reducible apply canon_anvRead
    | (with_reducible apply canon_each); intros
    | with_reducible apply canon_spPut
    | with_reducible apply canon_noteCheck
    | with_reducible apply canon_setChain
    | with_reducible apply canon_bump
    | with_reducible apply canon_sticky
    | with_reducible apply canon_noteConvs
    | split
    | with_reducible exact canon_mk (by assumption)
    | with_reducible assumption

theorem canon_recvAddFlit {c : Nat} {addr : Nat} {fmt : Nat} {b : Nat} {dst : Nat} {issued : Nat} {evalSeg : Bool} {hk : Bool} {data : List Byte} {s : State} (h : Canon s) : Canon (recvAddFlit c addr fmt b dst issued evalSeg hk data s) := by
  unfold recvAddFlit
  repeat' first
    | (extract_lets -lift +onlyGivenNames s1; first | (refine canon_cut (v := s1) ?_ ?_ <;> [(unfold s1; clear s1); (intro _; try clear_value s1)]) | (refine canon_cut (v := s1.2) ?_ ?_ <;> [(unfold s1; clear s1); (intro _; try clear_value s1)]) | try clear_value s1)
    | with_reducible apply canon_spRead
    | with_reducible apply canon_spPut
    | with_reducible apply canon_noteCheck
    | with_reducible apply canon_sticky
    | with_reducible apply canon_noteConvs
    | split
    | with_reducible assumption

theorem canon_beatEcc {j : BurJob} {b : Beat} {s : State} (h : Canon s) : Canon (beatEcc j b s) := by
  unfold beatEcc
  repeat' first
    | (with_reducible apply canon_each); intros
    | with_reducible apply canon_spRead
    | split
    | with_reducible assumption

theorem canon_burUnit {j : BurJob} {k : Nat} {s : State} (h : Canon s) : Canon (burUnit j k s) := by
  unfold burUnit
  repeat' first
    | (extract_lets -lift +onlyGivenNames s1; first | (refine canon_cut (v := s1) ?_ ?_ <;> [(unfold s1; clear s1); (intro _; try clear_value s1)]) | (refine canon_cut (v := s1.2) ?_ ?_ <;> [(unfold s1; clear s1); (intro _; try clear_value s1)]) | try clear_value s1)
    | with_reducible apply canon_beatEcc
    | (with_reducible apply canon_each); intros
    | with_reducible apply canon_eccRead
    | with_reducible apply canon_launch
    | split
    | with_reducible apply canon_burWrite
    | with_reducible assumption

theorem canon_burExc {c : Nat} {cls : Nat} {e : Nat × Nat × Nat} {s : State} (h : Canon s) : Canon (burExc c cls e s) := by
  unfold burExc
  repeat' first
    | (extract_lets -lift +onlyGivenNames s1; first | (refine canon_cut (v := s1) ?_ ?_ <;> [(unfold s1; clear s1); (intro _; try clear_value s1)]) | (refine canon_cut (v := s1.2) ?_ ?_ <;> [(unfold s1; clear s1); (intro _; try clear_value s1)]) | try clear_value s1)
    | with_reducible apply canon_wr
    | with_reducible apply canon_sticky
    | split
    | with_reducible assumption

theorem canon_spMerge {c : Nat} {a : Nat} {m : Byte} {d : Byte} {s : State} (h : Canon s) : Canon (spMerge c a m d s) := by
  unfold spMerge
  repeat' first
    | with_reducible apply canon_spPut
    | with_reducible assumption

theorem canon_burWrite {o : BurOut} {s : State} (h : Canon s) : Canon (burWrite o s) := by
  unfold burWrite
  repeat' first
    | (extract_lets -lift +onlyGivenNames s1; first | (refine canon_cut (v := s1) ?_ ?_ <;> [(unfold s1; clear s1); (intro _; try clear_value s1)]) | (refine canon_cut (v := s1.2) ?_ ?_ <;> [(unfold s1; clear s1); (intro _; try clear_value s1)]) | try clear_value s1)
    | (with_reducible apply canon_each); intros
    | with_reducible apply canon_spMerge
    | with_reducible apply canon_eccWrite
    | (with_reducible apply canon_onCell); intro x hx; first | exact { hx with tables := wf_put hx.tables } | exact hx.same
    | with_reducible apply canon_noteConvs
    | with_reducible apply canon_sticky
    | with_reducible apply canon_bumpFld
    | with_reducible apply canon_burExc
    | with_reducible apply canon_noteCheck
    | with_reducible apply canon_jobFaultRec
    | split
    | with_reducible exact canon_mk (by assumption)
    | with_reducible assumption

theorem canon_beatRead {c : Nat} {addr : Nat} {fmt : Nat} {b : Nat} {s : State} (h : Canon s) : Canon (beatRead c addr fmt b s) := by
  unfold beatRead
  repeat' first
    | (extract_lets -lift +onlyGivenNames s1; first | (refine canon_cut (v := s1) ?_ ?_ <;> [(unfold s1; clear s1); (intro _; try clear_value s1)]) | (refine canon_cut (v := s1.2) ?_ ?_ <;> [(unfold s1; clear s1); (intro _; try clear_value s1)]) | try clear_value s1)
    | with_reducible apply canon_spRead
    | with_reducible assumption

theorem canon_updateEnd {j : UpdJob} {st : List Lane × List Lane × Lane} {q : F16 × Lane × Bool} {s : State} (h : Canon s) : Canon (updateEnd j st q s) := by
  unfold updateEnd
  repeat' first
    | (extract_lets -lift +onlyGivenNames s1; first | (refine canon_cut (v := s1) ?_ ?_ <;> [(unfold s1; clear s1); (intro _; try clear_value s1)]) | (refine canon_cut (v := s1.2) ?_ ?_ <;> [(unfold s1; clear s1); (intro _; try clear_value s1)]) | try clear_value s1)
    | with_reducible apply canon_launch
    | split
    | with_reducible assumption

theorem canon_updateNext {k : Nat} {j : UpdJob} {s : State} (h : Canon s) : Canon (updateNext k j s) := by
  unfold updateNext
  repeat' first
    | with_reducible apply canon_launch
    | with_reducible assumption

theorem canon_updateRun {j : UpdJob} {k : Nat} {s : State} (h : Canon s) : Canon (updateRun j k s) := by
  unfold updateRun
  repeat' first
    | (extract_lets -lift +onlyGivenNames s1; first | (refine canon_cut (v := s1) ?_ ?_ <;> [(unfold s1; clear s1); (intro _; try clear_value s1)]) | (refine canon_cut (v := s1.2) ?_ ?_ <;> [(unfold s1; clear s1); (intro _; try clear_value s1)]) | try clear_value s1)
    | with_reducible apply canon_beatRead
    | with_reducible apply canon_updateNext
    | with_reducible apply canon_spRead
    | with_reducible apply canon_launch
    | with_reducible apply canon_burWrite
    | with_reducible apply canon_updateEnd
    | split
    | with_reducible exact canon_mk (by assumption)
    | with_reducible assumption

theorem canon_setChan {conv : Nat} {ch : Nat} {x : Chan} {s : State} (h : Canon s) : Canon (setChan conv ch x s) := by
  unfold setChan
  repeat' first
    | with_reducible exact canon_mk (by assumption)
    | with_reducible assumption

theorem canon_useFree {n : Nat} {s : State} (h : Canon s) : Canon (useFree n s) := by
  unfold useFree
  repeat' first
    | with_reducible exact canon_mk (by assumption)
    | with_reducible assumption

theorem canon_wearColumn {c : Nat} {a : Nat} {s : State} (h : Canon s) : Canon (wearColumn c a s) := by
  unfold wearColumn
  repeat' first
    | (extract_lets -lift +onlyGivenNames s1; first | (refine canon_cut (v := s1) ?_ ?_ <;> [(unfold s1; clear s1); (intro _; try clear_value s1)]) | (refine canon_cut (v := s1.2) ?_ ?_ <;> [(unfold s1; clear s1); (intro _; try clear_value s1)]) | try clear_value s1)
    | with_reducible apply canon_bumpFld
    | with_reducible apply canon_mapsChanged
    | split
    | with_reducible assumption

theorem canon_programCol {c : Nat} {a : Nat} {p : Nat} {codes : List Byte} {exp : Nat} {s : State} (h : Canon s) : Canon (programCol c a p codes exp s) := by
  unfold programCol
  repeat' first
    | (extract_lets -lift +onlyGivenNames s1; first | (refine canon_cut (v := s1) ?_ ?_ <;> [(unfold s1; clear s1); (intro _; try clear_value s1)]) | (refine canon_cut (v := s1.2) ?_ ?_ <;> [(unfold s1; clear s1); (intro _; try clear_value s1)]) | try clear_value s1)
    | (with_reducible apply canon_onCell); intro x hx; first | with_reducible exact (cellCanon_blockPut hx) | exact hx.same
    | with_reducible apply canon_useFree
    | with_reducible apply canon_wearColumn
    | with_reducible assumption

theorem canon_setTrim {c : Nat} {a : Nat} {p : Nat} {v : Trim} {s : State} (h : Canon s) : Canon (setTrim c a p v s) := by
  unfold setTrim
  repeat' first
    | (with_reducible apply canon_onCell); intro x hx; first | exact { hx with trims := wf_put hx.trims } | exact hx.same
    | with_reducible exact canon_mk (by assumption)
    | with_reducible assumption

theorem canon_advanceRamp {c : Nat} {a : Nat} {s : State} (h : Canon s) : Canon (advanceRamp c a s) := by
  unfold advanceRamp
  repeat' first
    | (extract_lets -lift +onlyGivenNames s1; first | (refine canon_cut (v := s1) ?_ ?_ <;> [(unfold s1; clear s1); (intro _; try clear_value s1)]) | (refine canon_cut (v := s1.2) ?_ ?_ <;> [(unfold s1; clear s1); (intro _; try clear_value s1)]) | try clear_value s1)
    | (with_reducible apply canon_each); intros
    | with_reducible apply canon_setTrim
    | with_reducible apply canon_setArr
    | split
    | with_reducible exact canon_mk (by assumption)
    | with_reducible assumption

theorem canon_calLast {die : Nat} {cell : Nat} {a : Nat} {col : Nat} {kind : Nat} {s : State} (h : Canon s) : Canon (calLast die cell a col kind s) := by
  unfold calLast
  repeat' first
    | with_reducible apply canon_wr
    | with_reducible assumption

theorem canon_keepTrims {c : Nat} {a : Nat} {s : State} (h : Canon s) : Canon (keepTrims c a s) := by
  unfold keepTrims
  repeat' first
    | (extract_lets -lift +onlyGivenNames s1; first | (refine canon_cut (v := s1) ?_ ?_ <;> [(unfold s1; clear s1); (intro _; try clear_value s1)]) | (refine canon_cut (v := s1.2) ?_ ?_ <;> [(unfold s1; clear s1); (intro _; try clear_value s1)]) | try clear_value s1)
    | with_reducible apply canon_setArr
    | with_reducible exact canon_mk (by assumption)
    | with_reducible assumption

theorem canon_columnFail {bit : Nat} {kind : Nat} {die : Nat} {cell : Nat} {a : Nat} {col : Nat} {latched : List Byte} {s : State} (h : Canon s) : Canon (columnFail bit kind die cell a col latched s) := by
  unfold columnFail
  repeat' first
    | (extract_lets -lift +onlyGivenNames s1; first | (refine canon_cut (v := s1) ?_ ?_ <;> [(unfold s1; clear s1); (intro _; try clear_value s1)]) | (refine canon_cut (v := s1.2) ?_ ?_ <;> [(unfold s1; clear s1); (intro _; try clear_value s1)]) | try clear_value s1)
    | with_reducible apply canon_sticky
    | with_reducible apply canon_wr
    | with_reducible apply canon_recordOf
    | with_reducible apply canon_brazeColumn
    | with_reducible assumption

theorem canon_applyHandoff {die : Nat} {cell : Nat} {a : Nat} {passed : Bool} {s : State} (h : Canon s) : Canon (applyHandoff die cell a passed s) := by
  unfold applyHandoff
  repeat' first
    | (extract_lets -lift +onlyGivenNames s1; first | (refine canon_cut (v := s1) ?_ ?_ <;> [(unfold s1; clear s1); (intro _; try clear_value s1)]) | (refine canon_cut (v := s1.2) ?_ ?_ <;> [(unfold s1; clear s1); (intro _; try clear_value s1)]) | try clear_value s1)
    | with_reducible apply canon_setArr
    | with_reducible apply canon_mapsChanged
    | with_reducible apply canon_sticky
    | with_reducible apply canon_calLast
    | with_reducible apply canon_record
    | with_reducible apply canon_brazeCell
    | split
    | with_reducible exact canon_mk (by assumption)
    | with_reducible assumption

theorem canon_bringTrims {c a : Nat} {s : State} (h : Canon s) : Canon (bringTrims c a s) := by
  unfold bringTrims
  split
  · exact h
  · have h1 := canon_keepTrims (c := c) (a := a) h
    extract_lets s1 x ramped cols new start ramp s2 s3
    have h2 : Canon s2 := canon_each (fun _ _ => canon_setTrim) h1
    have h3 : Canon s3 := canon_setArr h2
    exact canon_bump (canon_ite (canon_sticky h3) h3)

theorem canon_landVerdict {die : Nat} {cell : Nat} {a : Nat} {swept : Bool} {fails : List (Nat × Nat)} {latched : List Byte} {s : State} (h : Canon s) : Canon (landVerdict die cell a swept fails latched s) := by
  unfold landVerdict
  repeat' first
    | (with_reducible apply canon_each); intros
    | with_reducible apply canon_columnFail
    | split
    | with_reducible assumption

theorem canon_fetchLands {key : Nat} {k : Nat} {a : Nat} {n : Nat} {start : Nat} {ue : Bool} {s : State} (h : Canon s) : Canon (fetchLands key k a n start ue s) := by
  unfold fetchLands
  repeat' first
    | (extract_lets -lift +onlyGivenNames s1; first | (refine canon_cut (v := s1) ?_ ?_ <;> [(unfold s1; clear s1); (intro _; try clear_value s1)]) | (refine canon_cut (v := s1.2) ?_ ?_ <;> [(unfold s1; clear s1); (intro _; try clear_value s1)]) | try clear_value s1)
    | with_reducible apply canon_recordRead
    | with_reducible apply canon_dramRead
    | split
    | with_reducible exact canon_mk (by assumption)
    | with_reducible assumption

theorem canon_regWriteLands {k : Nat} {mask : Nat} {v : Nat} {s : State} (h : Canon s) : Canon (regWriteLands k mask v s) := by
  unfold regWriteLands
  repeat' first
    | (extract_lets -lift +onlyGivenNames s1; first | (refine canon_cut (v := s1) ?_ ?_ <;> [(unfold s1; clear s1); (intro _; try clear_value s1)]) | (refine canon_cut (v := s1.2) ?_ ?_ <;> [(unfold s1; clear s1); (intro _; try clear_value s1)]) | try clear_value s1)
    | with_reducible apply canon_wr
    | with_reducible apply canon_localLevel
    | split
    | with_reducible assumption

theorem canon_forgeByte {commit : Bool} {s : State} (h : Canon s) : Canon (forgeByte commit s) := by
  unfold forgeByte
  repeat' first
    | (extract_lets -lift +onlyGivenNames s1; first | (refine canon_cut (v := s1) ?_ ?_ <;> [(unfold s1; clear s1); (intro _; try clear_value s1)]) | (refine canon_cut (v := s1.2) ?_ ?_ <;> [(unfold s1; clear s1); (intro _; try clear_value s1)]) | try clear_value s1)
    | with_reducible apply canon_commit
    | split
    | with_reducible exact canon_mk (by assumption)
    | with_reducible assumption

theorem canon_spArrive {unit : Nat} {c : Nat} {addr : Nat} {data : List Byte} {marks : List (Nat × Nat)} {s : State} (h : Canon s) : Canon (spArrive unit c addr data marks s) := by
  unfold spArrive
  repeat' first
    | (extract_lets -lift +onlyGivenNames s1; first | (refine canon_cut (v := s1) ?_ ?_ <;> [(unfold s1; clear s1); (intro _; try clear_value s1)]) | (refine canon_cut (v := s1.2) ?_ ?_ <;> [(unfold s1; clear s1); (intro _; try clear_value s1)]) | try clear_value s1)
    | with_reducible apply canon_spPut
    | with_reducible apply canon_noteCorrected
    | with_reducible apply canon_taintCell
    | (with_reducible apply canon_onCell); intro x hx; first | exact { hx with spBad := wf_foldPut hx.spBad } | exact hx.same
    | split
    | with_reducible exact canon_mk (by assumption)
    | with_reducible assumption

theorem canon_rxRead {port : Nat} {c : Option Nat} {m : Nat} {s : State} (h : Canon s) : Canon (rxRead port c m s) := by
  unfold rxRead
  repeat' first
    | (extract_lets -lift +onlyGivenNames s1; first | (refine canon_cut (v := s1) ?_ ?_ <;> [(unfold s1; clear s1); (intro _; try clear_value s1)]) | (refine canon_cut (v := s1.2) ?_ ?_ <;> [(unfold s1; clear s1); (intro _; try clear_value s1)]) | try clear_value s1)
    | with_reducible apply canon_noteCorrected
    | with_reducible apply canon_taintCell
    | with_reducible apply canon_taint
    | split
    | with_reducible assumption

theorem canon_noticeFlag {l : Nat} {poison : Bool} {fault : Bool} {s : State} (h : Canon s) : Canon (noticeFlag l poison fault s) := by
  unfold noticeFlag
  repeat' first
    | (extract_lets -lift +onlyGivenNames s1; first | (refine canon_cut (v := s1) ?_ ?_ <;> [(unfold s1; clear s1); (intro _; try clear_value s1)]) | (refine canon_cut (v := s1.2) ?_ ?_ <;> [(unfold s1; clear s1); (intro _; try clear_value s1)]) | try clear_value s1)
    | with_reducible apply canon_taint
    | with_reducible apply canon_sticky
    | with_reducible apply canon_jobFault
    | split
    | with_reducible assumption

theorem canon_landEffect {e : Effect} {s : State} (h : Canon s) : Canon (landEffect e s) := by
  unfold landEffect
  repeat' first
    | (extract_lets -lift +onlyGivenNames s1; first | (refine canon_cut (v := s1) ?_ ?_ <;> [(unfold s1; clear s1); (intro _; try clear_value s1)]) | (refine canon_cut (v := s1.2) ?_ ?_ <;> [(unfold s1; clear s1); (intro _; try clear_value s1)]) | try clear_value s1)
    | with_reducible apply canon_spPut
    | with_reducible apply canon_burUnit
    | with_reducible apply canon_burWrite
    | with_reducible apply canon_updateRun
    | with_reducible apply canon_dramLine
    | with_reducible apply canon_drainRead
    | with_reducible apply canon_noteCheck
    | with_reducible apply canon_launch
    | with_reducible apply canon_spArrive
    | with_reducible apply canon_rxRead
    | with_reducible apply canon_noticeFlag
    | with_reducible apply canon_recordRead
    | with_reducible apply canon_fetchLands
    | with_reducible apply canon_regWriteLands
    | with_reducible apply canon_setSreg
    | with_reducible apply canon_spRead
    | with_reducible apply canon_spTaintLine
    | with_reducible apply canon_viol
    | with_reducible apply canon_jobFault
    | with_reducible apply canon_fillVerdict
    | with_reducible apply canon_anvDrained
    | with_reducible apply canon_landVerdict
    | with_reducible apply canon_bringTrims
    | with_reducible apply canon_applyHandoff
    | with_reducible apply canon_portSent
    | with_reducible apply canon_slotFlits
    | with_reducible apply canon_recvAddFlit
    | with_reducible apply canon_forgeByte
    | split
    | with_reducible apply canon_moveLine
    | with_reducible assumption

theorem canon_launchOrLand {due : Nat} {e : Effect} {s : State} (h : Canon s) : Canon (launchOrLand due e s) := by
  unfold launchOrLand
  repeat' first
    | with_reducible apply canon_landEffect
    | with_reducible apply canon_launch
    | split
    | with_reducible assumption

theorem canon_landAll {s : State} (h : Canon s) : Canon (landAll s) := by
  unfold landAll
  repeat' first
    | (extract_lets -lift +onlyGivenNames s1; first | (refine canon_cut (v := s1) ?_ ?_ <;> [(unfold s1; clear s1); (intro _; try clear_value s1)]) | (refine canon_cut (v := s1.2) ?_ ?_ <;> [(unfold s1; clear s1); (intro _; try clear_value s1)]) | try clear_value s1)
    | (with_reducible apply canon_each); intros
    | with_reducible apply canon_landEffect
    | with_reducible apply canon_accAdd
    | with_reducible exact canon_mk (by assumption)
    | with_reducible assumption

theorem canon_resetRegs {s : State} (h : Canon s) : Canon (resetRegs s) := by
  unfold resetRegs
  repeat' first
    | with_reducible exact canon_regs (wf_forget (Canon.regs (by assumption))) (by assumption)
    | (extract_lets -lift +onlyGivenNames s1; first | (refine canon_cut (v := s1) ?_ ?_ <;> [(unfold s1; clear s1); (intro _; try clear_value s1)]) | (refine canon_cut (v := s1.2) ?_ ?_ <;> [(unfold s1; clear s1); (intro _; try clear_value s1)]) | try clear_value s1)
    | with_reducible apply canon_wr
    | with_reducible apply canon_sticky
    | split
    | with_reducible exact canon_mk (by assumption)
    | with_reducible assumption

theorem canon_loseDomains {s : State} (h : Canon s) : Canon (loseDomains s) := by
  unfold loseDomains
  repeat' first
    | (extract_lets -lift +onlyGivenNames s1; first | (refine canon_cut (v := s1) ?_ ?_ <;> [(unfold s1; clear s1); (intro _; try clear_value s1)]) | (refine canon_cut (v := s1.2) ?_ ?_ <;> [(unfold s1; clear s1); (intro _; try clear_value s1)]) | try clear_value s1)
    | (with_reducible apply canon_mapCells); intro x hx; first | with_reducible exact (cellCanon_unpowered hx) | exact hx.same
    | with_reducible apply canon_resetRegs
    | with_reducible exact canon_mk (by assumption)
    | with_reducible assumption

theorem canon_driveRail {r : Nat} {level : Bool} {s : State} (h : Canon s) : Canon (driveRail r level s) := by
  unfold driveRail
  repeat' first
    | with_reducible apply canon_emit
    | split
    | with_reducible exact canon_mk (by assumption)
    | with_reducible assumption

theorem canon_railsLow {rails : List Nat} {s : State} (h : Canon s) : Canon (railsLow rails s) := by
  unfold railsLow
  repeat' first
    | (extract_lets -lift +onlyGivenNames s1; first | (refine canon_cut (v := s1) ?_ ?_ <;> [(unfold s1; clear s1); (intro _; try clear_value s1)]) | (refine canon_cut (v := s1.2) ?_ ?_ <;> [(unfold s1; clear s1); (intro _; try clear_value s1)]) | try clear_value s1)
    | (with_reducible apply canon_each); intros
    | with_reducible apply canon_driveRail
    | with_reducible apply canon_setFld
    | split
    | with_reducible assumption

theorem canon_completeEntry {s : State} (h : Canon s) : Canon (completeEntry s) := by
  unfold completeEntry
  repeat' first
    | (extract_lets -lift +onlyGivenNames s1; first | (refine canon_cut (v := s1) ?_ ?_ <;> [(unfold s1; clear s1); (intro _; try clear_value s1)]) | (refine canon_cut (v := s1.2) ?_ ?_ <;> [(unfold s1; clear s1); (intro _; try clear_value s1)]) | try clear_value s1)
    | with_reducible apply canon_setFld
    | with_reducible apply canon_railsLow
    | with_reducible apply canon_loseDomains
    | split
    | with_reducible exact canon_mk (by assumption)
    | with_reducible assumption

theorem canon_hostPortsDown {s : State} (h : Canon s) : Canon (hostPortsDown s) := by
  unfold hostPortsDown
  repeat' first
    | (with_reducible apply canon_each); intros
    | with_reducible apply canon_setFld
    | with_reducible assumption

theorem canon_portDark {p : Nat} {v : Nat} {s : State} (h : Canon s) : Canon (portDark p v s) := by
  unfold portDark
  repeat' first
    | with_reducible apply canon_setPort
    | with_reducible apply canon_setFld
    | with_reducible apply canon_setPortState
    | with_reducible exact canon_mk (by assumption)
    | with_reducible assumption

theorem canon_darken {p : Nat} {s : State} (h : Canon s) : Canon (darken p s) := by
  unfold darken
  repeat' first
    | with_reducible exact canon_mk (by assumption)
    | with_reducible apply canon_portDark
    | with_reducible apply canon_emit
    | split
    | with_reducible assumption

theorem canon_writeFirmware {s : State} (h : Canon s) : Canon (writeFirmware s) := by
  unfold writeFirmware
  repeat' first
    | (extract_lets -lift +onlyGivenNames s1; first | (refine canon_cut (v := s1) ?_ ?_ <;> [(unfold s1; clear s1); (intro _; try clear_value s1)]) | (refine canon_cut (v := s1.2) ?_ ?_ <;> [(unfold s1; clear s1); (intro _; try clear_value s1)]) | try clear_value s1)
    | with_reducible apply canon_asyncWrite
    | with_reducible exact canon_mk (by assumption)
    | with_reducible assumption

theorem canon_writeImage {die : Nat} {s : State} (h : Canon s) : Canon (writeImage die s) := by
  unfold writeImage
  repeat' first
    | (extract_lets -lift +onlyGivenNames s1; first | (refine canon_cut (v := s1) ?_ ?_ <;> [(unfold s1; clear s1); (intro _; try clear_value s1)]) | (refine canon_cut (v := s1.2) ?_ ?_ <;> [(unfold s1; clear s1); (intro _; try clear_value s1)]) | try clear_value s1)
    | (with_reducible apply canon_each); intros
    | with_reducible apply canon_asyncWrite
    | with_reducible assumption

theorem canon_enterDeep {s : State} (h : Canon s) : Canon (enterDeep s) := by
  unfold enterDeep
  repeat' first
    | (extract_lets -lift +onlyGivenNames s1; first | (refine canon_cut (v := s1) ?_ ?_ <;> [(unfold s1; clear s1); (intro _; try clear_value s1)]) | (refine canon_cut (v := s1.2) ?_ ?_ <;> [(unfold s1; clear s1); (intro _; try clear_value s1)]) | try clear_value s1)
    | with_reducible apply canon_hostPortsDown
    | (with_reducible apply canon_each); intros
    | with_reducible apply canon_darken
    | (with_reducible apply canon_mapCells); intro x hx; first | exact hx.same
    | with_reducible apply canon_writeFirmware
    | with_reducible apply canon_writeImage
    | split
    | with_reducible exact canon_mk (by assumption)
    | with_reducible assumption

theorem canon_entryTick {s : State} (h : Canon s) : Canon (entryTick s) := by
  unfold entryTick
  repeat' first
    | (extract_lets -lift +onlyGivenNames s1; first | (refine canon_cut (v := s1) ?_ ?_ <;> [(unfold s1; clear s1); (intro _; try clear_value s1)]) | (refine canon_cut (v := s1.2) ?_ ?_ <;> [(unfold s1; clear s1); (intro _; try clear_value s1)]) | try clear_value s1)
    | with_reducible apply canon_enterDeep
    | with_reducible apply canon_completeEntry
    | split
    | with_reducible assumption

theorem canon_hourMark {s : State} (h : Canon s) : Canon (hourMark s) := by
  unfold hourMark
  repeat' first
    | (with_reducible apply canon_each); intros
    | with_reducible apply canon_wear
    | split
    | with_reducible assumption

theorem canon_aonCycle {s : State} (h : Canon s) : Canon (aonCycle s) := by
  unfold aonCycle
  repeat' first
    | (extract_lets -lift +onlyGivenNames s1; first | (refine canon_cut (v := s1) ?_ ?_ <;> [(unfold s1; clear s1); (intro _; try clear_value s1)]) | (refine canon_cut (v := s1.2) ?_ ?_ <;> [(unfold s1; clear s1); (intro _; try clear_value s1)]) | try clear_value s1)
    | with_reducible apply canon_entryTick
    | with_reducible apply canon_hourMark
    | split
    | with_reducible exact canon_mk (by assumption)
    | with_reducible assumption

theorem canon_refEdge {s : State} (h : Canon s) : Canon (refEdge s) := by
  unfold refEdge
  repeat' first
    | (extract_lets -lift +onlyGivenNames s1; first | (refine canon_cut (v := s1) ?_ ?_ <;> [(unfold s1; clear s1); (intro _; try clear_value s1)]) | (refine canon_cut (v := s1.2) ?_ ?_ <;> [(unfold s1; clear s1); (intro _; try clear_value s1)]) | try clear_value s1)
    | with_reducible apply canon_aonCycle
    | split
    | with_reducible exact canon_mk (by assumption)
    | with_reducible assumption

theorem canon_dropLoading {s : State} (h : Canon s) : Canon (dropLoading s) := by
  unfold dropLoading
  split
  · exact canon_mk h
  · exact h

theorem canon_actPending {s : State} (h : Canon s) : Canon (actPending s) := by
  unfold actPending
  repeat' first
    | (extract_lets -lift +onlyGivenNames s1; first | (refine canon_cut (v := s1) ?_ ?_ <;> [(unfold s1; clear s1); (intro _; try clear_value s1)]) | (refine canon_cut (v := s1.2) ?_ ?_ <;> [(unfold s1; clear s1); (intro _; try clear_value s1)]) | try clear_value s1)
    | with_reducible apply canon_setSchState
    | with_reducible apply canon_dropLoading
    | with_reducible apply canon_event
    | with_reducible apply canon_emit
    | split
    | with_reducible exact canon_mk (by assumption)
    | with_reducible assumption

theorem canon_poisonStart {s : State} (h : Canon s) : Canon (poisonStart s) := by
  unfold poisonStart
  repeat' first
    | with_reducible apply canon_bump
    | split
    | with_reducible exact canon_mk (by assumption)
    | with_reducible assumption

theorem canon_crystal {s : State} (h : Canon s) : Canon (crystal s) := by
  unfold crystal
  repeat' first
    | split
    | with_reducible exact canon_mk (by assumption)
    | with_reducible assumption

theorem canon_tickStep {s : State} (h : Canon s) : Canon (tickStep s) := by
  unfold tickStep
  repeat' first
    | (extract_lets -lift +onlyGivenNames s1; first | (refine canon_cut (v := s1) ?_ ?_ <;> [(unfold s1; clear s1); (intro _; try clear_value s1)]) | (refine canon_cut (v := s1.2) ?_ ?_ <;> [(unfold s1; clear s1); (intro _; try clear_value s1)]) | try clear_value s1)
    | with_reducible apply canon_crystal
    | with_reducible apply canon_bump
    | with_reducible apply canon_aonCycle
    | with_reducible apply canon_sendSlots
    | with_reducible apply canon_landAll
    | with_reducible apply canon_poisonStart
    | with_reducible apply canon_actPending
    | with_reducible apply canon_refEdge
    | split
    | with_reducible exact canon_mk (by assumption)
    | with_reducible assumption

theorem canon_cycleRun {n c : Nat} {s : State} (h : Canon s) : Canon (cycleRun n c s) := by
  induction n generalizing s with
  | zero => exact h
  | succ n ih => exact canon_ite (ih (canon_tickStep h)) h

theorem canon_arrive {s : State} (h : Canon s) : Canon (arrive s) := canon_ite h (canon_cycleRun h)

theorem canon_ticks {n : Nat} {s : State} (h : Canon s) : Canon (ticks n s) := by
  induction n generalizing s with
  | zero => exact h
  | succ n ih => exact ih (canon_tickStep h)

theorem canon_runTo {t : Nat} {s : State} (h : Canon s) : Canon (runTo t s) := canon_ticks h

end Sys2Proof.Machine
end

