-- ==== Sys2Proof/Laws/CanonUnits.lean ====
section
/-! SUPPORT. The canonical form of the memories under the slot words of the units, memory and fabric. -/
set_option Elab.async false
set_option linter.tactic.unusedName false
set_option linter.unreachableTactic false
set_option linter.unusedTactic false
namespace Sys2Proof.Machine

theorem cellCanon_anvilWindow {x : Cell} (h : CellCanon x) : CellCanon (anvilWindow x) :=
  { h with
    bufs := by unfold anvilWindow; dsimp only; exact wf_mapVals h.bufs
    chains := by unfold anvilWindow; dsimp only; exact wf_mapVals h.chains }

theorem canon_setStream {key : Nat} {x : Stream} {s : State} (h : Canon s) : Canon (setStream key x s) := by
  unfold setStream
  repeat' first
    | with_reducible exact canon_mk (by assumption)
    | with_reducible assumption

theorem canon_markIssued {unit : Nat} {w : Slot} {t : Nat} {s : State} (h : Canon s) : Canon (markIssued unit w t s) := by
  unfold markIssued
  repeat' first
    | (extract_lets -lift +onlyGivenNames s1; first | (refine canon_cut (v := s1) ?_ ?_ <;> [(unfold s1; clear s1); (intro _; try clear_value s1)]) | (refine canon_cut (v := s1.2) ?_ ?_ <;> [(unfold s1; clear s1); (intro _; try clear_value s1)]) | try clear_value s1)
    | with_reducible apply canon_setStream
    | with_reducible exact canon_mk (by assumption)
    | with_reducible assumption

theorem canon_wordLost {unit : Nat} {p : Place} {s : State} (h : Canon s) : Canon (wordLost unit p s) := by
  unfold wordLost
  repeat' first
    | (extract_lets -lift +onlyGivenNames s1; first | (refine canon_cut (v := s1) ?_ ?_ <;> [(unfold s1; clear s1); (intro _; try clear_value s1)]) | (refine canon_cut (v := s1.2) ?_ ?_ <;> [(unfold s1; clear s1); (intro _; try clear_value s1)]) | try clear_value s1)
    | with_reducible apply canon_wr
    | with_reducible apply canon_jobFaultRec
    | split
    | with_reducible assumption

theorem canon_wordCorrected {p : Place} {s : State} (h : Canon s) : Canon (wordCorrected p s) := by
  unfold wordCorrected
  repeat' first
    | with_reducible apply canon_noteCorrected
    | split
    | with_reducible assumption

theorem canon_issue {head : BitVec 8} {w : Slot} {ok : State → Bool} {body : State → State} {s : State} (h_body : ∀ a0, Canon a0 → Canon (body a0)) (h : Canon s) : Canon (issue head w ok body s) := by
  unfold issue
  repeat' first
    | with_reducible apply h_ok
    | with_reducible apply h_body
    | (extract_lets -lift +onlyGivenNames s1; first | (refine canon_cut (v := s1) ?_ ?_ <;> [(unfold s1; clear s1); (intro _; try clear_value s1)]) | (refine canon_cut (v := s1.2) ?_ ?_ <;> [(unfold s1; clear s1); (intro _; try clear_value s1)]) | try clear_value s1)
    | with_reducible apply canon_runTo
    | with_reducible apply canon_skip
    | with_reducible apply canon_markIssued
    | with_reducible apply canon_wordLost
    | with_reducible apply canon_wordCorrected
    | (with_reducible apply canon_each); intros
    | with_reducible apply canon_viol
    | split
    | with_reducible assumption

theorem canon_execHold {head : BitVec 8} {w : Slot} {s : State} (h : Canon s) : Canon (execHold head w s) := by
  unfold execHold
  repeat' first
    | (with_reducible apply canon_issue) <;> intros
    | split
    | with_reducible assumption

theorem canon_wordViol {bit : Nat} {unit : Nat} {w : Slot} {s : State} (h : Canon s) : Canon (wordViol bit unit w s) := by
  unfold wordViol
  repeat' first
    | with_reducible apply canon_viol
    | with_reducible assumption

theorem canon_enterTree {c : Nat} {tile : Nat} {t0 : Nat} {vals : List F16} {s : State} (h : Canon s) : Canon (enterTree c tile t0 vals s) := by
  unfold enterTree
  repeat' first
    | (with_reducible apply canon_each); intros
    | with_reducible apply canon_launch
    | with_reducible assumption

theorem canon_claimPort {c : Nat} {t : Nat} {span : Nat} {before : Bool} {w : Slot} {body : State → State} {s : State} (h_body : ∀ a0, Canon a0 → Canon (body a0)) (h : Canon s) : Canon (claimPort c t span before w body s) := by
  unfold claimPort
  repeat' first
    | with_reducible apply h_body
    | with_reducible apply canon_sticky
    | with_reducible apply canon_wordViol
    | with_reducible apply canon_setTile
    | split
    | with_reducible exact canon_mk (by assumption)
    | with_reducible assumption

theorem canon_bindTile {c : Nat} {w : Slot} {s : State} (h : Canon s) : Canon (bindTile c w s) := by
  unfold bindTile
  repeat' first
    | (extract_lets -lift +onlyGivenNames s1; first | (refine canon_cut (v := s1) ?_ ?_ <;> [(unfold s1; clear s1); (intro _; try clear_value s1)]) | (refine canon_cut (v := s1.2) ?_ ?_ <;> [(unfold s1; clear s1); (intro _; try clear_value s1)]) | try clear_value s1)
    | with_reducible apply canon_setTile
    | with_reducible exact canon_mk (by assumption)
    | with_reducible assumption

theorem canon_clearAct {w : Slot} {s : State} (h : Canon s) : Canon (clearAct w s) := by
  unfold clearAct
  repeat' first
    | (extract_lets -lift +onlyGivenNames s1; first | (refine canon_cut (v := s1) ?_ ?_ <;> [(unfold s1; clear s1); (intro _; try clear_value s1)]) | (refine canon_cut (v := s1.2) ?_ ?_ <;> [(unfold s1; clear s1); (intro _; try clear_value s1)]) | try clear_value s1)
    | (with_reducible apply canon_claimPort) <;> intros
    | with_reducible apply canon_bindTile
    | with_reducible apply canon_clearTile
    | with_reducible assumption

theorem canon_execClear {w : Slot} {s : State} (h : Canon s) : Canon (execClear w s) := by
  unfold execClear
  repeat' first
    | (with_reducible apply canon_issue) <;> intros
    | with_reducible apply canon_clearAct
    | with_reducible assumption

theorem canon_preloadAct {w : Slot} {s : State} (h : Canon s) : Canon (preloadAct w s) := by
  unfold preloadAct
  extract_lets c t
  refine canon_claimPort (fun s h => ?_) h
  extract_lets s1 src vals s2 s3 s4 bad
  have h3 : Canon s3 := canon_each (fun _ _ => canon_setAcc) (canon_bindTile (canon_clearTile (canon_spRead h)))
  have h4 : Canon s4 := canon_ite (canon_noteCheck h3) h3
  exact canon_ite h4 (canon_sticky (canon_arrOvf h4))

theorem canon_execPreload {w : Slot} {s : State} (h : Canon s) : Canon (execPreload w s) := by
  unfold execPreload
  repeat' first
    | (with_reducible apply canon_issue) <;> intros
    | with_reducible apply canon_preloadAct
    | with_reducible assumption

theorem canon_drainAct {clear : Bool} {w : Slot} {s : State} (h : Canon s) : Canon (drainAct clear w s) := by
  unfold drainAct
  repeat' first
    | (extract_lets -lift +onlyGivenNames s1; first | (refine canon_cut (v := s1) ?_ ?_ <;> [(unfold s1; clear s1); (intro _; try clear_value s1)]) | (refine canon_cut (v := s1.2) ?_ ?_ <;> [(unfold s1; clear s1); (intro _; try clear_value s1)]) | try clear_value s1)
    | (with_reducible apply canon_claimPort) <;> intros
    | with_reducible apply canon_wordViol
    | with_reducible apply canon_bumpFld
    | (with_reducible apply canon_each); intros
    | with_reducible apply canon_launch
    | with_reducible apply canon_launchOrLand
    | split
    | with_reducible assumption

theorem canon_drainWord {clear : Bool} {w : Slot} {s : State} (h : Canon s) : Canon (drainWord clear w s) := by
  unfold drainWord
  repeat' first
    | (with_reducible apply canon_issue) <;> intros
    | with_reducible apply canon_drainAct
    | split
    | with_reducible assumption

theorem canon_execDrain {w : Slot} {s : State} (h : Canon s) : Canon (execDrain w s) := by
  unfold execDrain
  repeat' first
    | with_reducible apply canon_drainWord
    | with_reducible assumption

theorem canon_execDrainclr {w : Slot} {s : State} (h : Canon s) : Canon (execDrainclr w s) := by
  unfold execDrainclr
  repeat' first
    | with_reducible apply canon_drainWord
    | with_reducible assumption

theorem canon_anvWrite {c : Nat} {lo : Nat} {n : Nat} {s : State} (h : Canon s) : Canon (anvWrite c lo n s) := by
  unfold anvWrite
  repeat' first
    | (with_reducible apply canon_onCell); intro x hx; first | exact { hx with ecc := (by dsimp only; exact wf_forget hx.ecc) } | exact hx.same
    | with_reducible exact canon_mk (by assumption)
    | with_reducible assumption

theorem canon_anvDrop {c : Nat} {w : Slot} {s : State} (h : Canon s) : Canon (anvDrop c w s) := by
  unfold anvDrop
  repeat' first
    | with_reducible apply canon_sticky
    | with_reducible apply canon_wordViol
    | with_reducible assumption

theorem canon_stageAct {w : Slot} {s : State} (h : Canon s) : Canon (stageAct w s) := by
  unfold stageAct
  repeat' first
    | (extract_lets -lift +onlyGivenNames s1; first | (refine canon_cut (v := s1) ?_ ?_ <;> [(unfold s1; clear s1); (intro _; try clear_value s1)]) | (refine canon_cut (v := s1.2) ?_ ?_ <;> [(unfold s1; clear s1); (intro _; try clear_value s1)]) | try clear_value s1)
    | with_reducible apply canon_anvDrop
    | (with_reducible apply canon_each); intros
    | with_reducible apply canon_spRead
    | with_reducible apply canon_setBuf
    | (with_reducible apply canon_onCell); intro x hx; first | exact hx.same
    | with_reducible apply canon_anvWrite
    | with_reducible apply canon_launch
    | with_reducible apply canon_bump
    | split
    | with_reducible exact canon_mk (by assumption)
    | with_reducible assumption

theorem canon_execStage {w : Slot} {s : State} (h : Canon s) : Canon (execStage w s) := by
  unfold execStage
  repeat' first
    | (with_reducible apply canon_issue) <;> intros
    | with_reducible apply canon_stageAct
    | with_reducible assumption

theorem canon_productAct {acc : Bool} {w : Slot} {s : State} (h : Canon s) : Canon (productAct acc w s) := by
  unfold productAct
  repeat' first
    | (extract_lets -lift +onlyGivenNames s1; first | (refine canon_cut (v := s1) ?_ ?_ <;> [(unfold s1; clear s1); (intro _; try clear_value s1)]) | (refine canon_cut (v := s1.2) ?_ ?_ <;> [(unfold s1; clear s1); (intro _; try clear_value s1)]) | try clear_value s1)
    | with_reducible apply canon_anvDrop
    | with_reducible apply canon_wr
    | with_reducible apply canon_anvRead
    | with_reducible apply canon_sticky
    | with_reducible apply canon_setBuf
    | (with_reducible apply canon_onCell); intro x hx; first | exact hx.same
    | with_reducible apply canon_anvWrite
    | with_reducible apply canon_setChain
    | with_reducible apply canon_launch
    | with_reducible apply canon_bump
    | split
    | with_reducible exact canon_mk (by assumption)
    | with_reducible assumption

theorem canon_productWord {acc : Bool} {w : Slot} {s : State} (h : Canon s) : Canon (productWord acc w s) := by
  unfold productWord
  repeat' first
    | (with_reducible apply canon_issue) <;> intros
    | with_reducible apply canon_productAct
    | split
    | with_reducible assumption

theorem canon_execGemm {w : Slot} {s : State} (h : Canon s) : Canon (execGemm w s) := by
  unfold execGemm
  repeat' first
    | with_reducible apply canon_productWord
    | with_reducible assumption

theorem canon_execGemmacc {w : Slot} {s : State} (h : Canon s) : Canon (execGemmacc w s) := by
  unfold execGemmacc
  repeat' first
    | with_reducible apply canon_productWord
    | with_reducible assumption

theorem canon_memTablesCheck {s : State} (h : Canon s) : Canon (memTablesCheck s) := by
  unfold memTablesCheck
  repeat' first
    | with_reducible apply canon_sticky
    | with_reducible apply canon_launch
    | split
    | with_reducible assumption

theorem canon_setClaim {pc : Nat} {slot : Nat} {v : Nat} {s : State} (h : Canon s) : Canon (setClaim pc slot v s) := by
  unfold setClaim
  repeat' first
    | with_reducible exact canon_mk (by assumption)
    | with_reducible assumption

theorem canon_joinNext {pc : Nat} {slot : Nat} {bank : Nat} {row : Nat} {s : State} (h : Canon s) : Canon (joinNext pc slot bank row s) := by
  unfold joinNext
  repeat' first
    | (extract_lets -lift +onlyGivenNames s1; first | (refine canon_cut (v := s1) ?_ ?_ <;> [(unfold s1; clear s1); (intro _; try clear_value s1)]) | (refine canon_cut (v := s1.2) ?_ ?_ <;> [(unfold s1; clear s1); (intro _; try clear_value s1)]) | try clear_value s1)
    | with_reducible apply canon_setClaim
    | split
    | with_reducible assumption

theorem canon_claimLine {a : Nat} {slot : Nat} {write : Bool} {s : State} (h : Canon s) : Canon (claimLine a slot write s) := by
  unfold claimLine
  repeat' first
    | (extract_lets -lift +onlyGivenNames s1; first | (refine canon_cut (v := s1) ?_ ?_ <;> [(unfold s1; clear s1); (intro _; try clear_value s1)]) | (refine canon_cut (v := s1.2) ?_ ?_ <;> [(unfold s1; clear s1); (intro _; try clear_value s1)]) | try clear_value s1)
    | with_reducible apply canon_setClaim
    | with_reducible apply canon_joinNext
    | with_reducible assumption

theorem canon_claimLines {addrs : List Nat} {σ : Nat} {write : Bool} {s : State} (h : Canon s) : Canon (claimLines addrs σ write s).2 := by
  unfold claimLines
  repeat' first
    | (with_reducible apply canon_foldl) <;> intros
    | with_reducible apply canon_setClaim
    | (extract_lets -lift +onlyGivenNames s1; first | (refine canon_cut (v := s1) ?_ ?_ <;> [(unfold s1; clear s1); (intro _; try clear_value s1)]) | (refine canon_cut (v := s1.2) ?_ ?_ <;> [(unfold s1; clear s1); (intro _; try clear_value s1)]) | try clear_value s1)
    | with_reducible apply canon_claimLine
    | split
    | with_reducible assumption

theorem canon_setRefOwed {pc : Nat} {bank : Nat} {v : Nat} {s : State} (h : Canon s) : Canon (setRefOwed pc bank v s) := by
  unfold setRefOwed
  repeat' first
    | with_reducible exact canon_mk (by assumption)
    | with_reducible assumption

theorem canon_execBankRefreshDue {stack : Fin 8} {pc : Fin 64} {bank : Fin 16} {s : State} (h : Canon s) : Canon (execBankRefreshDue stack pc bank s) := by
  unfold execBankRefreshDue
  repeat' first
    | (extract_lets -lift +onlyGivenNames s1; first | (refine canon_cut (v := s1) ?_ ?_ <;> [(unfold s1; clear s1); (intro _; try clear_value s1)]) | (refine canon_cut (v := s1.2) ?_ ?_ <;> [(unfold s1; clear s1); (intro _; try clear_value s1)]) | try clear_value s1)
    | with_reducible apply canon_setRefOwed
    | with_reducible apply canon_setClaim
    | split
    | with_reducible assumption

theorem canon_displace {pc : Nat} {tick : Nat} {s : State} (h : Canon s) : Canon (displace pc tick s) := by
  unfold displace
  repeat' first
    | split
    | with_reducible exact canon_mk (by assumption)
    | with_reducible assumption

theorem canon_execForcedRefresh {stack : Fin 8} {pc : Fin 64} {bank : Fin 16} {slot : BitVec 32} {s : State} (h : Canon s) : Canon (execForcedRefresh stack pc bank slot s) := by
  unfold execForcedRefresh
  repeat' first
    | (extract_lets -lift +onlyGivenNames s1; first | (refine canon_cut (v := s1) ?_ ?_ <;> [(unfold s1; clear s1); (intro _; try clear_value s1)]) | (refine canon_cut (v := s1.2) ?_ ?_ <;> [(unfold s1; clear s1); (intro _; try clear_value s1)]) | try clear_value s1)
    | with_reducible apply canon_setClaim
    | with_reducible apply canon_setRefOwed
    | with_reducible apply canon_displace
    | with_reducible apply canon_sticky
    | with_reducible apply canon_viol
    | split
    | with_reducible assumption

theorem canon_fetchLine {key : Nat} {limit : Nat} {s : State} (h : Canon s) : Canon (fetchLine key limit s) := by
  unfold fetchLine
  repeat' first
    | (extract_lets -lift +onlyGivenNames s1; first | (refine canon_cut (v := s1) ?_ ?_ <;> [(unfold s1; clear s1); (intro _; try clear_value s1)]) | (refine canon_cut (v := s1.2) ?_ ?_ <;> [(unfold s1; clear s1); (intro _; try clear_value s1)]) | try clear_value s1)
    | with_reducible apply canon_launch
    | with_reducible apply canon_claimLine
    | with_reducible apply canon_setStream
    | with_reducible apply canon_viol
    | split
    | with_reducible exact canon_mk (by assumption)
    | with_reducible assumption

theorem canon_execStreamFetch {place : Place} {n : Fin 4097} {s : State} (h : Canon s) : Canon (execStreamFetch place n s) := by
  unfold execStreamFetch
  repeat' first
    | (extract_lets -lift +onlyGivenNames s1; first | (refine canon_cut (v := s1) ?_ ?_ <;> [(unfold s1; clear s1); (intro _; try clear_value s1)]) | (refine canon_cut (v := s1.2) ?_ ?_ <;> [(unfold s1; clear s1); (intro _; try clear_value s1)]) | try clear_value s1)
    | (with_reducible apply canon_each); intros
    | with_reducible apply canon_fetchLine
    | split
    | with_reducible assumption

theorem canon_setCredit {pc : Nat} {a : Nat} {v : Nat} {s : State} (h : Canon s) : Canon (setCredit pc a v s) := by
  unfold setCredit
  repeat' first
    | with_reducible exact canon_mk (by assumption)
    | with_reducible assumption

theorem canon_setWindow {pc : Nat} {v : Nat} {s : State} (h : Canon s) : Canon (setWindow pc v s) := by
  unfold setWindow
  repeat' first
    | with_reducible exact canon_mk (by assumption)
    | with_reducible assumption

theorem canon_setGrant {pc : Nat} {g : Nat × Nat} {s : State} (h : Canon s) : Canon (setGrant pc g s) := by
  unfold setGrant
  repeat' first
    | with_reducible exact canon_mk (by assumption)
    | with_reducible assumption

theorem canon_startWindow {pc : Nat} {s : State} (h : Canon s) : Canon (startWindow pc s) := by
  unfold startWindow
  repeat' first
    | with_reducible apply canon_setWindow
    | (with_reducible apply canon_each); intros
    | with_reducible apply canon_setCredit
    | with_reducible assumption

theorem canon_countSlot {pc : Nat} {s : State} (h : Canon s) : Canon (countSlot pc s) := by
  unfold countSlot
  repeat' first
    | (extract_lets -lift +onlyGivenNames s1; first | (refine canon_cut (v := s1) ?_ ?_ <;> [(unfold s1; clear s1); (intro _; try clear_value s1)]) | (refine canon_cut (v := s1.2) ?_ ?_ <;> [(unfold s1; clear s1); (intro _; try clear_value s1)]) | try clear_value s1)
    | with_reducible apply canon_setWindow
    | split
    | with_reducible assumption

theorem canon_moveLine {pc : Nat} {slot : Nat} {r : Req} {write : Bool} {second : Bool} {charge : Bool} {s : State} (h : Canon s) : Canon (moveLine pc slot r write second charge s) := by
  unfold moveLine
  repeat' first
    | (extract_lets -lift +onlyGivenNames s1; first | (refine canon_cut (v := s1) ?_ ?_ <;> [(unfold s1; clear s1); (intro _; try clear_value s1)]) | (refine canon_cut (v := s1.2) ?_ ?_ <;> [(unfold s1; clear s1); (intro _; try clear_value s1)]) | try clear_value s1)
    | with_reducible apply canon_setClaim
    | with_reducible apply canon_bump
    | with_reducible apply canon_setCredit
    | split
    | with_reducible assumption

theorem canon_beginGrant {pc : Nat} {slot : Nat} {lines : Nat} {r : Req} {charge : Bool} {s : State} (h : Canon s) : Canon (beginGrant pc slot lines r charge s) := by
  unfold beginGrant
  repeat' first
    | (extract_lets -lift +onlyGivenNames s1; first | (refine canon_cut (v := s1) ?_ ?_ <;> [(unfold s1; clear s1); (intro _; try clear_value s1)]) | (refine canon_cut (v := s1.2) ?_ ?_ <;> [(unfold s1; clear s1); (intro _; try clear_value s1)]) | try clear_value s1)
    | with_reducible apply canon_moveLine
    | with_reducible apply canon_setGrant
    | split
    | with_reducible assumption

theorem canon_arbitrate {pc : Nat} {slot : Nat} {reqs : List Req} {s : State} (h : Canon s) : Canon (arbitrate pc slot reqs s) := by
  unfold arbitrate
  repeat' first
    | (extract_lets -lift +onlyGivenNames s1; first | (refine canon_cut (v := s1) ?_ ?_ <;> [(unfold s1; clear s1); (intro _; try clear_value s1)]) | (refine canon_cut (v := s1.2) ?_ ?_ <;> [(unfold s1; clear s1); (intro _; try clear_value s1)]) | try clear_value s1)
    | with_reducible apply canon_startWindow
    | with_reducible apply canon_countSlot
    | with_reducible apply canon_beginGrant
    | split
    | with_reducible assumption

theorem canon_underGrant {pc : Nat} {slot : Nat} {reqs : List Req} {s : State} (h : Canon s) : Canon (underGrant pc slot reqs s) := by
  unfold underGrant
  repeat' first
    | (extract_lets -lift +onlyGivenNames s1; first | (refine canon_cut (v := s1) ?_ ?_ <;> [(unfold s1; clear s1); (intro _; try clear_value s1)]) | (refine canon_cut (v := s1.2) ?_ ?_ <;> [(unfold s1; clear s1); (intro _; try clear_value s1)]) | try clear_value s1)
    | with_reducible apply canon_arbitrate
    | with_reducible apply canon_bump
    | with_reducible apply canon_setGrant
    | with_reducible apply canon_countSlot
    | with_reducible apply canon_startWindow
    | with_reducible apply canon_moveLine
    | split
    | with_reducible assumption

theorem canon_execArbitrationPoint {stack : Fin 8} {pc : Fin 64} {slot : BitVec 32} {reqs : List Req} {s : State} (h : Canon s) : Canon (execArbitrationPoint stack pc slot reqs s) := by
  unfold execArbitrationPoint
  repeat' first
    | (extract_lets -lift +onlyGivenNames s1; first | (refine canon_cut (v := s1) ?_ ?_ <;> [(unfold s1; clear s1); (intro _; try clear_value s1)]) | (refine canon_cut (v := s1.2) ?_ ?_ <;> [(unfold s1; clear s1); (intro _; try clear_value s1)]) | try clear_value s1)
    | with_reducible apply canon_runTo
    | with_reducible apply canon_arbitrate
    | with_reducible apply canon_underGrant
    | split
    | with_reducible assumption

theorem canon_execScrub {line : BitVec 33} {s : State} (h : Canon s) : Canon (execScrub line s) := by
  unfold execScrub
  repeat' first
    | (extract_lets -lift +onlyGivenNames s1; first | (refine canon_cut (v := s1) ?_ ?_ <;> [(unfold s1; clear s1); (intro _; try clear_value s1)]) | (refine canon_cut (v := s1.2) ?_ ?_ <;> [(unfold s1; clear s1); (intro _; try clear_value s1)]) | try clear_value s1)
    | with_reducible apply canon_dramRead
    | split
    | with_reducible exact canon_mk (by assumption)
    | with_reducible assumption

theorem canon_pprStart {s : State} (h : Canon s) : Canon (pprStart s) := by
  unfold pprStart
  repeat' first
    | split
    | with_reducible exact canon_mk (by assumption)
    | with_reducible assumption

theorem canon_repairRow {k : Nat} {ok : Bool} {s : State} (h : Canon s) : Canon (repairRow k ok s) := by
  unfold repairRow
  repeat' first
    | (extract_lets -lift +onlyGivenNames s1; first | (refine canon_cut (v := s1) ?_ ?_ <;> [(unfold s1; clear s1); (intro _; try clear_value s1)]) | (refine canon_cut (v := s1.2) ?_ ?_ <;> [(unfold s1; clear s1); (intro _; try clear_value s1)]) | try clear_value s1)
    | (with_reducible apply canon_each); intros
    | with_reducible apply canon_dramRead
    | with_reducible apply canon_dramLine
    | with_reducible apply canon_wear
    | with_reducible apply canon_sticky
    | with_reducible apply canon_retire
    | split
    | with_reducible assumption

theorem canon_execPprComplete {repaired : List Bool} {s : State} (h : Canon s) : Canon (execPprComplete repaired s) := by
  unfold execPprComplete
  repeat' first
    | (extract_lets -lift +onlyGivenNames s1; first | (refine canon_cut (v := s1) ?_ ?_ <;> [(unfold s1; clear s1); (intro _; try clear_value s1)]) | (refine canon_cut (v := s1.2) ?_ ?_ <;> [(unfold s1; clear s1); (intro _; try clear_value s1)]) | try clear_value s1)
    | (with_reducible apply canon_each); intros
    | with_reducible apply canon_repairRow
    | with_reducible apply canon_setFld
    | with_reducible apply canon_capacityLoss
    | split
    | with_reducible exact canon_mk (by assumption)
    | with_reducible assumption

theorem canon_setHeld {m : Nat} {k : Nat} {v : Nat} {s : State} (h : Canon s) : Canon (setHeld m k v s) := by
  unfold setHeld
  repeat' first
    | with_reducible exact canon_mk (by assumption)
    | with_reducible assumption

theorem canon_stackReadout {m : Nat} {r : Option (BitVec 8)} {s : State} (h : Canon s) : Canon (stackReadout m r s) := by
  unfold stackReadout
  repeat' first
    | (extract_lets -lift +onlyGivenNames s1; first | (refine canon_cut (v := s1) ?_ ?_ <;> [(unfold s1; clear s1); (intro _; try clear_value s1)]) | (refine canon_cut (v := s1.2) ?_ ?_ <;> [(unfold s1; clear s1); (intro _; try clear_value s1)]) | try clear_value s1)
    | with_reducible apply canon_setFld
    | with_reducible apply canon_sticky
    | with_reducible apply canon_wr
    | with_reducible apply canon_jobFaultRec
    | split
    | with_reducible exact canon_mk (by assumption)
    | with_reducible assumption

theorem canon_stackThresholds {m : Nat} {s : State} (h : Canon s) : Canon (stackThresholds m s) := by
  unfold stackThresholds
  repeat' first
    | (extract_lets -lift +onlyGivenNames s1; first | (refine canon_cut (v := s1) ?_ ?_ <;> [(unfold s1; clear s1); (intro _; try clear_value s1)]) | (refine canon_cut (v := s1.2) ?_ ?_ <;> [(unfold s1; clear s1); (intro _; try clear_value s1)]) | try clear_value s1)
    | (with_reducible apply canon_each); intros
    | with_reducible apply canon_setHeld
    | with_reducible assumption

theorem canon_execStackTempReadout {temps : List (Option (BitVec 8))} {s : State} (h : Canon s) : Canon (execStackTempReadout temps s) := by
  unfold execStackTempReadout
  repeat' first
    | (extract_lets -lift +onlyGivenNames s1; first | (refine canon_cut (v := s1) ?_ ?_ <;> [(unfold s1; clear s1); (intro _; try clear_value s1)]) | (refine canon_cut (v := s1.2) ?_ ?_ <;> [(unfold s1; clear s1); (intro _; try clear_value s1)]) | try clear_value s1)
    | (with_reducible apply canon_each); intros
    | with_reducible apply canon_stackThresholds
    | with_reducible apply canon_stackReadout
    | with_reducible apply canon_setFld
    | with_reducible apply canon_localLevel
    | with_reducible assumption

theorem canon_setStamp {x : Nat} {v : Nat} {s : State} (h : Canon s) : Canon (setStamp x v s) := by
  unfold setStamp
  repeat' first
    | with_reducible apply canon_setFld
    | with_reducible assumption

theorem canon_markWriting {s : State} (h : Canon s) : Canon (markWriting s) := by
  unfold markWriting
  repeat' first
    | (extract_lets -lift +onlyGivenNames s1; first | (refine canon_cut (v := s1) ?_ ?_ <;> [(unfold s1; clear s1); (intro _; try clear_value s1)]) | (refine canon_cut (v := s1.2) ?_ ?_ <;> [(unfold s1; clear s1); (intro _; try clear_value s1)]) | try clear_value s1)
    | with_reducible apply canon_setStamp
    | split
    | with_reducible assumption

theorem canon_setRingUse {c : Nat} {r : Nat} {v : Nat} {s : State} (h : Canon s) : Canon (setRingUse c r v s) := by
  unfold setRingUse
  repeat' first
    | (with_reducible apply canon_onCell); intro x hx; first | exact { hx with ringBytes := wf_put hx.ringBytes } | exact hx.same
    | with_reducible exact canon_mk (by assumption)
    | with_reducible assumption

theorem canon_ringAdd {die : Nat} {c : Nat} {r : Nat} {units : Nat} {unit : Nat} {w : Slot} {s : State} (h : Canon s) : Canon (ringAdd die c r units unit w s) := by
  unfold ringAdd
  repeat' first
    | (extract_lets -lift +onlyGivenNames s1; first | (refine canon_cut (v := s1) ?_ ?_ <;> [(unfold s1; clear s1); (intro _; try clear_value s1)]) | (refine canon_cut (v := s1.2) ?_ ?_ <;> [(unfold s1; clear s1); (intro _; try clear_value s1)]) | try clear_value s1)
    | with_reducible apply canon_setRingUse
    | with_reducible apply canon_wordViol
    | split
    | with_reducible assumption

theorem canon_noteFreed {die : Nat} {r : Nat} {n : Nat} {s : State} (h : Canon s) : Canon (noteFreed die r n s) := by
  unfold noteFreed
  repeat' first
    | split
    | with_reducible exact canon_mk (by assumption)
    | with_reducible assumption

theorem canon_ringTake {c : Nat} {r : Nat} {units : Nat} {unit : Nat} {w : Slot} {s : State} (h : Canon s) : Canon (ringTake c r units unit w s) := by
  unfold ringTake
  repeat' first
    | (extract_lets -lift +onlyGivenNames s1; first | (refine canon_cut (v := s1) ?_ ?_ <;> [(unfold s1; clear s1); (intro _; try clear_value s1)]) | (refine canon_cut (v := s1.2) ?_ ?_ <;> [(unfold s1; clear s1); (intro _; try clear_value s1)]) | try clear_value s1)
    | with_reducible apply canon_noteFreed
    | with_reducible apply canon_setRingUse
    | with_reducible apply canon_wordViol
    | split
    | with_reducible assumption

theorem canon_produce {die : Nat} {c : Nat} {a : Nat} {n : Nat} {w : Slot} {s : State} (h : Canon s) : Canon (produce die c a n w s) := by
  unfold produce
  repeat' first
    | with_reducible apply canon_ringAdd
    | split
    | with_reducible assumption

theorem canon_consume {die : Nat} {c : Nat} {a : Nat} {n : Nat} {w : Slot} {s : State} (h : Canon s) : Canon (consume die c a n w s) := by
  unfold consume
  repeat' first
    | with_reducible apply canon_ringTake
    | split
    | with_reducible assumption

theorem canon_copyAct {w : Slot} {s : State} (h : Canon s) : Canon (copyAct w s) := by
  unfold copyAct
  repeat' first
    | (extract_lets -lift +onlyGivenNames s1; first | (refine canon_cut (v := s1) ?_ ?_ <;> [(unfold s1; clear s1); (intro _; try clear_value s1)]) | (refine canon_cut (v := s1.2) ?_ ?_ <;> [(unfold s1; clear s1); (intro _; try clear_value s1)]) | try clear_value s1)
    | with_reducible apply canon_produce
    | with_reducible apply canon_consume
    | (with_reducible apply canon_each); intros
    | with_reducible apply canon_launchOrLand
    | with_reducible apply canon_moveLine
    | with_reducible assumption

theorem canon_execCopy {w : Slot} {s : State} (h : Canon s) : Canon (execCopy w s) := by
  unfold execCopy
  repeat' first
    | (with_reducible apply canon_issue) <;> intros
    | with_reducible apply canon_copyAct
    | with_reducible assumption

theorem canon_bridgeAct {w : Slot} {s : State} (h : Canon s) : Canon (bridgeAct w s) := by
  unfold bridgeAct
  repeat' first
    | (extract_lets -lift +onlyGivenNames s1; first | (refine canon_cut (v := s1) ?_ ?_ <;> [(unfold s1; clear s1); (intro _; try clear_value s1)]) | (refine canon_cut (v := s1.2) ?_ ?_ <;> [(unfold s1; clear s1); (intro _; try clear_value s1)]) | try clear_value s1)
    | with_reducible apply canon_produce
    | with_reducible apply canon_consume
    | (with_reducible apply canon_each); intros
    | with_reducible apply canon_launchOrLand
    | with_reducible apply canon_moveLine
    | with_reducible assumption

theorem canon_execBridge {w : Slot} {s : State} (h : Canon s) : Canon (execBridge w s) := by
  unfold execBridge
  repeat' first
    | (with_reducible apply canon_issue) <;> intros
    | with_reducible apply canon_bridgeAct
    | with_reducible assumption

theorem canon_loadAct {w : Slot} {s : State} (h : Canon s) : Canon (loadAct w s) := by
  unfold loadAct
  repeat' first
    | exact canon_snd (by assumption) (canon_claimLines (by assumption))
    | exact canon_snd (by assumption) (canon_ringTake (by assumption))
    | (extract_lets -lift +onlyGivenNames s1; first | (refine canon_cut (v := s1) ?_ ?_ <;> [(unfold s1; clear s1); (intro _; try clear_value s1)]) | (refine canon_cut (v := s1.2) ?_ ?_ <;> [(unfold s1; clear s1); (intro _; try clear_value s1)]) | try clear_value s1)
    | with_reducible apply canon_claimLines
    | (with_reducible apply canon_each); intros
    | with_reducible apply canon_wordViol
    | with_reducible apply canon_produce
    | with_reducible apply canon_launch
    | split
    | with_reducible assumption

theorem canon_execLoad {w : Slot} {s : State} (h : Canon s) : Canon (execLoad w s) := by
  unfold execLoad
  repeat' first
    | (with_reducible apply canon_issue) <;> intros
    | with_reducible apply canon_loadAct
    | with_reducible assumption

theorem canon_movStoreAct {w : Slot} {s : State} (h : Canon s) : Canon (movStoreAct w s) := by
  unfold movStoreAct
  repeat' first
    | exact canon_snd (by assumption) (canon_ringTake (by assumption))
    | exact canon_snd (by assumption) (canon_claimLines (by assumption))
    | (extract_lets -lift +onlyGivenNames s1; first | (refine canon_cut (v := s1) ?_ ?_ <;> [(unfold s1; clear s1); (intro _; try clear_value s1)]) | (refine canon_cut (v := s1.2) ?_ ?_ <;> [(unfold s1; clear s1); (intro _; try clear_value s1)]) | try clear_value s1)
    | with_reducible apply canon_claimLines
    | (with_reducible apply canon_each); intros
    | with_reducible apply canon_wordViol
    | with_reducible apply canon_consume
    | with_reducible apply canon_markWriting
    | with_reducible apply canon_launch
    | split
    | with_reducible assumption

theorem canon_execMovStore {w : Slot} {s : State} (h : Canon s) : Canon (execMovStore w s) := by
  unfold execMovStore
  repeat' first
    | (with_reducible apply canon_issue) <;> intros
    | with_reducible apply canon_movStoreAct
    | with_reducible assumption

theorem canon_capReserve {n : Nat} {s : State} (h : Canon s) : Canon (capReserve n s) := by
  unfold capReserve
  repeat' first
    | (extract_lets -lift +onlyGivenNames s1; first | (refine canon_cut (v := s1) ?_ ?_ <;> [(unfold s1; clear s1); (intro _; try clear_value s1)]) | (refine canon_cut (v := s1.2) ?_ ?_ <;> [(unfold s1; clear s1); (intro _; try clear_value s1)]) | try clear_value s1)
    | with_reducible apply canon_sticky
    | with_reducible apply canon_wr
    | split
    | with_reducible exact canon_mk (by assumption)
    | with_reducible assumption

theorem canon_stepMark {s : State} (h : Canon s) : Canon (stepMark s) := by
  unfold stepMark
  repeat' first
    | (extract_lets -lift +onlyGivenNames s1; first | (refine canon_cut (v := s1) ?_ ?_ <;> [(unfold s1; clear s1); (intro _; try clear_value s1)]) | (refine canon_cut (v := s1.2) ?_ ?_ <;> [(unfold s1; clear s1); (intro _; try clear_value s1)]) | try clear_value s1)
    | with_reducible apply canon_asyncWrite
    | with_reducible apply canon_capReserve
    | split
    | with_reducible exact canon_mk (by assumption)
    | with_reducible assumption

theorem canon_capOccupy {die : Nat} {c : Nat} {unit : Nat} {n : Nat} {w : Slot} {s : State} (h : Canon s) : Canon (capOccupy die c unit n w s) := by
  unfold capOccupy
  repeat' first
    | with_reducible apply canon_ringAdd
    | (with_reducible apply canon_onCell); intro x hx; first | exact hx.same
    | with_reducible exact canon_mk (by assumption)
    | with_reducible assumption

theorem canon_capRecordPut {die : Nat} {c : Nat} {unit : Nat} {w : Slot} {data : List Byte} {s : State} (h : Canon s) : Canon (capRecordPut die c unit w data s) := by
  unfold capRecordPut
  repeat' first
    | (extract_lets -lift +onlyGivenNames s1; first | (refine canon_cut (v := s1) ?_ ?_ <;> [(unfold s1; clear s1); (intro _; try clear_value s1)]) | (refine canon_cut (v := s1.2) ?_ ?_ <;> [(unfold s1; clear s1); (intro _; try clear_value s1)]) | try clear_value s1)
    | (with_reducible apply canon_each); intros
    | with_reducible apply canon_spPut
    | with_reducible apply canon_capOccupy
    | split
    | with_reducible assumption

theorem canon_noteCapture {key : Nat} {n : Nat} {s : State} (h : Canon s) : Canon (noteCapture key n s) := by
  unfold noteCapture
  repeat' first
    | (extract_lets -lift +onlyGivenNames s1; first | (refine canon_cut (v := s1) ?_ ?_ <;> [(unfold s1; clear s1); (intro _; try clear_value s1)]) | (refine canon_cut (v := s1.2) ?_ ?_ <;> [(unfold s1; clear s1); (intro _; try clear_value s1)]) | try clear_value s1)
    | split
    | with_reducible exact canon_mk (by assumption)
    | with_reducible assumption

theorem canon_captureAct {w : Slot} {s : State} (h : Canon s) : Canon (captureAct w s) := by
  unfold captureAct
  repeat' first
    | exact canon_snd (by assumption) (canon_claimLines (by assumption))
    | exact canon_snd (by assumption) (canon_ringTake (by assumption))
    | (extract_lets -lift +onlyGivenNames s1; first | (refine canon_cut (v := s1) ?_ ?_ <;> [(unfold s1; clear s1); (intro _; try clear_value s1)]) | (refine canon_cut (v := s1.2) ?_ ?_ <;> [(unfold s1; clear s1); (intro _; try clear_value s1)]) | try clear_value s1)
    | with_reducible apply canon_setRingUse
    | (with_reducible apply canon_onCell); intro x hx; first | exact hx.same
    | with_reducible apply canon_claimLines
    | (with_reducible apply canon_each); intros
    | with_reducible apply canon_wordViol
    | with_reducible apply canon_ringTake
    | with_reducible apply canon_capReserve
    | with_reducible apply canon_noteCapture
    | with_reducible apply canon_launch
    | split
    | with_reducible exact canon_mk (by assumption)
    | with_reducible assumption

theorem canon_execCapture {w : Slot} {s : State} (h : Canon s) : Canon (execCapture w s) := by
  unfold execCapture
  repeat' first
    | (with_reducible apply canon_issue) <;> intros
    | with_reducible apply canon_captureAct
    | with_reducible assumption

theorem canon_claimArray {c : Nat} {a : Nat} {span : Nat} {w : Slot} {body : State → State} {s : State} (h_body : ∀ a0, Canon a0 → Canon (body a0)) (h : Canon s) : Canon (claimArray c a span w body s) := by
  unfold claimArray
  repeat' first
    | with_reducible apply h_body
    | with_reducible apply canon_wordViol
    | with_reducible apply canon_sticky
    | with_reducible apply canon_setArr
    | split
    | with_reducible exact canon_mk (by assumption)
    | with_reducible assumption

theorem canon_evalFinish {c : Nat} {tile : Nat} {ovf : Nat} {t0 : Nat} {passes : List (Nat × List (List Int))} {out : List (F16 × Bool)} {s : State} (h : Canon s) : Canon (evalFinish c tile ovf t0 passes out s) := by
  unfold evalFinish
  repeat' first
    | (extract_lets -lift +onlyGivenNames s1; first | (refine canon_cut (v := s1) ?_ ?_ <;> [(unfold s1; clear s1); (intro _; try clear_value s1)]) | (refine canon_cut (v := s1.2) ?_ ?_ <;> [(unfold s1; clear s1); (intro _; try clear_value s1)]) | try clear_value s1)
    | with_reducible apply canon_sticky
    | with_reducible apply canon_bumpFld
    | with_reducible apply canon_arrOvf
    | with_reducible apply canon_enterTree
    | split
    | with_reducible assumption

theorem canon_assayFail {die : Nat} {cell : Nat} {a : Nat} {s : State} (h : Canon s) : Canon (assayFail die cell a s) := by
  unfold assayFail
  repeat' first
    | (extract_lets -lift +onlyGivenNames s1; first | (refine canon_cut (v := s1) ?_ ?_ <;> [(unfold s1; clear s1); (intro _; try clear_value s1)]) | (refine canon_cut (v := s1.2) ?_ ?_ <;> [(unfold s1; clear s1); (intro _; try clear_value s1)]) | try clear_value s1)
    | with_reducible apply canon_sticky
    | with_reducible apply canon_bump
    | with_reducible apply canon_calLast
    | with_reducible apply canon_taint
    | with_reducible assumption

theorem canon_captureCodes {die : Nat} {cell : Nat} {c : Nat} {a : Nat} {tile : Nat} {a8 : Bool} {passes : List (Nat × List (List Int))} {w : Slot} {s : State} (h : Canon s) : Canon (captureCodes die cell c a tile a8 passes w s) := by
  unfold captureCodes
  repeat' first
    | (extract_lets -lift +onlyGivenNames s1; first | (refine canon_cut (v := s1) ?_ ?_ <;> [(unfold s1; clear s1); (intro _; try clear_value s1)]) | (refine canon_cut (v := s1.2) ?_ ?_ <;> [(unfold s1; clear s1); (intro _; try clear_value s1)]) | try clear_value s1)
    | with_reducible apply canon_capRecordPut
    | with_reducible apply canon_setArr
    | split
    | with_reducible exact canon_mk (by assumption)
    | with_reducible assumption

theorem canon_phasesRun {c : Nat} {ran : Nat} {skipped : Nat} {s : State} (h : Canon s) : Canon (phasesRun c ran skipped s) := by
  unfold phasesRun
  repeat' first
    | with_reducible apply canon_bumpFld
    | with_reducible assumption

theorem canon_evaluate {a8 : Bool} {w : Slot} {s : State} (h : Canon s) : Canon (evaluate a8 w s) := by
  unfold evaluate
  repeat' first
    | (extract_lets -lift +onlyGivenNames s1; first | (refine canon_cut (v := s1) ?_ ?_ <;> [(unfold s1; clear s1); (intro _; try clear_value s1)]) | (refine canon_cut (v := s1.2) ?_ ?_ <;> [(unfold s1; clear s1); (intro _; try clear_value s1)]) | try clear_value s1)
    | with_reducible apply canon_advanceRamp
    | with_reducible apply canon_spRead
    | with_reducible apply canon_phasesRun
    | with_reducible apply canon_useFree
    | with_reducible apply canon_captureCodes
    | (with_reducible apply canon_each); intros
    | with_reducible apply canon_assayFail
    | with_reducible apply canon_evalFinish
    | split
    | with_reducible assumption

theorem canon_evalAct {w : Slot} {s : State} (h : Canon s) : Canon (evalAct w s) := by
  unfold evalAct
  repeat' first
    | (with_reducible apply canon_claimArray) <;> intros
    | with_reducible apply canon_evaluate
    | with_reducible assumption

theorem canon_execEval {w : Slot} {s : State} (h : Canon s) : Canon (execEval w s) := by
  unfold execEval
  repeat' first
    | (with_reducible apply canon_issue) <;> intros
    | with_reducible apply canon_evalAct
    | with_reducible assumption

theorem canon_eval8Act {w : Slot} {s : State} (h : Canon s) : Canon (eval8Act w s) := by
  unfold eval8Act
  repeat' first
    | (with_reducible apply canon_claimArray) <;> intros
    | with_reducible apply canon_evaluate
    | with_reducible assumption

theorem canon_execEval8 {w : Slot} {s : State} (h : Canon s) : Canon (execEval8 w s) := by
  unfold execEval8
  repeat' first
    | (with_reducible apply canon_issue) <;> intros
    | with_reducible apply canon_eval8Act
    | with_reducible assumption

theorem canon_replayAct {w : Slot} {s : State} (h : Canon s) : Canon (replayAct w s) := by
  unfold replayAct
  repeat' first
    | (extract_lets -lift +onlyGivenNames s1; first | (refine canon_cut (v := s1) ?_ ?_ <;> [(unfold s1; clear s1); (intro _; try clear_value s1)]) | (refine canon_cut (v := s1.2) ?_ ?_ <;> [(unfold s1; clear s1); (intro _; try clear_value s1)]) | try clear_value s1)
    | (with_reducible apply canon_claimArray) <;> intros
    | with_reducible apply canon_ringTake
    | with_reducible apply canon_useFree
    | (with_reducible apply canon_onCell); intro x hx; first | exact hx.same
    | with_reducible apply canon_evalFinish
    | split
    | with_reducible exact canon_mk (by assumption)
    | with_reducible assumption

theorem canon_execReplay {w : Slot} {s : State} (h : Canon s) : Canon (execReplay w s) := by
  unfold execReplay
  repeat' first
    | (with_reducible apply canon_issue) <;> intros
    | with_reducible apply canon_replayAct
    | with_reducible assumption

theorem canon_programVerified {c : Nat} {a : Nat} {p : Nat} {col : Nat} {codes : List Byte} {exp : Nat} {s : State} (h : Canon s) : Canon (programVerified c a p col codes exp s).2 := by
  unfold programVerified
  repeat' first
    | (extract_lets -lift +onlyGivenNames s1; first | (refine canon_cut (v := s1) ?_ ?_ <;> [(unfold s1; clear s1); (intro _; try clear_value s1)]) | (refine canon_cut (v := s1.2) ?_ ?_ <;> [(unfold s1; clear s1); (intro _; try clear_value s1)]) | try clear_value s1)
    | with_reducible apply canon_programCol
    | with_reducible apply canon_phasesRun
    | with_reducible apply canon_useFree
    | with_reducible assumption

theorem canon_programBlock {c : Nat} {a : Nat} {p : Nat} {col : Nat} {b : List Byte} {s : State} (h : Canon s) : Canon (programBlock c a p col b s).2 := by
  unfold programBlock
  repeat' first
    | with_reducible apply canon_programVerified
    | with_reducible assumption

theorem canon_refreshLost {die : Nat} {cell : Nat} {a : Nat} {col : Nat} {content : List Byte} {s : State} (h : Canon s) : Canon (refreshLost die cell a col content s) := by
  unfold refreshLost
  repeat' first
    | (extract_lets -lift +onlyGivenNames s1; first | (refine canon_cut (v := s1) ?_ ?_ <;> [(unfold s1; clear s1); (intro _; try clear_value s1)]) | (refine canon_cut (v := s1.2) ?_ ?_ <;> [(unfold s1; clear s1); (intro _; try clear_value s1)]) | try clear_value s1)
    | split
    | with_reducible exact canon_mk (by assumption)
    | with_reducible assumption

theorem canon_refreshFill {die : Nat} {cell : Nat} {a : Nat} {col : Nat} {content : List Byte} {s : State} (h : Canon s) : Canon (refreshFill die cell a col content s) := by
  unfold refreshFill
  repeat' first
    | (extract_lets -lift +onlyGivenNames s1; first | (refine canon_cut (v := s1) ?_ ?_ <;> [(unfold s1; clear s1); (intro _; try clear_value s1)]) | (refine canon_cut (v := s1.2) ?_ ?_ <;> [(unfold s1; clear s1); (intro _; try clear_value s1)]) | try clear_value s1)
    | (with_reducible apply canon_each); intros
    | with_reducible apply canon_setFld
    | with_reducible apply canon_setFill
    | with_reducible apply canon_refreshLost
    | split
    | with_reducible exact canon_mk (by assumption)
    | with_reducible assumption

theorem canon_mirrorWrite {die : Nat} {cell : Nat} {a : Nat} {col : Nat} {codes : List Byte} {exp : Nat} {s : State} (h : Canon s) : Canon (mirrorWrite die cell a col codes exp s) := by
  unfold mirrorWrite
  repeat' first
    | (extract_lets -lift +onlyGivenNames s1; first | (refine canon_cut (v := s1) ?_ ?_ <;> [(unfold s1; clear s1); (intro _; try clear_value s1)]) | (refine canon_cut (v := s1.2) ?_ ?_ <;> [(unfold s1; clear s1); (intro _; try clear_value s1)]) | try clear_value s1)
    | (with_reducible apply canon_each); intros
    | with_reducible apply canon_programCol
    | split
    | with_reducible assumption

theorem canon_writeAct {w : Slot} {s : State} (h : Canon s) : Canon (writeAct w s) := by
  unfold writeAct
  repeat' first
    | (extract_lets -lift +onlyGivenNames s1; first | (refine canon_cut (v := s1) ?_ ?_ <;> [(unfold s1; clear s1); (intro _; try clear_value s1)]) | (refine canon_cut (v := s1.2) ?_ ?_ <;> [(unfold s1; clear s1); (intro _; try clear_value s1)]) | try clear_value s1)
    | (with_reducible apply canon_claimArray) <;> intros
    | with_reducible apply canon_spRead
    | with_reducible apply canon_wordViol
    | with_reducible apply canon_refreshFill
    | with_reducible apply canon_bump
    | with_reducible apply canon_programVerified
    | with_reducible apply canon_mirrorWrite
    | with_reducible apply canon_launch
    | split
    | with_reducible assumption

theorem canon_execWrite {w : Slot} {s : State} (h : Canon s) : Canon (execWrite w s) := by
  unfold execWrite
  repeat' first
    | (with_reducible apply canon_issue) <;> intros
    | with_reducible apply canon_writeAct
    | with_reducible assumption

theorem canon_toVerdict {die : Nat} {cell : Nat} {a : Nat} {swept : Bool} {s : State} (h : Canon s) : Canon (toVerdict die cell a swept s) := by
  unfold toVerdict
  repeat' first
    | with_reducible apply canon_runTo
    | split
    | with_reducible assumption

theorem canon_execWriteVerdict {die : Fin 4} {cell : Fin 256} {array : Fin 64} {s : State} (h : Canon s) : Canon (execWriteVerdict die cell array s) := by
  unfold execWriteVerdict
  repeat' first
    | with_reducible apply canon_toVerdict
    | with_reducible assumption

theorem canon_sweepAct {w : Slot} {s : State} (h : Canon s) : Canon (sweepAct w s) := by
  unfold sweepAct
  repeat' first
    | (extract_lets -lift +onlyGivenNames s1; first | (refine canon_cut (v := s1) ?_ ?_ <;> [(unfold s1; clear s1); (intro _; try clear_value s1)]) | (refine canon_cut (v := s1.2) ?_ ?_ <;> [(unfold s1; clear s1); (intro _; try clear_value s1)]) | try clear_value s1)
    | (with_reducible apply canon_claimArray) <;> intros
    | with_reducible apply canon_setArr
    | with_reducible apply canon_phasesRun
    | with_reducible apply canon_useFree
    | with_reducible apply canon_launch
    | with_reducible exact canon_mk (by assumption)
    | with_reducible assumption

theorem canon_execSweep {w : Slot} {s : State} (h : Canon s) : Canon (execSweep w s) := by
  unfold execSweep
  repeat' first
    | (with_reducible apply canon_issue) <;> intros
    | with_reducible apply canon_sweepAct
    | with_reducible assumption

theorem canon_execSweepVerdict {die : Fin 4} {cell : Fin 256} {array : Fin 64} {s : State} (h : Canon s) : Canon (execSweepVerdict die cell array s) := by
  unfold execSweepVerdict
  repeat' first
    | with_reducible apply canon_toVerdict
    | with_reducible assumption

theorem canon_darkenOthers {s : State} (h : Canon s) : Canon (darkenOthers s) := by
  unfold darkenOthers
  repeat' first
    | (with_reducible apply canon_each); intros
    | with_reducible apply canon_darken
    | split
    | with_reducible assumption

theorem canon_portFails {p : Nat} {s : State} (h : Canon s) : Canon (portFails p s) := by
  unfold portFails
  repeat' first
    | (extract_lets -lift +onlyGivenNames s1; first | (refine canon_cut (v := s1) ?_ ?_ <;> [(unfold s1; clear s1); (intro _; try clear_value s1)]) | (refine canon_cut (v := s1.2) ?_ ?_ <;> [(unfold s1; clear s1); (intro _; try clear_value s1)]) | try clear_value s1)
    | with_reducible apply canon_recordFull
    | with_reducible apply canon_jobFault
    | with_reducible apply canon_sticky
    | split
    | with_reducible assumption

theorem canon_startTraining {p : Nat} {s : State} (h : Canon s) : Canon (startTraining p s) := by
  unfold startTraining
  repeat' first
    | (extract_lets -lift +onlyGivenNames s1; first | (refine canon_cut (v := s1) ?_ ?_ <;> [(unfold s1; clear s1); (intro _; try clear_value s1)]) | (refine canon_cut (v := s1.2) ?_ ?_ <;> [(unfold s1; clear s1); (intro _; try clear_value s1)]) | try clear_value s1)
    | with_reducible apply canon_portDark
    | with_reducible apply canon_setPort
    | split
    | with_reducible exact canon_mk (by assumption)
    | with_reducible assumption

theorem canon_execPortTraining {phys : Fin 48} {s : State} (h : Canon s) : Canon (execPortTraining phys s) := by
  unfold execPortTraining
  repeat' first
    | with_reducible apply canon_startTraining
    | with_reducible assumption

theorem canon_execTrainingRetry {phys : Fin 48} {s : State} (h : Canon s) : Canon (execTrainingRetry phys s) := by
  unfold execTrainingRetry
  repeat' first
    | with_reducible apply canon_startTraining
    | split
    | with_reducible assumption

theorem canon_execDiscRun {_src : Source} {s : State} (h : Canon s) : Canon (execDiscRun _src s) := by
  unfold execDiscRun
  repeat' first
    | (with_reducible apply canon_each); intros
    | with_reducible apply canon_startTraining
    | with_reducible assumption

theorem canon_sendBeacon {p : Nat} {s : State} (h : Canon s) : Canon (sendBeacon p s) := by
  unfold sendBeacon
  repeat' first
    | with_reducible apply canon_emit
    | with_reducible assumption

theorem canon_miswired {p : Nat} {s : State} (h : Canon s) : Canon (miswired p s) := by
  unfold miswired
  repeat' first
    | (extract_lets -lift +onlyGivenNames s1; first | (refine canon_cut (v := s1) ?_ ?_ <;> [(unfold s1; clear s1); (intro _; try clear_value s1)]) | (refine canon_cut (v := s1.2) ?_ ?_ <;> [(unfold s1; clear s1); (intro _; try clear_value s1)]) | try clear_value s1)
    | with_reducible apply canon_sticky
    | with_reducible apply canon_setPortState
    | with_reducible apply canon_recordFull
    | with_reducible assumption

theorem canon_execTrainingStageEnd {phys : Fin 48} {ok : Bool} {s : State} (h : Canon s) : Canon (execTrainingStageEnd phys ok s) := by
  unfold execTrainingStageEnd
  repeat' first
    | (extract_lets -lift +onlyGivenNames s1; first | (refine canon_cut (v := s1) ?_ ?_ <;> [(unfold s1; clear s1); (intro _; try clear_value s1)]) | (refine canon_cut (v := s1.2) ?_ ?_ <;> [(unfold s1; clear s1); (intro _; try clear_value s1)]) | try clear_value s1)
    | with_reducible apply canon_portDark
    | with_reducible apply canon_setPort
    | with_reducible apply canon_setPortState
    | with_reducible apply canon_setFld
    | with_reducible apply canon_sendBeacon
    | with_reducible apply canon_miswired
    | split
    | with_reducible exact canon_mk (by assumption)
    | with_reducible assumption

theorem canon_unlocked {l : Nat} {s : State} (h : Canon s) : Canon (unlocked l s) := by
  unfold unlocked
  repeat' first
    | with_reducible apply canon_jobFaultRec
    | with_reducible apply canon_sticky
    | with_reducible assumption

theorem canon_execBeacon {phys : Fin 48} {flit : List Byte} {s : State} (h : Canon s) : Canon (execBeacon phys flit s) := by
  unfold execBeacon
  repeat' first
    | (extract_lets -lift +onlyGivenNames s1; first | (refine canon_cut (v := s1) ?_ ?_ <;> [(unfold s1; clear s1); (intro _; try clear_value s1)]) | (refine canon_cut (v := s1.2) ?_ ?_ <;> [(unfold s1; clear s1); (intro _; try clear_value s1)]) | try clear_value s1)
    | with_reducible apply canon_setPort
    | with_reducible apply canon_wr
    | with_reducible apply canon_setFld
    | with_reducible apply canon_unlocked
    | with_reducible apply canon_fresh
    | split
    | with_reducible exact canon_mk (by assumption)
    | with_reducible assumption

theorem canon_sendLock {p : Nat} {s : State} (h : Canon s) : Canon (sendLock p s) := by
  unfold sendLock
  repeat' first
    | with_reducible apply canon_emit
    | with_reducible assumption

theorem canon_execBeaconTimer {phys : Fin 48} {s : State} (h : Canon s) : Canon (execBeaconTimer phys s) := by
  unfold execBeaconTimer
  repeat' first
    | (extract_lets -lift +onlyGivenNames s1; first | (refine canon_cut (v := s1) ?_ ?_ <;> [(unfold s1; clear s1); (intro _; try clear_value s1)]) | (refine canon_cut (v := s1.2) ?_ ?_ <;> [(unfold s1; clear s1); (intro _; try clear_value s1)]) | try clear_value s1)
    | with_reducible apply canon_sendLock
    | with_reducible apply canon_sendBeacon
    | split
    | with_reducible assumption

theorem canon_execDim {phys : Fin 48} {s : State} (h : Canon s) : Canon (execDim phys s) := by
  unfold execDim
  repeat' first
    | (extract_lets -lift +onlyGivenNames s1; first | (refine canon_cut (v := s1) ?_ ?_ <;> [(unfold s1; clear s1); (intro _; try clear_value s1)]) | (refine canon_cut (v := s1.2) ?_ ?_ <;> [(unfold s1; clear s1); (intro _; try clear_value s1)]) | try clear_value s1)
    | with_reducible apply canon_portDark
    | with_reducible apply canon_setPort
    | split
    | with_reducible exact canon_mk (by assumption)
    | with_reducible assumption

theorem canon_returnCredit {phys : Option Nat} {s : State} (h : Canon s) : Canon (returnCredit phys s) := by
  unfold returnCredit
  repeat' first
    | with_reducible apply canon_emit
    | split
    | with_reducible assumption

theorem canon_flushStored {p : Nat} {s : State} (h : Canon s) : Canon (flushStored p s) := by
  unfold flushStored
  repeat' first
    | (extract_lets -lift +onlyGivenNames s1; first | (refine canon_cut (v := s1) ?_ ?_ <;> [(unfold s1; clear s1); (intro _; try clear_value s1)]) | (refine canon_cut (v := s1.2) ?_ ?_ <;> [(unfold s1; clear s1); (intro _; try clear_value s1)]) | try clear_value s1)
    | (with_reducible apply canon_each); intros
    | with_reducible apply canon_emit
    | with_reducible apply canon_setPort
    | with_reducible apply canon_returnCredit
    | split
    | with_reducible exact canon_mk (by assumption)
    | with_reducible assumption

theorem canon_execCredit {phys : Fin 48} {n : Fin 65} {s : State} (h : Canon s) : Canon (execCredit phys n s) := by
  unfold execCredit
  repeat' first
    | (extract_lets -lift +onlyGivenNames s1; first | (refine canon_cut (v := s1) ?_ ?_ <;> [(unfold s1; clear s1); (intro _; try clear_value s1)]) | (refine canon_cut (v := s1.2) ?_ ?_ <;> [(unfold s1; clear s1); (intro _; try clear_value s1)]) | try clear_value s1)
    | with_reducible apply canon_flushStored
    | with_reducible apply canon_setPort
    | with_reducible exact canon_mk (by assumption)
    | with_reducible assumption

theorem canon_laneDown {p : Nat} {lane : Nat} {s : State} (h : Canon s) : Canon (laneDown p lane s) := by
  unfold laneDown
  repeat' first
    | with_reducible apply canon_setFld
    | with_reducible assumption

theorem canon_codewordFixed {p : Nat} {lane : Nat} {symbols : Nat} {s : State} (h : Canon s) : Canon (codewordFixed p lane symbols s) := by
  unfold codewordFixed
  repeat' first
    | (extract_lets -lift +onlyGivenNames s1; first | (refine canon_cut (v := s1) ?_ ?_ <;> [(unfold s1; clear s1); (intro _; try clear_value s1)]) | (refine canon_cut (v := s1.2) ?_ ?_ <;> [(unfold s1; clear s1); (intro _; try clear_value s1)]) | try clear_value s1)
    | with_reducible apply canon_bump
    | with_reducible apply canon_riskInput
    | with_reducible apply canon_setFld
    | with_reducible apply canon_setPort
    | split
    | with_reducible exact canon_mk (by assumption)
    | with_reducible assumption

theorem canon_portLost {p : Nat} {s : State} (h : Canon s) : Canon (portLost p s) := by
  unfold portLost
  repeat' first
    | with_reducible apply canon_portFails
    | with_reducible apply canon_portDark
    | with_reducible assumption

theorem canon_spareLost {p : Nat} {s : State} (h : Canon s) : Canon (spareLost p s) := by
  unfold spareLost
  repeat' first
    | (extract_lets -lift +onlyGivenNames s1; first | (refine canon_cut (v := s1) ?_ ?_ <;> [(unfold s1; clear s1); (intro _; try clear_value s1)]) | (refine canon_cut (v := s1.2) ?_ ?_ <;> [(unfold s1; clear s1); (intro _; try clear_value s1)]) | try clear_value s1)
    | with_reducible apply canon_portLost
    | with_reducible apply canon_laneDown
    | with_reducible apply canon_setPort
    | split
    | with_reducible exact canon_mk (by assumption)
    | with_reducible assumption

theorem canon_requestLane {p : Nat} {lane : Nat} {s : State} (h : Canon s) : Canon (requestLane p lane s) := by
  unfold requestLane
  repeat' first
    | (extract_lets -lift +onlyGivenNames s1; first | (refine canon_cut (v := s1) ?_ ?_ <;> [(unfold s1; clear s1); (intro _; try clear_value s1)]) | (refine canon_cut (v := s1.2) ?_ ?_ <;> [(unfold s1; clear s1); (intro _; try clear_value s1)]) | try clear_value s1)
    | with_reducible apply canon_emit
    | with_reducible apply canon_setPort
    | with_reducible exact canon_mk (by assumption)
    | with_reducible assumption

theorem canon_laneLost {p : Nat} {l : Nat} {s : State} (h : Canon s) : Canon (laneLost p l s) := by
  unfold laneLost
  repeat' first
    | (extract_lets -lift +onlyGivenNames s1; first | (refine canon_cut (v := s1) ?_ ?_ <;> [(unfold s1; clear s1); (intro _; try clear_value s1)]) | (refine canon_cut (v := s1.2) ?_ ?_ <;> [(unfold s1; clear s1); (intro _; try clear_value s1)]) | try clear_value s1)
    | with_reducible apply canon_laneDown
    | with_reducible apply canon_portLost
    | with_reducible apply canon_requestLane
    | split
    | with_reducible assumption

theorem canon_execLaneDegraded {phys : Fin 48} {lane : Fin 9} {dark : Bool} {s : State} (h : Canon s) : Canon (execLaneDegraded phys lane dark s) := by
  unfold execLaneDegraded
  repeat' first
    | with_reducible exact canon_mk (by assumption)
    | (extract_lets -lift +onlyGivenNames s1; first | (refine canon_cut (v := s1) ?_ ?_ <;> [(unfold s1; clear s1); (intro _; try clear_value s1)]) | (refine canon_cut (v := s1.2) ?_ ?_ <;> [(unfold s1; clear s1); (intro _; try clear_value s1)]) | try clear_value s1)
    | with_reducible apply canon_spareLost
    | with_reducible apply canon_laneLost
    | with_reducible apply canon_requestLane
    | split
    | with_reducible assumption

theorem canon_execLane {phys : Fin 48} {lane : Fin 9} {count : BitVec 64} {ack : Bool} {s : State} (h : Canon s) : Canon (execLane phys lane count ack s) := by
  unfold execLane
  repeat' first
    | (extract_lets -lift +onlyGivenNames s1; first | (refine canon_cut (v := s1) ?_ ?_ <;> [(unfold s1; clear s1); (intro _; try clear_value s1)]) | (refine canon_cut (v := s1.2) ?_ ?_ <;> [(unfold s1; clear s1); (intro _; try clear_value s1)]) | try clear_value s1)
    | with_reducible apply canon_emit
    | with_reducible apply canon_setPort
    | split
    | with_reducible exact canon_mk (by assumption)
    | with_reducible assumption

theorem canon_toMandrel {n m : Nat} {s : State} (h : Canon s) : Canon (toMandrel n m s) := by
  induction n generalizing s with
  | zero => exact h
  | succ n ih => rw [toMandrel]; split; exacts [h, ih (canon_tickStep h)]

theorem canon_execLaneSwap {phys : Fin 48} {s : State} (h : Canon s) : Canon (execLaneSwap phys s) := by
  unfold execLaneSwap
  repeat' first
    | (extract_lets -lift +onlyGivenNames s1; first | (refine canon_cut (v := s1) ?_ ?_ <;> [(unfold s1; clear s1); (intro _; try clear_value s1)]) | (refine canon_cut (v := s1.2) ?_ ?_ <;> [(unfold s1; clear s1); (intro _; try clear_value s1)]) | try clear_value s1)
    | with_reducible apply canon_sticky
    | with_reducible apply canon_setPort
    | with_reducible apply canon_laneDown
    | with_reducible apply canon_setFld
    | with_reducible apply canon_record
    | split
    | with_reducible exact canon_mk (by assumption)
    | with_reducible apply canon_toMandrel
    | with_reducible assumption

theorem canon_execUncorrectableCodeword {phys : Fin 48} {scheduled : Bool} {parcel : Bool} {s : State} (h : Canon s) : Canon (execUncorrectableCodeword phys scheduled parcel s) := by
  unfold execUncorrectableCodeword
  repeat' first
    | (extract_lets -lift +onlyGivenNames s1; first | (refine canon_cut (v := s1) ?_ ?_ <;> [(unfold s1; clear s1); (intro _; try clear_value s1)]) | (refine canon_cut (v := s1.2) ?_ ?_ <;> [(unfold s1; clear s1); (intro _; try clear_value s1)]) | try clear_value s1)
    | with_reducible apply canon_sticky
    | with_reducible apply canon_bumpFld
    | with_reducible apply canon_taint
    | with_reducible apply canon_setPort
    | with_reducible apply canon_bump
    | split
    | with_reducible exact canon_mk (by assumption)
    | with_reducible assumption

theorem canon_barArrives {l : Nat} {k : Nat} {v : Byte} {s : State} (h : Canon s) : Canon (barArrives l k v s) := by
  unfold barArrives
  repeat' first
    | (extract_lets -lift +onlyGivenNames s1; first | (refine canon_cut (v := s1) ?_ ?_ <;> [(unfold s1; clear s1); (intro _; try clear_value s1)]) | (refine canon_cut (v := s1.2) ?_ ?_ <;> [(unfold s1; clear s1); (intro _; try clear_value s1)]) | try clear_value s1)
    | with_reducible apply canon_commit
    | split
    | with_reducible exact canon_mk (by assumption)
    | with_reducible assumption

theorem canon_execSlotTag {port : Fin 47} {tag : BitVec 24} {overlapped : Bool} {bar : Option Byte} {fixed : List (Fin 9 × Fin 16)} {s : State} (h : Canon s) : Canon (execSlotTag port tag overlapped bar fixed s) := by
  unfold execSlotTag
  repeat' first
    | (extract_lets -lift +onlyGivenNames s1; first | (refine canon_cut (v := s1) ?_ ?_ <;> [(unfold s1; clear s1); (intro _; try clear_value s1)]) | (refine canon_cut (v := s1.2) ?_ ?_ <;> [(unfold s1; clear s1); (intro _; try clear_value s1)]) | try clear_value s1)
    | (with_reducible apply canon_each); intros
    | with_reducible apply canon_codewordFixed
    | with_reducible apply canon_barArrives
    | with_reducible apply canon_launchOrLand
    | with_reducible apply canon_jobFault
    | with_reducible apply canon_sticky
    | split
    | with_reducible exact canon_mk (by assumption)
    | with_reducible assumption

theorem canon_stepTicks {offset : Int} {s : State} (h : Canon s) : Canon (stepTicks offset s) := by
  unfold stepTicks
  repeat' first
    | (extract_lets -lift +onlyGivenNames s1; first | (refine canon_cut (v := s1) ?_ ?_ <;> [(unfold s1; clear s1); (intro _; try clear_value s1)]) | (refine canon_cut (v := s1.2) ?_ ?_ <;> [(unfold s1; clear s1); (intro _; try clear_value s1)]) | try clear_value s1)
    | with_reducible exact canon_mk (by assumption)
    | with_reducible assumption

theorem canon_worksLock {offset : Int} {s : State} (h : Canon s) : Canon (worksLock offset s) := by
  unfold worksLock
  repeat' first
    | with_reducible apply canon_stepTicks
    | split
    | with_reducible assumption

theorem canon_forgeLock {l : Nat} {sent : BitVec 64} {offset : BitVec 16} {s : State} (h : Canon s) : Canon (forgeLock l sent offset s) := by
  unfold forgeLock
  repeat' first
    | (extract_lets -lift +onlyGivenNames s1; first | (refine canon_cut (v := s1) ?_ ?_ <;> [(unfold s1; clear s1); (intro _; try clear_value s1)]) | (refine canon_cut (v := s1.2) ?_ ?_ <;> [(unfold s1; clear s1); (intro _; try clear_value s1)]) | try clear_value s1)
    | with_reducible apply canon_setFld
    | with_reducible apply canon_unlocked
    | with_reducible apply canon_stepTicks
    | split
    | with_reducible exact canon_mk (by assumption)
    | with_reducible assumption

theorem canon_execLock {phys : Fin 48} {sent : BitVec 64} {echo : BitVec 64} {offset : BitVec 16} {s : State} (h : Canon s) : Canon (execLock phys sent echo offset s) := by
  unfold execLock
  repeat' first
    | (extract_lets -lift +onlyGivenNames s1; first | (refine canon_cut (v := s1) ?_ ?_ <;> [(unfold s1; clear s1); (intro _; try clear_value s1)]) | (refine canon_cut (v := s1.2) ?_ ?_ <;> [(unfold s1; clear s1); (intro _; try clear_value s1)]) | try clear_value s1)
    | with_reducible apply canon_setPort
    | with_reducible apply canon_fresh
    | with_reducible apply canon_wr
    | with_reducible apply canon_worksLock
    | with_reducible apply canon_forgeLock
    | split
    | with_reducible exact canon_mk (by assumption)
    | with_reducible assumption

theorem canon_execStretchBoundary {s : State} (h : Canon s) : Canon (execStretchBoundary s) := by
  unfold execStretchBoundary
  repeat' first
    | (extract_lets -lift +onlyGivenNames s1; first | (refine canon_cut (v := s1) ?_ ?_ <;> [(unfold s1; clear s1); (intro _; try clear_value s1)]) | (refine canon_cut (v := s1.2) ?_ ?_ <;> [(unfold s1; clear s1); (intro _; try clear_value s1)]) | try clear_value s1)
    | with_reducible apply canon_runTo
    | with_reducible apply canon_setFld
    | split
    | with_reducible exact canon_mk (by assumption)
    | with_reducible assumption

theorem canon_execStretchHalfway {s : State} (h : Canon s) : Canon (execStretchHalfway s) := by
  unfold execStretchHalfway
  repeat' first
    | (extract_lets -lift +onlyGivenNames s1; first | (refine canon_cut (v := s1) ?_ ?_ <;> [(unfold s1; clear s1); (intro _; try clear_value s1)]) | (refine canon_cut (v := s1.2) ?_ ?_ <;> [(unfold s1; clear s1); (intro _; try clear_value s1)]) | try clear_value s1)
    | with_reducible apply canon_runTo
    | with_reducible exact canon_mk (by assumption)
    | with_reducible assumption

theorem canon_sendHold {release : Option (BitVec 64)} {s : State} (h : Canon s) : Canon (sendHold release s) := by
  unfold sendHold
  repeat' first
    | (extract_lets -lift +onlyGivenNames s1; first | (refine canon_cut (v := s1) ?_ ?_ <;> [(unfold s1; clear s1); (intro _; try clear_value s1)]) | (refine canon_cut (v := s1.2) ?_ ?_ <;> [(unfold s1; clear s1); (intro _; try clear_value s1)]) | try clear_value s1)
    | (with_reducible apply canon_each); intros
    | with_reducible apply canon_emit
    | split
    | with_reducible assumption

theorem canon_tryRelease {s : State} (h : Canon s) : Canon (tryRelease s) := by
  unfold tryRelease
  repeat' first
    | (extract_lets -lift +onlyGivenNames s1; first | (refine canon_cut (v := s1) ?_ ?_ <;> [(unfold s1; clear s1); (intro _; try clear_value s1)]) | (refine canon_cut (v := s1.2) ?_ ?_ <;> [(unfold s1; clear s1); (intro _; try clear_value s1)]) | try clear_value s1)
    | with_reducible apply canon_sendHold
    | split
    | with_reducible exact canon_mk (by assumption)
    | with_reducible assumption

theorem canon_holdChange {change : State → State} {s : State} (h_change : ∀ a0, Canon a0 → Canon (change a0)) (h : Canon s) : Canon (holdChange change s) := by
  unfold holdChange
  repeat' first
    | with_reducible apply h_change
    | (extract_lets -lift +onlyGivenNames s1; first | (refine canon_cut (v := s1) ?_ ?_ <;> [(unfold s1; clear s1); (intro _; try clear_value s1)]) | (refine canon_cut (v := s1.2) ?_ ?_ <;> [(unfold s1; clear s1); (intro _; try clear_value s1)]) | try clear_value s1)
    | with_reducible apply canon_tryRelease
    | with_reducible apply canon_sendHold
    | split
    | with_reducible assumption

theorem canon_updateHold {s : State} (h : Canon s) : Canon (updateHold s) := by
  unfold updateHold
  repeat' first
    | (with_reducible apply canon_holdChange) <;> intros
    | split
    | with_reducible exact canon_mk (by assumption)
    | with_reducible assumption

theorem canon_execMark {forge : Fin 96} {window : BitVec 44} {veto : Byte} {commit : Byte} {freed : List Nat} {s : State} (h : Canon s) : Canon (execMark forge window veto commit freed s) := by
  unfold execMark
  repeat' first
    | (extract_lets -lift +onlyGivenNames s1; first | (refine canon_cut (v := s1) ?_ ?_ <;> [(unfold s1; clear s1); (intro _; try clear_value s1)]) | (refine canon_cut (v := s1.2) ?_ ?_ <;> [(unfold s1; clear s1); (intro _; try clear_value s1)]) | try clear_value s1)
    | with_reducible apply canon_commit
    | (with_reducible apply canon_each); intros
    | with_reducible apply canon_updateHold
    | with_reducible exact canon_mk (by assumption)
    | with_reducible assumption

theorem canon_seamCheck {s : State} (h : Canon s) : Canon (seamCheck s) := by
  unfold seamCheck
  repeat' first
    | (extract_lets -lift +onlyGivenNames s1; first | (refine canon_cut (v := s1) ?_ ?_ <;> [(unfold s1; clear s1); (intro _; try clear_value s1)]) | (refine canon_cut (v := s1.2) ?_ ?_ <;> [(unfold s1; clear s1); (intro _; try clear_value s1)]) | try clear_value s1)
    | (with_reducible apply canon_each); intros
    | with_reducible apply canon_taint
    | with_reducible apply canon_sticky
    | split
    | with_reducible assumption

theorem canon_startHold {window : Nat} {s : State} (h : Canon s) : Canon (startHold window s) :=
  canon_tryRelease (canon_sendHold (canon_mk (canon_record (canon_setFld (canon_bump (canon_sticky (canon_seamCheck h)))))))

theorem canon_execWindowBoundary {s : State} (h : Canon s) : Canon (execWindowBoundary s) :=
  canon_ite (canon_runTo h) (canon_ite (canon_startHold (canon_mk (canon_ite (canon_emit (canon_runTo h)) (canon_runTo h))))
    (canon_mk (canon_ite (canon_emit (canon_runTo h)) (canon_runTo h))))

theorem canon_execHoldFlit {phys : Fin 48} {status : BitVec 2} {fault : Bool} {release : Option (BitVec 64)} {s : State} (h : Canon s) : Canon (execHoldFlit phys status fault release s) := by
  unfold execHoldFlit
  repeat' first
    | (extract_lets -lift +onlyGivenNames s1; first | (refine canon_cut (v := s1) ?_ ?_ <;> [(unfold s1; clear s1); (intro _; try clear_value s1)]) | (refine canon_cut (v := s1.2) ?_ ?_ <;> [(unfold s1; clear s1); (intro _; try clear_value s1)]) | try clear_value s1)
    | with_reducible apply canon_jobFault
    | with_reducible apply canon_sticky
    | (with_reducible apply canon_holdChange) <;> intros
    | with_reducible apply canon_sendHold
    | split
    | with_reducible exact canon_mk (by assumption)
    | with_reducible assumption

theorem canon_execHoldRelease {s : State} (h : Canon s) : Canon (execHoldRelease s) := by
  unfold execHoldRelease
  repeat' first
    | (extract_lets -lift +onlyGivenNames s1; first | (refine canon_cut (v := s1) ?_ ?_ <;> [(unfold s1; clear s1); (intro _; try clear_value s1)]) | (refine canon_cut (v := s1.2) ?_ ?_ <;> [(unfold s1; clear s1); (intro _; try clear_value s1)]) | try clear_value s1)
    | with_reducible apply canon_toMandrel
    | with_reducible apply canon_setFld
    | split
    | with_reducible exact canon_mk (by assumption)
    | with_reducible assumption

theorem canon_dropParcel {s : State} (h : Canon s) : Canon (dropParcel s) := by
  unfold dropParcel
  repeat' first
    | with_reducible apply canon_sticky
    | with_reducible apply canon_bump
    | with_reducible assumption

theorem canon_forwardParcel {from_ : Option Nat} {p : Parcel} {s : State} (h : Canon s) : Canon (forwardParcel from_ p s) := by
  unfold forwardParcel
  repeat' first
    | (extract_lets -lift +onlyGivenNames s1; first | (refine canon_cut (v := s1) ?_ ?_ <;> [(unfold s1; clear s1); (intro _; try clear_value s1)]) | (refine canon_cut (v := s1.2) ?_ ?_ <;> [(unfold s1; clear s1); (intro _; try clear_value s1)]) | try clear_value s1)
    | with_reducible apply canon_returnCredit
    | with_reducible apply canon_dropParcel
    | with_reducible apply canon_flushStored
    | split
    | with_reducible exact canon_mk (by assumption)
    | with_reducible assumption

theorem canon_sendParcelSeq {dst : Nat} {agent : Nat} {seq : Nat} {payload : List Byte} {s : State} (h : Canon s) : Canon (sendParcelSeq dst agent seq payload s) := by
  unfold sendParcelSeq
  repeat' first
    | (extract_lets -lift +onlyGivenNames s1; first | (refine canon_cut (v := s1) ?_ ?_ <;> [(unfold s1; clear s1); (intro _; try clear_value s1)]) | (refine canon_cut (v := s1.2) ?_ ?_ <;> [(unfold s1; clear s1); (intro _; try clear_value s1)]) | try clear_value s1)
    | with_reducible apply canon_forwardParcel
    | with_reducible exact canon_mk (by assumption)
    | with_reducible assumption

theorem canon_sendParcel {dst : Nat} {agent : Nat} {payload : List Byte} {s : State} (h : Canon s) : Canon (sendParcel dst agent payload s) := by
  unfold sendParcel
  repeat' first
    | with_reducible apply canon_sendParcelSeq
    | with_reducible exact canon_mk (by assumption)
    | with_reducible assumption

theorem canon_execParcel {phys : Fin 48} {p : Parcel} {bad : Bool} {s : State} (h : Canon s) : Canon (execParcel phys p bad s) := by
  unfold execParcel
  repeat' first
    | (extract_lets -lift +onlyGivenNames s1; first | (refine canon_cut (v := s1) ?_ ?_ <;> [(unfold s1; clear s1); (intro _; try clear_value s1)]) | (refine canon_cut (v := s1.2) ?_ ?_ <;> [(unfold s1; clear s1); (intro _; try clear_value s1)]) | try clear_value s1)
    | with_reducible apply canon_setPort
    | with_reducible apply canon_returnCredit
    | with_reducible apply canon_dropParcel
    | with_reducible apply canon_forwardParcel
    | split
    | with_reducible exact canon_mk (by assumption)
    | with_reducible assumption

theorem canon_execFabCntClr {_src : Source} {s : State} (h : Canon s) : Canon (execFabCntClr _src s) := by
  unfold execFabCntClr
  repeat' first
    | (extract_lets -lift +onlyGivenNames s1; first | (refine canon_cut (v := s1) ?_ ?_ <;> [(unfold s1; clear s1); (intro _; try clear_value s1)]) | (refine canon_cut (v := s1.2) ?_ ?_ <;> [(unfold s1; clear s1); (intro _; try clear_value s1)]) | try clear_value s1)
    | with_reducible apply canon_wr
    | (with_reducible apply canon_each); intros
    | with_reducible apply canon_setFld
    | with_reducible assumption

theorem canon_sourceRead {die : Nat} {slot : Nat} {c : Nat} {a : Nat} {col : Nat} {s : State} (h : Canon s) : Canon (sourceRead die slot c a col s) := by
  unfold sourceRead
  repeat' first
    | (extract_lets -lift +onlyGivenNames s1; first | (refine canon_cut (v := s1) ?_ ?_ <;> [(unfold s1; clear s1); (intro _; try clear_value s1)]) | (refine canon_cut (v := s1.2) ?_ ?_ <;> [(unfold s1; clear s1); (intro _; try clear_value s1)]) | try clear_value s1)
    | with_reducible apply canon_readSpan
    | split
    | with_reducible assumption

theorem canon_fillRead {die : Nat} {slot : Nat} {s : State} (h : Canon s) : Canon (fillRead die slot s) := by
  unfold fillRead
  repeat' first
    | (extract_lets -lift +onlyGivenNames s1; first | (refine canon_cut (v := s1) ?_ ?_ <;> [(unfold s1; clear s1); (intro _; try clear_value s1)]) | (refine canon_cut (v := s1.2) ?_ ?_ <;> [(unfold s1; clear s1); (intro _; try clear_value s1)]) | try clear_value s1)
    | with_reducible apply canon_sourceRead
    | split
    | with_reducible assumption

theorem canon_fillProgram {die : Nat} {slot : Nat} {due : Nat} {s : State} (h : Canon s) : Canon (fillProgram die slot due s) := by
  unfold fillProgram
  repeat' first
    | (extract_lets -lift +onlyGivenNames s1; first | (refine canon_cut (v := s1) ?_ ?_ <;> [(unfold s1; clear s1); (intro _; try clear_value s1)]) | (refine canon_cut (v := s1.2) ?_ ?_ <;> [(unfold s1; clear s1); (intro _; try clear_value s1)]) | try clear_value s1)
    | with_reducible apply canon_sticky
    | with_reducible apply canon_programBlock
    | with_reducible apply canon_fillRead
    | with_reducible apply canon_launch
    | with_reducible apply canon_fillVerdict
    | with_reducible apply canon_setFill
    | split
    | with_reducible exact canon_mk (by assumption)
    | with_reducible assumption

theorem canon_overdueCheck {die : Nat} {cell : Nat} {a : Nat} {s : State} (h : Canon s) : Canon (overdueCheck die cell a s) := by
  unfold overdueCheck
  repeat' first
    | (extract_lets -lift +onlyGivenNames s1; first | (refine canon_cut (v := s1) ?_ ?_ <;> [(unfold s1; clear s1); (intro _; try clear_value s1)]) | (refine canon_cut (v := s1.2) ?_ ?_ <;> [(unfold s1; clear s1); (intro _; try clear_value s1)]) | try clear_value s1)
    | with_reducible apply canon_sticky
    | with_reducible apply canon_calLast
    | with_reducible apply canon_record
    | with_reducible apply canon_setArr
    | split
    | with_reducible exact canon_mk (by assumption)
    | with_reducible assumption

theorem canon_rejectColumn {die : Nat} {cell : Nat} {a : Nat} {col : Nat} {kind : Nat} {s : State} (h : Canon s) : Canon (rejectColumn die cell a col kind s) := by
  unfold rejectColumn
  repeat' first
    | (extract_lets -lift +onlyGivenNames s1; first | (refine canon_cut (v := s1) ?_ ?_ <;> [(unfold s1; clear s1); (intro _; try clear_value s1)]) | (refine canon_cut (v := s1.2) ?_ ?_ <;> [(unfold s1; clear s1); (intro _; try clear_value s1)]) | try clear_value s1)
    | with_reducible apply canon_sticky
    | with_reducible apply canon_calLast
    | with_reducible apply canon_recordOf
    | with_reducible apply canon_brazeColumn
    | with_reducible assumption

theorem canon_recalibrate {die : Nat} {cell : Nat} {a : Nat} {s : State} (h : Canon s) : Canon (recalibrate die cell a s) := by
  unfold recalibrate
  repeat' first
    | (extract_lets -lift +onlyGivenNames s1; first | (refine canon_cut (v := s1) ?_ ?_ <;> [(unfold s1; clear s1); (intro _; try clear_value s1)]) | (refine canon_cut (v := s1.2) ?_ ?_ <;> [(unfold s1; clear s1); (intro _; try clear_value s1)]) | try clear_value s1)
    | with_reducible apply canon_phasesRun
    | with_reducible apply canon_useFree
    | with_reducible apply canon_assayFail
    | with_reducible apply canon_setArr
    | with_reducible apply canon_launch
    | (with_reducible apply canon_each); intros
    | with_reducible apply canon_rejectColumn
    | split
    | with_reducible exact canon_mk (by assumption)
    | with_reducible assumption

theorem canon_assayAct {w : Slot} {s : State} (h : Canon s) : Canon (assayAct w s) := by
  unfold assayAct
  repeat' first
    | (extract_lets -lift +onlyGivenNames s1; first | (refine canon_cut (v := s1) ?_ ?_ <;> [(unfold s1; clear s1); (intro _; try clear_value s1)]) | (refine canon_cut (v := s1.2) ?_ ?_ <;> [(unfold s1; clear s1); (intro _; try clear_value s1)]) | try clear_value s1)
    | (with_reducible apply canon_claimArray) <;> intros
    | with_reducible apply canon_overdueCheck
    | with_reducible apply canon_sticky
    | with_reducible apply canon_recalibrate
    | with_reducible apply canon_fillProgram
    | split
    | with_reducible exact canon_mk (by assumption)
    | with_reducible assumption

theorem canon_execAssay {w : Slot} {s : State} (h : Canon s) : Canon (execAssay w s) := by
  unfold execAssay
  repeat' first
    | (with_reducible apply canon_issue) <;> intros
    | with_reducible apply canon_assayAct
    | with_reducible assumption

theorem canon_execTrimSetInForce {die : Fin 4} {cell : Fin 256} {array : Fin 64} {s : State} (h : Canon s) : Canon (execTrimSetInForce die cell array s) := by
  unfold execTrimSetInForce
  repeat' first
    | (extract_lets -lift +onlyGivenNames s1; first | (refine canon_cut (v := s1) ?_ ?_ <;> [(unfold s1; clear s1); (intro _; try clear_value s1)]) | (refine canon_cut (v := s1.2) ?_ ?_ <;> [(unfold s1; clear s1); (intro _; try clear_value s1)]) | try clear_value s1)
    | with_reducible apply canon_runTo
    | split
    | with_reducible assumption

theorem canon_execSliceHandoff {die : Fin 4} {cell : Fin 256} {array : Fin 64} {passed : Bool} {s : State} (h : Canon s) : Canon (execSliceHandoff die cell array passed s) := by
  unfold execSliceHandoff
  repeat' first
    | (extract_lets -lift +onlyGivenNames s1; first | (refine canon_cut (v := s1) ?_ ?_ <;> [(unfold s1; clear s1); (intro _; try clear_value s1)]) | (refine canon_cut (v := s1.2) ?_ ?_ <;> [(unfold s1; clear s1); (intro _; try clear_value s1)]) | try clear_value s1)
    | with_reducible apply canon_launch
    | with_reducible apply canon_applyHandoff
    | split
    | with_reducible assumption

theorem canon_sweepBoundary {s : State} (h : Canon s) : Canon (sweepBoundary s) := by
  unfold sweepBoundary
  repeat' first
    | (extract_lets -lift +onlyGivenNames s1; first | (refine canon_cut (v := s1) ?_ ?_ <;> [(unfold s1; clear s1); (intro _; try clear_value s1)]) | (refine canon_cut (v := s1.2) ?_ ?_ <;> [(unfold s1; clear s1); (intro _; try clear_value s1)]) | try clear_value s1)
    | (with_reducible apply canon_each); intros
    | with_reducible apply canon_sticky
    | with_reducible apply canon_calLast
    | with_reducible apply canon_record
    | split
    | with_reducible assumption

theorem canon_calForce {s : State} (h : Canon s) : Canon (calForce s) := by
  unfold calForce
  repeat' first
    | with_reducible exact canon_mk (by assumption)
    | with_reducible assumption

theorem canon_calTrimWrite {v : Nat} {s : State} (h : Canon s) : Canon (calTrimWrite v s) := by
  unfold calTrimWrite
  repeat' first
    | (extract_lets -lift +onlyGivenNames s1; first | (refine canon_cut (v := s1) ?_ ?_ <;> [(unfold s1; clear s1); (intro _; try clear_value s1)]) | (refine canon_cut (v := s1.2) ?_ ?_ <;> [(unfold s1; clear s1); (intro _; try clear_value s1)]) | try clear_value s1)
    | with_reducible apply canon_keepTrims
    | with_reducible apply canon_setArr
    | with_reducible apply canon_setTrim
    | split
    | with_reducible exact canon_mk (by assumption)
    | with_reducible assumption

theorem canon_linkTablesCheck {s : State} (h : Canon s) : Canon (linkTablesCheck s) := by
  unfold linkTablesCheck
  repeat' first
    | with_reducible apply canon_sticky
    | with_reducible apply canon_launch
    | split
    | with_reducible assumption

theorem canon_linkClaim {i : Nat} {ks : List Nat} {s : State} (h : Canon s) : Canon (linkClaim i ks s) := by
  unfold linkClaim
  repeat' first
    | with_reducible exact canon_mk (by assumption)
    | with_reducible assumption

theorem canon_claimLink {l : List (Nat × Nat × Nat)} {w : Slot} {body : State → State} {s : State} (h_body : ∀ a0, Canon a0 → Canon (body a0)) (h : Canon s) : Canon (claimLink l w body s) := by
  unfold claimLink
  repeat' first
    | with_reducible apply h_body
    | with_reducible apply canon_wordViol
    | (with_reducible apply canon_each); intros
    | with_reducible apply canon_linkClaim
    | split
    | with_reducible assumption

theorem canon_setWorksCredit {r : Nat} {v : Nat} {s : State} (h : Canon s) : Canon (setWorksCredit r v s) := by
  unfold setWorksCredit
  repeat' first
    | (extract_lets -lift +onlyGivenNames s1; first | (refine canon_cut (v := s1) ?_ ?_ <;> [(unfold s1; clear s1); (intro _; try clear_value s1)]) | (refine canon_cut (v := s1.2) ?_ ?_ <;> [(unfold s1; clear s1); (intro _; try clear_value s1)]) | try clear_value s1)
    | with_reducible exact canon_mk (by assumption)
    | with_reducible assumption

theorem canon_sendAct {w : Slot} {s : State} (h : Canon s) : Canon (sendAct w s) := by
  unfold sendAct
  repeat' first
    | (extract_lets -lift +onlyGivenNames s1; first | (refine canon_cut (v := s1) ?_ ?_ <;> [(unfold s1; clear s1); (intro _; try clear_value s1)]) | (refine canon_cut (v := s1.2) ?_ ?_ <;> [(unfold s1; clear s1); (intro _; try clear_value s1)]) | try clear_value s1)
    | (with_reducible apply canon_claimLink) <;> intros
    | with_reducible apply canon_setWorksCredit
    | with_reducible apply canon_wordViol
    | (with_reducible apply canon_each); intros
    | with_reducible apply canon_launchOrLand
    | split
    | with_reducible assumption

theorem canon_execSend {w : Slot} {s : State} (h : Canon s) : Canon (execSend w s) := by
  unfold execSend
  repeat' first
    | (with_reducible apply canon_issue) <;> intros
    | with_reducible apply canon_sendAct
    | with_reducible assumption

theorem canon_ringArrival {die : Nat} {c : Nat} {a : Nat} {n : Nat} {works : Bool} {w : Slot} {s : State} (h : Canon s) : Canon (ringArrival die c a n works w s) := by
  unfold ringArrival
  repeat' first
    | with_reducible apply canon_ringAdd
    | with_reducible apply canon_wordViol
    | split
    | with_reducible assumption

theorem canon_rxEmpty {port : Nat} {s : State} (h : Canon s) : Canon (rxEmpty port s) := by
  unfold rxEmpty
  repeat' first
    | with_reducible exact canon_mk (by assumption)
    | with_reducible assumption

theorem canon_rxRead1 {port : Nat} {i : Nat} {due : Nat} {c : Option Nat} {s : State} (h : Canon s) : Canon (rxRead1 port i due c s) := by
  unfold rxRead1
  repeat' first
    | with_reducible apply canon_launchOrLand
    | with_reducible apply canon_rxRead
    | split
    | with_reducible assumption

theorem canon_recvAct {w : Slot} {flits : List (Option (List Byte))} {s : State} (h : Canon s) : Canon (recvAct w flits s) := by
  unfold recvAct
  repeat' first
    | (extract_lets -lift +onlyGivenNames s1; first | (refine canon_cut (v := s1) ?_ ?_ <;> [(unfold s1; clear s1); (intro _; try clear_value s1)]) | (refine canon_cut (v := s1.2) ?_ ?_ <;> [(unfold s1; clear s1); (intro _; try clear_value s1)]) | try clear_value s1)
    | (with_reducible apply canon_claimLink) <;> intros
    | with_reducible apply canon_wordViol
    | with_reducible apply canon_ringArrival
    | with_reducible apply canon_rxEmpty
    | (with_reducible apply canon_each); intros
    | with_reducible apply canon_rxRead1
    | with_reducible apply canon_launch
    | split
    | with_reducible assumption

theorem canon_execRecv {w : Slot} {flits : List (Option (List Byte))} {s : State} (h : Canon s) : Canon (execRecv w flits s) := by
  unfold execRecv
  repeat' first
    | (with_reducible apply canon_issue) <;> intros
    | with_reducible apply canon_recvAct
    | with_reducible assumption

theorem canon_relayAct {w : Slot} {flits : List (Option (List Byte))} {s : State} (h : Canon s) : Canon (relayAct w flits s) := by
  unfold relayAct
  repeat' first
    | (extract_lets -lift +onlyGivenNames s1; first | (refine canon_cut (v := s1) ?_ ?_ <;> [(unfold s1; clear s1); (intro _; try clear_value s1)]) | (refine canon_cut (v := s1.2) ?_ ?_ <;> [(unfold s1; clear s1); (intro _; try clear_value s1)]) | try clear_value s1)
    | (with_reducible apply canon_claimLink) <;> intros
    | (with_reducible apply canon_each); intros
    | with_reducible apply canon_launchOrLand
    | with_reducible apply canon_rxEmpty
    | with_reducible apply canon_rxRead1
    | split
    | with_reducible assumption

theorem canon_execRelay {w : Slot} {flits : List (Option (List Byte))} {s : State} (h : Canon s) : Canon (execRelay w flits s) := by
  unfold execRelay
  repeat' first
    | (with_reducible apply canon_issue) <;> intros
    | with_reducible apply canon_relayAct
    | with_reducible assumption

theorem canon_barrierIssue {commit : Bool} {level : Nat} {s : State} (h : Canon s) : Canon (barrierIssue commit level s) := by
  unfold barrierIssue
  repeat' first
    | (extract_lets -lift +onlyGivenNames s1; first | (refine canon_cut (v := s1) ?_ ?_ <;> [(unfold s1; clear s1); (intro _; try clear_value s1)]) | (refine canon_cut (v := s1.2) ?_ ?_ <;> [(unfold s1; clear s1); (intro _; try clear_value s1)]) | try clear_value s1)
    | with_reducible apply canon_commit
    | with_reducible apply canon_gatherArrays
    | with_reducible apply canon_launch
    | with_reducible apply canon_setFld
    | split
    | with_reducible exact canon_mk (by assumption)
    | with_reducible assumption

theorem canon_barrierAct {w : Slot} {s : State} (h : Canon s) : Canon (barrierAct w s) := by
  unfold barrierAct
  repeat' first
    | (extract_lets -lift +onlyGivenNames s1; first | (refine canon_cut (v := s1) ?_ ?_ <;> [(unfold s1; clear s1); (intro _; try clear_value s1)]) | (refine canon_cut (v := s1.2) ?_ ?_ <;> [(unfold s1; clear s1); (intro _; try clear_value s1)]) | try clear_value s1)
    | with_reducible apply canon_commit
    | with_reducible apply canon_wordViol
    | (with_reducible apply canon_claimLink) <;> intros
    | with_reducible apply canon_barrierIssue
    | split
    | with_reducible assumption

theorem canon_execBarrier {w : Slot} {s : State} (h : Canon s) : Canon (execBarrier w s) := by
  unfold execBarrier
  repeat' first
    | (with_reducible apply canon_issue) <;> intros
    | with_reducible apply canon_barrierAct
    | with_reducible assumption

end Sys2Proof.Machine
end

