-- ==== Sys2Proof/Laws/CanonSystem.lean ====
section
/-! SUPPORT. The canonical form of the memories under the host attachment, ingots, castings, power, boot, registers and management. -/
set_option Elab.async false
set_option linter.tactic.unusedName false
set_option linter.unreachableTactic false
set_option linter.unusedTactic false
namespace Sys2Proof.Machine

theorem cellCanon_castingClears {x : Cell} (h : CellCanon x) : CellCanon (castingClears x) :=
  { h with acc := rfl, side := rfl, tiles := rfl, ecc := by { unfold castingClears; dsimp only; exact wf_forget h.ecc }, tables := rfl, tableBusy := rfl, ringBytes := rfl }

theorem canon_setCtx {q : Nat} {i : Nat} {hi : Nat} {lo : Nat} {v : Nat} {s : State} (h : Canon s) : Canon (setCtx q i hi lo v s) := by
  unfold setCtx
  repeat' first
    | with_reducible apply canon_setFld
    | with_reducible assumption

theorem canon_hostStageFail {s : State} (h : Canon s) : Canon (hostStageFail s) := by
  unfold hostStageFail
  repeat' first
    | with_reducible apply canon_sticky
    | with_reducible apply canon_setFld
    | split
    | with_reducible exact canon_mk (by assumption)
    | with_reducible assumption

theorem canon_qpError {q : Nat} {syndrome : Nat} {s : State} (h : Canon s) : Canon (qpError q syndrome s) := by
  unfold qpError
  repeat' first
    | (extract_lets -lift +onlyGivenNames s1; first | (refine canon_cut (v := s1) ?_ ?_ <;> [(unfold s1; clear s1); (intro _; try clear_value s1)]) | (refine canon_cut (v := s1.2) ?_ ?_ <;> [(unfold s1; clear s1); (intro _; try clear_value s1)]) | try clear_value s1)
    | with_reducible apply canon_event
    | with_reducible apply canon_bumpFld
    | with_reducible apply canon_wr
    | with_reducible apply canon_sticky
    | with_reducible apply canon_setCtx
    | with_reducible apply canon_setQp
    | with_reducible apply canon_hostStageFail
    | split
    | with_reducible assumption

theorem canon_sendNak {q : Nat} {psn : BitVec 24} {syndrome : Nat} {s : State} (h : Canon s) : Canon (sendNak q psn syndrome s) := by
  unfold sendNak
  repeat' first
    | with_reducible apply canon_emitPacket
    | with_reducible apply canon_bump
    | with_reducible assumption

theorem canon_nakError {q : Nat} {psn : BitVec 24} {syndrome : Nat} {s : State} (h : Canon s) : Canon (nakError q psn syndrome s) := by
  unfold nakError
  repeat' first
    | with_reducible apply canon_qpError
    | with_reducible apply canon_sendNak
    | with_reducible assumption

theorem canon_sendAck {q : Nat} {s : State} (h : Canon s) : Canon (sendAck q s) := by
  unfold sendAck
  repeat' first
    | (extract_lets -lift +onlyGivenNames s1; first | (refine canon_cut (v := s1) ?_ ?_ <;> [(unfold s1; clear s1); (intro _; try clear_value s1)]) | (refine canon_cut (v := s1.2) ?_ ?_ <;> [(unfold s1; clear s1); (intro _; try clear_value s1)]) | try clear_value s1)
    | with_reducible apply canon_emitPacket
    | with_reducible apply canon_setQp
    | split
    | with_reducible exact canon_mk (by assumption)
    | with_reducible assumption

theorem canon_oweAck {q : Nat} {n : Nat} {s : State} (h : Canon s) : Canon (oweAck q n s) := by
  unfold oweAck
  repeat' first
    | (extract_lets -lift +onlyGivenNames s1; first | (refine canon_cut (v := s1) ?_ ?_ <;> [(unfold s1; clear s1); (intro _; try clear_value s1)]) | (refine canon_cut (v := s1.2) ?_ ?_ <;> [(unfold s1; clear s1); (intro _; try clear_value s1)]) | try clear_value s1)
    | with_reducible apply canon_setQp
    | with_reducible apply canon_sendAck
    | split
    | with_reducible exact canon_mk (by assumption)
    | with_reducible assumption

theorem canon_sendMessage {q : Nat} {write : Bool} {va : Nat} {rkey : Nat} {data : List Byte} {s : State} (h : Canon s) : Canon (sendMessage q write va rkey data s) := by
  unfold sendMessage
  repeat' first
    | (extract_lets -lift +onlyGivenNames s1; first | (refine canon_cut (v := s1) ?_ ?_ <;> [(unfold s1; clear s1); (intro _; try clear_value s1)]) | (refine canon_cut (v := s1.2) ?_ ?_ <;> [(unfold s1; clear s1); (intro _; try clear_value s1)]) | try clear_value s1)
    | (with_reducible apply canon_each); intros
    | with_reducible apply canon_sendPacket
    | with_reducible assumption

theorem canon_resend {q : Nat} {s : State} (h : Canon s) : Canon (resend q s) := by
  unfold resend
  repeat' first
    | (with_reducible apply canon_each); intros
    | with_reducible apply canon_emitPkt
    | with_reducible apply canon_setQp
    | with_reducible exact canon_mk (by assumption)
    | with_reducible assumption

theorem canon_qpReset {q : Nat} {s : State} (h : Canon s) : Canon (qpReset q s) := by
  unfold qpReset
  repeat' first
    | with_reducible apply canon_setCtx
    | with_reducible apply canon_setQp
    | with_reducible assumption

theorem canon_ctxWrite {i : Nat} {v : Nat} {s : State} (h : Canon s) : Canon (ctxWrite i v s) := by
  unfold ctxWrite
  repeat' first
    | (extract_lets -lift +onlyGivenNames s1; first | (refine canon_cut (v := s1) ?_ ?_ <;> [(unfold s1; clear s1); (intro _; try clear_value s1)]) | (refine canon_cut (v := s1.2) ?_ ?_ <;> [(unfold s1; clear s1); (intro _; try clear_value s1)]) | try clear_value s1)
    | with_reducible apply canon_wr
    | with_reducible apply canon_qpReset
    | split
    | with_reducible assumption

theorem canon_mboxPut {slot : Nat} {b : List Byte} {s : State} (h : Canon s) : Canon (mboxPut slot b s) := by
  unfold mboxPut
  repeat' first
    | (with_reducible apply canon_each); intros
    | with_reducible apply canon_wr
    | with_reducible assumption

theorem canon_advanceCons {n : Nat} {s : State} (h : Canon s) : Canon (advanceCons n s) := by
  induction n generalizing s with
  | zero => exact h
  | succ n ih => exact canon_ite (ih (canon_wr (canon_mk h))) h

theorem canon_finishEntry {k : Nat} {status : Nat} {s : State} (h : Canon s) : Canon (finishEntry k status s) := by
  unfold finishEntry
  repeat' first
    | with_reducible apply canon_advanceCons
    | (extract_lets -lift +onlyGivenNames s1; first | (refine canon_cut (v := s1) ?_ ?_ <;> [(unfold s1; clear s1); (intro _; try clear_value s1)]) | (refine canon_cut (v := s1.2) ?_ ?_ <;> [(unfold s1; clear s1); (intro _; try clear_value s1)]) | try clear_value s1)
    | with_reducible apply canon_setFld
    | with_reducible apply canon_advanceCons
    | with_reducible apply canon_sendMessage
    | split
    | with_reducible exact canon_mk (by assumption)
    | with_reducible assumption

theorem canon_applySreg {b : List Byte} {s : State} (h : Canon s) : Canon (applySreg b s) := by
  unfold applySreg
  repeat' first
    | (with_reducible apply canon_each); intros
    | with_reducible apply canon_setSreg
    | with_reducible assumption

theorem canon_servedSreg {b : List Byte} {s : State} (h : Canon s) : Canon (servedSreg b s) := by
  unfold servedSreg
  repeat' first
    | (with_reducible apply canon_each); intros
    | with_reducible apply canon_launch
    | with_reducible assumption

theorem canon_serveEntry {p : Nat → Bool} {f : Nat → List Byte → State → State} {s : State} (h_f : ∀ a0 a1 a2, Canon a2 → Canon (f a0 a1 a2)) (h : Canon s) : Canon (serveEntry p f s) := by
  unfold serveEntry
  repeat' first
    | with_reducible apply h_f
    | (extract_lets -lift +onlyGivenNames s1; first | (refine canon_cut (v := s1) ?_ ?_ <;> [(unfold s1; clear s1); (intro _; try clear_value s1)]) | (refine canon_cut (v := s1.2) ?_ ?_ <;> [(unfold s1; clear s1); (intro _; try clear_value s1)]) | try clear_value s1)
    | split
    | with_reducible exact canon_mk (by assumption)
    | with_reducible assumption

theorem canon_execNop {s : State} (h : Canon s) : Canon (execNop s) := by
  unfold execNop
  repeat' first
    | (with_reducible apply canon_serveEntry) <;> intros
    | with_reducible apply canon_finishEntry
    | split
    | with_reducible assumption

theorem canon_execSregWrite {s : State} (h : Canon s) : Canon (execSregWrite s) := by
  unfold execSregWrite
  repeat' first
    | (with_reducible apply canon_serveEntry) <;> intros
    | with_reducible apply canon_finishEntry
    | with_reducible apply canon_servedSreg
    | split
    | with_reducible exact canon_mk (by assumption)
    | with_reducible assumption

theorem canon_execSregRead {s : State} (h : Canon s) : Canon (execSregRead s) := by
  unfold execSregRead
  repeat' first
    | (extract_lets -lift +onlyGivenNames s1; first | (refine canon_cut (v := s1) ?_ ?_ <;> [(unfold s1; clear s1); (intro _; try clear_value s1)]) | (refine canon_cut (v := s1.2) ?_ ?_ <;> [(unfold s1; clear s1); (intro _; try clear_value s1)]) | try clear_value s1)
    | (with_reducible apply canon_serveEntry) <;> intros
    | with_reducible apply canon_finishEntry
    | with_reducible apply canon_setFld
    | split
    | with_reducible assumption

theorem canon_applyWaiting {rng : Nat} {comps : List Nat} {s : State} (h : Canon s) : Canon (applyWaiting rng comps s) := by
  unfold applyWaiting
  repeat' first
    | (extract_lets -lift +onlyGivenNames s1; first | (refine canon_cut (v := s1) ?_ ?_ <;> [(unfold s1; clear s1); (intro _; try clear_value s1)]) | (refine canon_cut (v := s1.2) ?_ ?_ <;> [(unfold s1; clear s1); (intro _; try clear_value s1)]) | try clear_value s1)
    | (with_reducible apply canon_each); intros
    | with_reducible apply canon_finishEntry
    | with_reducible apply canon_applySreg
    | split
    | with_reducible exact canon_mk (by assumption)
    | with_reducible assumption

theorem canon_failEntries {s : State} (h : Canon s) : Canon (failEntries s) := by
  unfold failEntries
  repeat' first
    | (extract_lets -lift +onlyGivenNames s1; first | (refine canon_cut (v := s1) ?_ ?_ <;> [(unfold s1; clear s1); (intro _; try clear_value s1)]) | (refine canon_cut (v := s1.2) ?_ ?_ <;> [(unfold s1; clear s1); (intro _; try clear_value s1)]) | try clear_value s1)
    | (with_reducible apply canon_each); intros
    | with_reducible apply canon_finishEntry
    | with_reducible exact canon_mk (by assumption)
    | with_reducible assumption

theorem canon_execHstCntClr {_src : Source} {s : State} (h : Canon s) : Canon (execHstCntClr _src s) := by
  unfold execHstCntClr
  repeat' first
    | (with_reducible apply canon_each); intros
    | with_reducible apply canon_wr
    | with_reducible assumption

theorem canon_ownerClear {s : State} (h : Canon s) : Canon (ownerClear s) := by
  unfold ownerClear
  repeat' first
    | with_reducible exact canon_regs (wf_forget (Canon.regs (by assumption))) (by assumption)
    | (extract_lets -lift +onlyGivenNames s1; first | (refine canon_cut (v := s1) ?_ ?_ <;> [(unfold s1; clear s1); (intro _; try clear_value s1)]) | (refine canon_cut (v := s1.2) ?_ ?_ <;> [(unfold s1; clear s1); (intro _; try clear_value s1)]) | try clear_value s1)
    | (with_reducible apply canon_each); intros
    | with_reducible apply canon_qpReset
    | with_reducible apply canon_setFld
    | with_reducible apply canon_hostStageFail
    | with_reducible apply canon_wr
    | with_reducible exact canon_mk (by assumption)
    | with_reducible assumption

theorem canon_setStage {v : Nat} {s : State} (h : Canon s) : Canon (setStage v s) := by
  unfold setStage
  repeat' first
    | with_reducible apply canon_setFld
    | with_reducible assumption

theorem canon_ingotRecord {s : State} (h : Canon s) : Canon (ingotRecord s) := by
  unfold ingotRecord
  repeat' first
    | with_reducible apply canon_record
    | with_reducible assumption

theorem canon_writeSpan {a : Nat} {data : List Byte} {s : State} (h : Canon s) : Canon (writeSpan a data s) := by
  unfold writeSpan
  repeat' first
    | with_reducible exact canon_marks (wf_forget (Canon.marks (by assumption))) (by assumption)
    | with_reducible apply canon_asyncWrite
    | with_reducible assumption

theorem canon_sendTakes {dsts : List Nat} {target : Nat} {s : State} (h : Canon s) : Canon (sendTakes dsts target s) := by
  unfold sendTakes
  repeat' first
    | (extract_lets -lift +onlyGivenNames s1; first | (refine canon_cut (v := s1) ?_ ?_ <;> [(unfold s1; clear s1); (intro _; try clear_value s1)]) | (refine canon_cut (v := s1.2) ?_ ?_ <;> [(unfold s1; clear s1); (intro _; try clear_value s1)]) | try clear_value s1)
    | (with_reducible apply canon_each); intros
    | with_reducible apply canon_sendParcel
    | with_reducible exact canon_mk (by assumption)
    | with_reducible assumption

theorem canon_acceptTake {src : Nat} {target : Nat} {s : State} (h : Canon s) : Canon (acceptTake src target s) := by
  unfold acceptTake
  repeat' first
    | (extract_lets -lift +onlyGivenNames s1; first | (refine canon_cut (v := s1) ?_ ?_ <;> [(unfold s1; clear s1); (intro _; try clear_value s1)]) | (refine canon_cut (v := s1.2) ?_ ?_ <;> [(unfold s1; clear s1); (intro _; try clear_value s1)]) | try clear_value s1)
    | with_reducible apply canon_sendTakes
    | with_reducible apply canon_ingotRecord
    | with_reducible apply canon_sticky
    | with_reducible apply canon_wr
    | with_reducible apply canon_setStage
    | split
    | with_reducible exact canon_mk (by assumption)
    | with_reducible assumption

theorem canon_wardenCall {s : State} (h : Canon s) : Canon (wardenCall s) := by
  unfold wardenCall
  repeat' first
    | (extract_lets -lift +onlyGivenNames s1; first | (refine canon_cut (v := s1) ?_ ?_ <;> [(unfold s1; clear s1); (intro _; try clear_value s1)]) | (refine canon_cut (v := s1.2) ?_ ?_ <;> [(unfold s1; clear s1); (intro _; try clear_value s1)]) | try clear_value s1)
    | with_reducible apply canon_acceptTake
    | split
    | with_reducible exact canon_mk (by assumption)
    | with_reducible assumption

theorem canon_sendCall {cause : Nat} {s : State} (h : Canon s) : Canon (sendCall cause s) := by
  unfold sendCall
  repeat' first
    | with_reducible apply canon_wardenCall
    | with_reducible apply canon_sendParcel
    | split
    | with_reducible assumption

theorem canon_callIngot {reason : Nat} {s : State} (h : Canon s) : Canon (callIngot reason s) := by
  unfold callIngot
  repeat' first
    | (extract_lets -lift +onlyGivenNames s1; first | (refine canon_cut (v := s1) ?_ ?_ <;> [(unfold s1; clear s1); (intro _; try clear_value s1)]) | (refine canon_cut (v := s1.2) ?_ ?_ <;> [(unfold s1; clear s1); (intro _; try clear_value s1)]) | try clear_value s1)
    | with_reducible apply canon_sendCall
    | with_reducible apply canon_setFld
    | split
    | with_reducible exact canon_mk (by assumption)
    | with_reducible assumption

theorem canon_execCall {_p : Parcel} {s : State} (h : Canon s) : Canon (execCall _p s) := by
  unfold execCall
  repeat' first
    | with_reducible apply canon_wardenCall
    | with_reducible assumption

theorem canon_execTake {p : Parcel} {s : State} (h : Canon s) : Canon (execTake p s) := by
  unfold execTake
  repeat' first
    | with_reducible apply canon_acceptTake
    | split
    | with_reducible assumption

theorem canon_execIngotAgeCall {s : State} (h : Canon s) : Canon (execIngotAgeCall s) := by
  unfold execIngotAgeCall
  repeat' first
    | with_reducible apply canon_callIngot
    | split
    | with_reducible assumption

theorem canon_execIngotOverdue {s : State} (h : Canon s) : Canon (execIngotOverdue s) := by
  unfold execIngotOverdue
  repeat' first
    | with_reducible apply canon_ingotRecord
    | with_reducible apply canon_sticky
    | split
    | with_reducible exact canon_mk (by assumption)
    | with_reducible assumption

theorem canon_execCallRepeat {s : State} (h : Canon s) : Canon (execCallRepeat s) := by
  unfold execCallRepeat
  repeat' first
    | (extract_lets -lift +onlyGivenNames s1; first | (refine canon_cut (v := s1) ?_ ?_ <;> [(unfold s1; clear s1); (intro _; try clear_value s1)]) | (refine canon_cut (v := s1.2) ?_ ?_ <;> [(unfold s1; clear s1); (intro _; try clear_value s1)]) | try clear_value s1)
    | (with_reducible apply canon_each); intros
    | with_reducible apply canon_sendCall
    | split
    | with_reducible assumption

theorem canon_execTakeRepeat {s : State} (h : Canon s) : Canon (execTakeRepeat s) := by
  unfold execTakeRepeat
  repeat' first
    | (with_reducible apply canon_each); intros
    | with_reducible apply canon_sendParcel
    | split
    | with_reducible exact canon_mk (by assumption)
    | with_reducible assumption

theorem canon_execIngCall {_src : Source} {s : State} (h : Canon s) : Canon (execIngCall _src s) := by
  unfold execIngCall
  repeat' first
    | with_reducible apply canon_callIngot
    | with_reducible assumption

theorem canon_abandon {s : State} (h : Canon s) : Canon (abandon s) := by
  unfold abandon
  repeat' first
    | with_reducible apply canon_ingotRecord
    | with_reducible apply canon_setStage
    | with_reducible apply canon_sticky
    | with_reducible assumption

theorem canon_takeHook {recorded : Bool} {s : State} (h : Canon s) : Canon (takeHook recorded s) := by
  unfold takeHook
  repeat' first
    | (extract_lets -lift +onlyGivenNames s1; first | (refine canon_cut (v := s1) ?_ ?_ <;> [(unfold s1; clear s1); (intro _; try clear_value s1)]) | (refine canon_cut (v := s1.2) ?_ ?_ <;> [(unfold s1; clear s1); (intro _; try clear_value s1)]) | try clear_value s1)
    | with_reducible apply canon_sticky
    | with_reducible apply canon_wr
    | with_reducible apply canon_setFld
    | with_reducible apply canon_setStage
    | with_reducible apply canon_abandon
    | split
    | with_reducible exact canon_mk (by assumption)
    | with_reducible assumption

theorem canon_vetoHook {s : State} (h : Canon s) : Canon (vetoHook s) := by
  unfold vetoHook
  repeat' first
    | with_reducible apply canon_abandon
    | split
    | with_reducible assumption

theorem canon_loadHook {s : State} (h : Canon s) : Canon (loadHook s) := by
  unfold loadHook
  repeat' first
    | with_reducible apply canon_abandon
    | split
    | with_reducible assumption

theorem canon_readSources {s : State} (h : Canon s) : Canon (readSources s).2 := by
  unfold readSources
  dsimp only
  repeat' first
    | (with_reducible apply canon_foldl) <;> intros
    | (extract_lets -lift +onlyGivenNames s1; first | (refine canon_cut (v := s1) ?_ ?_ <;> [(unfold s1; clear s1); (intro _; try clear_value s1)]) | (refine canon_cut (v := s1.2) ?_ ?_ <;> [(unfold s1; clear s1); (intro _; try clear_value s1)]) | try clear_value s1)
    | with_reducible apply canon_readSpan
    | with_reducible assumption

theorem canon_sendWindow {o : Outgoing} {s : State} (h : Canon s) : Canon (sendWindow o s).2 := by
  unfold sendWindow
  repeat' first
    | (extract_lets -lift +onlyGivenNames s1; first | (refine canon_cut (v := s1) ?_ ?_ <;> [(unfold s1; clear s1); (intro _; try clear_value s1)]) | (refine canon_cut (v := s1.2) ?_ ?_ <;> [(unfold s1; clear s1); (intro _; try clear_value s1)]) | try clear_value s1)
    | (with_reducible apply canon_each); intros
    | with_reducible apply canon_readSpan
    | with_reducible apply canon_sendParcelSeq
    | with_reducible exact canon_mk (by assumption)
    | with_reducible assumption

theorem canon_runBuddy {o : Outgoing} {s : State} (h : Canon s) : Canon (runBuddy o s) := by
  unfold runBuddy
  repeat' first
    | (extract_lets -lift +onlyGivenNames s1; first | (refine canon_cut (v := s1) ?_ ?_ <;> [(unfold s1; clear s1); (intro _; try clear_value s1)]) | (refine canon_cut (v := s1.2) ?_ ?_ <;> [(unfold s1; clear s1); (intro _; try clear_value s1)]) | try clear_value s1)
    | with_reducible apply canon_sendWindow
    | with_reducible exact canon_mk (by assumption)
    | with_reducible assumption

theorem canon_runServe {o : Outgoing} {s : State} (h : Canon s) : Canon (runServe o s) := by
  unfold runServe
  repeat' first
    | (extract_lets -lift +onlyGivenNames s1; first | (refine canon_cut (v := s1) ?_ ?_ <;> [(unfold s1; clear s1); (intro _; try clear_value s1)]) | (refine canon_cut (v := s1.2) ?_ ?_ <;> [(unfold s1; clear s1); (intro _; try clear_value s1)]) | try clear_value s1)
    | with_reducible apply canon_sendWindow
    | with_reducible exact canon_mk (by assumption)
    | with_reducible assumption

theorem canon_buddyGone {s : State} (h : Canon s) : Canon (buddyGone s) := by
  unfold buddyGone
  repeat' first
    | split
    | with_reducible apply canon_callIngot
    | with_reducible apply canon_sticky
    | with_reducible exact canon_mk (by assumption)
    | with_reducible assumption

theorem canon_ageRestart {from_ : Option Nat} {s : State} (h : Canon s) : Canon (ageRestart from_ s) := by
  unfold ageRestart
  repeat' first
    | with_reducible exact canon_mk (by assumption)
    | with_reducible assumption

theorem canon_secure {byBuddy : Bool} {s : State} (h : Canon s) : Canon (secure byBuddy s) := by
  unfold secure
  repeat' first
    | (extract_lets -lift +onlyGivenNames s1; first | (refine canon_cut (v := s1) ?_ ?_ <;> [(unfold s1; clear s1); (intro _; try clear_value s1)]) | (refine canon_cut (v := s1.2) ?_ ?_ <;> [(unfold s1; clear s1); (intro _; try clear_value s1)]) | try clear_value s1)
    | with_reducible apply canon_wr
    | with_reducible apply canon_ageRestart
    | with_reducible exact canon_mk (by assumption)
    | with_reducible assumption

theorem canon_startHost {s : State} (h : Canon s) : Canon (startHost s) :=
  have h1 : Canon (wr Reg.ING_PROGRESS 0 (setStage 4 { s with ing := { s.ing with hostQps := ingotQps s } })) :=
    canon_wr (canon_setStage (canon_mk h))
  canon_ite (canon_hostStageFail h1) (canon_wr (canon_each (fun _ _ => canon_sendPacket)
    (canon_each (fun _ _ h => canon_sendMessage (canon_readSpan h)) h1)))

theorem canon_afterBuddy {s : State} (h : Canon s) : Canon (afterBuddy s) := by
  unfold afterBuddy
  repeat' first
    | (extract_lets -lift +onlyGivenNames s1; first | (refine canon_cut (v := s1) ?_ ?_ <;> [(unfold s1; clear s1); (intro _; try clear_value s1)]) | (refine canon_cut (v := s1.2) ?_ ?_ <;> [(unfold s1; clear s1); (intro _; try clear_value s1)]) | try clear_value s1)
    | with_reducible apply canon_startHost
    | with_reducible apply canon_setStage
    | split
    | with_reducible exact canon_mk (by assumption)
    | with_reducible assumption

theorem canon_buddyFail {s : State} (h : Canon s) : Canon (buddyFail s) := by
  unfold buddyFail
  repeat' first
    | with_reducible apply canon_afterBuddy
    | with_reducible apply canon_buddyGone
    | with_reducible apply canon_ingotRecord
    | with_reducible apply canon_sticky
    | with_reducible assumption

theorem canon_hostProgress {q : Nat} {owed : Bool} {s : State} (h : Canon s) : Canon (hostProgress q owed s) := by
  unfold hostProgress
  repeat' first
    | (extract_lets -lift +onlyGivenNames s1; first | (refine canon_cut (v := s1) ?_ ?_ <;> [(unfold s1; clear s1); (intro _; try clear_value s1)]) | (refine canon_cut (v := s1.2) ?_ ?_ <;> [(unfold s1; clear s1); (intro _; try clear_value s1)]) | try clear_value s1)
    | with_reducible apply canon_setStage
    | split
    | with_reducible exact canon_mk (by assumption)
    | with_reducible assumption

theorem canon_execMouldComplete {s : State} (h : Canon s) : Canon (execMouldComplete s) := by
  unfold execMouldComplete
  repeat' first
    | (extract_lets -lift +onlyGivenNames s1; first | (refine canon_cut (v := s1) ?_ ?_ <;> [(unfold s1; clear s1); (intro _; try clear_value s1)]) | (refine canon_cut (v := s1.2) ?_ ?_ <;> [(unfold s1; clear s1); (intro _; try clear_value s1)]) | try clear_value s1)
    | with_reducible apply canon_readSources
    | with_reducible apply canon_abandon
    | with_reducible apply canon_writeSpan
    | with_reducible apply canon_wr
    | with_reducible apply canon_runBuddy
    | with_reducible apply canon_setStage
    | with_reducible apply canon_startHost
    | split
    | with_reducible exact canon_mk (by assumption)
    | with_reducible assumption

theorem canon_serveAck {v : Outgoing} {src : Nat} {next : Nat} {status : Nat} {s : State} (h : Canon s) : Canon (serveAck v src next status s) := by
  unfold serveAck
  repeat' first
    | with_reducible apply canon_runServe
    | split
    | with_reducible exact canon_mk (by assumption)
    | with_reducible assumption

theorem canon_markSameFeed {s : State} (h : Canon s) : Canon (markSameFeed s) := by
  unfold markSameFeed
  repeat' first
    | (extract_lets -lift +onlyGivenNames s1; first | (refine canon_cut (v := s1) ?_ ?_ <;> [(unfold s1; clear s1); (intro _; try clear_value s1)]) | (refine canon_cut (v := s1.2) ?_ ?_ <;> [(unfold s1; clear s1); (intro _; try clear_value s1)]) | try clear_value s1)
    | with_reducible apply canon_setFld
    | with_reducible apply canon_sticky
    | with_reducible apply canon_writeSpan
    | with_reducible assumption

theorem canon_firstAck {o : Outgoing} {feed : Nat} {s : State} (h : Canon s) : Canon (firstAck o feed s) := by
  unfold firstAck
  repeat' first
    | (extract_lets -lift +onlyGivenNames s1; first | (refine canon_cut (v := s1) ?_ ?_ <;> [(unfold s1; clear s1); (intro _; try clear_value s1)]) | (refine canon_cut (v := s1.2) ?_ ?_ <;> [(unfold s1; clear s1); (intro _; try clear_value s1)]) | try clear_value s1)
    | with_reducible apply canon_setFld
    | with_reducible apply canon_markSameFeed
    | split
    | with_reducible assumption

theorem canon_serveOf {o : Option Outgoing} {src next status : Nat} {s : State} (h : Canon s) :
    Canon (o.elim s fun v => serveAck v src next status s) := by
  cases o with
  | none => exact h
  | some v => exact canon_serveAck h

theorem canon_execAck {p : Parcel} {s : State} (h : Canon s) : Canon (execAck p s) := by
  unfold execAck
  repeat' first
    | (extract_lets -lift +onlyGivenNames s1; first | (refine canon_cut (v := s1) ?_ ?_ <;> [(unfold s1; clear s1); (intro _; try clear_value s1)]) | (refine canon_cut (v := s1.2) ?_ ?_ <;> [(unfold s1; clear s1); (intro _; try clear_value s1)]) | try clear_value s1)
    | with_reducible apply canon_serveOf
    | with_reducible apply canon_serveAck
    | with_reducible apply canon_firstAck
    | with_reducible apply canon_runBuddy
    | with_reducible apply canon_wr
    | with_reducible apply canon_afterBuddy
    | with_reducible apply canon_secure
    | with_reducible apply canon_buddyFail
    | split
    | with_reducible exact canon_mk (by assumption)
    | with_reducible assumption

theorem canon_execBuddyTimeout {s : State} (h : Canon s) : Canon (execBuddyTimeout s) := by
  unfold execBuddyTimeout
  repeat' first
    | with_reducible apply canon_buddyFail
    | with_reducible apply canon_runBuddy
    | with_reducible apply canon_runServe
    | split
    | with_reducible exact canon_mk (by assumption)
    | with_reducible assumption

theorem canon_sendAckTo {dst : Nat} {serial : Nat} {next : Nat} {status : Nat} {s : State} (h : Canon s) : Canon (sendAckTo dst serial next status s) := by
  unfold sendAckTo
  repeat' first
    | with_reducible apply canon_sendParcel
    | with_reducible assumption

theorem canon_setFilling {v : Nat} {s : State} (h : Canon s) : Canon (setFilling v s) := by
  unfold setFilling
  repeat' first
    | with_reducible apply canon_setFld
    | with_reducible assumption

theorem canon_imageOk {base : Nat} {s : State} (h : Canon s) : Canon (imageOk base s).2 := by
  unfold imageOk
  repeat' first
    | (extract_lets -lift +onlyGivenNames s1; first | (refine canon_cut (v := s1) ?_ ?_ <;> [(unfold s1; clear s1); (intro _; try clear_value s1)]) | (refine canon_cut (v := s1.2) ?_ ?_ <;> [(unfold s1; clear s1); (intro _; try clear_value s1)]) | try clear_value s1)
    | with_reducible apply canon_readSpan
    | with_reducible assumption

theorem canon_setIncoming {x : Incoming} {s : State} (h : Canon s) : Canon (setIncoming x s) := by
  unfold setIncoming
  repeat' first
    | split
    | with_reducible exact canon_mk (by assumption)
    | with_reducible assumption

theorem canon_imageArrived {x : Incoming} {s : State} (h : Canon s) : Canon (imageArrived x s) := by
  unfold imageArrived
  repeat' first
    | (extract_lets -lift +onlyGivenNames s1; first | (refine canon_cut (v := s1) ?_ ?_ <;> [(unfold s1; clear s1); (intro _; try clear_value s1)]) | (refine canon_cut (v := s1.2) ?_ ?_ <;> [(unfold s1; clear s1); (intro _; try clear_value s1)]) | try clear_value s1)
    | with_reducible apply canon_imageOk
    | with_reducible apply canon_setIncoming
    | with_reducible apply canon_sticky
    | with_reducible apply canon_setFld
    | with_reducible apply canon_setFilling
    | with_reducible apply canon_wr
    | with_reducible apply canon_sendAckTo
    | split
    | with_reducible exact canon_mk (by assumption)
    | with_reducible assumption

theorem canon_startFill {src : Nat} {mould : Bool} {data : List Byte} {s : State} (h : Canon s) : Canon (startFill src mould data s) := by
  unfold startFill
  repeat' first
    | (extract_lets -lift +onlyGivenNames s1; first | (refine canon_cut (v := s1) ?_ ?_ <;> [(unfold s1; clear s1); (intro _; try clear_value s1)]) | (refine canon_cut (v := s1.2) ?_ ?_ <;> [(unfold s1; clear s1); (intro _; try clear_value s1)]) | try clear_value s1)
    | with_reducible apply canon_setIncoming
    | with_reducible apply canon_setFilling
    | with_reducible apply canon_setFld
    | split
    | with_reducible exact canon_mk (by assumption)
    | with_reducible assumption

theorem canon_incomingAck {x : Incoming} {s : State} (h : Canon s) : Canon (incomingAck x s) := by
  unfold incomingAck
  repeat' first
    | with_reducible apply canon_sendAckTo
    | with_reducible apply canon_setIncoming
    | with_reducible exact canon_mk (by assumption)
    | with_reducible assumption

theorem canon_placeParcel {x : Incoming} {p : Parcel} {s : State} (h : Canon s) : Canon (placeParcel x p s) := by
  unfold placeParcel
  repeat' first
    | (extract_lets -lift +onlyGivenNames s1; first | (refine canon_cut (v := s1) ?_ ?_ <;> [(unfold s1; clear s1); (intro _; try clear_value s1)]) | (refine canon_cut (v := s1.2) ?_ ?_ <;> [(unfold s1; clear s1); (intro _; try clear_value s1)]) | try clear_value s1)
    | with_reducible apply canon_writeSpan
    | with_reducible apply canon_imageArrived
    | with_reducible apply canon_incomingAck
    | with_reducible apply canon_setIncoming
    | split
    | with_reducible exact canon_mk (by assumption)
    | with_reducible assumption

theorem canon_execData {p : Parcel} {s : State} (h : Canon s) : Canon (execData p s) := by
  unfold execData
  repeat' first
    | (extract_lets -lift +onlyGivenNames s1; first | (refine canon_cut (v := s1) ?_ ?_ <;> [(unfold s1; clear s1); (intro _; try clear_value s1)]) | (refine canon_cut (v := s1.2) ?_ ?_ <;> [(unfold s1; clear s1); (intro _; try clear_value s1)]) | try clear_value s1)
    | with_reducible apply canon_sendAckTo
    | with_reducible apply canon_sticky
    | with_reducible apply canon_startFill
    | with_reducible apply canon_placeParcel
    | split
    | with_reducible exact canon_mk (by assumption)
    | with_reducible assumption

theorem canon_execBuddyAckTimer {s : State} (h : Canon s) : Canon (execBuddyAckTimer s) := by
  unfold execBuddyAckTimer
  repeat' first
    | with_reducible exact canon_mk (by assumption)
    | (with_reducible apply canon_each); intros
    | with_reducible apply canon_incomingAck
    | split
    | with_reducible assumption

theorem canon_execFetch {p : Parcel} {s : State} (h : Canon s) : Canon (execFetch p s) := by
  unfold execFetch
  repeat' first
    | (extract_lets -lift +onlyGivenNames s1; first | (refine canon_cut (v := s1) ?_ ?_ <;> [(unfold s1; clear s1); (intro _; try clear_value s1)]) | (refine canon_cut (v := s1.2) ?_ ?_ <;> [(unfold s1; clear s1); (intro _; try clear_value s1)]) | try clear_value s1)
    | with_reducible apply canon_runServe
    | split
    | with_reducible exact canon_mk (by assumption)
    | with_reducible assumption

theorem canon_execIngFetch {_src : Source} {s : State} (h : Canon s) : Canon (execIngFetch _src s) := by
  unfold execIngFetch
  repeat' first
    | with_reducible apply canon_sticky
    | with_reducible apply canon_sendParcel
    | split
    | with_reducible exact canon_mk (by assumption)
    | with_reducible assumption

theorem canon_restoreTable {rec_ : List Byte} {s : State} (h : Canon s) : Canon (restoreTable rec_ s) := by
  unfold restoreTable
  repeat' first
    | (extract_lets -lift +onlyGivenNames s1; first | (refine canon_cut (v := s1) ?_ ?_ <;> [(unfold s1; clear s1); (intro _; try clear_value s1)]) | (refine canon_cut (v := s1.2) ?_ ?_ <;> [(unfold s1; clear s1); (intro _; try clear_value s1)]) | try clear_value s1)
    | with_reducible apply canon_asyncWrite
    | (with_reducible apply canon_each); intros
    | with_reducible apply canon_writeEntry
    | split
    | with_reducible assumption

theorem canon_restoreFabric {b : List Byte} {s : State} (h : Canon s) : Canon (restoreFabric b s) := by
  unfold restoreFabric
  repeat' first
    | (extract_lets -lift +onlyGivenNames s1; first | (refine canon_cut (v := s1) ?_ ?_ <;> [(unfold s1; clear s1); (intro _; try clear_value s1)]) | (refine canon_cut (v := s1.2) ?_ ?_ <;> [(unfold s1; clear s1); (intro _; try clear_value s1)]) | try clear_value s1)
    | with_reducible apply canon_wr
    | (with_reducible apply canon_each); intros
    | with_reducible assumption

theorem canon_execIngRestore {_src : Source} {s : State} (h : Canon s) : Canon (execIngRestore _src s) := by
  unfold execIngRestore
  repeat' first
    | (extract_lets -lift +onlyGivenNames s1; first | (refine canon_cut (v := s1) ?_ ?_ <;> [(unfold s1; clear s1); (intro _; try clear_value s1)]) | (refine canon_cut (v := s1.2) ?_ ?_ <;> [(unfold s1; clear s1); (intro _; try clear_value s1)]) | try clear_value s1)
    | with_reducible apply canon_imageOk
    | with_reducible apply canon_readSpan
    | with_reducible apply canon_sticky
    | (with_reducible apply canon_each); intros
    | with_reducible apply canon_writeSpan
    | with_reducible apply canon_wr
    | with_reducible apply canon_setStamp
    | with_reducible apply canon_restoreTable
    | with_reducible apply canon_restoreFabric
    | with_reducible apply canon_setFld
    | split
    | with_reducible assumption

theorem canon_execIngAbandon {_src : Source} {s : State} (h : Canon s) : Canon (execIngAbandon _src s) := by
  unfold execIngAbandon
  repeat' first
    | with_reducible apply canon_setStage
    | with_reducible exact canon_mk (by assumption)
    | with_reducible assumption

theorem canon_purgeAll {s : State} (h : Canon s) : Canon (purgeAll s) := by
  unfold purgeAll
  repeat' first
    | (extract_lets -lift +onlyGivenNames s1; first | (refine canon_cut (v := s1) ?_ ?_ <;> [(unfold s1; clear s1); (intro _; try clear_value s1)]) | (refine canon_cut (v := s1.2) ?_ ?_ <;> [(unfold s1; clear s1); (intro _; try clear_value s1)]) | try clear_value s1)
    | with_reducible apply canon_setFld
    | with_reducible apply canon_setStage
    | with_reducible exact canon_mk (by assumption)
    | with_reducible assumption

theorem canon_execPurge {_src : Source} {s : State} (h : Canon s) : Canon (execPurge _src s) := by
  unfold execPurge
  repeat' first
    | with_reducible apply canon_purgeAll
    | split
    | with_reducible assumption

theorem canon_execIngHostAck {_src : Source} {serial : Word} {s : State} (h : Canon s) : Canon (execIngHostAck _src serial s) := by
  unfold execIngHostAck
  repeat' first
    | with_reducible apply canon_setStage
    | with_reducible apply canon_secure
    | split
    | with_reducible assumption

theorem canon_execHstOwnerWrite {src : Source} {v : Word} {s : State} (h : Canon s) : Canon (execHstOwnerWrite src v s) := by
  unfold execHstOwnerWrite
  repeat' first
    | (extract_lets -lift +onlyGivenNames s1; first | (refine canon_cut (v := s1) ?_ ?_ <;> [(unfold s1; clear s1); (intro _; try clear_value s1)]) | (refine canon_cut (v := s1.2) ?_ ?_ <;> [(unfold s1; clear s1); (intro _; try clear_value s1)]) | try clear_value s1)
    | with_reducible apply canon_accState
    | with_reducible apply canon_purgeAll
    | with_reducible apply canon_ownerClear
    | with_reducible apply canon_wr
    | split
    | with_reducible assumption

theorem canon_execLossOfLight {phys : Fin 48} {s : State} (h : Canon s) : Canon (execLossOfLight phys s) := by
  unfold execLossOfLight
  repeat' first
    | with_reducible exact canon_mk (by assumption)
    | (extract_lets -lift +onlyGivenNames s1; first | (refine canon_cut (v := s1) ?_ ?_ <;> [(unfold s1; clear s1); (intro _; try clear_value s1)]) | (refine canon_cut (v := s1.2) ?_ ?_ <;> [(unfold s1; clear s1); (intro _; try clear_value s1)]) | try clear_value s1)
    | with_reducible apply canon_portDark
    | with_reducible apply canon_sticky
    | with_reducible apply canon_portFails
    | with_reducible apply canon_buddyGone
    | split
    | with_reducible assumption

theorem canon_runChecks {l : List ((State → List (Nat × Nat)) × Nat × (State → Bool))} {s : State} (h : Canon s) :
    Canon (runChecks l s).2 := by
  induction l generalizing s with
  | nil => exact h
  | cons x l ih =>
    obtain ⟨spans, code, ok⟩ := x
    have hx : Canon ((spans s).foldl (fun (a : Bool × State) (b : Nat × Nat) =>
        let y := readSpan b.1 b.2 a.2; (a.1 && y.1, y.2)) (true, s)).2 :=
      canon_foldl (fun _ _ ha => canon_readSpan ha) h
    rw [runChecks]
    dsimp only at hx ⊢
    split
    · exact hx
    · split
      · exact ih hx
      · exact hx

theorem canon_execCastingLoad {src : Source} {s : State} (h : Canon s) : Canon (execCastingLoad src s) := by
  refine canon_ite (canon_accState h) ?_
  have h1 := canon_each (l := [Reg.SCH_DRAIN_WAITS, Reg.SCH_LOG_HEAD, Reg.SCH_LOG_READ]) (f := fun r s => wr r 0 s)
    (fun _ _ => canon_wr) (canon_loadHook (canon_setSchState (t := 1) (canon_setFld (k := Reg.SCH_STATUS) (hi := 11) (lo := 4) (v := 0) h)))
  exact canon_darkenOthers (canon_mapCells (fun _ => cellCanon_castingClears) (canon_mk (canon_wr (canon_setFld h1))))

theorem canon_copyStreams {s : State} (h : Canon s) : Canon (copyStreams s) := by
  unfold copyStreams
  repeat' first
    | (extract_lets -lift +onlyGivenNames s1; first | (refine canon_cut (v := s1) ?_ ?_ <;> [(unfold s1; clear s1); (intro _; try clear_value s1)]) | (refine canon_cut (v := s1.2) ?_ ?_ <;> [(unfold s1; clear s1); (intro _; try clear_value s1)]) | try clear_value s1)
    | (with_reducible apply canon_each); intros
    | with_reducible apply canon_writeSpan
    | split
    | with_reducible assumption

theorem canon_loadPassed {s : State} (h : Canon s) : Canon (loadPassed s) := by
  unfold loadPassed
  repeat' first
    | (extract_lets -lift +onlyGivenNames s1; first | (refine canon_cut (v := s1) ?_ ?_ <;> [(unfold s1; clear s1); (intro _; try clear_value s1)]) | (refine canon_cut (v := s1.2) ?_ ?_ <;> [(unfold s1; clear s1); (intro _; try clear_value s1)]) | try clear_value s1)
    | with_reducible apply canon_setSchState
    | (with_reducible apply canon_each); intros
    | with_reducible apply canon_wr
    | with_reducible apply canon_copyStreams
    | split
    | with_reducible exact canon_mk (by assumption)
    | with_reducible assumption

theorem canon_execCastingLoadComplete {s : State} (h : Canon s) : Canon (execCastingLoadComplete s) := by
  unfold execCastingLoadComplete
  repeat' first
    | (extract_lets -lift +onlyGivenNames s1; first | (refine canon_cut (v := s1) ?_ ?_ <;> [(unfold s1; clear s1); (intro _; try clear_value s1)]) | (refine canon_cut (v := s1.2) ?_ ?_ <;> [(unfold s1; clear s1); (intro _; try clear_value s1)]) | try clear_value s1)
    | with_reducible apply canon_runChecks
    | with_reducible apply canon_loadPassed
    | with_reducible apply canon_setSchState
    | with_reducible apply canon_setFld
    | split
    | with_reducible exact canon_mk (by assumption)
    | with_reducible assumption

theorem canon_armStamps {s : State} (h : Canon s) : Canon (armStamps s) := by
  unfold armStamps
  repeat' first
    | (extract_lets -lift +onlyGivenNames s1; first | (refine canon_cut (v := s1) ?_ ?_ <;> [(unfold s1; clear s1); (intro _; try clear_value s1)]) | (refine canon_cut (v := s1.2) ?_ ?_ <;> [(unfold s1; clear s1); (intro _; try clear_value s1)]) | try clear_value s1)
    | with_reducible apply canon_setStamp
    | with_reducible assumption

theorem canon_execArm {src : Source} {s : State} (h : Canon s) : Canon (execArm src s) := by
  unfold execArm
  repeat' first
    | (extract_lets -lift +onlyGivenNames s1; first | (refine canon_cut (v := s1) ?_ ?_ <;> [(unfold s1; clear s1); (intro _; try clear_value s1)]) | (refine canon_cut (v := s1.2) ?_ ?_ <;> [(unfold s1; clear s1); (intro _; try clear_value s1)]) | try clear_value s1)
    | with_reducible apply canon_accState
    | with_reducible apply canon_setFld
    | with_reducible apply canon_sticky
    | with_reducible apply canon_armStamps
    | with_reducible apply canon_wr
    | with_reducible apply canon_setSchState
    | with_reducible apply canon_ageRestart
    | split
    | with_reducible exact canon_mk (by assumption)
    | with_reducible assumption

theorem canon_execHalt {_src : Source} {s : State} (h : Canon s) : Canon (execHalt _src s) := by
  unfold execHalt
  repeat' first
    | split
    | with_reducible exact canon_mk (by assumption)
    | with_reducible assumption

theorem canon_applyCoreSwaps {s : State} (h : Canon s) : Canon (applyCoreSwaps s) := by
  unfold applyCoreSwaps
  repeat' first
    | (extract_lets -lift +onlyGivenNames s1; first | (refine canon_cut (v := s1) ?_ ?_ <;> [(unfold s1; clear s1); (intro _; try clear_value s1)]) | (refine canon_cut (v := s1.2) ?_ ?_ <;> [(unfold s1; clear s1); (intro _; try clear_value s1)]) | try clear_value s1)
    | (with_reducible apply canon_each); intros
    | with_reducible apply canon_takeFile
    | with_reducible exact canon_mk (by assumption)
    | with_reducible assumption

theorem canon_dozeOthers {s : State} (h : Canon s) : Canon (dozeOthers s) := by
  unfold dozeOthers
  repeat' first
    | (extract_lets -lift +onlyGivenNames s1; first | (refine canon_cut (v := s1) ?_ ?_ <;> [(unfold s1; clear s1); (intro _; try clear_value s1)]) | (refine canon_cut (v := s1.2) ?_ ?_ <;> [(unfold s1; clear s1); (intro _; try clear_value s1)]) | try clear_value s1)
    | (with_reducible apply canon_each); intros
    | (with_reducible apply canon_onCell); intro x hx; first | exact hx.same
    | split
    | with_reducible exact canon_mk (by assumption)
    | with_reducible assumption

theorem canon_clearOvf {s : State} (h : Canon s) : Canon (clearOvf s) := by
  unfold clearOvf
  repeat' first
    | with_reducible exact canon_regs (wf_forget (Canon.regs (by assumption))) (by assumption)
    | with_reducible exact canon_mk (by assumption)
    | with_reducible assumption

theorem canon_sampleMasks {s : State} (h : Canon s) : Canon (sampleMasks s) := by
  unfold sampleMasks
  repeat' first
    | (extract_lets -lift +onlyGivenNames s1; first | (refine canon_cut (v := s1) ?_ ?_ <;> [(unfold s1; clear s1); (intro _; try clear_value s1)]) | (refine canon_cut (v := s1.2) ?_ ?_ <;> [(unfold s1; clear s1); (intro _; try clear_value s1)]) | try clear_value s1)
    | split
    | with_reducible exact canon_mk (by assumption)
    | with_reducible assumption

theorem canon_intakeCheck {s : State} (h : Canon s) : Canon (intakeCheck s) := by
  unfold intakeCheck
  repeat' first
    | (extract_lets -lift +onlyGivenNames s1; first | (refine canon_cut (v := s1) ?_ ?_ <;> [(unfold s1; clear s1); (intro _; try clear_value s1)]) | (refine canon_cut (v := s1.2) ?_ ?_ <;> [(unfold s1; clear s1); (intro _; try clear_value s1)]) | try clear_value s1)
    | with_reducible apply canon_recordOf
    | with_reducible apply canon_sticky
    | with_reducible apply canon_launch
    | split
    | with_reducible assumption

theorem canon_missingFault {s : State} (h : Canon s) : Canon (missingFault s) := by
  unfold missingFault
  repeat' first
    | with_reducible apply canon_jobFaultRec
    | split
    | with_reducible exact canon_mk (by assumption)
    | with_reducible assumption

theorem canon_firstWindow {s : State} (h : Canon s) : Canon (firstWindow s) := by
  unfold firstWindow
  repeat' first
    | with_reducible apply canon_linkTablesCheck
    | with_reducible apply canon_memTablesCheck
    | split
    | with_reducible exact canon_mk (by assumption)
    | with_reducible assumption

theorem canon_windowRegisters {s : State} (h : Canon s) : Canon (windowRegisters s) := by
  unfold windowRegisters
  repeat' first
    | (extract_lets -lift +onlyGivenNames s1; first | (refine canon_cut (v := s1) ?_ ?_ <;> [(unfold s1; clear s1); (intro _; try clear_value s1)]) | (refine canon_cut (v := s1.2) ?_ ?_ <;> [(unfold s1; clear s1); (intro _; try clear_value s1)]) | try clear_value s1)
    | with_reducible apply canon_windowTable
    | with_reducible apply canon_applyWaiting
    | with_reducible apply canon_applyCoreSwaps
    | with_reducible assumption

theorem canon_execLoadWindow {s : State} (h : Canon s) : Canon (execLoadWindow s) := by
  unfold execLoadWindow
  repeat' first
    | (extract_lets -lift +onlyGivenNames s1; first | (refine canon_cut (v := s1) ?_ ?_ <;> [(unfold s1; clear s1); (intro _; try clear_value s1)]) | (refine canon_cut (v := s1.2) ?_ ?_ <;> [(unfold s1; clear s1); (intro _; try clear_value s1)]) | try clear_value s1)
    | with_reducible apply canon_runTo
    | with_reducible apply canon_setSchState
    | with_reducible apply canon_wr
    | with_reducible apply canon_missingFault
    | with_reducible apply canon_dozeOthers
    | with_reducible apply canon_applyPassed
    | with_reducible apply canon_clearOvf
    | with_reducible apply canon_windowRegisters
    | with_reducible apply canon_firstWindow
    | with_reducible apply canon_intakeCheck
    | with_reducible apply canon_sampleMasks
    | with_reducible apply canon_stepMark
    | (with_reducible apply canon_mapCells); intro x hx; first | with_reducible exact (cellCanon_anvilWindow hx) | exact hx.same
    | with_reducible apply canon_sweepBoundary
    | split
    | with_reducible exact canon_mk (by assumption)
    | with_reducible assumption

theorem canon_decideOutcome {code : Nat} {s : State} (h : Canon s) : Canon (decideOutcome code s) := by
  unfold decideOutcome
  repeat' first
    | (extract_lets -lift +onlyGivenNames s1; first | (refine canon_cut (v := s1) ?_ ?_ <;> [(unfold s1; clear s1); (intro _; try clear_value s1)]) | (refine canon_cut (v := s1.2) ?_ ?_ <;> [(unfold s1; clear s1); (intro _; try clear_value s1)]) | try clear_value s1)
    | with_reducible apply canon_setFld
    | with_reducible apply canon_event
    | split
    | with_reducible exact canon_mk (by assumption)
    | with_reducible assumption

theorem canon_suppress {s : State} (h : Canon s) : Canon (suppress s) := by
  unfold suppress
  repeat' first
    | with_reducible exact canon_mk (by assumption)
    | with_reducible assumption

theorem canon_rewind {code : Nat} {s : State} (h : Canon s) : Canon (rewind code s) := by
  unfold rewind
  repeat' first
    | with_reducible apply canon_decideOutcome
    | with_reducible apply canon_suppress
    | with_reducible apply canon_sticky
    | with_reducible apply canon_bump
    | with_reducible assumption

theorem canon_endBatch {s : State} (h : Canon s) : Canon (endBatch s) := by
  unfold endBatch
  repeat' first
    | (extract_lets -lift +onlyGivenNames s1; first | (refine canon_cut (v := s1) ?_ ?_ <;> [(unfold s1; clear s1); (intro _; try clear_value s1)]) | (refine canon_cut (v := s1.2) ?_ ?_ <;> [(unfold s1; clear s1); (intro _; try clear_value s1)]) | try clear_value s1)
    | with_reducible apply canon_setFld
    | with_reducible apply canon_wr
    | with_reducible exact canon_mk (by assumption)
    | with_reducible assumption

theorem canon_skip {code : Nat} {s : State} (h : Canon s) : Canon (skip code s) := by
  unfold skip
  repeat' first
    | (extract_lets -lift +onlyGivenNames s1; first | (refine canon_cut (v := s1) ?_ ?_ <;> [(unfold s1; clear s1); (intro _; try clear_value s1)]) | (refine canon_cut (v := s1.2) ?_ ?_ <;> [(unfold s1; clear s1); (intro _; try clear_value s1)]) | try clear_value s1)
    | with_reducible apply canon_setRng
    | with_reducible apply canon_skipTable
    | with_reducible apply canon_endBatch
    | with_reducible apply canon_decideOutcome
    | with_reducible apply canon_suppress
    | with_reducible apply canon_sticky
    | with_reducible apply canon_bump
    | with_reducible assumption

theorem canon_requestPortLane {l : Nat} {s : State} (h : Canon s) : Canon (requestPortLane l s) := by
  unfold requestPortLane
  repeat' first
    | (extract_lets -lift +onlyGivenNames s1; first | (refine canon_cut (v := s1) ?_ ?_ <;> [(unfold s1; clear s1); (intro _; try clear_value s1)]) | (refine canon_cut (v := s1.2) ?_ ?_ <;> [(unfold s1; clear s1); (intro _; try clear_value s1)]) | try clear_value s1)
    | with_reducible apply canon_requestLane
    | split
    | with_reducible assumption

theorem canon_requestBrazing {l : List (Nat × Nat)} {s : State} (h : Canon s) : Canon (requestBrazing l s) := by
  unfold requestBrazing
  repeat' first
    | (extract_lets -lift +onlyGivenNames s1; first | (refine canon_cut (v := s1) ?_ ?_ <;> [(unfold s1; clear s1); (intro _; try clear_value s1)]) | (refine canon_cut (v := s1.2) ?_ ?_ <;> [(unfold s1; clear s1); (intro _; try clear_value s1)]) | try clear_value s1)
    | with_reducible apply canon_brazeCell
    | with_reducible apply canon_listRow
    | with_reducible apply canon_requestPortLane
    | split
    | with_reducible assumption

theorem canon_classify {point : Nat} {s : State} (h : Canon s) : Canon (classify point s) := by
  unfold classify
  repeat' first
    | (extract_lets -lift +onlyGivenNames s1; first | (refine canon_cut (v := s1) ?_ ?_ <;> [(unfold s1; clear s1); (intro _; try clear_value s1)]) | (refine canon_cut (v := s1.2) ?_ ?_ <;> [(unfold s1; clear s1); (intro _; try clear_value s1)]) | try clear_value s1)
    | with_reducible apply canon_wr
    | with_reducible apply canon_bump
    | with_reducible apply canon_recordFull
    | with_reducible apply canon_requestBrazing
    | with_reducible apply canon_riskInput
    | split
    | with_reducible exact canon_mk (by assumption)
    | with_reducible assumption

theorem canon_taintRewind {point : Nat} {s : State} (h : Canon s) : Canon (taintRewind point s) := by
  unfold taintRewind
  repeat' first
    | (extract_lets -lift +onlyGivenNames s1; first | (refine canon_cut (v := s1) ?_ ?_ <;> [(unfold s1; clear s1); (intro _; try clear_value s1)]) | (refine canon_cut (v := s1.2) ?_ ?_ <;> [(unfold s1; clear s1); (intro _; try clear_value s1)]) | try clear_value s1)
    | with_reducible apply canon_decideOutcome
    | with_reducible apply canon_suppress
    | with_reducible apply canon_jobFault
    | with_reducible apply canon_setFld
    | with_reducible apply canon_rewind
    | split
    | with_reducible exact canon_mk (by assumption)
    | with_reducible assumption

theorem canon_decideVeto {byte : Nat} {s : State} (h : Canon s) : Canon (decideVeto byte s) := by
  unfold decideVeto
  repeat' first
    | (extract_lets -lift +onlyGivenNames s1; first | (refine canon_cut (v := s1) ?_ ?_ <;> [(unfold s1; clear s1); (intro _; try clear_value s1)]) | (refine canon_cut (v := s1.2) ?_ ?_ <;> [(unfold s1; clear s1); (intro _; try clear_value s1)]) | try clear_value s1)
    | with_reducible apply canon_decideOutcome
    | with_reducible apply canon_suppress
    | with_reducible apply canon_jobFault
    | with_reducible apply canon_taintRewind
    | with_reducible apply canon_skip
    | with_reducible apply canon_rewind
    | with_reducible apply canon_setFld
    | with_reducible apply canon_cautiousTable
    | with_reducible apply canon_raiseTable
    | with_reducible apply canon_vetoHook
    | split
    | with_reducible exact canon_mk (by assumption)
    | with_reducible assumption

theorem canon_execVetoResult {others : Byte} {s : State} (h : Canon s) : Canon (execVetoResult others s) := by
  unfold execVetoResult
  repeat' first
    | (extract_lets -lift +onlyGivenNames s1; first | (refine canon_cut (v := s1) ?_ ?_ <;> [(unfold s1; clear s1); (intro _; try clear_value s1)]) | (refine canon_cut (v := s1.2) ?_ ?_ <;> [(unfold s1; clear s1); (intro _; try clear_value s1)]) | try clear_value s1)
    | with_reducible apply canon_runTo
    | with_reducible apply canon_setFld
    | with_reducible apply canon_decideVeto
    | with_reducible apply canon_classify
    | split
    | with_reducible exact canon_mk (by assumption)
    | with_reducible assumption

theorem canon_poisonLines {a : Nat} {bad : List Bool} {s : State} (h : Canon s) : Canon (poisonLines a bad s) := by
  unfold poisonLines
  repeat' first
    | (with_reducible apply canon_each); intros
    | with_reducible apply canon_setMark
    | split
    | with_reducible assumption

theorem canon_startRecord {s : State} (h : Canon s) : Canon (startRecord s) := by
  unfold startRecord
  repeat' first
    | (extract_lets -lift +onlyGivenNames s1; first | (refine canon_cut (v := s1) ?_ ?_ <;> [(unfold s1; clear s1); (intro _; try clear_value s1)]) | (refine canon_cut (v := s1.2) ?_ ?_ <;> [(unfold s1; clear s1); (intro _; try clear_value s1)]) | try clear_value s1)
    | with_reducible apply canon_sticky
    | with_reducible apply canon_setFld
    | with_reducible apply canon_tableRead
    | with_reducible apply canon_poisonLines
    | with_reducible apply canon_writeSpan
    | split
    | with_reducible exact canon_mk (by assumption)
    | with_reducible assumption

theorem canon_commit {s : State} (h : Canon s) : Canon (commit s) := by
  unfold commit
  repeat' first
    | (extract_lets -lift +onlyGivenNames s1; first | (refine canon_cut (v := s1) ?_ ?_ <;> [(unfold s1; clear s1); (intro _; try clear_value s1)]) | (refine canon_cut (v := s1.2) ?_ ?_ <;> [(unfold s1; clear s1); (intro _; try clear_value s1)]) | try clear_value s1)
    | with_reducible apply canon_setStamp
    | with_reducible apply canon_wr
    | with_reducible apply canon_commitTable
    | with_reducible apply canon_setRng
    | with_reducible apply canon_startRecord
    | with_reducible apply canon_endBatch
    | with_reducible apply canon_decideOutcome
    | with_reducible apply canon_bump
    | with_reducible apply canon_takeHook
    | with_reducible assumption

theorem canon_decideCommit {byte : Nat} {s : State} (h : Canon s) : Canon (decideCommit byte s) := by
  unfold decideCommit
  repeat' first
    | with_reducible apply canon_decideOutcome
    | with_reducible apply canon_suppress
    | with_reducible apply canon_jobFault
    | with_reducible apply canon_taintRewind
    | with_reducible apply canon_skip
    | with_reducible apply canon_commit
    | split
    | with_reducible assumption

theorem canon_execCommitResult {others : Byte} {s : State} (h : Canon s) : Canon (execCommitResult others s) := by
  unfold execCommitResult
  repeat' first
    | (extract_lets -lift +onlyGivenNames s1; first | (refine canon_cut (v := s1) ?_ ?_ <;> [(unfold s1; clear s1); (intro _; try clear_value s1)]) | (refine canon_cut (v := s1.2) ?_ ?_ <;> [(unfold s1; clear s1); (intro _; try clear_value s1)]) | try clear_value s1)
    | with_reducible apply canon_runTo
    | with_reducible apply canon_setFld
    | with_reducible apply canon_decideCommit
    | with_reducible apply canon_classify
    | split
    | with_reducible exact canon_mk (by assumption)
    | with_reducible assumption

theorem canon_execStepRecordComplete {buf : Fin 2} {s : State} (h : Canon s) : Canon (execStepRecordComplete buf s) := by
  unfold execStepRecordComplete
  repeat' first
    | with_reducible apply canon_setFld
    | split
    | with_reducible exact canon_mk (by assumption)
    | with_reducible assumption

theorem canon_writeLog {code : Nat} {s : State} (h : Canon s) : Canon (writeLog code s) := by
  unfold writeLog
  repeat' first
    | (extract_lets -lift +onlyGivenNames s1; first | (refine canon_cut (v := s1) ?_ ?_ <;> [(unfold s1; clear s1); (intro _; try clear_value s1)]) | (refine canon_cut (v := s1.2) ?_ ?_ <;> [(unfold s1; clear s1); (intro _; try clear_value s1)]) | try clear_value s1)
    | with_reducible apply canon_sticky
    | with_reducible apply canon_wr
    | with_reducible apply canon_asyncWrite
    | split
    | with_reducible assumption

theorem canon_execStepPeriodEnd {s : State} (h : Canon s) : Canon (execStepPeriodEnd s) := by
  refine canon_ite h ?_
  dsimp only
  split
  · exact canon_mk (canon_writeLog (canon_runTo h))
  · exact canon_mk (canon_writeLog (canon_decideOutcome (canon_mk (canon_runTo h))))

theorem canon_CheckVal.flip {x : CheckVal} {m : Nat} {s : State} (h : Canon s) : Canon (CheckVal.flip x m s) := by
  unfold CheckVal.flip
  repeat' first
    | (extract_lets -lift +onlyGivenNames s1; first | (refine canon_cut (v := s1) ?_ ?_ <;> [(unfold s1; clear s1); (intro _; try clear_value s1)]) | (refine canon_cut (v := s1.2) ?_ ?_ <;> [(unfold s1; clear s1); (intro _; try clear_value s1)]) | try clear_value s1)
    | (with_reducible apply canon_onCell); intro x hx; first | exact { hx with sp := wf_putBytes hx.sp } | exact { hx with acc := wf_put hx.acc } | exact { hx with tables := wf_put hx.tables } | exact { hx with bufs := wf_put hx.bufs } | exact { hx with chains := wf_put hx.chains } | exact hx.same
    | split
    | with_reducible exact canon_mk (by assumption)
    | with_reducible assumption

theorem canon_CheckVal.spoil {x : CheckVal} {upset : Nat} {s : State} (h : Canon s) : Canon (CheckVal.spoil x upset s) := by
  unfold CheckVal.spoil
  repeat' first
    | (extract_lets -lift +onlyGivenNames s1; first | (refine canon_cut (v := s1) ?_ ?_ <;> [(unfold s1; clear s1); (intro _; try clear_value s1)]) | (refine canon_cut (v := s1.2) ?_ ?_ <;> [(unfold s1; clear s1); (intro _; try clear_value s1)]) | try clear_value s1)
    | with_reducible apply canon_CheckVal.flip
    | split
    | with_reducible assumption

theorem canon_hallmarkMismatch {unit : Nat} {place : Place} {written : Nat} {s : State} (h : Canon s) : Canon (hallmarkMismatch unit place written s) := by
  unfold hallmarkMismatch
  repeat' first
    | (extract_lets -lift +onlyGivenNames s1; first | (refine canon_cut (v := s1) ?_ ?_ <;> [(unfold s1; clear s1); (intro _; try clear_value s1)]) | (refine canon_cut (v := s1.2) ?_ ?_ <;> [(unfold s1; clear s1); (intro _; try clear_value s1)]) | try clear_value s1)
    | with_reducible apply canon_bump
    | with_reducible apply canon_sticky
    | with_reducible apply canon_taintCell
    | with_reducible apply canon_jobFaultRec
    | split
    | with_reducible assumption

theorem canon_execHallmarkVerdict {unit : Fin 7} {place : Place} {written : BitVec 64} {i : Nat} {upset : BitVec 16} {s : State} (h : Canon s) : Canon (execHallmarkVerdict unit place written i upset s) := by
  unfold execHallmarkVerdict
  repeat' first
    | (extract_lets -lift +onlyGivenNames s1; first | (refine canon_cut (v := s1) ?_ ?_ <;> [(unfold s1; clear s1); (intro _; try clear_value s1)]) | (refine canon_cut (v := s1.2) ?_ ?_ <;> [(unfold s1; clear s1); (intro _; try clear_value s1)]) | try clear_value s1)
    | with_reducible apply canon_CheckVal.spoil
    | with_reducible apply canon_hallmarkMismatch
    | split
    | with_reducible assumption

theorem canon_setPower {c : Nat} {p : CellPower} {s : State} (h : Canon s) : Canon (setPower c p s) := by
  unfold setPower
  repeat' first
    | (with_reducible apply canon_onCell); intro x hx; first | exact hx.same
    | with_reducible exact canon_mk (by assumption)
    | with_reducible assumption

theorem canon_onEntry {die : Nat} {tick : Nat} {cell : Nat} {action : Nat} {f : State → State} {s : State} (h_f : ∀ a0, Canon a0 → Canon (f a0)) (h : Canon s) : Canon (onEntry die tick cell action f s) := by
  unfold onEntry
  repeat' first
    | with_reducible apply h_f
    | with_reducible apply canon_runTo
    | split
    | with_reducible assumption

theorem canon_execWake {die : Fin 4} {cell : Fin 256} {at_ : BitVec 32} {s : State} (h : Canon s) : Canon (execWake die cell at_ s) := by
  unfold execWake
  repeat' first
    | (extract_lets -lift +onlyGivenNames s1; first | (refine canon_cut (v := s1) ?_ ?_ <;> [(unfold s1; clear s1); (intro _; try clear_value s1)]) | (refine canon_cut (v := s1.2) ?_ ?_ <;> [(unfold s1; clear s1); (intro _; try clear_value s1)]) | try clear_value s1)
    | (with_reducible apply canon_onEntry) <;> intros
    | with_reducible apply canon_viol
    | with_reducible apply canon_setPower
    | split
    | with_reducible assumption

theorem canon_execCellInRun {die : Fin 4} {cell : Fin 256} {s : State} (h : Canon s) : Canon (execCellInRun die cell s) := by
  unfold execCellInRun
  repeat' first
    | (extract_lets -lift +onlyGivenNames s1; first | (refine canon_cut (v := s1) ?_ ?_ <;> [(unfold s1; clear s1); (intro _; try clear_value s1)]) | (refine canon_cut (v := s1.2) ?_ ?_ <;> [(unfold s1; clear s1); (intro _; try clear_value s1)]) | try clear_value s1)
    | with_reducible apply canon_setPower
    | with_reducible apply canon_runTo
    | split
    | with_reducible assumption

theorem canon_execDoze {die : Fin 4} {cell : Fin 256} {at_ : BitVec 32} {s : State} (h : Canon s) : Canon (execDoze die cell at_ s) := by
  unfold execDoze
  repeat' first
    | (extract_lets -lift +onlyGivenNames s1; first | (refine canon_cut (v := s1) ?_ ?_ <;> [(unfold s1; clear s1); (intro _; try clear_value s1)]) | (refine canon_cut (v := s1.2) ?_ ?_ <;> [(unfold s1; clear s1); (intro _; try clear_value s1)]) | try clear_value s1)
    | (with_reducible apply canon_onEntry) <;> intros
    | with_reducible apply canon_setPower
    | split
    | with_reducible assumption

theorem canon_execDozeComplete {die : Fin 4} {cell : Fin 256} {s : State} (h : Canon s) : Canon (execDozeComplete die cell s) := by
  unfold execDozeComplete
  repeat' first
    | (extract_lets -lift +onlyGivenNames s1; first | (refine canon_cut (v := s1) ?_ ?_ <;> [(unfold s1; clear s1); (intro _; try clear_value s1)]) | (refine canon_cut (v := s1.2) ?_ ?_ <;> [(unfold s1; clear s1); (intro _; try clear_value s1)]) | try clear_value s1)
    | with_reducible apply canon_runTo
    | with_reducible apply canon_setPower
    | split
    | with_reducible assumption

theorem canon_bringUp {die : Nat} {s : State} (h : Canon s) : Canon (bringUp die s) := by
  unfold bringUp
  repeat' first
    | with_reducible apply canon_setFld
    | split
    | with_reducible exact canon_mk (by assumption)
    | with_reducible assumption

theorem canon_execDieUp {die : Fin 4} {at_ : BitVec 32} {s : State} (h : Canon s) : Canon (execDieUp die at_ s) := by
  unfold execDieUp
  repeat' first
    | (with_reducible apply canon_onEntry) <;> intros
    | with_reducible apply canon_bringUp
    | with_reducible assumption

theorem canon_execDieRest {die : Fin 4} {at_ : BitVec 32} {s : State} (h : Canon s) : Canon (execDieRest die at_ s) := by
  unfold execDieRest
  repeat' first
    | (with_reducible apply canon_onEntry) <;> intros
    | with_reducible apply canon_setFld
    | split
    | with_reducible exact canon_mk (by assumption)
    | with_reducible assumption

theorem canon_execDieAutoUp {s : State} (h : Canon s) : Canon (execDieAutoUp s) := by
  unfold execDieAutoUp
  repeat' first
    | (with_reducible apply canon_each); intros
    | with_reducible apply canon_bringUp
    | with_reducible apply canon_runTo
    | split
    | with_reducible assumption

theorem canon_toCycle {n m : Nat} {s : State} (h : Canon s) : Canon (toCycle n m s) := by
  induction n generalizing s with
  | zero => exact h
  | succ n ih => rw [toCycle]; split; exacts [h, ih (canon_tickStep h)]

theorem canon_runCycles {n : Nat} {s : State} (h : Canon s) : Canon (runCycles n s) := by
  unfold runCycles
  repeat' first
    | with_reducible apply canon_toCycle
    | with_reducible assumption

theorem canon_pmbSend {d : Nat} {code : Nat} {value : Nat} {s : State} (h : Canon s) : Canon (pmbSend d code value s) := by
  unfold pmbSend
  repeat' first
    | with_reducible apply canon_emit
    | with_reducible assumption

theorem canon_sendVcore {s : State} (h : Canon s) : Canon (sendVcore s) := by
  unfold sendVcore
  repeat' first
    | (with_reducible apply canon_each); intros
    | with_reducible apply canon_pmbSend
    | with_reducible assumption

theorem canon_setPmb {d : Nat} {item : Nat} {v : Nat} {s : State} (h : Canon s) : Canon (setPmb d item v s) := by
  unfold setPmb
  repeat' first
    | with_reducible exact canon_mk (by assumption)
    | with_reducible assumption

theorem canon_readDevice {r : Reading} {s : State} (h : Canon s) : Canon (readDevice r s) := by
  unfold readDevice
  repeat' first
    | (extract_lets -lift +onlyGivenNames s1; first | (refine canon_cut (v := s1) ?_ ?_ <;> [(unfold s1; clear s1); (intro _; try clear_value s1)]) | (refine canon_cut (v := s1.2) ?_ ?_ <;> [(unfold s1; clear s1); (intro _; try clear_value s1)]) | try clear_value s1)
    | (with_reducible apply canon_each); intros
    | with_reducible apply canon_pmbSend
    | with_reducible apply canon_setPmb
    | with_reducible apply canon_sticky
    | with_reducible apply canon_record
    | with_reducible apply canon_jobFault
    | split
    | with_reducible assumption

theorem canon_execTelemetryCycle {readings : List Reading} {s : State} (h : Canon s) : Canon (execTelemetryCycle readings s) := by
  unfold execTelemetryCycle
  repeat' first
    | (extract_lets -lift +onlyGivenNames s1; first | (refine canon_cut (v := s1) ?_ ?_ <;> [(unfold s1; clear s1); (intro _; try clear_value s1)]) | (refine canon_cut (v := s1.2) ?_ ?_ <;> [(unfold s1; clear s1); (intro _; try clear_value s1)]) | try clear_value s1)
    | (with_reducible apply canon_each); intros
    | with_reducible apply canon_readDevice
    | with_reducible apply canon_localLevel
    | with_reducible apply canon_setFld
    | split
    | with_reducible assumption

theorem canon_stopCasting {s : State} (h : Canon s) : Canon (stopCasting s) := by
  unfold stopCasting
  repeat' first
    | with_reducible apply canon_setSchState
    | with_reducible apply canon_event
    | with_reducible apply canon_jobFault
    | split
    | with_reducible assumption

theorem canon_powerLost {s : State} (h : Canon s) : Canon (powerLost s) := by
  unfold powerLost
  repeat' first
    | (extract_lets -lift +onlyGivenNames s1; first | (refine canon_cut (v := s1) ?_ ?_ <;> [(unfold s1; clear s1); (intro _; try clear_value s1)]) | (refine canon_cut (v := s1.2) ?_ ?_ <;> [(unfold s1; clear s1); (intro _; try clear_value s1)]) | try clear_value s1)
    | with_reducible apply canon_railsLow
    | with_reducible apply canon_loseDomains
    | with_reducible apply canon_setFld
    | with_reducible exact canon_mk (by assumption)
    | with_reducible assumption

theorem canon_execPwrGoodFailure {s : State} (h : Canon s) : Canon (execPwrGoodFailure s) := by
  unfold execPwrGoodFailure
  repeat' first
    | (extract_lets -lift +onlyGivenNames s1; first | (refine canon_cut (v := s1) ?_ ?_ <;> [(unfold s1; clear s1); (intro _; try clear_value s1)]) | (refine canon_cut (v := s1.2) ?_ ?_ <;> [(unfold s1; clear s1); (intro _; try clear_value s1)]) | try clear_value s1)
    | with_reducible apply canon_sticky
    | with_reducible apply canon_powerLost
    | with_reducible apply canon_stopCasting
    | with_reducible apply canon_record
    | split
    | with_reducible assumption

theorem canon_execRefclkLoss {s : State} (h : Canon s) : Canon (execRefclkLoss s) := by
  unfold execRefclkLoss
  repeat' first
    | (extract_lets -lift +onlyGivenNames s1; first | (refine canon_cut (v := s1) ?_ ?_ <;> [(unfold s1; clear s1); (intro _; try clear_value s1)]) | (refine canon_cut (v := s1.2) ?_ ?_ <;> [(unfold s1; clear s1); (intro _; try clear_value s1)]) | try clear_value s1)
    | with_reducible apply canon_setFld
    | with_reducible apply canon_sticky
    | with_reducible apply canon_record
    | with_reducible apply canon_stopCasting
    | with_reducible apply canon_hostPortsDown
    | split
    | with_reducible exact canon_mk (by assumption)
    | with_reducible assumption

theorem canon_hostPortsUp {s : State} (h : Canon s) : Canon (hostPortsUp s) := by
  unfold hostPortsUp
  repeat' first
    | (with_reducible apply canon_each); intros
    | with_reducible apply canon_setFld
    | split
    | with_reducible assumption

theorem canon_execRefclkReturn {s : State} (h : Canon s) : Canon (execRefclkReturn s) := by
  unfold execRefclkReturn
  repeat' first
    | (extract_lets -lift +onlyGivenNames s1; first | (refine canon_cut (v := s1) ?_ ?_ <;> [(unfold s1; clear s1); (intro _; try clear_value s1)]) | (refine canon_cut (v := s1.2) ?_ ?_ <;> [(unfold s1; clear s1); (intro _; try clear_value s1)]) | try clear_value s1)
    | with_reducible apply canon_setFld
    | with_reducible apply canon_hostPortsUp
    | split
    | with_reducible exact canon_mk (by assumption)
    | with_reducible assumption

theorem canon_tjSource {read : Nat} {code : Nat} {s : State} (h : Canon s) : Canon (tjSource read code s) := by
  unfold tjSource
  repeat' first
    | (extract_lets -lift +onlyGivenNames s1; first | (refine canon_cut (v := s1) ?_ ?_ <;> [(unfold s1; clear s1); (intro _; try clear_value s1)]) | (refine canon_cut (v := s1.2) ?_ ?_ <;> [(unfold s1; clear s1); (intro _; try clear_value s1)]) | try clear_value s1)
    | (with_reducible apply canon_each); intros
    | with_reducible apply canon_localLevel
    | with_reducible apply canon_setFld
    | with_reducible apply canon_sticky
    | with_reducible apply canon_jobFault
    | with_reducible apply canon_record
    | split
    | with_reducible exact canon_mk (by assumption)
    | with_reducible assumption

theorem canon_thermTrip {s : State} (h : Canon s) : Canon (thermTrip s) := by
  unfold thermTrip
  repeat' first
    | (extract_lets -lift +onlyGivenNames s1; first | (refine canon_cut (v := s1) ?_ ?_ <;> [(unfold s1; clear s1); (intro _; try clear_value s1)]) | (refine canon_cut (v := s1.2) ?_ ?_ <;> [(unfold s1; clear s1); (intro _; try clear_value s1)]) | try clear_value s1)
    | with_reducible apply canon_emit
    | with_reducible apply canon_sticky
    | with_reducible apply canon_journalIssue
    | with_reducible apply canon_wr
    | with_reducible apply canon_powerLost
    | split
    | with_reducible exact canon_mk (by assumption)
    | with_reducible assumption

theorem canon_execWait {s : State} (h : Canon s) : Canon (execWait s) := by
  unfold execWait
  repeat' first
    | (with_reducible apply canon_mapCells); intro x hx; first | exact hx.same
    | (extract_lets -lift +onlyGivenNames s1; first | (refine canon_cut (v := s1) ?_ ?_ <;> [(unfold s1; clear s1); (intro _; try clear_value s1)]) | (refine canon_cut (v := s1.2) ?_ ?_ <;> [(unfold s1; clear s1); (intro _; try clear_value s1)]) | try clear_value s1)
    | with_reducible apply canon_sticky
    | with_reducible apply canon_setFld
    | with_reducible apply canon_bumpFld
    | with_reducible apply canon_fresh
    | split
    | with_reducible exact canon_mk (by assumption)
    | with_reducible assumption

theorem canon_execRtcAlarm {s : State} (h : Canon s) : Canon (execRtcAlarm s) := by
  unfold execRtcAlarm
  repeat' first
    | split
    | with_reducible exact canon_mk (by assumption)
    | with_reducible assumption

theorem canon_execWakePin {level : Bool} {s : State} (h : Canon s) : Canon (execWakePin level s) := by
  unfold execWakePin
  repeat' first
    | (extract_lets -lift +onlyGivenNames s1; first | (refine canon_cut (v := s1) ?_ ?_ <;> [(unfold s1; clear s1); (intro _; try clear_value s1)]) | (refine canon_cut (v := s1.2) ?_ ?_ <;> [(unfold s1; clear s1); (intro _; try clear_value s1)]) | try clear_value s1)
    | with_reducible exact canon_mk (by assumption)
    | with_reducible assumption

theorem canon_execWakeFrame {addr : BitVec 16} {s : State} (h : Canon s) : Canon (execWakeFrame addr s) := by
  unfold execWakeFrame
  repeat' first
    | with_reducible apply canon_bump
    | split
    | with_reducible exact canon_mk (by assumption)
    | with_reducible assumption

theorem canon_endEntry {s : State} (h : Canon s) : Canon (endEntry s) := by
  unfold endEntry
  repeat' first
    | with_reducible apply canon_toCycle
    | split
    | with_reducible assumption

theorem canon_recordCauses {s : State} (h : Canon s) : Canon (recordCauses s) := by
  unfold recordCauses
  repeat' first
    | (extract_lets -lift +onlyGivenNames s1; first | (refine canon_cut (v := s1) ?_ ?_ <;> [(unfold s1; clear s1); (intro _; try clear_value s1)]) | (refine canon_cut (v := s1.2) ?_ ?_ <;> [(unfold s1; clear s1); (intro _; try clear_value s1)]) | try clear_value s1)
    | with_reducible apply canon_wr
    | with_reducible apply canon_sticky
    | split
    | with_reducible assumption

theorem canon_wakeDone {s : State} (h : Canon s) : Canon (wakeDone s) := by
  unfold wakeDone
  repeat' first
    | (extract_lets -lift +onlyGivenNames s1; first | (refine canon_cut (v := s1) ?_ ?_ <;> [(unfold s1; clear s1); (intro _; try clear_value s1)]) | (refine canon_cut (v := s1.2) ?_ ?_ <;> [(unfold s1; clear s1); (intro _; try clear_value s1)]) | try clear_value s1)
    | with_reducible apply canon_setFld
    | with_reducible exact canon_mk (by assumption)
    | with_reducible assumption

theorem canon_execBankWake {s : State} (h : Canon s) : Canon (execBankWake s) := by
  unfold execBankWake
  repeat' first
    | (extract_lets -lift +onlyGivenNames s1; first | (refine canon_cut (v := s1) ?_ ?_ <;> [(unfold s1; clear s1); (intro _; try clear_value s1)]) | (refine canon_cut (v := s1.2) ?_ ?_ <;> [(unfold s1; clear s1); (intro _; try clear_value s1)]) | try clear_value s1)
    | with_reducible apply canon_endEntry
    | with_reducible apply canon_driveRail
    | with_reducible apply canon_setFld
    | with_reducible apply canon_recordCauses
    | (with_reducible apply canon_each); intros
    | with_reducible apply canon_startTraining
    | with_reducible apply canon_hostPortsUp
    | with_reducible apply canon_wakeDone
    | with_reducible apply canon_runCycles
    | split
    | with_reducible assumption

theorem canon_tsmFirst {conv : Nat} {ch : Nat} {kind : Nat} {s : State} (h : Canon s) : Canon (tsmFirst conv ch kind s) := by
  unfold tsmFirst
  repeat' first
    | with_reducible apply canon_wr
    | split
    | with_reducible assumption

theorem canon_tsmRecord {conv : Nat} {ch : Nat} {s : State} (h : Canon s) : Canon (tsmRecord conv ch s) := by
  unfold tsmRecord
  repeat' first
    | with_reducible apply canon_recordFull
    | with_reducible assumption

theorem canon_windowEvent {conv : Nat} {ch : Nat} {high : Bool} {s : State} (h : Canon s) : Canon (windowEvent conv ch high s) := by
  unfold windowEvent
  repeat' first
    | (extract_lets -lift +onlyGivenNames s1; first | (refine canon_cut (v := s1) ?_ ?_ <;> [(unfold s1; clear s1); (intro _; try clear_value s1)]) | (refine canon_cut (v := s1.2) ?_ ?_ <;> [(unfold s1; clear s1); (intro _; try clear_value s1)]) | try clear_value s1)
    | with_reducible apply canon_tsmFirst
    | with_reducible apply canon_sticky
    | with_reducible apply canon_tsmRecord
    | with_reducible apply canon_emit
    | with_reducible apply canon_riskInput
    | with_reducible apply canon_bump
    | split
    | with_reducible assumption

theorem canon_compare' {conv : Nat} {ch : Nat} {code : Nat} {s : State} (h : Canon s) : Canon (compare' conv ch code s) := by
  unfold compare'
  repeat' first
    | (extract_lets -lift +onlyGivenNames s1; first | (refine canon_cut (v := s1) ?_ ?_ <;> [(unfold s1; clear s1); (intro _; try clear_value s1)]) | (refine canon_cut (v := s1.2) ?_ ?_ <;> [(unfold s1; clear s1); (intro _; try clear_value s1)]) | try clear_value s1)
    | with_reducible apply canon_setChan
    | with_reducible apply canon_windowEvent
    | split
    | with_reducible exact canon_mk (by assumption)
    | with_reducible assumption

theorem canon_plausibility {conv : Nat} {s : State} (h : Canon s) : Canon (plausibility conv s) := by
  unfold plausibility
  repeat' first
    | (extract_lets -lift +onlyGivenNames s1; first | (refine canon_cut (v := s1) ?_ ?_ <;> [(unfold s1; clear s1); (intro _; try clear_value s1)]) | (refine canon_cut (v := s1.2) ?_ ?_ <;> [(unfold s1; clear s1); (intro _; try clear_value s1)]) | try clear_value s1)
    | with_reducible apply canon_tsmFirst
    | with_reducible apply canon_sticky
    | with_reducible apply canon_bump
    | with_reducible apply canon_tsmRecord
    | with_reducible apply canon_riskInput
    | split
    | with_reducible exact canon_mk (by assumption)
    | with_reducible assumption

theorem canon_swingCount {conv : Nat} {code : Nat} {s : State} (h : Canon s) : Canon (swingCount conv code s) := by
  unfold swingCount
  repeat' first
    | (extract_lets -lift +onlyGivenNames s1; first | (refine canon_cut (v := s1) ?_ ?_ <;> [(unfold s1; clear s1); (intro _; try clear_value s1)]) | (refine canon_cut (v := s1.2) ?_ ?_ <;> [(unfold s1; clear s1); (intro _; try clear_value s1)]) | try clear_value s1)
    | with_reducible apply canon_wear
    | split
    | with_reducible exact canon_mk (by assumption)
    | with_reducible assumption

theorem canon_referenceCheck {conv : Nat} {ch : Nat} {code : Nat} {s : State} (h : Canon s) : Canon (referenceCheck conv ch code s) := by
  unfold referenceCheck
  repeat' first
    | (extract_lets -lift +onlyGivenNames s1; first | (refine canon_cut (v := s1) ?_ ?_ <;> [(unfold s1; clear s1); (intro _; try clear_value s1)]) | (refine canon_cut (v := s1.2) ?_ ?_ <;> [(unfold s1; clear s1); (intro _; try clear_value s1)]) | try clear_value s1)
    | with_reducible apply canon_tsmRecord
    | with_reducible apply canon_sticky
    | split
    | with_reducible assumption

theorem canon_junction {read : Nat} {s : State} (h : Canon s) : Canon (junction read s) := by
  unfold junction
  repeat' first
    | (extract_lets -lift +onlyGivenNames s1; first | (refine canon_cut (v := s1) ?_ ?_ <;> [(unfold s1; clear s1); (intro _; try clear_value s1)]) | (refine canon_cut (v := s1.2) ?_ ?_ <;> [(unfold s1; clear s1); (intro _; try clear_value s1)]) | try clear_value s1)
    | with_reducible apply canon_wr
    | with_reducible apply canon_thermTrip
    | with_reducible apply canon_tjSource
    | split
    | with_reducible assumption

theorem canon_curStep {k : Nat} {above : Bool} {limit : Nat} {s : State} (h : Canon s) : Canon (curStep k above limit s) := by
  unfold curStep
  repeat' first
    | (extract_lets -lift +onlyGivenNames s1; first | (refine canon_cut (v := s1) ?_ ?_ <;> [(unfold s1; clear s1); (intro _; try clear_value s1)]) | (refine canon_cut (v := s1.2) ?_ ?_ <;> [(unfold s1; clear s1); (intro _; try clear_value s1)]) | try clear_value s1)
    | with_reducible exact canon_mk (by assumption)
    | with_reducible assumption

theorem canon_currentSource {s : State} (h : Canon s) : Canon (currentSource s) := by
  unfold currentSource
  repeat' first
    | (extract_lets -lift +onlyGivenNames s1; first | (refine canon_cut (v := s1) ?_ ?_ <;> [(unfold s1; clear s1); (intro _; try clear_value s1)]) | (refine canon_cut (v := s1.2) ?_ ?_ <;> [(unfold s1; clear s1); (intro _; try clear_value s1)]) | try clear_value s1)
    | with_reducible apply canon_curStep
    | with_reducible apply canon_setFld
    | split
    | with_reducible exact canon_mk (by assumption)
    | with_reducible assumption

theorem canon_powerSource {s : State} (h : Canon s) : Canon (powerSource s) := by
  unfold powerSource
  repeat' first
    | (extract_lets -lift +onlyGivenNames s1; first | (refine canon_cut (v := s1) ?_ ?_ <;> [(unfold s1; clear s1); (intro _; try clear_value s1)]) | (refine canon_cut (v := s1.2) ?_ ?_ <;> [(unfold s1; clear s1); (intro _; try clear_value s1)]) | try clear_value s1)
    | with_reducible apply canon_setFld
    | split
    | with_reducible exact canon_mk (by assumption)
    | with_reducible assumption

theorem canon_vcoreSources {s : State} (h : Canon s) : Canon (vcoreSources s) := by
  unfold vcoreSources
  repeat' first
    | (extract_lets -lift +onlyGivenNames s1; first | (refine canon_cut (v := s1) ?_ ?_ <;> [(unfold s1; clear s1); (intro _; try clear_value s1)]) | (refine canon_cut (v := s1.2) ?_ ?_ <;> [(unfold s1; clear s1); (intro _; try clear_value s1)]) | try clear_value s1)
    | with_reducible apply canon_wr
    | with_reducible apply canon_localLevel
    | with_reducible apply canon_powerSource
    | with_reducible apply canon_currentSource
    | with_reducible exact canon_mk (by assumption)
    | with_reducible assumption

theorem canon_overdueGroup {conv : Nat} {ch : Nat} {s : State} (h : Canon s) : Canon (overdueGroup conv ch s) := by
  unfold overdueGroup
  repeat' first
    | (with_reducible apply canon_each); intros
    | with_reducible apply canon_overdueCheck
    | split
    | with_reducible assumption

theorem canon_passOver {conv : Nat} {chans : List Nat} {s : State} (h : Canon s) : Canon (passOver conv chans s) := by
  unfold passOver
  repeat' first
    | (with_reducible apply canon_each); intros
    | with_reducible apply canon_setChan
    | with_reducible exact canon_mk (by assumption)
    | with_reducible assumption

theorem canon_beginConv {conv : Nat} {s : State} (h : Canon s) : Canon (beginConv conv s) := by
  unfold beginConv
  repeat' first
    | (extract_lets -lift +onlyGivenNames s1; first | (refine canon_cut (v := s1) ?_ ?_ <;> [(unfold s1; clear s1); (intro _; try clear_value s1)]) | (refine canon_cut (v := s1.2) ?_ ?_ <;> [(unfold s1; clear s1); (intro _; try clear_value s1)]) | try clear_value s1)
    | with_reducible apply canon_passOver
    | split
    | with_reducible exact canon_mk (by assumption)
    | with_reducible assumption

theorem canon_convEnds {conv : Nat} {s : State} (h : Canon s) : Canon (convEnds conv s) := by
  unfold convEnds
  repeat' first
    | with_reducible apply canon_beginConv
    | split
    | with_reducible assumption

theorem canon_execConversion {conv : Fin 9} {chan : Fin 32} {code : BitVec 12} {urgent : Bool} {s : State} (h : Canon s) : Canon (execConversion conv chan code urgent s) := by
  unfold execConversion
  repeat' first
    | (extract_lets -lift +onlyGivenNames s1; first | (refine canon_cut (v := s1) ?_ ?_ <;> [(unfold s1; clear s1); (intro _; try clear_value s1)]) | (refine canon_cut (v := s1.2) ?_ ?_ <;> [(unfold s1; clear s1); (intro _; try clear_value s1)]) | try clear_value s1)
    | with_reducible apply canon_convEnds
    | with_reducible apply canon_setChan
    | with_reducible apply canon_overdueGroup
    | with_reducible apply canon_compare'
    | with_reducible apply canon_referenceCheck
    | with_reducible apply canon_swingCount
    | with_reducible apply canon_plausibility
    | with_reducible apply canon_junction
    | with_reducible apply canon_vcoreSources
    | split
    | with_reducible exact canon_mk (by assumption)
    | with_reducible assumption

theorem canon_tsmUrgentWrite {v : Nat} {s : State} (h : Canon s) : Canon (tsmUrgentWrite v s) := by
  unfold tsmUrgentWrite
  repeat' first
    | (extract_lets -lift +onlyGivenNames s1; first | (refine canon_cut (v := s1) ?_ ?_ <;> [(unfold s1; clear s1); (intro _; try clear_value s1)]) | (refine canon_cut (v := s1.2) ?_ ?_ <;> [(unfold s1; clear s1); (intro _; try clear_value s1)]) | try clear_value s1)
    | with_reducible apply canon_beginConv
    | with_reducible apply canon_sticky
    | split
    | with_reducible exact canon_mk (by assumption)
    | with_reducible assumption

theorem canon_tsmChWinWrite {v : Nat} {s : State} (h : Canon s) : Canon (tsmChWinWrite v s) := by
  unfold tsmChWinWrite
  repeat' first
    | (extract_lets -lift +onlyGivenNames s1; first | (refine canon_cut (v := s1) ?_ ?_ <;> [(unfold s1; clear s1); (intro _; try clear_value s1)]) | (refine canon_cut (v := s1.2) ?_ ?_ <;> [(unfold s1; clear s1); (intro _; try clear_value s1)]) | try clear_value s1)
    | with_reducible apply canon_setChan
    | with_reducible apply canon_wr
    | split
    | with_reducible exact canon_mk (by assumption)
    | with_reducible assumption

theorem canon_execAssayRecordSend {s : State} (h : Canon s) : Canon (execAssayRecordSend s) := by
  unfold execAssayRecordSend
  repeat' first
    | (extract_lets -lift +onlyGivenNames s1; first | (refine canon_cut (v := s1) ?_ ?_ <;> [(unfold s1; clear s1); (intro _; try clear_value s1)]) | (refine canon_cut (v := s1.2) ?_ ?_ <;> [(unfold s1; clear s1); (intro _; try clear_value s1)]) | try clear_value s1)
    | with_reducible apply canon_setFld
    | with_reducible apply canon_emit
    | with_reducible apply canon_setSent
    | split
    | with_reducible exact canon_mk (by assumption)
    | with_reducible assumption

theorem canon_execHealthUpdate {rise : BitVec 16} {s : State} (h : Canon s) : Canon (execHealthUpdate rise s) := by
  unfold execHealthUpdate
  repeat' first
    | (extract_lets -lift +onlyGivenNames s1; first | (refine canon_cut (v := s1) ?_ ?_ <;> [(unfold s1; clear s1); (intro _; try clear_value s1)]) | (refine canon_cut (v := s1.2) ?_ ?_ <;> [(unfold s1; clear s1); (intro _; try clear_value s1)]) | try clear_value s1)
    | with_reducible apply canon_wr
    | with_reducible apply canon_callIngot
    | with_reducible apply canon_record
    | with_reducible apply canon_bump
    | with_reducible apply canon_setFld
    | split
    | with_reducible exact canon_mk (by assumption)
    | with_reducible assumption

theorem canon_execCorrectedReport {s : State} (h : Canon s) : Canon (execCorrectedReport s) := by
  unfold execCorrectedReport
  repeat' first
    | (extract_lets -lift +onlyGivenNames s1; first | (refine canon_cut (v := s1) ?_ ?_ <;> [(unfold s1; clear s1); (intro _; try clear_value s1)]) | (refine canon_cut (v := s1.2) ?_ ?_ <;> [(unfold s1; clear s1); (intro _; try clear_value s1)]) | try clear_value s1)
    | with_reducible apply canon_record
    | split
    | with_reducible exact canon_mk (by assumption)
    | with_reducible assumption

theorem canon_execSafeStateReport {s : State} (h : Canon s) : Canon (execSafeStateReport s) := by
  unfold execSafeStateReport
  repeat' first
    | with_reducible apply canon_recordFull
    | split
    | with_reducible assumption

theorem canon_execJournalStore {s : State} (h : Canon s) : Canon (execJournalStore s) := by
  unfold execJournalStore
  repeat' first
    | split
    | with_reducible exact canon_mk (by assumption)
    | with_reducible assumption

theorem canon_selectBank {s : State} (h : Canon s) : Canon (selectBank s) := by
  unfold selectBank
  repeat' first
    | (extract_lets -lift +onlyGivenNames s1; first | (refine canon_cut (v := s1) ?_ ?_ <;> [(unfold s1; clear s1); (intro _; try clear_value s1)]) | (refine canon_cut (v := s1.2) ?_ ?_ <;> [(unfold s1; clear s1); (intro _; try clear_value s1)]) | try clear_value s1)
    | with_reducible apply canon_setFld
    | with_reducible apply canon_sticky
    | with_reducible apply canon_wr
    | with_reducible apply canon_record
    | split
    | with_reducible exact canon_mk (by assumption)
    | with_reducible assumption

theorem canon_capLimits {s : State} (h : Canon s) : Canon (capLimits s) := by
  unfold capLimits
  repeat' first
    | (extract_lets -lift +onlyGivenNames s1; first | (refine canon_cut (v := s1) ?_ ?_ <;> [(unfold s1; clear s1); (intro _; try clear_value s1)]) | (refine canon_cut (v := s1.2) ?_ ?_ <;> [(unfold s1; clear s1); (intro _; try clear_value s1)]) | try clear_value s1)
    | with_reducible apply canon_setFld
    | split
    | with_reducible assumption

theorem canon_applyRwn {k : Nat} {v : Nat} {s : State} (h : Canon s) : Canon (applyRwn k v s) := by
  unfold applyRwn
  repeat' first
    | (extract_lets -lift +onlyGivenNames s1; first | (refine canon_cut (v := s1) ?_ ?_ <;> [(unfold s1; clear s1); (intro _; try clear_value s1)]) | (refine canon_cut (v := s1.2) ?_ ?_ <;> [(unfold s1; clear s1); (intro _; try clear_value s1)]) | try clear_value s1)
    | with_reducible apply canon_wr
    | split
    | with_reducible assumption

theorem canon_applyValues {s : State} (h : Canon s) : Canon (applyValues s) := by
  unfold applyValues
  repeat' first
    | with_reducible apply canon_wr
    | (with_reducible apply canon_each); intros
    | with_reducible apply canon_applyRwn
    | split
    | with_reducible assumption

theorem canon_storedTrims {c a v : Nat} {s : State} (h : Canon s) : Canon (storedTrims c a v s) :=
  canon_setArr (canon_each (fun _ _ => canon_setTrim) h)

theorem canon_storedFlaws {c : Nat} {a : Nat} {v : Nat} {s : State} (h : Canon s) : Canon (storedFlaws c a v s) := by
  unfold storedFlaws
  repeat' first
    | (extract_lets -lift +onlyGivenNames s1; first | (refine canon_cut (v := s1) ?_ ?_ <;> [(unfold s1; clear s1); (intro _; try clear_value s1)]) | (refine canon_cut (v := s1.2) ?_ ?_ <;> [(unfold s1; clear s1); (intro _; try clear_value s1)]) | try clear_value s1)
    | with_reducible apply canon_setArr
    | (with_reducible apply canon_each); intros
    | (with_reducible apply canon_onCell); intro x hx; first | exact { hx with colbad := wf_put hx.colbad } | exact hx.same
    | split
    | with_reducible exact canon_mk (by assumption)
    | with_reducible assumption

theorem canon_applyArray {i : Nat} {r : BitVec 56} {trimsOnly : Bool} {s : State} (h : Canon s) : Canon (applyArray i r trimsOnly s) := by
  unfold applyArray
  repeat' first
    | (extract_lets -lift +onlyGivenNames s1; first | (refine canon_cut (v := s1) ?_ ?_ <;> [(unfold s1; clear s1); (intro _; try clear_value s1)]) | (refine canon_cut (v := s1.2) ?_ ?_ <;> [(unfold s1; clear s1); (intro _; try clear_value s1)]) | try clear_value s1)
    | with_reducible apply canon_storedTrims
    | with_reducible apply canon_wr
    | with_reducible apply canon_storedFlaws
    | split
    | with_reducible assumption

theorem canon_applyMaps {s : State} (h : Canon s) : Canon (applyMaps s) := by
  have h0 : ∀ p, Canon { s with regs := forget p s.regs, spr := Spares.init, cells := [] } :=
    fun p => ⟨wf_forget h.1, h.2, h.3, rfl, fun _ hp => absurd hp List.not_mem_nil⟩
  unfold applyMaps
  extract_lets old s1
  have h1 : Canon s1 := canon_setFld (canon_wr (h0 _))
  split
  · exact h1
  · exact canon_each (fun _ _ => canon_applyArray) (canon_each (fun _ _ h => canon_onCell (fun _ hx => { hx with colmap := wf_put hx.colmap }) h)
      (canon_each (fun _ _ => canon_wr) (canon_mk h1)))

theorem canon_applyTrims {s : State} (h : Canon s) : Canon (applyTrims s) := by
  unfold applyTrims
  repeat' first
    | (with_reducible apply canon_each); intros
    | with_reducible apply canon_applyArray
    | split
    | with_reducible assumption

theorem canon_cmapWrite {v : Nat} {s : State} (h : Canon s) : Canon (cmapWrite v s) := by
  unfold cmapWrite
  repeat' first
    | (extract_lets -lift +onlyGivenNames s1; first | (refine canon_cut (v := s1) ?_ ?_ <;> [(unfold s1; clear s1); (intro _; try clear_value s1)]) | (refine canon_cut (v := s1.2) ?_ ?_ <;> [(unfold s1; clear s1); (intro _; try clear_value s1)]) | try clear_value s1)
    | with_reducible apply canon_setCellMap
    | split
    | with_reducible assumption

theorem canon_colmapWrite {v : Nat} {s : State} (h : Canon s) : Canon (colmapWrite v s) := by
  unfold colmapWrite
  repeat' first
    | (extract_lets -lift +onlyGivenNames s1; first | (refine canon_cut (v := s1) ?_ ?_ <;> [(unfold s1; clear s1); (intro _; try clear_value s1)]) | (refine canon_cut (v := s1.2) ?_ ?_ <;> [(unfold s1; clear s1); (intro _; try clear_value s1)]) | try clear_value s1)
    | with_reducible apply canon_takeColumn
    | split
    | with_reducible assumption

theorem canon_sprArrayWrite {v : Nat} {s : State} (h : Canon s) : Canon (sprArrayWrite v s) := by
  unfold sprArrayWrite
  repeat' first
    | (extract_lets -lift +onlyGivenNames s1; first | (refine canon_cut (v := s1) ?_ ?_ <;> [(unfold s1; clear s1); (intro _; try clear_value s1)]) | (refine canon_cut (v := s1.2) ?_ ?_ <;> [(unfold s1; clear s1); (intro _; try clear_value s1)]) | try clear_value s1)
    | with_reducible apply canon_mapsChanged
    | (with_reducible apply canon_onCell); intro x hx; first | exact { hx with colbad := wf_foldPut hx.colbad, usedCols := wf_put hx.usedCols } | exact hx.same
    | split
    | with_reducible exact canon_mk (by assumption)
    | with_reducible assumption

theorem canon_viewDefault {a : Nat} {v : Nat} {s : State} (h : Canon s) : Canon (viewDefault a v s) := by
  unfold viewDefault
  repeat' first
    | with_reducible apply canon_cmapWrite
    | with_reducible apply canon_colmapWrite
    | with_reducible apply canon_sprArrayWrite
    | with_reducible apply canon_wr
    | with_reducible apply canon_calTrimWrite
    | split
    | with_reducible assumption

theorem canon_applyRecord {r : Nat × List Byte} {s : State} (h : Canon s) : Canon (applyRecord r s) := by
  unfold applyRecord
  repeat' first
    | (extract_lets -lift +onlyGivenNames s1; first | (refine canon_cut (v := s1) ?_ ?_ <;> [(unfold s1; clear s1); (intro _; try clear_value s1)]) | (refine canon_cut (v := s1.2) ?_ ?_ <;> [(unfold s1; clear s1); (intro _; try clear_value s1)]) | try clear_value s1)
    | with_reducible apply canon_wr
    | (with_reducible apply canon_each); intros
    | with_reducible apply canon_setFld
    | with_reducible apply canon_applyRwn
    | with_reducible apply canon_viewDefault
    | split
    | with_reducible assumption

theorem canon_applyConfig {s : State} (h : Canon s) : Canon (applyConfig s) := by
  unfold applyConfig
  repeat' first
    | (extract_lets -lift +onlyGivenNames s1; first | (refine canon_cut (v := s1) ?_ ?_ <;> [(unfold s1; clear s1); (intro _; try clear_value s1)]) | (refine canon_cut (v := s1.2) ?_ ?_ <;> [(unfold s1; clear s1); (intro _; try clear_value s1)]) | try clear_value s1)
    | (with_reducible apply canon_each); intros
    | with_reducible apply canon_applyRecord
    | with_reducible assumption

theorem canon_applyDefaults {s : State} (h : Canon s) : Canon (applyDefaults s) := by
  unfold applyDefaults
  repeat' first
    | (extract_lets -lift +onlyGivenNames s1; first | (refine canon_cut (v := s1) ?_ ?_ <;> [(unfold s1; clear s1); (intro _; try clear_value s1)]) | (refine canon_cut (v := s1.2) ?_ ?_ <;> [(unfold s1; clear s1); (intro _; try clear_value s1)]) | try clear_value s1)
    | with_reducible apply canon_capLimits
    | with_reducible apply canon_applyValues
    | with_reducible apply canon_applyConfig
    | with_reducible apply canon_wr
    | with_reducible assumption

theorem canon_enterSafe {code : Nat} {s : State} (h : Canon s) : Canon (enterSafe code s) := by
  unfold enterSafe
  repeat' first
    | (extract_lets -lift +onlyGivenNames s1; first | (refine canon_cut (v := s1) ?_ ?_ <;> [(unfold s1; clear s1); (intro _; try clear_value s1)]) | (refine canon_cut (v := s1.2) ?_ ?_ <;> [(unfold s1; clear s1); (intro _; try clear_value s1)]) | try clear_value s1)
    | with_reducible apply canon_setFld
    | with_reducible apply canon_wr
    | with_reducible apply canon_railsLow
    | with_reducible exact canon_mk (by assumption)
    | with_reducible assumption

theorem canon_startImage {f : SMap Byte} {cfg : List (Nat × List Byte)} {s : State} (h : Canon s) : Canon (startImage f cfg s) := by
  unfold startImage
  repeat' first
    | (extract_lets -lift +onlyGivenNames s1; first | (refine canon_cut (v := s1) ?_ ?_ <;> [(unfold s1; clear s1); (intro _; try clear_value s1)]) | (refine canon_cut (v := s1.2) ?_ ?_ <;> [(unfold s1; clear s1); (intro _; try clear_value s1)]) | try clear_value s1)
    | with_reducible apply canon_sticky
    | with_reducible apply canon_setFld
    | with_reducible apply canon_wr
    | with_reducible apply canon_applyDefaults
    | with_reducible apply canon_applyMaps
    | (with_reducible apply canon_each); intros
    | with_reducible apply canon_pmbSend
    | with_reducible apply canon_sendVcore
    | with_reducible apply canon_driveRail
    | with_reducible apply canon_runCycles
    | with_reducible apply canon_hostPortsUp
    | with_reducible apply canon_startTraining
    | split
    | with_reducible exact canon_mk (by assumption)
    | with_reducible assumption

theorem canon_takeOwner {f : SMap Byte} {stored : List Byte} {code : Nat} {s : State} (h : Canon s) : Canon (takeOwner f stored code s) := by
  unfold takeOwner
  repeat' first
    | with_reducible apply canon_sticky
    | split
    | with_reducible exact canon_mk (by assumption)
    | with_reducible assumption

theorem canon_bootFlash {s : State} (h : Canon s) : Canon (bootFlash s) := by
  unfold bootFlash
  repeat' first
    | (extract_lets -lift +onlyGivenNames s1; first | (refine canon_cut (v := s1) ?_ ?_ <;> [(unfold s1; clear s1); (intro _; try clear_value s1)]) | (refine canon_cut (v := s1.2) ?_ ?_ <;> [(unfold s1; clear s1); (intro _; try clear_value s1)]) | try clear_value s1)
    | with_reducible apply canon_emit
    | with_reducible apply canon_takeOwner
    | with_reducible apply canon_startImage
    | with_reducible apply canon_enterSafe
    | split
    | with_reducible assumption

theorem canon_storedDwi {s : State} (h : Canon s) : Canon (storedDwi s) := by
  unfold storedDwi
  repeat' first
    | with_reducible apply canon_wr
    | with_reducible assumption

theorem canon_bootStart {flash : SMap Byte} {s : State} (h : Canon s) : Canon (bootStart flash s) := by
  unfold bootStart
  repeat' first
    | (extract_lets -lift +onlyGivenNames s1; first | (refine canon_cut (v := s1) ?_ ?_ <;> [(unfold s1; clear s1); (intro _; try clear_value s1)]) | (refine canon_cut (v := s1.2) ?_ ?_ <;> [(unfold s1; clear s1); (intro _; try clear_value s1)]) | try clear_value s1)
    | with_reducible apply canon_setFld
    | with_reducible apply canon_storedDwi
    | with_reducible apply canon_selectBank
    | with_reducible apply canon_driveRail
    | with_reducible apply canon_bootFlash
    | split
    | with_reducible exact canon_mk (by assumption)
    | with_reducible assumption

theorem canon_hardReset {hold : Bool} {s : State} (h : Canon s) : Canon (hardReset hold s) :=
  ⟨rfl, h.2, h.3, rfl, fun _ hp => absurd hp List.not_mem_nil⟩

theorem canon_execPowerOnReset {s : State} (h : Canon s) : Canon (execPowerOnReset s) := by
  unfold execPowerOnReset
  repeat' first
    | with_reducible apply canon_railsLow
    | with_reducible apply canon_hardReset
    | with_reducible assumption

theorem canon_alwaysOnUp {s : State} (h : Canon s) : Canon (alwaysOnUp s) := by
  unfold alwaysOnUp
  repeat' first
    | (extract_lets -lift +onlyGivenNames s1; first | (refine canon_cut (v := s1) ?_ ?_ <;> [(unfold s1; clear s1); (intro _; try clear_value s1)]) | (refine canon_cut (v := s1.2) ?_ ?_ <;> [(unfold s1; clear s1); (intro _; try clear_value s1)]) | try clear_value s1)
    | with_reducible apply canon_fresh
    | with_reducible apply canon_wr
    | with_reducible apply canon_setFld
    | with_reducible exact canon_mk (by assumption)
    | with_reducible assumption

theorem canon_execResetRelease {flash : SMap Byte} {s : State} (h : Canon s) : Canon (execResetRelease flash s) := by
  unfold execResetRelease
  repeat' first
    | with_reducible apply canon_bootStart
    | with_reducible apply canon_alwaysOnUp
    | split
    | with_reducible assumption

theorem canon_execReboot {src : Source} {flash : SMap Byte} {s : State} (h : Canon s) : Canon (execReboot src flash s) := by
  unfold execReboot
  repeat' first
    | with_reducible apply canon_accState
    | with_reducible apply canon_bootStart
    | with_reducible apply canon_loseDomains
    | with_reducible apply canon_railsLow
    | (with_reducible apply canon_each); intros
    | with_reducible apply canon_darken
    | split
    | with_reducible assumption

theorem canon_execRetry {src : Source} {flash : SMap Byte} {s : State} (h : Canon s) : Canon (execRetry src flash s) :=
  canon_ite h (canon_bootFlash (canon_mk (canon_setFld h)))

theorem canon_tornJournal {s : State} (h : Canon s) : Canon (tornJournal s) := by
  unfold tornJournal
  repeat' first
    | (extract_lets -lift +onlyGivenNames s1; first | (refine canon_cut (v := s1) ?_ ?_ <;> [(unfold s1; clear s1); (intro _; try clear_value s1)]) | (refine canon_cut (v := s1.2) ?_ ?_ <;> [(unfold s1; clear s1); (intro _; try clear_value s1)]) | try clear_value s1)
    | split
    | with_reducible exact canon_mk (by assumption)
    | with_reducible assumption

theorem canon_tornStore {s : State} (h : Canon s) : Canon (tornStore s) := by
  unfold tornStore
  repeat' first
    | (extract_lets -lift +onlyGivenNames s1; first | (refine canon_cut (v := s1) ?_ ?_ <;> [(unfold s1; clear s1); (intro _; try clear_value s1)]) | (refine canon_cut (v := s1.2) ?_ ?_ <;> [(unfold s1; clear s1); (intro _; try clear_value s1)]) | try clear_value s1)
    | with_reducible apply canon_fresh
    | split
    | with_reducible exact canon_mk (by assumption)
    | with_reducible assumption

theorem canon_execFeedFailure {s : State} (h : Canon s) : Canon (execFeedFailure s) :=
  have h1 := canon_hardReset (hold := true) (canon_tornStore (canon_tornJournal h))
  ⟨h1.1, rfl, rfl, h1.4, h1.5⟩

theorem canon_restartFill {k : Nat} {s : State} (h : Canon s) : Canon (restartFill k s) := by
  unfold restartFill
  repeat' first
    | (extract_lets -lift +onlyGivenNames s1; first | (refine canon_cut (v := s1) ?_ ?_ <;> [(unfold s1; clear s1); (intro _; try clear_value s1)]) | (refine canon_cut (v := s1.2) ?_ ?_ <;> [(unfold s1; clear s1); (intro _; try clear_value s1)]) | try clear_value s1)
    | with_reducible apply canon_setFill
    | with_reducible apply canon_setFld
    | split
    | with_reducible assumption

theorem canon_refillColumn {die : Nat} {i : Nat} {s : State} (h : Canon s) : Canon (refillColumn die i s) := by
  unfold refillColumn
  repeat' first
    | (extract_lets -lift +onlyGivenNames s1; first | (refine canon_cut (v := s1) ?_ ?_ <;> [(unfold s1; clear s1); (intro _; try clear_value s1)]) | (refine canon_cut (v := s1.2) ?_ ?_ <;> [(unfold s1; clear s1); (intro _; try clear_value s1)]) | try clear_value s1)
    | with_reducible apply canon_readSpan
    | with_reducible apply canon_programBlock
    | with_reducible apply canon_brazeColumn
    | with_reducible apply canon_sticky
    | split
    | with_reducible assumption

theorem canon_putAll {l : List (Nat × Word)} {m : SMap Word} (h : wf regDefault m = true) :
    wf regDefault (l.foldl (fun m kv => put regDefault m kv.1 kv.2) m) = true := by
  induction l generalizing m with
  | nil => exact h
  | cons x l ih => exact ih (wf_put h)

theorem canon_keepAcross {f : State → State} {s : State} (hf : ∀ s, Canon s → Canon (f s)) (h : Canon s) : Canon (keepAcross f s) :=
  have ht := hf s h
  ⟨canon_putAll (wf_forget ht.1), ht.2, ht.3, ht.4, ht.5⟩

theorem canon_fullReset {s : State} (h : Canon s) : Canon (fullReset s) := by
  unfold fullReset
  repeat' first
    | with_reducible apply canon_bootStart
    | with_reducible apply canon_alwaysOnUp
    | with_reducible apply canon_railsLow
    | with_reducible apply canon_hardReset
    | with_reducible assumption

theorem canon_quenchResume {s : State} (h : Canon s) : Canon (quenchResume s) :=
  canon_ite (canon_fullReset (canon_readSpan h))
    (canon_setFld (canon_each (fun _ _ => canon_startTraining) (canon_hostPortsUp (canon_wakeDone (canon_mk
      (canon_each (fun _ _ => canon_restartFill) (canon_each (fun _ _ h => canon_each (fun _ _ => canon_refillColumn) h)
        (canon_applyTrims (canon_keepAcross (fun _ => canon_applyDefaults)
          (canon_selectBank (canon_setFld (canon_resetRegs (canon_readSpan h)))))))))))))

theorem canon_execQuenchWake {s : State} (h : Canon s) : Canon (execQuenchWake s) := by
  unfold execQuenchWake
  repeat' first
    | (extract_lets -lift +onlyGivenNames s1; first | (refine canon_cut (v := s1) ?_ ?_ <;> [(unfold s1; clear s1); (intro _; try clear_value s1)]) | (refine canon_cut (v := s1.2) ?_ ?_ <;> [(unfold s1; clear s1); (intro _; try clear_value s1)]) | try clear_value s1)
    | with_reducible apply canon_endEntry
    | with_reducible apply canon_recordCauses
    | with_reducible apply canon_fullReset
    | with_reducible apply canon_setFld
    | with_reducible apply canon_driveRail
    | with_reducible apply canon_sendVcore
    | split
    | with_reducible exact canon_mk (by assumption)
    | with_reducible assumption

theorem canon_execPwrGoodRise {s : State} (h : Canon s) : Canon (execPwrGoodRise s) := by
  unfold execPwrGoodRise
  repeat' first
    | (extract_lets -lift +onlyGivenNames s1; first | (refine canon_cut (v := s1) ?_ ?_ <;> [(unfold s1; clear s1); (intro _; try clear_value s1)]) | (refine canon_cut (v := s1.2) ?_ ?_ <;> [(unfold s1; clear s1); (intro _; try clear_value s1)]) | try clear_value s1)
    | with_reducible apply canon_setFld
    | with_reducible apply canon_runCycles
    | with_reducible apply canon_bootFlash
    | with_reducible apply canon_quenchResume
    | with_reducible apply canon_driveRail
    | split
    | with_reducible assumption

theorem canon_storeStart {s : State} (h : Canon s) : Canon (storeStart s) := by
  unfold storeStart
  repeat' first
    | (extract_lets -lift +onlyGivenNames s1; first | (refine canon_cut (v := s1) ?_ ?_ <;> [(unfold s1; clear s1); (intro _; try clear_value s1)]) | (refine canon_cut (v := s1.2) ?_ ?_ <;> [(unfold s1; clear s1); (intro _; try clear_value s1)]) | try clear_value s1)
    | with_reducible apply canon_setFld
    | split
    | with_reducible exact canon_mk (by assumption)
    | with_reducible assumption

theorem canon_execStore {_src : Source} {s : State} (h : Canon s) : Canon (execStore _src s) := by
  unfold execStore
  repeat' first
    | with_reducible apply canon_setFld
    | with_reducible apply canon_storeStart
    | split
    | with_reducible assumption

theorem canon_storeEnd {s : State} (h : Canon s) : Canon (storeEnd s) := by
  unfold storeEnd
  repeat' first
    | (extract_lets -lift +onlyGivenNames s1; first | (refine canon_cut (v := s1) ?_ ?_ <;> [(unfold s1; clear s1); (intro _; try clear_value s1)]) | (refine canon_cut (v := s1.2) ?_ ?_ <;> [(unfold s1; clear s1); (intro _; try clear_value s1)]) | try clear_value s1)
    | with_reducible apply canon_setFld
    | with_reducible apply canon_storeStart
    | split
    | with_reducible exact canon_mk (by assumption)
    | with_reducible assumption

theorem canon_writeBank {b : Option Bank} {s : State} (h : Canon s) : Canon (writeBank b s) := by
  unfold writeBank
  repeat' first
    | split
    | with_reducible exact canon_mk (by assumption)
    | with_reducible assumption

theorem canon_execStoreComplete {matched : Bool} {s : State} (h : Canon s) : Canon (execStoreComplete matched s) := by
  unfold execStoreComplete
  repeat' first
    | (extract_lets -lift +onlyGivenNames s1; first | (refine canon_cut (v := s1) ?_ ?_ <;> [(unfold s1; clear s1); (intro _; try clear_value s1)]) | (refine canon_cut (v := s1.2) ?_ ?_ <;> [(unfold s1; clear s1); (intro _; try clear_value s1)]) | try clear_value s1)
    | with_reducible apply canon_setFld
    | with_reducible apply canon_writeBank
    | with_reducible apply canon_bump
    | with_reducible apply canon_wr
    | with_reducible apply canon_storeEnd
    | with_reducible apply canon_sticky
    | with_reducible apply canon_record
    | split
    | with_reducible exact canon_mk (by assumption)
    | with_reducible assumption

theorem canon_execOwnerClear {_src : Source} {s : State} (h : Canon s) : Canon (execOwnerClear _src s) := by
  unfold execOwnerClear
  repeat' first
    | with_reducible exact canon_mk (by assumption)
    | with_reducible assumption

theorem canon_execNvsMinSvnWrite {_src : Source} {v : Word} {s : State} (h : Canon s) : Canon (execNvsMinSvnWrite _src v s) := by
  unfold execNvsMinSvnWrite
  repeat' first
    | (extract_lets -lift +onlyGivenNames s1; first | (refine canon_cut (v := s1) ?_ ?_ <;> [(unfold s1; clear s1); (intro _; try clear_value s1)]) | (refine canon_cut (v := s1.2) ?_ ?_ <;> [(unfold s1; clear s1); (intro _; try clear_value s1)]) | try clear_value s1)
    | with_reducible apply canon_wr
    | split
    | with_reducible assumption

theorem canon_execQuote {_src : Source} {s : State} (h : Canon s) : Canon (execQuote _src s) := by
  unfold execQuote
  repeat' first
    | with_reducible apply canon_sticky
    | with_reducible apply canon_setFld
    | split
    | with_reducible exact canon_mk (by assumption)
    | with_reducible assumption

theorem canon_execQuoteComplete {s : State} (h : Canon s) : Canon (execQuoteComplete s) := by
  unfold execQuoteComplete
  repeat' first
    | (extract_lets -lift +onlyGivenNames s1; first | (refine canon_cut (v := s1) ?_ ?_ <;> [(unfold s1; clear s1); (intro _; try clear_value s1)]) | (refine canon_cut (v := s1.2) ?_ ?_ <;> [(unfold s1; clear s1); (intro _; try clear_value s1)]) | try clear_value s1)
    | with_reducible apply canon_setFld
    | with_reducible apply canon_writeSpan
    | split
    | with_reducible exact canon_mk (by assumption)
    | with_reducible assumption

theorem canon_burDrop {c : Nat} {w : Slot} {s : State} (h : Canon s) : Canon (burDrop c w s) := by
  unfold burDrop
  repeat' first
    | with_reducible apply canon_sticky
    | with_reducible apply canon_wordViol
    | with_reducible assumption

theorem canon_claimBur {c : Nat} {r0 : Nat} {r1 : Nat} {w0 : Nat} {w1 : Nat} {w : Slot} {body : State → State} {s : State} (h_body : ∀ a0, Canon a0 → Canon (body a0)) (h : Canon s) : Canon (claimBur c r0 r1 w0 w1 w body s) := by
  unfold claimBur
  repeat' first
    | with_reducible apply h_body
    | (extract_lets -lift +onlyGivenNames s1; first | (refine canon_cut (v := s1) ?_ ?_ <;> [(unfold s1; clear s1); (intro _; try clear_value s1)]) | (refine canon_cut (v := s1.2) ?_ ?_ <;> [(unfold s1; clear s1); (intro _; try clear_value s1)]) | try clear_value s1)
    | with_reducible apply canon_burDrop
    | (with_reducible apply canon_onCell); intro x hx; first | exact hx.same
    | split
    | with_reducible exact canon_mk (by assumption)
    | with_reducible assumption

theorem canon_burCount {c : Nat} {n : Nat} {s : State} (h : Canon s) : Canon (burCount c n s) := by
  unfold burCount
  repeat' first
    | with_reducible apply canon_bumpFld
    | with_reducible apply canon_bump
    | with_reducible assumption

theorem canon_sregRead {die : Nat} {cell : Nat} {regs : List Nat} {s : State} (h : Canon s) : Canon (sregRead die cell regs s) := by
  unfold sregRead
  repeat' first
    | (extract_lets -lift +onlyGivenNames s1; first | (refine canon_cut (v := s1) ?_ ?_ <;> [(unfold s1; clear s1); (intro _; try clear_value s1)]) | (refine canon_cut (v := s1.2) ?_ ?_ <;> [(unfold s1; clear s1); (intro _; try clear_value s1)]) | try clear_value s1)
    | (with_reducible apply canon_each); intros
    | with_reducible apply canon_noteCorrected
    | with_reducible apply canon_taintCell
    | split
    | with_reducible assumption

theorem canon_burRun {j : BurJob} {w : Slot} {s : State} (h : Canon s) : Canon (burRun j w s) := by
  unfold burRun
  repeat' first
    | (extract_lets -lift +onlyGivenNames s1; first | (refine canon_cut (v := s1) ?_ ?_ <;> [(unfold s1; clear s1); (intro _; try clear_value s1)]) | (refine canon_cut (v := s1.2) ?_ ?_ <;> [(unfold s1; clear s1); (intro _; try clear_value s1)]) | try clear_value s1)
    | with_reducible apply canon_burDrop
    | (with_reducible apply canon_claimBur) <;> intros
    | with_reducible apply canon_sregRead
    | with_reducible apply canon_burCount
    | (with_reducible apply canon_onCell); intro x hx; first | exact { hx with tableBusy := wf_put hx.tableBusy } | exact hx.same
    | with_reducible apply canon_burUnit
    | split
    | with_reducible exact canon_mk (by assumption)
    | with_reducible assumption

theorem canon_burAct {job : State → Slot → Option BurJob} {w : Slot} {s : State} (h : Canon s) : Canon (burAct job w s) := by
  unfold burAct
  repeat' first
    | with_reducible apply h_job
    | with_reducible apply canon_burRun
    | split
    | with_reducible assumption

theorem canon_burWord {head : BitVec 8} {job : State → Slot → Option BurJob} {w : Slot} {s : State} (h : Canon s) : Canon (burWord head job w s) := by
  unfold burWord
  repeat' first
    | with_reducible apply h_job
    | (with_reducible apply canon_issue) <;> intros
    | (with_reducible apply canon_burAct) <;> intros
    | with_reducible assumption

theorem canon_execChain {w : Slot} {s : State} (h : Canon s) : Canon (execChain w s) := by
  unfold execChain
  repeat' first
    | (with_reducible apply canon_burWord) <;> intros
    | with_reducible assumption

theorem canon_execPermute {w : Slot} {s : State} (h : Canon s) : Canon (execPermute w s) := by
  unfold execPermute
  repeat' first
    | (with_reducible apply canon_burWord) <;> intros
    | with_reducible assumption

theorem canon_execGather {w : Slot} {s : State} (h : Canon s) : Canon (execGather w s) := by
  unfold execGather
  repeat' first
    | (with_reducible apply canon_burWord) <;> intros
    | with_reducible assumption

theorem canon_execReduce {w : Slot} {s : State} (h : Canon s) : Canon (execReduce w s) := by
  unfold execReduce
  repeat' first
    | (with_reducible apply canon_burWord) <;> intros
    | with_reducible assumption

theorem canon_execSoftmax {w : Slot} {s : State} (h : Canon s) : Canon (execSoftmax w s) := by
  unfold execSoftmax
  repeat' first
    | (with_reducible apply canon_burWord) <;> intros
    | with_reducible assumption

theorem canon_updateAct {w : Slot} {s : State} (h : Canon s) : Canon (updateAct w s) := by
  unfold updateAct
  dsimp only
  repeat' first
    | (extract_lets -lift +onlyGivenNames s1; first | (refine canon_cut (v := s1) ?_ ?_ <;> [(unfold s1; clear s1); (intro _; try clear_value s1)]) | (refine canon_cut (v := s1.2) ?_ ?_ <;> [(unfold s1; clear s1); (intro _; try clear_value s1)]) | try clear_value s1)
    | (with_reducible apply canon_claimBur) <;> intros
    | with_reducible apply canon_sregRead
    | with_reducible apply canon_burCount
    | with_reducible apply canon_launch
    | with_reducible apply canon_capRecordPut
    | with_reducible apply canon_capOccupy
    | with_reducible apply canon_wordViol
    | with_reducible apply canon_updateRun
    | with_reducible apply canon_burWrite
    | split
    | with_reducible exact canon_mk (by assumption)
    | with_reducible assumption

theorem canon_execUpdate {w : Slot} {s : State} (h : Canon s) : Canon (execUpdate w s) := by
  unfold execUpdate
  repeat' first
    | (with_reducible apply canon_issue) <;> intros
    | with_reducible apply canon_updateAct
    | with_reducible assumption

theorem canon_execBraze {_src : Source} {s : State} (h : Canon s) : Canon (execBraze _src s) := by
  unfold execBraze
  repeat' first
    | (extract_lets -lift +onlyGivenNames s1; first | (refine canon_cut (v := s1) ?_ ?_ <;> [(unfold s1; clear s1); (intro _; try clear_value s1)]) | (refine canon_cut (v := s1.2) ?_ ?_ <;> [(unfold s1; clear s1); (intro _; try clear_value s1)]) | try clear_value s1)
    | with_reducible apply canon_brazeColumn
    | with_reducible apply canon_brazeCell
    | with_reducible apply canon_brazeCore
    | split
    | with_reducible assumption

theorem canon_execHeartbeatLapse {die : Fin 5} {core : Fin 17} {s : State} (h : Canon s) : Canon (execHeartbeatLapse die core s) := by
  unfold execHeartbeatLapse
  repeat' first
    | (extract_lets -lift +onlyGivenNames s1; first | (refine canon_cut (v := s1) ?_ ?_ <;> [(unfold s1; clear s1); (intro _; try clear_value s1)]) | (refine canon_cut (v := s1.2) ?_ ?_ <;> [(unfold s1; clear s1); (intro _; try clear_value s1)]) | try clear_value s1)
    | with_reducible apply canon_mapsChanged
    | with_reducible apply canon_brazeCore
    | with_reducible apply canon_failEntries
    | split
    | with_reducible exact canon_mk (by assumption)
    | with_reducible assumption

theorem canon_spareArray {d a : Nat} {acc : Bool × State} (h : Canon acc.2) : Canon (spareArray d a acc).2 := by
  have h1 := canon_useFree (n := 16640) h
  rw [spareArray]
  dsimp only
  split
  · exact h1
  · exact canon_setArr (canon_each (fun _ _ => canon_setTrim) h1)

theorem canon_spareFails {die : Nat} {slot : Nat} {s : State} (h : Canon s) : Canon (spareFails die slot s) := by
  unfold spareFails
  repeat' first
    | (extract_lets -lift +onlyGivenNames s1; first | (refine canon_cut (v := s1) ?_ ?_ <;> [(unfold s1; clear s1); (intro _; try clear_value s1)]) | (refine canon_cut (v := s1.2) ?_ ?_ <;> [(unfold s1; clear s1); (intro _; try clear_value s1)]) | try clear_value s1)
    | with_reducible apply canon_mapsChanged
    | with_reducible apply canon_sticky
    | with_reducible apply canon_record
    | with_reducible apply canon_nextFill
    | with_reducible apply canon_capacityLoss
    | with_reducible apply canon_retire
    | with_reducible apply canon_setFld
    | with_reducible apply canon_setFill
    | split
    | with_reducible exact canon_mk (by assumption)
    | with_reducible assumption

theorem canon_execCellFill {die : Fin 4} {slot : Fin 2} {selfTest : Bool} {s : State} (h : Canon s) : Canon (execCellFill die slot selfTest s) := by
  unfold execCellFill
  repeat' first
    | (with_reducible apply canon_foldl) <;> intros
    | (extract_lets -lift +onlyGivenNames s1; first | (refine canon_cut (v := s1) ?_ ?_ <;> [(unfold s1; clear s1); (intro _; try clear_value s1)]) | (refine canon_cut (v := s1.2) ?_ ?_ <;> [(unfold s1; clear s1); (intro _; try clear_value s1)]) | try clear_value s1)
    | with_reducible apply canon_spareFails
    | (with_reducible apply canon_onCell); intro x hx; first | exact { hx with trims := rfl } | exact hx.same
    | (with_reducible apply canon_spareArray) <;> intros
    | with_reducible apply canon_setFill
    | split
    | with_reducible exact canon_mk (by assumption)
    | with_reducible assumption

theorem canon_programSpare {f d a col : Nat} {b : List Byte} {s : State} (h : Canon s) : Canon (programSpare f d a col b s).2 := by
  induction f generalizing s with
  | zero => exact h
  | succ f ih =>
    have hb := canon_programBlock (c := d) (a := a) (p := physCol s d a col) (col := col) (b := b) h
    rw [programSpare]
    dsimp only
    split
    · exact hb
    · split
      · exact canon_sticky hb
      · exact ih (canon_replaceColumn (canon_sticky hb))

theorem canon_execCellFillComplete {die : Fin 4} {slot : Fin 2} {s : State} (h : Canon s) : Canon (execCellFillComplete die slot s) := by
  unfold execCellFillComplete
  extract_lets r c d src t s1 s2
  have h1 : Canon s1 := canon_foldl (fun _ _ ha => canon_programSpare (canon_sourceRead ha)) h
  have h2 : Canon s2 := canon_setFld h1
  exact canon_ite h (canon_ite (canon_sticky h) (canon_ite (canon_spareFails h1) (canon_ite h2 (canon_applyFill h2))))

theorem canon_execFillMapChange {die : Fin 4} {slot : Fin 2} {s : State} (h : Canon s) : Canon (execFillMapChange die slot s) := by
  unfold execFillMapChange
  repeat' first
    | (extract_lets -lift +onlyGivenNames s1; first | (refine canon_cut (v := s1) ?_ ?_ <;> [(unfold s1; clear s1); (intro _; try clear_value s1)]) | (refine canon_cut (v := s1.2) ?_ ?_ <;> [(unfold s1; clear s1); (intro _; try clear_value s1)]) | try clear_value s1)
    | with_reducible apply canon_applyFill
    | with_reducible apply canon_sticky
    | with_reducible apply canon_programBlock
    | with_reducible apply canon_fillRead
    | with_reducible apply canon_fillVerdict
    | split
    | with_reducible assumption

theorem canon_latchRead {hi : Nat} {v : Nat} {s : State} (h : Canon s) : Canon (latchRead hi v s).2 := by
  unfold latchRead
  repeat' first
    | with_reducible apply canon_wr
    | with_reducible assumption

theorem canon_readTickLo {s : State} (h : Canon s) : Canon (readTickLo s).2 := by
  unfold readTickLo
  repeat' first
    | with_reducible apply canon_latchRead
    | with_reducible assumption

theorem canon_readMandrelLo {s : State} (h : Canon s) : Canon (readMandrelLo s).2 := by
  unfold readMandrelLo
  repeat' first
    | with_reducible apply canon_latchRead
    | with_reducible assumption

theorem canon_readSeqLo {s : State} (h : Canon s) : Canon (readSeqLo s).2 := by
  unfold readSeqLo
  repeat' first
    | with_reducible apply canon_latchRead
    | with_reducible assumption

theorem canon_readRtcLo {s : State} (h : Canon s) : Canon (readRtcLo s).2 := by
  unfold readRtcLo
  repeat' first
    | with_reducible apply canon_latchRead
    | with_reducible assumption

theorem canon_readFecUe {s : State} (h : Canon s) : Canon (readFecUe s).2 := by
  unfold readFecUe
  repeat' first
    | (extract_lets -lift +onlyGivenNames s1; first | (refine canon_cut (v := s1) ?_ ?_ <;> [(unfold s1; clear s1); (intro _; try clear_value s1)]) | (refine canon_cut (v := s1.2) ?_ ?_ <;> [(unfold s1; clear s1); (intro _; try clear_value s1)]) | try clear_value s1)
    | with_reducible apply canon_setFld
    | split
    | with_reducible assumption

theorem canon_ctlRead {src : Source} {a : Nat} {s : State} (h : Canon s) : Canon (ctlRead src a s).2 := by
  unfold ctlRead
  repeat' first
    | (extract_lets -lift +onlyGivenNames s1; first | (refine canon_cut (v := s1) ?_ ?_ <;> [(unfold s1; clear s1); (intro _; try clear_value s1)]) | (refine canon_cut (v := s1.2) ?_ ?_ <;> [(unfold s1; clear s1); (intro _; try clear_value s1)]) | try clear_value s1)
    | with_reducible apply canon_accFirst
    | with_reducible apply canon_readTickLo
    | with_reducible apply canon_readMandrelLo
    | with_reducible apply canon_readSeqLo
    | with_reducible apply canon_readRtcLo
    | with_reducible apply canon_readFecUe
    | split
    | with_reducible assumption

theorem canon_answerRead {a : Nat} {r : Nat × State} (h : Canon r.2) : Canon (answerRead a r) := canon_emit h

theorem canon_execSchTickLoRead {_src : Source} {s : State} (h : Canon s) : Canon (execSchTickLoRead _src s) := by
  unfold execSchTickLoRead
  repeat' first
    | (with_reducible apply canon_answerRead) <;> intros
    | with_reducible apply canon_readTickLo
    | with_reducible assumption

theorem canon_execFabMandrelLoRead {_src : Source} {s : State} (h : Canon s) : Canon (execFabMandrelLoRead _src s) := by
  unfold execFabMandrelLoRead
  repeat' first
    | (with_reducible apply canon_answerRead) <;> intros
    | with_reducible apply canon_readMandrelLo
    | with_reducible assumption

theorem canon_execHltArecSeqLoRead {_src : Source} {s : State} (h : Canon s) : Canon (execHltArecSeqLoRead _src s) := by
  unfold execHltArecSeqLoRead
  repeat' first
    | (with_reducible apply canon_answerRead) <;> intros
    | with_reducible apply canon_readSeqLo
    | with_reducible assumption

theorem canon_execPwrRtcLoRead {_src : Source} {s : State} (h : Canon s) : Canon (execPwrRtcLoRead _src s) := by
  unfold execPwrRtcLoRead
  repeat' first
    | (with_reducible apply canon_answerRead) <;> intros
    | with_reducible apply canon_readRtcLo
    | with_reducible assumption

theorem canon_execFabPortFecUeRead {_src : Source} {s : State} (h : Canon s) : Canon (execFabPortFecUeRead _src s) := by
  unfold execFabPortFecUeRead
  repeat' first
    | (with_reducible apply canon_answerRead) <;> intros
    | with_reducible apply canon_readFecUe
    | with_reducible assumption

theorem canon_putBits {k : Nat} {r : RegRow} {ranges : List (Nat × Nat × Nat × Nat × Nat × Nat)} {a : Nat} {v : Nat} {s : State} (h : Canon s) : Canon (putBits k r ranges a v s) := by
  unfold putBits
  repeat' first
    | (extract_lets -lift +onlyGivenNames s1; first | (refine canon_cut (v := s1) ?_ ?_ <;> [(unfold s1; clear s1); (intro _; try clear_value s1)]) | (refine canon_cut (v := s1.2) ?_ ?_ <;> [(unfold s1; clear s1); (intro _; try clear_value s1)]) | try clear_value s1)
    | with_reducible apply canon_launch
    | with_reducible apply canon_wr
    | split
    | with_reducible assumption

theorem canon_putReg {a : Nat} {v : Nat} {s : State} (h : Canon s) : Canon (putReg a v s) := by
  unfold putReg
  repeat' first
    | with_reducible apply canon_putBits
    | split
    | with_reducible assumption

theorem canon_putCell {c : Nat} {off : Nat} {v : Nat} {s : State} (h : Canon s) : Canon (putCell c off v s) := by
  unfold putCell
  repeat' first
    | with_reducible apply canon_putBits
    | split
    | with_reducible assumption

theorem canon_onBit {v : Nat} {i : Nat} {f : State → State} {s : State} (h_f : ∀ a0, Canon a0 → Canon (f a0)) (h : Canon s) : Canon (onBit v i f s) := by
  unfold onBit
  repeat' first
    | with_reducible apply h_f
    | split
    | with_reducible assumption

theorem canon_toCell {src : Source} {die : Fin 4} {cell : Fin 256} {off : Nat} {f : Nat → State → State} {s : State} (h_f : ∀ a0 a1, Canon a1 → Canon (f a0 a1)) (h : Canon s) : Canon (toCell src die cell off f s) := by
  unfold toCell
  repeat' first
    | with_reducible apply h_f
    | (extract_lets -lift +onlyGivenNames s1; first | (refine canon_cut (v := s1) ?_ ?_ <;> [(unfold s1; clear s1); (intro _; try clear_value s1)]) | (refine canon_cut (v := s1.2) ?_ ?_ <;> [(unfold s1; clear s1); (intro _; try clear_value s1)]) | try clear_value s1)
    | with_reducible apply canon_accFirst
    | split
    | with_reducible assumption

theorem canon_whenOpen {src : Source} {a : Nat} {f : State → State} {s : State} (h_f : ∀ a0, Canon a0 → Canon (f a0)) (h : Canon s) : Canon (whenOpen src a f s) := by
  unfold whenOpen
  repeat' first
    | with_reducible apply h_f
    | with_reducible apply canon_accState
    | split
    | with_reducible assumption

theorem canon_zeroCell {c : Nat} {offs : List Nat} {s : State} (h : Canon s) : Canon (zeroCell c offs s) := by
  unfold zeroCell
  repeat' first
    | (with_reducible apply canon_each); intros
    | with_reducible apply canon_wr
    | with_reducible assumption

theorem canon_arrSatClr {c : Nat} {s : State} (h : Canon s) : Canon (arrSatClr c s) := by
  unfold arrSatClr
  repeat' first
    | with_reducible apply canon_zeroCell
    | with_reducible assumption

theorem canon_arrCntClr {c : Nat} {s : State} (h : Canon s) : Canon (arrCntClr c s) := by
  unfold arrCntClr
  repeat' first
    | with_reducible apply canon_zeroCell
    | with_reducible assumption

theorem canon_accCntClr {c : Nat} {s : State} (h : Canon s) : Canon (accCntClr c s) := by
  unfold accCntClr
  repeat' first
    | with_reducible apply canon_zeroCell
    | with_reducible assumption

theorem canon_anvCntClr {c : Nat} {s : State} (h : Canon s) : Canon (anvCntClr c s) := by
  unfold anvCntClr
  repeat' first
    | with_reducible apply canon_zeroCell
    | with_reducible assumption

theorem canon_burCntClr {c : Nat} {s : State} (h : Canon s) : Canon (burCntClr c s) := by
  unfold burCntClr
  repeat' first
    | with_reducible apply canon_zeroCell
    | with_reducible assumption

theorem canon_execArrSatClr {src : Source} {die : Fin 4} {cell : Fin 256} {s : State} (h : Canon s) : Canon (execArrSatClr src die cell s) := by
  unfold execArrSatClr
  repeat' first
    | (with_reducible apply canon_toCell) <;> intros
    | with_reducible apply canon_arrSatClr
    | with_reducible assumption

theorem canon_execArrCntClr {src : Source} {die : Fin 4} {cell : Fin 256} {s : State} (h : Canon s) : Canon (execArrCntClr src die cell s) := by
  unfold execArrCntClr
  repeat' first
    | (with_reducible apply canon_toCell) <;> intros
    | with_reducible apply canon_arrCntClr
    | with_reducible assumption

theorem canon_execAccCntClr {src : Source} {die : Fin 4} {cell : Fin 256} {s : State} (h : Canon s) : Canon (execAccCntClr src die cell s) := by
  unfold execAccCntClr
  repeat' first
    | (with_reducible apply canon_toCell) <;> intros
    | with_reducible apply canon_accCntClr
    | with_reducible assumption

theorem canon_execAnvCntClr {src : Source} {die : Fin 4} {cell : Fin 256} {s : State} (h : Canon s) : Canon (execAnvCntClr src die cell s) := by
  unfold execAnvCntClr
  repeat' first
    | (with_reducible apply canon_toCell) <;> intros
    | with_reducible apply canon_anvCntClr
    | with_reducible assumption

theorem canon_execBurCntClr {src : Source} {die : Fin 4} {cell : Fin 256} {s : State} (h : Canon s) : Canon (execBurCntClr src die cell s) := by
  unfold execBurCntClr
  repeat' first
    | (with_reducible apply canon_toCell) <;> intros
    | with_reducible apply canon_burCntClr
    | with_reducible assumption

theorem canon_cellSelect {src : Source} {die : Fin 4} {cell : Fin 256} {off : Nat} {v : Word} {s : State} (h : Canon s) : Canon (cellSelect src die cell off v s) := by
  unfold cellSelect
  repeat' first
    | (with_reducible apply canon_toCell) <;> intros
    | (with_reducible apply canon_whenOpen) <;> intros
    | with_reducible apply canon_putCell
    | with_reducible assumption

theorem canon_execArrPeekSelWrite {src : Source} {die : Fin 4} {cell : Fin 256} {v : Word} {s : State} (h : Canon s) : Canon (execArrPeekSelWrite src die cell v s) := by
  unfold execArrPeekSelWrite
  repeat' first
    | with_reducible apply canon_cellSelect
    | with_reducible assumption

theorem canon_execAccPeekSelWrite {src : Source} {die : Fin 4} {cell : Fin 256} {v : Word} {s : State} (h : Canon s) : Canon (execAccPeekSelWrite src die cell v s) := by
  unfold execAccPeekSelWrite
  repeat' first
    | with_reducible apply canon_cellSelect
    | with_reducible assumption

theorem canon_execAnvPeekSelWrite {src : Source} {die : Fin 4} {cell : Fin 256} {v : Word} {s : State} (h : Canon s) : Canon (execAnvPeekSelWrite src die cell v s) := by
  unfold execAnvPeekSelWrite
  repeat' first
    | with_reducible apply canon_cellSelect
    | with_reducible assumption

theorem canon_execBurTabSelWrite {src : Source} {die : Fin 4} {cell : Fin 256} {v : Word} {s : State} (h : Canon s) : Canon (execBurTabSelWrite src die cell v s) := by
  unfold execBurTabSelWrite
  repeat' first
    | with_reducible apply canon_cellSelect
    | with_reducible assumption

theorem canon_cellFreed {c : Nat} {off : Nat} {s : State} (h : Canon s) : Canon (cellFreed c off s) := by
  unfold cellFreed
  repeat' first
    | with_reducible apply canon_wr
    | with_reducible apply canon_setFld
    | split
    | with_reducible assumption

theorem canon_cellWrite {c : Nat} {off : Nat} {v : Nat} {s : State} (h : Canon s) : Canon (cellWrite c off v s) := by
  unfold cellWrite
  repeat' first
    | (with_reducible apply canon_onBit) <;> intros
    | with_reducible apply canon_arrCntClr
    | with_reducible apply canon_arrSatClr
    | with_reducible apply canon_accCntClr
    | with_reducible apply canon_anvCntClr
    | with_reducible apply canon_burCntClr
    | with_reducible apply canon_cellFreed
    | with_reducible apply canon_putCell
    | split
    | with_reducible assumption

theorem canon_zeroRegs {l : List Nat} {s : State} (h : Canon s) : Canon (zeroRegs l s) := by
  unfold zeroRegs
  repeat' first
    | (with_reducible apply canon_each); intros
    | with_reducible apply canon_wr
    | with_reducible assumption

theorem canon_execMemCntClr {_src : Source} {s : State} (h : Canon s) : Canon (execMemCntClr _src s) := by
  unfold execMemCntClr
  repeat' first
    | (extract_lets -lift +onlyGivenNames s1; first | (refine canon_cut (v := s1) ?_ ?_ <;> [(unfold s1; clear s1); (intro _; try clear_value s1)]) | (refine canon_cut (v := s1.2) ?_ ?_ <;> [(unfold s1; clear s1); (intro _; try clear_value s1)]) | try clear_value s1)
    | (with_reducible apply canon_each); intros
    | with_reducible apply canon_setFld
    | with_reducible apply canon_wr
    | with_reducible assumption

theorem canon_execTsmCntClr {_src : Source} {s : State} (h : Canon s) : Canon (execTsmCntClr _src s) := by
  unfold execTsmCntClr
  repeat' first
    | with_reducible apply canon_zeroRegs
    | with_reducible assumption

theorem canon_execMgtCntClr {_src : Source} {s : State} (h : Canon s) : Canon (execMgtCntClr _src s) := by
  unfold execMgtCntClr
  repeat' first
    | with_reducible apply canon_zeroRegs
    | with_reducible assumption

theorem canon_execPprRun {src : Source} {s : State} (h : Canon s) : Canon (execPprRun src s) := by
  unfold execPprRun
  repeat' first
    | (with_reducible apply canon_whenOpen) <;> intros
    | with_reducible apply canon_pprStart
    | with_reducible assumption

theorem canon_execForce {_src : Source} {s : State} (h : Canon s) : Canon (execForce _src s) := by
  unfold execForce
  repeat' first
    | with_reducible apply canon_calForce
    | with_reducible assumption

theorem canon_execCalTrimWrite {src : Source} {v : Word} {s : State} (h : Canon s) : Canon (execCalTrimWrite src v s) := by
  unfold execCalTrimWrite
  repeat' first
    | (with_reducible apply canon_whenOpen) <;> intros
    | with_reducible apply canon_accFirst
    | with_reducible apply canon_calTrimWrite
    | split
    | with_reducible assumption

theorem canon_execFabPortSelWrite {_src : Source} {v : Word} {s : State} (h : Canon s) : Canon (execFabPortSelWrite _src v s) := by
  unfold execFabPortSelWrite
  repeat' first
    | with_reducible apply canon_putReg
    | with_reducible assumption

theorem canon_execPwrRtcHiWrite {_src : Source} {v : Word} {s : State} (h : Canon s) : Canon (execPwrRtcHiWrite _src v s) := by
  unfold execPwrRtcHiWrite
  repeat' first
    | (extract_lets -lift +onlyGivenNames s1; first | (refine canon_cut (v := s1) ?_ ?_ <;> [(unfold s1; clear s1); (intro _; try clear_value s1)]) | (refine canon_cut (v := s1.2) ?_ ?_ <;> [(unfold s1; clear s1); (intro _; try clear_value s1)]) | try clear_value s1)
    | with_reducible apply canon_putReg
    | with_reducible exact canon_mk (by assumption)
    | with_reducible assumption

theorem canon_execPwrAlarmHiWrite {_src : Source} {v : Word} {s : State} (h : Canon s) : Canon (execPwrAlarmHiWrite _src v s) := by
  unfold execPwrAlarmHiWrite
  repeat' first
    | (extract_lets -lift +onlyGivenNames s1; first | (refine canon_cut (v := s1) ?_ ?_ <;> [(unfold s1; clear s1); (intro _; try clear_value s1)]) | (refine canon_cut (v := s1.2) ?_ ?_ <;> [(unfold s1; clear s1); (intro _; try clear_value s1)]) | try clear_value s1)
    | with_reducible apply canon_putReg
    | with_reducible exact canon_mk (by assumption)
    | with_reducible assumption

theorem canon_execPwrPmbSelWrite {_src : Source} {v : Word} {s : State} (h : Canon s) : Canon (execPwrPmbSelWrite _src v s) := by
  unfold execPwrPmbSelWrite
  repeat' first
    | with_reducible apply canon_putReg
    | with_reducible assumption

theorem canon_execPwrVcoreWrite {src : Source} {v : Word} {s : State} (h : Canon s) : Canon (execPwrVcoreWrite src v s) := by
  unfold execPwrVcoreWrite
  repeat' first
    | (with_reducible apply canon_whenOpen) <;> intros
    | with_reducible apply canon_sendVcore
    | with_reducible apply canon_putReg
    | with_reducible assumption

theorem canon_execTsmUrgent {_src : Source} {v : Word} {s : State} (h : Canon s) : Canon (execTsmUrgent _src v s) := by
  unfold execTsmUrgent
  repeat' first
    | with_reducible apply canon_tsmUrgentWrite
    | with_reducible assumption

theorem canon_execTsmSelWrite {_src : Source} {v : Word} {s : State} (h : Canon s) : Canon (execTsmSelWrite _src v s) := by
  unfold execTsmSelWrite
  repeat' first
    | with_reducible apply canon_putReg
    | with_reducible assumption

theorem canon_execTsmChWinWrite {_src : Source} {v : Word} {s : State} (h : Canon s) : Canon (execTsmChWinWrite _src v s) := by
  unfold execTsmChWinWrite
  repeat' first
    | with_reducible apply canon_tsmChWinWrite
    | with_reducible assumption

theorem canon_execSprSelectionWrite {_src : Source} {which : Fin 5} {v : Word} {s : State} (h : Canon s) : Canon (execSprSelectionWrite _src which v s) := by
  unfold execSprSelectionWrite
  repeat' first
    | with_reducible apply canon_putReg
    | with_reducible assumption

theorem canon_execHstSelectionWrite {_src : Source} {which : Fin 3} {v : Word} {s : State} (h : Canon s) : Canon (execHstSelectionWrite _src which v s) := by
  unfold execHstSelectionWrite
  repeat' first
    | with_reducible apply canon_putReg
    | with_reducible assumption

theorem canon_execHstMboxProdWrite {_src : Source} {v : Word} {s : State} (h : Canon s) : Canon (execHstMboxProdWrite _src v s) := by
  unfold execHstMboxProdWrite
  repeat' first
    | with_reducible apply canon_putReg
    | with_reducible assumption

theorem canon_qpCtxWrite {i : Nat} {v : Nat} {s : State} (h : Canon s) : Canon (qpCtxWrite i v s) := by
  unfold qpCtxWrite
  repeat' first
    | (extract_lets -lift +onlyGivenNames s1; first | (refine canon_cut (v := s1) ?_ ?_ <;> [(unfold s1; clear s1); (intro _; try clear_value s1)]) | (refine canon_cut (v := s1.2) ?_ ?_ <;> [(unfold s1; clear s1); (intro _; try clear_value s1)]) | try clear_value s1)
    | with_reducible apply canon_ctxWrite
    | split
    | with_reducible assumption

theorem canon_execQpStateWrite {_src : Source} {v : Word} {s : State} (h : Canon s) : Canon (execQpStateWrite _src v s) := by
  unfold execQpStateWrite
  repeat' first
    | with_reducible apply canon_qpCtxWrite
    | with_reducible assumption

theorem canon_schCtrl {src : Source} {v : Nat} {s : State} (h : Canon s) : Canon (schCtrl src v s) := by
  unfold schCtrl
  repeat' first
    | (extract_lets -lift +onlyGivenNames s1; first | (refine canon_cut (v := s1) ?_ ?_ <;> [(unfold s1; clear s1); (intro _; try clear_value s1)]) | (refine canon_cut (v := s1.2) ?_ ?_ <;> [(unfold s1; clear s1); (intro _; try clear_value s1)]) | try clear_value s1)
    | with_reducible apply canon_putReg
    | with_reducible apply canon_execCastingLoad
    | with_reducible apply canon_execArm
    | with_reducible apply canon_execHalt
    | split
    | with_reducible assumption

theorem canon_calCtrl {src : Source} {v : Nat} {s : State} (h : Canon s) : Canon (calCtrl src v s) := by
  unfold calCtrl
  repeat' first
    | (extract_lets -lift +onlyGivenNames s1; first | (refine canon_cut (v := s1) ?_ ?_ <;> [(unfold s1; clear s1); (intro _; try clear_value s1)]) | (refine canon_cut (v := s1.2) ?_ ?_ <;> [(unfold s1; clear s1); (intro _; try clear_value s1)]) | try clear_value s1)
    | with_reducible apply canon_accState
    | (with_reducible apply canon_onBit) <;> intros
    | with_reducible apply canon_execForce
    | with_reducible apply canon_putReg
    | split
    | with_reducible assumption

theorem canon_nvsCtrl {src : Source} {v : Nat} {s : State} (h : Canon s) : Canon (nvsCtrl src v s) := by
  unfold nvsCtrl
  repeat' first
    | (extract_lets -lift +onlyGivenNames s1; first | (refine canon_cut (v := s1) ?_ ?_ <;> [(unfold s1; clear s1); (intro _; try clear_value s1)]) | (refine canon_cut (v := s1.2) ?_ ?_ <;> [(unfold s1; clear s1); (intro _; try clear_value s1)]) | try clear_value s1)
    | (with_reducible apply canon_onBit) <;> intros
    | with_reducible apply canon_execOwnerClear
    | with_reducible apply canon_execQuote
    | with_reducible apply canon_execStore
    | with_reducible apply canon_execRetry
    | with_reducible apply canon_execReboot
    | split
    | with_reducible assumption

theorem canon_ingCtrl {src : Source} {v : Nat} {s : State} (h : Canon s) : Canon (ingCtrl src v s) := by
  unfold ingCtrl
  repeat' first
    | (extract_lets -lift +onlyGivenNames s1; first | (refine canon_cut (v := s1) ?_ ?_ <;> [(unfold s1; clear s1); (intro _; try clear_value s1)]) | (refine canon_cut (v := s1.2) ?_ ?_ <;> [(unfold s1; clear s1); (intro _; try clear_value s1)]) | try clear_value s1)
    | (with_reducible apply canon_onBit) <;> intros
    | with_reducible apply canon_execIngFetch
    | with_reducible apply canon_execIngRestore
    | with_reducible apply canon_execIngCall
    | with_reducible apply canon_execPurge
    | with_reducible apply canon_execIngAbandon
    | with_reducible assumption

theorem canon_pkgFreed {a : Nat} {s : State} (h : Canon s) : Canon (pkgFreed a s) := by
  unfold pkgFreed
  repeat' first
    | with_reducible apply canon_wr
    | with_reducible apply canon_sticky
    | split
    | with_reducible assumption

theorem canon_entryWrite {a : Nat} {v : Nat} {s : State} (h : Canon s) : Canon (entryWrite a v s) := by
  unfold entryWrite
  repeat' first
    | with_reducible apply canon_putBits
    | split
    | with_reducible assumption

theorem canon_pkgWrite {src : Source} {a : Nat} {v : Nat} {s : State} (h : Canon s) : Canon (pkgWrite src a v s) := by
  unfold pkgWrite
  repeat' first
    | with_reducible refine canon_ite ?_ ?_
    | (extract_lets -lift +onlyGivenNames s1; first | (refine canon_cut (v := s1) ?_ ?_ <;> [(unfold s1; clear s1); (intro _; try clear_value s1)]) | (refine canon_cut (v := s1.2) ?_ ?_ <;> [(unfold s1; clear s1); (intro _; try clear_value s1)]) | try clear_value s1)
    | with_reducible apply canon_schCtrl
    | with_reducible apply canon_calCtrl
    | with_reducible apply canon_nvsCtrl
    | with_reducible apply canon_ingCtrl
    | (with_reducible apply canon_onBit) <;> intros
    | with_reducible apply canon_execPprRun
    | with_reducible apply canon_execMemCntClr
    | with_reducible apply canon_execFabCntClr
    | with_reducible apply canon_execDiscRun
    | with_reducible apply canon_execHstCntClr
    | with_reducible apply canon_putReg
    | with_reducible apply canon_execTsmCntClr
    | with_reducible apply canon_execMgtCntClr
    | with_reducible apply canon_execBraze
    | with_reducible apply canon_execIngHostAck
    | with_reducible apply canon_execHstOwnerWrite
    | with_reducible apply canon_execNvsMinSvnWrite
    | with_reducible apply canon_execCalTrimWrite
    | with_reducible apply canon_execTsmUrgent
    | with_reducible apply canon_execTsmChWinWrite
    | with_reducible apply canon_execPwrVcoreWrite
    | with_reducible apply canon_execPwrRtcHiWrite
    | with_reducible apply canon_execPwrAlarmHiWrite
    | with_reducible apply canon_localLevel
    | with_reducible apply canon_capLimits
    | with_reducible apply canon_cmapWrite
    | with_reducible apply canon_colmapWrite
    | with_reducible apply canon_sprArrayWrite
    | with_reducible apply canon_qpCtxWrite
    | with_reducible apply canon_entryWrite
    | with_reducible apply canon_pkgFreed
    | split
    | with_reducible assumption

theorem canon_ctlWriteWord {src : Source} {a : Nat} {v : Nat} {s : State} (h : Canon s) : Canon (ctlWriteWord src a v s) := by
  unfold ctlWriteWord
  repeat' first
    | with_reducible apply canon_accFirst
    | with_reducible apply canon_accState
    | with_reducible apply canon_cellWrite
    | with_reducible apply canon_pkgWrite
    | split
    | with_reducible assumption

theorem canon_ctlWrite {src : Source} {a : Nat} {v : Nat} {size : Nat} {s : State} (h : Canon s) : Canon (ctlWrite src a v size s) := by
  unfold ctlWrite
  dsimp only
  repeat' first
    | (extract_lets -lift +onlyGivenNames s1; first | (refine canon_cut (v := s1) ?_ ?_ <;> [(unfold s1; clear s1); (intro _; try clear_value s1)]) | (refine canon_cut (v := s1.2) ?_ ?_ <;> [(unfold s1; clear s1); (intro _; try clear_value s1)]) | try clear_value s1)
    | with_reducible apply canon_ctlWriteWord
    | with_reducible apply canon_accFirst
    | (with_reducible apply canon_each); intros
    | split
    | with_reducible assumption

theorem canon_servedRead {src : Source} {a : Nat} {s : State} (h : Canon s) : Canon (servedRead src a s).2 := by
  unfold servedRead
  repeat' first
    | with_reducible apply canon_ctlRead
    | with_reducible apply canon_arrive
    | with_reducible assumption

theorem canon_servedWrite {src : Source} {a : Nat} {v : Nat} {size : Nat} {s : State} (h : Canon s) : Canon (servedWrite src a v size s) := by
  unfold servedWrite
  repeat' first
    | with_reducible apply canon_ctlWrite
    | with_reducible apply canon_arrive
    | with_reducible assumption

theorem canon_execRegisterWrite {src : Source} {addr : BitVec 32} {value : Word} {size : Fin 5} {s : State} (h : Canon s) : Canon (execRegisterWrite src addr value size s) := by
  unfold execRegisterWrite
  repeat' first
    | with_reducible apply canon_ctlWrite
    | with_reducible assumption

theorem canon_discard {port : Nat} {s : State} (h : Canon s) : Canon (discard port s) := by
  unfold discard
  repeat' first
    | with_reducible apply canon_bump
    | split
    | with_reducible assumption

theorem canon_execArpRequest {port : Fin 4} {vlan : BitVec 16} {target : BitVec 32} {sender : List Byte} {s : State} (h : Canon s) : Canon (execArpRequest port vlan target sender s) := by
  unfold execArpRequest
  repeat' first
    | with_reducible apply canon_emit
    | with_reducible apply canon_discard
    | split
    | with_reducible assumption

theorem canon_execNeighbourSolicitation {port : Fin 5} {vlan : BitVec 16} {target : BitVec 128} {sender : List Byte} {s : State} (h : Canon s) : Canon (execNeighbourSolicitation port vlan target sender s) := by
  unfold execNeighbourSolicitation
  repeat' first
    | with_reducible apply canon_emit
    | with_reducible apply canon_discard
    | split
    | with_reducible assumption

theorem canon_execIcmpEchoRequest {port : Fin 5} {vlan : BitVec 16} {v6 : Bool} {target : BitVec 128} {payload : List Byte} {s : State} (h : Canon s) : Canon (execIcmpEchoRequest port vlan v6 target payload s) := by
  unfold execIcmpEchoRequest
  repeat' first
    | (extract_lets -lift +onlyGivenNames s1; first | (refine canon_cut (v := s1) ?_ ?_ <;> [(unfold s1; clear s1); (intro _; try clear_value s1)]) | (refine canon_cut (v := s1.2) ?_ ?_ <;> [(unfold s1; clear s1); (intro _; try clear_value s1)]) | try clear_value s1)
    | with_reducible apply canon_emit
    | with_reducible apply canon_discard
    | split
    | with_reducible assumption

theorem canon_execFrameDiscard {port : Fin 5} {unsup : Bool} {qp : Option (Fin 8192)} {psn : BitVec 24} {s : State} (h : Canon s) : Canon (execFrameDiscard port unsup qp psn s) := by
  unfold execFrameDiscard
  repeat' first
    | (extract_lets -lift +onlyGivenNames s1; first | (refine canon_cut (v := s1) ?_ ?_ <;> [(unfold s1; clear s1); (intro _; try clear_value s1)]) | (refine canon_cut (v := s1.2) ?_ ?_ <;> [(unfold s1; clear s1); (intro _; try clear_value s1)]) | try clear_value s1)
    | with_reducible apply canon_discard
    | with_reducible apply canon_sticky
    | with_reducible apply canon_nakError
    | split
    | with_reducible assumption

theorem canon_execHostUncorrectableCodeword {port : Fin 4} {s : State} (h : Canon s) : Canon (execHostUncorrectableCodeword port s) := by
  unfold execHostUncorrectableCodeword
  repeat' first
    | with_reducible apply canon_sticky
    | split
    | with_reducible assumption

theorem canon_congested {q : Nat} {ce : Bool} {s : State} (h : Canon s) : Canon (congested q ce s) := by
  unfold congested
  repeat' first
    | (extract_lets -lift +onlyGivenNames s1; first | (refine canon_cut (v := s1) ?_ ?_ <;> [(unfold s1; clear s1); (intro _; try clear_value s1)]) | (refine canon_cut (v := s1.2) ?_ ?_ <;> [(unfold s1; clear s1); (intro _; try clear_value s1)]) | try clear_value s1)
    | with_reducible apply canon_emitPacket
    | with_reducible apply canon_bump
    | with_reducible apply canon_setQp
    | split
    | with_reducible exact canon_mk (by assumption)
    | with_reducible assumption

theorem canon_ackAgain {q : Nat} {s : State} (h : Canon s) : Canon (ackAgain q s) := by
  unfold ackAgain
  repeat' first
    | with_reducible apply canon_sendAck
    | with_reducible apply canon_setQp
    | with_reducible exact canon_mk (by assumption)
    | with_reducible assumption

theorem canon_psnGap {q : Nat} {s : State} (h : Canon s) : Canon (psnGap q s) := by
  unfold psnGap
  repeat' first
    | with_reducible apply canon_sendNak
    | with_reducible apply canon_setQp
    | split
    | with_reducible exact canon_mk (by assumption)
    | with_reducible assumption

theorem canon_request {q : Nat} {cls : Nat} {psn : BitVec 24} {ce : Bool} {n : Nat} {dup : State → State} {body : State → Bool × State} {s : State} (h_dup : ∀ a0, Canon a0 → Canon (dup a0)) (h_body : ∀ a0, Canon a0 → Canon (body a0).2) (h : Canon s) : Canon (request q cls psn ce n dup body s) := by
  unfold request
  repeat' first
    | with_reducible apply h_dup
    | with_reducible apply h_body
    | (extract_lets -lift +onlyGivenNames s1; first | (refine canon_cut (v := s1) ?_ ?_ <;> [(unfold s1; clear s1); (intro _; try clear_value s1)]) | (refine canon_cut (v := s1.2) ?_ ?_ <;> [(unfold s1; clear s1); (intro _; try clear_value s1)]) | try clear_value s1)
    | with_reducible apply canon_congested
    | with_reducible apply canon_nakError
    | with_reducible apply canon_psnGap
    | with_reducible apply canon_setCtx
    | with_reducible apply canon_oweAck
    | with_reducible apply canon_setQp
    | split
    | with_reducible exact canon_mk (by assumption)
    | with_reducible assumption

theorem canon_execMailboxSend {qp : Fin 8192} {psn : BitVec 24} {ce : Bool} {payload : List Byte} {s : State} (h : Canon s) : Canon (execMailboxSend qp psn ce payload s) := by
  unfold execMailboxSend
  repeat' first
    | (extract_lets -lift +onlyGivenNames s1; first | (refine canon_cut (v := s1) ?_ ?_ <;> [(unfold s1; clear s1); (intro _; try clear_value s1)]) | (refine canon_cut (v := s1.2) ?_ ?_ <;> [(unfold s1; clear s1); (intro _; try clear_value s1)]) | try clear_value s1)
    | (with_reducible apply canon_request) <;> intros
    | with_reducible apply canon_ackAgain
    | with_reducible apply canon_nakError
    | with_reducible apply canon_sticky
    | with_reducible apply canon_sendNak
    | with_reducible apply canon_mboxPut
    | with_reducible apply canon_wr
    | split
    | with_reducible exact canon_mk (by assumption)
    | with_reducible assumption

theorem canon_hostPlace {a : Nat} {data : List Byte} {s : State} (h : Canon s) : Canon (hostPlace a data s) := by
  unfold hostPlace
  repeat' first
    | (extract_lets -lift +onlyGivenNames s1; first | (refine canon_cut (v := s1) ?_ ?_ <;> [(unfold s1; clear s1); (intro _; try clear_value s1)]) | (refine canon_cut (v := s1.2) ?_ ?_ <;> [(unfold s1; clear s1); (intro _; try clear_value s1)]) | try clear_value s1)
    | with_reducible apply canon_asyncWrite
    | with_reducible apply canon_setFld
    | split
    | with_reducible exact canon_mk (by assumption)
    | with_reducible assumption

theorem canon_windowWrite {va : Nat} {data : List Byte} {s : State} (h : Canon s) : Canon (windowWrite va data s) := by
  unfold windowWrite
  repeat' first
    | (with_reducible apply canon_each); intros
    | with_reducible apply canon_servedWrite
    | with_reducible assumption

theorem canon_windowRead {va : Nat} {n : Nat} {s : State} (h : Canon s) : Canon (windowRead va n s).2 := by
  unfold windowRead
  repeat' first
    | (with_reducible apply canon_foldl) <;> intros
    | (extract_lets -lift +onlyGivenNames s1; first | (refine canon_cut (v := s1) ?_ ?_ <;> [(unfold s1; clear s1); (intro _; try clear_value s1)]) | (refine canon_cut (v := s1.2) ?_ ?_ <;> [(unfold s1; clear s1); (intro _; try clear_value s1)]) | try clear_value s1)
    | with_reducible apply canon_servedRead
    | with_reducible assumption

theorem canon_execRdmaWrite {qp : Fin 8192} {psn : BitVec 24} {ce : Bool} {rkey : Word} {va : BitVec 64} {payload : List Byte} {s : State} (h : Canon s) : Canon (execRdmaWrite qp psn ce rkey va payload s) := by
  unfold execRdmaWrite
  repeat' first
    | (extract_lets -lift +onlyGivenNames s1; first | (refine canon_cut (v := s1) ?_ ?_ <;> [(unfold s1; clear s1); (intro _; try clear_value s1)]) | (refine canon_cut (v := s1.2) ?_ ?_ <;> [(unfold s1; clear s1); (intro _; try clear_value s1)]) | try clear_value s1)
    | (with_reducible apply canon_request) <;> intros
    | with_reducible apply canon_ackAgain
    | with_reducible apply canon_nakError
    | with_reducible apply canon_sticky
    | with_reducible apply canon_windowWrite
    | with_reducible apply canon_hostPlace
    | with_reducible apply canon_sendAck
    | split
    | with_reducible assumption

theorem canon_readPackets {q a len mtu n : Nat} {psn : BitVec 24} {f i : Nat} {s : State} (h : Canon s) :
    Canon (readPackets q a len mtu n psn f i s).2 := by
  induction f generalizing i s with
  | zero => exact h
  | succ f ih =>
    rw [readPackets]
    split
    · exact canon_nakError (canon_sticky (canon_readSpan h))
    · exact ih (canon_emit (canon_readSpan h))

theorem canon_serveRead {q : Nat} {psn : BitVec 24} {rkey : Nat} {va : Nat} {len : Nat} {mtu : Nat} {n : Nat} {s : State} (h : Canon s) : Canon (serveRead q psn rkey va len mtu n s).2 := by
  unfold serveRead
  repeat' first
    | (extract_lets -lift +onlyGivenNames s1; first | (refine canon_cut (v := s1) ?_ ?_ <;> [(unfold s1; clear s1); (intro _; try clear_value s1)]) | (refine canon_cut (v := s1.2) ?_ ?_ <;> [(unfold s1; clear s1); (intro _; try clear_value s1)]) | try clear_value s1)
    | with_reducible apply canon_nakError
    | with_reducible apply canon_sticky
    | with_reducible apply canon_readPackets
    | with_reducible apply canon_windowRead
    | (with_reducible apply canon_each); intros
    | with_reducible apply canon_emitPacket
    | split
    | with_reducible assumption

theorem canon_execRdmaReadRequest {qp : Fin 8192} {psn : BitVec 24} {ce : Bool} {rkey : Word} {va : BitVec 64} {len : BitVec 32} {s : State} (h : Canon s) : Canon (execRdmaReadRequest qp psn ce rkey va len s) := by
  unfold execRdmaReadRequest
  dsimp only
  repeat' first
    | (extract_lets -lift +onlyGivenNames s1; first | (refine canon_cut (v := s1) ?_ ?_ <;> [(unfold s1; clear s1); (intro _; try clear_value s1)]) | (refine canon_cut (v := s1.2) ?_ ?_ <;> [(unfold s1; clear s1); (intro _; try clear_value s1)]) | try clear_value s1)
    | with_reducible apply canon_serveRead
    | (with_reducible apply canon_request) <;> intros
    | with_reducible apply canon_setCtx
    | with_reducible apply canon_setQp
    | split
    | with_reducible exact canon_mk (by assumption)
    | with_reducible assumption

theorem canon_ackedBefore {q : Nat} {psn : BitVec 24} {s : State} (h : Canon s) : Canon (ackedBefore q psn s) := by
  unfold ackedBefore
  repeat' first
    | (extract_lets -lift +onlyGivenNames s1; first | (refine canon_cut (v := s1) ?_ ?_ <;> [(unfold s1; clear s1); (intro _; try clear_value s1)]) | (refine canon_cut (v := s1.2) ?_ ?_ <;> [(unfold s1; clear s1); (intro _; try clear_value s1)]) | try clear_value s1)
    | with_reducible apply canon_setQp
    | split
    | with_reducible exact canon_mk (by assumption)
    | with_reducible assumption

theorem canon_execAcknowledge {qp : Fin 8192} {psn : BitVec 24} {syndrome : Byte} {s : State} (h : Canon s) : Canon (execAcknowledge qp psn syndrome s) := by
  unfold execAcknowledge
  repeat' first
    | (extract_lets -lift +onlyGivenNames s1; first | (refine canon_cut (v := s1) ?_ ?_ <;> [(unfold s1; clear s1); (intro _; try clear_value s1)]) | (refine canon_cut (v := s1.2) ?_ ?_ <;> [(unfold s1; clear s1); (intro _; try clear_value s1)]) | try clear_value s1)
    | with_reducible apply canon_ackedBefore
    | with_reducible apply canon_setQp
    | with_reducible apply canon_resend
    | with_reducible apply canon_qpError
    | with_reducible apply canon_hostProgress
    | split
    | with_reducible exact canon_mk (by assumption)
    | with_reducible assumption

theorem canon_sinceCycle {from_ : Nat} {n : Nat} {s : State} (h : Canon s) : Canon (sinceCycle from_ n s) := by
  unfold sinceCycle
  repeat' first
    | with_reducible apply canon_toCycle
    | with_reducible assumption

theorem canon_execRetransmitTimeout {qp : Fin 8192} {s : State} (h : Canon s) : Canon (execRetransmitTimeout qp s) := by
  unfold execRetransmitTimeout
  repeat' first
    | (extract_lets -lift +onlyGivenNames s1; first | (refine canon_cut (v := s1) ?_ ?_ <;> [(unfold s1; clear s1); (intro _; try clear_value s1)]) | (refine canon_cut (v := s1.2) ?_ ?_ <;> [(unfold s1; clear s1); (intro _; try clear_value s1)]) | try clear_value s1)
    | with_reducible apply canon_sinceCycle
    | with_reducible apply canon_qpError
    | with_reducible apply canon_resend
    | with_reducible apply canon_setQp
    | split
    | with_reducible exact canon_mk (by assumption)
    | with_reducible assumption

theorem canon_execRnrTimer {qp : Fin 8192} {s : State} (h : Canon s) : Canon (execRnrTimer qp s) := by
  unfold execRnrTimer
  repeat' first
    | (extract_lets -lift +onlyGivenNames s1; first | (refine canon_cut (v := s1) ?_ ?_ <;> [(unfold s1; clear s1); (intro _; try clear_value s1)]) | (refine canon_cut (v := s1.2) ?_ ?_ <;> [(unfold s1; clear s1); (intro _; try clear_value s1)]) | try clear_value s1)
    | with_reducible apply canon_qpError
    | with_reducible apply canon_resend
    | with_reducible apply canon_setQp
    | split
    | with_reducible exact canon_mk (by assumption)
    | with_reducible assumption

theorem canon_execAckCoalesceTimer {qp : Fin 8192} {s : State} (h : Canon s) : Canon (execAckCoalesceTimer qp s) := by
  unfold execAckCoalesceTimer
  repeat' first
    | (extract_lets -lift +onlyGivenNames s1; first | (refine canon_cut (v := s1) ?_ ?_ <;> [(unfold s1; clear s1); (intro _; try clear_value s1)]) | (refine canon_cut (v := s1.2) ?_ ?_ <;> [(unfold s1; clear s1); (intro _; try clear_value s1)]) | try clear_value s1)
    | with_reducible apply canon_sendAck
    | with_reducible apply canon_sinceCycle
    | split
    | with_reducible assumption

theorem canon_setRate {q : Nat} {rate : Nat} {alpha : Nat} {s : State} (h : Canon s) : Canon (setRate q rate alpha s) := by
  unfold setRate
  repeat' first
    | (extract_lets -lift +onlyGivenNames s1; first | (refine canon_cut (v := s1) ?_ ?_ <;> [(unfold s1; clear s1); (intro _; try clear_value s1)]) | (refine canon_cut (v := s1.2) ?_ ?_ <;> [(unfold s1; clear s1); (intro _; try clear_value s1)]) | try clear_value s1)
    | with_reducible apply canon_setCtx
    | with_reducible apply canon_setQp
    | with_reducible exact canon_mk (by assumption)
    | with_reducible assumption

theorem canon_execCongestionNotification {qp : Fin 8192} {s : State} (h : Canon s) : Canon (execCongestionNotification qp s) := by
  unfold execCongestionNotification
  repeat' first
    | (extract_lets -lift +onlyGivenNames s1; first | (refine canon_cut (v := s1) ?_ ?_ <;> [(unfold s1; clear s1); (intro _; try clear_value s1)]) | (refine canon_cut (v := s1.2) ?_ ?_ <;> [(unfold s1; clear s1); (intro _; try clear_value s1)]) | try clear_value s1)
    | with_reducible apply canon_setRate
    | with_reducible apply canon_bump
    | split
    | with_reducible assumption

theorem canon_execRateIncreaseTimer {qp : Fin 8192} {s : State} (h : Canon s) : Canon (execRateIncreaseTimer qp s) := by
  unfold execRateIncreaseTimer
  repeat' first
    | (extract_lets -lift +onlyGivenNames s1; first | (refine canon_cut (v := s1) ?_ ?_ <;> [(unfold s1; clear s1); (intro _; try clear_value s1)]) | (refine canon_cut (v := s1.2) ?_ ?_ <;> [(unfold s1; clear s1); (intro _; try clear_value s1)]) | try clear_value s1)
    | with_reducible apply canon_sinceCycle
    | with_reducible apply canon_setRate
    | split
    | with_reducible assumption

theorem canon_tallyWords {a : Nat} {count : Nat} {s : State} (h : Canon s) : Canon (tallyWords a count s).2 := by
  unfold tallyWords
  repeat' first
    | (with_reducible apply canon_foldl) <;> intros
    | (extract_lets -lift +onlyGivenNames s1; first | (refine canon_cut (v := s1) ?_ ?_ <;> [(unfold s1; clear s1); (intro _; try clear_value s1)]) | (refine canon_cut (v := s1.2) ?_ ?_ <;> [(unfold s1; clear s1); (intro _; try clear_value s1)]) | try clear_value s1)
    | with_reducible apply canon_servedRead
    | with_reducible assumption

theorem canon_tallyRun {op : Nat} {m : List Byte} {s : State} (h : Canon s) : Canon (tallyRun op m s).2.2 := by
  unfold tallyRun
  repeat' first
    | (extract_lets -lift +onlyGivenNames s1; first | (refine canon_cut (v := s1) ?_ ?_ <;> [(unfold s1; clear s1); (intro _; try clear_value s1)]) | (refine canon_cut (v := s1.2) ?_ ?_ <;> [(unfold s1; clear s1); (intro _; try clear_value s1)]) | try clear_value s1)
    | with_reducible apply canon_tallyWords
    | (with_reducible apply canon_each); intros
    | with_reducible apply canon_servedWrite
    | split
    | with_reducible assumption

theorem canon_tallyTaken {s : State} (h : Canon s) : Canon (tallyTaken s) := by
  unfold tallyTaken
  repeat' first
    | (extract_lets -lift +onlyGivenNames s1; first | (refine canon_cut (v := s1) ?_ ?_ <;> [(unfold s1; clear s1); (intro _; try clear_value s1)]) | (refine canon_cut (v := s1.2) ?_ ?_ <;> [(unfold s1; clear s1); (intro _; try clear_value s1)]) | try clear_value s1)
    | with_reducible exact canon_mk (by assumption)
    | with_reducible assumption

theorem canon_tallyServed {op : Nat} {m : List Byte} {s : State} (h : Canon s) : Canon (tallyServed op m s) :=
  canon_ite (canon_record (canon_sticky (canon_bump h))) (canon_ite (canon_emit h)
    (canon_ite (canon_ite h (canon_emit h)) (canon_ite (canon_sticky (canon_bump h))
      (canon_emit (canon_mk (canon_ite (canon_bump (canon_wr (canon_tallyRun h))) (canon_wr (canon_tallyRun h))))))))

theorem canon_tally {op : Nat} {m : List Byte} {s : State} (h : Canon s) : Canon (tally op m s) :=
  canon_ite h (canon_ite (canon_sticky h) (canon_tallyServed (canon_tallyTaken h)))

theorem canon_execTallyRead {msg : List Byte} {s : State} (h : Canon s) : Canon (execTallyRead msg s) := by
  unfold execTallyRead
  repeat' first
    | with_reducible apply canon_tally
    | split
    | with_reducible assumption

theorem canon_execTallyWrite {msg : List Byte} {s : State} (h : Canon s) : Canon (execTallyWrite msg s) := by
  unfold execTallyWrite
  repeat' first
    | with_reducible apply canon_tally
    | split
    | with_reducible assumption

theorem canon_execDwiWake {addr : BitVec 16} {s : State} (h : Canon s) : Canon (execDwiWake addr s) := by
  unfold execDwiWake
  repeat' first
    | (extract_lets -lift +onlyGivenNames s1; first | (refine canon_cut (v := s1) ?_ ?_ <;> [(unfold s1; clear s1); (intro _; try clear_value s1)]) | (refine canon_cut (v := s1.2) ?_ ?_ <;> [(unfold s1; clear s1); (intro _; try clear_value s1)]) | try clear_value s1)
    | with_reducible apply canon_bump
    | split
    | with_reducible exact canon_mk (by assumption)
    | with_reducible assumption

theorem canon_dwiWord {a : Nat} {s : State} (h : Canon s) : Canon (dwiWord a s).2 := by
  unfold dwiWord
  repeat' first
    | (extract_lets -lift +onlyGivenNames s1; first | (refine canon_cut (v := s1) ?_ ?_ <;> [(unfold s1; clear s1); (intro _; try clear_value s1)]) | (refine canon_cut (v := s1.2) ?_ ?_ <;> [(unfold s1; clear s1); (intro _; try clear_value s1)]) | try clear_value s1)
    | with_reducible apply canon_servedRead
    | split
    | with_reducible assumption

theorem canon_execDwiRead {addr : BitVec 16} {offset : BitVec 18} {s : State} (h : Canon s) : Canon (execDwiRead addr offset s) := by
  unfold execDwiRead
  repeat' first
    | (extract_lets -lift +onlyGivenNames s1; first | (refine canon_cut (v := s1) ?_ ?_ <;> [(unfold s1; clear s1); (intro _; try clear_value s1)]) | (refine canon_cut (v := s1.2) ?_ ?_ <;> [(unfold s1; clear s1); (intro _; try clear_value s1)]) | try clear_value s1)
    | with_reducible apply canon_dwiWord
    | with_reducible apply canon_bump
    | with_reducible apply canon_emit
    | split
    | with_reducible assumption

theorem canon_execDwiTimeout {s : State} (h : Canon s) : Canon (execDwiTimeout s) := by
  unfold execDwiTimeout
  repeat' first
    | with_reducible apply canon_sticky
    | split
    | with_reducible assumption

theorem canon_execSgmiiLinkLost {s : State} (h : Canon s) : Canon (execSgmiiLinkLost s) := by
  unfold execSgmiiLinkLost
  repeat' first
    | with_reducible apply canon_sticky
    | split
    | with_reducible exact canon_mk (by assumption)
    | with_reducible assumption

theorem canon_execSgmiiLinkUp {s : State} (h : Canon s) : Canon (execSgmiiLinkUp s) := by
  unfold execSgmiiLinkUp
  repeat' first
    | split
    | with_reducible exact canon_mk (by assumption)
    | with_reducible assumption

theorem canon_crossbar {f : State → State} {s : State} (h_f : ∀ a0, Canon a0 → Canon (f a0)) (h : Canon s) : Canon (crossbar f s) := by
  unfold crossbar
  repeat' first
    | with_reducible apply h_f
    | with_reducible apply canon_arrive
    | split
    | with_reducible assumption

end Sys2Proof.Machine
end

