-- ==== Sys2Proof/Laws/Issue.lean ====
section
/-! SUPPORT. What issuing a slot word comes to: an executed word does its effect in the state of its issue tick, a refused one raises its
violations there. -/
set_option Elab.async false
namespace Sys2Proof.Machine

variable {head : BitVec 8} {w : Slot} {ready : State → Bool} {body : State → State} {s : State}

theorem reaches_iff : reaches head w s = true ↔ s.run.on = true ∧ schState s = 4 ∧ schState (runTo (issueTick s (head.toNat / 16) w) s) = 4 ∧
    now (runTo (issueTick s (head.toNat / 16) w) s) = issueTick s (head.toNat / 16) w ∧
    isNext (runTo (issueTick s (head.toNat / 16) w) s) head w = true ∧
    ((nextWord (runTo (issueTick s (head.toNat / 16) w) s) w.place).isSome &&
      wordMark (runTo (issueTick s (head.toNat / 16) w) s) w.place == 2) = false ∧
    evalSkipped (runTo (issueTick s (head.toNat / 16) w) s) w = false := by
  simp only [reaches, Bool.and_eq_true, Bool.not_eq_true', beq_iff_eq, and_assoc]

theorem issue_reaches (h : reaches head w s = true) : issue head w ready body s =
    match refusals head w ready s with
    | [] => body (atIssue head w s)
    | l => each l (fun b s => viol b (head.toNat / 16) (placeDie w.place) (placeWhere w.place) s) (atIssue head w s) := by
  obtain ⟨h1, h2, h3, h4, h5, h6, h7⟩ := reaches_iff.1 h
  simp only [issue, h1, h2, h3, h4, h5, h6, h7, Bool.not_true, bne_self_eq_false, Bool.or_false, Bool.false_eq_true,
    if_false, refusals, atIssue]
  all_goals rfl

theorem acts_iff : acts head w ready s = true ↔ reaches head w s = true ∧ refusals head w ready s = [] := by simp [acts]

/-- An executed word does its effect in the state of its issue tick. -/
theorem issue_acts (h : acts head w ready s = true) : issue head w ready body s = body (atIssue head w s) := by
  obtain ⟨h1, h2⟩ := acts_iff.1 h
  rw [issue_reaches h1, h2]

/-- A refused word raises its violations and does nothing else. -/
theorem issue_refused (h : reaches head w s = true) (hr : refusals head w ready s ≠ []) : issue head w ready body s =
    each (refusals head w ready s) (fun b s => viol b (head.toNat / 16) (placeDie w.place) (placeWhere w.place) s) (atIssue head w s) := by
  rw [issue_reaches h]
  split <;> [contradiction; rfl]

end Sys2Proof.Machine
end

