-- ==== Sys2Proof/Laws/State.lean ====
section
/-! SUPPORT. The fields that the basic updates of the state leave alone, one lemma per field per update. -/
set_option Elab.async false
namespace Sys2Proof.Machine

variable (s : State)

/-! ### wr -/
@[simp] theorem wr_pending (k v : Nat) : (wr k v s).pending = s.pending := rfl
@[simp] theorem wr_time (k v : Nat) : (wr k v s).time = s.time := rfl
@[simp] theorem wr_freeCount (k v : Nat) : (wr k v s).freeCount = s.freeCount := rfl
@[simp] theorem wr_events (k v : Nat) : (wr k v s).events = s.events := rfl
@[simp] theorem wr_checks (k v : Nat) : (wr k v s).checks = s.checks := rfl
@[simp] theorem wr_casting (k v : Nat) : (wr k v s).casting = s.casting := rfl
@[simp] theorem wr_run (k v : Nat) : (wr k v s).run = s.run := rfl
@[simp] theorem wr_tab (k v : Nat) : (wr k v s).tab = s.tab := rfl
@[simp] theorem wr_streams (k v : Nat) : (wr k v s).streams = s.streams := rfl
@[simp] theorem wr_cells (k v : Nat) : (wr k v s).cells = s.cells := rfl
@[simp] theorem wr_flights (k v : Nat) : (wr k v s).flights = s.flights := rfl
@[simp] theorem wr_dram (k v : Nat) : (wr k v s).dram = s.dram := rfl
@[simp] theorem wr_mem (k v : Nat) : (wr k v s).mem = s.mem := rfl
@[simp] theorem wr_fab (k v : Nat) : (wr k v s).fab = s.fab := rfl
@[simp] theorem wr_host (k v : Nat) : (wr k v s).host = s.host := rfl
@[simp] theorem wr_health (k v : Nat) : (wr k v s).health = s.health := rfl
@[simp] theorem wr_ing (k v : Nat) : (wr k v s).ing = s.ing := rfl
@[simp] theorem wr_spr (k v : Nat) : (wr k v s).spr = s.spr := rfl
@[simp] theorem wr_pwr (k v : Nat) : (wr k v s).pwr = s.pwr := rfl
@[simp] theorem wr_tsm (k v : Nat) : (wr k v s).tsm = s.tsm := rfl
@[simp] theorem wr_nvs (k v : Nat) : (wr k v s).nvs = s.nvs := rfl
@[simp] theorem wr_mgt (k v : Nat) : (wr k v s).mgt = s.mgt := rfl
@[simp] theorem wr_sreg (k v : Nat) : (wr k v s).sreg = s.sreg := rfl
@[simp] theorem wr_sregEcc (k v : Nat) : (wr k v s).sregEcc = s.sregEcc := rfl
@[simp] theorem wr_out (k v : Nat) : (wr k v s).out = s.out := rfl

/-! ### setFld -/
@[simp] theorem setFld_pending (k hi lo v : Nat) : (setFld k hi lo v s).pending = s.pending := rfl
@[simp] theorem setFld_time (k hi lo v : Nat) : (setFld k hi lo v s).time = s.time := rfl
@[simp] theorem setFld_freeCount (k hi lo v : Nat) : (setFld k hi lo v s).freeCount = s.freeCount := rfl
@[simp] theorem setFld_events (k hi lo v : Nat) : (setFld k hi lo v s).events = s.events := rfl
@[simp] theorem setFld_checks (k hi lo v : Nat) : (setFld k hi lo v s).checks = s.checks := rfl
@[simp] theorem setFld_casting (k hi lo v : Nat) : (setFld k hi lo v s).casting = s.casting := rfl
@[simp] theorem setFld_run (k hi lo v : Nat) : (setFld k hi lo v s).run = s.run := rfl
@[simp] theorem setFld_tab (k hi lo v : Nat) : (setFld k hi lo v s).tab = s.tab := rfl
@[simp] theorem setFld_streams (k hi lo v : Nat) : (setFld k hi lo v s).streams = s.streams := rfl
@[simp] theorem setFld_cells (k hi lo v : Nat) : (setFld k hi lo v s).cells = s.cells := rfl
@[simp] theorem setFld_flights (k hi lo v : Nat) : (setFld k hi lo v s).flights = s.flights := rfl
@[simp] theorem setFld_dram (k hi lo v : Nat) : (setFld k hi lo v s).dram = s.dram := rfl
@[simp] theorem setFld_mem (k hi lo v : Nat) : (setFld k hi lo v s).mem = s.mem := rfl
@[simp] theorem setFld_fab (k hi lo v : Nat) : (setFld k hi lo v s).fab = s.fab := rfl
@[simp] theorem setFld_host (k hi lo v : Nat) : (setFld k hi lo v s).host = s.host := rfl
@[simp] theorem setFld_health (k hi lo v : Nat) : (setFld k hi lo v s).health = s.health := rfl
@[simp] theorem setFld_ing (k hi lo v : Nat) : (setFld k hi lo v s).ing = s.ing := rfl
@[simp] theorem setFld_spr (k hi lo v : Nat) : (setFld k hi lo v s).spr = s.spr := rfl
@[simp] theorem setFld_pwr (k hi lo v : Nat) : (setFld k hi lo v s).pwr = s.pwr := rfl
@[simp] theorem setFld_tsm (k hi lo v : Nat) : (setFld k hi lo v s).tsm = s.tsm := rfl
@[simp] theorem setFld_nvs (k hi lo v : Nat) : (setFld k hi lo v s).nvs = s.nvs := rfl
@[simp] theorem setFld_mgt (k hi lo v : Nat) : (setFld k hi lo v s).mgt = s.mgt := rfl
@[simp] theorem setFld_sreg (k hi lo v : Nat) : (setFld k hi lo v s).sreg = s.sreg := rfl
@[simp] theorem setFld_sregEcc (k hi lo v : Nat) : (setFld k hi lo v s).sregEcc = s.sregEcc := rfl
@[simp] theorem setFld_out (k hi lo v : Nat) : (setFld k hi lo v s).out = s.out := rfl

/-! ### sticky -/
@[simp] theorem sticky_pending (k bit : Nat) : (sticky k bit s).pending = s.pending := rfl
@[simp] theorem sticky_time (k bit : Nat) : (sticky k bit s).time = s.time := rfl
@[simp] theorem sticky_freeCount (k bit : Nat) : (sticky k bit s).freeCount = s.freeCount := rfl
theorem sticky_regs (k bit : Nat) : (sticky k bit s).regs = (wr k (rd s k ||| 2 ^ bit) s).regs := rfl
@[simp] theorem sticky_events (k bit : Nat) : (sticky k bit s).events = (k, bit) :: s.events := rfl
@[simp] theorem sticky_checks (k bit : Nat) : (sticky k bit s).checks = s.checks := rfl
@[simp] theorem sticky_casting (k bit : Nat) : (sticky k bit s).casting = s.casting := rfl
@[simp] theorem sticky_run (k bit : Nat) : (sticky k bit s).run = s.run := rfl
@[simp] theorem sticky_tab (k bit : Nat) : (sticky k bit s).tab = s.tab := rfl
@[simp] theorem sticky_streams (k bit : Nat) : (sticky k bit s).streams = s.streams := rfl
@[simp] theorem sticky_cells (k bit : Nat) : (sticky k bit s).cells = s.cells := rfl
@[simp] theorem sticky_flights (k bit : Nat) : (sticky k bit s).flights = s.flights := rfl
@[simp] theorem sticky_dram (k bit : Nat) : (sticky k bit s).dram = s.dram := rfl
@[simp] theorem sticky_mem (k bit : Nat) : (sticky k bit s).mem = s.mem := rfl
@[simp] theorem sticky_fab (k bit : Nat) : (sticky k bit s).fab = s.fab := rfl
@[simp] theorem sticky_host (k bit : Nat) : (sticky k bit s).host = s.host := rfl
@[simp] theorem sticky_health (k bit : Nat) : (sticky k bit s).health = s.health := rfl
@[simp] theorem sticky_ing (k bit : Nat) : (sticky k bit s).ing = s.ing := rfl
@[simp] theorem sticky_spr (k bit : Nat) : (sticky k bit s).spr = s.spr := rfl
@[simp] theorem sticky_pwr (k bit : Nat) : (sticky k bit s).pwr = s.pwr := rfl
@[simp] theorem sticky_tsm (k bit : Nat) : (sticky k bit s).tsm = s.tsm := rfl
@[simp] theorem sticky_nvs (k bit : Nat) : (sticky k bit s).nvs = s.nvs := rfl
@[simp] theorem sticky_mgt (k bit : Nat) : (sticky k bit s).mgt = s.mgt := rfl
@[simp] theorem sticky_sreg (k bit : Nat) : (sticky k bit s).sreg = s.sreg := rfl
@[simp] theorem sticky_sregEcc (k bit : Nat) : (sticky k bit s).sregEcc = s.sregEcc := rfl
@[simp] theorem sticky_out (k bit : Nat) : (sticky k bit s).out = s.out := rfl

/-! ### bumpFld -/
@[simp] theorem bumpFld_pending (k hi lo n : Nat) : (bumpFld k hi lo n s).pending = s.pending := rfl
@[simp] theorem bumpFld_time (k hi lo n : Nat) : (bumpFld k hi lo n s).time = s.time := rfl
@[simp] theorem bumpFld_freeCount (k hi lo n : Nat) : (bumpFld k hi lo n s).freeCount = s.freeCount := rfl
@[simp] theorem bumpFld_events (k hi lo n : Nat) : (bumpFld k hi lo n s).events = s.events := rfl
@[simp] theorem bumpFld_checks (k hi lo n : Nat) : (bumpFld k hi lo n s).checks = s.checks := rfl
@[simp] theorem bumpFld_casting (k hi lo n : Nat) : (bumpFld k hi lo n s).casting = s.casting := rfl
@[simp] theorem bumpFld_run (k hi lo n : Nat) : (bumpFld k hi lo n s).run = s.run := rfl
@[simp] theorem bumpFld_tab (k hi lo n : Nat) : (bumpFld k hi lo n s).tab = s.tab := rfl
@[simp] theorem bumpFld_streams (k hi lo n : Nat) : (bumpFld k hi lo n s).streams = s.streams := rfl
@[simp] theorem bumpFld_cells (k hi lo n : Nat) : (bumpFld k hi lo n s).cells = s.cells := rfl
@[simp] theorem bumpFld_flights (k hi lo n : Nat) : (bumpFld k hi lo n s).flights = s.flights := rfl
@[simp] theorem bumpFld_dram (k hi lo n : Nat) : (bumpFld k hi lo n s).dram = s.dram := rfl
@[simp] theorem bumpFld_mem (k hi lo n : Nat) : (bumpFld k hi lo n s).mem = s.mem := rfl
@[simp] theorem bumpFld_fab (k hi lo n : Nat) : (bumpFld k hi lo n s).fab = s.fab := rfl
@[simp] theorem bumpFld_host (k hi lo n : Nat) : (bumpFld k hi lo n s).host = s.host := rfl
@[simp] theorem bumpFld_health (k hi lo n : Nat) : (bumpFld k hi lo n s).health = s.health := rfl
@[simp] theorem bumpFld_ing (k hi lo n : Nat) : (bumpFld k hi lo n s).ing = s.ing := rfl
@[simp] theorem bumpFld_spr (k hi lo n : Nat) : (bumpFld k hi lo n s).spr = s.spr := rfl
@[simp] theorem bumpFld_pwr (k hi lo n : Nat) : (bumpFld k hi lo n s).pwr = s.pwr := rfl
@[simp] theorem bumpFld_tsm (k hi lo n : Nat) : (bumpFld k hi lo n s).tsm = s.tsm := rfl
@[simp] theorem bumpFld_nvs (k hi lo n : Nat) : (bumpFld k hi lo n s).nvs = s.nvs := rfl
@[simp] theorem bumpFld_mgt (k hi lo n : Nat) : (bumpFld k hi lo n s).mgt = s.mgt := rfl
@[simp] theorem bumpFld_sreg (k hi lo n : Nat) : (bumpFld k hi lo n s).sreg = s.sreg := rfl
@[simp] theorem bumpFld_sregEcc (k hi lo n : Nat) : (bumpFld k hi lo n s).sregEcc = s.sregEcc := rfl
@[simp] theorem bumpFld_out (k hi lo n : Nat) : (bumpFld k hi lo n s).out = s.out := rfl

/-! ### bump -/
@[simp] theorem bump_pending (k : Nat) : (bump k s).pending = s.pending := rfl
@[simp] theorem bump_time (k : Nat) : (bump k s).time = s.time := rfl
@[simp] theorem bump_freeCount (k : Nat) : (bump k s).freeCount = s.freeCount := rfl
@[simp] theorem bump_events (k : Nat) : (bump k s).events = s.events := rfl
@[simp] theorem bump_checks (k : Nat) : (bump k s).checks = s.checks := rfl
@[simp] theorem bump_casting (k : Nat) : (bump k s).casting = s.casting := rfl
@[simp] theorem bump_run (k : Nat) : (bump k s).run = s.run := rfl
@[simp] theorem bump_tab (k : Nat) : (bump k s).tab = s.tab := rfl
@[simp] theorem bump_streams (k : Nat) : (bump k s).streams = s.streams := rfl
@[simp] theorem bump_cells (k : Nat) : (bump k s).cells = s.cells := rfl
@[simp] theorem bump_flights (k : Nat) : (bump k s).flights = s.flights := rfl
@[simp] theorem bump_dram (k : Nat) : (bump k s).dram = s.dram := rfl
@[simp] theorem bump_mem (k : Nat) : (bump k s).mem = s.mem := rfl
@[simp] theorem bump_fab (k : Nat) : (bump k s).fab = s.fab := rfl
@[simp] theorem bump_host (k : Nat) : (bump k s).host = s.host := rfl
@[simp] theorem bump_health (k : Nat) : (bump k s).health = s.health := rfl
@[simp] theorem bump_ing (k : Nat) : (bump k s).ing = s.ing := rfl
@[simp] theorem bump_spr (k : Nat) : (bump k s).spr = s.spr := rfl
@[simp] theorem bump_pwr (k : Nat) : (bump k s).pwr = s.pwr := rfl
@[simp] theorem bump_tsm (k : Nat) : (bump k s).tsm = s.tsm := rfl
@[simp] theorem bump_nvs (k : Nat) : (bump k s).nvs = s.nvs := rfl
@[simp] theorem bump_mgt (k : Nat) : (bump k s).mgt = s.mgt := rfl
@[simp] theorem bump_sreg (k : Nat) : (bump k s).sreg = s.sreg := rfl
@[simp] theorem bump_sregEcc (k : Nat) : (bump k s).sregEcc = s.sregEcc := rfl
@[simp] theorem bump_out (k : Nat) : (bump k s).out = s.out := rfl

/-! ### emit -/
@[simp] theorem emit_pending (o : Output) : (emit o s).pending = s.pending := rfl
@[simp] theorem emit_time (o : Output) : (emit o s).time = s.time := rfl
@[simp] theorem emit_freeCount (o : Output) : (emit o s).freeCount = s.freeCount := rfl
@[simp] theorem emit_events (o : Output) : (emit o s).events = s.events := rfl
@[simp] theorem emit_checks (o : Output) : (emit o s).checks = s.checks := rfl
@[simp] theorem emit_regs (o : Output) : (emit o s).regs = s.regs := rfl
@[simp] theorem emit_casting (o : Output) : (emit o s).casting = s.casting := rfl
@[simp] theorem emit_run (o : Output) : (emit o s).run = s.run := rfl
@[simp] theorem emit_tab (o : Output) : (emit o s).tab = s.tab := rfl
@[simp] theorem emit_streams (o : Output) : (emit o s).streams = s.streams := rfl
@[simp] theorem emit_cells (o : Output) : (emit o s).cells = s.cells := rfl
@[simp] theorem emit_flights (o : Output) : (emit o s).flights = s.flights := rfl
@[simp] theorem emit_dram (o : Output) : (emit o s).dram = s.dram := rfl
@[simp] theorem emit_mem (o : Output) : (emit o s).mem = s.mem := rfl
@[simp] theorem emit_fab (o : Output) : (emit o s).fab = s.fab := rfl
@[simp] theorem emit_host (o : Output) : (emit o s).host = s.host := rfl
@[simp] theorem emit_health (o : Output) : (emit o s).health = s.health := rfl
@[simp] theorem emit_ing (o : Output) : (emit o s).ing = s.ing := rfl
@[simp] theorem emit_spr (o : Output) : (emit o s).spr = s.spr := rfl
@[simp] theorem emit_pwr (o : Output) : (emit o s).pwr = s.pwr := rfl
@[simp] theorem emit_tsm (o : Output) : (emit o s).tsm = s.tsm := rfl
@[simp] theorem emit_nvs (o : Output) : (emit o s).nvs = s.nvs := rfl
@[simp] theorem emit_mgt (o : Output) : (emit o s).mgt = s.mgt := rfl
@[simp] theorem emit_sreg (o : Output) : (emit o s).sreg = s.sreg := rfl
@[simp] theorem emit_sregEcc (o : Output) : (emit o s).sregEcc = s.sregEcc := rfl

/-! ### launch -/
@[simp] theorem launch_pending (d : Nat) (e : Effect) : (launch d e s).pending = s.pending := rfl
@[simp] theorem launch_time (d : Nat) (e : Effect) : (launch d e s).time = s.time := rfl
@[simp] theorem launch_freeCount (d : Nat) (e : Effect) : (launch d e s).freeCount = s.freeCount := rfl
@[simp] theorem launch_events (d : Nat) (e : Effect) : (launch d e s).events = s.events := rfl
@[simp] theorem launch_checks (d : Nat) (e : Effect) : (launch d e s).checks = s.checks := rfl
@[simp] theorem launch_regs (d : Nat) (e : Effect) : (launch d e s).regs = s.regs := rfl
@[simp] theorem launch_casting (d : Nat) (e : Effect) : (launch d e s).casting = s.casting := rfl
@[simp] theorem launch_run (d : Nat) (e : Effect) : (launch d e s).run = s.run := rfl
@[simp] theorem launch_tab (d : Nat) (e : Effect) : (launch d e s).tab = s.tab := rfl
@[simp] theorem launch_streams (d : Nat) (e : Effect) : (launch d e s).streams = s.streams := rfl
@[simp] theorem launch_cells (d : Nat) (e : Effect) : (launch d e s).cells = s.cells := rfl
@[simp] theorem launch_dram (d : Nat) (e : Effect) : (launch d e s).dram = s.dram := rfl
@[simp] theorem launch_mem (d : Nat) (e : Effect) : (launch d e s).mem = s.mem := rfl
@[simp] theorem launch_fab (d : Nat) (e : Effect) : (launch d e s).fab = s.fab := rfl
@[simp] theorem launch_host (d : Nat) (e : Effect) : (launch d e s).host = s.host := rfl
@[simp] theorem launch_health (d : Nat) (e : Effect) : (launch d e s).health = s.health := rfl
@[simp] theorem launch_ing (d : Nat) (e : Effect) : (launch d e s).ing = s.ing := rfl
@[simp] theorem launch_spr (d : Nat) (e : Effect) : (launch d e s).spr = s.spr := rfl
@[simp] theorem launch_pwr (d : Nat) (e : Effect) : (launch d e s).pwr = s.pwr := rfl
@[simp] theorem launch_tsm (d : Nat) (e : Effect) : (launch d e s).tsm = s.tsm := rfl
@[simp] theorem launch_nvs (d : Nat) (e : Effect) : (launch d e s).nvs = s.nvs := rfl
@[simp] theorem launch_mgt (d : Nat) (e : Effect) : (launch d e s).mgt = s.mgt := rfl
@[simp] theorem launch_sreg (d : Nat) (e : Effect) : (launch d e s).sreg = s.sreg := rfl
@[simp] theorem launch_sregEcc (d : Nat) (e : Effect) : (launch d e s).sregEcc = s.sregEcc := rfl
@[simp] theorem launch_out (d : Nat) (e : Effect) : (launch d e s).out = s.out := rfl

/-! ### setCell -/
@[simp] theorem setCell_pending (c : Nat) (x : Cell) : (setCell c x s).pending = s.pending := rfl
@[simp] theorem setCell_time (c : Nat) (x : Cell) : (setCell c x s).time = s.time := rfl
@[simp] theorem setCell_freeCount (c : Nat) (x : Cell) : (setCell c x s).freeCount = s.freeCount := rfl
@[simp] theorem setCell_events (c : Nat) (x : Cell) : (setCell c x s).events = s.events := rfl
@[simp] theorem setCell_checks (c : Nat) (x : Cell) : (setCell c x s).checks = s.checks := rfl
@[simp] theorem setCell_regs (c : Nat) (x : Cell) : (setCell c x s).regs = s.regs := rfl
@[simp] theorem setCell_casting (c : Nat) (x : Cell) : (setCell c x s).casting = s.casting := rfl
@[simp] theorem setCell_run (c : Nat) (x : Cell) : (setCell c x s).run = s.run := rfl
@[simp] theorem setCell_tab (c : Nat) (x : Cell) : (setCell c x s).tab = s.tab := rfl
@[simp] theorem setCell_streams (c : Nat) (x : Cell) : (setCell c x s).streams = s.streams := rfl
@[simp] theorem setCell_flights (c : Nat) (x : Cell) : (setCell c x s).flights = s.flights := rfl
@[simp] theorem setCell_dram (c : Nat) (x : Cell) : (setCell c x s).dram = s.dram := rfl
@[simp] theorem setCell_mem (c : Nat) (x : Cell) : (setCell c x s).mem = s.mem := rfl
@[simp] theorem setCell_fab (c : Nat) (x : Cell) : (setCell c x s).fab = s.fab := rfl
@[simp] theorem setCell_host (c : Nat) (x : Cell) : (setCell c x s).host = s.host := rfl
@[simp] theorem setCell_health (c : Nat) (x : Cell) : (setCell c x s).health = s.health := rfl
@[simp] theorem setCell_ing (c : Nat) (x : Cell) : (setCell c x s).ing = s.ing := rfl
@[simp] theorem setCell_spr (c : Nat) (x : Cell) : (setCell c x s).spr = s.spr := rfl
@[simp] theorem setCell_pwr (c : Nat) (x : Cell) : (setCell c x s).pwr = s.pwr := rfl
@[simp] theorem setCell_tsm (c : Nat) (x : Cell) : (setCell c x s).tsm = s.tsm := rfl
@[simp] theorem setCell_nvs (c : Nat) (x : Cell) : (setCell c x s).nvs = s.nvs := rfl
@[simp] theorem setCell_mgt (c : Nat) (x : Cell) : (setCell c x s).mgt = s.mgt := rfl
@[simp] theorem setCell_sreg (c : Nat) (x : Cell) : (setCell c x s).sreg = s.sreg := rfl
@[simp] theorem setCell_sregEcc (c : Nat) (x : Cell) : (setCell c x s).sregEcc = s.sregEcc := rfl
@[simp] theorem setCell_out (c : Nat) (x : Cell) : (setCell c x s).out = s.out := rfl

/-! ### onCell -/
@[simp] theorem onCell_pending (c : Nat) (f : Cell → Cell) : (onCell c f s).pending = s.pending := rfl
@[simp] theorem onCell_time (c : Nat) (f : Cell → Cell) : (onCell c f s).time = s.time := rfl
@[simp] theorem onCell_freeCount (c : Nat) (f : Cell → Cell) : (onCell c f s).freeCount = s.freeCount := rfl
@[simp] theorem onCell_events (c : Nat) (f : Cell → Cell) : (onCell c f s).events = s.events := rfl
@[simp] theorem onCell_checks (c : Nat) (f : Cell → Cell) : (onCell c f s).checks = s.checks := rfl
@[simp] theorem onCell_regs (c : Nat) (f : Cell → Cell) : (onCell c f s).regs = s.regs := rfl
@[simp] theorem onCell_casting (c : Nat) (f : Cell → Cell) : (onCell c f s).casting = s.casting := rfl
@[simp] theorem onCell_run (c : Nat) (f : Cell → Cell) : (onCell c f s).run = s.run := rfl
@[simp] theorem onCell_tab (c : Nat) (f : Cell → Cell) : (onCell c f s).tab = s.tab := rfl
@[simp] theorem onCell_streams (c : Nat) (f : Cell → Cell) : (onCell c f s).streams = s.streams := rfl
@[simp] theorem onCell_flights (c : Nat) (f : Cell → Cell) : (onCell c f s).flights = s.flights := rfl
@[simp] theorem onCell_dram (c : Nat) (f : Cell → Cell) : (onCell c f s).dram = s.dram := rfl
@[simp] theorem onCell_mem (c : Nat) (f : Cell → Cell) : (onCell c f s).mem = s.mem := rfl
@[simp] theorem onCell_fab (c : Nat) (f : Cell → Cell) : (onCell c f s).fab = s.fab := rfl
@[simp] theorem onCell_host (c : Nat) (f : Cell → Cell) : (onCell c f s).host = s.host := rfl
@[simp] theorem onCell_health (c : Nat) (f : Cell → Cell) : (onCell c f s).health = s.health := rfl
@[simp] theorem onCell_ing (c : Nat) (f : Cell → Cell) : (onCell c f s).ing = s.ing := rfl
@[simp] theorem onCell_spr (c : Nat) (f : Cell → Cell) : (onCell c f s).spr = s.spr := rfl
@[simp] theorem onCell_pwr (c : Nat) (f : Cell → Cell) : (onCell c f s).pwr = s.pwr := rfl
@[simp] theorem onCell_tsm (c : Nat) (f : Cell → Cell) : (onCell c f s).tsm = s.tsm := rfl
@[simp] theorem onCell_nvs (c : Nat) (f : Cell → Cell) : (onCell c f s).nvs = s.nvs := rfl
@[simp] theorem onCell_mgt (c : Nat) (f : Cell → Cell) : (onCell c f s).mgt = s.mgt := rfl
@[simp] theorem onCell_sreg (c : Nat) (f : Cell → Cell) : (onCell c f s).sreg = s.sreg := rfl
@[simp] theorem onCell_sregEcc (c : Nat) (f : Cell → Cell) : (onCell c f s).sregEcc = s.sregEcc := rfl
@[simp] theorem onCell_out (c : Nat) (f : Cell → Cell) : (onCell c f s).out = s.out := rfl

/-! ### dramPut -/
@[simp] theorem dramPut_pending (a : Nat) (l : List Byte) : (dramPut a l s).pending = s.pending := rfl
@[simp] theorem dramPut_time (a : Nat) (l : List Byte) : (dramPut a l s).time = s.time := rfl
@[simp] theorem dramPut_freeCount (a : Nat) (l : List Byte) : (dramPut a l s).freeCount = s.freeCount := rfl
@[simp] theorem dramPut_events (a : Nat) (l : List Byte) : (dramPut a l s).events = s.events := rfl
@[simp] theorem dramPut_checks (a : Nat) (l : List Byte) : (dramPut a l s).checks = s.checks := rfl
@[simp] theorem dramPut_regs (a : Nat) (l : List Byte) : (dramPut a l s).regs = s.regs := rfl
@[simp] theorem dramPut_casting (a : Nat) (l : List Byte) : (dramPut a l s).casting = s.casting := rfl
@[simp] theorem dramPut_run (a : Nat) (l : List Byte) : (dramPut a l s).run = s.run := rfl
@[simp] theorem dramPut_tab (a : Nat) (l : List Byte) : (dramPut a l s).tab = s.tab := rfl
@[simp] theorem dramPut_streams (a : Nat) (l : List Byte) : (dramPut a l s).streams = s.streams := rfl
@[simp] theorem dramPut_cells (a : Nat) (l : List Byte) : (dramPut a l s).cells = s.cells := rfl
@[simp] theorem dramPut_flights (a : Nat) (l : List Byte) : (dramPut a l s).flights = s.flights := rfl
@[simp] theorem dramPut_mem (a : Nat) (l : List Byte) : (dramPut a l s).mem = s.mem := rfl
@[simp] theorem dramPut_fab (a : Nat) (l : List Byte) : (dramPut a l s).fab = s.fab := rfl
@[simp] theorem dramPut_host (a : Nat) (l : List Byte) : (dramPut a l s).host = s.host := rfl
@[simp] theorem dramPut_health (a : Nat) (l : List Byte) : (dramPut a l s).health = s.health := rfl
@[simp] theorem dramPut_ing (a : Nat) (l : List Byte) : (dramPut a l s).ing = s.ing := rfl
@[simp] theorem dramPut_spr (a : Nat) (l : List Byte) : (dramPut a l s).spr = s.spr := rfl
@[simp] theorem dramPut_pwr (a : Nat) (l : List Byte) : (dramPut a l s).pwr = s.pwr := rfl
@[simp] theorem dramPut_tsm (a : Nat) (l : List Byte) : (dramPut a l s).tsm = s.tsm := rfl
@[simp] theorem dramPut_nvs (a : Nat) (l : List Byte) : (dramPut a l s).nvs = s.nvs := rfl
@[simp] theorem dramPut_mgt (a : Nat) (l : List Byte) : (dramPut a l s).mgt = s.mgt := rfl
@[simp] theorem dramPut_sreg (a : Nat) (l : List Byte) : (dramPut a l s).sreg = s.sreg := rfl
@[simp] theorem dramPut_sregEcc (a : Nat) (l : List Byte) : (dramPut a l s).sregEcc = s.sregEcc := rfl
@[simp] theorem dramPut_out (a : Nat) (l : List Byte) : (dramPut a l s).out = s.out := rfl

/-! ### setMark -/
@[simp] theorem setMark_pending (l m : Nat) : (setMark l m s).pending = s.pending := rfl
@[simp] theorem setMark_time (l m : Nat) : (setMark l m s).time = s.time := rfl
@[simp] theorem setMark_freeCount (l m : Nat) : (setMark l m s).freeCount = s.freeCount := rfl
@[simp] theorem setMark_events (l m : Nat) : (setMark l m s).events = s.events := rfl
@[simp] theorem setMark_checks (l m : Nat) : (setMark l m s).checks = s.checks := rfl
@[simp] theorem setMark_regs (l m : Nat) : (setMark l m s).regs = s.regs := rfl
@[simp] theorem setMark_casting (l m : Nat) : (setMark l m s).casting = s.casting := rfl
@[simp] theorem setMark_run (l m : Nat) : (setMark l m s).run = s.run := rfl
@[simp] theorem setMark_tab (l m : Nat) : (setMark l m s).tab = s.tab := rfl
@[simp] theorem setMark_streams (l m : Nat) : (setMark l m s).streams = s.streams := rfl
@[simp] theorem setMark_cells (l m : Nat) : (setMark l m s).cells = s.cells := rfl
@[simp] theorem setMark_flights (l m : Nat) : (setMark l m s).flights = s.flights := rfl
@[simp] theorem setMark_mem (l m : Nat) : (setMark l m s).mem = s.mem := rfl
@[simp] theorem setMark_fab (l m : Nat) : (setMark l m s).fab = s.fab := rfl
@[simp] theorem setMark_host (l m : Nat) : (setMark l m s).host = s.host := rfl
@[simp] theorem setMark_health (l m : Nat) : (setMark l m s).health = s.health := rfl
@[simp] theorem setMark_ing (l m : Nat) : (setMark l m s).ing = s.ing := rfl
@[simp] theorem setMark_spr (l m : Nat) : (setMark l m s).spr = s.spr := rfl
@[simp] theorem setMark_pwr (l m : Nat) : (setMark l m s).pwr = s.pwr := rfl
@[simp] theorem setMark_tsm (l m : Nat) : (setMark l m s).tsm = s.tsm := rfl
@[simp] theorem setMark_nvs (l m : Nat) : (setMark l m s).nvs = s.nvs := rfl
@[simp] theorem setMark_mgt (l m : Nat) : (setMark l m s).mgt = s.mgt := rfl
@[simp] theorem setMark_sreg (l m : Nat) : (setMark l m s).sreg = s.sreg := rfl
@[simp] theorem setMark_sregEcc (l m : Nat) : (setMark l m s).sregEcc = s.sregEcc := rfl
@[simp] theorem setMark_out (l m : Nat) : (setMark l m s).out = s.out := rfl

/-! ### setQp -/
@[simp] theorem setQp_pending (q : Nat) (x : Qp) : (setQp q x s).pending = s.pending := rfl
@[simp] theorem setQp_time (q : Nat) (x : Qp) : (setQp q x s).time = s.time := rfl
@[simp] theorem setQp_freeCount (q : Nat) (x : Qp) : (setQp q x s).freeCount = s.freeCount := rfl
@[simp] theorem setQp_events (q : Nat) (x : Qp) : (setQp q x s).events = s.events := rfl
@[simp] theorem setQp_checks (q : Nat) (x : Qp) : (setQp q x s).checks = s.checks := rfl
@[simp] theorem setQp_regs (q : Nat) (x : Qp) : (setQp q x s).regs = s.regs := rfl
@[simp] theorem setQp_casting (q : Nat) (x : Qp) : (setQp q x s).casting = s.casting := rfl
@[simp] theorem setQp_run (q : Nat) (x : Qp) : (setQp q x s).run = s.run := rfl
@[simp] theorem setQp_tab (q : Nat) (x : Qp) : (setQp q x s).tab = s.tab := rfl
@[simp] theorem setQp_streams (q : Nat) (x : Qp) : (setQp q x s).streams = s.streams := rfl
@[simp] theorem setQp_cells (q : Nat) (x : Qp) : (setQp q x s).cells = s.cells := rfl
@[simp] theorem setQp_flights (q : Nat) (x : Qp) : (setQp q x s).flights = s.flights := rfl
@[simp] theorem setQp_dram (q : Nat) (x : Qp) : (setQp q x s).dram = s.dram := rfl
@[simp] theorem setQp_mem (q : Nat) (x : Qp) : (setQp q x s).mem = s.mem := rfl
@[simp] theorem setQp_fab (q : Nat) (x : Qp) : (setQp q x s).fab = s.fab := rfl
@[simp] theorem setQp_health (q : Nat) (x : Qp) : (setQp q x s).health = s.health := rfl
@[simp] theorem setQp_ing (q : Nat) (x : Qp) : (setQp q x s).ing = s.ing := rfl
@[simp] theorem setQp_spr (q : Nat) (x : Qp) : (setQp q x s).spr = s.spr := rfl
@[simp] theorem setQp_pwr (q : Nat) (x : Qp) : (setQp q x s).pwr = s.pwr := rfl
@[simp] theorem setQp_tsm (q : Nat) (x : Qp) : (setQp q x s).tsm = s.tsm := rfl
@[simp] theorem setQp_nvs (q : Nat) (x : Qp) : (setQp q x s).nvs = s.nvs := rfl
@[simp] theorem setQp_mgt (q : Nat) (x : Qp) : (setQp q x s).mgt = s.mgt := rfl
@[simp] theorem setQp_sreg (q : Nat) (x : Qp) : (setQp q x s).sreg = s.sreg := rfl
@[simp] theorem setQp_sregEcc (q : Nat) (x : Qp) : (setQp q x s).sregEcc = s.sregEcc := rfl
@[simp] theorem setQp_out (q : Nat) (x : Qp) : (setQp q x s).out = s.out := rfl

/-! ### spPut -/
@[simp] theorem spPut_pending (c a : Nat) (l : List Byte) : (spPut c a l s).pending = s.pending := rfl
@[simp] theorem spPut_time (c a : Nat) (l : List Byte) : (spPut c a l s).time = s.time := rfl
@[simp] theorem spPut_freeCount (c a : Nat) (l : List Byte) : (spPut c a l s).freeCount = s.freeCount := rfl
@[simp] theorem spPut_events (c a : Nat) (l : List Byte) : (spPut c a l s).events = s.events := rfl
@[simp] theorem spPut_checks (c a : Nat) (l : List Byte) : (spPut c a l s).checks = s.checks := rfl
@[simp] theorem spPut_regs (c a : Nat) (l : List Byte) : (spPut c a l s).regs = s.regs := rfl
@[simp] theorem spPut_casting (c a : Nat) (l : List Byte) : (spPut c a l s).casting = s.casting := rfl
@[simp] theorem spPut_run (c a : Nat) (l : List Byte) : (spPut c a l s).run = s.run := rfl
@[simp] theorem spPut_tab (c a : Nat) (l : List Byte) : (spPut c a l s).tab = s.tab := rfl
@[simp] theorem spPut_streams (c a : Nat) (l : List Byte) : (spPut c a l s).streams = s.streams := rfl
@[simp] theorem spPut_flights (c a : Nat) (l : List Byte) : (spPut c a l s).flights = s.flights := rfl
@[simp] theorem spPut_dram (c a : Nat) (l : List Byte) : (spPut c a l s).dram = s.dram := rfl
@[simp] theorem spPut_mem (c a : Nat) (l : List Byte) : (spPut c a l s).mem = s.mem := rfl
@[simp] theorem spPut_fab (c a : Nat) (l : List Byte) : (spPut c a l s).fab = s.fab := rfl
@[simp] theorem spPut_host (c a : Nat) (l : List Byte) : (spPut c a l s).host = s.host := rfl
@[simp] theorem spPut_health (c a : Nat) (l : List Byte) : (spPut c a l s).health = s.health := rfl
@[simp] theorem spPut_ing (c a : Nat) (l : List Byte) : (spPut c a l s).ing = s.ing := rfl
@[simp] theorem spPut_spr (c a : Nat) (l : List Byte) : (spPut c a l s).spr = s.spr := rfl
@[simp] theorem spPut_pwr (c a : Nat) (l : List Byte) : (spPut c a l s).pwr = s.pwr := rfl
@[simp] theorem spPut_tsm (c a : Nat) (l : List Byte) : (spPut c a l s).tsm = s.tsm := rfl
@[simp] theorem spPut_nvs (c a : Nat) (l : List Byte) : (spPut c a l s).nvs = s.nvs := rfl
@[simp] theorem spPut_mgt (c a : Nat) (l : List Byte) : (spPut c a l s).mgt = s.mgt := rfl
@[simp] theorem spPut_sreg (c a : Nat) (l : List Byte) : (spPut c a l s).sreg = s.sreg := rfl
@[simp] theorem spPut_sregEcc (c a : Nat) (l : List Byte) : (spPut c a l s).sregEcc = s.sregEcc := rfl
@[simp] theorem spPut_out (c a : Nat) (l : List Byte) : (spPut c a l s).out = s.out := rfl

/-! ### markIssued -/
@[simp] theorem markIssued_pending (u : Nat) (w : Slot) (t : Nat) : (markIssued u w t s).pending = s.pending := rfl
@[simp] theorem markIssued_time (u : Nat) (w : Slot) (t : Nat) : (markIssued u w t s).time = s.time := rfl
@[simp] theorem markIssued_freeCount (u : Nat) (w : Slot) (t : Nat) : (markIssued u w t s).freeCount = s.freeCount := rfl
@[simp] theorem markIssued_events (u : Nat) (w : Slot) (t : Nat) : (markIssued u w t s).events = s.events := rfl
@[simp] theorem markIssued_checks (u : Nat) (w : Slot) (t : Nat) : (markIssued u w t s).checks = s.checks := rfl
@[simp] theorem markIssued_regs (u : Nat) (w : Slot) (t : Nat) : (markIssued u w t s).regs = s.regs := rfl
@[simp] theorem markIssued_casting (u : Nat) (w : Slot) (t : Nat) : (markIssued u w t s).casting = s.casting := rfl
@[simp] theorem markIssued_tab (u : Nat) (w : Slot) (t : Nat) : (markIssued u w t s).tab = s.tab := rfl
@[simp] theorem markIssued_cells (u : Nat) (w : Slot) (t : Nat) : (markIssued u w t s).cells = s.cells := rfl
@[simp] theorem markIssued_flights (u : Nat) (w : Slot) (t : Nat) : (markIssued u w t s).flights = s.flights := rfl
@[simp] theorem markIssued_dram (u : Nat) (w : Slot) (t : Nat) : (markIssued u w t s).dram = s.dram := rfl
@[simp] theorem markIssued_mem (u : Nat) (w : Slot) (t : Nat) : (markIssued u w t s).mem = s.mem := rfl
@[simp] theorem markIssued_fab (u : Nat) (w : Slot) (t : Nat) : (markIssued u w t s).fab = s.fab := rfl
@[simp] theorem markIssued_host (u : Nat) (w : Slot) (t : Nat) : (markIssued u w t s).host = s.host := rfl
@[simp] theorem markIssued_health (u : Nat) (w : Slot) (t : Nat) : (markIssued u w t s).health = s.health := rfl
@[simp] theorem markIssued_ing (u : Nat) (w : Slot) (t : Nat) : (markIssued u w t s).ing = s.ing := rfl
@[simp] theorem markIssued_spr (u : Nat) (w : Slot) (t : Nat) : (markIssued u w t s).spr = s.spr := rfl
@[simp] theorem markIssued_pwr (u : Nat) (w : Slot) (t : Nat) : (markIssued u w t s).pwr = s.pwr := rfl
@[simp] theorem markIssued_tsm (u : Nat) (w : Slot) (t : Nat) : (markIssued u w t s).tsm = s.tsm := rfl
@[simp] theorem markIssued_nvs (u : Nat) (w : Slot) (t : Nat) : (markIssued u w t s).nvs = s.nvs := rfl
@[simp] theorem markIssued_mgt (u : Nat) (w : Slot) (t : Nat) : (markIssued u w t s).mgt = s.mgt := rfl
@[simp] theorem markIssued_sreg (u : Nat) (w : Slot) (t : Nat) : (markIssued u w t s).sreg = s.sreg := rfl
@[simp] theorem markIssued_sregEcc (u : Nat) (w : Slot) (t : Nat) : (markIssued u w t s).sregEcc = s.sregEcc := rfl
@[simp] theorem markIssued_out (u : Nat) (w : Slot) (t : Nat) : (markIssued u w t s).out = s.out := rfl

/-! ### withQueue -/
@[simp] theorem withQueue_time (q : List Instr) : (withQueue q s).time = s.time := rfl
@[simp] theorem withQueue_freeCount (q : List Instr) : (withQueue q s).freeCount = s.freeCount := rfl
@[simp] theorem withQueue_events (q : List Instr) : (withQueue q s).events = s.events := rfl
@[simp] theorem withQueue_checks (q : List Instr) : (withQueue q s).checks = s.checks := rfl
@[simp] theorem withQueue_regs (q : List Instr) : (withQueue q s).regs = s.regs := rfl
@[simp] theorem withQueue_casting (q : List Instr) : (withQueue q s).casting = s.casting := rfl
@[simp] theorem withQueue_run (q : List Instr) : (withQueue q s).run = s.run := rfl
@[simp] theorem withQueue_tab (q : List Instr) : (withQueue q s).tab = s.tab := rfl
@[simp] theorem withQueue_streams (q : List Instr) : (withQueue q s).streams = s.streams := rfl
@[simp] theorem withQueue_cells (q : List Instr) : (withQueue q s).cells = s.cells := rfl
@[simp] theorem withQueue_flights (q : List Instr) : (withQueue q s).flights = s.flights := rfl
@[simp] theorem withQueue_dram (q : List Instr) : (withQueue q s).dram = s.dram := rfl
@[simp] theorem withQueue_mem (q : List Instr) : (withQueue q s).mem = s.mem := rfl
@[simp] theorem withQueue_fab (q : List Instr) : (withQueue q s).fab = s.fab := rfl
@[simp] theorem withQueue_host (q : List Instr) : (withQueue q s).host = s.host := rfl
@[simp] theorem withQueue_health (q : List Instr) : (withQueue q s).health = s.health := rfl
@[simp] theorem withQueue_ing (q : List Instr) : (withQueue q s).ing = s.ing := rfl
@[simp] theorem withQueue_spr (q : List Instr) : (withQueue q s).spr = s.spr := rfl
@[simp] theorem withQueue_pwr (q : List Instr) : (withQueue q s).pwr = s.pwr := rfl
@[simp] theorem withQueue_tsm (q : List Instr) : (withQueue q s).tsm = s.tsm := rfl
@[simp] theorem withQueue_nvs (q : List Instr) : (withQueue q s).nvs = s.nvs := rfl
@[simp] theorem withQueue_mgt (q : List Instr) : (withQueue q s).mgt = s.mgt := rfl
@[simp] theorem withQueue_sreg (q : List Instr) : (withQueue q s).sreg = s.sreg := rfl
@[simp] theorem withQueue_sregEcc (q : List Instr) : (withQueue q s).sregEcc = s.sregEcc := rfl
@[simp] theorem withQueue_out (q : List Instr) : (withQueue q s).out = s.out := rfl
@[simp] theorem withQueue_pending (q : List Instr) : (withQueue q s).pending = q := rfl

/-! ### setTile -/
@[simp] theorem setTile_pending (c n : Nat) (x : Tile) : (setTile c n x s).pending = s.pending := rfl
@[simp] theorem setTile_time (c n : Nat) (x : Tile) : (setTile c n x s).time = s.time := rfl
@[simp] theorem setTile_freeCount (c n : Nat) (x : Tile) : (setTile c n x s).freeCount = s.freeCount := rfl
@[simp] theorem setTile_events (c n : Nat) (x : Tile) : (setTile c n x s).events = s.events := rfl
@[simp] theorem setTile_checks (c n : Nat) (x : Tile) : (setTile c n x s).checks = s.checks := rfl
@[simp] theorem setTile_regs (c n : Nat) (x : Tile) : (setTile c n x s).regs = s.regs := rfl
@[simp] theorem setTile_casting (c n : Nat) (x : Tile) : (setTile c n x s).casting = s.casting := rfl
@[simp] theorem setTile_run (c n : Nat) (x : Tile) : (setTile c n x s).run = s.run := rfl
@[simp] theorem setTile_tab (c n : Nat) (x : Tile) : (setTile c n x s).tab = s.tab := rfl
@[simp] theorem setTile_streams (c n : Nat) (x : Tile) : (setTile c n x s).streams = s.streams := rfl
@[simp] theorem setTile_flights (c n : Nat) (x : Tile) : (setTile c n x s).flights = s.flights := rfl
@[simp] theorem setTile_dram (c n : Nat) (x : Tile) : (setTile c n x s).dram = s.dram := rfl
@[simp] theorem setTile_mem (c n : Nat) (x : Tile) : (setTile c n x s).mem = s.mem := rfl
@[simp] theorem setTile_fab (c n : Nat) (x : Tile) : (setTile c n x s).fab = s.fab := rfl
@[simp] theorem setTile_host (c n : Nat) (x : Tile) : (setTile c n x s).host = s.host := rfl
@[simp] theorem setTile_health (c n : Nat) (x : Tile) : (setTile c n x s).health = s.health := rfl
@[simp] theorem setTile_ing (c n : Nat) (x : Tile) : (setTile c n x s).ing = s.ing := rfl
@[simp] theorem setTile_spr (c n : Nat) (x : Tile) : (setTile c n x s).spr = s.spr := rfl
@[simp] theorem setTile_pwr (c n : Nat) (x : Tile) : (setTile c n x s).pwr = s.pwr := rfl
@[simp] theorem setTile_tsm (c n : Nat) (x : Tile) : (setTile c n x s).tsm = s.tsm := rfl
@[simp] theorem setTile_nvs (c n : Nat) (x : Tile) : (setTile c n x s).nvs = s.nvs := rfl
@[simp] theorem setTile_mgt (c n : Nat) (x : Tile) : (setTile c n x s).mgt = s.mgt := rfl
@[simp] theorem setTile_sreg (c n : Nat) (x : Tile) : (setTile c n x s).sreg = s.sreg := rfl
@[simp] theorem setTile_sregEcc (c n : Nat) (x : Tile) : (setTile c n x s).sregEcc = s.sregEcc := rfl
@[simp] theorem setTile_out (c n : Nat) (x : Tile) : (setTile c n x s).out = s.out := rfl

/-! ### setAcc -/
@[simp] theorem setAcc_pending (c n j : Nat) (v : F16) : (setAcc c n j v s).pending = s.pending := rfl
@[simp] theorem setAcc_time (c n j : Nat) (v : F16) : (setAcc c n j v s).time = s.time := rfl
@[simp] theorem setAcc_freeCount (c n j : Nat) (v : F16) : (setAcc c n j v s).freeCount = s.freeCount := rfl
@[simp] theorem setAcc_events (c n j : Nat) (v : F16) : (setAcc c n j v s).events = s.events := rfl
@[simp] theorem setAcc_checks (c n j : Nat) (v : F16) : (setAcc c n j v s).checks = s.checks := rfl
@[simp] theorem setAcc_regs (c n j : Nat) (v : F16) : (setAcc c n j v s).regs = s.regs := rfl
@[simp] theorem setAcc_casting (c n j : Nat) (v : F16) : (setAcc c n j v s).casting = s.casting := rfl
@[simp] theorem setAcc_run (c n j : Nat) (v : F16) : (setAcc c n j v s).run = s.run := rfl
@[simp] theorem setAcc_tab (c n j : Nat) (v : F16) : (setAcc c n j v s).tab = s.tab := rfl
@[simp] theorem setAcc_streams (c n j : Nat) (v : F16) : (setAcc c n j v s).streams = s.streams := rfl
@[simp] theorem setAcc_flights (c n j : Nat) (v : F16) : (setAcc c n j v s).flights = s.flights := rfl
@[simp] theorem setAcc_dram (c n j : Nat) (v : F16) : (setAcc c n j v s).dram = s.dram := rfl
@[simp] theorem setAcc_mem (c n j : Nat) (v : F16) : (setAcc c n j v s).mem = s.mem := rfl
@[simp] theorem setAcc_fab (c n j : Nat) (v : F16) : (setAcc c n j v s).fab = s.fab := rfl
@[simp] theorem setAcc_host (c n j : Nat) (v : F16) : (setAcc c n j v s).host = s.host := rfl
@[simp] theorem setAcc_health (c n j : Nat) (v : F16) : (setAcc c n j v s).health = s.health := rfl
@[simp] theorem setAcc_ing (c n j : Nat) (v : F16) : (setAcc c n j v s).ing = s.ing := rfl
@[simp] theorem setAcc_spr (c n j : Nat) (v : F16) : (setAcc c n j v s).spr = s.spr := rfl
@[simp] theorem setAcc_pwr (c n j : Nat) (v : F16) : (setAcc c n j v s).pwr = s.pwr := rfl
@[simp] theorem setAcc_tsm (c n j : Nat) (v : F16) : (setAcc c n j v s).tsm = s.tsm := rfl
@[simp] theorem setAcc_nvs (c n j : Nat) (v : F16) : (setAcc c n j v s).nvs = s.nvs := rfl
@[simp] theorem setAcc_mgt (c n j : Nat) (v : F16) : (setAcc c n j v s).mgt = s.mgt := rfl
@[simp] theorem setAcc_sreg (c n j : Nat) (v : F16) : (setAcc c n j v s).sreg = s.sreg := rfl
@[simp] theorem setAcc_sregEcc (c n j : Nat) (v : F16) : (setAcc c n j v s).sregEcc = s.sregEcc := rfl
@[simp] theorem setAcc_out (c n j : Nat) (v : F16) : (setAcc c n j v s).out = s.out := rfl

/-! ### setSide -/
@[simp] theorem setSide_pending (c n j v : Nat) : (setSide c n j v s).pending = s.pending := rfl
@[simp] theorem setSide_time (c n j v : Nat) : (setSide c n j v s).time = s.time := rfl
@[simp] theorem setSide_freeCount (c n j v : Nat) : (setSide c n j v s).freeCount = s.freeCount := rfl
@[simp] theorem setSide_events (c n j v : Nat) : (setSide c n j v s).events = s.events := rfl
@[simp] theorem setSide_checks (c n j v : Nat) : (setSide c n j v s).checks = s.checks := rfl
@[simp] theorem setSide_regs (c n j v : Nat) : (setSide c n j v s).regs = s.regs := rfl
@[simp] theorem setSide_casting (c n j v : Nat) : (setSide c n j v s).casting = s.casting := rfl
@[simp] theorem setSide_run (c n j v : Nat) : (setSide c n j v s).run = s.run := rfl
@[simp] theorem setSide_tab (c n j v : Nat) : (setSide c n j v s).tab = s.tab := rfl
@[simp] theorem setSide_streams (c n j v : Nat) : (setSide c n j v s).streams = s.streams := rfl
@[simp] theorem setSide_flights (c n j v : Nat) : (setSide c n j v s).flights = s.flights := rfl
@[simp] theorem setSide_dram (c n j v : Nat) : (setSide c n j v s).dram = s.dram := rfl
@[simp] theorem setSide_mem (c n j v : Nat) : (setSide c n j v s).mem = s.mem := rfl
@[simp] theorem setSide_fab (c n j v : Nat) : (setSide c n j v s).fab = s.fab := rfl
@[simp] theorem setSide_host (c n j v : Nat) : (setSide c n j v s).host = s.host := rfl
@[simp] theorem setSide_health (c n j v : Nat) : (setSide c n j v s).health = s.health := rfl
@[simp] theorem setSide_ing (c n j v : Nat) : (setSide c n j v s).ing = s.ing := rfl
@[simp] theorem setSide_spr (c n j v : Nat) : (setSide c n j v s).spr = s.spr := rfl
@[simp] theorem setSide_pwr (c n j v : Nat) : (setSide c n j v s).pwr = s.pwr := rfl
@[simp] theorem setSide_tsm (c n j v : Nat) : (setSide c n j v s).tsm = s.tsm := rfl
@[simp] theorem setSide_nvs (c n j v : Nat) : (setSide c n j v s).nvs = s.nvs := rfl
@[simp] theorem setSide_mgt (c n j v : Nat) : (setSide c n j v s).mgt = s.mgt := rfl
@[simp] theorem setSide_sreg (c n j v : Nat) : (setSide c n j v s).sreg = s.sreg := rfl
@[simp] theorem setSide_sregEcc (c n j v : Nat) : (setSide c n j v s).sregEcc = s.sregEcc := rfl
@[simp] theorem setSide_out (c n j v : Nat) : (setSide c n j v s).out = s.out := rfl

/-! ### clearTile -/
@[simp] theorem clearTile_pending (c n : Nat) : (clearTile c n s).pending = s.pending := rfl
@[simp] theorem clearTile_time (c n : Nat) : (clearTile c n s).time = s.time := rfl
@[simp] theorem clearTile_freeCount (c n : Nat) : (clearTile c n s).freeCount = s.freeCount := rfl
@[simp] theorem clearTile_events (c n : Nat) : (clearTile c n s).events = s.events := rfl
@[simp] theorem clearTile_checks (c n : Nat) : (clearTile c n s).checks = s.checks := rfl
@[simp] theorem clearTile_regs (c n : Nat) : (clearTile c n s).regs = s.regs := rfl
@[simp] theorem clearTile_casting (c n : Nat) : (clearTile c n s).casting = s.casting := rfl
@[simp] theorem clearTile_run (c n : Nat) : (clearTile c n s).run = s.run := rfl
@[simp] theorem clearTile_tab (c n : Nat) : (clearTile c n s).tab = s.tab := rfl
@[simp] theorem clearTile_streams (c n : Nat) : (clearTile c n s).streams = s.streams := rfl
@[simp] theorem clearTile_flights (c n : Nat) : (clearTile c n s).flights = s.flights := rfl
@[simp] theorem clearTile_dram (c n : Nat) : (clearTile c n s).dram = s.dram := rfl
@[simp] theorem clearTile_mem (c n : Nat) : (clearTile c n s).mem = s.mem := rfl
@[simp] theorem clearTile_fab (c n : Nat) : (clearTile c n s).fab = s.fab := rfl
@[simp] theorem clearTile_host (c n : Nat) : (clearTile c n s).host = s.host := rfl
@[simp] theorem clearTile_health (c n : Nat) : (clearTile c n s).health = s.health := rfl
@[simp] theorem clearTile_ing (c n : Nat) : (clearTile c n s).ing = s.ing := rfl
@[simp] theorem clearTile_spr (c n : Nat) : (clearTile c n s).spr = s.spr := rfl
@[simp] theorem clearTile_pwr (c n : Nat) : (clearTile c n s).pwr = s.pwr := rfl
@[simp] theorem clearTile_tsm (c n : Nat) : (clearTile c n s).tsm = s.tsm := rfl
@[simp] theorem clearTile_nvs (c n : Nat) : (clearTile c n s).nvs = s.nvs := rfl
@[simp] theorem clearTile_mgt (c n : Nat) : (clearTile c n s).mgt = s.mgt := rfl
@[simp] theorem clearTile_sreg (c n : Nat) : (clearTile c n s).sreg = s.sreg := rfl
@[simp] theorem clearTile_sregEcc (c n : Nat) : (clearTile c n s).sregEcc = s.sregEcc := rfl
@[simp] theorem clearTile_out (c n : Nat) : (clearTile c n s).out = s.out := rfl

/-! ### setArr -/
@[simp] theorem setArr_pending (c a : Nat) (x : Arr) : (setArr c a x s).pending = s.pending := rfl
@[simp] theorem setArr_time (c a : Nat) (x : Arr) : (setArr c a x s).time = s.time := rfl
@[simp] theorem setArr_freeCount (c a : Nat) (x : Arr) : (setArr c a x s).freeCount = s.freeCount := rfl
@[simp] theorem setArr_events (c a : Nat) (x : Arr) : (setArr c a x s).events = s.events := rfl
@[simp] theorem setArr_checks (c a : Nat) (x : Arr) : (setArr c a x s).checks = s.checks := rfl
@[simp] theorem setArr_regs (c a : Nat) (x : Arr) : (setArr c a x s).regs = s.regs := rfl
@[simp] theorem setArr_casting (c a : Nat) (x : Arr) : (setArr c a x s).casting = s.casting := rfl
@[simp] theorem setArr_run (c a : Nat) (x : Arr) : (setArr c a x s).run = s.run := rfl
@[simp] theorem setArr_tab (c a : Nat) (x : Arr) : (setArr c a x s).tab = s.tab := rfl
@[simp] theorem setArr_streams (c a : Nat) (x : Arr) : (setArr c a x s).streams = s.streams := rfl
@[simp] theorem setArr_flights (c a : Nat) (x : Arr) : (setArr c a x s).flights = s.flights := rfl
@[simp] theorem setArr_dram (c a : Nat) (x : Arr) : (setArr c a x s).dram = s.dram := rfl
@[simp] theorem setArr_mem (c a : Nat) (x : Arr) : (setArr c a x s).mem = s.mem := rfl
@[simp] theorem setArr_fab (c a : Nat) (x : Arr) : (setArr c a x s).fab = s.fab := rfl
@[simp] theorem setArr_host (c a : Nat) (x : Arr) : (setArr c a x s).host = s.host := rfl
@[simp] theorem setArr_health (c a : Nat) (x : Arr) : (setArr c a x s).health = s.health := rfl
@[simp] theorem setArr_ing (c a : Nat) (x : Arr) : (setArr c a x s).ing = s.ing := rfl
@[simp] theorem setArr_spr (c a : Nat) (x : Arr) : (setArr c a x s).spr = s.spr := rfl
@[simp] theorem setArr_pwr (c a : Nat) (x : Arr) : (setArr c a x s).pwr = s.pwr := rfl
@[simp] theorem setArr_tsm (c a : Nat) (x : Arr) : (setArr c a x s).tsm = s.tsm := rfl
@[simp] theorem setArr_nvs (c a : Nat) (x : Arr) : (setArr c a x s).nvs = s.nvs := rfl
@[simp] theorem setArr_mgt (c a : Nat) (x : Arr) : (setArr c a x s).mgt = s.mgt := rfl
@[simp] theorem setArr_sreg (c a : Nat) (x : Arr) : (setArr c a x s).sreg = s.sreg := rfl
@[simp] theorem setArr_sregEcc (c a : Nat) (x : Arr) : (setArr c a x s).sregEcc = s.sregEcc := rfl
@[simp] theorem setArr_out (c a : Nat) (x : Arr) : (setArr c a x s).out = s.out := rfl

/-! ### setBuf -/
@[simp] theorem setBuf_pending (c i : Nat) (x : AnvBuf) : (setBuf c i x s).pending = s.pending := rfl
@[simp] theorem setBuf_time (c i : Nat) (x : AnvBuf) : (setBuf c i x s).time = s.time := rfl
@[simp] theorem setBuf_freeCount (c i : Nat) (x : AnvBuf) : (setBuf c i x s).freeCount = s.freeCount := rfl
@[simp] theorem setBuf_events (c i : Nat) (x : AnvBuf) : (setBuf c i x s).events = s.events := rfl
@[simp] theorem setBuf_checks (c i : Nat) (x : AnvBuf) : (setBuf c i x s).checks = s.checks := rfl
@[simp] theorem setBuf_regs (c i : Nat) (x : AnvBuf) : (setBuf c i x s).regs = s.regs := rfl
@[simp] theorem setBuf_casting (c i : Nat) (x : AnvBuf) : (setBuf c i x s).casting = s.casting := rfl
@[simp] theorem setBuf_run (c i : Nat) (x : AnvBuf) : (setBuf c i x s).run = s.run := rfl
@[simp] theorem setBuf_tab (c i : Nat) (x : AnvBuf) : (setBuf c i x s).tab = s.tab := rfl
@[simp] theorem setBuf_streams (c i : Nat) (x : AnvBuf) : (setBuf c i x s).streams = s.streams := rfl
@[simp] theorem setBuf_flights (c i : Nat) (x : AnvBuf) : (setBuf c i x s).flights = s.flights := rfl
@[simp] theorem setBuf_dram (c i : Nat) (x : AnvBuf) : (setBuf c i x s).dram = s.dram := rfl
@[simp] theorem setBuf_mem (c i : Nat) (x : AnvBuf) : (setBuf c i x s).mem = s.mem := rfl
@[simp] theorem setBuf_fab (c i : Nat) (x : AnvBuf) : (setBuf c i x s).fab = s.fab := rfl
@[simp] theorem setBuf_host (c i : Nat) (x : AnvBuf) : (setBuf c i x s).host = s.host := rfl
@[simp] theorem setBuf_health (c i : Nat) (x : AnvBuf) : (setBuf c i x s).health = s.health := rfl
@[simp] theorem setBuf_ing (c i : Nat) (x : AnvBuf) : (setBuf c i x s).ing = s.ing := rfl
@[simp] theorem setBuf_spr (c i : Nat) (x : AnvBuf) : (setBuf c i x s).spr = s.spr := rfl
@[simp] theorem setBuf_pwr (c i : Nat) (x : AnvBuf) : (setBuf c i x s).pwr = s.pwr := rfl
@[simp] theorem setBuf_tsm (c i : Nat) (x : AnvBuf) : (setBuf c i x s).tsm = s.tsm := rfl
@[simp] theorem setBuf_nvs (c i : Nat) (x : AnvBuf) : (setBuf c i x s).nvs = s.nvs := rfl
@[simp] theorem setBuf_mgt (c i : Nat) (x : AnvBuf) : (setBuf c i x s).mgt = s.mgt := rfl
@[simp] theorem setBuf_sreg (c i : Nat) (x : AnvBuf) : (setBuf c i x s).sreg = s.sreg := rfl
@[simp] theorem setBuf_sregEcc (c i : Nat) (x : AnvBuf) : (setBuf c i x s).sregEcc = s.sregEcc := rfl
@[simp] theorem setBuf_out (c i : Nat) (x : AnvBuf) : (setBuf c i x s).out = s.out := rfl

/-! ### setChain -/
@[simp] theorem setChain_pending (c i : Nat) (x : Chain) : (setChain c i x s).pending = s.pending := rfl
@[simp] theorem setChain_time (c i : Nat) (x : Chain) : (setChain c i x s).time = s.time := rfl
@[simp] theorem setChain_freeCount (c i : Nat) (x : Chain) : (setChain c i x s).freeCount = s.freeCount := rfl
@[simp] theorem setChain_events (c i : Nat) (x : Chain) : (setChain c i x s).events = s.events := rfl
@[simp] theorem setChain_checks (c i : Nat) (x : Chain) : (setChain c i x s).checks = s.checks := rfl
@[simp] theorem setChain_regs (c i : Nat) (x : Chain) : (setChain c i x s).regs = s.regs := rfl
@[simp] theorem setChain_casting (c i : Nat) (x : Chain) : (setChain c i x s).casting = s.casting := rfl
@[simp] theorem setChain_run (c i : Nat) (x : Chain) : (setChain c i x s).run = s.run := rfl
@[simp] theorem setChain_tab (c i : Nat) (x : Chain) : (setChain c i x s).tab = s.tab := rfl
@[simp] theorem setChain_streams (c i : Nat) (x : Chain) : (setChain c i x s).streams = s.streams := rfl
@[simp] theorem setChain_flights (c i : Nat) (x : Chain) : (setChain c i x s).flights = s.flights := rfl
@[simp] theorem setChain_dram (c i : Nat) (x : Chain) : (setChain c i x s).dram = s.dram := rfl
@[simp] theorem setChain_mem (c i : Nat) (x : Chain) : (setChain c i x s).mem = s.mem := rfl
@[simp] theorem setChain_fab (c i : Nat) (x : Chain) : (setChain c i x s).fab = s.fab := rfl
@[simp] theorem setChain_host (c i : Nat) (x : Chain) : (setChain c i x s).host = s.host := rfl
@[simp] theorem setChain_health (c i : Nat) (x : Chain) : (setChain c i x s).health = s.health := rfl
@[simp] theorem setChain_ing (c i : Nat) (x : Chain) : (setChain c i x s).ing = s.ing := rfl
@[simp] theorem setChain_spr (c i : Nat) (x : Chain) : (setChain c i x s).spr = s.spr := rfl
@[simp] theorem setChain_pwr (c i : Nat) (x : Chain) : (setChain c i x s).pwr = s.pwr := rfl
@[simp] theorem setChain_tsm (c i : Nat) (x : Chain) : (setChain c i x s).tsm = s.tsm := rfl
@[simp] theorem setChain_nvs (c i : Nat) (x : Chain) : (setChain c i x s).nvs = s.nvs := rfl
@[simp] theorem setChain_mgt (c i : Nat) (x : Chain) : (setChain c i x s).mgt = s.mgt := rfl
@[simp] theorem setChain_sreg (c i : Nat) (x : Chain) : (setChain c i x s).sreg = s.sreg := rfl
@[simp] theorem setChain_sregEcc (c i : Nat) (x : Chain) : (setChain c i x s).sregEcc = s.sregEcc := rfl
@[simp] theorem setChain_out (c i : Nat) (x : Chain) : (setChain c i x s).out = s.out := rfl

/-! ### anvWrite -/
@[simp] theorem anvWrite_pending (c lo n : Nat) : (anvWrite c lo n s).pending = s.pending := rfl
@[simp] theorem anvWrite_time (c lo n : Nat) : (anvWrite c lo n s).time = s.time := rfl
@[simp] theorem anvWrite_freeCount (c lo n : Nat) : (anvWrite c lo n s).freeCount = s.freeCount := rfl
@[simp] theorem anvWrite_events (c lo n : Nat) : (anvWrite c lo n s).events = s.events := rfl
@[simp] theorem anvWrite_checks (c lo n : Nat) : (anvWrite c lo n s).checks = s.checks := rfl
@[simp] theorem anvWrite_regs (c lo n : Nat) : (anvWrite c lo n s).regs = s.regs := rfl
@[simp] theorem anvWrite_casting (c lo n : Nat) : (anvWrite c lo n s).casting = s.casting := rfl
@[simp] theorem anvWrite_run (c lo n : Nat) : (anvWrite c lo n s).run = s.run := rfl
@[simp] theorem anvWrite_tab (c lo n : Nat) : (anvWrite c lo n s).tab = s.tab := rfl
@[simp] theorem anvWrite_streams (c lo n : Nat) : (anvWrite c lo n s).streams = s.streams := rfl
@[simp] theorem anvWrite_flights (c lo n : Nat) : (anvWrite c lo n s).flights = s.flights := rfl
@[simp] theorem anvWrite_dram (c lo n : Nat) : (anvWrite c lo n s).dram = s.dram := rfl
@[simp] theorem anvWrite_mem (c lo n : Nat) : (anvWrite c lo n s).mem = s.mem := rfl
@[simp] theorem anvWrite_fab (c lo n : Nat) : (anvWrite c lo n s).fab = s.fab := rfl
@[simp] theorem anvWrite_host (c lo n : Nat) : (anvWrite c lo n s).host = s.host := rfl
@[simp] theorem anvWrite_health (c lo n : Nat) : (anvWrite c lo n s).health = s.health := rfl
@[simp] theorem anvWrite_ing (c lo n : Nat) : (anvWrite c lo n s).ing = s.ing := rfl
@[simp] theorem anvWrite_spr (c lo n : Nat) : (anvWrite c lo n s).spr = s.spr := rfl
@[simp] theorem anvWrite_pwr (c lo n : Nat) : (anvWrite c lo n s).pwr = s.pwr := rfl
@[simp] theorem anvWrite_tsm (c lo n : Nat) : (anvWrite c lo n s).tsm = s.tsm := rfl
@[simp] theorem anvWrite_nvs (c lo n : Nat) : (anvWrite c lo n s).nvs = s.nvs := rfl
@[simp] theorem anvWrite_mgt (c lo n : Nat) : (anvWrite c lo n s).mgt = s.mgt := rfl
@[simp] theorem anvWrite_sreg (c lo n : Nat) : (anvWrite c lo n s).sreg = s.sreg := rfl
@[simp] theorem anvWrite_sregEcc (c lo n : Nat) : (anvWrite c lo n s).sregEcc = s.sregEcc := rfl
@[simp] theorem anvWrite_out (c lo n : Nat) : (anvWrite c lo n s).out = s.out := rfl

/-! ### bindTile -/
@[simp] theorem bindTile_pending (c : Nat) (w : Slot) : (bindTile c w s).pending = s.pending := rfl
@[simp] theorem bindTile_time (c : Nat) (w : Slot) : (bindTile c w s).time = s.time := rfl
@[simp] theorem bindTile_freeCount (c : Nat) (w : Slot) : (bindTile c w s).freeCount = s.freeCount := rfl
@[simp] theorem bindTile_events (c : Nat) (w : Slot) : (bindTile c w s).events = s.events := rfl
@[simp] theorem bindTile_checks (c : Nat) (w : Slot) : (bindTile c w s).checks = s.checks := rfl
@[simp] theorem bindTile_regs (c : Nat) (w : Slot) : (bindTile c w s).regs = s.regs := rfl
@[simp] theorem bindTile_casting (c : Nat) (w : Slot) : (bindTile c w s).casting = s.casting := rfl
@[simp] theorem bindTile_run (c : Nat) (w : Slot) : (bindTile c w s).run = s.run := rfl
@[simp] theorem bindTile_tab (c : Nat) (w : Slot) : (bindTile c w s).tab = s.tab := rfl
@[simp] theorem bindTile_streams (c : Nat) (w : Slot) : (bindTile c w s).streams = s.streams := rfl
@[simp] theorem bindTile_flights (c : Nat) (w : Slot) : (bindTile c w s).flights = s.flights := rfl
@[simp] theorem bindTile_dram (c : Nat) (w : Slot) : (bindTile c w s).dram = s.dram := rfl
@[simp] theorem bindTile_mem (c : Nat) (w : Slot) : (bindTile c w s).mem = s.mem := rfl
@[simp] theorem bindTile_fab (c : Nat) (w : Slot) : (bindTile c w s).fab = s.fab := rfl
@[simp] theorem bindTile_host (c : Nat) (w : Slot) : (bindTile c w s).host = s.host := rfl
@[simp] theorem bindTile_health (c : Nat) (w : Slot) : (bindTile c w s).health = s.health := rfl
@[simp] theorem bindTile_ing (c : Nat) (w : Slot) : (bindTile c w s).ing = s.ing := rfl
@[simp] theorem bindTile_spr (c : Nat) (w : Slot) : (bindTile c w s).spr = s.spr := rfl
@[simp] theorem bindTile_pwr (c : Nat) (w : Slot) : (bindTile c w s).pwr = s.pwr := rfl
@[simp] theorem bindTile_tsm (c : Nat) (w : Slot) : (bindTile c w s).tsm = s.tsm := rfl
@[simp] theorem bindTile_nvs (c : Nat) (w : Slot) : (bindTile c w s).nvs = s.nvs := rfl
@[simp] theorem bindTile_mgt (c : Nat) (w : Slot) : (bindTile c w s).mgt = s.mgt := rfl
@[simp] theorem bindTile_sreg (c : Nat) (w : Slot) : (bindTile c w s).sreg = s.sreg := rfl
@[simp] theorem bindTile_sregEcc (c : Nat) (w : Slot) : (bindTile c w s).sregEcc = s.sregEcc := rfl
@[simp] theorem bindTile_out (c : Nat) (w : Slot) : (bindTile c w s).out = s.out := rfl

/-! ### useFree -/
@[simp] theorem useFree_pending (n : Nat) : (useFree n s).pending = s.pending := rfl
@[simp] theorem useFree_time (n : Nat) : (useFree n s).time = s.time := rfl
@[simp] theorem useFree_regs (n : Nat) : (useFree n s).regs = s.regs := rfl
@[simp] theorem useFree_casting (n : Nat) : (useFree n s).casting = s.casting := rfl
@[simp] theorem useFree_run (n : Nat) : (useFree n s).run = s.run := rfl
@[simp] theorem useFree_tab (n : Nat) : (useFree n s).tab = s.tab := rfl
@[simp] theorem useFree_streams (n : Nat) : (useFree n s).streams = s.streams := rfl
@[simp] theorem useFree_cells (n : Nat) : (useFree n s).cells = s.cells := rfl
@[simp] theorem useFree_flights (n : Nat) : (useFree n s).flights = s.flights := rfl
@[simp] theorem useFree_dram (n : Nat) : (useFree n s).dram = s.dram := rfl
@[simp] theorem useFree_mem (n : Nat) : (useFree n s).mem = s.mem := rfl
@[simp] theorem useFree_fab (n : Nat) : (useFree n s).fab = s.fab := rfl
@[simp] theorem useFree_host (n : Nat) : (useFree n s).host = s.host := rfl
@[simp] theorem useFree_health (n : Nat) : (useFree n s).health = s.health := rfl
@[simp] theorem useFree_ing (n : Nat) : (useFree n s).ing = s.ing := rfl
@[simp] theorem useFree_spr (n : Nat) : (useFree n s).spr = s.spr := rfl
@[simp] theorem useFree_pwr (n : Nat) : (useFree n s).pwr = s.pwr := rfl
@[simp] theorem useFree_tsm (n : Nat) : (useFree n s).tsm = s.tsm := rfl
@[simp] theorem useFree_nvs (n : Nat) : (useFree n s).nvs = s.nvs := rfl
@[simp] theorem useFree_mgt (n : Nat) : (useFree n s).mgt = s.mgt := rfl
@[simp] theorem useFree_sreg (n : Nat) : (useFree n s).sreg = s.sreg := rfl
@[simp] theorem useFree_sregEcc (n : Nat) : (useFree n s).sregEcc = s.sregEcc := rfl
@[simp] theorem useFree_out (n : Nat) : (useFree n s).out = s.out := rfl

/-! ### setRingUse -/
@[simp] theorem setRingUse_pending (c r v : Nat) : (setRingUse c r v s).pending = s.pending := rfl
@[simp] theorem setRingUse_time (c r v : Nat) : (setRingUse c r v s).time = s.time := rfl
@[simp] theorem setRingUse_freeCount (c r v : Nat) : (setRingUse c r v s).freeCount = s.freeCount := rfl
@[simp] theorem setRingUse_events (c r v : Nat) : (setRingUse c r v s).events = s.events := rfl
@[simp] theorem setRingUse_checks (c r v : Nat) : (setRingUse c r v s).checks = s.checks := rfl
@[simp] theorem setRingUse_regs (c r v : Nat) : (setRingUse c r v s).regs = s.regs := rfl
@[simp] theorem setRingUse_casting (c r v : Nat) : (setRingUse c r v s).casting = s.casting := rfl
@[simp] theorem setRingUse_run (c r v : Nat) : (setRingUse c r v s).run = s.run := rfl
@[simp] theorem setRingUse_tab (c r v : Nat) : (setRingUse c r v s).tab = s.tab := rfl
@[simp] theorem setRingUse_streams (c r v : Nat) : (setRingUse c r v s).streams = s.streams := rfl
@[simp] theorem setRingUse_flights (c r v : Nat) : (setRingUse c r v s).flights = s.flights := rfl
@[simp] theorem setRingUse_dram (c r v : Nat) : (setRingUse c r v s).dram = s.dram := rfl
@[simp] theorem setRingUse_mem (c r v : Nat) : (setRingUse c r v s).mem = s.mem := rfl
@[simp] theorem setRingUse_fab (c r v : Nat) : (setRingUse c r v s).fab = s.fab := rfl
@[simp] theorem setRingUse_host (c r v : Nat) : (setRingUse c r v s).host = s.host := rfl
@[simp] theorem setRingUse_health (c r v : Nat) : (setRingUse c r v s).health = s.health := rfl
@[simp] theorem setRingUse_ing (c r v : Nat) : (setRingUse c r v s).ing = s.ing := rfl
@[simp] theorem setRingUse_spr (c r v : Nat) : (setRingUse c r v s).spr = s.spr := rfl
@[simp] theorem setRingUse_pwr (c r v : Nat) : (setRingUse c r v s).pwr = s.pwr := rfl
@[simp] theorem setRingUse_tsm (c r v : Nat) : (setRingUse c r v s).tsm = s.tsm := rfl
@[simp] theorem setRingUse_nvs (c r v : Nat) : (setRingUse c r v s).nvs = s.nvs := rfl
@[simp] theorem setRingUse_mgt (c r v : Nat) : (setRingUse c r v s).mgt = s.mgt := rfl
@[simp] theorem setRingUse_sreg (c r v : Nat) : (setRingUse c r v s).sreg = s.sreg := rfl
@[simp] theorem setRingUse_sregEcc (c r v : Nat) : (setRingUse c r v s).sregEcc = s.sregEcc := rfl
@[simp] theorem setRingUse_out (c r v : Nat) : (setRingUse c r v s).out = s.out := rfl

/-! ### setTrim -/
@[simp] theorem setTrim_pending (c a p : Nat) (v : Trim) : (setTrim c a p v s).pending = s.pending := rfl
@[simp] theorem setTrim_time (c a p : Nat) (v : Trim) : (setTrim c a p v s).time = s.time := rfl
@[simp] theorem setTrim_freeCount (c a p : Nat) (v : Trim) : (setTrim c a p v s).freeCount = s.freeCount := rfl
@[simp] theorem setTrim_events (c a p : Nat) (v : Trim) : (setTrim c a p v s).events = s.events := rfl
@[simp] theorem setTrim_checks (c a p : Nat) (v : Trim) : (setTrim c a p v s).checks = s.checks := rfl
@[simp] theorem setTrim_regs (c a p : Nat) (v : Trim) : (setTrim c a p v s).regs = s.regs := rfl
@[simp] theorem setTrim_casting (c a p : Nat) (v : Trim) : (setTrim c a p v s).casting = s.casting := rfl
@[simp] theorem setTrim_run (c a p : Nat) (v : Trim) : (setTrim c a p v s).run = s.run := rfl
@[simp] theorem setTrim_tab (c a p : Nat) (v : Trim) : (setTrim c a p v s).tab = s.tab := rfl
@[simp] theorem setTrim_streams (c a p : Nat) (v : Trim) : (setTrim c a p v s).streams = s.streams := rfl
@[simp] theorem setTrim_flights (c a p : Nat) (v : Trim) : (setTrim c a p v s).flights = s.flights := rfl
@[simp] theorem setTrim_dram (c a p : Nat) (v : Trim) : (setTrim c a p v s).dram = s.dram := rfl
@[simp] theorem setTrim_mem (c a p : Nat) (v : Trim) : (setTrim c a p v s).mem = s.mem := rfl
@[simp] theorem setTrim_fab (c a p : Nat) (v : Trim) : (setTrim c a p v s).fab = s.fab := rfl
@[simp] theorem setTrim_host (c a p : Nat) (v : Trim) : (setTrim c a p v s).host = s.host := rfl
@[simp] theorem setTrim_health (c a p : Nat) (v : Trim) : (setTrim c a p v s).health = s.health := rfl
@[simp] theorem setTrim_ing (c a p : Nat) (v : Trim) : (setTrim c a p v s).ing = s.ing := rfl
@[simp] theorem setTrim_spr (c a p : Nat) (v : Trim) : (setTrim c a p v s).spr = s.spr := rfl
@[simp] theorem setTrim_pwr (c a p : Nat) (v : Trim) : (setTrim c a p v s).pwr = s.pwr := rfl
@[simp] theorem setTrim_tsm (c a p : Nat) (v : Trim) : (setTrim c a p v s).tsm = s.tsm := rfl
@[simp] theorem setTrim_nvs (c a p : Nat) (v : Trim) : (setTrim c a p v s).nvs = s.nvs := rfl
@[simp] theorem setTrim_mgt (c a p : Nat) (v : Trim) : (setTrim c a p v s).mgt = s.mgt := rfl
@[simp] theorem setTrim_sreg (c a p : Nat) (v : Trim) : (setTrim c a p v s).sreg = s.sreg := rfl
@[simp] theorem setTrim_sregEcc (c a p : Nat) (v : Trim) : (setTrim c a p v s).sregEcc = s.sregEcc := rfl
@[simp] theorem setTrim_out (c a p : Nat) (v : Trim) : (setTrim c a p v s).out = s.out := rfl

/-! ### spTaintLine -/
@[simp] theorem spTaintLine_pending (c a : Nat) : (spTaintLine c a s).pending = s.pending := rfl
@[simp] theorem spTaintLine_time (c a : Nat) : (spTaintLine c a s).time = s.time := rfl
@[simp] theorem spTaintLine_freeCount (c a : Nat) : (spTaintLine c a s).freeCount = s.freeCount := rfl
@[simp] theorem spTaintLine_events (c a : Nat) : (spTaintLine c a s).events = s.events := rfl
@[simp] theorem spTaintLine_checks (c a : Nat) : (spTaintLine c a s).checks = s.checks := rfl
@[simp] theorem spTaintLine_regs (c a : Nat) : (spTaintLine c a s).regs = s.regs := rfl
@[simp] theorem spTaintLine_casting (c a : Nat) : (spTaintLine c a s).casting = s.casting := rfl
@[simp] theorem spTaintLine_run (c a : Nat) : (spTaintLine c a s).run = s.run := rfl
@[simp] theorem spTaintLine_tab (c a : Nat) : (spTaintLine c a s).tab = s.tab := rfl
@[simp] theorem spTaintLine_streams (c a : Nat) : (spTaintLine c a s).streams = s.streams := rfl
@[simp] theorem spTaintLine_flights (c a : Nat) : (spTaintLine c a s).flights = s.flights := rfl
@[simp] theorem spTaintLine_dram (c a : Nat) : (spTaintLine c a s).dram = s.dram := rfl
@[simp] theorem spTaintLine_mem (c a : Nat) : (spTaintLine c a s).mem = s.mem := rfl
@[simp] theorem spTaintLine_fab (c a : Nat) : (spTaintLine c a s).fab = s.fab := rfl
@[simp] theorem spTaintLine_host (c a : Nat) : (spTaintLine c a s).host = s.host := rfl
@[simp] theorem spTaintLine_health (c a : Nat) : (spTaintLine c a s).health = s.health := rfl
@[simp] theorem spTaintLine_ing (c a : Nat) : (spTaintLine c a s).ing = s.ing := rfl
@[simp] theorem spTaintLine_spr (c a : Nat) : (spTaintLine c a s).spr = s.spr := rfl
@[simp] theorem spTaintLine_pwr (c a : Nat) : (spTaintLine c a s).pwr = s.pwr := rfl
@[simp] theorem spTaintLine_tsm (c a : Nat) : (spTaintLine c a s).tsm = s.tsm := rfl
@[simp] theorem spTaintLine_nvs (c a : Nat) : (spTaintLine c a s).nvs = s.nvs := rfl
@[simp] theorem spTaintLine_mgt (c a : Nat) : (spTaintLine c a s).mgt = s.mgt := rfl
@[simp] theorem spTaintLine_sreg (c a : Nat) : (spTaintLine c a s).sreg = s.sreg := rfl
@[simp] theorem spTaintLine_sregEcc (c a : Nat) : (spTaintLine c a s).sregEcc = s.sregEcc := rfl
@[simp] theorem spTaintLine_out (c a : Nat) : (spTaintLine c a s).out = s.out := rfl

/-! ### mapCells -/
@[simp] theorem mapCells_pending (f : Cell → Cell) : (mapCells f s).pending = s.pending := rfl
@[simp] theorem mapCells_time (f : Cell → Cell) : (mapCells f s).time = s.time := rfl
@[simp] theorem mapCells_freeCount (f : Cell → Cell) : (mapCells f s).freeCount = s.freeCount := rfl
@[simp] theorem mapCells_events (f : Cell → Cell) : (mapCells f s).events = s.events := rfl
@[simp] theorem mapCells_checks (f : Cell → Cell) : (mapCells f s).checks = s.checks := rfl
@[simp] theorem mapCells_regs (f : Cell → Cell) : (mapCells f s).regs = s.regs := rfl
@[simp] theorem mapCells_casting (f : Cell → Cell) : (mapCells f s).casting = s.casting := rfl
@[simp] theorem mapCells_run (f : Cell → Cell) : (mapCells f s).run = s.run := rfl
@[simp] theorem mapCells_tab (f : Cell → Cell) : (mapCells f s).tab = s.tab := rfl
@[simp] theorem mapCells_streams (f : Cell → Cell) : (mapCells f s).streams = s.streams := rfl
@[simp] theorem mapCells_flights (f : Cell → Cell) : (mapCells f s).flights = s.flights := rfl
@[simp] theorem mapCells_dram (f : Cell → Cell) : (mapCells f s).dram = s.dram := rfl
@[simp] theorem mapCells_mem (f : Cell → Cell) : (mapCells f s).mem = s.mem := rfl
@[simp] theorem mapCells_fab (f : Cell → Cell) : (mapCells f s).fab = s.fab := rfl
@[simp] theorem mapCells_host (f : Cell → Cell) : (mapCells f s).host = s.host := rfl
@[simp] theorem mapCells_health (f : Cell → Cell) : (mapCells f s).health = s.health := rfl
@[simp] theorem mapCells_ing (f : Cell → Cell) : (mapCells f s).ing = s.ing := rfl
@[simp] theorem mapCells_spr (f : Cell → Cell) : (mapCells f s).spr = s.spr := rfl
@[simp] theorem mapCells_pwr (f : Cell → Cell) : (mapCells f s).pwr = s.pwr := rfl
@[simp] theorem mapCells_tsm (f : Cell → Cell) : (mapCells f s).tsm = s.tsm := rfl
@[simp] theorem mapCells_nvs (f : Cell → Cell) : (mapCells f s).nvs = s.nvs := rfl
@[simp] theorem mapCells_mgt (f : Cell → Cell) : (mapCells f s).mgt = s.mgt := rfl
@[simp] theorem mapCells_sreg (f : Cell → Cell) : (mapCells f s).sreg = s.sreg := rfl
@[simp] theorem mapCells_sregEcc (f : Cell → Cell) : (mapCells f s).sregEcc = s.sregEcc := rfl
@[simp] theorem mapCells_out (f : Cell → Cell) : (mapCells f s).out = s.out := rfl

/-! ### What a replaced queue leaves to read -/
@[simp] theorem rd_withQueue (l : List Instr) (k : Nat) : rd (withQueue l s) k = rd s k := rfl
@[simp] theorem fld_withQueue (l : List Instr) (k hi lo : Nat) : fld (withQueue l s) k hi lo = fld s k hi lo := rfl
@[simp] theorem cellAt_withQueue (l : List Instr) (c : Nat) : cellAt (withQueue l s) c = cellAt s c := rfl
@[simp] theorem arrAt_withQueue (l : List Instr) (c a : Nat) : arrAt (withQueue l s) c a = arrAt s c a := rfl
@[simp] theorem accAt_withQueue (l : List Instr) (c n j : Nat) : accAt (withQueue l s) c n j = accAt s c n j := rfl
@[simp] theorem sideAt_withQueue (l : List Instr) (c n j : Nat) : sideAt (withQueue l s) c n j = sideAt s c n j := rfl
@[simp] theorem tileAt_withQueue (l : List Instr) (c n : Nat) : tileAt (withQueue l s) c n = tileAt s c n := rfl
@[simp] theorem bufAt_withQueue (l : List Instr) (c i : Nat) : bufAt (withQueue l s) c i = bufAt s c i := rfl
@[simp] theorem chainAt_withQueue (l : List Instr) (c i : Nat) : chainAt (withQueue l s) c i = chainAt s c i := rfl
@[simp] theorem now_withQueue (l : List Instr) : now (withQueue l s) = now s := rfl
@[simp] theorem schState_withQueue (l : List Instr) : schState (withQueue l s) = schState s := rfl
@[simp] theorem codeAt_withQueue (l : List Instr) (c a p i : Nat) : codeAt (withQueue l s) c a p i = codeAt s c a p i := rfl
@[simp] theorem expAt_withQueue (l : List Instr) (c a p : Nat) : expAt (withQueue l s) c a p = expAt s c a p := rfl
@[simp] theorem checkAt_withQueue (l : List Instr) (c a p : Nat) : checkAt (withQueue l s) c a p = checkAt s c a p := rfl
@[simp] theorem trimAt_withQueue (l : List Instr) (c a p : Nat) : trimAt (withQueue l s) c a p = trimAt s c a p := rfl
@[simp] theorem qpAt_withQueue (l : List Instr) (q : Nat) : qpAt (withQueue l s) q = qpAt s q := rfl
@[simp] theorem ctx_withQueue (l : List Instr) (q i : Nat) : ctx (withQueue l s) q i = ctx s q i := rfl
@[simp] theorem markOf_withQueue (l : List Instr) (i : Nat) : markOf (withQueue l s) i = markOf s i := rfl
@[simp] theorem spGet_withQueue (l : List Instr) (c a n : Nat) : spGet (withQueue l s) c a n = spGet s c a n := rfl
@[simp] theorem dramGet_withQueue (l : List Instr) (a n : Nat) : dramGet (withQueue l s) a n = dramGet s a n := rfl

end Sys2Proof.Machine
end

