-- ==== Sys2Proof/Laws/Ops.lean ====
section
/-! SUPPORT. What the shared operations do to registers, cells, scratchpad and DRAM: a read after a write gives the value written, and
everything else reads as before. -/
set_option Elab.async false
namespace Sys2Proof.Machine

/-! ### Registers -/

theorem rd_lt (s : State) (k : Nat) : rd s k < 2 ^ 32 := (get regDefault s.regs k).isLt

theorem fld_def (s : State) (k hi lo : Nat) : fld s k hi lo = bits (rd s k) hi lo := rfl

theorem rd_congr {s t : State} (h : t.regs = s.regs) (k : Nat) : rd t k = rd s k := by simp [rd, h]

theorem rd_wr {s : State} (h : wf regDefault s.regs = true) (k v : Nat) : rd (wr k v s) k = v % 2 ^ 32 := by
  simp [rd, wr, get_put h]

theorem rd_wr_ne {s : State} (h : wf regDefault s.regs = true) {k k' : Nat} (v : Nat) (hk : k' ≠ k) : rd (wr k v s) k' = rd s k' := by
  simp [rd, wr, get_put_ne h hk]

theorem rd_setFld {s : State} (h : wf regDefault s.regs = true) (k lo v : Nat) {hi : Nat} (hh : hi < 32) :
    rd (setFld k hi lo v s) k = setBits (rd s k) hi lo v := by
  rw [setFld, rd_wr h, Nat.mod_eq_of_lt (setBits_lt (rd_lt s k) hh)]

theorem rd_setFld_ne {s : State} (h : wf regDefault s.regs = true) {k k' : Nat} (hi lo v : Nat) (hk : k' ≠ k) :
    rd (setFld k hi lo v s) k' = rd s k' := rd_wr_ne h _ hk

theorem fld_setFld {s : State} (h : wf regDefault s.regs = true) (k lo v : Nat) {hi : Nat} (hh : hi < 32) :
    fld (setFld k hi lo v s) k hi lo = v % 2 ^ (hi + 1 - lo) := by
  rw [fld_def, rd_setFld h _ _ _ hh, bits_setBits]

theorem fld_setFld_ne {s : State} (h : wf regDefault s.regs = true) (k lo v : Nat) {hi hi' lo' : Nat} (hh : hi < 32)
    (hf : hi' < lo ∨ hi < lo') : fld (setFld k hi lo v s) k hi' lo' = fld s k hi' lo' := by
  rw [fld_def, rd_setFld h _ _ _ hh, bits_setBits_ne _ _ hf, fld_def]

theorem rd_sticky {s : State} (h : wf regDefault s.regs = true) (k : Nat) {bit : Nat} (hb : bit < 32) :
    rd (sticky k bit s) k = rd s k ||| 2 ^ bit := by
  rw [rd_congr (sticky_regs s k bit), rd_wr h, Nat.mod_eq_of_lt (Nat.or_lt_two_pow (rd_lt s k) (Nat.pow_lt_pow_right (by decide) hb))]

theorem rd_sticky_ne {s : State} (h : wf regDefault s.regs = true) {k k' : Nat} (bit : Nat) (hk : k' ≠ k) :
    rd (sticky k bit s) k' = rd s k' := by rw [rd_congr (sticky_regs s k bit), rd_wr_ne h _ hk]

theorem fld_sticky {s : State} (h : wf regDefault s.regs = true) (k : Nat) {bit : Nat} (hb : bit < 32) :
    fld (sticky k bit s) k bit bit = 1 := by
  rw [fld_def, rd_sticky h _ hb, bits_or_self]

theorem rd_bump {s : State} (h : wf regDefault s.regs = true) (k : Nat) : rd (bump k s) k = min (rd s k + 1) (2 ^ 32 - 1) := by
  have e : fld s k 31 0 = rd s k := by
    rw [fld_def]
    apply Nat.eq_of_testBit_eq
    intro i
    rw [testBit_bits, Nat.zero_add]
    by_cases hi : i < 32
    · simp [hi]
    · simp [hi, Nat.testBit_eq_false_of_lt (lt_of_lt_of_le (rd_lt s k) (Nat.pow_le_pow_right (by decide) (Nat.le_of_not_lt hi)))]
  rw [bump, bumpFld, e, rd_setFld h _ _ _ (by decide), setBits_eq]
  have := rd_lt s k
  simp only [satAdd]
  omega

theorem rd_bumpFld_ne {s : State} (h : wf regDefault s.regs = true) {k k' : Nat} (hi lo n : Nat) (hk : k' ≠ k) :
    rd (bumpFld k hi lo n s) k' = rd s k' := rd_wr_ne h _ hk

theorem rd_bump_ne {s : State} (h : wf regDefault s.regs = true) {k k' : Nat} (hk : k' ≠ k) : rd (bump k s) k' = rd s k' :=
  rd_wr_ne h _ hk

/-! ### Cells -/

theorem cellAt_congr {s t : State} (h : t.cells = s.cells) (c : Nat) : cellAt t c = cellAt s c := by simp [cellAt, h]

theorem cellAt_setCell {s : State} (h : wf (fun _ => Cell.init) s.cells = true) (c : Nat) (x : Cell) : cellAt (setCell c x s) c = x :=
  get_put h

theorem cellAt_setCell_ne {s : State} (h : wf (fun _ => Cell.init) s.cells = true) {c c' : Nat} (x : Cell) (hc : c' ≠ c) :
    cellAt (setCell c x s) c' = cellAt s c' := get_put_ne h hc

theorem cellAt_onCell {s : State} (h : wf (fun _ => Cell.init) s.cells = true) (c : Nat) (f : Cell → Cell) :
    cellAt (onCell c f s) c = f (cellAt s c) := cellAt_setCell h c _

theorem cellAt_onCell_ne {s : State} (h : wf (fun _ => Cell.init) s.cells = true) {c c' : Nat} (f : Cell → Cell) (hc : c' ≠ c) :
    cellAt (onCell c f s) c' = cellAt s c' := cellAt_setCell_ne h _ hc

/-! ### Scratchpad and DRAM -/

/-- Scratchpad outside a written span, and other cells', read as before. -/
theorem spByte_spPut_out {s : State} (h : Canon s) {c addr c' a : Nat} {data : List Byte}
    (ha : c' ≠ c ∨ a < addr ∨ addr + data.length ≤ a) :
    get noByte (cellAt (spPut c addr data s) c').sp a = get noByte (cellAt s c').sp a := by
  by_cases hc : c' = c
  · subst hc
    rw [spPut, cellAt_onCell h.cells]
    exact get_putBytes_out (cellCanon_at h c').sp (by tauto)
  · rw [spPut, cellAt_onCell_ne h.cells _ hc]

theorem spByte_spPut {s : State} (h : Canon s) (c addr : Nat) {data : List Byte} (i : Nat) (hi : i < data.length) :
    get noByte (cellAt (spPut c addr data s) c).sp (addr + i) = data[i] := by
  rw [spPut, cellAt_onCell h.cells]
  exact get_putBytes_in (cellCanon_at h c).sp i hi

theorem dramByte_dramPut_out {s : State} (h : Canon s) {a k : Nat} {data : List Byte}
    (ha : k < a % 2 ^ 39 ∨ a % 2 ^ 39 + data.length ≤ k) :
    get noByte (dramPut a data s).dram.bytes k = get noByte s.dram.bytes k := get_putBytes_out h.bytes ha

theorem dramByte_dramPut {s : State} (h : Canon s) (a : Nat) {data : List Byte} (i : Nat) (hi : i < data.length) :
    get noByte (dramPut a data s).dram.bytes (a % 2 ^ 39 + i) = data[i] := get_putBytes_in h.bytes i hi

end Sys2Proof.Machine
end

