-- ==== Sys2Proof/Laws/Report.lean ====
section
/-! SUPPORT. What reporting leaves alone: forming a record, sending an event, raising a violation, a job fault or a taint, and a unit's
read of scratchpad. -/
set_option Elab.async false
set_option linter.tactic.unusedName false
set_option linter.unreachableTactic false
set_option linter.unusedTactic false
set_option linter.unusedVariables false
namespace Sys2Proof.Machine

theorem OnlyReports.rfl' (s : State) : OnlyReports s s :=
  ⟨rfl, rfl, fun _ _ => rfl, rfl, rfl, rfl, rfl, rfl, rfl, rfl, rfl, rfl, rfl, rfl, rfl, rfl, rfl, rfl, rfl, rfl, rfl⟩

/-- `s` comes of `z` by reporting, with its registers in canonical form. -/
structure Rep (z s : State) : Prop where
  wf : wf regDefault s.regs = true
  only : OnlyReports z s

theorem rep_self {s : State} (h : Canon s) : Rep s s := ⟨h.regs, .rfl' s⟩

/-- Health, host, outputs may change. -/
theorem rep_mk {z s : State} (h : Rep z s) {events host health out} :
    Rep z ⟨s.pending, s.time, s.freeCount, s.regs, events, s.checks, s.casting, s.run, s.tab, s.streams, s.cells, s.flights, s.dram, s.mem, s.fab, host, health,
      s.ing, s.spr, s.pwr, s.tsm, s.nvs, s.mgt, s.sreg, s.sregEcc, out⟩ :=
  ⟨h.wf, ⟨h.only.1, h.only.2, h.only.3, h.only.4, h.only.5, h.only.6, h.only.7, h.only.8, h.only.9, h.only.10, h.only.11, h.only.12,
    h.only.13, h.only.14, h.only.15, h.only.16, h.only.17, h.only.18, h.only.19, h.only.20, h.only.21⟩⟩

/-- The marks of reporting in the step may change. -/
theorem rep_run {z s : State} (h : Rep z s) {r : Run} (hr : r.unmarked = s.run.unmarked) : Rep z { s with run := r } :=
  ⟨h.wf, ⟨h.only.1, h.only.2, h.only.3, h.only.4, h.only.5, hr.trans h.only.6, h.only.7, h.only.8, h.only.9, h.only.10, h.only.11, h.only.12,
    h.only.13, h.only.14, h.only.15, h.only.16, h.only.17, h.only.18, h.only.19, h.only.20, h.only.21⟩⟩

theorem rep_wr {z s : State} {k v : Nat} (h : Rep z s) (hk : reportKey k = true) : Rep z (wr k v s) :=
  ⟨wf_put h.wf, ⟨h.only.1, h.only.2,
    fun k' hk' => (rd_wr_ne h.wf v (fun e => by rw [e, hk] at hk'; cases hk')).trans (h.only.3 k' hk'),
    h.only.4, h.only.5, h.only.6, h.only.7, h.only.8, h.only.9, h.only.10, h.only.11, h.only.12,
    h.only.13, h.only.14, h.only.15, h.only.16, h.only.17, h.only.18, h.only.19, h.only.20, h.only.21⟩⟩

theorem rep_each {z : State} {α : Type} {l : List α} {f : α → State → State} {s : State} (hf : ∀ a s, Rep z s → Rep z (f a s)) (h : Rep z s) :
    Rep z (each l f s) := by
  unfold each
  induction l generalizing s with
  | nil => exact h
  | cons a l ih => exact ih (hf a s h)

theorem rep_eachMem {z : State} {α : Type} {l : List α} {f : α → State → State} {s : State} (hf : ∀ a ∈ l, ∀ s, Rep z s → Rep z (f a s))
    (h : Rep z s) : Rep z (each l f s) := by
  unfold each
  induction l generalizing s with
  | nil => exact h
  | cons a l ih => exact ih (fun b hb => hf b (List.mem_cons_of_mem _ hb)) (hf a List.mem_cons_self s h)

theorem rep_cut {z v : State} (h : Rep z v) {P : Prop} (k : Rep z v → P) : P := k h

theorem reportKey_ctx {q : Nat} (h : q < 2 ^ 20) : reportKey (bankKey (Reg.HST_QP_CTX0 + 8) q) = true := by
  unfold reportKey bankKey
  rw [Bool.or_eq_true, decide_eq_true_eq]
  right
  rw [Nat.add_assoc, Nat.add_sub_cancel_left, Nat.mul_comm, Nat.mul_add_div (by decide), Nat.div_eq_of_lt h, Nat.add_zero]

theorem qpsIn_lt {s : State} {state cls q : Nat} (h : q ∈ qpsIn s state cls) : q < 2 ^ 20 := by
  simp only [qpsIn, List.mem_filterMap] at h
  obtain ⟨k, -, h⟩ := h
  split at h
  · split at h
    · rw [← Option.some.inj h]; exact Nat.mod_lt _ (Nat.two_pow_pos 20)
    · cases h
  · cases h

theorem rep_setFld {z : State} {k hi lo v : Nat} {s : State} (h : Rep z s) (hk : reportKey k = true := by decide) : Rep z (setFld k hi lo v s) := rep_wr h hk

theorem rep_sticky {z : State} {k bit : Nat} {s : State} (h : Rep z s) (hk : reportKey k = true := by decide) : Rep z (sticky k bit s) := rep_mk (rep_wr h hk)

theorem rep_bumpFld {z : State} {k hi lo n : Nat} {s : State} (h : Rep z s) (hk : reportKey k = true := by decide) : Rep z (bumpFld k hi lo n s) := rep_wr h hk

theorem rep_bump {z : State} {k : Nat} {s : State} (h : Rep z s) (hk : reportKey k = true := by decide) : Rep z (bump k s) := rep_wr h hk

theorem rep_emit {z : State} {o : Output} {s : State} (h : Rep z s) : Rep z (emit o s) := rep_mk h

theorem rep_journalIssue {z : State} {entry : List Byte} {s : State} (h : Rep z s) : Rep z (journalIssue entry s) := by
  unfold journalIssue
  repeat' first
    | (extract_lets -lift +onlyGivenNames s1; first | (refine rep_cut (z := z) (v := s1) ?_ ?_ <;> [(unfold s1; clear s1); (intro _; try clear_value s1)]) | (refine rep_cut (z := z) (v := s1.2) ?_ ?_ <;> [(unfold s1; clear s1); (intro _; try clear_value s1)]) | try clear_value s1)
    | refine rep_sticky ?_
    | refine rep_bump ?_
    | refine rep_setFld ?_
    | split
    | with_reducible exact rep_mk (by assumption)
    | with_reducible exact rep_run (by assumption) rfl
    | with_reducible assumption

theorem rep_setSent {z : State} {x : Sent} {s : State} (h : Rep z s) : Rep z (setSent x s) := by
  unfold setSent
  repeat' first
    | with_reducible exact rep_mk (by assumption)
    | with_reducible exact rep_run (by assumption) rfl
    | with_reducible assumption

theorem rep_enqueue {z : State} {r : Rec} {s : State} (h : Rep z s) : Rep z (enqueue r s) := by
  unfold enqueue
  dsimp only
  repeat' first
    | (extract_lets -lift +onlyGivenNames s1; first | (refine rep_cut (z := z) (v := s1) ?_ ?_ <;> [(unfold s1; clear s1); (intro _; try clear_value s1)]) | (refine rep_cut (z := z) (v := s1.2) ?_ ?_ <;> [(unfold s1; clear s1); (intro _; try clear_value s1)]) | try clear_value s1)
    | refine rep_setFld ?_
    | refine rep_bump ?_
    | split
    | with_reducible exact rep_mk (by assumption)
    | with_reducible exact rep_run (by assumption) rfl
    | with_reducible assumption

theorem rep_recordFull {z : State} {cls : Nat} {sev : Nat} {loc : List (Nat × Nat)} {detail : List (String × Nat)} {classif : Nat} {first : Nat} {s : State} (h : Rep z s) : Rep z (recordFull cls sev loc detail classif first s) := by
  unfold recordFull
  repeat' first
    | (extract_lets -lift +onlyGivenNames s1; first | (refine rep_cut (z := z) (v := s1) ?_ ?_ <;> [(unfold s1; clear s1); (intro _; try clear_value s1)]) | (refine rep_cut (z := z) (v := s1.2) ?_ ?_ <;> [(unfold s1; clear s1); (intro _; try clear_value s1)]) | try clear_value s1)
    | with_reducible apply rep_setSent
    | refine rep_wr ?_ (by decide)
    | with_reducible apply rep_journalIssue
    | with_reducible apply rep_enqueue
    | refine rep_bump ?_
    | split
    | with_reducible exact rep_mk (by assumption)
    | with_reducible exact rep_run (by assumption) rfl
    | with_reducible assumption

theorem rep_recordOf {z : State} {cls reg : Nat} {loc : List (Nat × Nat)} {first : Nat} {s : State} (h : Rep z s) :
    Rep z (recordOf cls reg loc first s) := rep_recordFull h

theorem rep_record {z : State} {cls : Nat} {loc : List (Nat × Nat)} {first : Nat} {s : State} (h : Rep z s) : Rep z (record cls loc first s) := by
  unfold record
  repeat' first
    | with_reducible apply rep_recordOf
    | with_reducible assumption

theorem rep_riskInput {z : State} {k : Nat} {n : Nat} {s : State} (h : Rep z s) : Rep z (riskInput k n s) := by
  unfold riskInput
  repeat' first
    | with_reducible exact rep_mk (by assumption)
    | with_reducible exact rep_run (by assumption) rfl
    | with_reducible assumption

theorem rep_noteCorrected {z : State} {place : Nat} {k : Nat} {s : State} (h : Rep z s) : Rep z (noteCorrected place k s) := by
  unfold noteCorrected
  repeat' first
    | with_reducible apply rep_riskInput
    | with_reducible exact rep_mk (by assumption)
    | with_reducible exact rep_run (by assumption) rfl
    | with_reducible assumption

theorem rep_setQp {z : State} {q : Nat} {y : Qp} {s : State} (h : Rep z s) : Rep z (setQp q y s) := rep_mk h

theorem rep_emitPkt {z : State} {q : Nat} {p : Pkt} {s : State} (h : Rep z s) : Rep z (emitPkt q p s) := by
  unfold emitPkt
  repeat' first
    | with_reducible apply rep_emit
    | with_reducible assumption

theorem rep_sendPacket {z : State} {q opcode va rkey : Nat} {payload : List Byte} {imm : Nat} {ev : Bool} {s : State} (hq : q < 2 ^ 20)
    (h : Rep z s) : Rep z (sendPacket q opcode va rkey payload imm ev s) := by
  unfold sendPacket
  exact rep_emitPkt (rep_setQp (rep_wr h (reportKey_ctx hq)))

theorem rep_event {z : State} {etype code : Nat} {s : State} (h : Rep z s) : Rep z (event etype code s) := by
  unfold event
  split
  · exact rep_bump h
  · exact rep_eachMem (fun q hq _ h => rep_sendPacket (qpsIn_lt hq) h) h

theorem rep_accFirst {z : State} {kind : Nat} {src : Source} {addr : Nat} {s : State} (h : Rep z s) : Rep z (accFirst kind src addr s) := by
  unfold accFirst
  repeat' first
    | (extract_lets -lift +onlyGivenNames s1; first | (refine rep_cut (z := z) (v := s1) ?_ ?_ <;> [(unfold s1; clear s1); (intro _; try clear_value s1)]) | (refine rep_cut (z := z) (v := s1.2) ?_ ?_ <;> [(unfold s1; clear s1); (intro _; try clear_value s1)]) | try clear_value s1)
    | refine rep_wr ?_ (by decide)
    | refine rep_sticky ?_
    | split
    | with_reducible assumption

theorem rep_accState {z : State} {src : Source} {addr : Nat} {s : State} (h : Rep z s) : Rep z (accState src addr s) := by
  unfold accState
  repeat' first
    | with_reducible apply rep_accFirst
    | with_reducible assumption

theorem rep_jobFault {z : State} {s : State} (h : Rep z s) : Rep z (jobFault s) := by
  unfold jobFault
  repeat' first
    | split
    | with_reducible exact rep_mk (by assumption)
    | with_reducible exact rep_run (by assumption) rfl
    | with_reducible assumption

theorem rep_jobFaultRec {z : State} {reg : Nat} {loc : List (Nat × Nat)} {first : Nat} {s : State} (h : Rep z s) : Rep z (jobFaultRec reg loc first s) := by
  unfold jobFaultRec
  repeat' first
    | with_reducible apply rep_recordOf
    | with_reducible apply rep_jobFault
    | with_reducible assumption

theorem rep_viol {z : State} {bit unit die wh : Nat} {s : State} (h : Rep z s) : Rep z (viol bit unit die wh s) := by
  have h1 : Rep z (sticky Reg.SCH_VIOL bit s) := rep_sticky h
  unfold viol
  refine rep_record (rep_jobFault ?_)
  split
  · exact rep_run (rep_wr (rep_wr h1 (by decide)) (by decide)) rfl
  · exact h1

theorem rep_taintMark {z : State} {cause unit die wh sub : Nat} {loc : List (Nat × Nat)} {s : State} (h : Rep z s) :
    Rep z (taintMark cause unit die wh sub loc s) :=
  rep_run (rep_wr (rep_wr (rep_wr h (by decide)) (by decide)) (by decide)) rfl

theorem rep_taintPoint {z s : State} (h : Rep z s) : Rep z (taintPoint s) := rep_run h rfl

theorem rep_taint {z : State} {cause : Nat} {unit : Nat} {die : Nat} {wh : Nat} {sub : Nat} {loc : List (Nat × Nat)} {s : State} (h : Rep z s) : Rep z (taint cause unit die wh sub loc s) := by
  unfold taint
  repeat' first
    | (extract_lets -lift +onlyGivenNames s1; first | (refine rep_cut (z := z) (v := s1) ?_ ?_ <;> [(unfold s1; clear s1); (intro _; try clear_value s1)]) | (refine rep_cut (z := z) (v := s1.2) ?_ ?_ <;> [(unfold s1; clear s1); (intro _; try clear_value s1)]) | try clear_value s1)
    | with_reducible apply rep_riskInput
    | with_reducible apply rep_taintMark
    | with_reducible apply rep_recordFull
    | refine rep_bump ?_
    | with_reducible apply rep_record
    | with_reducible apply rep_taintPoint
    | split
    | with_reducible assumption

theorem rep_taintCell {z : State} {cause : Nat} {unit : Nat} {die : Nat} {cell : Nat} {s : State} (h : Rep z s) : Rep z (taintCell cause unit die cell s) := by
  unfold taintCell
  repeat' first
    | with_reducible apply rep_taint
    | with_reducible assumption

theorem rep_spRead {z : State} {unit : Nat} {c : Nat} {addr : Nat} {n : Nat} {s : State} (h : Rep z s) : Rep z (spRead unit c addr n s) := by
  unfold spRead
  repeat' first
    | (extract_lets -lift +onlyGivenNames s1; first | (refine rep_cut (z := z) (v := s1) ?_ ?_ <;> [(unfold s1; clear s1); (intro _; try clear_value s1)]) | (refine rep_cut (z := z) (v := s1.2) ?_ ?_ <;> [(unfold s1; clear s1); (intro _; try clear_value s1)]) | try clear_value s1)
    | with_reducible apply rep_noteCorrected
    | with_reducible apply rep_taintCell
    | split
    | with_reducible assumption

theorem rep_wordViol {z : State} {bit : Nat} {unit : Nat} {w : Slot} {s : State} (h : Rep z s) : Rep z (wordViol bit unit w s) := by
  unfold wordViol
  repeat' first
    | with_reducible apply rep_viol
    | with_reducible assumption

/-! ### A register under the forming of a record -/

/-- The registers that forming a record writes. -/
def recKey (k : Nat) : Bool :=
  [Reg.HLT_AREC_SEQ_LO, Reg.HLT_AREC_QUEUE, Reg.HLT_AREC_DROPS, Reg.HLT_JRNL_HEAD, Reg.HLT_JRNL_DROPS, Reg.HLT_STICKY0].contains k

/-- Register `q` holds `v`, and the registers are in canonical form. -/
structure Kp (q v : Nat) (s : State) : Prop where
  wf : wf regDefault s.regs = true
  val : rd s q = v

theorem kp_mk {q v : Nat} {s t : State} (h : Kp q v s) (hr : t.regs = s.regs := by rfl) : Kp q v t := ⟨hr ▸ h.1, (rd_congr hr q).trans h.2⟩

theorem kp_wr {q v0 : Nat} (hq : recKey q = false) {k v : Nat} {s : State} (h : Kp q v0 s) (hk : recKey k = true) : Kp q v0 (wr k v s) :=
  ⟨wf_put h.wf, (rd_wr_ne h.wf v (fun e => by rw [e, hk] at hq; cases hq)).trans h.val⟩

theorem kp_cut {q v0 : Nat} {v : State} (h : Kp q v0 v) {P : Prop} (k : Kp q v0 v → P) : P := k h

theorem kp_setFld {q : Nat} {v0 : Nat} (hq : recKey q = false) {k hi lo v : Nat} {s : State} (h : Kp q v0 s) (hk : recKey k = true := by decide) :
    Kp q v0 (setFld k hi lo v s) := kp_wr hq h hk

theorem kp_sticky {q : Nat} {v0 : Nat} (hq : recKey q = false) {k bit : Nat} {s : State} (h : Kp q v0 s) (hk : recKey k = true := by decide) :
    Kp q v0 (sticky k bit s) := kp_mk (kp_wr hq h hk)

theorem kp_bumpFld {q : Nat} {v0 : Nat} (hq : recKey q = false) {k hi lo n : Nat} {s : State} (h : Kp q v0 s) (hk : recKey k = true := by decide) :
    Kp q v0 (bumpFld k hi lo n s) := kp_wr hq h hk

theorem kp_bump {q : Nat} {v0 : Nat} (hq : recKey q = false) {k : Nat} {s : State} (h : Kp q v0 s) (hk : recKey k = true := by decide) :
    Kp q v0 (bump k s) := kp_wr hq h hk

theorem kp_journalIssue {q v0 : Nat} (hq : recKey q = false) {entry : List Byte} {s : State} (h : Kp q v0 s) : Kp q v0 (journalIssue entry s) := by
  unfold journalIssue
  repeat' first
    | (extract_lets -lift +onlyGivenNames s1; first | (refine kp_cut (q := q) (v0 := v0) (v := s1) ?_ ?_ <;> [(unfold s1; clear s1); (intro _; try clear_value s1)]) | (refine kp_cut (q := q) (v0 := v0) (v := s1.2) ?_ ?_ <;> [(unfold s1; clear s1); (intro _; try clear_value s1)]) | try clear_value s1)
    | refine kp_sticky hq ?_
    | refine kp_bump hq ?_
    | refine kp_setFld hq ?_
    | split
    | with_reducible exact kp_mk (by assumption)
    | with_reducible assumption

theorem kp_setSent {q v0 : Nat} (hq : recKey q = false) {x : Sent} {s : State} (h : Kp q v0 s) : Kp q v0 (setSent x s) := by
  unfold setSent
  repeat' first
    | with_reducible exact kp_mk (by assumption)
    | with_reducible assumption

theorem kp_enqueue {q v0 : Nat} (hq : recKey q = false) {r : Rec} {s : State} (h : Kp q v0 s) : Kp q v0 (enqueue r s) := by
  unfold enqueue
  dsimp only
  repeat' first
    | (extract_lets -lift +onlyGivenNames s1; first | (refine kp_cut (q := q) (v0 := v0) (v := s1) ?_ ?_ <;> [(unfold s1; clear s1); (intro _; try clear_value s1)]) | (refine kp_cut (q := q) (v0 := v0) (v := s1.2) ?_ ?_ <;> [(unfold s1; clear s1); (intro _; try clear_value s1)]) | try clear_value s1)
    | refine kp_setFld hq ?_
    | refine kp_bump hq ?_
    | split
    | with_reducible exact kp_mk (by assumption)
    | with_reducible assumption

theorem kp_recordFull {q v0 : Nat} (hq : recKey q = false) {cls : Nat} {sev : Nat} {loc : List (Nat × Nat)} {detail : List (String × Nat)} {classif : Nat} {first : Nat} {s : State} (h : Kp q v0 s) : Kp q v0 (recordFull cls sev loc detail classif first s) := by
  unfold recordFull
  repeat' first
    | (extract_lets -lift +onlyGivenNames s1; first | (refine kp_cut (q := q) (v0 := v0) (v := s1) ?_ ?_ <;> [(unfold s1; clear s1); (intro _; try clear_value s1)]) | (refine kp_cut (q := q) (v0 := v0) (v := s1.2) ?_ ?_ <;> [(unfold s1; clear s1); (intro _; try clear_value s1)]) | try clear_value s1)
    | refine kp_setSent hq ?_
    | refine kp_wr hq ?_ (by decide)
    | refine kp_journalIssue hq ?_
    | refine kp_enqueue hq ?_
    | refine kp_bump hq ?_
    | split
    | with_reducible exact kp_mk (by assumption)
    | with_reducible assumption

theorem kp_recordOf {q v0 : Nat} (hq : recKey q = false) {cls reg : Nat} {loc : List (Nat × Nat)} {first : Nat} {s : State} (h : Kp q v0 s) :
    Kp q v0 (recordOf cls reg loc first s) := kp_recordFull hq h

theorem kp_record {q v0 : Nat} (hq : recKey q = false) {cls : Nat} {loc : List (Nat × Nat)} {first : Nat} {s : State} (h : Kp q v0 s) : Kp q v0 (record cls loc first s) := by
  unfold record
  repeat' first
    | refine kp_recordOf hq ?_
    | with_reducible assumption

theorem kp_riskInput {q v0 : Nat} (hq : recKey q = false) {k : Nat} {n : Nat} {s : State} (h : Kp q v0 s) : Kp q v0 (riskInput k n s) := by
  unfold riskInput
  repeat' first
    | with_reducible exact kp_mk (by assumption)
    | with_reducible assumption

theorem kp_jobFault {q v0 : Nat} (hq : recKey q = false) {s : State} (h : Kp q v0 s) : Kp q v0 (jobFault s) := by
  unfold jobFault
  repeat' first
    | split
    | with_reducible exact kp_mk (by assumption)
    | with_reducible assumption

theorem kp_jobFaultRec {q v0 : Nat} (hq : recKey q = false) {reg : Nat} {loc : List (Nat × Nat)} {first : Nat} {s : State} (h : Kp q v0 s) : Kp q v0 (jobFaultRec reg loc first s) := by
  unfold jobFaultRec
  repeat' first
    | refine kp_recordOf hq ?_
    | refine kp_jobFault hq ?_
    | with_reducible assumption

/-! ### Violations -/

/-- A violation sets its bit of SCH_VIOL and no other. -/
theorem rd_viol {s : State} (h : Canon s) {bit : Nat} (unit die wh : Nat) (hb : bit < 32) :
    rd (viol bit unit die wh s) Reg.SCH_VIOL = rd s Reg.SCH_VIOL ||| 2 ^ bit := by
  have h1 : Kp Reg.SCH_VIOL (rd s Reg.SCH_VIOL ||| 2 ^ bit) (sticky Reg.SCH_VIOL bit s) := ⟨(canon_sticky h).regs, rd_sticky h.regs _ hb⟩
  unfold viol
  refine (kp_record (by decide) (kp_jobFault (by decide) ?_)).val
  split
  · refine kp_mk (s := wr Reg.SCH_VIOL_TICK _ (wr Reg.SCH_VIOL_FIRST _ (sticky Reg.SCH_VIOL bit s))) ?_
    exact ⟨wf_put (wf_put h1.wf), (rd_wr_ne (wf_put h1.wf) _ (by decide)).trans ((rd_wr_ne h1.wf _ (by decide)).trans h1.val)⟩
  · exact h1

/-- Several violations on one tick set their bits. -/
theorem fld_viols {unit die wh : Nat} : ∀ {l : List Nat} {s : State}, Canon s → (∀ b ∈ l, b < 32) → ∀ b,
    (b ∈ l ∨ fld s Reg.SCH_VIOL b b = 1) → fld (each l (fun b s => viol b unit die wh s) s) Reg.SCH_VIOL b b = 1
  | [], _, _, _, _, hb => hb.resolve_left (by simp)
  | a :: l, s, h, hl, b, hb => by
    refine fld_viols (l := l) (canon_viol h) (fun x hx => hl x (List.mem_cons_of_mem _ hx)) b ?_
    rw [fld_def, rd_viol h _ _ _ (hl a List.mem_cons_self)]
    rcases hb with hb | hb
    · rcases List.mem_cons.1 hb with rfl | hb
      · exact .inr (bits_or_self _ _)
      · exact .inl hb
    · right
      by_cases e : b = a
      · subst e; exact bits_or_self _ _
      · rw [bits_or_ne (by omega)]; exact hb

end Sys2Proof.Machine
end

