-- ==== Sys2Proof/Laws/Cells.lean ====
section
/-! SUPPORT. What the operations on a cell's memories do: a read after a write gives the value written, everything else reads as before. -/
set_option Elab.async false
namespace Sys2Proof.Machine

variable {s : State}

theorem canon_atIssue {head : BitVec 8} {w : Slot} (h : Canon s) : Canon (atIssue head w s) := by
  unfold atIssue
  extract_lets unit t s'
  have hm : Canon (markIssued unit w t s') := canon_markIssued (canon_runTo h)
  split
  · exact canon_wordCorrected hm
  · exact hm

/-! ### Lists -/

theorem each_nil {α : Type} (f : α → State → State) (s : State) : each [] f s = s := rfl

theorem each_cons {α : Type} (a : α) (l : List α) (f : α → State → State) (s : State) : each (a :: l) f s = each l f (f a s) := rfl

/-- What every round keeps, the whole keeps. -/
theorem each_keeps {α β : Type} (g : State → β) {l : List α} {f : α → State → State} (hf : ∀ a s, g (f a s) = g s) (s : State) :
    g (each l f s) = g s := by
  induction l generalizing s with
  | nil => rfl
  | cons a l ih => rw [each_cons, ih, hf]

theorem each_inv {α : Type} (P : State → Prop) {l : List α} {f : α → State → State} (hf : ∀ a ∈ l, ∀ s, P s → P (f a s)) {s : State}
    (h : P s) : P (each l f s) := by
  induction l generalizing s with
  | nil => exact h
  | cons a l ih => exact ih (fun b hb => hf b (List.mem_cons_of_mem _ hb)) (hf a List.mem_cons_self s h)

/-! ### Accumulator tiles -/

theorem tileAt_setTile (h : Canon s) (c n : Nat) (x : Tile) : tileAt (setTile c n x s) c n = x := by
  rw [tileAt, setTile, cellAt_onCell h.cells]
  exact get_put (cellCanon_at h c).tiles

theorem tileAt_setTile_ne (h : Canon s) (c : Nat) {n m : Nat} (x : Tile) (hm : m ≠ n) : tileAt (setTile c n x s) c m = tileAt s c m := by
  rw [tileAt, setTile, cellAt_onCell h.cells]
  exact get_put_ne (cellCanon_at h c).tiles hm

theorem accAt_setTile (h : Canon s) (c n : Nat) (x : Tile) (m j : Nat) : accAt (setTile c n x s) c m j = accAt s c m j := by
  rw [accAt, setTile, cellAt_onCell h.cells]; rfl

theorem sideAt_setTile (h : Canon s) (c n : Nat) (x : Tile) (m j : Nat) : sideAt (setTile c n x s) c m j = sideAt s c m j := by
  rw [sideAt, setTile, cellAt_onCell h.cells]; rfl

theorem tileAt_setAcc (h : Canon s) (c n j : Nat) (v : F16) (m : Nat) : tileAt (setAcc c n j v s) c m = tileAt s c m := by
  rw [tileAt, setAcc, cellAt_onCell h.cells]; rfl

theorem sideAt_setAcc (h : Canon s) (c n j : Nat) (v : F16) (m i : Nat) : sideAt (setAcc c n j v s) c m i = sideAt s c m i := by
  rw [sideAt, setAcc, cellAt_onCell h.cells]; rfl

theorem accAt_setAcc (h : Canon s) (c n j : Nat) (v : F16) : accAt (setAcc c n j v s) c n j = v := by
  rw [accAt, setAcc, cellAt_onCell h.cells]
  exact get_put (cellCanon_at h c).acc

theorem accAt_setAcc_ne (h : Canon s) (c : Nat) {n j m i : Nat} (v : F16) (hk : m * 256 + i ≠ n * 256 + j) :
    accAt (setAcc c n j v s) c m i = accAt s c m i := by
  rw [accAt, setAcc, cellAt_onCell h.cells]
  exact get_put_ne (cellCanon_at h c).acc hk

theorem get_forget {α : Type} [DecidableEq α] {d : Nat → α} {p : Nat → Bool} {k : Nat} (hp : p k = true) :
    ∀ {m : SMap α} {lo : Nat}, wfFrom d lo m = true → get d (forget p m) k = d k
  | [], _, _ => rfl
  | (j, v) :: r, lo, hm => by
    rw [wfFrom_cons] at hm
    have ih := get_forget hp hm.2.2
    have hw : wfFrom d (j + 1) (forget p r) = true := wfFrom_filter hm.2.2
    by_cases hj : p j = true
    · rw [forget, List.filter_cons_of_neg (by simp [hj])]; exact ih
    · rw [forget, List.filter_cons_of_pos (by simp [hj]), get]
      split
      · rename_i e; rw [e] at hp; exact absurd hp hj
      · split
        · rfl
        · exact ih

theorem get_forget_not {α : Type} [DecidableEq α] {d : Nat → α} {p : Nat → Bool} {k : Nat} (hp : p k = false) :
    ∀ {m : SMap α} {lo : Nat}, wfFrom d lo m = true → get d (forget p m) k = get d m k
  | [], _, _ => rfl
  | (j, v) :: r, lo, hm => by
    rw [wfFrom_cons] at hm
    have ih := get_forget_not hp hm.2.2
    have hw : wfFrom d (j + 1) (forget p r) = true := wfFrom_filter hm.2.2
    by_cases hj : p j = true
    · rw [forget, List.filter_cons_of_neg (by simp [hj])]
      refine ih.trans ?_
      rw [get]
      split
      · rename_i e; rw [e, hj] at hp; cases hp
      · split
        · rename_i hlt; exact get_below (by omega) hm.2.2
        · rfl
    · rw [forget, List.filter_cons_of_pos (by simp [hj]), get, get]
      split
      · rfl
      · split
        · rfl
        · exact ih

/-- Clearing slots of a tile zeroes their values and side words and their fold positions. -/
theorem accAt_clearSlots (h : Canon s) {c n lo hi m j : Nat} (hj : j < 256) (hl : lo ≤ j) (hh : j < hi)
    (hm : m = n ∨ ∃ k, k < foldArea s c ∧ m = foldTile (foldArea s c) n k) : accAt (clearSlots c n lo hi s) c m j = 0 := by
  rw [accAt, clearSlots, cellAt_onCell h.cells]
  have e : (m * 256 + j) / 256 = m := by omega
  have e' : (m * 256 + j) % 256 = j := by omega
  have hp : (n :: (List.range (foldArea s c)).map (foldTile (foldArea s c) n)).contains ((m * 256 + j) / 256) = true := by
    rw [e, List.contains_iff_mem, List.mem_cons, List.mem_map]
    rcases hm with hm | ⟨k, hk, hm⟩
    · exact .inl hm
    · exact .inr ⟨k, List.mem_range.2 hk, hm.symm⟩
  exact get_forget (d := fun _ => (0 : F16)) (k := m * 256 + j)
    (p := fun k => (n :: (List.range (foldArea s c)).map (foldTile (foldArea s c) n)).contains (k / 256)
      && (decide (lo ≤ k % 256) && decide (k % 256 < hi))) (by rw [Bool.and_eq_true]; exact ⟨hp, by simp [e', hl, hh]⟩) (cellCanon_at h c).acc

theorem sideAt_clearSlots (h : Canon s) {c n lo hi j : Nat} (hj : j < 256) (hl : lo ≤ j) (hh : j < hi) :
    sideAt (clearSlots c n lo hi s) c n j = 0 := by
  rw [sideAt, clearSlots, cellAt_onCell h.cells]
  have e : (n * 256 + j) / 256 = n := by omega
  have e' : (n * 256 + j) % 256 = j := by omega
  exact congrArg BitVec.toNat (get_forget (p := fun k => k / 256 == n && (decide (lo ≤ k % 256) && decide (k % 256 < hi)))
    (by simp [e, e', hl, hh]) (cellCanon_at h c).side)

/-- The slots outside the range keep their values. -/
theorem accAt_clearSlots_ne (h : Canon s) {c n lo hi m j : Nat} (hj : j < 256) (hr : j < lo ∨ hi ≤ j) :
    accAt (clearSlots c n lo hi s) c m j = accAt s c m j := by
  rw [accAt, clearSlots, cellAt_onCell h.cells]
  have e' : (m * 256 + j) % 256 = j := by omega
  have hp : (decide (lo ≤ j) && decide (j < hi)) = false := by rcases hr with hr | hr <;> simp <;> omega
  exact get_forget_not (d := fun _ => (0 : F16)) (k := m * 256 + j)
    (p := fun k => (n :: (List.range (foldArea s c)).map (foldTile (foldArea s c) n)).contains (k / 256)
      && (decide (lo ≤ k % 256) && decide (k % 256 < hi))) (by simp only [e', hp, Bool.and_false]) (cellCanon_at h c).acc

theorem tileAt_clearSlots (h : Canon s) (c n lo hi m : Nat) : tileAt (clearSlots c n lo hi s) c m = tileAt s c m := by
  rw [tileAt, clearSlots, cellAt_onCell h.cells]; rfl

/-- Clearing a tile zeroes its values and side words and its fold positions. -/
theorem accAt_clearTile (h : Canon s) {c n m j : Nat} (hj : j < 256)
    (hm : m = n ∨ ∃ k, k < foldArea s c ∧ m = foldTile (foldArea s c) n k) : accAt (clearTile c n s) c m j = 0 :=
  accAt_clearSlots h hj (Nat.zero_le j) hj hm

theorem sideAt_clearTile (h : Canon s) {c n j : Nat} (hj : j < 256) : sideAt (clearTile c n s) c n j = 0 :=
  sideAt_clearSlots h hj (Nat.zero_le j) hj

theorem tileAt_clearTile (h : Canon s) (c n m : Nat) : tileAt (clearTile c n s) c m = tileAt s c m := tileAt_clearSlots h c n 0 256 m

/-- Rounds that write distinct slots of a tile in turn. -/
theorem accAt_eachSet {α : Type} (g : α → F16) (c n : Nat) : ∀ (l : List α) (k : Nat) {s : State}, Canon s → ∀ j,
    accAt (each ((List.range' k l.length).zip l) (fun p s => setAcc c n p.1 (g p.2) s) s) c n j =
      (if k ≤ j then (l[j - k]?.map g).getD (accAt s c n j) else accAt s c n j)
  | [], k, s, _, j => by simp [each_nil]
  | a :: l, k, s, h, j => by
    rw [List.length_cons, List.range'_succ, List.zip_cons_cons, each_cons, accAt_eachSet g c n l (k + 1) (canon_setAcc h) j]
    by_cases e : j = k
    · subst e
      rw [if_neg (by omega), if_pos (Nat.le_refl _), accAt_setAcc h]; simp
    · rw [accAt_setAcc_ne h c _ (by omega)]
      by_cases hk : k ≤ j
      · rw [if_pos (by omega), if_pos hk, show j - k = (j - (k + 1)) + 1 by omega]; simp
      · rw [if_neg (by omega), if_neg hk]

/-! ### What reads of check bits and counts of overflows keep -/

theorem arrOvf_cells (c k n : Nat) (s : State) : (arrOvf c k n s).cells = s.cells := by
  unfold arrOvf; repeat' split
  all_goals first | rfl | (simp only; split <;> rfl)

theorem arrOvf_flights (c k n : Nat) (s : State) : (arrOvf c k n s).flights = s.flights := by
  unfold arrOvf; repeat' split
  all_goals first | rfl | (simp only; split <;> rfl)

theorem arrOvf_dram (c k n : Nat) (s : State) : (arrOvf c k n s).dram = s.dram := by
  unfold arrOvf; repeat' split
  all_goals first | rfl | (simp only; split <;> rfl)

end Sys2Proof.Machine
end

