-- ==== Sys2Proof/Laws/Exec.lean ====
section
/-! SUPPORT. What an arm of exec answers: every command is served, and a slot word is issued. -/
set_option Elab.async false
namespace Sys2Proof.Machine

/-- Every command is served. -/
theorem exec_served (c : Instr) : ∃ f : State → State, ∀ s, exec c s = served f s := by
  cases c <;> exact ⟨_, fun _ => rfl⟩

/-- A slot word is issued to its unit. -/
theorem exec_slot {c : Instr} {head : BitVec 8} {w : Slot} {ready : State → Bool} (h : slotWord c = some (head, w, ready)) :
    ∃ body, ∀ s, exec c s = .next (withQueue s.pending (issue head w ready body s)) := by
  cases c
  case hold x v =>
    by_cases hx : definedHead x = true
    · simp [slotWord, slotWordOf, slotReady, hx] at h
    · simp only [slotWord, slotWordOf, slotReady, hx, Bool.false_eq_true, if_false, Option.some.injEq, Prod.mk.injEq] at h
      obtain ⟨rfl, rfl, rfl⟩ := h
      exact ⟨fun s => s, fun s => by simp [exec, doHold, served, execHold, hx]⟩
  all_goals first
    | (simp only [slotWord, slotWordOf, slotReady, Option.some.injEq, Prod.mk.injEq] at h
       obtain ⟨rfl, rfl, rfl⟩ := h
       exact ⟨_, fun _ => rfl⟩)
    | (simp [slotWord, slotWordOf, slotReady] at h)

end Sys2Proof.Machine
end

