-- ==== Sys2Proof/Laws/Setters.lean ====
section
/-! SUPPORT. The fields that the updates of one memory, port, channel or entry leave alone, one lemma per field per update. -/
set_option Elab.async false
namespace Sys2Proof.Machine

variable (s : State)

/-! ### setStream -/
@[simp] theorem setStream_pending (key : Nat) (x : Stream) : (setStream key x s).pending = s.pending := rfl
@[simp] theorem setStream_time (key : Nat) (x : Stream) : (setStream key x s).time = s.time := rfl
@[simp] theorem setStream_freeCount (key : Nat) (x : Stream) : (setStream key x s).freeCount = s.freeCount := rfl
@[simp] theorem setStream_regs (key : Nat) (x : Stream) : (setStream key x s).regs = s.regs := rfl
@[simp] theorem setStream_events (key : Nat) (x : Stream) : (setStream key x s).events = s.events := rfl
@[simp] theorem setStream_checks (key : Nat) (x : Stream) : (setStream key x s).checks = s.checks := rfl
@[simp] theorem setStream_casting (key : Nat) (x : Stream) : (setStream key x s).casting = s.casting := rfl
@[simp] theorem setStream_run (key : Nat) (x : Stream) : (setStream key x s).run = s.run := rfl
@[simp] theorem setStream_tab (key : Nat) (x : Stream) : (setStream key x s).tab = s.tab := rfl
@[simp] theorem setStream_cells (key : Nat) (x : Stream) : (setStream key x s).cells = s.cells := rfl
@[simp] theorem setStream_flights (key : Nat) (x : Stream) : (setStream key x s).flights = s.flights := rfl
@[simp] theorem setStream_dram (key : Nat) (x : Stream) : (setStream key x s).dram = s.dram := rfl
@[simp] theorem setStream_mem (key : Nat) (x : Stream) : (setStream key x s).mem = s.mem := rfl
@[simp] theorem setStream_fab (key : Nat) (x : Stream) : (setStream key x s).fab = s.fab := rfl
@[simp] theorem setStream_host (key : Nat) (x : Stream) : (setStream key x s).host = s.host := rfl
@[simp] theorem setStream_health (key : Nat) (x : Stream) : (setStream key x s).health = s.health := rfl
@[simp] theorem setStream_ing (key : Nat) (x : Stream) : (setStream key x s).ing = s.ing := rfl
@[simp] theorem setStream_spr (key : Nat) (x : Stream) : (setStream key x s).spr = s.spr := rfl
@[simp] theorem setStream_pwr (key : Nat) (x : Stream) : (setStream key x s).pwr = s.pwr := rfl
@[simp] theorem setStream_tsm (key : Nat) (x : Stream) : (setStream key x s).tsm = s.tsm := rfl
@[simp] theorem setStream_nvs (key : Nat) (x : Stream) : (setStream key x s).nvs = s.nvs := rfl
@[simp] theorem setStream_mgt (key : Nat) (x : Stream) : (setStream key x s).mgt = s.mgt := rfl
@[simp] theorem setStream_sreg (key : Nat) (x : Stream) : (setStream key x s).sreg = s.sreg := rfl
@[simp] theorem setStream_sregEcc (key : Nat) (x : Stream) : (setStream key x s).sregEcc = s.sregEcc := rfl
@[simp] theorem setStream_out (key : Nat) (x : Stream) : (setStream key x s).out = s.out := rfl

/-! ### setCredit -/
@[simp] theorem setCredit_pending (pc a v : Nat) : (setCredit pc a v s).pending = s.pending := rfl
@[simp] theorem setCredit_time (pc a v : Nat) : (setCredit pc a v s).time = s.time := rfl
@[simp] theorem setCredit_freeCount (pc a v : Nat) : (setCredit pc a v s).freeCount = s.freeCount := rfl
@[simp] theorem setCredit_regs (pc a v : Nat) : (setCredit pc a v s).regs = s.regs := rfl
@[simp] theorem setCredit_events (pc a v : Nat) : (setCredit pc a v s).events = s.events := rfl
@[simp] theorem setCredit_checks (pc a v : Nat) : (setCredit pc a v s).checks = s.checks := rfl
@[simp] theorem setCredit_casting (pc a v : Nat) : (setCredit pc a v s).casting = s.casting := rfl
@[simp] theorem setCredit_run (pc a v : Nat) : (setCredit pc a v s).run = s.run := rfl
@[simp] theorem setCredit_tab (pc a v : Nat) : (setCredit pc a v s).tab = s.tab := rfl
@[simp] theorem setCredit_streams (pc a v : Nat) : (setCredit pc a v s).streams = s.streams := rfl
@[simp] theorem setCredit_cells (pc a v : Nat) : (setCredit pc a v s).cells = s.cells := rfl
@[simp] theorem setCredit_flights (pc a v : Nat) : (setCredit pc a v s).flights = s.flights := rfl
@[simp] theorem setCredit_dram (pc a v : Nat) : (setCredit pc a v s).dram = s.dram := rfl
@[simp] theorem setCredit_fab (pc a v : Nat) : (setCredit pc a v s).fab = s.fab := rfl
@[simp] theorem setCredit_host (pc a v : Nat) : (setCredit pc a v s).host = s.host := rfl
@[simp] theorem setCredit_health (pc a v : Nat) : (setCredit pc a v s).health = s.health := rfl
@[simp] theorem setCredit_ing (pc a v : Nat) : (setCredit pc a v s).ing = s.ing := rfl
@[simp] theorem setCredit_spr (pc a v : Nat) : (setCredit pc a v s).spr = s.spr := rfl
@[simp] theorem setCredit_pwr (pc a v : Nat) : (setCredit pc a v s).pwr = s.pwr := rfl
@[simp] theorem setCredit_tsm (pc a v : Nat) : (setCredit pc a v s).tsm = s.tsm := rfl
@[simp] theorem setCredit_nvs (pc a v : Nat) : (setCredit pc a v s).nvs = s.nvs := rfl
@[simp] theorem setCredit_mgt (pc a v : Nat) : (setCredit pc a v s).mgt = s.mgt := rfl
@[simp] theorem setCredit_sreg (pc a v : Nat) : (setCredit pc a v s).sreg = s.sreg := rfl
@[simp] theorem setCredit_sregEcc (pc a v : Nat) : (setCredit pc a v s).sregEcc = s.sregEcc := rfl
@[simp] theorem setCredit_out (pc a v : Nat) : (setCredit pc a v s).out = s.out := rfl

/-! ### setHeld -/
@[simp] theorem setHeld_pending (m k v : Nat) : (setHeld m k v s).pending = s.pending := rfl
@[simp] theorem setHeld_time (m k v : Nat) : (setHeld m k v s).time = s.time := rfl
@[simp] theorem setHeld_freeCount (m k v : Nat) : (setHeld m k v s).freeCount = s.freeCount := rfl
@[simp] theorem setHeld_regs (m k v : Nat) : (setHeld m k v s).regs = s.regs := rfl
@[simp] theorem setHeld_events (m k v : Nat) : (setHeld m k v s).events = s.events := rfl
@[simp] theorem setHeld_checks (m k v : Nat) : (setHeld m k v s).checks = s.checks := rfl
@[simp] theorem setHeld_casting (m k v : Nat) : (setHeld m k v s).casting = s.casting := rfl
@[simp] theorem setHeld_run (m k v : Nat) : (setHeld m k v s).run = s.run := rfl
@[simp] theorem setHeld_tab (m k v : Nat) : (setHeld m k v s).tab = s.tab := rfl
@[simp] theorem setHeld_streams (m k v : Nat) : (setHeld m k v s).streams = s.streams := rfl
@[simp] theorem setHeld_cells (m k v : Nat) : (setHeld m k v s).cells = s.cells := rfl
@[simp] theorem setHeld_flights (m k v : Nat) : (setHeld m k v s).flights = s.flights := rfl
@[simp] theorem setHeld_dram (m k v : Nat) : (setHeld m k v s).dram = s.dram := rfl
@[simp] theorem setHeld_fab (m k v : Nat) : (setHeld m k v s).fab = s.fab := rfl
@[simp] theorem setHeld_host (m k v : Nat) : (setHeld m k v s).host = s.host := rfl
@[simp] theorem setHeld_health (m k v : Nat) : (setHeld m k v s).health = s.health := rfl
@[simp] theorem setHeld_ing (m k v : Nat) : (setHeld m k v s).ing = s.ing := rfl
@[simp] theorem setHeld_spr (m k v : Nat) : (setHeld m k v s).spr = s.spr := rfl
@[simp] theorem setHeld_pwr (m k v : Nat) : (setHeld m k v s).pwr = s.pwr := rfl
@[simp] theorem setHeld_tsm (m k v : Nat) : (setHeld m k v s).tsm = s.tsm := rfl
@[simp] theorem setHeld_nvs (m k v : Nat) : (setHeld m k v s).nvs = s.nvs := rfl
@[simp] theorem setHeld_mgt (m k v : Nat) : (setHeld m k v s).mgt = s.mgt := rfl
@[simp] theorem setHeld_sreg (m k v : Nat) : (setHeld m k v s).sreg = s.sreg := rfl
@[simp] theorem setHeld_sregEcc (m k v : Nat) : (setHeld m k v s).sregEcc = s.sregEcc := rfl
@[simp] theorem setHeld_out (m k v : Nat) : (setHeld m k v s).out = s.out := rfl

/-! ### setRefOwed -/
@[simp] theorem setRefOwed_pending (pc bank v : Nat) : (setRefOwed pc bank v s).pending = s.pending := rfl
@[simp] theorem setRefOwed_time (pc bank v : Nat) : (setRefOwed pc bank v s).time = s.time := rfl
@[simp] theorem setRefOwed_freeCount (pc bank v : Nat) : (setRefOwed pc bank v s).freeCount = s.freeCount := rfl
@[simp] theorem setRefOwed_regs (pc bank v : Nat) : (setRefOwed pc bank v s).regs = s.regs := rfl
@[simp] theorem setRefOwed_events (pc bank v : Nat) : (setRefOwed pc bank v s).events = s.events := rfl
@[simp] theorem setRefOwed_checks (pc bank v : Nat) : (setRefOwed pc bank v s).checks = s.checks := rfl
@[simp] theorem setRefOwed_casting (pc bank v : Nat) : (setRefOwed pc bank v s).casting = s.casting := rfl
@[simp] theorem setRefOwed_run (pc bank v : Nat) : (setRefOwed pc bank v s).run = s.run := rfl
@[simp] theorem setRefOwed_tab (pc bank v : Nat) : (setRefOwed pc bank v s).tab = s.tab := rfl
@[simp] theorem setRefOwed_streams (pc bank v : Nat) : (setRefOwed pc bank v s).streams = s.streams := rfl
@[simp] theorem setRefOwed_cells (pc bank v : Nat) : (setRefOwed pc bank v s).cells = s.cells := rfl
@[simp] theorem setRefOwed_flights (pc bank v : Nat) : (setRefOwed pc bank v s).flights = s.flights := rfl
@[simp] theorem setRefOwed_dram (pc bank v : Nat) : (setRefOwed pc bank v s).dram = s.dram := rfl
@[simp] theorem setRefOwed_fab (pc bank v : Nat) : (setRefOwed pc bank v s).fab = s.fab := rfl
@[simp] theorem setRefOwed_host (pc bank v : Nat) : (setRefOwed pc bank v s).host = s.host := rfl
@[simp] theorem setRefOwed_health (pc bank v : Nat) : (setRefOwed pc bank v s).health = s.health := rfl
@[simp] theorem setRefOwed_ing (pc bank v : Nat) : (setRefOwed pc bank v s).ing = s.ing := rfl
@[simp] theorem setRefOwed_spr (pc bank v : Nat) : (setRefOwed pc bank v s).spr = s.spr := rfl
@[simp] theorem setRefOwed_pwr (pc bank v : Nat) : (setRefOwed pc bank v s).pwr = s.pwr := rfl
@[simp] theorem setRefOwed_tsm (pc bank v : Nat) : (setRefOwed pc bank v s).tsm = s.tsm := rfl
@[simp] theorem setRefOwed_nvs (pc bank v : Nat) : (setRefOwed pc bank v s).nvs = s.nvs := rfl
@[simp] theorem setRefOwed_mgt (pc bank v : Nat) : (setRefOwed pc bank v s).mgt = s.mgt := rfl
@[simp] theorem setRefOwed_sreg (pc bank v : Nat) : (setRefOwed pc bank v s).sreg = s.sreg := rfl
@[simp] theorem setRefOwed_sregEcc (pc bank v : Nat) : (setRefOwed pc bank v s).sregEcc = s.sregEcc := rfl
@[simp] theorem setRefOwed_out (pc bank v : Nat) : (setRefOwed pc bank v s).out = s.out := rfl

/-! ### setClaim -/
@[simp] theorem setClaim_pending (pc slot v : Nat) : (setClaim pc slot v s).pending = s.pending := rfl
@[simp] theorem setClaim_time (pc slot v : Nat) : (setClaim pc slot v s).time = s.time := rfl
@[simp] theorem setClaim_freeCount (pc slot v : Nat) : (setClaim pc slot v s).freeCount = s.freeCount := rfl
@[simp] theorem setClaim_regs (pc slot v : Nat) : (setClaim pc slot v s).regs = s.regs := rfl
@[simp] theorem setClaim_events (pc slot v : Nat) : (setClaim pc slot v s).events = s.events := rfl
@[simp] theorem setClaim_checks (pc slot v : Nat) : (setClaim pc slot v s).checks = s.checks := rfl
@[simp] theorem setClaim_casting (pc slot v : Nat) : (setClaim pc slot v s).casting = s.casting := rfl
@[simp] theorem setClaim_run (pc slot v : Nat) : (setClaim pc slot v s).run = s.run := rfl
@[simp] theorem setClaim_tab (pc slot v : Nat) : (setClaim pc slot v s).tab = s.tab := rfl
@[simp] theorem setClaim_streams (pc slot v : Nat) : (setClaim pc slot v s).streams = s.streams := rfl
@[simp] theorem setClaim_cells (pc slot v : Nat) : (setClaim pc slot v s).cells = s.cells := rfl
@[simp] theorem setClaim_flights (pc slot v : Nat) : (setClaim pc slot v s).flights = s.flights := rfl
@[simp] theorem setClaim_dram (pc slot v : Nat) : (setClaim pc slot v s).dram = s.dram := rfl
@[simp] theorem setClaim_fab (pc slot v : Nat) : (setClaim pc slot v s).fab = s.fab := rfl
@[simp] theorem setClaim_host (pc slot v : Nat) : (setClaim pc slot v s).host = s.host := rfl
@[simp] theorem setClaim_health (pc slot v : Nat) : (setClaim pc slot v s).health = s.health := rfl
@[simp] theorem setClaim_ing (pc slot v : Nat) : (setClaim pc slot v s).ing = s.ing := rfl
@[simp] theorem setClaim_spr (pc slot v : Nat) : (setClaim pc slot v s).spr = s.spr := rfl
@[simp] theorem setClaim_pwr (pc slot v : Nat) : (setClaim pc slot v s).pwr = s.pwr := rfl
@[simp] theorem setClaim_tsm (pc slot v : Nat) : (setClaim pc slot v s).tsm = s.tsm := rfl
@[simp] theorem setClaim_nvs (pc slot v : Nat) : (setClaim pc slot v s).nvs = s.nvs := rfl
@[simp] theorem setClaim_mgt (pc slot v : Nat) : (setClaim pc slot v s).mgt = s.mgt := rfl
@[simp] theorem setClaim_sreg (pc slot v : Nat) : (setClaim pc slot v s).sreg = s.sreg := rfl
@[simp] theorem setClaim_sregEcc (pc slot v : Nat) : (setClaim pc slot v s).sregEcc = s.sregEcc := rfl
@[simp] theorem setClaim_out (pc slot v : Nat) : (setClaim pc slot v s).out = s.out := rfl

/-! ### setGrant -/
@[simp] theorem setGrant_pending (pc : Nat) (g : Nat × Nat) : (setGrant pc g s).pending = s.pending := rfl
@[simp] theorem setGrant_time (pc : Nat) (g : Nat × Nat) : (setGrant pc g s).time = s.time := rfl
@[simp] theorem setGrant_freeCount (pc : Nat) (g : Nat × Nat) : (setGrant pc g s).freeCount = s.freeCount := rfl
@[simp] theorem setGrant_regs (pc : Nat) (g : Nat × Nat) : (setGrant pc g s).regs = s.regs := rfl
@[simp] theorem setGrant_events (pc : Nat) (g : Nat × Nat) : (setGrant pc g s).events = s.events := rfl
@[simp] theorem setGrant_checks (pc : Nat) (g : Nat × Nat) : (setGrant pc g s).checks = s.checks := rfl
@[simp] theorem setGrant_casting (pc : Nat) (g : Nat × Nat) : (setGrant pc g s).casting = s.casting := rfl
@[simp] theorem setGrant_run (pc : Nat) (g : Nat × Nat) : (setGrant pc g s).run = s.run := rfl
@[simp] theorem setGrant_tab (pc : Nat) (g : Nat × Nat) : (setGrant pc g s).tab = s.tab := rfl
@[simp] theorem setGrant_streams (pc : Nat) (g : Nat × Nat) : (setGrant pc g s).streams = s.streams := rfl
@[simp] theorem setGrant_cells (pc : Nat) (g : Nat × Nat) : (setGrant pc g s).cells = s.cells := rfl
@[simp] theorem setGrant_flights (pc : Nat) (g : Nat × Nat) : (setGrant pc g s).flights = s.flights := rfl
@[simp] theorem setGrant_dram (pc : Nat) (g : Nat × Nat) : (setGrant pc g s).dram = s.dram := rfl
@[simp] theorem setGrant_fab (pc : Nat) (g : Nat × Nat) : (setGrant pc g s).fab = s.fab := rfl
@[simp] theorem setGrant_host (pc : Nat) (g : Nat × Nat) : (setGrant pc g s).host = s.host := rfl
@[simp] theorem setGrant_health (pc : Nat) (g : Nat × Nat) : (setGrant pc g s).health = s.health := rfl
@[simp] theorem setGrant_ing (pc : Nat) (g : Nat × Nat) : (setGrant pc g s).ing = s.ing := rfl
@[simp] theorem setGrant_spr (pc : Nat) (g : Nat × Nat) : (setGrant pc g s).spr = s.spr := rfl
@[simp] theorem setGrant_pwr (pc : Nat) (g : Nat × Nat) : (setGrant pc g s).pwr = s.pwr := rfl
@[simp] theorem setGrant_tsm (pc : Nat) (g : Nat × Nat) : (setGrant pc g s).tsm = s.tsm := rfl
@[simp] theorem setGrant_nvs (pc : Nat) (g : Nat × Nat) : (setGrant pc g s).nvs = s.nvs := rfl
@[simp] theorem setGrant_mgt (pc : Nat) (g : Nat × Nat) : (setGrant pc g s).mgt = s.mgt := rfl
@[simp] theorem setGrant_sreg (pc : Nat) (g : Nat × Nat) : (setGrant pc g s).sreg = s.sreg := rfl
@[simp] theorem setGrant_sregEcc (pc : Nat) (g : Nat × Nat) : (setGrant pc g s).sregEcc = s.sregEcc := rfl
@[simp] theorem setGrant_out (pc : Nat) (g : Nat × Nat) : (setGrant pc g s).out = s.out := rfl

/-! ### setWindow -/
@[simp] theorem setWindow_pending (pc v : Nat) : (setWindow pc v s).pending = s.pending := rfl
@[simp] theorem setWindow_time (pc v : Nat) : (setWindow pc v s).time = s.time := rfl
@[simp] theorem setWindow_freeCount (pc v : Nat) : (setWindow pc v s).freeCount = s.freeCount := rfl
@[simp] theorem setWindow_regs (pc v : Nat) : (setWindow pc v s).regs = s.regs := rfl
@[simp] theorem setWindow_events (pc v : Nat) : (setWindow pc v s).events = s.events := rfl
@[simp] theorem setWindow_checks (pc v : Nat) : (setWindow pc v s).checks = s.checks := rfl
@[simp] theorem setWindow_casting (pc v : Nat) : (setWindow pc v s).casting = s.casting := rfl
@[simp] theorem setWindow_run (pc v : Nat) : (setWindow pc v s).run = s.run := rfl
@[simp] theorem setWindow_tab (pc v : Nat) : (setWindow pc v s).tab = s.tab := rfl
@[simp] theorem setWindow_streams (pc v : Nat) : (setWindow pc v s).streams = s.streams := rfl
@[simp] theorem setWindow_cells (pc v : Nat) : (setWindow pc v s).cells = s.cells := rfl
@[simp] theorem setWindow_flights (pc v : Nat) : (setWindow pc v s).flights = s.flights := rfl
@[simp] theorem setWindow_dram (pc v : Nat) : (setWindow pc v s).dram = s.dram := rfl
@[simp] theorem setWindow_fab (pc v : Nat) : (setWindow pc v s).fab = s.fab := rfl
@[simp] theorem setWindow_host (pc v : Nat) : (setWindow pc v s).host = s.host := rfl
@[simp] theorem setWindow_health (pc v : Nat) : (setWindow pc v s).health = s.health := rfl
@[simp] theorem setWindow_ing (pc v : Nat) : (setWindow pc v s).ing = s.ing := rfl
@[simp] theorem setWindow_spr (pc v : Nat) : (setWindow pc v s).spr = s.spr := rfl
@[simp] theorem setWindow_pwr (pc v : Nat) : (setWindow pc v s).pwr = s.pwr := rfl
@[simp] theorem setWindow_tsm (pc v : Nat) : (setWindow pc v s).tsm = s.tsm := rfl
@[simp] theorem setWindow_nvs (pc v : Nat) : (setWindow pc v s).nvs = s.nvs := rfl
@[simp] theorem setWindow_mgt (pc v : Nat) : (setWindow pc v s).mgt = s.mgt := rfl
@[simp] theorem setWindow_sreg (pc v : Nat) : (setWindow pc v s).sreg = s.sreg := rfl
@[simp] theorem setWindow_sregEcc (pc v : Nat) : (setWindow pc v s).sregEcc = s.sregEcc := rfl
@[simp] theorem setWindow_out (pc v : Nat) : (setWindow pc v s).out = s.out := rfl

/-! ### setSent -/
@[simp] theorem setSent_pending (x : Sent) : (setSent x s).pending = s.pending := rfl
@[simp] theorem setSent_time (x : Sent) : (setSent x s).time = s.time := rfl
@[simp] theorem setSent_freeCount (x : Sent) : (setSent x s).freeCount = s.freeCount := rfl
@[simp] theorem setSent_regs (x : Sent) : (setSent x s).regs = s.regs := rfl
@[simp] theorem setSent_events (x : Sent) : (setSent x s).events = s.events := rfl
@[simp] theorem setSent_checks (x : Sent) : (setSent x s).checks = s.checks := rfl
@[simp] theorem setSent_casting (x : Sent) : (setSent x s).casting = s.casting := rfl
@[simp] theorem setSent_run (x : Sent) : (setSent x s).run = s.run := rfl
@[simp] theorem setSent_tab (x : Sent) : (setSent x s).tab = s.tab := rfl
@[simp] theorem setSent_streams (x : Sent) : (setSent x s).streams = s.streams := rfl
@[simp] theorem setSent_cells (x : Sent) : (setSent x s).cells = s.cells := rfl
@[simp] theorem setSent_flights (x : Sent) : (setSent x s).flights = s.flights := rfl
@[simp] theorem setSent_dram (x : Sent) : (setSent x s).dram = s.dram := rfl
@[simp] theorem setSent_mem (x : Sent) : (setSent x s).mem = s.mem := rfl
@[simp] theorem setSent_fab (x : Sent) : (setSent x s).fab = s.fab := rfl
@[simp] theorem setSent_host (x : Sent) : (setSent x s).host = s.host := rfl
@[simp] theorem setSent_ing (x : Sent) : (setSent x s).ing = s.ing := rfl
@[simp] theorem setSent_spr (x : Sent) : (setSent x s).spr = s.spr := rfl
@[simp] theorem setSent_pwr (x : Sent) : (setSent x s).pwr = s.pwr := rfl
@[simp] theorem setSent_tsm (x : Sent) : (setSent x s).tsm = s.tsm := rfl
@[simp] theorem setSent_nvs (x : Sent) : (setSent x s).nvs = s.nvs := rfl
@[simp] theorem setSent_mgt (x : Sent) : (setSent x s).mgt = s.mgt := rfl
@[simp] theorem setSent_sreg (x : Sent) : (setSent x s).sreg = s.sreg := rfl
@[simp] theorem setSent_sregEcc (x : Sent) : (setSent x s).sregEcc = s.sregEcc := rfl
@[simp] theorem setSent_out (x : Sent) : (setSent x s).out = s.out := rfl

/-! ### setPmb -/
@[simp] theorem setPmb_pending (d item v : Nat) : (setPmb d item v s).pending = s.pending := rfl
@[simp] theorem setPmb_time (d item v : Nat) : (setPmb d item v s).time = s.time := rfl
@[simp] theorem setPmb_freeCount (d item v : Nat) : (setPmb d item v s).freeCount = s.freeCount := rfl
@[simp] theorem setPmb_regs (d item v : Nat) : (setPmb d item v s).regs = s.regs := rfl
@[simp] theorem setPmb_events (d item v : Nat) : (setPmb d item v s).events = s.events := rfl
@[simp] theorem setPmb_checks (d item v : Nat) : (setPmb d item v s).checks = s.checks := rfl
@[simp] theorem setPmb_casting (d item v : Nat) : (setPmb d item v s).casting = s.casting := rfl
@[simp] theorem setPmb_run (d item v : Nat) : (setPmb d item v s).run = s.run := rfl
@[simp] theorem setPmb_tab (d item v : Nat) : (setPmb d item v s).tab = s.tab := rfl
@[simp] theorem setPmb_streams (d item v : Nat) : (setPmb d item v s).streams = s.streams := rfl
@[simp] theorem setPmb_cells (d item v : Nat) : (setPmb d item v s).cells = s.cells := rfl
@[simp] theorem setPmb_flights (d item v : Nat) : (setPmb d item v s).flights = s.flights := rfl
@[simp] theorem setPmb_dram (d item v : Nat) : (setPmb d item v s).dram = s.dram := rfl
@[simp] theorem setPmb_mem (d item v : Nat) : (setPmb d item v s).mem = s.mem := rfl
@[simp] theorem setPmb_fab (d item v : Nat) : (setPmb d item v s).fab = s.fab := rfl
@[simp] theorem setPmb_host (d item v : Nat) : (setPmb d item v s).host = s.host := rfl
@[simp] theorem setPmb_health (d item v : Nat) : (setPmb d item v s).health = s.health := rfl
@[simp] theorem setPmb_ing (d item v : Nat) : (setPmb d item v s).ing = s.ing := rfl
@[simp] theorem setPmb_spr (d item v : Nat) : (setPmb d item v s).spr = s.spr := rfl
@[simp] theorem setPmb_tsm (d item v : Nat) : (setPmb d item v s).tsm = s.tsm := rfl
@[simp] theorem setPmb_nvs (d item v : Nat) : (setPmb d item v s).nvs = s.nvs := rfl
@[simp] theorem setPmb_mgt (d item v : Nat) : (setPmb d item v s).mgt = s.mgt := rfl
@[simp] theorem setPmb_sreg (d item v : Nat) : (setPmb d item v s).sreg = s.sreg := rfl
@[simp] theorem setPmb_sregEcc (d item v : Nat) : (setPmb d item v s).sregEcc = s.sregEcc := rfl
@[simp] theorem setPmb_out (d item v : Nat) : (setPmb d item v s).out = s.out := rfl

/-! ### setFill -/
@[simp] theorem setFill_pending (die slot : Nat) (f : Fill) : (setFill die slot f s).pending = s.pending := rfl
@[simp] theorem setFill_time (die slot : Nat) (f : Fill) : (setFill die slot f s).time = s.time := rfl
@[simp] theorem setFill_freeCount (die slot : Nat) (f : Fill) : (setFill die slot f s).freeCount = s.freeCount := rfl
@[simp] theorem setFill_regs (die slot : Nat) (f : Fill) : (setFill die slot f s).regs = s.regs := rfl
@[simp] theorem setFill_events (die slot : Nat) (f : Fill) : (setFill die slot f s).events = s.events := rfl
@[simp] theorem setFill_checks (die slot : Nat) (f : Fill) : (setFill die slot f s).checks = s.checks := rfl
@[simp] theorem setFill_casting (die slot : Nat) (f : Fill) : (setFill die slot f s).casting = s.casting := rfl
@[simp] theorem setFill_run (die slot : Nat) (f : Fill) : (setFill die slot f s).run = s.run := rfl
@[simp] theorem setFill_tab (die slot : Nat) (f : Fill) : (setFill die slot f s).tab = s.tab := rfl
@[simp] theorem setFill_streams (die slot : Nat) (f : Fill) : (setFill die slot f s).streams = s.streams := rfl
@[simp] theorem setFill_cells (die slot : Nat) (f : Fill) : (setFill die slot f s).cells = s.cells := rfl
@[simp] theorem setFill_flights (die slot : Nat) (f : Fill) : (setFill die slot f s).flights = s.flights := rfl
@[simp] theorem setFill_dram (die slot : Nat) (f : Fill) : (setFill die slot f s).dram = s.dram := rfl
@[simp] theorem setFill_mem (die slot : Nat) (f : Fill) : (setFill die slot f s).mem = s.mem := rfl
@[simp] theorem setFill_fab (die slot : Nat) (f : Fill) : (setFill die slot f s).fab = s.fab := rfl
@[simp] theorem setFill_host (die slot : Nat) (f : Fill) : (setFill die slot f s).host = s.host := rfl
@[simp] theorem setFill_health (die slot : Nat) (f : Fill) : (setFill die slot f s).health = s.health := rfl
@[simp] theorem setFill_ing (die slot : Nat) (f : Fill) : (setFill die slot f s).ing = s.ing := rfl
@[simp] theorem setFill_pwr (die slot : Nat) (f : Fill) : (setFill die slot f s).pwr = s.pwr := rfl
@[simp] theorem setFill_tsm (die slot : Nat) (f : Fill) : (setFill die slot f s).tsm = s.tsm := rfl
@[simp] theorem setFill_nvs (die slot : Nat) (f : Fill) : (setFill die slot f s).nvs = s.nvs := rfl
@[simp] theorem setFill_mgt (die slot : Nat) (f : Fill) : (setFill die slot f s).mgt = s.mgt := rfl
@[simp] theorem setFill_sreg (die slot : Nat) (f : Fill) : (setFill die slot f s).sreg = s.sreg := rfl
@[simp] theorem setFill_sregEcc (die slot : Nat) (f : Fill) : (setFill die slot f s).sregEcc = s.sregEcc := rfl
@[simp] theorem setFill_out (die slot : Nat) (f : Fill) : (setFill die slot f s).out = s.out := rfl

/-! ### setSreg -/
@[simp] theorem setSreg_pending (die g r : Nat) (v : F16) : (setSreg die g r v s).pending = s.pending := rfl
@[simp] theorem setSreg_time (die g r : Nat) (v : F16) : (setSreg die g r v s).time = s.time := rfl
@[simp] theorem setSreg_freeCount (die g r : Nat) (v : F16) : (setSreg die g r v s).freeCount = s.freeCount := rfl
@[simp] theorem setSreg_regs (die g r : Nat) (v : F16) : (setSreg die g r v s).regs = s.regs := rfl
@[simp] theorem setSreg_events (die g r : Nat) (v : F16) : (setSreg die g r v s).events = s.events := rfl
@[simp] theorem setSreg_checks (die g r : Nat) (v : F16) : (setSreg die g r v s).checks = s.checks := rfl
@[simp] theorem setSreg_casting (die g r : Nat) (v : F16) : (setSreg die g r v s).casting = s.casting := rfl
@[simp] theorem setSreg_run (die g r : Nat) (v : F16) : (setSreg die g r v s).run = s.run := rfl
@[simp] theorem setSreg_tab (die g r : Nat) (v : F16) : (setSreg die g r v s).tab = s.tab := rfl
@[simp] theorem setSreg_streams (die g r : Nat) (v : F16) : (setSreg die g r v s).streams = s.streams := rfl
@[simp] theorem setSreg_cells (die g r : Nat) (v : F16) : (setSreg die g r v s).cells = s.cells := rfl
@[simp] theorem setSreg_flights (die g r : Nat) (v : F16) : (setSreg die g r v s).flights = s.flights := rfl
@[simp] theorem setSreg_dram (die g r : Nat) (v : F16) : (setSreg die g r v s).dram = s.dram := rfl
@[simp] theorem setSreg_mem (die g r : Nat) (v : F16) : (setSreg die g r v s).mem = s.mem := rfl
@[simp] theorem setSreg_fab (die g r : Nat) (v : F16) : (setSreg die g r v s).fab = s.fab := rfl
@[simp] theorem setSreg_host (die g r : Nat) (v : F16) : (setSreg die g r v s).host = s.host := rfl
@[simp] theorem setSreg_health (die g r : Nat) (v : F16) : (setSreg die g r v s).health = s.health := rfl
@[simp] theorem setSreg_ing (die g r : Nat) (v : F16) : (setSreg die g r v s).ing = s.ing := rfl
@[simp] theorem setSreg_spr (die g r : Nat) (v : F16) : (setSreg die g r v s).spr = s.spr := rfl
@[simp] theorem setSreg_pwr (die g r : Nat) (v : F16) : (setSreg die g r v s).pwr = s.pwr := rfl
@[simp] theorem setSreg_tsm (die g r : Nat) (v : F16) : (setSreg die g r v s).tsm = s.tsm := rfl
@[simp] theorem setSreg_nvs (die g r : Nat) (v : F16) : (setSreg die g r v s).nvs = s.nvs := rfl
@[simp] theorem setSreg_mgt (die g r : Nat) (v : F16) : (setSreg die g r v s).mgt = s.mgt := rfl
@[simp] theorem setSreg_out (die g r : Nat) (v : F16) : (setSreg die g r v s).out = s.out := rfl

/-! ### setStat -/
@[simp] theorem setStat_pending (i : Nat) (x : Stat) : (setStat i x s).pending = s.pending := rfl
@[simp] theorem setStat_time (i : Nat) (x : Stat) : (setStat i x s).time = s.time := rfl
@[simp] theorem setStat_freeCount (i : Nat) (x : Stat) : (setStat i x s).freeCount = s.freeCount := rfl
@[simp] theorem setStat_regs (i : Nat) (x : Stat) : (setStat i x s).regs = s.regs := rfl
@[simp] theorem setStat_events (i : Nat) (x : Stat) : (setStat i x s).events = s.events := rfl
@[simp] theorem setStat_checks (i : Nat) (x : Stat) : (setStat i x s).checks = s.checks := rfl
@[simp] theorem setStat_casting (i : Nat) (x : Stat) : (setStat i x s).casting = s.casting := rfl
@[simp] theorem setStat_run (i : Nat) (x : Stat) : (setStat i x s).run = s.run := rfl
@[simp] theorem setStat_streams (i : Nat) (x : Stat) : (setStat i x s).streams = s.streams := rfl
@[simp] theorem setStat_cells (i : Nat) (x : Stat) : (setStat i x s).cells = s.cells := rfl
@[simp] theorem setStat_flights (i : Nat) (x : Stat) : (setStat i x s).flights = s.flights := rfl
@[simp] theorem setStat_dram (i : Nat) (x : Stat) : (setStat i x s).dram = s.dram := rfl
@[simp] theorem setStat_mem (i : Nat) (x : Stat) : (setStat i x s).mem = s.mem := rfl
@[simp] theorem setStat_fab (i : Nat) (x : Stat) : (setStat i x s).fab = s.fab := rfl
@[simp] theorem setStat_host (i : Nat) (x : Stat) : (setStat i x s).host = s.host := rfl
@[simp] theorem setStat_health (i : Nat) (x : Stat) : (setStat i x s).health = s.health := rfl
@[simp] theorem setStat_ing (i : Nat) (x : Stat) : (setStat i x s).ing = s.ing := rfl
@[simp] theorem setStat_spr (i : Nat) (x : Stat) : (setStat i x s).spr = s.spr := rfl
@[simp] theorem setStat_pwr (i : Nat) (x : Stat) : (setStat i x s).pwr = s.pwr := rfl
@[simp] theorem setStat_tsm (i : Nat) (x : Stat) : (setStat i x s).tsm = s.tsm := rfl
@[simp] theorem setStat_nvs (i : Nat) (x : Stat) : (setStat i x s).nvs = s.nvs := rfl
@[simp] theorem setStat_mgt (i : Nat) (x : Stat) : (setStat i x s).mgt = s.mgt := rfl
@[simp] theorem setStat_sreg (i : Nat) (x : Stat) : (setStat i x s).sreg = s.sreg := rfl
@[simp] theorem setStat_sregEcc (i : Nat) (x : Stat) : (setStat i x s).sregEcc = s.sregEcc := rfl
@[simp] theorem setStat_out (i : Nat) (x : Stat) : (setStat i x s).out = s.out := rfl

/-! ### setChan -/
@[simp] theorem setChan_pending (conv ch : Nat) (x : Chan) : (setChan conv ch x s).pending = s.pending := rfl
@[simp] theorem setChan_time (conv ch : Nat) (x : Chan) : (setChan conv ch x s).time = s.time := rfl
@[simp] theorem setChan_freeCount (conv ch : Nat) (x : Chan) : (setChan conv ch x s).freeCount = s.freeCount := rfl
@[simp] theorem setChan_regs (conv ch : Nat) (x : Chan) : (setChan conv ch x s).regs = s.regs := rfl
@[simp] theorem setChan_events (conv ch : Nat) (x : Chan) : (setChan conv ch x s).events = s.events := rfl
@[simp] theorem setChan_checks (conv ch : Nat) (x : Chan) : (setChan conv ch x s).checks = s.checks := rfl
@[simp] theorem setChan_casting (conv ch : Nat) (x : Chan) : (setChan conv ch x s).casting = s.casting := rfl
@[simp] theorem setChan_run (conv ch : Nat) (x : Chan) : (setChan conv ch x s).run = s.run := rfl
@[simp] theorem setChan_tab (conv ch : Nat) (x : Chan) : (setChan conv ch x s).tab = s.tab := rfl
@[simp] theorem setChan_streams (conv ch : Nat) (x : Chan) : (setChan conv ch x s).streams = s.streams := rfl
@[simp] theorem setChan_cells (conv ch : Nat) (x : Chan) : (setChan conv ch x s).cells = s.cells := rfl
@[simp] theorem setChan_flights (conv ch : Nat) (x : Chan) : (setChan conv ch x s).flights = s.flights := rfl
@[simp] theorem setChan_dram (conv ch : Nat) (x : Chan) : (setChan conv ch x s).dram = s.dram := rfl
@[simp] theorem setChan_mem (conv ch : Nat) (x : Chan) : (setChan conv ch x s).mem = s.mem := rfl
@[simp] theorem setChan_fab (conv ch : Nat) (x : Chan) : (setChan conv ch x s).fab = s.fab := rfl
@[simp] theorem setChan_host (conv ch : Nat) (x : Chan) : (setChan conv ch x s).host = s.host := rfl
@[simp] theorem setChan_health (conv ch : Nat) (x : Chan) : (setChan conv ch x s).health = s.health := rfl
@[simp] theorem setChan_ing (conv ch : Nat) (x : Chan) : (setChan conv ch x s).ing = s.ing := rfl
@[simp] theorem setChan_spr (conv ch : Nat) (x : Chan) : (setChan conv ch x s).spr = s.spr := rfl
@[simp] theorem setChan_pwr (conv ch : Nat) (x : Chan) : (setChan conv ch x s).pwr = s.pwr := rfl
@[simp] theorem setChan_nvs (conv ch : Nat) (x : Chan) : (setChan conv ch x s).nvs = s.nvs := rfl
@[simp] theorem setChan_mgt (conv ch : Nat) (x : Chan) : (setChan conv ch x s).mgt = s.mgt := rfl
@[simp] theorem setChan_sreg (conv ch : Nat) (x : Chan) : (setChan conv ch x s).sreg = s.sreg := rfl
@[simp] theorem setChan_sregEcc (conv ch : Nat) (x : Chan) : (setChan conv ch x s).sregEcc = s.sregEcc := rfl
@[simp] theorem setChan_out (conv ch : Nat) (x : Chan) : (setChan conv ch x s).out = s.out := rfl

/-! ### setWorksCredit -/
@[simp] theorem setWorksCredit_pending (r v : Nat) : (setWorksCredit r v s).pending = s.pending := rfl
@[simp] theorem setWorksCredit_time (r v : Nat) : (setWorksCredit r v s).time = s.time := rfl
@[simp] theorem setWorksCredit_freeCount (r v : Nat) : (setWorksCredit r v s).freeCount = s.freeCount := rfl
@[simp] theorem setWorksCredit_regs (r v : Nat) : (setWorksCredit r v s).regs = s.regs := rfl
@[simp] theorem setWorksCredit_events (r v : Nat) : (setWorksCredit r v s).events = s.events := rfl
@[simp] theorem setWorksCredit_checks (r v : Nat) : (setWorksCredit r v s).checks = s.checks := rfl
@[simp] theorem setWorksCredit_casting (r v : Nat) : (setWorksCredit r v s).casting = s.casting := rfl
@[simp] theorem setWorksCredit_run (r v : Nat) : (setWorksCredit r v s).run = s.run := rfl
@[simp] theorem setWorksCredit_tab (r v : Nat) : (setWorksCredit r v s).tab = s.tab := rfl
@[simp] theorem setWorksCredit_streams (r v : Nat) : (setWorksCredit r v s).streams = s.streams := rfl
@[simp] theorem setWorksCredit_cells (r v : Nat) : (setWorksCredit r v s).cells = s.cells := rfl
@[simp] theorem setWorksCredit_flights (r v : Nat) : (setWorksCredit r v s).flights = s.flights := rfl
@[simp] theorem setWorksCredit_dram (r v : Nat) : (setWorksCredit r v s).dram = s.dram := rfl
@[simp] theorem setWorksCredit_mem (r v : Nat) : (setWorksCredit r v s).mem = s.mem := rfl
@[simp] theorem setWorksCredit_host (r v : Nat) : (setWorksCredit r v s).host = s.host := rfl
@[simp] theorem setWorksCredit_health (r v : Nat) : (setWorksCredit r v s).health = s.health := rfl
@[simp] theorem setWorksCredit_ing (r v : Nat) : (setWorksCredit r v s).ing = s.ing := rfl
@[simp] theorem setWorksCredit_spr (r v : Nat) : (setWorksCredit r v s).spr = s.spr := rfl
@[simp] theorem setWorksCredit_pwr (r v : Nat) : (setWorksCredit r v s).pwr = s.pwr := rfl
@[simp] theorem setWorksCredit_tsm (r v : Nat) : (setWorksCredit r v s).tsm = s.tsm := rfl
@[simp] theorem setWorksCredit_nvs (r v : Nat) : (setWorksCredit r v s).nvs = s.nvs := rfl
@[simp] theorem setWorksCredit_mgt (r v : Nat) : (setWorksCredit r v s).mgt = s.mgt := rfl
@[simp] theorem setWorksCredit_sreg (r v : Nat) : (setWorksCredit r v s).sreg = s.sreg := rfl
@[simp] theorem setWorksCredit_sregEcc (r v : Nat) : (setWorksCredit r v s).sregEcc = s.sregEcc := rfl
@[simp] theorem setWorksCredit_out (r v : Nat) : (setWorksCredit r v s).out = s.out := rfl

/-! ### setPort -/
@[simp] theorem setPort_pending (p : Nat) (x : Port) : (setPort p x s).pending = s.pending := rfl
@[simp] theorem setPort_time (p : Nat) (x : Port) : (setPort p x s).time = s.time := rfl
@[simp] theorem setPort_freeCount (p : Nat) (x : Port) : (setPort p x s).freeCount = s.freeCount := rfl
@[simp] theorem setPort_regs (p : Nat) (x : Port) : (setPort p x s).regs = s.regs := rfl
@[simp] theorem setPort_events (p : Nat) (x : Port) : (setPort p x s).events = s.events := rfl
@[simp] theorem setPort_checks (p : Nat) (x : Port) : (setPort p x s).checks = s.checks := rfl
@[simp] theorem setPort_casting (p : Nat) (x : Port) : (setPort p x s).casting = s.casting := rfl
@[simp] theorem setPort_run (p : Nat) (x : Port) : (setPort p x s).run = s.run := rfl
@[simp] theorem setPort_tab (p : Nat) (x : Port) : (setPort p x s).tab = s.tab := rfl
@[simp] theorem setPort_streams (p : Nat) (x : Port) : (setPort p x s).streams = s.streams := rfl
@[simp] theorem setPort_cells (p : Nat) (x : Port) : (setPort p x s).cells = s.cells := rfl
@[simp] theorem setPort_flights (p : Nat) (x : Port) : (setPort p x s).flights = s.flights := rfl
@[simp] theorem setPort_dram (p : Nat) (x : Port) : (setPort p x s).dram = s.dram := rfl
@[simp] theorem setPort_mem (p : Nat) (x : Port) : (setPort p x s).mem = s.mem := rfl
@[simp] theorem setPort_host (p : Nat) (x : Port) : (setPort p x s).host = s.host := rfl
@[simp] theorem setPort_health (p : Nat) (x : Port) : (setPort p x s).health = s.health := rfl
@[simp] theorem setPort_ing (p : Nat) (x : Port) : (setPort p x s).ing = s.ing := rfl
@[simp] theorem setPort_spr (p : Nat) (x : Port) : (setPort p x s).spr = s.spr := rfl
@[simp] theorem setPort_pwr (p : Nat) (x : Port) : (setPort p x s).pwr = s.pwr := rfl
@[simp] theorem setPort_tsm (p : Nat) (x : Port) : (setPort p x s).tsm = s.tsm := rfl
@[simp] theorem setPort_nvs (p : Nat) (x : Port) : (setPort p x s).nvs = s.nvs := rfl
@[simp] theorem setPort_mgt (p : Nat) (x : Port) : (setPort p x s).mgt = s.mgt := rfl
@[simp] theorem setPort_sreg (p : Nat) (x : Port) : (setPort p x s).sreg = s.sreg := rfl
@[simp] theorem setPort_sregEcc (p : Nat) (x : Port) : (setPort p x s).sregEcc = s.sregEcc := rfl
@[simp] theorem setPort_out (p : Nat) (x : Port) : (setPort p x s).out = s.out := rfl

end Sys2Proof.Machine
end

