-- ==== Sys2Proof/Machine/Package.lean ====
section
/-! DEFINITION. The package (20): the names and contents of its lands, the fibres of its receptacles, and when a fabric port emits light. -/
namespace Sys2Proof.Machine

/-- The letters that name rows (R464). -/
def rowLetters : List Char := ['A', 'B', 'C', 'D', 'E', 'F', 'G', 'H', 'J', 'K', 'L', 'M', 'N', 'P', 'T', 'U', 'V', 'W', 'Y']

/-- The name of row index `i`, 1 to 76: 19 letters, then the same after A, B and C (R464). -/
def rowName (i : Nat) : List Char :=
  let k := (i - 1) / 19
  (if k = 0 then [] else [(['A', 'B', 'C'][k - 1]?).getD 'A']) ++ [(rowLetters[(i - 1) % 19]?).getD 'A']

/-- What a land carries. -/
inductive Land where
  | vcore
  | vss
  | vana
  | vphy
  | vlas
  | vhbm
  | vaon
  | vio
  | sense (die : Nat) (positive : Bool)
  | signal (name : String)
  | reserved
  deriving DecidableEq, Repr

/-- The signals of a row of the low-speed cluster, by column from 33 (R466). -/
def clusterRow (i : Nat) : List (Option String) :=
  match i with
  | 1 => [some "REFCLK_P", some "REFCLK_N", none, some "XTAL_IN", some "XTAL_OUT", none, some "SGMII_TX_P", some "SGMII_TX_N", none,
      some "SGMII_RX_P", some "SGMII_RX_N", none]
  | 2 => [some "QSPI_CLK", some "QSPI_CS_N", some "QSPI_IO0", some "QSPI_IO1", some "QSPI_IO2", some "QSPI_IO3", some "PMB_SCL",
      some "PMB_SDA", none, some "DWI_T", some "DWI_F", some "DWI_A"]
  | 3 => [some "WAKE", some "RESET_N", some "PWR_GOOD", some "HOT_N", some "VCORE_EN", some "VANA_EN", some "VPHY_EN", some "VLAS_EN"]
  | _ => []

/-- The land at row `i` and column `j`, each 1 to 76 (R465, R466). -/
def land (i j : Nat) : Land :=
  let within := fun (x lo hi : Nat) => decide (lo ≤ x) && decide (x ≤ hi)
  if i ≤ 8 then
    if i = 4 ∧ within j 33 44 then (if j ≤ 38 then .vaon else .vio)
    else if i ≤ 4 ∧ within j 33 44 then
      (match ((clusterRow i)[j - 33]?).getD none with | some n => .signal n | none => .vss)
    else if (7 ≤ i ∧ (j ≤ 32 ∨ 45 ≤ j)) ∨ (within i 5 6 ∧ (j ≤ 18 ∨ 59 ≤ j)) then .vhbm
    else .vss
  else if 69 ≤ i then
    if i ≤ 70 ∨ (i = 71 ∧ (j ≤ 24 ∨ 53 ≤ j)) then .vhbm
    else if i = 76 ∧ within j 35 42 then .reserved
    else .vss
  else if j ≤ 8 then (if 7 ≤ j then .vphy else if j = 1 ∧ i ≤ 32 then .vlas else .vss)
  else if 69 ≤ j then (if j ≤ 70 then .vphy else if j = 76 ∧ i ≤ 32 then .vlas else .vss)
  else if within i 38 39 ∧ within j 21 68 then .vana
  else if i = 37 ∧ within j 35 42 then .sense ((j - 35) / 2) ((j - 35) % 2 == 0)
  else if i = 37 ∧ within j 43 50 then .reserved
  else if (i + j) % 2 = 0 then .vcore else .vss

/-- The fibre of a direction of physical fabric port `p`: optical die, row and position of its receptacle (R467). -/
def fabricFibre (p : Nat) (receives : Bool) : Nat × Nat × Nat := (p / 24, p % 24 / 8, 2 * (p % 8) + if receives then 1 else 0)

/-- The fibre of a lane of a host port (R467). -/
def hostFibre (h lane : Nat) (receives : Bool) : Nat × Nat × Nat := (h / 2, 3, 8 * (h % 2) + lane + if receives then 4 else 0)

/-- Centre frequency of a lane, in units of 0.1 THz (R468). -/
def laneFrequency (k : Nat) : Nat := 2296 + 8 * k

/-- Whether a fabric port emits light: the configuration enables it, the lasers have their rail, and it trains, is UP or is named by the mask
of a loaded casting (R400, R468). -/
def portLit (s : State) (p : Nat) : Bool :=
  bits (cfgNat s 7 0 8) p p == 1 && bits s.pwr.rails 3 3 == 1
    && ((portAt s p).stageAt != 0 || portState s p == 5
      || (castingLoaded s && (logicalAt s p).any fun l => bits (portMask s) l l == 1))

end Sys2Proof.Machine
end

