-- ==== Sys2Proof/WellFormed.lean ====
section
/-! DEFINITION. Which commands are well formed: the operands are ones that the outside world can bring, field by field as the spec
shapes them. A command that is not well formed still has a meaning; no run of the hardware holds it. -/
namespace Sys2Proof

/-- A slot word of units 1 to 5 belongs to a cell (R45, R483). -/
def Slot.onCell (w : Slot) : Bool := match w.place with | .cell _ _ => true | .port _ => false

/-- A slot word of unit 6 belongs to a link unit (R45, R483). -/
def Slot.onPort (w : Slot) : Bool := !w.onCell

/-- Bytes of a flit (R270). -/
def flitBytes : Nat := 256

/-- Data flits received in a window, none where the tag shows none: each of 256 bytes (R270, R288). -/
def flitsOk (l : List (Option (List Byte))) : Bool := l.all fun f => f.elim true fun d => d.length == flitBytes

/-- A parcel has 1 to 15 data flits, a digest of 16 bytes and its data in whole flits (R300). -/
def Parcel.ok (p : Parcel) : Bool :=
  decide (1 ≤ p.flits ∧ p.flits ≤ 15) && p.digest.length == 16 && p.payload.length == flitBytes * p.flits

/-- The requests at one arbitration point come from different agents (R258). -/
def distinctAgents : List Req → Bool
  | [] => true
  | r :: l => !l.any (fun q => q.agent == r.agent) && distinctAgents l

/-- A flash dump is canonical: addresses rise, and no pair holds an erased byte (R426). -/
def flashOk : Nat → SMap Byte → Bool
  | _, [] => true
  | lo, (a, b) :: r => decide (lo ≤ a) && b != 0xFF && flashOk (a + 1) r

/-- A telemetry cycle reads each of eight devices at most once (R395). -/
def distinctDevices : List Reading → Bool
  | [] => true
  | r :: l => !l.any (fun q => q.device == r.device) && distinctDevices l

/-- The check of a command's operands. -/
def Instr.wellFormed : Instr → Bool
  | .eval w | .eval8 w | .assay w | .write w | .sweep w | .replay w => w.onCell
  | .clear w | .preload w | .drain w | .drainclr w => w.onCell
  | .stage w | .gemm w | .gemmacc w => w.onCell
  | .chain w | .permute w | .gather w | .reduce w | .softmax w | .update w => w.onCell
  | .copy w | .load w | .movStore w | .bridge w | .capture w => w.onCell
  | .send w | .barrier w => w.onPort
  | .recv w l | .relay w l => w.onPort && flitsOk l
  | .beacon _ f => f.length == flitBytes
  | .mark _ _ _ _ freed => decide (freed.length ≤ 8)
  | .parcel _ p _ | .data p | .ack p | .call p | .take p | .fetch p => p.ok
  | .hallmarkVerdict unit place _ _ => (unit == 6) == (match place with | .port _ => true | .cell _ _ => false)
  | .arbitrationPoint _ _ _ reqs => distinctAgents reqs
  | .stackTempReadout temps => temps.length == 8
  | .telemetryCycle readings => distinctDevices readings
  | .registerWrite _ _ _ size => size != 0
  | .pprComplete repaired => decide (repaired.length ≤ 128)
  | .retry _ flash | .reboot _ flash | .resetRelease flash => flashOk 0 flash
  | _ => true

end Sys2Proof
end

