-- ==== Sys2Proof/Tests/Slice0.lean ====
section
/-! SUPPORT. Tests: an ill-formed command for each check of WellFormed; for every statement with hypotheses, states and operands that meet the
hypotheses of each of its clauses together; and small runs of one command, their results worked out by hand from the spec. -/
open Sys2Proof Sys2Proof.Machine

namespace Sys2Proof.Tests

set_option maxRecDepth 20000
set_option Elab.async false

/-! ### Small states -/

/-- A cell in RUN that nothing has touched. -/
def cellOn : Cell := { Cell.init with power := .run }

/-- A part in a step period of 65,536 ticks, at tick 2,104, one tick before the end of its always-on cycle, with two cells of die 0 in RUN. -/
def live : State :=
  { State.reset with
    time := { State.reset.time with tick := 2104, ref3 := 6075 }
    regs := [(Reg.SCH_STATUS, 4)]
    casting := some ⟨0, 512, 65536, 0, false, []⟩
    run := { Run.init with on := true, steps := 1 }
    cells := [(0, cellOn), (1, cellOn)]
    pwr := { Pwr.init with inReset := false, rails := 15 } }

/-- A slot word of cell 0 of die 0 for tick 2,104. -/
def word (ops : BitVec 96) : Slot := ⟨.cell 0 0, false, 2104, 0, ops⟩

/-- A part with no casting, out of reset, one tick before the end of its always-on cycle. -/
def idle : State := { State.reset with
  time := { State.reset.time with tick := 79 }, pwr := { Pwr.init with inReset := false, rails := 15 } }

/-- A slot word of cell 0 of die 0 for tick 2,104, its operands given as (value, lowest bit). -/
def ops (l : List (Nat × Nat)) : Slot := word (BitVec.ofNat 96 (l.foldl (fun n p => n + p.1 * 2 ^ p.2) 0))

/-- The state with a word next in the stream buffer of its place. -/
def feed (head : BitVec 8) (w : Slot) (s : State) : State := setStream (placeKey w.place) ⟨8, 9, [(8, Slot.bits head w)], []⟩ s

/-- Whether a word with the operand check `ready` acts in that state, whose memories are in canonical form. -/
def runs (head : BitVec 8) (w : Slot) (ready : Slot → State → Bool) (s : State) : Bool :=
  acts head w (ready w) (feed head w s) && (feed head w s).canonical

/-- The state in which it acts. -/
def at' (head : BitVec 8) (w : Slot) (s : State) : State := atIssue head w (feed head w s)

/-- Changes cell 0. -/
def cell0 (f : Cell → Cell) (s : State) : State := { s with cells := (0, f cellOn) :: s.cells.drop 1 }

/-- Tile 0 of cell 0 is bound. -/
def bound : State := cell0 (fun c => { c with tiles := [(0, { Tile.init with bound := true })] }) live

/-- The same, with a contribution that has entered the tile and is not yet written. -/
def entering : State := { bound with flights := [⟨2112, .tree 0 0 [] 2100⟩] }

/-- The image of a casting: 64 rings of 64 units on every die and port 0 in use (section 1 at 512); data slots on port 6, works slots on
port 46 and barrier slots on port 0 (section 4 at 1,600); scheduled slots on the pseudo-channels of stack 0 (section 5 at 2,432). -/
def imageBytes : SMap Byte :=
  ((List.range 64).flatMap fun i => [(512 + 16 * i, 6), (514 + 16 * i, 255), (516 + 16 * i, 64)])
    ++ [(1536, 7), (1538, 255), (1544, 1), (1600, 2), (1604, 1), (1700, 1), (1708, 1), (2336, 1), (2340, 1), (2344, 1), (2348, 1)]
    ++ ((List.range 3).flatMap fun i => [(2356 + 8 * i, 255), (2357 + 8 * i, 4), (2358 + 8 * i, ([1, 3, 2][i]?).getD 0)])
    ++ ((List.range 64).map fun i => (2436 + 8 * i, 1)) ++ [(6532, 255), (6533, 63), (6534, 1)]

/-- That casting in force. -/
def image (s : State) : State :=
  { s with casting := some ⟨0, 8192, 65536, 0, false, [(1, 65, 512), (4, 3, 1600), (5, 1, 2432)]⟩, dram := ⟨imageBytes, []⟩ }

/-- Registers set by key. -/
def regsOf (l : List (Nat × Nat)) (s : State) : State := l.foldl (fun s p => wr p.1 p.2 s) s

/-- The state after a command. -/
def after (c : Instr) (s : State) : State := match exec c s with | .next t => t | _ => s

/-- `s` at a tick. -/
def atTick (n : Nat) (s : State) : State := { s with time := { s.time with tick := BitVec.ofNat 64 n } }

/-! ### Witnesses: the block and slot words -/

theorem witness_StepRunsFront : { idle with pending := [.halt .host] }.pending = .halt .host :: [] := rfl

theorem witness_TickPasses : State.reset.pending = [] ∧ State.reset.pwr.inReset = true ∧ idle.pwr.inReset = false ∧ idle.time.refclk = true ∧
    holding idle = false ∧ holding (regsOf [(Reg.FAB_COMBINE, 0x30)] idle) = true ∧
    { idle with time := { idle.time with refclk := false } }.time.refclk = false := by decide +kernel

theorem witness_ExecKeepsQueue : 1 ≤ { idle with pending := [.halt .host] }.pending.length := by decide

theorem witness_StepKeepsCanonical : State.reset.canonical = true ∧ live.canonical = true ∧ (image live).canonical = true := by decide +kernel

theorem witness_RefusedAndHeldWords :
    live.canonical = true ∧ reaches 0x21 (ops [(1, 0)]) (feed 0x21 (ops [(1, 0)]) live) = true ∧
    refusals 0x21 (ops [(1, 0)]) (clearReady (ops [(1, 0)])) (feed 0x21 (ops [(1, 0)]) live) = [9] ∧
    refusals 0x21 (ops []) (clearReady (ops [])) (feed 0x21 (ops []) { live with cells := [] }) = [2] ∧
    runs 0x10 (ops []) (holdReady 0x10) live = true ∧ definedHead 0x10 = false ∧ definedHead 0x64 = true ∧
    slotWordOf (.recv (ops []) []) = some (0x62, ops []) := by decide +kernel

theorem witness_TileFillsFromWord : runs 0x21 (ops [(5, 69)]) clearReady live = true ∧
    portTaken (at' 0x21 (ops [(5, 69)]) live) 0 (accTile (ops [(5, 69)])) 0 true = false ∧
    runs 0x24 (ops [(1, 19)]) preloadReady live = true ∧
    portTaken (at' 0x24 (ops [(1, 19)]) live) 0 (accTile (ops [(1, 19)])) 3 true = false := by decide +kernel

theorem witness_DrainReadsTile : (∀ clr : Bool, runs (if clr then 0x23 else 0x22) (ops []) drainReady bound = true) ∧
    runs 0x22 (ops []) drainReady entering = true ∧ drainWait (at' 0x22 (ops []) bound) 0 0 = 0 ∧
    0 < drainWait (at' 0x22 (ops []) entering) 0 0 ∧ portTaken (at' 0x22 (ops []) bound) 0 0 3 false = false ∧
    portTaken (at' 0x22 (ops []) entering) 0 0 (drainWait (at' 0x22 (ops []) entering) 0 0 + 3) false = false := by decide +kernel

/-- Both operands of a product staged in F16 and in F8a, and a chain open. -/
def staged (f : Fmt) : State := cell0 (fun c => { c with
  bufs := [(0, ⟨true, 0, f, 127, List.replicate 4 1⟩), (2, ⟨true, 0, f, 127, List.replicate 4 1⟩)]
  chains := [(0, ⟨true, 0, false, 0xFFFF, 127, 0, [], []⟩)] }) live

/-- Whether buffer 0, buffer 2, output array 0 and both engines of the Anvil are free. -/
def anvFree (s : State) : Bool :=
  (cellAt s 0).anvBusy == (0, 0) && (bufAt s 0 0).busy == 0 && (bufAt s 0 2).busy == 0 && (chainAt s 0 0).busy == 0

theorem witness_AnvilRuns : runs 0x31 (ops [(0xFFFF, 77)]) stageReady live = true ∧ anvFree (at' 0x31 (ops [(0xFFFF, 77)]) live) = true ∧
    runs 0x32 (ops [(0xFFFF, 64)]) (productReady false) (staged .f16) = true ∧ anvFree (at' 0x32 (ops [(0xFFFF, 64)]) (staged .f16)) = true ∧
    runs 0x33 (ops [(1, 80)]) (productReady true) (staged .f8a) = true ∧ anvFree (at' 0x33 (ops [(1, 80)]) (staged .f8a)) = true ∧
    opf (ops [(0xFFFF, 64), (1, 92), (4, 36)]) 92 92 = 1 ∧
    runs 0x32 (ops [(0xFFFF, 64), (1, 92), (4, 36)]) (productReady false) (staged .f16) = true ∧
    (chainAt (cell0 (fun c => { c with chains := [(0, { Chain.init with elems := List.replicate 4096 0 })] }) live) 0 0).elems.length = 4096 := by
  decide +kernel

/-! ### Witnesses: arrays, Burnisher, Mover, links -/

/-- Tile 0 bound and a record of one pass in replay ring 62. -/
def replayS : State := image (cell0 (fun c => { c with
  tiles := [(0, { Tile.init with bound := true })], sp := [(0, 1), (4, 33)] }) live)

theorem witness_EvalEntersTree : runs 0x11 (ops [(127, 72)]) evalReady bound = true ∧ runs 0x12 (ops [(127, 72)]) eval8Ready bound = true ∧
    occupied (at' 0x11 (ops [(127, 72)]) bound) 0 < 16 ∧ (arrAt (at' 0x11 (ops [(127, 72)]) bound) 0 0).busy = 0 ∧
    runs 0x16 (ops []) replayReady replayS = true ∧ occupied (at' 0x16 (ops []) replayS) 0 < 16 := by decide +kernel

/-- Array 0 of cell 0. -/
def arrS (x : Arr) : State := { live with cells := [(0, { cellOn with arrs := [(0, x)], codes := [(0, 3)] })] }

/-- Sixteen arrays of cell 0 occupied, array 0 free. -/
def full : State := cell0 (fun c => { c with arrs := (List.range 16).map fun i => (i + 1, { Arr.init with busy := 100000 }) }) live

/-- Array 0 calibrated at the temperature that its die has. -/
def settled : State := { arrS { Arr.init with calibrated := true, tcal := 400 } with
  tsm := { live.tsm with chans := [(1, ⟨1424, false, false, some 0, none⟩)] } }

/-- A period that its outcome suppresses. -/
def suppressed (s : State) : State := { s with run := { s.run with suppressed := true } }

theorem witness_ArraysOccupied : runs 0x14 (ops [(5, 82)]) writeReady live = true ∧ (at' 0x14 (ops [(5, 82)]) live).run.suppressed = false ∧
    (arrAt (at' 0x14 (ops [(5, 82)]) live) 0 0).busy = 0 ∧ occupied (at' 0x14 (ops [(5, 82)]) live) 0 = 0 ∧
    fld live (fillKey 0 0) 3 0 = 0 ∧ fld live (fillKey 0 1) 3 0 = 0 ∧ expAt live 0 0 5 = 0 ∧
    runs 0x14 (ops [(1, 74)]) writeReady live = true ∧ opf (ops [(1, 74)]) 81 74 = 1 ∧
    runs 0x14 (ops []) writeReady (suppressed live) = true ∧ live.run.commitDone = false ∧ (cellAt (suppressed live) 0).spBad = [] ∧
    runs 0x15 (ops []) sweepReady live = true ∧ runs 0x13 (ops []) assayReady live = true ∧
    triggered settled 0 0 (arrAt settled 0 0) = false ∧ fillOf settled 0 0 0 = none ∧ runs 0x13 (ops []) assayReady settled = true ∧
    triggered live 0 0 (arrAt live 0 0) = true ∧ (arrAt live 0 0).staged = none ∧
    runs 0x15 (ops []) sweepReady full = true ∧ occupied (at' 0x15 (ops []) full) 0 = 16 ∧ (arrAt full 0 0).busy = 0 := by decide +kernel

theorem witness_OccupiedArrayRefuses : slotWord (.sweep (ops [])) = some (0x15, ops [], sweepReady (ops [])) ∧
    runs 0x15 (ops []) sweepReady (arrS { Arr.init with busy := 2105 }) = true ∧
    now (at' 0x15 (ops []) (arrS { Arr.init with busy := 2105 })) = 2104 := ⟨rfl, by decide +kernel⟩

/-- Tensor descriptors of one row and one column, and gradients for an UPDATE. -/
def bl : State := cell0 (fun c => { c with sp :=
  [(4, 0xFF), (5, 0xFF), (8, 1), (10, 1), (12, 1), (14, 1), (68, 0xFF), (69, 0xFF), (70, 1), (72, 1), (74, 1), (76, 1), (78, 1)] }) live

/-- A tensor of more than 2^20 beats. -/
def long : State := cell0 (fun c => { c with sp := [(4, 0xFF), (5, 0xFF), (8, 0xFF), (9, 0xFF), (10, 0xFF), (12, 5), (14, 1)] }) live

/-- Whether a BUR word's job runs with its spans and tables free. -/
def jobFree (head : BitVec 8) (job : State → Slot → Option BurJob) (w : Slot) (s : State) : Bool :=
  runs head w (burReady job) s && (job (at' head w s) w).isSome && (cellAt (at' head w s) 0).burBusy.isEmpty
    && (cellAt (at' head w s) 0).tableBusy.isEmpty

/-- The UPDATE record at address 0, its hyperparameters all zero, or in range. -/
def upd (r : SMap F16) : State := { cell0 (fun c => { c with sp := [(4, 0xFF), (5, 0xFF)] }) live with sreg := r }

/-- Whether the hyperparameters of the UPDATE are in range. -/
def updHyp (s : State) : Option Bool := (updateJob (at' 0x46 (ops []) s) (ops [])).map fun j => hypOk j.hyp

theorem witness_BurnisherRuns : jobFree 0x41 chainJob (ops [(4, 29)]) bl = true ∧ jobFree 0x42 permuteJob (ops [(1, 57)]) bl = true ∧
    jobFree 0x43 gatherJob (ops [(1, 57)]) bl = true ∧ jobFree 0x44 reduceJob (ops []) bl = true ∧ jobFree 0x45 softmaxJob (ops []) bl = true ∧
    runs 0x46 (ops []) updateReady (upd []) = true ∧ updHyp (upd []) = some false ∧ flagOf (ops []) 2 = false ∧
    updHyp (upd [(3, 0x3C00), (4, 0x3C00), (6, 0x3C00)]) = some true ∧ runs 0x46 (ops []) updateReady (suppressed (upd [])) = true ∧
    mastersOff (at' 0x46 (ops []) (suppressed (upd []))) = true ∧ mastersOff (at' 0x46 (ops []) (upd [])) = false ∧
    runs 0x46 (ops []) updateReady (upd [(3, 0x3C00), (4, 0x3C00), (6, 0x3C00)]) = true := by decide +kernel

theorem witness_LongWordRefused : reaches 0x45 (ops []) (feed 0x45 (ops []) long) = true ∧
    ((softmaxJob (at' 0x45 (ops []) long) (ops [])).map fun j => decide (2 ^ 20 < j.beats)) = some true := by decide +kernel

/-- The monitors that a LOAD or STORE of one line at line 1 meets when it claims its slot. -/
def claims (store : Bool) (s : State) : List Nat :=
  (claimLines (lineAddrs (64 * mvDram (ops [(100, 83), (1, 37)])) 1) (ceilDiv (stepTick s + (if store then 60 else 8)) 4) store s).1

/-- Capture on, with a ring of 64 units. -/
def capt : State := { image live with
  regs := [(Reg.SCH_STATUS, 4), (Reg.SCH_CAP_BASE_LO, 0x100000), (Reg.SCH_CAP_LEN, 64), (Reg.SCH_CAP_CTRL, 1)] }

theorem witness_MoverWordsMove : runs 0x51 (ops [(3, 70), (100, 47)]) copyReady live = true ∧
    runs 0x54 (ops [(3, 68), (100, 47)]) bridgeReady live = true ∧ spBadIn live 0 0 64 = false ∧
    runs 0x52 (ops [(100, 83), (1, 37)]) loadReady (image live) = true ∧ claims false (image live) = [] ∧ claims true (image live) = [] ∧
    runs 0x53 (ops [(100, 83), (1, 37)]) movStoreReady (image live) = true ∧ mvLines (ops [(100, 83), (1, 37)]) = 1 ∧
    runs 0x52 (ops [(100, 83), (1, 37)]) loadReady live = true ∧ claims false live = [7] ∧
    runs 0x53 (ops [(100, 83), (1, 37)]) movStoreReady live = true ∧ claims true live = [7] ∧
    runs 0x53 (ops [(100, 83), (1, 37)]) movStoreReady (suppressed (image live)) = true ∧
    mastersOff (at' 0x53 (ops [(100, 83), (1, 37)]) (suppressed (image live))) = true ∧ mastersOff (at' 0x53 (ops [(100, 83), (1, 37)]) (image live)) = false ∧
    runs 0x55 (ops [(2, 84)]) captureReady (image live) = true ∧ capOn (image live) = false ∧
    runs 0x55 (ops [(2, 84)]) captureReady capt = true ∧ capOn capt = true ∧
    (claimLines (capAddrs capt 0 2) (ceilDiv (2104 + 60) 4) true capt).1 = [] := by decide +kernel

/-- A word of a port's link unit. -/
def onPort (p : Fin 47) (w : Slot) : Slot := { w with place := .port p }

/-- A word of four flits on a port. -/
def lnk (p : Fin 47) (l : List (Nat × Nat)) : Slot := onPort p (ops ((p.val, 90) :: (4, 78) :: l))

/-- Tensor 7 in F16. -/
def tensor7 : State := { image live with tab := ⟨[⟨7, 0, 1, 0, 127, 127, 0, 0, 0, 0, 0, 0, 0, 0, 0, 0, 0, 0, 0, 0, 0⟩], [], [], [], []⟩ }

theorem witness_LinkSlotsMove : runs 0x61 (lnk 6 [(1, 55)]) sendReady (image live) = true ∧
    runs 0x61 (lnk 46 [(1, 55)]) sendReady (image live) = true ∧ runs 0x63 (lnk 6 [(1, 72)]) relayReady (image live) = true ∧
    runs 0x62 (lnk 6 [(1, 55)]) recvReady (image live) = true ∧ runs 0x62 (lnk 6 [(1, 54), (7, 38), (0xFFFF, 22)]) recvReady tensor7 = true ∧ slotsOf 4 = 2 ∧
    runs 0x62 (lnk 46 [(1, 55)]) recvReady (image live) = true ∧ ringAt (image live) 0 0 (256 * 4) = some 0 ∧ ringAt live 0 0 (256 * 4) = none ∧
    stepTick live % 8 = 0 ∧ stepTick live + 8 ≤ stepPeriod live ∧
    (∀ i, i < 2 → linkSlotIs (image live) 12 (263 + i) (dataKind 6) = true ∧ linkClaimed (image live) 12 (263 + i) = false ∧
      linkSlotIs (image live) 13 (263 + i) (dataKind 6) = true ∧ linkClaimed (image live) 13 (263 + i) = false ∧
      linkSlotIs (image live) 92 (263 + i) (dataKind 46) = true ∧ linkClaimed (image live) 92 (263 + i) = false ∧
      linkSlotIs (image live) 93 (263 + i) (dataKind 46) = true ∧ linkClaimed (image live) 93 (263 + i) = false) := by decide +kernel

/-- Whether a BARRIER of a level finds its slots and comes in time, on a state. -/
def barFree (level : Nat) (s : State) : Bool :=
  ((barSlots s (stepTick s) level).all fun x => linkSlotIs s x.1 x.2.1 x.2.2 && !linkClaimed s x.1 x.2.1)
    && decide (barrierDue s level < s.run.start + stepPeriod s) && !barrierBelow s 6

theorem witness_BarrierTakesPoint : runs 0x64 (onPort 6 (ops [])) barrierReady (image live) = true ∧
    runs 0x64 (onPort 6 (ops [(1, 94), (1, 93)])) barrierReady (image live) = true ∧
    barFree 0 (at' 0x64 (onPort 6 (ops [])) (image live)) = true ∧ barFree 1 (at' 0x64 (onPort 6 (ops [(1, 94), (1, 93)])) (image live)) = true ∧
    (image live).run.veto = none ∧ (image live).run.commit = none := by decide +kernel

/-! ### Witnesses: castings, steps, power of cells -/

/-- The state in which an access of the control window is served. -/
def srv (s : State) : State := arrive s

/-- A part in a state of the casting. -/
def inState (n : Nat) : State := regsOf [(Reg.SCH_STATUS, n)] idle

/-- A casting loaded, with a start tick and its group named. -/
def loaded : State := { regsOf [(Reg.SCH_STATUS, 2), (Reg.SCH_START_LO, 0x20000), (Reg.FAB_ADDR, 7), (Reg.FAB_ROLE, 0x10007),
    (Reg.ING_GROUP_LEN, 1)] idle with
  casting := some ⟨0, 8192, 65536, 0, false, []⟩, dram := ⟨[(512, 7), (514, 7)], []⟩ }

/-- It armed, on its start tick. -/
def armed : State := atTick 0x20000 { regsOf [(Reg.SCH_STATUS, 3), (Reg.SCH_START_LO, 0x20000)] idle with
  casting := some ⟨0, 8192, 65536, 0, false, []⟩
  cells := [(0, { cellOn with bufs := [(0, { AnvBuf.init with staged := true })], chains := [(0, { Chain.init with opened := true })] })] }

/-- The same, with steps behind it. -/
def again : State := { armed with regs := [(Reg.SCH_STATUS, 4)], run := { Run.init with steps := 1 } }

theorem witness_CastingsLoadAndArm : castingRuns (srv idle) = false ∧ castingRuns (srv live) = true ∧ schState (inState 1) = 1 ∧
    (inState 1).canonical = true ∧ schState idle ≠ 1 ∧ loaded.canonical = true ∧ schState (srv loaded) = 2 ∧
    startTick (srv loaded) % 65536 = 0 ∧ now (srv loaded) + 65536 ≤ startTick (srv loaded) ∧ intakeBad (srv loaded) = false ∧
    portsUp (srv loaded) = true ∧ groupNamesOwn (srv loaded) = true ∧ schState (srv (inState 2)) = 2 ∧
    startTick (srv (inState 2)) < now (srv (inState 2)) + 65536 ∧
    startTick (srv (regsOf [(Reg.SCH_START_LO, 0x20001)] loaded)) % 65536 ≠ 0 ∧ (srv live).run.haltAt = none := by decide +kernel

theorem witness_LoadWindowOpens : armed.canonical = true ∧ armed.run.on = false ∧ schState armed = 3 ∧
    schState (runTo (periodStart armed) armed) = 3 ∧ schState again = 4 ∧ schState (runTo (periodStart again) again) = 4 := by decide +kernel

/-- A veto point, and a commit point of a period that proceeds, whose results fall on tick 2,104. -/
def vetoAt (b : Byte) : State := { live with run := { live.run with veto := some ⟨2000, 2104, b, 0, []⟩ } }
def commitAt (b : Byte) : State := { live with run := { live.run with
  proceeds := true, vetoDone := true, commit := some ⟨2000, 2104, b, 0, []⟩ } }

theorem witness_BarriersDecide : (vetoAt 0).canonical = true ∧ (vetoAt 0).run.on = true ∧ (vetoAt 0).run.vetoDone = false ∧
    schState (runTo 2104 (vetoAt 0)) = 4 ∧ vetoCode 0 0 0 = none ∧ vetoCode 1 0 0 ≠ none ∧ (commitAt 0).run.commitDone = false ∧
    (runTo 2104 (commitAt 0)).run.proceeds = true ∧ schState (runTo 2104 (commitAt 0)) = 4 ∧
    (runTo 2104 (commitAt 0)).run.commit = some ⟨2000, 2104, 0, 0, []⟩ ∧ faultInForce (runTo 2104 (commitAt 0)) = false := by decide +kernel

/-- A casting with four slot words for cell 0 and STREAM slots on pseudo-channel 0. -/
def streaming : State := { live with
  casting := some ⟨0, 8192, 65536, 0, false, [(2, 1, 512), (5, 1, 2432)]⟩
  dram := ⟨[(528, 4), (2436, 1), (6532, 88), (6533, 2), (6534, 2)], []⟩ }

theorem witness_PeriodServices : (atTick 65536 live).canonical = true ∧ live.run.on = true ∧ schState live = 4 ∧
    { live with run := { live.run with recBusy := [0, 1] } }.run.recBusy.contains 1 = true ∧
    nextFetch streaming 0 (min ((streamOf streaming 0).asked + 4) (fetchRoom streaming 0)) = some (0, 0, 4) ∧
    streamSlot streaming (pcOf 0) = some 528 ∧ nextFetch live 0 4 = none ∧ markOf live (lineOf (0 / 64 * 64)) = 0 := by decide +kernel

/-- A wake table with one entry: action `a` on cell `cell` of die 0 at step tick 40,960. -/
def wakeS (a cell : Nat) : State := { atTick 40960 live with
  casting := some ⟨0, 8192, 65536, 0, false, [(7, 1, 512)]⟩
  dram := ⟨[(516, 1), (545, 0xA0), (548, BitVec.ofNat 8 cell), (549, BitVec.ofNat 8 a)].filter (fun p => p.2 != 0), []⟩ }

/-- Cell 0 on its way between power states, at its tick. -/
def moving (p : CellPower) : State := { atTick 40960 live with cells := [(0, { cellOn with power := p })] }

theorem witness_CellAndDiePower : (wakeS 1 2).canonical = true ∧ wakeEntryIs (wakeS 1 2) 0 0xA000 2 1 = true ∧ dieReady (wakeS 1 2) 0 = true ∧
    (cellAt (wakeS 1 2) (phys (wakeS 1 2) 0 2)).power = .doze ∧ wakeEntryIs (wakeS 2 0) 0 0xA000 0 2 = true ∧
    (cellAt (wakeS 2 0) (phys (wakeS 2 0) 0 0)).power = .run ∧ (cellAt (moving (.waking 40960)) (phys idle 0 0)).power = .waking 40960 ∧
    (cellAt (moving (.shutting 40960 true)) (phys idle 0 0)).power = .shutting 40960 true ∧
    wakeEntryIs (wakeS 3 0) 0 0xA000 0 3 = true ∧ { (wakeS 3 0).pwr with rests := [0] }.rests.contains 0 = true ∧
    wakeEntryIs { wakeS 4 0 with cells := [] } 0 0xA000 0 4 = true ∧ (wakeS 4 0).pwr.rests = [] ∧
    ((List.range 256).all fun l => inDoze { wakeS 4 0 with cells := [] } (phys idle 0 l)) = true ∧ schState armed = 3 := by decide +kernel

/-! ### Witnesses: verdicts, memory -/

/-- A verdict in flight for array 0 of cell 0 of die 0. -/
def wv (swept : Bool) : State := { arrS { Arr.init with busy := 2104 } with flights := [⟨2104, .verdict 0 0 0 swept [(3, 2), (255, 3)] []⟩] }

theorem witness_VerdictsReport : (∀ b : Bool, (wv b).canonical = true ∧ dueOf (wv b) (isVerdict 0 0 0 b) = some 2104) ∧
    wf (fun _ => Fill.none) live.spr.fills = true ∧ phys live 0 0 = 0 ∧ [(3, 2), (255, 3)].getLast? = some (255, 3) ∧
    fillState live 0 0 = 0 ∧ fillState live 0 1 = 0 ∧ freeSpares live 0 0 ≠ [] := by decide +kernel

/-- Trims staged for array 0. -/
def trimS (d : Bool) : State := { arrS { Arr.init with busy := 2104, staged := some [(0, 5), (3, 7), (255, 8), (256, 3), (259, 9)] } with
  casting := some ⟨0, 0, 65536, 0, d, []⟩, flights := [⟨2104, .trims 0 0⟩] }

/-- Whether array 0 of cell 0, with what `r` names retired, would lose a conversion group by one more slice. -/
def lastSlice (r : List Nat) : Bool :=
  let x := { Arr.init with retired := r }
  let y := { x with retired := x.retired ++ [if r = [] then x.slice else dueSlice (regsOf [(Reg.CAL_CTRL, 2)] live)] }
  (List.range 33).any (groupLost y)

theorem witness_TrimSetsAndHandoffs : (∀ d : Bool, (trimS d).canonical = true ∧ dueOf (trimS d) (isTrims (phys (trimS d) 0 0) 0) = some 2104 ∧
      wf (fun _ => none) (arrAt (trimS d) 0 0).past = true ∧ (arrAt (trimS d) 0 0).held = [] ∧ (arrAt (trimS d) 0 0).staged = some [(0, 5), (3, 7), (255, 8), (256, 3), (259, 9)]) ∧
    fld (regsOf [(Reg.CAL_CTRL, 2)] live) Reg.CAL_CTRL 1 1 = 1 ∧ (arrAt live 0 0).busy ≤ now live ∧ now live < (arrAt full 0 1).busy ∧
    fld (regsOf [(Reg.CAL_CTRL, 0)] live) Reg.CAL_CTRL 1 1 = 0 ∧ lastSlice [] = false ∧ lastSlice [1] = true ∧ freeCells live 0 ≠ [] := by
  decide +kernel

/-- A request for a memory slot, before a tick at which the use of slot 600 is final. -/
def rq : Req := ⟨1, 3, 20, 3, 7, true, true, true⟩
def arb : State := atTick 2392 live

/-- A grant of agent 1 in force on pseudo-channel 0. -/
def granted : State := { arb with mem := { arb.mem with grants := [(0, (1 + 1 + 8 * 3, 2300))] } }

theorem witness_ArbitrationGrants : arb.canonical = true ∧ now arb = decisionTick arb 600 ∧ offered arb 0 600 = true ∧
    offered { arb with mem := { arb.mem with slots := [(600, 1)] } } 0 600 = false ∧ wf (fun _ => 0) arb.mem.slots = true ∧ wf (fun _ => 0) arb.mem.credits = true ∧
    wf (fun _ => 0) arb.mem.window = true ∧ wf (fun _ => (0, 0)) arb.mem.grants = true ∧ bits (fld arb Reg.MEM_STATUS 7 0) 0 0 = 0 ∧
    (grantAt arb 0).1 = 0 ∧ rq.ready = true ∧ bankFree arb 0 600 rq = true ∧ fullest (countSlot 0 (startWindow 0 arb)) 0 [rq] = some rq ∧
    offered granted 0 600 = true ∧ (grantAt granted 0).1 % 8 - 1 = 1 ∧ ([rq].find? fun r => r.agent.val == 1) = some rq ∧
    0 + 4 * 600 < 2300 + fld granted Reg.MEM_ARB_HOLD 15 0 ∧ bankFree granted 0 600 rq = true ∧ [rq].find? (fun r => r.agent.val == 2) = none := by decide +kernel

/-- A refresh of bank 5 of pseudo-channel 0 owed since tick 0, `n` intervals long. -/
def owed (n : Nat) : State := { live with mem := { live.mem with refDue := [(5, n)] } }

theorem witness_RefreshAndScrub : refOwed live 0 5 = 0 ∧ refOwed (owed 5) 0 5 = 5 ∧ refreshed (owed 5) 0 5 0 = false ∧ holding live = false ∧
    holding (regsOf [(Reg.FAB_COMBINE, 0x30)] live) = true ∧ nextSlot live < 2 ^ 32 ∧ wf (fun _ => 0) (owed 5).mem.refDue = true ∧ refOwed (owed 4) 0 5 = 4 ∧
    bits (fld (regsOf [(Reg.MEM_STATUS, 1)] live) Reg.MEM_STATUS 7 0) 0 0 = 1 ∧
    fld (regsOf [(Reg.MEM_SCRUB, 1)] idle) Reg.MEM_SCRUB 7 0 = 1 ∧ fld (regsOf [(Reg.MEM_SCRUB, 0)] idle) Reg.MEM_SCRUB 7 0 = 0 := by decide +kernel

/-- Every outcome of a line's read has a condition that gives it. -/
theorem witness_RefreshAndScrub_lines : (readLine 0).1 = 0 ∧ (readLine 4).1 = 1 ∧ (readLine (4 + 2 ^ 18)).1 = 2 ∧
    (readLine (2 ^ 516)).1 = 3 ∧ (readLine 1).1 = 4 := by decide +kernel

theorem witness_TemperaturesAndRepair : castingRuns (srv idle) = false ∧ { idle.mem with repair := [(0, [0, 1089])] }.repair ≠ [] ∧
    (srv { idle with mem := { idle.mem with repair := [(0, [0, 1089])] } }).mem.repair = [(0, [0, 1089])] ∧
    castingRuns (srv live) = true ∧ { idle.mem with pprBusy := true }.pprBusy = true := by decide +kernel

/-! ### Witnesses: ports, time base, ingots -/

/-- A port whose partner is the one expected: the part's map, and the logical port `l` there. -/
def mated (l : Nat) : Port := { Port.init with mapOk := true, partnerLogical := BitVec.ofNat 8 l }

/-- Physical port 5 in state `st` as `p` holds it, port 46 UP, and the port map the identity. -/
def net (st : Nat) (p : Port) (s : State) : State :=
  { regsOf (((List.range 12).map fun i => (Reg.FAB_PORTMAP + 4 * i, 4 * i + 256 * (4 * i + 1) + 65536 * (4 * i + 2) + 16777216 * (4 * i + 3)))
      ++ [(portKey 5, 0xFFF8 + st), (portKey 46, 0xFFFD), (bankKey Reg.FAB_PORT_PARTNER 46, worksPartner s + 47 * 65536)]) s with
    fab := { s.fab with ports := (if p = Port.init then [] else [(5, p)]) ++ [(46, mated 46)] }, nvs := { s.nvs with config := [(7, List.replicate 8 255)] } }

theorem witness_PortsTrain : (net 0 Port.init idle).canonical = true ∧ portState (net 0 Port.init idle) 5 = 0 ∧ mayTrain (net 0 Port.init idle) 5 = true ∧
    wf (fun _ => Port.init) (net 5 { Port.init with stageAt := 7 } idle).fab.ports = true ∧ portState (net 5 Port.init idle) 5 = 5 ∧
    (∀ st, st < 8 → st ≠ 5 → portState (net st { Port.init with stageAt := 7 } idle) 5 = st ∧
      (portAt (net st { Port.init with stageAt := 7 } idle) 5).stageAt ≠ 0) ∧ mayTrain State.reset 5 = false ∧
    wf (fun _ => Port.init) (srv (net 0 Port.init idle)).fab.ports = true := by decide +kernel

/-- A BEACON of package `a`, port 5. -/
def bcn (a : Nat) (e : Byte) : List Byte := [1, 0, 5, 0] ++ natLE 2 a ++ List.replicate 18 0 ++ List.replicate 8 e ++ List.replicate 224 0

/-- A BEACON of the partner that port 5 expects, with the map hash the part expects, and a port whose delay is known. -/
def expected (s : State) : List Byte := [1, 0, BitVec.ofNat 8 (cfgNat s 2 (partnerPort 5) 1), BitVec.ofNat 8 (partnerPort 5)]
  ++ natLE 2 (partnerOf s 5) ++ List.replicate 58 0 ++ mapHash s ++ List.replicate 160 0
def running5 : State := regsOf [(bankKey Reg.FAB_PORT_DELAY 5, 100)] (net 5 Port.init (atTick 90000 live))

theorem witness_BeaconsDiscover : (∀ st, 4 ≤ st → st < 7 → portState (net st Port.init idle) 5 = st) ∧ portState (net 7 Port.init idle) 5 = 7 ∧
    leNat ((bcn 9 0).take 1) = 1 ∧ validAddr (leNat (((bcn 9 0).drop 4).take 2)) = true ∧ validAddr (leNat (((bcn 0xC000 0).drop 4).take 2)) = false ∧
    validAddr (leNat (((bcn 9 0).drop 6).take 2)) = true ∧
    leNat (((bcn 9 7).drop 0x18).take 8) ≠ 0 ∧ leNat (((bcn 9 0).drop 0x18).take 8) = 0 ∧ castingRuns idle = false ∧ castingRuns live = true ∧
    castingRuns running5 = true ∧ portUp (after (.beacon 5 (expected running5)) running5) 5 = true ∧
    beaconOut (after (.beacon 5 (expected running5)) running5) 5 5 (2 ^ 40) = true := by
  decide +kernel

/-- A parcel of an agent, from package 5. -/
def pcl (seq : Nat) (payload : List Byte) : Parcel := ⟨0, 5, 0x20, 1, BitVec.ofNat 32 seq, List.replicate 16 0, payload⟩

/-- A package of address 16 with port 0 UP to package 17. -/
def hub16 : State :=
  let s := regsOf [(portKey 0, 0xFFFD), (bankKey Reg.FAB_PORT_PARTNER 0, 47 * 65536 + 17)]
    (net 5 Port.init (regsOf [(Reg.FAB_ADDR, 16), (Reg.FAB_ROLE, 0x10010)] idle))
  { s with fab := { s.fab with ports := [(0, mated 30)] } }

theorem witness_CreditsAndParcels : portLasers (net 0 Port.init idle) 5 = false ∧ portLasers (net 5 Port.init idle) 5 = true ∧
    portLasers (net 7 { Port.init with stageAt := 3 } idle) 5 = true ∧ (portAt (net 5 { Port.init with parcelLost := true } idle) 5).parcelLost = true ∧
    wf (fun _ => Port.init) (net 5 { Port.init with credits := 3 } idle).fab.ports = true ∧ ownAddr hub16 = 16 ∧
    validAddr (pcl 0 []).dst.toNat = true ∧ validAddr (pcl 0 []).src.toNat = true ∧ ¬ validAddr 0xC000 = true ∧ buffersUsed idle 5 = 0 ∧
    64 ≤ buffersUsed { idle with fab := { idle.fab with stored := List.replicate 64 (3, some 5, pcl 0 []) } } 5 ∧
    ownAddr idle = 0 ∧ route (regsOf [(Reg.FAB_ADDR, 16)] idle) 5 = none ∧ route hub16 17 = some 0 ∧
    (portAt hub16 (physOf hub16 0)).credits ≠ 0 ∧ hub16.fab.stored = [] ∧
    (portAt { hub16 with fab := { hub16.fab with ports := [(0, { Port.init with credits := 0 })] } } (physOf hub16 0)).credits = 0 := by decide +kernel

/-- Port 5 with its status word, and a swap of lane 3 under way. -/
def lanes (v : Nat) : State := wr (portKey 5) v (net 5 { Port.init with swapLane := some (3, 900) } live)

theorem witness_LanesAndLight : portState (net 5 Port.init live) 5 = 5 ∧ fld (net 5 Port.init live) (portKey 5) 15 12 = 15 ∧
    spareTaken (net 5 Port.init live) 5 = false ∧ fld (net 5 Port.init live) (portKey 5) 11 11 = 1 ∧
    laneNoisy (net 5 Port.init live) 5 3 = false ∧ laneNoisy (net 5 { Port.init with symbols := [(3, 2 ^ 32)] } live) 5 3 = true ∧
    spareTaken (net 5 { Port.init with swapLane := some (3, 900) } live) 5 = true ∧ castingRuns (net 5 Port.init live) = true ∧
    (portAt (net 5 { Port.init with swapLane := some (3, 900) } live) 5).swapLane = some (3, 900) ∧
    ([0xFFFD, 0xF7FD, 0xFFBD].all fun v => !spareInUse (lanes v) 5 && portState (lanes v) 5 == 5) = true ∧
    spareInUse (lanes 0x2FFD) 5 = true ∧ portState (lanes 0x2FFD) 5 = 5 ∧ laneWorks (lanes 0xF7FD) 5 8 = false ∧ laneWorks (lanes 0xFFFD) 5 8 = true ∧
    laneWorks (lanes 0xFFFD) 5 3 = true ∧ laneWorks (lanes 0xFFBD) 5 3 = false ∧ laneWorks (lanes 0xFFBD) 5 8 = true ∧ (lanes 0xFFBD).canonical = true ∧
    (net 5 Port.init live).canonical = true ∧ (portAt (net 5 Port.init live) 5).swapLane = none ∧ (portAt (lanes 0xFFBD) 5).swapLane = some (3, 900) ∧
    bits (portAt (net 5 Port.init live) 5).partnerFlags.toNat 1 0 ≠ 1 ∧
    fld (regsOf [(Reg.ING_BUDDY, 0x10000)] (net 5 Port.init live)) Reg.ING_BUDDY 16 16 = 1 ∧
    fld (regsOf [(Reg.ING_BUDDY, 0x10000)] (net 5 Port.init live)) (bankKey Reg.FAB_PORT_PARTNER 5) 15 0 = 0 := by decide +kernel

/-- The timekeeper of its forge, whose works port leads to forge 0. -/
def clock : State := regsOf [(Reg.FAB_ADDR, 0x2000200)] (net 5 Port.init idle)

theorem witness_TagsLocksStretches : bits (0x18 : BitVec 24).toNat 3 3 = 1 ∧ bits (0x4F8 : BitVec 24).toNat 4 3 = 3 ∧ bits (0x18 : BitVec 24).toNat 4 3 = 3 ∧
    noticeTick live 5 (bits (0x4F8 : BitVec 24).toNat 10 5) ≤ now live ∧ now live < noticeTick live 5 (bits (0x18 : BitVec 24).toNat 10 5) ∧ live.run.on = true ∧
    castingRuns live = true ∧ live.fab.frozen = false ∧ (bits (0x18 : BitVec 24).toNat 16 16 == 1) = live.fab.par ∧
    bits (0xE0000 : BitVec 24).toNat 19 17 ≠ ratioCode live ∧ { live.fab with frozen := true }.frozen = true ∧
    barStages (vetoAt 0) 5 58 = [(false, 0, 2000)] ∧ (vetoAt 0).run.veto = some ⟨2000, 2104, 0, 0, []⟩ ∧
    wf (fun _ => 0) (portAt (net 5 Port.init idle) 5).symbols = true ∧
    logicalAt (net 5 Port.init idle) 5 = some 5 ∧ portState (net 5 Port.init idle) 5 = 5 ∧ castingRuns (net 5 Port.init idle) = false ∧
    castingRuns (net 5 Port.init live) = true ∧ follows (net 5 Port.init idle) 5 = true ∧
    logicalAt (net 5 Port.init idle) 46 = some 46 ∧ portState (net 5 Port.init idle) 46 = 5 ∧
    fld clock Reg.FAB_ADDR 31 16 = ownAddr clock ∧ addrForge (rd clock (bankKey Reg.FAB_PORT_PARTNER (physOf clock 46)) % 65536) < addrForge (ownAddr clock) ∧
    logicalAt clock 46 = some 46 ∧ portState clock 46 = 5 ∧ clock.canonical = true ∧ castingRuns clock = false ∧ lockTolerance 46 < (0x7FFF : BitVec 16).toInt.natAbs ∧
    lockTolerance 5 < (0x7FFF : BitVec 16).toInt.natAbs ∧ ¬ lockTolerance 5 < (0 : BitVec 16).toInt.natAbs ∧ (atTick 65536 live).canonical = true := by
  decide +kernel

/-- A hold in force, to end at a mandrel count. -/
def held : State := let s := regsOf [(Reg.FAB_COMBINE, 0x30)] (atTick 1048576 live); { s with fab := { s.fab with release := some 0 } }

theorem witness_WindowsAndHolds : nextMultiple (2 ^ 20) (atTick 1048576 live) = 1048576 ∧ portUp (net 5 Port.init live) 46 = true ∧
    fld (regsOf [(Reg.FAB_COMBINE, 0x10)] live) Reg.FAB_COMBINE 4 4 = 1 ∧ fld live Reg.FAB_COMBINE 4 4 = 0 ∧ holding held = true ∧
    (logicalAt (net 5 Port.init held) 5).getD 47 ≤ 45 ∧ fld (regsOf [(Reg.FAB_ADDR, 0x70000)] held) Reg.FAB_ADDR 31 16 ≠ ownAddr held ∧
    held.fab.release = some 0 ∧ live.fab.release = none ∧ holding live = false ∧ wf (fun _ => (0, 0, 0)) live.fab.markBytes = true ∧
    wf (fun _ => 0) live.fab.marks = true ∧ wf (ringCap live) live.fab.worksCredit = true := by decide +kernel

/-- A package whose guest is package 5, and one that sends to its buddy, package 5. -/
def guestS (i : Option Incoming) : State :=
  { regsOf [(Reg.ING_GUEST, 0x10005), (Reg.ING_GUEST_LEN, 2), (Reg.ING_GUEST_STAT, 2)] idle with
    ing := { idle.ing with incoming := i, guestLen := (65536, 131072) } }
def buddyS (r : Nat) (heard : Bool) : State :=
  { regsOf [(Reg.ING_STATUS, 3), (Reg.ING_BUDDY, 0x10005), (Reg.ING_FEED, 77)] idle with
    ing := { idle.ing with buddy := some ⟨5, 0, 65536, 18, 2, r, heard⟩ } }
/-- A part that awaits the image it asked of package 5. -/
def fetching (i : Option Incoming) : State :=
  { regsOf [(Reg.ING_RESTORE_SEL, 0x50000)] idle with ing := { idle.ing with fetching := true, fetched := i } }
/-- An ACK of package 5. -/
def ackP (status feed : Nat) : Parcel := pcl 0 (natLE 4 0 ++ natLE 4 9 ++ natLE 1 status ++ natLE 2 feed)

theorem witness_ImagesTravel : fld idle Reg.ING_GUEST 16 16 = 0 ∧ idle.ing.fetching = false ∧ idle.ing.fetched = none ∧ idle.ing.incoming = none ∧
    (guestS none).canonical = true ∧ fld (guestS none) Reg.ING_GUEST 16 16 = 1 ∧ manifestLen (pcl 0 [1, 2]).payload ≤ 65536 * rd (guestS none) Reg.ING_GUEST_LEN ∧
    (guestS (some ⟨5, false, 0, 9, 65536, 1, 3, none⟩)).ing.incoming = some ⟨5, false, 0, 9, 65536, 1, 3, none⟩ ∧ 1 + 1 < parcelsOf 65536 ∧ 3 + 1 < 256 ∧
    (9 : Nat) ≠ leNat (((pcl 0 [1, 2]).payload.drop 8).take 4) ∧ (some 1 : Option Nat).isSome = true ∧ (pcl 7 []).seq.toNat ≠ 1 ∧
    (fetching (some ⟨5, true, 0, 9, 65536, 1, 3, none⟩)).canonical = true ∧ (fetching none).ing.fetching = true ∧ (pcl 1 []).src.toNat = 5 ∧
    fld (fetching none) Reg.ING_RESTORE_SEL 31 16 = 5 ∧ (guestS (some ⟨5, false, 0, 9, 65536, 1, 3, none⟩)).canonical = true ∧
    ([idle.ing.incoming, idle.ing.fetched].filter fun o => o.any fun y => y.owed != 0) = [] ∧
    ([0, 1].find? fun k => guestHeld (guestS none) k && dramNat (guestS none) (guestBase (guestS none) k + 0x22) 2 == 0
      && dramNat (guestS none) (guestBase (guestS none) k + 0x0C) 4 == 0) = some 1 ∧
    (∀ b, stage (buddyS 14 b) = 3 ∧ (buddyS 14 b).canonical = true ∧ leNat ((ackP 1 76).payload.take 4) = rd (buddyS 14 b) Reg.ING_LAST_SERIAL ∧
      (buddyS 14 b).ing.buddy.any (fun o => o.heard == b && decide (o.retries < 15)) = true ∧
      fld (buddyS 14 b) Reg.ING_STATUS 4 4 = 0 ∧ fld (buddyS 14 b) Reg.ING_HOST_CTRL 0 0 = 0 ∧ (buddyS 15 b).ing.buddy.isSome = true) ∧
    leNat (((ackP 1 76).payload.drop 8).take 1) = 1 ∧ leNat (((ackP 0 76).payload.drop 8).take 1) = 0 ∧
    leNat (((ackP 1 76).payload.drop 9).take 2) ≠ ownFeed (buddyS 14 false) := by decide +kernel

theorem witness_SharedFeedSecuresNothing : (buddyS 0 false).canonical = true ∧ (buddyS 0 false).ing.buddy = some ⟨5, 0, 65536, 18, 2, 0, false⟩ ∧
    stage (buddyS 0 false) = 3 ∧ leNat (((ackP 1 77).payload.drop 9).take 2) = ownFeed (buddyS 0 false) ∧
    leNat (((ackP 1 77).payload.drop 8).take 1) = 1 ∧ leNat ((ackP 1 77).payload.take 4) = rd (buddyS 0 false) Reg.ING_LAST_SERIAL ∧
    (let s := regsOf [(Reg.ING_STATUS, 0x13)] (buddyS 0 true)
     s.canonical = true ∧ s.ing.buddy = some ⟨5, 0, 65536, 18, 2, 0, true⟩ ∧ stage s = 3 ∧ fld s Reg.ING_STATUS 4 4 = 1) := by decide +kernel

theorem witness_IngotCalls : wardenAddr (regsOf [(Reg.ING_GROUP_LEN, 1), (Reg.FAB_ADDR, 8)] idle) ≠ ownAddr (regsOf [(Reg.ING_GROUP_LEN, 1), (Reg.FAB_ADDR, 8)] idle) ∧
    wardenAddr idle = ownAddr idle ∧ idle.ing.takeAt = none ∧ takeCopy 5 9 idle = false ∧
    takeCopy 5 9 { idle with ing := { idle.ing with acted := some (9, 0) } } = true ∧ idle.pwr.inReset = false ∧
    rngStep idle < (rngStep idle + fld idle Reg.ING_MARGIN 15 0) % 2 ^ 32 ∧ leNat ((pcl 0 [0, 0, 0, 0, 9]).payload.take 4) = rd idle Reg.HST_OWNER ∧
    leNat ((pcl 0 [1, 0, 0, 0, 9]).payload.take 4) ≠ rd idle Reg.HST_OWNER ∧ rngStep idle < 9 ∧ 0 ≤ rngStep idle ∧
    idle.ing.calls = [] ∧ { idle.ing with calls := [3] }.calls = [3] ∧ { idle.ing with calls := [4] }.calls = [4] ∧ fld (regsOf [(Reg.ING_POLICY, 0)] idle) Reg.ING_POLICY 15 0 ≤
      ingAge (regsOf [(Reg.ING_POLICY, 0)] { idle with ing := { idle.ing with ageFrom := some 0 } }) ∧
    fld (regsOf [(Reg.ING_POLICY, 0)] idle) Reg.ING_POLICY 31 16 ≤
      ingAge (regsOf [(Reg.ING_POLICY, 0)] { idle with ing := { idle.ing with ageFrom := some 0 } }) ∧ idle.ing.overdue = false ∧
    idle.ing.takeRepeats = 0 ∧ { idle.ing with takeRepeats := 2 }.takeRepeats ≠ 0 := by decide +kernel

/-- An ingot being copied, its step record complete, in stage 2. -/
def copying : State := regsOf [(Reg.ING_STATUS, 2), (Reg.SCH_STAMP, 0x3F)] idle

theorem witness_IngotsFillAndRestore : stage copying = 2 ∧ fld copying Reg.SCH_STAMP 4 4 = 1 ∧ rd copying Reg.ING_LAST_VER % 2 = 0 ∧ stage idle ≠ 2 ∧
    fld idle Reg.ING_BUDDY 16 16 = 0 ∧ fld (regsOf [(Reg.ING_BUDDY, 0x10005)] idle) Reg.ING_BUDDY 16 16 = 1 ∧ fld idle Reg.ING_HOST_CTRL 0 0 = 0 ∧
    restoreReady (srv idle) = false ∧ restoreReady (srv loaded) = true ∧ stage (srv copying) = 2 ∧ stage (srv idle) ≠ 2 ∧
    stage (srv (regsOf [(Reg.ING_STATUS, 5), (Reg.ING_LAST_SERIAL, 7)] idle)) = 5 ∧
    rd (srv (regsOf [(Reg.ING_STATUS, 5), (Reg.ING_LAST_SERIAL, 7)] idle)) Reg.ING_LAST_SERIAL = 7 := by decide +kernel

theorem witness_OwnerChangeForgetsImages : stage (srv idle) ≠ 2 ∧ castingRuns (srv idle) = false ∧ schState (srv idle) ≠ 2 ∧
    rd (srv idle) Reg.HST_OWNER ≠ 5 ∧ stage (srv copying) = 2 := by decide +kernel

/-! ### Witnesses: management, host, registers -/

/-- The management interface up, in the safe state or not. -/
def mgmt (safe : Bool) : State := { regsOf [(Reg.NVS_STATUS, if safe then 1 else 0)] idle with mgt := ⟨[1], true, []⟩ }

/-- Nine tally requests served or waiting. -/
def crowd (s : State) : State := { s with mgt := { s.mgt with serving := List.replicate 9 (s.time.cycles + 1) } }

/-- A tally message of one word at `addr`; its tag is 16 zero bytes. -/
def tally (op epoch seq addr : Nat) (tag : Byte) : List Byte :=
  natLE 4 0x594C5451 ++ natLE 1 1 ++ natLE 1 op ++ natLE 2 1 ++ natLE 4 epoch ++ natLE 4 seq ++ natLE 4 addr ++ natLE 4 0
    ++ (if op = 2 then natLE 4 7 else []) ++ List.replicate 16 tag

theorem witness_TallyServes : (mgmt true).canonical = true ∧ mgmtUp (mgmt true) = true ∧ mgmtUp State.reset = false ∧
    msgField (tally 1 0 1 0x10000 0) 5 1 = 1 ∧ msgField (tally 2 0 1 0x10000 0) 5 1 = 2 ∧ tallyAuth (mgmt true) (tally 1 0 1 0x10000 0) = true ∧
    msgField (tally 1 9 1 0x10000 0) 8 4 ≠ rd (mgmt true) Reg.MGT_EPOCH ∧ tallyAuth (mgmt true) (tally 1 9 1 0x10000 0) = true ∧
    msgField (tally 1 0 1 0x10000 0) 8 4 = rd (mgmt true) Reg.MGT_EPOCH ∧ msgField (tally 1 0 0 0x10000 0) 0xC 4 = rd (mgmt true) Reg.MGT_TALLY_SEQ ∧
    (mgmt true).mgt.lastResp ≠ [] ∧ (tallyBusy (mgmt true)).length < 9 ∧
    ¬ (tallyBusy (crowd (mgmt true))).length < 9 ∧ mgmtUp (crowd (mgmt true)) = true ∧ laterSeq 1 0 = true ∧ laterSeq 0x80000001 0 = false ∧ tallyForm 1 (tally 1 0 1 0x10000 0) = true ∧
    tallyForm 2 (tally 2 0 1 0x10000 0) = true := by decide +kernel

theorem witness_TallyServes_rejects : tallyAuth (mgmt false) ((tally 1 0 1 0x10000 0).take 20) = false := by decide +kernel

theorem witness_ManagementWires : ownAddr idle = 0 ∧ validAddr 0 = true ∧ validAddr 0xC000 = false ∧ State.reset.pwr.inReset = true ∧ inWindow idle = false ∧ sleeping idle = false ∧ dwiMatch (regsOf [(Reg.MGT_DWI, 7)] idle) 7 = true ∧
    dwiMatch (mgmt false) 0xFFFF = true ∧ dwiMatch (mgmt false) 5 = false ∧ idle.pwr.inReset = false ∧ (mgmt false).mgt.link = true ∧
    { idle.mgt with link := false }.link = false ∧ sleeping (regsOf [(Reg.PWR_STATUS, 2)] idle) = true ∧
    inWindow (regsOf [(Reg.PWR_STATUS, 2)] idle) = false := by decide +kernel

/-- Host ports with addresses, and queue pair 5 of a class in a state. -/
def host (cls st : Nat) (l : List (Nat × Nat)) (x : Qp) : State :=
  { regsOf ([(Reg.HST_PORT, 1), (Reg.HST_PORT + 4, 1), (bankKey Reg.HST_QP_CTX0 5, st + 8 * cls + 128 * 2 + 1024 + 2 ^ 15 * 3 + 2 ^ 18 * 2),
      (bankKey (Reg.HST_QP_CTX0 + 12) 5, 7), (bankKey (Reg.HST_QP_CTX0 + 8) 5, 9)] ++ l) idle with
    nvs := { idle.nvs with config := [(8, [0, 1, 2, 3, 4, 5, 0, 6, 0, 10, 0, 0, 1] ++ List.replicate 16 9)] }
    host := { idle.host with qps := [(5, x)] } }

theorem witness_FramesAnswered : (host 0 3 [] Qp.init).nvs.config ≠ [] ∧ hostUp (host 0 3 [] Qp.init) 0 = true ∧ hostUp (host 0 3 [] Qp.init) 1 = true ∧
    ownIp4 (host 0 3 [] Qp.init) 0 0x0A000001 = true ∧ ownIp4 (host 0 3 [] Qp.init) 0 5 = false ∧
    ownIp6 (host 0 3 [] Qp.init) 0 0x09090909090909090909090909090909 = true ∧ ownIp6 (host 0 3 [] Qp.init) 0 5 = false ∧
    hostVlan (host 0 3 [] Qp.init) 0 = 6 ∧ (6 : BitVec 16).toNat = 6 ∧ ¬ (5 : BitVec 16).toNat = 6 ∧ (host 0 3 [] Qp.init).canonical = true ∧
    qpListens (host 0 3 [] Qp.init) 5 = true := by decide +kernel

/-- Mailbox entry 0, posted. -/
def mbx (l : List Byte) : State :=
  regsOf (((List.range 16).map fun i => (Reg.HST_MBOX + 4 * i, leNat (((l ++ List.replicate 64 0).drop (4 * i)).take 4))) ++ [(Reg.HST_MBOX_PROD, 1)]) idle

theorem witness_MailboxServes : (host 0 3 [(Reg.HST_MBOX_PROD, 63)] Qp.init).canonical = true ∧ qpListens (host 0 3 [(Reg.HST_MBOX_PROD, 63)] Qp.init) 5 = true ∧
    psnLag (host 0 3 [] Qp.init) 5 7 = 0 ∧ qpClass (host 0 3 [] Qp.init) 5 = 0 ∧ rd (host 0 3 [(Reg.HST_MBOX_PROD, 63)] Qp.init) Reg.HST_MBOX_PROD = 63 ∧
    rd (host 0 3 [(Reg.HST_MBOX_PROD, 64)] Qp.init) Reg.HST_MBOX_PROD = 64 ∧ rd idle Reg.HST_MBOX_PROD = 0 ∧ idle.host.taken = 0 ∧
    entryField (mboxEntry (mbx [0]) 0) 0 1 = 0 ∧ rd (mbx [0]) Reg.HST_MBOX_PROD = 1 ∧ hubRuns (mbx [0]) = true ∧ idle.host.from_ = [] ∧
    (let b := mboxEntry (mbx [1, 0, 0, 0, 0x31, 0, 0, 0, 3, 0, 0x34, 0x12, 255, 255, 255, 255]) 0
     entryField b 0 1 = 1 ∧ entryOk b = true ∧ entryField b 12 4 = 0xFFFFFFFF) ∧
    (let b := mboxEntry (mbx [1, 0, 0, 0, 0x31, 0, 0, 0, 3, 0, 0x34, 0x12, 9, 0, 0, 0]) 0; entryOk b = true ∧ entryField b 12 4 = 9) ∧
    (let b := mboxEntry (mbx [2, 0, 0, 0, 0x31, 0, 0, 0, 3]) 0; entryField b 0 1 = 2 ∧ entryOk b = true) ∧ wf (fun _ => 0) idle.sreg = true := by
  decide +kernel

/-- Region 1 of one unit at virtual address 4,096. -/
def region (l : List (Nat × Nat)) : State := host 1 3 ([(bankKey Reg.HST_MR_BASE 1, 1), (bankKey Reg.HST_MR_LEN 1, 1),
  (bankKey Reg.HST_MR_VA_LO 1, 0x1000), (bankKey Reg.HST_MR_KEY 1, 0x7000009)] ++ l) Qp.init

theorem witness_RemoteAccess : (region []).canonical = true ∧ qpListens (region []) 5 = true ∧ qpClass (region []) 5 = 1 ∧ psnLag (region []) 5 7 = 0 ∧
    (∃ a, regionOf (region []) 0x901 0x1000 2 true = (some a, 1) ∧ hostRefused (region []) a 2 = false) ∧
    (regionOf (region []) 0x901 0x1FFE 2 true).2 = 1 ∧ regionOf (region []) 0x801 0x1000 2 true = (none, 2) ∧
    regionOf (region []) 0x901 0x1FFF 2 true = (none, 3) ∧ regionOf (region []) 0x801 0x1000 2 false = (none, 2) ∧
    regionOf (region []) 0x901 0xFFF 2 false = (none, 3) ∧ (regionOf (region []) 0x901 0x1000 2 false).2 = 1 ∧ (region []).dram.marks = [] ∧
    2 ≤ qpMtu (region []) 5 ∧ qpListens (host 0 3 [] Qp.init) 5 = true ∧ qpClass (host 0 3 [] Qp.init) 5 ≠ 1 ∧ hostRefused { region [(Reg.SCH_STATUS, 4)] with casting := some ⟨0, 4096, 65536, 0, false, []⟩ } 0 2 = true := by
  refine ⟨by decide +kernel, by decide +kernel, by decide +kernel, by decide +kernel, ⟨4096, by decide +kernel⟩, by decide +kernel⟩

/-- Packets waiting for their acknowledgement. -/
def kept : Qp := { Qp.init with unacked := [⟨7, 0, 0, 0, [1], 0, false⟩, ⟨8, 0, 0, 0, [1], 0, false⟩], ackOwed := 3 }

/-- Queue pair 5 with those packets. -/
def waiting (x : Qp) : State := let s := host 1 3 [] x; { s with time := { s.time with cycles := 9000 } }
def late (x : Qp) : State := sinceCycle x.sentAt (retransmitCycles (waiting x) 5) (waiting x)

theorem witness_QueuePairTimers : (waiting kept).canonical = true ∧ qpSends (waiting kept) 5 = true ∧
    ((qpAt (waiting kept) 5).unacked.any fun p => p.psn == 7) = true ∧ wf (fun _ => Qp.init) (waiting kept).host.qps = true ∧
    kept.unacked ≠ [] ∧ kept.rnrWait = false ∧ wf (fun _ => Qp.init) (late kept).host.qps = true ∧
    (qpAt (late kept) 5).retries < bits (ctx (late kept) 5 0) 17 15 ∧
    bits (ctx (late { kept with retries := 3 }) 5 0) 17 15 ≤ (qpAt (late { kept with retries := 3 }) 5).retries ∧
    (qpAt (waiting { kept with rnrWait := true }) 5).rnrTries < bits (ctx (waiting { kept with rnrWait := true }) 5 0) 20 18 ∧
    bits (ctx (waiting kept) 5 0) 20 18 ≠ 7 ∧ bits (ctx (waiting kept) 5 0) 20 18 ≤ { kept with rnrWait := true, rnrTries := 2 }.rnrTries ∧
    kept.ackOwed ≠ 0 ∧ (qpAt (sinceCycle kept.ackAt 50 (waiting kept)) 5).ackOwed ≠ 0 := by decide +kernel

/-- Cell 0 of die 0 awake with no casting, and asleep. -/
def awake : State := { idle with cells := [(0, cellOn)] }

theorem witness_CountersAndLatches : awake.canonical = true ∧ cellAsleep (srv awake) (phys (srv awake) 0 0) = false ∧
    cellAsleep (srv (regsOf [(Reg.PWR_STATUS, 2)] awake)) (phys (srv awake) 0 0) = true ∧ fld (srv idle) Reg.FAB_PORT_SEL 5 0 < 48 ∧
    48 ≤ fld (srv (regsOf [(Reg.FAB_PORT_SEL, 50)] idle)) Reg.FAB_PORT_SEL 5 0 := by decide +kernel

theorem witness_TickReadLatches : live.canonical = true := by decide +kernel

theorem witness_RegistersTakeWrites : castingRuns (srv awake) = false ∧ cellAsleep (srv awake) (phys (srv awake) 0 0) = false ∧
    castingRuns (srv live) = true ∧ cellAsleep (srv live) (phys (srv live) 0 0) = false ∧
    ([Reg.MEM_SCRUB, Reg.MEM_ARB_WINDOW, Reg.MEM_ARB_HOLD, Reg.MEM_THERM, Reg.MEM_ARB_WEIGHT, Reg.CAL_DELTA, Reg.CAL_INTERVAL, Reg.HLT_RISK_W,
      Reg.HLT_RISK_CFG, Reg.HLT_AREC_CFG, Reg.HLT_JRNL_CFG, Reg.ING_POLICY, Reg.ING_MARGIN, Reg.PWR_TJ, Reg.PWR_WAKE_CFG, Reg.TSM_PLAUS, Reg.HST_CC,
      Reg.SPR_REQ, Reg.FAB_STICKY, Reg.CAL_STICKY, Reg.ING_STICKY, Reg.HST_STICKY, Reg.MGT_STICKY].all fun a => (findRow (rowsOf a) a).isSome) = true ∧
    cellWindow (srv idle) 0x7FFFFFF0 = none ∧ locked 0x7FFFFFF0 = false ∧ findRow (rowsOf 0x7FFFFFF0) 0x7FFFFFF0 = none ∧
    locked Reg.SCH_IMAGE_LO = true ∧ cellWindow (srv live) Reg.SCH_IMAGE_LO = none ∧ holdsReg (srv idle) Reg.SCH_CTRL = true ∧
    Reg.MEM_SCRUB ≠ Reg.PWR_STRETCH := by decide +kernel

/-- Queue pair 0 in state 2; four urgent conversions of converter 0 wait. -/
def rtr : State := regsOf [(bankKey Reg.HST_QP_CTX0 0, 0x98502)] idle
def urgent4 : State := { idle with tsm := { idle.tsm with urgent := [(0, [1, 2, 3, 4])] } }

theorem witness_RegisterCommands : castingRuns (srv live) = true ∧ castingRuns (srv idle) = false ∧ schState (srv idle) ≠ 2 ∧
    stage (srv idle) ≠ 2 ∧ rd (srv idle) Reg.HST_OWNER ≠ 5 ∧ qpMove 2 3 = true ∧ qpMove 2 0 = true ∧ setBits 0x98502 2 0 0 = 0x98500 ∧ bits (ctx (srv rtr) 0 0) 2 0 = 2 ∧
    fld (srv rtr) Reg.HST_QP_SEL 12 0 = 0 ∧ bits (ctx (srv rtr) 0 0) 9 7 ≤ 4 ∧ 1 ≤ bits (ctx (srv rtr) 0 0) 14 10 ∧
    setBits 0x98502 2 0 3 = 0x98503 ∧ (urgentAt (srv idle) 8).length < 4 ∧ wf (fun _ => []) (srv idle).tsm.urgent = true ∧
    4 ≤ (urgentAt (srv urgent4) 0).length ∧ fld (srv idle) Reg.TSM_SEL 3 0 < 9 ∧ wf (fun _ => Chan.init) (srv idle).tsm.chans = true ∧
    (calSel (srv awake)).2.2.2 < 256 ∧ cellAsleep (srv awake) (phys (srv awake) (calSel (srv awake)).1 (calSel (srv awake)).2.1) = false ∧
    bankUsed (srv idle) = none ∧ rd (srv (regsOf [(Reg.NVS_FW_SVN, 4)] idle)) Reg.NVS_FW_SVN = 4 := by decide +kernel

theorem witness_PowerRegistersTake : live.canonical = true ∧ castingRuns (srv live) = true := by decide +kernel

/-! ### Witnesses: spares, settings, boots, power, sensors -/

/-- Fill slot 0 of die 0 holding `v`. -/
def fil (v : Nat) (f : Fill) (s : State) : State :=
  { regsOf [(fillKey 0 0, v)] s with cells := [(0, cellOn), (16, cellOn)], spr := { s.spr with fills := if f = Fill.none then [] else [(0, f)] } }

/-- A fill whose spare has passed its self-test. -/
def tested : Fill := { Fill.none with tested := true }

/-- The host has given the content of fill slot 0 at address 0. -/
def sourced (s : State) : State := wr (bankKey Reg.SPR_FILL_SRC_HI 0) (2 ^ 31) s

/-- Column 0 of array 0 of cell 0 does not answer its check. -/
def broken (s : State) : State :=
  { s with cells := [(0, { cellOn with checks := [(colKey 0 0, checkAt idle 0 0 0 + 1)] }), (16, cellOn)] }

theorem witness_BrazingRequests : (∀ k, k < 4 → bits (rd (srv (regsOf [(Reg.SPR_REQ, k)] idle)) Reg.SPR_REQ) 1 0 = k) ∧
    fillState (srv idle) 0 0 = 0 ∧ fillState (srv idle) 0 1 = 0 ∧ freeSpares (srv idle) (phys (srv idle) 0 0) 0 ≠ [] ∧ freeCells (srv idle) 0 ≠ [] ∧
    bits (rd (srv (regsOf [(Reg.SPR_REQ, 0x103)] idle)) Reg.SPR_REQ) 11 4 = 16 ∧ (srv idle).spr.coreSwaps = [] ∧ idle.spr.coreSwaps = [] ∧
    ({ idle.spr with coreSwaps := [(0, 3)] }.coreSwaps.any fun x => x.1 == 0) = true ∧
    { idle.spr with coreSwaps := [(0, 3)] }.coreSwaps.contains (0, 4) = false ∧
    { idle.spr with coreSwaps := [(0, 3)] }.coreSwaps.contains (0, 3) = true := by decide +kernel

theorem witness_FillsApply_cells : (fil 10 tested idle).canonical = true ∧ wf (fun _ => Fill.none) (fil 10 tested idle).spr.fills = true ∧
    wf homeCell (fil 10 tested idle).spr.cellMap = true ∧ pwrState (regsOf [(Reg.PWR_STATUS, 1)] idle) ≠ 0 ∧ pwrState (fil 10 tested idle) = 0 ∧
    bits (rd (fil 10 tested idle) (fillKey 0 0)) 3 0 = 10 ∧ (fillAt (fil 10 tested idle) 0 0).tested = true ∧
    (fillAt (fil 10 Fill.none idle) 0 0).tested = false ∧ castingRuns (fil 10 tested live) = true ∧ castingRuns (fil 10 tested idle) = false ∧
    columnContent (broken (fil 10 tested idle)) 0 0 (phys idle 0 0) 0 0 = none := by decide +kernel

theorem isSome_of_source {s : State} {die slot c a col x : Nat} (h : fillSource s die slot = some x) :
    (columnContent s die slot c a col).isSome = true := by
  unfold columnContent; simp only [h]; split_ifs <;> rfl

/-- A content given by the host leaves no column of a cell fill without a source. -/
theorem witness_FillsApply_sources (i : Nat) :
    (columnContent (sourced (fil 10 tested live)) 0 0 (phys live 0 0) (i / 256) (i % 256)).isSome = true ∧
    (columnContent (sourced (fil 10 tested idle)) 0 0 (phys idle 0 0) (i / 256) (i % 256)).isSome = true :=
  ⟨isSome_of_source (x := 0) (by decide +kernel), isSome_of_source (x := 0) (by decide +kernel)⟩

theorem witness_FillsApply_columns : remapCount (fil 7 Fill.none idle) < 4096 ∧ bits (rd (fil 7 Fill.none idle) (fillKey 0 0)) 3 0 = 7 ∧
    fillState (fil 7 Fill.none idle) 0 1 = 0 ∧ idle.spr.lost = none ∧ bits (rd (fil 11 Fill.none idle) (fillKey 0 0)) 3 0 = 11 ∧
    (fillContent (fil 6 { Fill.none with latched := List.replicate 129 1 } idle) 0 0).map (·.length) = some 129 ∧
    remapCount (fil 6 { Fill.none with latched := List.replicate 129 1 } idle) < 4096 ∧
    bits (rd (broken (fil 6 Fill.none idle)) (fillKey 0 0)) 3 0 = 6 ∧ fillContent (broken (fil 6 Fill.none idle)) 0 0 = none := by decide +kernel

/-- Settings in a bank, a STORE of them in progress. -/
def bk (n : Nat) : Bank := ⟨BitVec.ofNat 32 n, List.replicate 32 7, 3, [], [], [], [], [], [], [], []⟩
def storing (st : Nat) (tries : Nat) : State :=
  { regsOf [(Reg.NVS_STATUS, st)] idle with nvs := { idle.nvs with snapshot := some (bk 5), tries := tries } }

theorem witness_SettingsAndQuotes : (srv idle).nvs.snapshot = none ∧ (srv (storing 0 0)).nvs.snapshot = some (bk 5) ∧
    fld (srv (storing 0 0)) Reg.NVS_STATUS 11 11 = 0 ∧ (srv (storing 0 0)).nvs.tries = 0 ∧ (srv (storing 0 1)).nvs.tries ≠ 0 ∧
    fld (srv (storing 0x800 0)) Reg.NVS_STATUS 11 11 = 1 ∧ (srv (storing 0x800 0)).nvs.snapshot = some (bk 5) ∧
    fld (srv idle) Reg.NVS_STATUS 12 12 = 0 ∧ fld (srv (storing 0x1000 0)) Reg.NVS_STATUS 12 12 = 1 := by decide +kernel

theorem witness_BootsRun : safeState (srv idle) = false ∧ safeState (srv (regsOf [(Reg.NVS_STATUS, 1)] idle)) = true ∧ castingRuns (srv live) = true ∧
    castingRuns (srv idle) = false ∧ fld (srv idle) Reg.PWR_STATUS 8 8 = 0 ∧ fld (srv (regsOf [(Reg.PWR_STATUS, 0x100)] idle)) Reg.PWR_STATUS 8 8 = 1 ∧
    bits (srv (regsOf [(Reg.PWR_STATUS, 0x100)] idle)).pwr.rails 0 0 = 1 ∧ State.reset.pwr.inReset = true ∧ idle.pwr.inReset = false ∧
    fld State.reset Reg.PWR_STATUS 8 8 = 0 ∧ idle.pwr.rising = 0 ∧ { idle.pwr with rising := 1 }.rising = 1 ∧ bits idle.pwr.rails 0 0 = 1 := by
  decide +kernel

/-- BANK or QUENCH asked for. -/
def asked (n : Nat) : State := regsOf [(Reg.PWR_MODE, n)] idle
/-- QUENCH asked for, with a place for each image. -/
def imaged : State := regsOf ((List.range 4).map fun d => (Reg.PWR_QIMG_BASE + 4 * d, 2 ^ 31)) (asked 2)

/-- A part in BANK or QUENCH with a wake latched; `st` is PWR_STATUS, `e` the entry that an early wake cuts into. -/
def asleep (st : Nat) (deep : Nat) (e : Option Nat) : State :=
  { regsOf [(Reg.PWR_STATUS, st), (Reg.PWR_WAKE_CFG, 0x1F)] idle with pwr := { idle.pwr with dwiLatch := true, deep := deep, entryAt := e, entryEnd := 1 } }

/-- An entry that began six cycles ago. -/
def entering6 (deep : Nat) : State := { idle with
  time := { idle.time with cycles := 6 }, pwr := { idle.pwr with entryAt := some 0, entryEnd := 100, deep := deep } }

theorem witness_DeepStates : (entering6 1).canonical = true ∧ (entering6 1).pwr.entryAt = some 0 ∧ (entering6 1).time.cycles = 0 + 6 ∧
    (entering6 1).time.cycles < (entering6 1).pwr.entryEnd ∧ (entering6 1).pwr.deep ≠ 2 ∧ (entering6 2).pwr.deep = 2 ∧ idle.time.cycles ≠ 0 + 6 ∧ pwrState idle = 0 ∧ fld (asked 0) Reg.PWR_MODE 1 0 = 0 ∧ fld (asked 1) Reg.PWR_MODE 1 0 = 1 ∧ deepOk (asked 1) 1 = true ∧
    fld imaged Reg.PWR_MODE 1 0 = 2 ∧ deepOk imaged 2 = true ∧ deepOk (asked 2) 2 = false ∧
    rd idle Reg.PWR_ALARM_LO + 2 ^ 32 * fld idle Reg.PWR_ALARM_HI 15 0 ≤ (0xFFFFFFFFFFFF : BitVec 48).toNat ∧
    idle.time.rtc.toNat < rd (regsOf [(Reg.PWR_ALARM_LO, 9)] idle) Reg.PWR_ALARM_LO ∧ idle.pwr.entryAt = none ∧
    pwrState (asleep 2 1 none) = 2 ∧ wakes (asleep 2 1 none) = true ∧ (asleep 2 1 none).pwr.entryAt = none ∧
    pwrState (asleep 3 2 none) = 3 ∧ wakes (asleep 3 2 none) = true ∧ fld (asleep 3 2 none) Reg.PWR_STATUS 7 7 = 0 ∧
    fld (asleep 0x83 2 none) Reg.PWR_STATUS 7 7 = 1 ∧ pwrState (asleep 0x83 2 none) = 3 ∧ wakes (asleep 0x83 2 none) = true ∧ wakes idle = false ∧
    (endEntry (asleep 1 1 (some 0))).pwr.entryAt = none ∧ (endEntry (asleep 1 2 (some 0))).pwr.entryAt = none ∧ (asleep 1 1 none).pwr.deep = 1 ∧
    (asleep 1 2 none).pwr.deep = 2 := by decide +kernel

theorem witness_PowerFails : State.reset.canonical = true ∧ bits State.reset.pwr.rails 0 0 = 0 ∧ bits idle.pwr.rails 0 0 = 1 ∧
    idle.time.refclk = true ∧ castingRuns live = true ∧ castingRuns idle = false ∧ { idle.time with refclk := false }.refclk = false ∧
    idle.nvs.snapshot = none ∧ idle.health.journal = [] ∧
    hubRuns (after .refclkReturn (after .refclkLoss idle)) = true := by decide +kernel

/-- Three devices configured; one reading of device 0 with a fault in its status. -/
def pmb3 : State := { idle with nvs := { idle.nvs with config := [(6, List.replicate 64 3)] } }
/-- Converter 0 converts channel `c` of its round. -/
def turn (c : Nat) : State := { idle with tsm := { idle.tsm with busy := [(0, 1 + c)] } }
/-- A reading of device 0 with a fault. -/
def reading : Reading := ⟨0, 1, 2, 3, 4, 5, 0x10⟩

theorem witness_SensorsReport : wf (fun _ => (0, 0)) pmb3.pwr.pmb = true ∧ pmb3.canonical = true ∧ pwrState (asleep 3 2 none) = 3 ∧ pwrState pmb3 ≠ 3 ∧
    pmbDevices pmb3 = [0, 1, 2] ∧ (([reading].filter fun r => (pmbDevices pmb3).contains r.device.val).filter fun x => x.device == 0) = [reading] ∧
    pmbFault 0x10 = true ∧ pmbWarning 4 = true ∧ convMade (turn 9) 0 9 false = true ∧ wf (fun _ => Chan.init) idle.tsm.chans = true ∧
    convMade State.reset 0 0 false = false ∧ isDiode 0 9 = false ∧ isDiode 0 1 = true ∧ convMade (turn 1) 0 1 false = true ∧
    chanEn (turn 1) 0 1 = true ∧ chanEn (turn 9) 0 9 = true ∧ chanSuspended (turn 9) 0 9 = false ∧ (chanAt (turn 9) 0 9).out = false ∧
    convMade (turn 9) 0 8 false = false ∧ (turn 9).canonical = true ∧ chanEn (regsOf [(bankKey Reg.TSM_CH_WIN 9, 0)] (turn 9)) 0 9 = false ∧
    convMade (regsOf [(bankKey Reg.TSM_CH_WIN 9, 0)] (turn 9)) 0 9 false = true ∧ (0 : BitVec 12).toNat < bits (chanWin (turn 9) 0 9) 11 0 ∧ diodeCode 115 ≤ (4095 : BitVec 12).toNat ∧ fld idle Reg.PWR_STICKY 5 5 = 0 := by decide +kernel

/-- A diode read on the cycle that passes, and a reading of it 60 s old. -/
def hot : State := { idle with tsm := { idle.tsm with chans := [(0, ⟨1500, false, false, some 0, none⟩)], history := List.replicate 60 1401 } }

/-- Corrected errors that no report has seen; a record queued with the link up. -/
def corrected : State := { idle with health := { idle.health with corrected := [(0, 3)] } }
def queued : State := { mgmt false with health := { idle.health with queue := [⟨1, 0, 0, 0, 0, 1, 1, [], [], 0, 0, none, none⟩] } }

theorem witness_HealthReports : fld idle Reg.HLT_RISK_CFG 15 0 ≤ 5000 ∧ fld idle Reg.HLT_RISK_CFG 21 21 = 1 ∧
    fld (regsOf [(Reg.HLT_RISK_CFG, 0x000A1000)] idle) Reg.HLT_RISK_CFG 21 21 = 0 ∧ (idle.health.corrected.map (·.2)).sum = idle.health.correctedSeen ∧
    (corrected.health.corrected.map (·.2)).sum ≠ corrected.health.correctedSeen ∧ safeState (mgmt true) = true ∧ safeState idle = false ∧
    (queued.health.queue.length = 1 ∧ queued.mgt.link = true ∧ hubRuns queued = true) ∧ hubRuns live = true ∧ hubRuns State.reset = false ∧
    (hot.tsm.history[59]?).getD 0 ≠ 0 ∧ hottestNow hot ≠ 0 ∧ idle.health.queue = [] ∧ wf noByte idle.nvs.journal = true ∧
    (List.replicate 32 (1 : Byte)).length = 32 ∧ idle.health.journal = [] := by decide +kernel

theorem witness_RoundingKeepsValues : nonFinite 0x3C00 = false ∧ nonFinite 0x8000 = false ∧ nonFinite 0x7F80 = true := by decide +kernel

theorem witness_RecordsCountWhenOff : fld (regsOf [(Reg.HLT_AREC_CFG, 25600)] idle) Reg.HLT_AREC_CFG 0 0 = 0 ∧ (sentOf idle 5 []).at_ = none := by
  decide +kernel

/-- 1.0 written from the exact term 1, at a place. -/
def one (p : Spot) : CheckVal := ⟨[[⟨1, 0⟩]], .residue, .f16, 127, 0x3C00, p⟩

/-- The Burnisher of cell 0 wrote that on tick 2,100. -/
def noted : State := { live with checks := [⟨5, 0, 2100, [one .inside]⟩] }

/-- Cell 0 with 1.0 at the first place of scratchpad, of the accumulator and of its tables. -/
def ones : State := cell0 (fun c => { c with sp := [(1, 0x3C)], acc := [(0, 0x3C00)], tables := [(0, 0x3C00)] }) live

theorem witness_HallmarkVerdicts : checkedValue noted 5 (checkPlace noted (.cell 0 0)) 2100 0 ≠ none ∧
    checkedValue live 5 (checkPlace live (.cell 0 0)) 2100 0 = none ∧ 2000 + 24 < now live ∧
    (one .inside).mismatch 0 = false ∧ (one .inside).mismatch 1 = true ∧ ones.canonical = true ∧
    (∀ p, p ∈ [Spot.acc 0 0, .table 0 0, .sp 0 0] → (one p).held ones = some 0x3C00) ∧ (one (.acc 0 1)).held ones ≠ some 0x3C00 ∧
    (∃ u : Nat, u % 2 ^ Fmt.f16.width ≠ 0) ∧ 3 < Fmt.f16.width ∧ nonFinite (0x3C00 : F16) = false := by
  refine ⟨by decide +kernel, by decide +kernel, by decide +kernel, by decide +kernel, by decide +kernel, by decide +kernel, by decide +kernel,
    by decide +kernel, ⟨1, by decide +kernel⟩, by decide +kernel⟩

/-! ### Ill-formed commands, one for each check -/

/-- A parcel that is well formed. -/
def okParcel : Parcel := ⟨0, 5, 0x20, 1, 0, List.replicate 16 0, List.replicate 256 0⟩

theorem test_wellFormed : (Instr.eval (ops [])).wellFormed = true ∧ (Instr.send (lnk 6 [])).wellFormed = true ∧ (Instr.data okParcel).wellFormed = true ∧
    (Instr.telemetryCycle [⟨0, 0, 0, 0, 0, 0, 0⟩, ⟨7, 0, 0, 0, 0, 0, 0⟩]).wellFormed = true ∧
    (Instr.registerWrite .host 0 0 4).wellFormed = true := by decide +kernel
theorem test_illFormed_place : (Instr.eval (lnk 6 [])).wellFormed = false ∧ (Instr.clear (lnk 6 [])).wellFormed = false ∧
    (Instr.stage (lnk 6 [])).wellFormed = false ∧ (Instr.chain (lnk 6 [])).wellFormed = false ∧ (Instr.copy (lnk 6 [])).wellFormed = false ∧
    (Instr.send (ops [])).wellFormed = false ∧ (Instr.recv (ops []) []).wellFormed = false := by decide +kernel
theorem test_illFormed_flits : (Instr.recv (lnk 6 []) [some (List.replicate 255 0)]).wellFormed = false := by decide +kernel
theorem test_illFormed_beacon : (Instr.beacon 5 (List.replicate 257 0)).wellFormed = false := by decide +kernel
theorem test_illFormed_mark : (Instr.mark 3 0 0 0 (List.replicate 9 0)).wellFormed = false := by decide +kernel
theorem test_illFormed_parcel : (Instr.data { okParcel with flits := 0, payload := [] }).wellFormed = false ∧
    (Instr.data { okParcel with digest := [] }).wellFormed = false ∧ (Instr.data { okParcel with payload := [] }).wellFormed = false := by decide +kernel
theorem test_illFormed_hallmark : (Instr.hallmarkVerdict 6 (.cell 0 0) 0 ⟨0, 0⟩).wellFormed = false ∧
    (Instr.hallmarkVerdict 1 (.port 6) 0 ⟨0, 0⟩).wellFormed = false := by decide +kernel
theorem test_illFormed_agents : (Instr.arbitrationPoint 0 0 600 [rq, rq]).wellFormed = false := by decide +kernel
theorem test_illFormed_temps : (Instr.stackTempReadout [none]).wellFormed = false := by decide +kernel
theorem test_illFormed_devices : (Instr.telemetryCycle [⟨3, 0, 0, 0, 0, 0, 0⟩, ⟨3, 0, 0, 0, 0, 0, 0⟩]).wellFormed = false := by decide +kernel
theorem test_illFormed_size : (Instr.registerWrite .host 0 0 0).wellFormed = false := by decide +kernel
theorem test_illFormed_repaired : (Instr.pprComplete (List.replicate 129 true)).wellFormed = false := by decide +kernel
theorem test_illFormed_flash : (Instr.retry .host [(0, 0xFF)]).wellFormed = false ∧ (Instr.reboot .host [(1, 1), (0, 1)]).wellFormed = false := by
  decide +kernel

/-! ### Runs of one command -/

/-- No row of the opcode table gives bits, so no word spells a command. -/
theorem test_no_words : decodeTableWord 8 0 = none ∧ State.withFetchWord State.reset 8 0 = State.reset := ⟨rfl, rfl⟩
theorem test_reset_canonical : State.reset.canonical = true := by decide
/-- R62: the upper half of the tick is latched. -/
theorem test_tick_latch : rd (after (.schTickLoRead .host) (atTick 0x123456789 idle)) Reg.SCH_TICK_HI = 1 := by decide +kernel
/-- R105: 4 is below the range of CAL_DELTA, 8 to 256. -/
theorem test_delta_low : rd (after (.registerWrite .host (BitVec.ofNat 32 Reg.CAL_DELTA) 4 4) idle) Reg.CAL_DELTA = 8 := by decide +kernel
/-- R6: half a word written to a register changes nothing and is recorded. -/
theorem test_half_word : rd (after (.registerWrite .host (BitVec.ofNat 32 Reg.CAL_DELTA) 100 2) idle) Reg.CAL_DELTA = 64 ∧
    fld (after (.registerWrite .host (BitVec.ofNat 32 Reg.CAL_DELTA) 100 2) idle) Reg.HLT_STICKY0 0 0 = 1 := by decide +kernel
/-- R8: writing 1 clears a sticky bit and leaves the others. -/
theorem test_w1c : rd (after (.registerWrite .host (BitVec.ofNat 32 Reg.FAB_STICKY) 1 4) (regsOf [(Reg.FAB_STICKY, 7)] idle)) Reg.FAB_STICKY = 6 := by
  decide +kernel
/-- R53: a word with a reserved operand bit set raises OPCODE, bit 9 of SCH_VIOL. -/
theorem test_opcode : rd (after (.clear (ops [(1, 0)])) (feed 0x21 (ops [(1, 0)]) live)) Reg.SCH_VIOL = 512 := by decide +kernel
/-- R79: DBOOK is bit 0. -/
theorem test_double_booking : rd (after (.sweep (ops [])) (feed 0x15 (ops []) (arrS { Arr.init with busy := 5000 }))) Reg.SCH_VIOL = 1 := by decide +kernel
/-- R80: BUDGET is bit 1. -/
theorem test_budget : rd (after (.sweep (ops [])) (feed 0x15 (ops []) full)) Reg.SCH_VIOL = 2 := by decide +kernel
/-- R78: EVAL occupies its array for 64 ticks from the issue tick, EVAL8 for 128. -/
theorem test_eval_busy : (arrAt (after (.eval (ops [(127, 72)])) (feed 0x11 (ops [(127, 72)]) bound)) 0 0).busy = 2168 ∧
    (arrAt (after (.eval8 (ops [(127, 72)])) (feed 0x12 (ops [(127, 72)]) bound)) 0 0).busy = 2232 := by decide +kernel
/-- R59: a WAKE brings the cell to RUN 64 ticks after its tick, a DOZE ends 40 ticks after it. -/
theorem test_wake : (cellAt (after (.wake 0 2 0xA000) (wakeS 1 2)) 2).power = .waking 41024 ∧
    (cellAt (after (.doze 0 0 0xA000) (wakeS 2 0)) 0).power = .shutting 41000 false := by decide +kernel
/-- R66: a start tick that is no multiple of 65,536 refuses the arm with code 6. -/
theorem test_arm_refused : rd (after (.arm .host) (regsOf [(Reg.SCH_START_LO, 0x20001)] loaded)) Reg.SCH_STATUS = 0x62 ∧
    schState (after (.arm .host) loaded) = 3 := by decide +kernel
/-- R220: a taint in the veto byte rewinds the step: outcome 1 is a taint rewind. -/
theorem test_veto : (after (.vetoResult 0) (vetoAt 0)).run.outcome = none ∧ (after (.vetoResult 0) (vetoAt 2)).run.suppressed = true := by
  decide +kernel
/-- R221: a clean commit byte commits the next version. -/
theorem test_commit : rd (after (.commitResult 0) (commitAt 0)) Reg.SCH_VERSION = 1 ∧ rd (after (.commitResult 2) (commitAt 0)) Reg.SCH_VERSION = 0 := by
  decide +kernel
/-- R315: a WRITE outside its region moves the queue pair to ERROR (4) and is answered with a negative acknowledgement. -/
theorem test_write_outside : qpState (after (.rdmaWrite 5 7 false 0x901 0x1FFF [1, 2]) (region [])) 5 = 4 := by decide +kernel
/-- R315: the first byte of a WRITE lands at the base of its region. -/
theorem test_write_lands : dramGet (after (.rdmaWrite 5 7 false 0x901 0x1000 [9, 2]) (region [])) 4096 2 = [9, 2] := by decide +kernel
/-- R275, R276: port 5 loses a lane while lane 8 is free, and stays UP (5); it loses light, and is DARK (0). -/
theorem test_lanes : portState (after (.laneDegraded 5 3 true) (net 5 Port.init live)) 5 = 5 ∧
    portState (after (.lossOfLight 5) (net 5 Port.init live)) 5 = 0 := by decide +kernel
/-- R374: a new owner forgets the guest image. -/
theorem test_owner : fld (after (.hstOwnerWrite .host 5) (guestS none)) Reg.ING_GUEST_STAT 1 0 = 0 := by decide +kernel
/-- R368: the buddy's feed equals the part's own: buddyfeed, and the ingot is not secured. -/
theorem test_same_feed : fld (after (.ack (ackP 1 77)) (buddyS 0 false)) Reg.ING_STICKY 0 0 = 1 ∧ (after (.ack (ackP 1 77)) (buddyS 0 false)).ing.secured = false ∧
    (after (.ack (ackP 1 76)) (buddyS 0 false)).ing.secured = true := by decide +kernel
/-- R450: in the safe state a tally read of an address that it does not allow is answered with status 2; the sequence number is taken. -/
theorem test_safe_tally : rd (after (.tallyRead (tally 1 0 1 0x10000 0)) (mgmt true)) Reg.MGT_TALLY_SEQ = 1 := by decide +kernel
/-- R394: a failure of PWR_GOOD with VCORE on leaves every rail off. -/
theorem test_power_fail : bits (after .pwrGoodFailure live).pwr.rails 3 0 = 0 := by decide +kernel
/-- R464 to R467: the 20th row is AA and the last CY; VCORE has 1,744 lands; direction 1 of port 47 is fibre 15 of the last receptacle. -/
theorem test_package : rowName 20 = ['A', 'A'] ∧ rowName 76 = ['C', 'Y'] ∧
    ((List.range 76).map fun i => ((List.range 76).filter fun j => land (i + 1) (j + 1) == .vcore).length).sum = 1744 ∧
    fabricFibre 47 true = (1, 2, 15) := by decide +kernel
/-- R333: the sum 1 + 2^-11 rounds to 1.0; a flipped low bit of the value written is caught. -/
theorem test_hallmark : (sumCheck [⟨1, 0⟩, ⟨1, -11⟩] 0x3C00).mismatch 0 = false ∧ (sumCheck [⟨1, 0⟩, ⟨1, -11⟩] 0x3C00).mismatch 1 = true := by
  decide +kernel
/-- R45: unit 1, class 1, delta 0x838, no flags, and 127 in operand bits [78:72] is EVAL. -/
theorem test_slot_word : slotCommand (.cell 0 0) false 0x1108380000007F000000000000000000 [] = .eval (ops [(127, 72)]) := by decide +kernel
/-- FIPS 202: SHAKE256 of the empty message begins 46 B9. -/
theorem test_shake : (digest []).take 2 = [0x46, 0xB9] := by decide +kernel

end Sys2Proof.Tests
end

section
/-! SUPPORT. Nothing that a tick does touches the queue of waiting commands: one lemma per operation, in the order of the model, up to the
arrival of an access at the crossbar. -/
namespace Sys2Proof.Machine

section
variable (s : State)

@[simp] theorem pending_ite (c : Prop) [Decidable c] (a b : State) : (if c then a else b).pending = if c then a.pending else b.pending :=
  apply_ite ..

@[simp] theorem each_pending {α : Type} {l : List α} {f : α → State → State} (hf : ∀ a s, (f a s).pending = s.pending) :
    (each l f s).pending = s.pending := each_keeps State.pending hf s

/-! ### Records, events, violations and taints -/

@[simp] theorem localLevel_pending : (localLevel s).pending = s.pending := rfl

@[simp] theorem journalIssue_pending (entry : List Byte) : (journalIssue entry s).pending = s.pending := by simp [journalIssue]

@[simp] theorem enqueue_pending (r : Rec) : (enqueue r s).pending = s.pending := by simp [enqueue]

@[simp] theorem recordFull_pending (cls sev : Nat) (loc : List (Nat × Nat)) (detail : List (String × Nat)) (classif first : Nat) :
    (recordFull cls sev loc detail classif first s).pending = s.pending := by
  simp [recordFull]

@[simp] theorem recordOf_pending (cls reg : Nat) (loc : List (Nat × Nat)) (first : Nat) :
    (recordOf cls reg loc first s).pending = s.pending := by
  simp [recordOf]

@[simp] theorem record_pending (cls : Nat) (loc : List (Nat × Nat)) (first : Nat) : (record cls loc first s).pending = s.pending := by
  simp [record]

@[simp] theorem riskInput_pending (k n : Nat) : (riskInput k n s).pending = s.pending := rfl

@[simp] theorem noteCorrected_pending (place k : Nat) : (noteCorrected place k s).pending = s.pending := rfl

@[simp] theorem emitPkt_pending (q : Nat) (p : Pkt) : (emitPkt q p s).pending = s.pending := rfl

@[simp] theorem sendPacket_pending (q opcode va rkey : Nat) (payload : List Byte) (imm : Nat) (event : Bool) :
    (sendPacket q opcode va rkey payload imm event s).pending = s.pending := rfl

@[simp] theorem event_pending (etype code : Nat) : (event etype code s).pending = s.pending := by
  unfold event
  split
  · exact bump_pending ..
  · exact each_pending s fun q s => sendPacket_pending s q ..

@[simp] theorem setSchState_pending (t : Nat) : (setSchState t s).pending = s.pending := by simp [setSchState]

@[simp] theorem jobFault_pending : (jobFault s).pending = s.pending := by simp [jobFault]

@[simp] theorem jobFaultRec_pending (reg : Nat) (loc : List (Nat × Nat)) (first : Nat) :
    (jobFaultRec reg loc first s).pending = s.pending := by
  simp [jobFaultRec]

@[simp] theorem viol_pending (bit unit die wh : Nat) : (viol bit unit die wh s).pending = s.pending := by simp [viol]

@[simp] theorem taintMark_pending (cause unit die wh sub : Nat) (loc : List (Nat × Nat)) :
    (taintMark cause unit die wh sub loc s).pending = s.pending := rfl

@[simp] theorem taintPoint_pending : (taintPoint s).pending = s.pending := rfl

@[simp] theorem taint_pending (cause unit die wh sub : Nat) (loc : List (Nat × Nat)) :
    (taint cause unit die wh sub loc s).pending = s.pending := by
  unfold taint
  split
  · rfl
  · dsimp only; split <;> simp

@[simp] theorem taintCell_pending (cause unit die cell : Nat) : (taintCell cause unit die cell s).pending = s.pending := by simp [taintCell]

/-! ### Hallmark checks and ports -/

@[simp] theorem noteCheck_pending (unit place : Nat) (vals : List CheckVal) : (noteCheck unit place vals s).pending = s.pending := by
  simp [noteCheck]

@[simp] theorem setPortState_pending (p v : Nat) : (setPortState p v s).pending = s.pending := rfl

@[simp] theorem portDark_pending (p v : Nat) : (portDark p v s).pending = s.pending := rfl

@[simp] theorem slotFlits_pending (l ring : Nat) (data : List (Option (List Byte))) : (slotFlits l ring data s).pending = s.pending := rfl

@[simp] theorem sendSlots_pending : (sendSlots s).pending = s.pending := by
  unfold sendSlots
  extract_lets t s1
  split
  · exact each_pending s fun _ _ => rfl
  · rfl

/-! ### Spares -/

@[simp] theorem retire_pending (r : Nat × Nat × Nat × Nat × Nat) : (retire r s).pending = s.pending := by simp [retire]

@[simp] theorem mapsChanged_pending : (mapsChanged s).pending = s.pending := rfl

@[simp] theorem wear_pending (counter die unit n : Nat) : (wear counter die unit n s).pending = s.pending := rfl

@[simp] theorem markColBad_pending (c a p : Nat) : (markColBad c a p s).pending = s.pending := rfl

@[simp] theorem clearFill_pending (die slot : Nat) : (clearFill die slot s).pending = s.pending := rfl

@[simp] theorem placeFill_pending (slot kind die cell a col : Nat) (f : Fill) :
    (placeFill slot kind die cell a col f s).pending = s.pending := rfl

@[simp] theorem capacityLoss_pending (loc : List (Nat × Nat)) : (capacityLoss loc s).pending = s.pending := by simp [capacityLoss]

@[simp] theorem nextFill_pending (die slot : Nat) : (nextFill die slot s).pending = s.pending := by
  unfold nextFill
  extract_lets s1 k s2 r a b
  have h2 : s2.pending = s.pending := by simp [s2, s1]
  split
  · split <;> simp [a, h2]
  · exact h2

@[simp] theorem fillRequest_pending (kind die cell a col : Nat) (f : Fill) : (fillRequest kind die cell a col f s).pending = s.pending := by
  simp [fillRequest]

@[simp] theorem absorbSlot_pending (die cell slot : Nat) (t : SMap (List Byte) × State) :
    (absorbSlot die cell slot t).2.pending = t.2.pending := by
  unfold absorbSlot
  dsimp only
  split
  · exact nextFill_pending ..
  · rfl

@[simp] theorem absorbFills_pending (die cell : Nat) (given : SMap (List Byte)) : (absorbFills die cell given s).2.pending = s.pending := by
  simp [absorbFills]

@[simp] theorem brazeWith_pending (die cell : Nat) (given : SMap (List Byte)) : (brazeWith die cell given s).pending = s.pending := by
  simp [brazeWith]

@[simp] theorem brazeCell_pending (die cell : Nat) : (brazeCell die cell s).pending = s.pending := by simp [brazeCell]

@[simp] theorem brazeColumn_pending (die cell a col : Nat) (latched : List Byte) :
    (brazeColumn die cell a col latched s).pending = s.pending := by
  simp [brazeColumn]

@[simp] theorem fillVerdict_pending (die slot : Nat) (ok : Bool) : (fillVerdict die slot ok s).pending = s.pending := by
  unfold fillVerdict
  extract_lets r cell a col c s1 s2
  have h2 : s2.pending = s.pending := by simp [s2, s1]
  split
  · rfl
  · split
    · rfl
    · split <;> simp [h2]

/-! ### DRAM -/

@[simp] theorem listRow_pending (a : Nat) : (listRow a s).pending = s.pending := by simp [listRow]

@[simp] theorem countCorrected_pending (a : Nat) : (countCorrected a s).pending = s.pending := by simp [countCorrected]

@[simp] theorem correctedRead_pending (a : Nat) : (correctedRead a s).pending = s.pending := by simp [correctedRead]

@[simp] theorem failedRead_pending (a m : Nat) (sched : Bool) : (failedRead a m sched s).pending = s.pending := by simp [failedRead]

@[simp] theorem recordRead_pending (a m : Nat) (sched : Bool) : (recordRead a m sched s).pending = s.pending := by simp [recordRead]

@[simp] theorem dramRead_pending (a : Nat) (sched : Bool) : (dramRead a sched s).pending = s.pending := by simp [dramRead]

@[simp] theorem dramLine_pending (a : Nat) (data : List Byte) (bad : Bool) : (dramLine a data bad s).pending = s.pending := rfl

@[simp] theorem asyncLine_pending (a n line : Nat) : (asyncLine a n line s).pending = s.pending := by simp [asyncLine]

@[simp] theorem asyncWrite_pending (a : Nat) (data : List Byte) : (asyncWrite a data s).pending = s.pending := by simp [asyncWrite]

/-! ### Statistics -/

@[simp] theorem noteConv_pending (i : Nat) (x : F16) (ovf : Nat) (tick : Nat) : (noteConv i x ovf tick s).pending = s.pending := by
  unfold noteConv
  split <;> simp

@[simp] theorem noteConvs_pending (tid : Nat) (l : List (F16 × Nat)) (evalSeg : Bool) (tick : Nat) :
    (noteConvs tid l evalSeg tick s).pending = s.pending := by
  unfold noteConvs
  split <;> simp

/-! ### The units of a cell -/

@[simp] theorem arrOvf_pending (c k n : Nat) : (arrOvf c k n s).pending = s.pending := by
  simp only [arrOvf, pending_ite, sticky_pending, bumpFld_pending, ite_self]

@[simp] theorem eccRead_pending (c kind index : Nat) : (eccRead c kind index s).pending = s.pending := by unfold eccRead; split <;> simp

@[simp] theorem eccWrite_pending (c kind index : Nat) : (eccWrite c kind index s).pending = s.pending := by unfold eccWrite; split <;> simp

@[simp] theorem accAdd_pending (c t j : Nat) (vals : List F16) : (accAdd c t j vals s).pending = s.pending := by
  unfold accAdd
  extract_lets b s1 side count folds terms sum index v s2 v' F there s3 s4 s5 s6
  have h1 : s1.pending = s.pending := by simp [s1]
  have h2 : s2.pending = s.pending := by cases hv : v <;> simp [s2, hv, h1]
  have h4 : s4.pending = s.pending := by simp [s4, s3, h2]
  split
  · simp [h4]
  · split <;> simp [s6, s5, h4]

@[simp] theorem clearSlots_pending (c t lo hi : Nat) : (clearSlots c t lo hi s).pending = s.pending := rfl

@[simp] theorem drainRead_pending (c t addr land : Nat) (clear hk : Bool) (q : Nat) :
    (drainRead c t addr land clear hk q s).pending = s.pending := by
  simp [drainRead]

@[simp] theorem spRead_pending (unit c addr n : Nat) : (spRead unit c addr n s).pending = s.pending := by simp [spRead]

@[simp] theorem spArrive_pending (unit c addr : Nat) (data : List Byte) (marks : List (Nat × Nat)) :
    (spArrive unit c addr data marks s).pending = s.pending := by
  simp [spArrive]

@[simp] theorem rxRead_pending (port : Nat) (c : Option Nat) (m : Nat) : (rxRead port c m s).pending = s.pending := by
  unfold rxRead
  split <;> simp

@[simp] theorem noticeFlag_pending (l : Nat) (poison fault : Bool) : (noticeFlag l poison fault s).pending = s.pending := by
  simp [noticeFlag]

@[simp] theorem portSent_pending (port : Nat) : (portSent port s).pending = s.pending := by simp [portSent]

@[simp] theorem anvRead_pending (c lo n : Nat) : (anvRead c lo n s).pending = s.pending := by simp [anvRead]

@[simp] theorem anvDrained_pending (c i addr pitch : Nat) (kept evalSeg hk : Bool) (issued : Nat) :
    (anvDrained c i addr pitch kept evalSeg hk issued s).pending = s.pending := by
  unfold anvDrained
  extract_lets ch s1 vals s2 s3 s4 s5
  have h2 : s2.pending = s1.pending := by
    apply each_pending
    exact fun _ _ => rfl
  have h4 : s4.pending = s.pending := by simp [s4, s3, h2, s1]
  split <;> simp [s5, h4]

@[simp] theorem recvAddFlit_pending (c addr fmt b dst issued : Nat) (evalSeg hk : Bool) (data : List Byte) :
    (recvAddFlit c addr fmt b dst issued evalSeg hk data s).pending = s.pending := by
  simp [recvAddFlit]

/-! ### Columns and trims -/

@[simp] theorem calLast_pending (die cell a col kind : Nat) : (calLast die cell a col kind s).pending = s.pending := rfl

@[simp] theorem keepTrims_pending (c a : Nat) : (keepTrims c a s).pending = s.pending := rfl

@[simp] theorem columnFail_pending (bit kind die cell a col : Nat) (latched : List Byte) :
    (columnFail bit kind die cell a col latched s).pending = s.pending := by
  simp [columnFail]

@[simp] theorem applyHandoff_pending (die cell a : Nat) (passed : Bool) : (applyHandoff die cell a passed s).pending = s.pending := by
  simp [applyHandoff]

@[simp] theorem bringTrims_pending (c a : Nat) : (bringTrims c a s).pending = s.pending := by
  unfold bringTrims
  generalize (arrAt s c a).staged = o
  cases o with
  | none => rfl
  | some set =>
    dsimp only [bump_pending]
    rw [pending_ite, sticky_pending, ite_self, setArr_pending, each_pending]
    · exact keepTrims_pending ..
    · exact fun _ _ => rfl

@[simp] theorem landVerdict_pending (die cell a : Nat) (swept : Bool) (fails : List (Nat × Nat)) (latched : List Byte) :
    (landVerdict die cell a swept fails latched s).pending = s.pending := by
  simp [landVerdict]

/-! ### Entry into a deep state -/

@[simp] theorem resetRegs_pending : (resetRegs s).pending = s.pending := by
  unfold resetRegs
  dsimp only
  split <;> rfl

@[simp] theorem loseDomains_pending : (loseDomains s).pending = s.pending := by simp [loseDomains]

@[simp] theorem driveRail_pending (r : Nat) (level : Bool) : (driveRail r level s).pending = s.pending := by simp [driveRail]

@[simp] theorem railsLow_pending (rails : List Nat) : (railsLow rails s).pending = s.pending := by simp [railsLow]

@[simp] theorem darken_pending (p : Nat) : (darken p s).pending = s.pending := by simp [darken]

@[simp] theorem writeImage_pending (die : Nat) : (writeImage die s).pending = s.pending := by
  unfold writeImage
  exact each_pending s fun _ _ => asyncWrite_pending ..

@[simp] theorem writeFirmware_pending : (writeFirmware s).pending = s.pending := by simp [writeFirmware]

@[simp] theorem hostPortsDown_pending : (hostPortsDown s).pending = s.pending := rfl

@[simp] theorem enterDeep_pending : (enterDeep s).pending = s.pending := by
  unfold enterDeep
  extract_lets s1 s2
  have h2 : s2.pending = s.pending := by
    simp only [s2, mapCells_pending, s1, hostPortsDown_pending]
    rw [each_pending]
    exact fun p s => darken_pending s p
  split
  · rw [writeFirmware_pending, each_pending, h2]
    exact fun die s => writeImage_pending s die
  · exact h2

@[simp] theorem completeEntry_pending : (completeEntry s).pending = s.pending := by simp [completeEntry]

@[simp] theorem entryTick_pending : (entryTick s).pending = s.pending := by unfold entryTick; split <;> simp

/-! ### Burnisher beats -/

@[simp] theorem beatEcc_pending (j : BurJob) (b : Beat) : (beatEcc j b s).pending = s.pending := by simp [beatEcc]

@[simp] theorem burUnit_pending (j : BurJob) (k : Nat) : (burUnit j k s).pending = s.pending := by
  unfold burUnit
  extract_lets b s1 j' runs outs s2 s3
  have h2 : s2.pending = s.pending := (each_pending s1 fun _ _ => eccRead_pending ..).trans (beatEcc_pending ..)
  have h3 : s3.pending = s2.pending := by
    apply each_pending
    exact fun _ _ => rfl
  split <;> exact h3.trans h2

@[simp] theorem burExc_pending (c cls : Nat) (e : Nat × Nat × Nat) : (burExc c cls e s).pending = s.pending := by simp [burExc]

@[simp] theorem spMerge_pending (c a : Nat) (m d : Byte) : (spMerge c a m d s).pending = s.pending := rfl

@[simp] theorem burWrite_pending (o : BurOut) : (burWrite o s).pending = s.pending := by
  unfold burWrite
  extract_lets c s1 s2 s3 s4 s5 s6 run s7 s8
  have h1 : s1.pending = s.pending := by
    apply each_pending
    exact fun _ _ => rfl
  have h2 : s2.pending = s1.pending := by
    apply each_pending
    exact fun p s => by simp
  have h5 : s5.pending = s.pending := by simp [s5, s4, s3, h2, h1]
  have h6 : s6.pending = s5.pending := by
    apply each_pending
    exact fun e s => burExc_pending ..
  have h8 : s8.pending = s.pending := by simp [s8, s7, h6, h5]
  split
  · exact (jobFaultRec_pending ..).trans h8
  · exact h8

/-! ### UPDATE -/

@[simp] theorem beatRead_pending (c addr fmt b : Nat) : (beatRead c addr fmt b s).pending = s.pending := by simp [beatRead]

@[simp] theorem updateEnd_pending (j : UpdJob) (st : List Lane × List Lane × Lane) (q : F16 × Lane × Bool) :
    (updateEnd j st q s).pending = s.pending := by
  simp [updateEnd]

@[simp] theorem updateNext_pending (k : Nat) (j : UpdJob) : (updateNext k j s).pending = s.pending := rfl

@[simp] theorem updateRun_pending (j : UpdJob) (k : Nat) : (updateRun j k s).pending = s.pending := by
  unfold updateRun
  extract_lets c b s1 j1 s2 st s3
  have h1 : s1.pending = s.pending := beatRead_pending ..
  have h2 : s2.pending = s.pending := (spRead_pending ..).trans h1
  have h3 : s3.pending = s.pending := (beatRead_pending ..).trans ((beatRead_pending ..).trans h1)
  split
  · exact h1
  split
  · exact h2
  split
  · exact h1
  split
  · exact h1
  split
  · exact h1
  split
  · exact h1
  dsimp only
  split <;> simp [h3]

/-! ### What lands on a tick -/

@[simp] theorem fetchLands_pending (key k a n start : Nat) (ue : Bool) : (fetchLands key k a n start ue s).pending = s.pending := by
  simp [fetchLands]

@[simp] theorem regWriteLands_pending (k mask v : Nat) : (regWriteLands k mask v s).pending = s.pending := by simp [regWriteLands]

@[simp] theorem forgeByte_pending (commit : Bool) : (forgeByte commit s).pending = s.pending := by unfold forgeByte; split <;> simp

@[simp] theorem landEffect_pending (e : Effect) : (landEffect e s).pending = s.pending := by unfold landEffect; split <;> simp

@[simp] theorem landAll_pending : (landAll s).pending = s.pending := by simp [landAll]

/-! ### A tick -/

@[simp] theorem hourMark_pending : (hourMark s).pending = s.pending := by
  unfold hourMark
  rw [each_pending, wear_pending]
  exact fun p s => by split <;> simp

@[simp] theorem aonCycle_pending : (aonCycle s).pending = s.pending := by simp [aonCycle]

@[simp] theorem refEdge_pending : (refEdge s).pending = s.pending := by simp [refEdge]

@[simp] theorem dropLoading_pending : (dropLoading s).pending = s.pending := by simp [dropLoading]

@[simp] theorem actPending_pending : (actPending s).pending = s.pending := by simp [actPending]

@[simp] theorem poisonStart_pending : (poisonStart s).pending = s.pending := by unfold poisonStart; split <;> simp

@[simp] theorem crystal_pending : (crystal s).pending = s.pending := rfl

@[simp] theorem tickStep_pending : (tickStep s).pending = s.pending := by simp [tickStep]

end

/-! ### Many ticks -/

theorem cycleRun_pending (n c : Nat) (s : State) : (cycleRun n c s).pending = s.pending := by
  induction n generalizing s with
  | zero => rfl
  | succ n ih =>
    rw [cycleRun]
    split
    · rw [ih, tickStep_pending]
    · rfl

theorem arrive_pending (s : State) : (arrive s).pending = s.pending := by
  unfold arrive
  split
  · rfl
  · exact cycleRun_pending ..

theorem withQueue_arrive (x : State) : withQueue x.pending (arrive x) = arrive x := by
  rw [← arrive_pending x]; rfl

end Sys2Proof.Machine
end

section
/-! PROOFS. Writes of the control window (R5 to R11, R36, R37): the word that a write leaves in a register, the selection registers, a word
written to any register, and the two obligations on the scope of the spec. -/
namespace Sys2Proof.Machine

/-! ### What comes by the crossbar -/

/-- A command of the crossbar acts on the state that its always-on cycle leaves. -/
theorem accessed_open {x : State} (hr : x.pwr.inReset = false) (f : State → State) :
    accessed f x = .next (withQueue x.pending (f (arrive x))) := by
  simp [accessed, served, crossbar, hr]

theorem OnlyReports.queued {s t : State} (h : OnlyReports s t) (q : List Instr) : OnlyReports s (withQueue q t) := by
  cases h
  constructor <;> assumption

/-! ### Refused accesses -/

/-- A refused access sets the sticky bit of its kind. -/
theorem fld_accFirst {s : State} (h : Canon s) {kind : Nat} (hk : kind - 1 < 32) (src : Source) (addr : Nat) :
    fld (accFirst kind src addr s) Reg.HLT_STICKY0 (kind - 1) (kind - 1) = 1 := by
  unfold accFirst
  refine fld_sticky ?_ _ hk
  split
  · exact (canon_wr h).regs
  · exact h.regs

/-- A command that the current state refuses only reports so. -/
theorem accState_reports {i : Instr} {f : State → State} {x : State} {src : Source} {addr : Nat} (hc : Canon x) (hr : x.pwr.inReset = false)
    (hx : exec i x = accessed f x) (hf : f (arrive x) = accState src addr (arrive x)) :
    ∃ t, exec i x = .next t ∧ OnlyReports (arrive x) t ∧ fld t Reg.HLT_STICKY0 2 2 = 1 := by
  have hs : Canon (arrive x) := canon_arrive hc
  refine ⟨_, hx.trans (accessed_open hr f), ?_, ?_⟩
  · rw [hf]
    exact (rep_accState (rep_self hs)).only.queued _
  · rw [hf]
    exact fld_accFirst hs (by decide) src addr

/-! ### The word that a write leaves (R7 to R11) -/

theorem masked_or_lt {x m v : Nat} (hx : x < 2 ^ 32) (hv : v < 2 ^ 32) : (x &&& (2 ^ 32 - 1 - m)) ||| (v &&& m) < 2 ^ 32 :=
  Nat.or_lt_two_pow (lt_of_le_of_lt Nat.and_le_left hx) (lt_of_le_of_lt Nat.and_le_left hv)

/-- A field whose bits the mask holds reads as the word written. -/
theorem bits_masked_or {x m v hi lo : Nat} (hm : m < 2 ^ 32) (hc : bits m hi lo = 2 ^ (hi + 1 - lo) - 1) :
    bits ((x &&& (2 ^ 32 - 1 - m)) ||| (v &&& m)) hi lo = bits v hi lo := by
  apply Nat.eq_of_testBit_eq
  intro i
  rw [testBit_bits, testBit_bits, Nat.testBit_or, Nat.testBit_and, Nat.testBit_and, Nat.sub_sub, Nat.add_comm 1 m,
    Nat.testBit_two_pow_sub_succ hm]
  by_cases hi' : i < hi + 1 - lo
  · have h1 : m.testBit (lo + i) = true := by
      have := testBit_bits m hi lo i
      rw [hc, Nat.testBit_two_pow_sub_one] at this
      simpa [hi'] using this.symm
    simp [h1]
  · simp [hi']

/-- The ranges of the word at address `a`. -/
def rangesAt (l : List (Nat × Nat × Nat × Nat × Nat × Nat)) (a : Nat) : List (Nat × Nat × Nat × Nat × Nat × Nat) :=
  l.filter fun r => decide (r.1 ≤ a ∧ a ≤ r.2.1)

section
variable {l : List (Nat × Nat × Nat × Nat × Nat × Nat)} {a : Nat}

theorem clampWord_eq (v : Nat) : clampWord l a v = (rangesAt l a).foldl (fun v r =>
    setBits v r.2.2.1 r.2.2.2.1 (max r.2.2.2.2.1 (min r.2.2.2.2.2 (bits v r.2.2.1 r.2.2.2.1)))) v := by
  rw [rangesAt, List.foldl_filter]
  simp only [clampWord, decide_eq_true_eq]

theorem clampWord_of_none (h : rangesAt l a = []) (v : Nat) : clampWord l a v = v := by
  rw [clampWord_eq, h]; rfl

theorem clampWord_of_one {a1 a2 hi lo mn mx : Nat} (h : rangesAt l a = [(a1, a2, hi, lo, mn, mx)]) (v : Nat) :
    clampWord l a v = setBits v hi lo (max mn (min mx (bits v hi lo))) := by
  rw [clampWord_eq, h]; rfl

theorem clampWord_lt (hl : ∀ r ∈ l, r.2.2.1 < 32) {v : Nat} (hv : v < 2 ^ 32) : clampWord l a v < 2 ^ 32 := by
  unfold clampWord
  induction l generalizing v with
  | nil => exact hv
  | cons r l ih =>
    refine ih (fun q hq => hl q (List.mem_cons_of_mem _ hq)) ?_
    dsimp only
    split
    · exact setBits_lt hv (hl r List.mem_cons_self)
    · exact hv

end

/-- What register `k` of row `r` holds once the sticky bits that a written `v` clears are clear (R8, R9). -/
def clearedWord (s : State) (k : Nat) (r : RegRow) (v : Nat) : Nat :=
  rd s k &&& (2 ^ 32 - 1 - (v &&& r.w1c &&& (2 ^ 32 - 1 - eventBits s k)))

/-- What a written `v` leaves in register `k` of row `r`, whose ranges stand in `l` at address `a` (R7 to R11). -/
def writtenWord (l : List (Nat × Nat × Nat × Nat × Nat × Nat)) (a : Nat) (s : State) (k : Nat) (r : RegRow) (v : Nat) : Nat :=
  clampWord l a ((clearedWord s k r v &&& (2 ^ 32 - 1 - r.rw)) ||| (v &&& r.rw))

section
variable {l : List (Nat × Nat × Nat × Nat × Nat × Nat)} {a k v : Nat} {r : RegRow} {s : State}

theorem clearedWord_lt : clearedWord s k r v < 2 ^ 32 := lt_of_le_of_lt Nat.and_le_left (rd_lt s k)

theorem writtenWord_lt (hl : ∀ r ∈ l, r.2.2.1 < 32) (hv : v < 2 ^ 32) : writtenWord l a s k r v < 2 ^ 32 :=
  clampWord_lt hl (masked_or_lt clearedWord_lt hv)

/-- A field without a range takes its bits of the word written. -/
theorem bits_writtenWord {hi lo : Nat} (hn : rangesAt l a = []) (hm : r.rw < 2 ^ 32) (hc : bits r.rw hi lo = 2 ^ (hi + 1 - lo) - 1) :
    bits (writtenWord l a s k r v) hi lo = bits v hi lo := by
  rw [writtenWord, clampWord_of_none hn, bits_masked_or hm hc]

/-- A field with a range takes the nearer limit of it (R11). -/
theorem bits_writtenWord_clamped {a1 a2 hi lo mn mx : Nat} (hn : rangesAt l a = [(a1, a2, hi, lo, mn, mx)]) (hm : r.rw < 2 ^ 32)
    (hc : bits r.rw hi lo = 2 ^ (hi + 1 - lo) - 1) (hx : max mn mx < 2 ^ (hi + 1 - lo)) :
    bits (writtenWord l a s k r v) hi lo = max mn (min mx (bits v hi lo)) := by
  rw [writtenWord, clampWord_of_one hn, bits_setBits, bits_masked_or hm hc, Nat.mod_eq_of_lt (by omega)]

/-- A field beside the one with a range takes its bits of the word written. -/
theorem bits_writtenWord_beside {a1 a2 hi lo hi' lo' mn mx : Nat} (hn : rangesAt l a = [(a1, a2, hi', lo', mn, mx)]) (hm : r.rw < 2 ^ 32)
    (hc : bits r.rw hi lo = 2 ^ (hi + 1 - lo) - 1) (hb : hi < lo' ∨ hi' < lo) :
    bits (writtenWord l a s k r v) hi lo = bits v hi lo := by
  rw [writtenWord, clampWord_of_one hn, bits_setBits_ne _ _ hb, bits_masked_or hm hc]

theorem putBits_at_once (h : (castingRuns s && driven k) = false) : putBits k r l a v s = wr k (writtenWord l a s k r v) s := by
  simp only [putBits, h, Bool.false_and, Bool.false_eq_true, if_false]
  rfl

/-- Where the running casting drives the register, the plain bits take the value on the next tick (R37). -/
theorem putBits_driven (h : (castingRuns s && driven k) = true) (hw : r.rw ≠ 0) :
    putBits k r l a v s = launch (now s + 1) (.regWrite k r.rw (writtenWord l a s k r v)) (wr k (clearedWord s k r v) s) := by
  have : (r.rw != 0) = true := by simpa using hw
  simp only [putBits, h, this, Bool.true_and, if_true]
  rfl

theorem putReg_of_row (h : findRow (rowsOf a) a = some r) : putReg a v s = putBits a r rangeRows a v s := by
  rw [putReg, h]

theorem putReg_of_no_row (h : findRow (rowsOf a) a = none) : putReg a v s = s := by
  rw [putReg, h]

theorem putCell_of_row {c off : Nat} (h : findRow rowsCell off = some r) :
    putCell c off v s = putBits (cellKey c off) r rangeRowsCell off v s := by
  rw [putCell, h]

end

/-! ### Selection registers -/

/-- Command `i` sets field [hi:lo] of register `k` to `y`; no other register changes, no memory, and not the step. -/
def SetsField (i : Instr) (x : State) (k hi lo y : Nat) : Prop :=
  ∃ t, exec i x = .next t ∧ fld t k hi lo = y ∧ (∀ j, j ≠ k → rd t j = rd (arrive x) j) ∧ t.cells = (arrive x).cells ∧
    t.dram = (arrive x).dram ∧ t.run = (arrive x).run

section
variable {i : Instr} {x : State} {r : RegRow} {hi lo y : Nat} {v : Word}

theorem setsField_of_wr {f : State → State} {k w : Nat} (hc : Canon x) (hr : x.pwr.inReset = false) (hx : exec i x = accessed f x)
    (hf : f (arrive x) = wr k w (arrive x)) (hw : w < 2 ^ 32) (hy : bits w hi lo = y) : SetsField i x k hi lo y := by
  have hs : wf regDefault (arrive x).regs = true := (canon_arrive hc).regs
  refine ⟨_, hx.trans (accessed_open hr f), ?_, ?_, ?_, ?_, ?_⟩ <;> rw [hf]
  · rw [fld_withQueue, fld_def, rd_wr hs, Nat.mod_eq_of_lt hw, hy]
  · exact fun j hj => rd_wr_ne hs _ hj
  all_goals rfl

/-- A selection register of the package. -/
theorem putReg_setsField {a : Nat} (hc : Canon x) (hr : x.pwr.inReset = false) (hx : exec i x = accessed (putReg a v.toNat) x)
    (hrow : findRow (rowsOf a) a = some r) (hd : driven a = false)
    (hy : ∀ s, bits (writtenWord rangeRows a s a r v.toNat) hi lo = y) : SetsField i x a hi lo y :=
  setsField_of_wr hc hr hx ((putReg_of_row hrow).trans (putBits_at_once (by rw [hd, Bool.and_false])))
    (writtenWord_lt (by decide) v.isLt) (hy _)

/-- A selection register of the package that is one field without a range. -/
theorem putReg_setsField_low {a : Nat} (hc : Canon x) (hr : x.pwr.inReset = false) (hx : exec i x = accessed (putReg a v.toNat) x)
    (hrow : findRow (rowsOf a) a = some ⟨a, a, 2 ^ (hi + 1) - 1, 0⟩) (hd : driven a = false) (hn : rangesAt rangeRows a = [])
    (hh : hi < 32) : SetsField i x a hi 0 (v.toNat % 2 ^ (hi + 1)) := by
  have hm : 2 ^ (hi + 1) - 1 < 2 ^ 32 :=
    lt_of_lt_of_le (Nat.sub_lt (Nat.two_pow_pos _) (by decide)) (Nat.pow_le_pow_right (by decide) hh)
  refine putReg_setsField hc hr hx hrow hd fun s => ?_
  rw [bits_writtenWord hn hm (by simp [bits])]
  simp [bits]

/-- A selection register of a cell that is awake, while no casting runs. -/
theorem cellSelect_setsField {src : Source} {die : Fin 4} {cell : Fin 256} {off : Nat} (hc : Canon x) (hr : x.pwr.inReset = false)
    (hx : exec i x = accessed (cellSelect src die cell off v) x) (hrow : findRow rowsCell off = some r)
    (hn : castingRuns (arrive x) = false) (ha : cellAsleep (arrive x) (phys (arrive x) die.val cell.val) = false)
    (hy : ∀ s k, bits (writtenWord rangeRowsCell off s k r v.toNat) hi lo = y) :
    SetsField i x (cellKey (phys (arrive x) die.val cell.val) off) hi lo y := by
  have hf : cellSelect src die cell off v (arrive x) = wr (cellKey (phys (arrive x) die.val cell.val) off)
      (writtenWord rangeRowsCell off (arrive x) (cellKey (phys (arrive x) die.val cell.val) off) r v.toNat) (arrive x) := by
    simp only [cellSelect, toCell, ha, whenOpen, hn, Bool.false_eq_true, if_false]
    exact (putCell_of_row hrow).trans (putBits_at_once (by rw [hn, Bool.false_and]))
  exact setsField_of_wr hc hr hx hf (writtenWord_lt (by decide) v.isLt) (hy _ _)

/-- While a casting runs the selection of a cell is refused (R37). -/
theorem cellSelect_refused {src : Source} {die : Fin 4} {cell : Fin 256} {off : Nat} (hc : Canon x) (hr : x.pwr.inReset = false)
    (hx : exec i x = accessed (cellSelect src die cell off v) x) (hn : castingRuns (arrive x) = true)
    (ha : cellAsleep (arrive x) (phys (arrive x) die.val cell.val) = false) :
    ∃ t, exec i x = .next t ∧ OnlyReports (arrive x) t ∧ fld t Reg.HLT_STICKY0 2 2 = 1 := by
  refine accState_reports (src := src) (addr := cellAddr die.val cell.val off) hc hr hx ?_
  simp only [cellSelect, toCell, ha, whenOpen, hn, Bool.false_eq_true, if_false, if_true]

end

/-! ### A whole word written to a register -/

/-- Registers a write of which does more than take the value, apart from the selected entries and queue pairs (R36). -/
def specialRegs : List Nat :=
  [Reg.SCH_CTRL, Reg.CAL_CTRL, Reg.NVS_CTRL, Reg.ING_CTRL, Reg.MEM_CTRL, Reg.FAB_CTRL, Reg.HST_CTRL, Reg.TSM_CTRL, Reg.MGT_CTRL, Reg.SPR_CTRL,
   Reg.ING_HOST_ACK, Reg.HST_OWNER, Reg.NVS_MIN_SVN, Reg.CAL_TRIM, Reg.TSM_URGENT, Reg.TSM_CH_WIN, Reg.PWR_VCORE, Reg.PWR_RTC_HI,
   Reg.PWR_ALARM_HI, Reg.PWR_STRETCH, Reg.PWR_PLIM, Reg.PWR_ILIM, Reg.PWR_STICKY, Reg.SPR_CMAP, Reg.SPR_COLMAP, Reg.SPR_ARRAY,
   Reg.TSM_STICKY, Reg.MEM_STICKY, Reg.HLT_STICKY0, Reg.SPR_STICKY]

section
variable {src : Source} {a v : Nat} {s : State}

theorem pkgWrite_of_not_special (h : a ∉ specialRegs) : pkgWrite src a v s =
    if Reg.HST_QP_CTX0 ≤ a ∧ a ≤ Reg.HST_QP_CTX7 then qpCtxWrite ((a - Reg.HST_QP_CTX0) / 4) v s
    else if isEntry a then entryWrite a v s else putReg a v s := by
  simp only [specialRegs, List.mem_cons, List.not_mem_nil, or_false, not_or] at h
  simp only [pkgWrite, pkgFreed, h, if_false, false_or, false_and]

theorem specialRegs_have_rows : ∀ a ∈ specialRegs, (findRow (rowsOf a) a).isSome = true := by decide

theorem qpCtx_have_rows : ∀ i < 8, (findRow (rowsOf (Reg.HST_QP_CTX0 + 4 * i)) (Reg.HST_QP_CTX0 + 4 * i)).isSome = true := by decide

theorem entryWrite_of_no_row (h : findRow (rowsOf a) a = none) : entryWrite a v s = s := by
  unfold entryWrite
  rw [h]
  cases entryKey s a <;> rfl

/-- An offset without a register keeps nothing (R5). -/
theorem pkgWrite_of_no_row (ha : a % 4 = 0) (h : findRow (rowsOf a) a = none) : pkgWrite src a v s = s := by
  have hs : a ∉ specialRegs := fun hm => by simpa [h] using specialRegs_have_rows a hm
  rw [pkgWrite_of_not_special hs, if_neg]
  · split
    · exact entryWrite_of_no_row h
    · exact putReg_of_no_row h
  · rintro ⟨h0, h7⟩
    simp only [Reg.HST_QP_CTX0, Reg.HST_QP_CTX7] at h0 h7
    have := qpCtx_have_rows ((a - Reg.HST_QP_CTX0) / 4) (by simp only [Reg.HST_QP_CTX0]; omega)
    rw [show Reg.HST_QP_CTX0 + 4 * ((a - Reg.HST_QP_CTX0) / 4) = a by simp only [Reg.HST_QP_CTX0]; omega, h] at this
    cases this

theorem ctlWriteWord_open (hw : cellWindow s a = none) (hl : locked a = false) : ctlWriteWord src a v s = pkgWrite src a v s := by
  simp only [ctlWriteWord, hw, hl, Bool.false_and, Bool.false_eq_true, if_false]

theorem ctlWriteWord_locked (hw : cellWindow s a = none) (hl : locked a = true) (hr : castingRuns s = true) :
    ctlWriteWord src a v s = accState src a s := by
  simp only [ctlWriteWord, hw, hl, hr, Bool.and_true, if_true]

theorem ctlWrite_word (ha : a % 4 = 0) : ctlWrite src a v 4 s = ctlWriteWord src a v s := by
  rw [ctlWrite, if_pos ⟨ha, rfl⟩]

end

/-- The registers of `RegistersTakeWrites`, which take a word and do no more. -/
def plainRegs : List Nat :=
  [Reg.MEM_SCRUB, Reg.MEM_ARB_WINDOW, Reg.MEM_ARB_HOLD, Reg.MEM_THERM, Reg.MEM_ARB_WEIGHT, Reg.CAL_DELTA, Reg.CAL_INTERVAL,
   Reg.HLT_RISK_W, Reg.HLT_RISK_CFG, Reg.HLT_AREC_CFG, Reg.HLT_JRNL_CFG, Reg.ING_POLICY, Reg.ING_MARGIN, Reg.PWR_TJ, Reg.PWR_WAKE_CFG,
   Reg.TSM_PLAUS, Reg.HST_CC, Reg.SPR_REQ, Reg.FAB_STICKY, Reg.CAL_STICKY, Reg.ING_STICKY, Reg.HST_STICKY, Reg.MGT_STICKY]

theorem plainRegs_not_special : ∀ a ∈ plainRegs, a ∉ specialRegs ∧ ¬ (Reg.HST_QP_CTX0 ≤ a ∧ a ≤ Reg.HST_QP_CTX7) ∧ isEntry a = false := by
  decide

theorem plainRegs_address : ∀ a ∈ plainRegs, a % 4 = 0 ∧ locked a = false ∧ a < 0x10000000 ∧ (a < 0x54000 ∨ 0x5E000 ≤ a) := by decide

theorem plainRegs_driven_rw : ∀ a ∈ plainRegs, driven a = true → ∀ r ∈ findRow (rowsOf a) a, r.rw ≠ 0 := by decide

theorem cellWindow_of_package {s : State} {a : Nat} (h : a < 0x10000000) (h' : a < 0x54000 ∨ 0x5E000 ≤ a) : cellWindow s a = none := by
  rw [cellWindow, if_neg (by omega), if_neg (by omega)]

theorem ctlWrite_plain {a : Nat} (h : a ∈ plainRegs) (src : Source) (v : Nat) (s : State) : ctlWrite src a v 4 s = putReg a v s := by
  obtain ⟨ha, hl, hp, hc⟩ := plainRegs_address a h
  obtain ⟨hs, hq, he⟩ := plainRegs_not_special a h
  rw [ctlWrite_word ha, ctlWriteWord_open (cellWindow_of_package hp hc) hl, pkgWrite_of_not_special hs, if_neg hq, he]
  rfl

/-! ### What REGISTER_WRITE does -/

section
variable {src : Source} {addr : BitVec 32} {v : Word} {x : State}

theorem registerWrite_next (hr : x.pwr.inReset = false) (size : Fin 5) : exec (.registerWrite src addr v size) x =
    .next (withQueue x.pending (ctlWrite src addr.toNat v.toNat size.val (arrive x))) :=
  accessed_open hr (execRegisterWrite src addr v size)

/-- A plain register takes the word at once, or on the next tick where the running casting drives it (R7 to R11, R37). -/
theorem registerWrite_plain (hc : Canon x) (hr : x.pwr.inReset = false) {a : Nat} (ha : addr.toNat = a) (hm : a ∈ plainRegs) {r : RegRow}
    (hrow : findRow (rowsOf a) a = some r) :
    ∃ t, exec (.registerWrite src addr v 4) x = .next t ∧
      rd t a = (if castingRuns (arrive x) && driven a then clearedWord (arrive x) a r v.toNat
        else writtenWord rangeRows a (arrive x) a r v.toNat) ∧
      t.flights = (if castingRuns (arrive x) && driven a then
        (arrive x).flights ++ [⟨now (arrive x) + 1, .regWrite a r.rw (writtenWord rangeRows a (arrive x) a r v.toNat)⟩]
        else (arrive x).flights) ∧
      (∀ k, k ≠ a → rd t k = rd (arrive x) k) ∧ t.cells = (arrive x).cells ∧ t.dram = (arrive x).dram ∧ t.run = (arrive x).run ∧
      t.out = (arrive x).out := by
  have hs : wf regDefault (arrive x).regs = true := (canon_arrive hc).regs
  refine ⟨_, registerWrite_next hr 4, ?_⟩
  rw [ha, show (4 : Fin 5).val = 4 from rfl, ctlWrite_plain hm, putReg_of_row hrow]
  by_cases hd : (castingRuns (arrive x) && driven a) = true
  · have hw : r.rw ≠ 0 := plainRegs_driven_rw a hm (Bool.and_eq_true _ _ ▸ hd).2 r hrow
    rw [putBits_driven hd hw, if_pos hd, if_pos hd]
    exact ⟨(rd_wr hs a _).trans (Nat.mod_eq_of_lt clearedWord_lt), rfl, fun k hk => rd_wr_ne hs _ hk, rfl, rfl, rfl, rfl⟩
  · rw [putBits_at_once (Bool.eq_false_iff.2 hd), if_neg hd, if_neg hd]
    exact ⟨(rd_wr hs a _).trans (Nat.mod_eq_of_lt (writtenWord_lt (by decide) v.isLt)), rfl, fun k hk => rd_wr_ne hs _ hk, rfl, rfl, rfl, rfl⟩

/-- A write at an offset without a register leaves the state that its always-on cycle leaves (R5). -/
theorem registerWrite_no_row (hr : x.pwr.inReset = false) (ha : addr.toNat % 4 = 0) (hw : cellWindow (arrive x) addr.toNat = none)
    (hl : locked addr.toNat = false) (hn : findRow (rowsOf addr.toNat) addr.toNat = none) :
    exec (.registerWrite src addr v 4) x = .next (arrive x) := by
  rw [registerWrite_next hr, show (4 : Fin 5).val = 4 from rfl, ctlWrite_word ha, ctlWriteWord_open hw hl, pkgWrite_of_no_row ha hn,
    withQueue_arrive]

/-- A locked register keeps its value while a casting runs (R37). -/
theorem registerWrite_locked (hc : Canon x) (hr : x.pwr.inReset = false) (ha : addr.toNat % 4 = 0)
    (hw : cellWindow (arrive x) addr.toNat = none) (hl : locked addr.toNat = true) (hn : castingRuns (arrive x) = true) :
    ∃ t, exec (.registerWrite src addr v 4) x = .next t ∧ OnlyReports (arrive x) t ∧ fld t Reg.HLT_STICKY0 2 2 = 1 :=
  accState_reports (f := execRegisterWrite src addr v 4) hc hr rfl ((ctlWrite_word ha).trans (ctlWriteWord_locked hw hl hn))

end

/-! ### A write that is not a whole word (R6) -/

/-- A write of `size` bytes at `a` meets the register at `y`: where it covers a part of it the write is refused for its size. -/
def meetPart (src : Source) (a size y : Nat) (s : State) : State :=
  if y < a + size ∧ size ≠ 0 then (if holdsReg s y then accFirst 1 src y s else s) else s

section
variable {src : Source} {a v size y : Nat} {s z : State}

theorem ctlWrite_part (h : ¬ (a % 4 = 0 ∧ size = 4)) :
    ctlWrite src a v size s = meetPart src a size (a / 4 * 4 + 4) (meetPart src a size (a / 4 * 4) s) := by
  rw [ctlWrite, if_neg h]
  rfl

theorem canon_meetPart (h : Canon s) : Canon (meetPart src a size y s) := canon_ite (canon_ite (canon_accFirst h) h) h

theorem rep_meetPart (h : Rep z s) : Rep z (meetPart src a size y s) := by
  unfold meetPart
  split
  · split
    · exact rep_accFirst h
    · exact h
  · exact h

theorem fld_meetPart (h : Canon s) (hy : y < a + size) (hz : size ≠ 0) (hh : holdsReg s y = true) :
    fld (meetPart src a size y s) Reg.HLT_STICKY0 0 0 = 1 := by
  rw [meetPart, if_pos ⟨hy, hz⟩, if_pos hh]
  exact fld_accFirst h (by decide) src y

theorem fld_meetPart_keeps (h : Canon s) (hb : fld s Reg.HLT_STICKY0 0 0 = 1) :
    fld (meetPart src a size y s) Reg.HLT_STICKY0 0 0 = 1 := by
  unfold meetPart
  split
  · split
    · exact fld_accFirst h (by decide) src y
    · exact hb
  · exact hb

end

/-- A register covered in part keeps its value, and the refusal is recorded. -/
theorem registerWrite_part {src : Source} {addr : BitVec 32} {v : Word} {x : State} (hc : Canon x) (hr : x.pwr.inReset = false)
    {size : Fin 5} (h : size ≠ 4 ∨ addr.toNat % 4 ≠ 0) :
    ∃ t, exec (.registerWrite src addr v size) x = .next t ∧ OnlyReports (arrive x) t ∧
      (holdsReg (arrive x) (addr.toNat / 4 * 4) = true → size ≠ 0 → fld t Reg.HLT_STICKY0 0 0 = 1) := by
  have hs : Canon (arrive x) := canon_arrive hc
  have hp : ¬ (addr.toNat % 4 = 0 ∧ size.val = 4) := fun ⟨h1, h2⟩ => h.elim (fun h => h (Fin.ext h2)) (fun h => h h1)
  refine ⟨_, registerWrite_next hr size, ?_, ?_⟩
  · rw [ctlWrite_part hp]
    exact (rep_meetPart (rep_meetPart (rep_self hs))).only.queued _
  · intro hh hz
    have hz' : size.val ≠ 0 := fun e => hz (Fin.ext e)
    rw [ctlWrite_part hp]
    exact fld_meetPart_keeps (canon_meetPart hs) (fld_meetPart hs (by omega) hz' hh)

/-! ### A register write that lands (R37) -/

theorem regWrite_lands {k mask v : Nat} {s : State} (h : Canon s) (hk : k ≠ Reg.PWR_STRETCH) (hv : v < 2 ^ 32) :
    let t := landEffect (.regWrite k mask v) s
    rd t k = ((rd s k &&& (2 ^ 32 - 1 - mask)) ||| (v &&& mask)) ∧ (∀ j, j ≠ k → rd t j = rd s j) ∧ t.cells = s.cells ∧ t.dram = s.dram := by
  have ht : landEffect (.regWrite k mask v) s = wr k ((rd s k &&& (2 ^ 32 - 1 - mask)) ||| (v &&& mask)) s := by
    rw [landEffect, regWriteLands, if_neg hk]
  rw [ht]
  exact ⟨(rd_wr h.regs k _).trans (Nat.mod_eq_of_lt (masked_or_lt (rd_lt s k) hv)), fun j hj => rd_wr_ne h.regs _ hj, rfl, rfl⟩

/-! ### The two obligations -/

/-- Settles O4: the state after a reset holds empty memories and an empty queue. -/
theorem resetCanonical : Obligations.ResetCanonical := by
  unfold Obligations.ResetCanonical
  exact ⟨by decide, rfl⟩

section
variable {src : Source} {v : Word} {x : State}

/-- The selection registers of the package. -/
theorem package_selections (hc : Canon x) (hr : x.pwr.inReset = false) :
    let n := v.toNat
    SetsField (.hstSelectionWrite src 0 v) x Reg.HST_MR_SEL 7 0 (max 1 (n % 256)) ∧
    SetsField (.hstSelectionWrite src 1 v) x Reg.HST_QP_SEL 12 0 (n % 8192) ∧
    SetsField (.hstSelectionWrite src 2 v) x Reg.HST_PEER_SEL 3 0 (n % 16) ∧
    SetsField (.sprSelectionWrite src 0 v) x Reg.SPR_SEL 2 0 (n % 8) ∧
    SetsField (.sprSelectionWrite src 1 v) x Reg.SPR_CMAP_SEL 9 0 (n % 1024) ∧
    SetsField (.sprSelectionWrite src 2 v) x Reg.SPR_COLMAP_SEL 23 0 (n % 2 ^ 24) ∧
    SetsField (.sprSelectionWrite src 3 v) x Reg.SPR_WEAR_SEL 18 0 (n % 2 ^ 19) ∧
    SetsField (.sprSelectionWrite src 4 v) x Reg.SPR_PCELL_SEL 10 2 (min 271 (n / 4 % 512)) ∧
    SetsField (.fabPortSelWrite src v) x Reg.FAB_PORT_SEL 5 0 (n % 64) ∧
    SetsField (.tsmSelWrite src v) x Reg.TSM_SEL 8 0 (n % 512) ∧
    SetsField (.pwrPmbSelWrite src v) x Reg.PWR_PMB_SEL 5 0 (n % 64) := by
  refine ⟨?mr, ?_, ?_, ?_, ?_, ?_, ?_, ?pcell, ?_, ?_, ?_⟩
  case mr =>
    refine putReg_setsField hc hr rfl (r := ⟨0xA0040, 0xA0040, 0xFF, 0⟩) (by decide) (by decide) fun s => ?_
    rw [bits_writtenWord_clamped (mn := 1) (mx := 255) rfl (by decide) (by decide) (by decide)]
    simp only [bits, Nat.shiftRight_zero]
    omega
  case pcell =>
    refine putReg_setsField hc hr rfl (r := ⟨0x50200, 0x50200, 0x7FF, 0⟩) (by decide) (by decide) fun s => ?_
    rw [bits_writtenWord_clamped (mn := 0) (mx := 271) rfl (by decide) (by decide) (by decide)]
    simp only [bits, Nat.shiftRight_eq_div_pow]
    omega
  all_goals exact putReg_setsField_low hc hr rfl (by decide) (by decide) (by decide) (by decide)

/-- The selection registers of a cell that is awake, while no casting runs. -/
theorem cell_selections {die : Fin 4} {cell : Fin 256} (hc : Canon x) (hr : x.pwr.inReset = false) (hn : castingRuns (arrive x) = false)
    (ha : cellAsleep (arrive x) (phys (arrive x) die.val cell.val) = false) :
    let n := v.toNat
    let c := phys (arrive x) die.val cell.val
    SetsField (.arrPeekSelWrite src die cell v) x (cellKey c Reg.ARR_PEEK_SEL) 14 6 (min 267 (n / 64 % 512)) ∧
    SetsField (.arrPeekSelWrite src die cell v) x (cellKey c Reg.ARR_PEEK_SEL) 5 0 (n % 64) ∧
    SetsField (.accPeekSelWrite src die cell v) x (cellKey c Reg.ACC_PEEK_SEL) 14 0 (n % 2 ^ 15) ∧
    SetsField (.anvPeekSelWrite src die cell v) x (cellKey c Reg.ANV_PEEK_SEL) 12 0 (n % 2 ^ 13) ∧
    SetsField (.burTabSelWrite src die cell v) x (cellKey c Reg.BUR_TAB_SEL) 4 0 (n % 32) ∧
    SetsField (.burTabSelWrite src die cell v) x (cellKey c Reg.BUR_TAB_SEL) 14 5 (min 543 (n / 32 % 1024)) := by
  have arr : findRow rowsCell Reg.ARR_PEEK_SEL = some ⟨0x200, 0x200, 0xFFFFF, 0⟩ := by decide
  have bur : findRow rowsCell Reg.BUR_TAB_SEL = some ⟨0x6300, 0x6300, 0x7FFF, 0⟩ := by decide
  refine ⟨cellSelect_setsField hc hr rfl arr hn ha fun s k => ?_, cellSelect_setsField hc hr rfl arr hn ha fun s k => ?_,
    cellSelect_setsField hc hr rfl (r := ⟨0x2100, 0x2100, 0x7FFF, 0⟩) (by decide) hn ha fun s k => ?_,
    cellSelect_setsField hc hr rfl (r := ⟨0x4200, 0x4200, 0x1FFF, 0⟩) (by decide) hn ha fun s k => ?_,
    cellSelect_setsField hc hr rfl bur hn ha fun s k => ?_, cellSelect_setsField hc hr rfl bur hn ha fun s k => ?_⟩
  · rw [bits_writtenWord_clamped (mn := 0) (mx := 267) rfl (by decide) (by decide) (by decide)]
    simp only [bits, Nat.shiftRight_eq_div_pow]
    omega
  · rw [bits_writtenWord_beside rfl (by decide) (by decide) (.inl (by decide))]
    rfl
  · rw [bits_writtenWord (by decide) (by decide) (by decide)]
    rfl
  · rw [bits_writtenWord (by decide) (by decide) (by decide)]
    rfl
  · rw [bits_writtenWord_beside rfl (by decide) (by decide) (.inl (by decide))]
    rfl
  · rw [bits_writtenWord_clamped (mn := 0) (mx := 543) rfl (by decide) (by decide) (by decide)]
    simp only [bits, Nat.shiftRight_eq_div_pow]
    omega

/-- While a casting runs every selection of a cell that is awake is refused. -/
theorem cell_selections_refused {die : Fin 4} {cell : Fin 256} (hc : Canon x) (hr : x.pwr.inReset = false)
    (hn : castingRuns (arrive x) = true) (ha : cellAsleep (arrive x) (phys (arrive x) die.val cell.val) = false) {i : Instr}
    (hi : i = .arrPeekSelWrite src die cell v ∨ i = .accPeekSelWrite src die cell v ∨ i = .anvPeekSelWrite src die cell v ∨
      i = .burTabSelWrite src die cell v) :
    ∃ t, exec i x = .next t ∧ OnlyReports (arrive x) t ∧ fld t Reg.HLT_STICKY0 2 2 = 1 := by
  obtain rfl | rfl | rfl | rfl := hi
  · exact cellSelect_refused (off := Reg.ARR_PEEK_SEL) hc hr rfl hn ha
  · exact cellSelect_refused (off := Reg.ACC_PEEK_SEL) hc hr rfl hn ha
  · exact cellSelect_refused (off := Reg.ANV_PEEK_SEL) hc hr rfl hn ha
  · exact cellSelect_refused (off := Reg.BUR_TAB_SEL) hc hr rfl hn ha

end

/-- Settles O42: each write is one put of a word under its key after the always-on cycle has run out, or a report of the refusal. -/
theorem registersTakeWrites : Obligations.RegistersTakeWrites := by
  unfold Obligations.RegistersTakeWrites
  refine ⟨?selections, ?words, fun k mask v s h hk _ hv => regWrite_lands (canon_iff.1 h) hk hv⟩
  case selections =>
    intro src v die cell x h hr s c n takes
    have hc : Canon x := canon_iff.1 h
    obtain ⟨mr, qp, peer, spr, cmap, colmap, wear, pcell, port, tsm, pmb⟩ := package_selections (src := src) (v := v) hc hr
    exact ⟨mr, qp, peer, spr, cmap, colmap, wear, pcell, port, tsm, pmb, cell_selections hc hr,
      fun hn ha i hi => cell_selections_refused hc hr hn ha hi⟩
  case words =>
    intro src addr v x h hr s a cleared new
    have hc : Canon x := canon_iff.1 h
    exact ⟨fun r hm hrow => registerWrite_plain hc hr rfl hm hrow, registerWrite_no_row hr, registerWrite_locked hc hr,
      fun size hp => registerWrite_part hc hr hp⟩

end Sys2Proof.Machine
end

section
/-! PROOFS. A step keeps the canonical form of every memory: the effect of each command keeps it, served at once or by the crossbar. -/
namespace Sys2Proof.Machine

/-- The outcome is a next state, and its memories are in canonical form. -/
def NextCanon (o : Host.Outcome State Fault Refusal) : Prop := ∃ t, o = .next t ∧ Canon t

theorem served_keeps_canon {f : State → State} (hf : ∀ s, Canon s → Canon (f s)) {s : State} (h : Canon s) : NextCanon (served f s) :=
  ⟨_, rfl, canon_withQueue (hf s h)⟩

theorem accessed_keeps_canon {f : State → State} (hf : ∀ s, Canon s → Canon (f s)) {s : State} (h : Canon s) : NextCanon (accessed f s) :=
  served_keeps_canon (fun _ hs => canon_crossbar hf hs) h

theorem exec_keeps_canon (i : Instr) {s : State} (h : Canon s) : NextCanon (exec i s) := by
  cases i with
  | hold head w => exact served_keeps_canon (fun _ => canon_execHold) h
  | eval w => exact served_keeps_canon (fun _ => canon_execEval) h
  | eval8 w => exact served_keeps_canon (fun _ => canon_execEval8) h
  | assay w => exact served_keeps_canon (fun _ => canon_execAssay) h
  | write w => exact served_keeps_canon (fun _ => canon_execWrite) h
  | sweep w => exact served_keeps_canon (fun _ => canon_execSweep) h
  | replay w => exact served_keeps_canon (fun _ => canon_execReplay) h
  | clear w => exact served_keeps_canon (fun _ => canon_execClear) h
  | preload w => exact served_keeps_canon (fun _ => canon_execPreload) h
  | drain w => exact served_keeps_canon (fun _ => canon_execDrain) h
  | drainclr w => exact served_keeps_canon (fun _ => canon_execDrainclr) h
  | stage w => exact served_keeps_canon (fun _ => canon_execStage) h
  | gemm w => exact served_keeps_canon (fun _ => canon_execGemm) h
  | gemmacc w => exact served_keeps_canon (fun _ => canon_execGemmacc) h
  | chain w => exact served_keeps_canon (fun _ => canon_execChain) h
  | permute w => exact served_keeps_canon (fun _ => canon_execPermute) h
  | gather w => exact served_keeps_canon (fun _ => canon_execGather) h
  | reduce w => exact served_keeps_canon (fun _ => canon_execReduce) h
  | softmax w => exact served_keeps_canon (fun _ => canon_execSoftmax) h
  | update w => exact served_keeps_canon (fun _ => canon_execUpdate) h
  | copy w => exact served_keeps_canon (fun _ => canon_execCopy) h
  | load w => exact served_keeps_canon (fun _ => canon_execLoad) h
  | movStore w => exact served_keeps_canon (fun _ => canon_execMovStore) h
  | bridge w => exact served_keeps_canon (fun _ => canon_execBridge) h
  | capture w => exact served_keeps_canon (fun _ => canon_execCapture) h
  | send w => exact served_keeps_canon (fun _ => canon_execSend) h
  | recv w flits => exact served_keeps_canon (fun _ => canon_execRecv) h
  | relay w flits => exact served_keeps_canon (fun _ => canon_execRelay) h
  | barrier w => exact served_keeps_canon (fun _ => canon_execBarrier) h
  | castingLoad src => exact accessed_keeps_canon (fun _ => canon_execCastingLoad) h
  | castingLoadComplete => exact served_keeps_canon (fun _ => canon_execCastingLoadComplete) h
  | arm src => exact accessed_keeps_canon (fun _ => canon_execArm) h
  | halt src => exact accessed_keeps_canon (fun _ => canon_execHalt) h
  | loadWindow => exact served_keeps_canon (fun _ => canon_execLoadWindow) h
  | vetoResult others => exact served_keeps_canon (fun _ => canon_execVetoResult) h
  | commitResult others => exact served_keeps_canon (fun _ => canon_execCommitResult) h
  | stepPeriodEnd => exact served_keeps_canon (fun _ => canon_execStepPeriodEnd) h
  | stepRecordComplete buf => exact served_keeps_canon (fun _ => canon_execStepRecordComplete) h
  | hallmarkVerdict unit place written upset => exact served_keeps_canon (fun _ => canon_execHallmarkVerdict) h
  | wake die cell at_ => exact served_keeps_canon (fun _ => canon_execWake) h
  | cellInRun die cell => exact served_keeps_canon (fun _ => canon_execCellInRun) h
  | doze die cell at_ => exact served_keeps_canon (fun _ => canon_execDoze) h
  | dozeComplete die cell => exact served_keeps_canon (fun _ => canon_execDozeComplete) h
  | dieUp die at_ => exact served_keeps_canon (fun _ => canon_execDieUp) h
  | dieRest die at_ => exact served_keeps_canon (fun _ => canon_execDieRest) h
  | dieAutoUp => exact served_keeps_canon (fun _ => canon_execDieAutoUp) h
  | sliceHandoff die cell array passed => exact served_keeps_canon (fun _ => canon_execSliceHandoff) h
  | writeVerdict die cell array => exact served_keeps_canon (fun _ => canon_execWriteVerdict) h
  | sweepVerdict die cell array => exact served_keeps_canon (fun _ => canon_execSweepVerdict) h
  | trimSetInForce die cell array => exact served_keeps_canon (fun _ => canon_execTrimSetInForce) h
  | arbitrationPoint stack pc slot reqs => exact served_keeps_canon (fun _ => canon_execArbitrationPoint) h
  | bankRefreshDue stack pc bank => exact served_keeps_canon (fun _ => canon_execBankRefreshDue) h
  | forcedRefresh stack pc bank slot => exact served_keeps_canon (fun _ => canon_execForcedRefresh) h
  | scrub line => exact served_keeps_canon (fun _ => canon_execScrub) h
  | stackTempReadout temps => exact served_keeps_canon (fun _ => canon_execStackTempReadout) h
  | slotTag port tag news => exact served_keeps_canon (fun _ => canon_execSlotTag) h
  | uncorrectableCodeword phys scheduled parcel => exact served_keeps_canon (fun _ => canon_execUncorrectableCodeword) h
  | beacon phys flit => exact served_keeps_canon (fun _ => canon_execBeacon) h
  | beaconTimer phys => exact served_keeps_canon (fun _ => canon_execBeaconTimer) h
  | lock phys sent echo offset => exact served_keeps_canon (fun _ => canon_execLock) h
  | mark forge window veto commit freed => exact served_keeps_canon (fun _ => canon_execMark) h
  | lane phys lane count ack => exact served_keeps_canon (fun _ => canon_execLane) h
  | laneDegraded phys lane dark => exact served_keeps_canon (fun _ => canon_execLaneDegraded) h
  | laneSwap phys => exact served_keeps_canon (fun _ => canon_execLaneSwap) h
  | holdFlit phys status fault release => exact served_keeps_canon (fun _ => canon_execHoldFlit) h
  | holdRelease => exact served_keeps_canon (fun _ => canon_execHoldRelease) h
  | dim phys => exact served_keeps_canon (fun _ => canon_execDim) h
  | credit phys n => exact served_keeps_canon (fun _ => canon_execCredit) h
  | lossOfLight phys => exact served_keeps_canon (fun _ => canon_execLossOfLight) h
  | portTraining phys => exact served_keeps_canon (fun _ => canon_execPortTraining) h
  | trainingStageEnd phys ok => exact served_keeps_canon (fun _ => canon_execTrainingStageEnd) h
  | trainingRetry phys => exact served_keeps_canon (fun _ => canon_execTrainingRetry) h
  | stretchBoundary => exact served_keeps_canon (fun _ => canon_execStretchBoundary) h
  | stretchHalfway => exact served_keeps_canon (fun _ => canon_execStretchHalfway) h
  | windowBoundary => exact served_keeps_canon (fun _ => canon_execWindowBoundary) h
  | parcel phys p bad => exact served_keeps_canon (fun _ => canon_execParcel) h
  | data p => exact served_keeps_canon (fun _ => canon_execData) h
  | ack p => exact served_keeps_canon (fun _ => canon_execAck) h
  | call p => exact served_keeps_canon (fun _ => canon_execCall) h
  | take p => exact served_keeps_canon (fun _ => canon_execTake) h
  | fetch p => exact served_keeps_canon (fun _ => canon_execFetch) h
  | mouldComplete => exact served_keeps_canon (fun _ => canon_execMouldComplete) h
  | buddyTimeout => exact served_keeps_canon (fun _ => canon_execBuddyTimeout) h
  | buddyAckTimer => exact served_keeps_canon (fun _ => canon_execBuddyAckTimer) h
  | ingotAgeCall => exact served_keeps_canon (fun _ => canon_execIngotAgeCall) h
  | ingotOverdue => exact served_keeps_canon (fun _ => canon_execIngotOverdue) h
  | callRepeat => exact served_keeps_canon (fun _ => canon_execCallRepeat) h
  | takeRepeat => exact served_keeps_canon (fun _ => canon_execTakeRepeat) h
  | ingCall src => exact accessed_keeps_canon (fun _ => canon_execIngCall) h
  | ingRestore src => exact accessed_keeps_canon (fun _ => canon_execIngRestore) h
  | ingFetch src => exact accessed_keeps_canon (fun _ => canon_execIngFetch) h
  | ingAbandon src => exact accessed_keeps_canon (fun _ => canon_execIngAbandon) h
  | purge src => exact accessed_keeps_canon (fun _ => canon_execPurge) h
  | ingHostAck src serial => exact accessed_keeps_canon (fun _ => canon_execIngHostAck) h
  | tallyRead msg => exact served_keeps_canon (fun _ => canon_execTallyRead) h
  | tallyWrite msg => exact served_keeps_canon (fun _ => canon_execTallyWrite) h
  | wakeFrame addr => exact served_keeps_canon (fun _ => canon_execWakeFrame) h
  | dwiWake addr => exact served_keeps_canon (fun _ => canon_execDwiWake) h
  | dwiRead addr offset => exact served_keeps_canon (fun _ => canon_execDwiRead) h
  | dwiTimeout => exact served_keeps_canon (fun _ => canon_execDwiTimeout) h
  | arpRequest arrival target sender => exact served_keeps_canon (fun _ => canon_execArpRequest) h
  | neighbourSolicitation arrival target sender => exact served_keeps_canon (fun _ => canon_execNeighbourSolicitation) h
  | icmpEchoRequest arrival v6 target payload => exact served_keeps_canon (fun _ => canon_execIcmpEchoRequest) h
  | frameDiscard port unsup qp psn => exact served_keeps_canon (fun _ => canon_execFrameDiscard) h
  | mailboxSend qp psn ce payload => exact served_keeps_canon (fun _ => canon_execMailboxSend) h
  | rdmaWrite qp psn ce rkey va payload => exact served_keeps_canon (fun _ => canon_execRdmaWrite) h
  | rdmaReadRequest qp psn ce rkey va len => exact served_keeps_canon (fun _ => canon_execRdmaReadRequest) h
  | acknowledge qp psn syndrome => exact served_keeps_canon (fun _ => canon_execAcknowledge) h
  | congestionNotification qp => exact served_keeps_canon (fun _ => canon_execCongestionNotification) h
  | retransmitTimeout qp => exact served_keeps_canon (fun _ => canon_execRetransmitTimeout) h
  | ackCoalesceTimer qp => exact served_keeps_canon (fun _ => canon_execAckCoalesceTimer) h
  | rateIncreaseTimer qp => exact served_keeps_canon (fun _ => canon_execRateIncreaseTimer) h
  | nop => exact served_keeps_canon (fun _ => canon_execNop) h
  | sregWrite => exact served_keeps_canon (fun _ => canon_execSregWrite) h
  | sregRead => exact served_keeps_canon (fun _ => canon_execSregRead) h
  | hstMboxProdWrite src v => exact accessed_keeps_canon (fun _ => canon_execHstMboxProdWrite) h
  | hstOwnerWrite src v => exact accessed_keeps_canon (fun _ => canon_execHstOwnerWrite) h
  | qpStateWrite src v => exact accessed_keeps_canon (fun _ => canon_execQpStateWrite) h
  | hstSelectionWrite src which v => exact accessed_keeps_canon (fun _ => canon_execHstSelectionWrite) h
  | hstCntClr src => exact accessed_keeps_canon (fun _ => canon_execHstCntClr) h
  | arrSatClr src die cell => exact accessed_keeps_canon (fun _ => canon_execArrSatClr) h
  | arrCntClr src die cell => exact accessed_keeps_canon (fun _ => canon_execArrCntClr) h
  | arrPeekSelWrite src die cell v => exact accessed_keeps_canon (fun _ => canon_execArrPeekSelWrite) h
  | force src => exact accessed_keeps_canon (fun _ => canon_execForce) h
  | calTrimWrite src v => exact accessed_keeps_canon (fun _ => canon_execCalTrimWrite) h
  | accCntClr src die cell => exact accessed_keeps_canon (fun _ => canon_execAccCntClr) h
  | accPeekSelWrite src die cell v => exact accessed_keeps_canon (fun _ => canon_execAccPeekSelWrite) h
  | anvCntClr src die cell => exact accessed_keeps_canon (fun _ => canon_execAnvCntClr) h
  | anvPeekSelWrite src die cell v => exact accessed_keeps_canon (fun _ => canon_execAnvPeekSelWrite) h
  | burCntClr src die cell => exact accessed_keeps_canon (fun _ => canon_execBurCntClr) h
  | burTabSelWrite src die cell v => exact accessed_keeps_canon (fun _ => canon_execBurTabSelWrite) h
  | memCntClr src => exact accessed_keeps_canon (fun _ => canon_execMemCntClr) h
  | pprRun src => exact accessed_keeps_canon (fun _ => canon_execPprRun) h
  | discRun src => exact accessed_keeps_canon (fun _ => canon_execDiscRun) h
  | fabCntClr src => exact accessed_keeps_canon (fun _ => canon_execFabCntClr) h
  | fabPortSelWrite src v => exact accessed_keeps_canon (fun _ => canon_execFabPortSelWrite) h
  | fabPortFecUeRead src => exact accessed_keeps_canon (fun _ => canon_execFabPortFecUeRead) h
  | schTickLoRead src => exact accessed_keeps_canon (fun _ => canon_execSchTickLoRead) h
  | fabMandrelLoRead src => exact accessed_keeps_canon (fun _ => canon_execFabMandrelLoRead) h
  | hltArecSeqLoRead src => exact accessed_keeps_canon (fun _ => canon_execHltArecSeqLoRead) h
  | pwrRtcLoRead src => exact accessed_keeps_canon (fun _ => canon_execPwrRtcLoRead) h
  | pwrRtcHiWrite src v => exact accessed_keeps_canon (fun _ => canon_execPwrRtcHiWrite) h
  | pwrAlarmHiWrite src v => exact accessed_keeps_canon (fun _ => canon_execPwrAlarmHiWrite) h
  | pwrPmbSelWrite src v => exact accessed_keeps_canon (fun _ => canon_execPwrPmbSelWrite) h
  | pwrVcoreWrite src v => exact accessed_keeps_canon (fun _ => canon_execPwrVcoreWrite) h
  | tsmCntClr src => exact accessed_keeps_canon (fun _ => canon_execTsmCntClr) h
  | tsmUrgent src v => exact accessed_keeps_canon (fun _ => canon_execTsmUrgent) h
  | tsmSelWrite src v => exact accessed_keeps_canon (fun _ => canon_execTsmSelWrite) h
  | tsmChWinWrite src v => exact accessed_keeps_canon (fun _ => canon_execTsmChWinWrite) h
  | braze src => exact accessed_keeps_canon (fun _ => canon_execBraze) h
  | sprSelectionWrite src which v => exact accessed_keeps_canon (fun _ => canon_execSprSelectionWrite) h
  | cellFill die slot selfTest => exact served_keeps_canon (fun _ => canon_execCellFill) h
  | cellFillComplete die slot => exact served_keeps_canon (fun _ => canon_execCellFillComplete) h
  | heartbeatLapse die core => exact served_keeps_canon (fun _ => canon_execHeartbeatLapse) h
  | store src => exact accessed_keeps_canon (fun _ => canon_execStore) h
  | storeComplete matched => exact served_keeps_canon (fun _ => canon_execStoreComplete) h
  | retry src flash => exact accessed_keeps_canon (fun _ => canon_execRetry) h
  | ownerClear src => exact accessed_keeps_canon (fun _ => canon_execOwnerClear) h
  | quote src => exact accessed_keeps_canon (fun _ => canon_execQuote) h
  | quoteComplete => exact served_keeps_canon (fun _ => canon_execQuoteComplete) h
  | reboot src flash => exact accessed_keeps_canon (fun _ => canon_execReboot) h
  | nvsMinSvnWrite src v => exact accessed_keeps_canon (fun _ => canon_execNvsMinSvnWrite) h
  | mgtCntClr src => exact accessed_keeps_canon (fun _ => canon_execMgtCntClr) h
  | registerWrite src addr value size => exact accessed_keeps_canon (fun _ => canon_execRegisterWrite) h
  | wait => exact served_keeps_canon (fun _ => canon_execWait) h
  | rtcAlarm => exact served_keeps_canon (fun _ => canon_execRtcAlarm) h
  | wakePin level => exact served_keeps_canon (fun _ => canon_execWakePin) h
  | bankWake => exact served_keeps_canon (fun _ => canon_execBankWake) h
  | quenchWake => exact served_keeps_canon (fun _ => canon_execQuenchWake) h
  | pwrGoodFailure => exact served_keeps_canon (fun _ => canon_execPwrGoodFailure) h
  | refclkLoss => exact served_keeps_canon (fun _ => canon_execRefclkLoss) h
  | refclkReturn => exact served_keeps_canon (fun _ => canon_execRefclkReturn) h
  | telemetryCycle readings => exact served_keeps_canon (fun _ => canon_execTelemetryCycle) h
  | conversion conv chan code urgent => exact served_keeps_canon (fun _ => canon_execConversion) h
  | healthUpdate rise => exact served_keeps_canon (fun _ => canon_execHealthUpdate) h
  | correctedReport => exact served_keeps_canon (fun _ => canon_execCorrectedReport) h
  | safeStateReport => exact served_keeps_canon (fun _ => canon_execSafeStateReport) h
  | assayRecordSend => exact served_keeps_canon (fun _ => canon_execAssayRecordSend) h
  | journalStore => exact served_keeps_canon (fun _ => canon_execJournalStore) h
  | powerOnReset => exact served_keeps_canon (fun _ => canon_execPowerOnReset) h
  | resetRelease flash => exact served_keeps_canon (fun _ => canon_execResetRelease) h
  | streamFetch place n => exact served_keeps_canon (fun _ => canon_execStreamFetch) h
  | rnrTimer qp => exact served_keeps_canon (fun _ => canon_execRnrTimer) h
  | sgmiiLinkLost => exact served_keeps_canon (fun _ => canon_execSgmiiLinkLost) h
  | sgmiiLinkUp => exact served_keeps_canon (fun _ => canon_execSgmiiLinkUp) h
  | hostUncorrectableCodeword port => exact served_keeps_canon (fun _ => canon_execHostUncorrectableCodeword) h
  | pwrGoodRise => exact served_keeps_canon (fun _ => canon_execPwrGoodRise) h
  | pprComplete repaired => exact served_keeps_canon (fun _ => canon_execPprComplete) h
  | feedFailure => exact served_keeps_canon (fun _ => canon_execFeedFailure) h
  | fillMapChange die slot => exact served_keeps_canon (fun _ => canon_execFillMapChange) h

theorem step_keeps_canon {s : State} (h : Canon s) : NextCanon (step s) := by
  unfold step
  split
  case h_1 => exact ⟨_, rfl, canon_tickStep h⟩
  case h_2 c rest _ => exact exec_keeps_canon c (canon_mk h)

/-- Settles O5: a tick and the effect of every command keep the canonical form, and the outcome of a step is the only next state it has. -/
theorem stepKeepsCanonical : Obligations.StepKeepsCanonical := by
  unfold Obligations.StepKeepsCanonical
  intro s t h e
  obtain ⟨t', e', h'⟩ := step_keeps_canon (canon_iff.1 h)
  cases e.symm.trans e'
  exact canon_iff.2 h'

end Sys2Proof.Machine
end

section
/-! PROOFS. Counter-clears, and the reads that latch or clear (R36, R62, R266, R305, R306, R330, R356, R411, R423, R462). -/
namespace Sys2Proof.Machine

/-! ### Rounds over a list -/

/-- What the round of `a` establishes and the rounds of others keep holds after all rounds; `I` holds throughout. -/
theorem each_establishes {α : Type} (I : State → Prop) (P : α → State → Prop) {f : α → State → State} {l : List α}
    (hI : ∀ b ∈ l, ∀ s, I s → I (f b s)) (hP : ∀ a ∈ l, ∀ s, I s → P a (f a s))
    (hk : ∀ a ∈ l, ∀ b ∈ l, b ≠ a → ∀ s, I s → P a s → P a (f b s)) {s : State} (h : I s) : ∀ a ∈ l, P a (each l f s) := by
  induction l generalizing s with
  | nil => exact fun _ ha => absurd ha List.not_mem_nil
  | cons b l ih =>
    intro a ha
    have tail : ∀ {c}, c ∈ l → c ∈ b :: l := List.mem_cons_of_mem b
    have hI' : ∀ c ∈ l, ∀ s, I s → I (f c s) := fun c hc => hI c (tail hc)
    have hb : I (f b s) := hI b List.mem_cons_self s h
    rw [each_cons]
    by_cases hl : a ∈ l
    · exact ih hI' (fun c hc => hP c (tail hc)) (fun c hc d hd => hk c (tail hc) d (tail hd)) hb a hl
    · obtain rfl : a = b := (List.mem_cons.1 ha).resolve_right hl
      exact (each_inv (fun t => I t ∧ P a t)
        (fun c hc t ht => ⟨hI' c hc t ht.1, hk a List.mem_cons_self c (tail hc) (fun e => hl (e ▸ hc)) t ht.1 ht.2⟩)
        ⟨hb, hP a List.mem_cons_self s h⟩).2

/-- Clearing registers one by one. -/
theorem rd_each_wr_zero {α : Type} (g : α → Nat) (k : Nat) : ∀ {l : List α} {s : State}, wf regDefault s.regs = true →
    rd (each l (fun a s => wr (g a) 0 s) s) k = if k ∈ l.map g then 0 else rd s k
  | [], _, _ => by rw [each_nil]; simp
  | a :: l, s, h => by
    have ht : wf regDefault (wr (g a) 0 s).regs = true := wf_put h
    simp only [each_cons, rd_each_wr_zero g k ht, List.map_cons, List.mem_cons]
    by_cases e : k = g a
    · subst e
      simp [rd_wr h]
    · rw [rd_wr_ne h _ e]
      simp only [e, false_or]

/-! ### Counter-clears -/

/-- Command `i` sets the registers of `ks` to 0; no other register changes, no memory, and not the step. -/
def Zeroes (i : Instr) (x : State) (ks : List Nat) : Prop :=
  ∃ t, exec i x = .next t ∧ (∀ k ∈ ks, rd t k = 0) ∧ (∀ k, k ∉ ks → rd t k = rd (arrive x) k) ∧
    t.cells = (arrive x).cells ∧ t.dram = (arrive x).dram ∧ t.run = (arrive x).run

section
variable {i : Instr} {x : State} {f : State → State}

theorem zeroes_of_each {α : Type} {l : List α} {g : α → Nat} (hc : Canon x) (hr : x.pwr.inReset = false) (hx : exec i x = accessed f x)
    (hf : f (arrive x) = each l (fun a s => wr (g a) 0 s) (arrive x)) : Zeroes i x (l.map g) := by
  have hs : wf regDefault (arrive x).regs = true := (canon_arrive hc).regs
  refine ⟨_, hx.trans (accessed_open hr f), fun k hk => ?_, fun k hk => ?_, ?_, ?_, ?_⟩ <;> rw [hf]
  · rw [rd_withQueue, rd_each_wr_zero g k hs, if_pos hk]
  · rw [rd_withQueue, rd_each_wr_zero g k hs, if_neg hk]
  · exact each_keeps (f := fun a s => wr (g a) 0 s) State.cells (fun _ _ => rfl) (arrive x)
  · exact each_keeps (f := fun a s => wr (g a) 0 s) State.dram (fun _ _ => rfl) (arrive x)
  · exact each_keeps (f := fun a s => wr (g a) 0 s) State.run (fun _ _ => rfl) (arrive x)

/-- A counter-clear of the package. -/
theorem zeroRegs_zeroes {ks : List Nat} (hc : Canon x) (hr : x.pwr.inReset = false) (hx : exec i x = accessed (zeroRegs ks) x) :
    Zeroes i x ks := by
  have := zeroes_of_each (g := id) hc hr hx rfl
  rwa [List.map_id] at this

variable {src : Source} {die : Fin 4} {cell : Fin 256} {off : Nat}

theorem toCell_awake {s : State} {g : Nat → State → State} (ha : cellAsleep s (phys s die.val cell.val) = false) :
    toCell src die cell off g s = g (phys s die.val cell.val) s := by
  simp only [toCell, ha, Bool.false_eq_true, if_false]

theorem toCell_asleep {s : State} {g : Nat → State → State} (ha : cellAsleep s (phys s die.val cell.val) = true) :
    toCell src die cell off g s = accFirst 2 src (cellAddr die.val cell.val off) s := by
  simp only [toCell, ha, if_true]

/-- A counter-clear of a cell that is awake. -/
theorem zeroCell_zeroes {offs : List Nat} (hc : Canon x) (hr : x.pwr.inReset = false)
    (hx : exec i x = accessed (toCell src die cell off fun c => zeroCell c offs) x)
    (ha : cellAsleep (arrive x) (phys (arrive x) die.val cell.val) = false) :
    Zeroes i x (offs.map (cellKey (phys (arrive x) die.val cell.val))) :=
  zeroes_of_each hc hr hx (toCell_awake ha)

theorem rd_accFirst_ne {s : State} (h : Canon s) (kind : Nat) (src : Source) (addr : Nat) {k : Nat} (h0 : k ≠ Reg.HLT_STICKY0)
    (h1 : k ≠ Reg.HLT_ACC_FIRST) : rd (accFirst kind src addr s) k = rd s k := by
  unfold accFirst
  dsimp only
  split
  · rw [rd_sticky_ne (canon_wr h).regs _ h0, rd_wr_ne h.regs _ h1]
  · rw [rd_sticky_ne h.regs _ h0]

theorem accFirst_cells {s : State} (kind : Nat) (src : Source) (addr : Nat) : (accFirst kind src addr s).cells = s.cells := by
  unfold accFirst
  dsimp only
  split <;> rfl

/-- An access to a sleeping cell is refused, and reported (R35). -/
theorem toCell_refused {g : Nat → State → State} (hc : Canon x) (hr : x.pwr.inReset = false)
    (hx : exec i x = accessed (toCell src die cell off g) x) (ha : cellAsleep (arrive x) (phys (arrive x) die.val cell.val) = true) :
    ∃ t, exec i x = .next t ∧ fld t Reg.HLT_STICKY0 1 1 = 1 ∧
      (∀ k, k ≠ Reg.HLT_STICKY0 → k ≠ Reg.HLT_ACC_FIRST → rd t k = rd (arrive x) k) ∧ t.cells = (arrive x).cells := by
  have hs : Canon (arrive x) := canon_arrive hc
  refine ⟨_, hx.trans (accessed_open hr _), ?_, fun k h0 h1 => ?_, ?_⟩ <;> rw [toCell_asleep ha]
  · exact fld_accFirst hs (by decide) src _
  · exact rd_accFirst_ne hs 2 src _ h0 h1
  · exact accFirst_cells 2 src _

end

/-! ### MEM_CNT_CLR (R266) -/

/-- Clears the error counter and the peak temperature of a stack. -/
def clearStack (m : Nat) (s : State) : State := setFld (Reg.MEM_TEMP + 4 * m) 15 8 0 (wr (Reg.MEM_ERR + 4 * m) 0 s)

/-- The counters of the arbiter: the cuts, and the lines of the six agents. -/
def arbCounters : List Nat := (List.range 6).map (fun a => Reg.MEM_ARB_LINES + 4 * a) ++ [Reg.MEM_ARB_CUTS]

theorem execMemCntClr_eq (src : Source) (s : State) : execMemCntClr src s = zeroRegs arbCounters (each (List.range 8) clearStack s) := rfl

section
variable {s : State} {m : Nat}

theorem canon_clearStack (h : Canon s) : Canon (clearStack m s) := canon_setFld (canon_wr h)

theorem rd_clearStack_err (h : Canon s) {j : Nat} (hm : m < 8) (hj : j < 8) :
    rd (clearStack m s) (Reg.MEM_ERR + 4 * j) = if j = m then 0 else rd s (Reg.MEM_ERR + 4 * j) := by
  have ht : Reg.MEM_ERR + 4 * j ≠ Reg.MEM_TEMP + 4 * m := by simp only [Reg.MEM_ERR, Reg.MEM_TEMP]; omega
  rw [clearStack, rd_setFld_ne (canon_wr h).regs _ _ _ ht]
  split
  case isTrue e => rw [e, rd_wr h.regs, Nat.zero_mod]
  case isFalse e => exact rd_wr_ne h.regs _ (by omega)

theorem rd_clearStack_temp (h : Canon s) {j : Nat} (hm : m < 8) (hj : j < 8) :
    rd (clearStack m s) (Reg.MEM_TEMP + 4 * j) =
      if j = m then setBits (rd s (Reg.MEM_TEMP + 4 * j)) 15 8 0 else rd s (Reg.MEM_TEMP + 4 * j) := by
  have he : Reg.MEM_TEMP + 4 * j ≠ Reg.MEM_ERR + 4 * m := by simp only [Reg.MEM_ERR, Reg.MEM_TEMP]; omega
  rw [clearStack]
  split
  case isTrue e => rw [← e, rd_setFld (canon_wr h).regs _ _ _ (by decide), e, rd_wr_ne h.regs _ (e ▸ he)]
  case isFalse e => rw [rd_setFld_ne (canon_wr h).regs _ _ _ (by omega), rd_wr_ne h.regs _ he]

/-- Clearing the stacks leaves no error count and no peak, and every temperature. -/
theorem clearStacks_values (h : Canon s) (hm : m < 8) :
    rd (each (List.range 8) clearStack s) (Reg.MEM_ERR + 4 * m) = 0 ∧
    fld (each (List.range 8) clearStack s) (Reg.MEM_TEMP + 4 * m) 15 8 = 0 ∧
    fld (each (List.range 8) clearStack s) (Reg.MEM_TEMP + 4 * m) 7 0 = fld s (Reg.MEM_TEMP + 4 * m) 7 0 := by
  have hlt : ∀ {j}, j ∈ List.range 8 → j < 8 := List.mem_range.1
  have hC : ∀ j ∈ List.range 8, ∀ s, Canon s → Canon (clearStack j s) := fun _ _ _ => canon_clearStack
  have cleared : ∀ j ∈ List.range 8, rd (each (List.range 8) clearStack s) (Reg.MEM_ERR + 4 * j) = 0 ∧
      fld (each (List.range 8) clearStack s) (Reg.MEM_TEMP + 4 * j) 15 8 = 0 := by
    refine each_establishes Canon (fun j t => rd t (Reg.MEM_ERR + 4 * j) = 0 ∧ fld t (Reg.MEM_TEMP + 4 * j) 15 8 = 0) hC
      (fun j hj t ht => ?_) (fun j hj b hb hne t ht hP => ?_) h
    · rw [rd_clearStack_err ht (hlt hj) (hlt hj), fld_def, rd_clearStack_temp ht (hlt hj) (hlt hj), if_pos rfl, if_pos rfl, bits_setBits]
      exact ⟨rfl, rfl⟩
    · rwa [rd_clearStack_err ht (hlt hb) (hlt hj), fld_def, rd_clearStack_temp ht (hlt hb) (hlt hj), if_neg (Ne.symm hne),
        if_neg (Ne.symm hne)]
  have kept : Canon (each (List.range 8) clearStack s) ∧
      fld (each (List.range 8) clearStack s) (Reg.MEM_TEMP + 4 * m) 7 0 = fld s (Reg.MEM_TEMP + 4 * m) 7 0 := by
    refine each_inv (fun t => Canon t ∧ fld t (Reg.MEM_TEMP + 4 * m) 7 0 = fld s (Reg.MEM_TEMP + 4 * m) 7 0)
      (fun j hj t ht => ⟨canon_clearStack ht.1, ?_⟩) ⟨h, rfl⟩
    rw [← ht.2, fld_def, rd_clearStack_temp ht.1 (hlt hj) hm]
    split
    · rw [bits_setBits_ne _ _ (.inl (by decide)), fld_def]
    · rfl
  obtain ⟨herr, hpeak⟩ := cleared m (List.mem_range.2 hm)
  exact ⟨herr, hpeak, kept.2⟩

theorem arbCounters_apart (hm : m < 8) : Reg.MEM_ERR + 4 * m ∉ arbCounters ∧ Reg.MEM_TEMP + 4 * m ∉ arbCounters := by
  revert m; decide

theorem rd_zeroRegs (h : Canon s) (l : List Nat) (k : Nat) : rd (zeroRegs l s) k = if k ∈ l then 0 else rd s k :=
  (rd_each_wr_zero id k h.regs).trans (by rw [List.map_id])

theorem zeroRegs_cells (l : List Nat) : (zeroRegs l s).cells = s.cells :=
  each_keeps (f := fun a s => wr a 0 s) State.cells (fun _ _ => rfl) s

theorem zeroRegs_dram (l : List Nat) : (zeroRegs l s).dram = s.dram :=
  each_keeps (f := fun a s => wr a 0 s) State.dram (fun _ _ => rfl) s

theorem memCntClr_values (h : Canon s) (src : Source) :
    let t := execMemCntClr src s
    rd t Reg.MEM_ARB_CUTS = 0 ∧ (∀ a, a < 6 → rd t (Reg.MEM_ARB_LINES + 4 * a) = 0) ∧
      (∀ m, m < 8 → rd t (Reg.MEM_ERR + 4 * m) = 0 ∧ fld t (Reg.MEM_TEMP + 4 * m) 15 8 = 0 ∧
        fld t (Reg.MEM_TEMP + 4 * m) 7 0 = fld s (Reg.MEM_TEMP + 4 * m) 7 0) ∧ t.cells = s.cells ∧ t.dram = s.dram := by
  have hs : Canon (each (List.range 8) clearStack s) := canon_each (fun _ _ => canon_clearStack) h
  dsimp only
  rw [execMemCntClr_eq]
  refine ⟨?_, fun a ha => ?_, fun m hm => ?_, ?_, ?_⟩
  · rw [rd_zeroRegs hs, if_pos (by decide)]
  · rw [rd_zeroRegs hs, if_pos (by revert a; decide)]
  · obtain ⟨he, ht⟩ := arbCounters_apart hm
    rw [rd_zeroRegs hs, if_neg he, fld_def, fld_def, rd_zeroRegs hs, if_neg ht]
    exact clearStacks_values h hm
  · exact (zeroRegs_cells _).trans (each_keeps (f := clearStack) State.cells (fun _ _ => rfl) s)
  · exact (zeroRegs_dram _).trans (each_keeps (f := clearStack) State.dram (fun _ _ => rfl) s)

end

/-! ### FAB_CNT_CLR (R305) -/

/-- Clears the corrected and uncorrectable counts of a port. -/
def clearPort (p : Nat) (s : State) : State := setFld (bankKey Reg.FAB_PORT_FEC_UE p) 23 0 0 (wr (bankKey Reg.FAB_PORT_FEC_CE p) 0 s)

theorem execFabCntClr_eq (src : Source) (s : State) :
    execFabCntClr src s = each (List.range 48) clearPort (zeroRegs [Reg.FAB_PARCEL_DROPS, Reg.FAB_HOLD_CYCLES, Reg.FAB_HOLDS] s) := rfl

section
variable {s : State} {p q : Nat}

theorem canon_clearPort (h : Canon s) : Canon (clearPort p s) := canon_setFld (canon_wr h)

theorem bankKey_ne_same {a p q : Nat} (h : p ≠ q) : bankKey a p ≠ bankKey a q := by simp only [bankKey]; omega

theorem fecKeys_apart (hp : p < 48) (hq : q < 48) : bankKey Reg.FAB_PORT_FEC_CE p ≠ bankKey Reg.FAB_PORT_FEC_UE q := by
  simp only [bankKey, Reg.FAB_PORT_FEC_CE, Reg.FAB_PORT_FEC_UE]; omega

theorem rd_clearPort_ce (h : Canon s) (hp : p < 48) (hq : q < 48) :
    rd (clearPort p s) (bankKey Reg.FAB_PORT_FEC_CE q) = if q = p then 0 else rd s (bankKey Reg.FAB_PORT_FEC_CE q) := by
  rw [clearPort, rd_setFld_ne (canon_wr h).regs _ _ _ (fecKeys_apart hq hp)]
  split
  case isTrue e => rw [e, rd_wr h.regs, Nat.zero_mod]
  case isFalse e => exact rd_wr_ne h.regs _ (bankKey_ne_same e)

theorem rd_clearPort_ue (h : Canon s) (hp : p < 48) (hq : q < 48) : rd (clearPort p s) (bankKey Reg.FAB_PORT_FEC_UE q) =
    if q = p then setBits (rd s (bankKey Reg.FAB_PORT_FEC_UE q)) 23 0 0 else rd s (bankKey Reg.FAB_PORT_FEC_UE q) := by
  have he : bankKey Reg.FAB_PORT_FEC_UE q ≠ bankKey Reg.FAB_PORT_FEC_CE p := Ne.symm (fecKeys_apart hp hq)
  rw [clearPort]
  split
  case isTrue e => rw [← e, rd_setFld (canon_wr h).regs _ _ _ (by decide), e, rd_wr_ne h.regs _ (e ▸ he)]
  case isFalse e => rw [rd_setFld_ne (canon_wr h).regs _ _ _ (bankKey_ne_same e), rd_wr_ne h.regs _ he]

theorem rd_clearPort_package (h : Canon s) (p : Nat) {k : Nat} (hk : k < 2 ^ 40) : rd (clearPort p s) k = rd s k := by
  have hb : ∀ a, k ≠ bankKey a p := fun a => by simp only [bankKey]; omega
  rw [clearPort, rd_setFld_ne (canon_wr h).regs _ _ _ (hb _), rd_wr_ne h.regs _ (hb _)]

/-- Clearing the ports leaves no count of any port, and its peak and lane. -/
theorem clearPorts_values (h : Canon s) (hp : p < 48) :
    rd (each (List.range 48) clearPort s) (bankKey Reg.FAB_PORT_FEC_CE p) = 0 ∧
    fld (each (List.range 48) clearPort s) (bankKey Reg.FAB_PORT_FEC_UE p) 23 0 = 0 ∧
    fld (each (List.range 48) clearPort s) (bankKey Reg.FAB_PORT_FEC_UE p) 31 24 = fld s (bankKey Reg.FAB_PORT_FEC_UE p) 31 24 := by
  have hlt : ∀ {j}, j ∈ List.range 48 → j < 48 := List.mem_range.1
  have hC : ∀ j ∈ List.range 48, ∀ s, Canon s → Canon (clearPort j s) := fun _ _ _ => canon_clearPort
  have cleared : ∀ j ∈ List.range 48, rd (each (List.range 48) clearPort s) (bankKey Reg.FAB_PORT_FEC_CE j) = 0 ∧
      fld (each (List.range 48) clearPort s) (bankKey Reg.FAB_PORT_FEC_UE j) 23 0 = 0 := by
    refine each_establishes Canon
      (fun j t => rd t (bankKey Reg.FAB_PORT_FEC_CE j) = 0 ∧ fld t (bankKey Reg.FAB_PORT_FEC_UE j) 23 0 = 0) hC
      (fun j hj t ht => ?_) (fun j hj b hb hne t ht hP => ?_) h
    · rw [rd_clearPort_ce ht (hlt hj) (hlt hj), fld_def, rd_clearPort_ue ht (hlt hj) (hlt hj), if_pos rfl, if_pos rfl, bits_setBits]
      exact ⟨rfl, rfl⟩
    · rwa [rd_clearPort_ce ht (hlt hb) (hlt hj), fld_def, rd_clearPort_ue ht (hlt hb) (hlt hj), if_neg (Ne.symm hne),
        if_neg (Ne.symm hne)]
  have kept : Canon (each (List.range 48) clearPort s) ∧
      fld (each (List.range 48) clearPort s) (bankKey Reg.FAB_PORT_FEC_UE p) 31 24 = fld s (bankKey Reg.FAB_PORT_FEC_UE p) 31 24 := by
    refine each_inv (fun t => Canon t ∧ fld t (bankKey Reg.FAB_PORT_FEC_UE p) 31 24 = fld s (bankKey Reg.FAB_PORT_FEC_UE p) 31 24)
      (fun j hj t ht => ⟨canon_clearPort ht.1, ?_⟩) ⟨h, rfl⟩
    rw [← ht.2, fld_def, rd_clearPort_ue ht.1 (hlt hj) hp]
    split
    · rw [bits_setBits_ne _ _ (.inr (by decide)), fld_def]
    · rfl
  obtain ⟨hce, hue⟩ := cleared p (List.mem_range.2 hp)
  exact ⟨hce, hue, kept.2⟩

theorem rd_clearPorts_package (h : Canon s) {k : Nat} (hk : k < 2 ^ 40) : rd (each (List.range 48) clearPort s) k = rd s k :=
  (each_inv (fun t => Canon t ∧ rd t k = rd s k)
    (fun p _ _ ht => ⟨canon_clearPort ht.1, (rd_clearPort_package ht.1 p hk).trans ht.2⟩) ⟨h, rfl⟩).2

theorem fabCntClr_values (h : Canon s) (src : Source) :
    let t := execFabCntClr src s
    rd t Reg.FAB_HOLDS = 0 ∧ rd t Reg.FAB_HOLD_CYCLES = 0 ∧ rd t Reg.FAB_PARCEL_DROPS = 0 ∧
      (∀ p, p < 48 → rd t (bankKey Reg.FAB_PORT_FEC_CE p) = 0 ∧ fld t (bankKey Reg.FAB_PORT_FEC_UE p) 23 0 = 0 ∧
        fld t (bankKey Reg.FAB_PORT_FEC_UE p) 31 24 = fld s (bankKey Reg.FAB_PORT_FEC_UE p) 31 24) ∧ t.cells = s.cells ∧ t.dram = s.dram := by
  have hz : Canon (zeroRegs [Reg.FAB_PARCEL_DROPS, Reg.FAB_HOLD_CYCLES, Reg.FAB_HOLDS] s) := canon_zeroRegs h
  have zeroed : ∀ k ∈ [Reg.FAB_PARCEL_DROPS, Reg.FAB_HOLD_CYCLES, Reg.FAB_HOLDS], rd (execFabCntClr src s) k = 0 := fun k hk => by
    have hk' : k < 2 ^ 40 := by revert k; decide
    rw [execFabCntClr_eq, rd_clearPorts_package hz hk', rd_zeroRegs h, if_pos hk]
  have apart : ∀ p, bankKey Reg.FAB_PORT_FEC_UE p ∉ [Reg.FAB_PARCEL_DROPS, Reg.FAB_HOLD_CYCLES, Reg.FAB_HOLDS] := fun p => by
    simp only [List.mem_cons, List.not_mem_nil, or_false, bankKey, Reg.FAB_PARCEL_DROPS, Reg.FAB_HOLD_CYCLES, Reg.FAB_HOLDS]; omega
  refine ⟨zeroed _ (by decide), zeroed _ (by decide), zeroed _ (by decide), fun p hp => ?_, ?_, ?_⟩ <;> rw [execFabCntClr_eq]
  · obtain ⟨hce, hue, hpeak⟩ := clearPorts_values hz hp
    refine ⟨hce, hue, hpeak.trans ?_⟩
    rw [fld_def, rd_zeroRegs h, if_neg (apart p), fld_def]
  · exact (each_keeps (f := clearPort) State.cells (fun _ _ => rfl) _).trans (zeroRegs_cells _)
  · exact (each_keeps (f := clearPort) State.dram (fun _ _ => rfl) _).trans (zeroRegs_dram _)

end

/-! ### Reads that latch or clear -/

section
variable {i : Instr} {x : State} {a : Nat}

/-- A read that latches the upper half of its value. -/
theorem latchRead_latches {hi v : Nat} (hc : Canon x) (hr : x.pwr.inReset = false) {s : State} (hs : arrive x = s) {f : State → State}
    (hx : exec i x = accessed f x) (hf : f s = answerRead a (latchRead hi v s)) :
    ∃ t, exec i x = .next t ∧ t.out = s.out ++ [.regRead a (BitVec.ofNat 32 v)] ∧ rd t hi = v / 2 ^ 32 % 2 ^ 32 ∧
      (∀ k, k ≠ hi → rd t k = rd s k) ∧ t.time = s.time ∧ t.cells = s.cells ∧ t.dram = s.dram := by
  subst hs
  have hs : wf regDefault (arrive x).regs = true := (canon_arrive hc).regs
  refine ⟨_, hx.trans (accessed_open hr f), ?_, ?_, fun k hk => ?_, ?_, ?_, ?_⟩ <;> rw [hf]
  · have : BitVec.ofNat 32 (v % 2 ^ 32) = BitVec.ofNat 32 v := BitVec.eq_of_toNat_eq (by simp)
    rw [← this]; rfl
  · exact rd_wr hs hi _
  · exact rd_wr_ne hs _ hk
  all_goals rfl

variable {src : Source} {s : State}

theorem portRead_fecUe (h : fld s Reg.FAB_PORT_SEL 5 0 < 48) :
    portRead s Reg.FAB_PORT_FEC_UE = rd s (bankKey Reg.FAB_PORT_FEC_UE (fld s Reg.FAB_PORT_SEL 5 0)) := by
  unfold portRead
  dsimp only
  rw [if_neg (Nat.not_le.2 h), if_neg (by decide)]

/-- FAB_PORT_FEC_UE of a port (R306). -/
theorem execFabPortFecUeRead_port (h : fld s Reg.FAB_PORT_SEL 5 0 < 48) : execFabPortFecUeRead src s =
    emit (.regRead Reg.FAB_PORT_FEC_UE (BitVec.ofNat 32 (rd s (bankKey Reg.FAB_PORT_FEC_UE (fld s Reg.FAB_PORT_SEL 5 0)))))
      (setFld (bankKey Reg.FAB_PORT_FEC_UE (fld s Reg.FAB_PORT_SEL 5 0)) 31 24 0 s) := by
  simp only [execFabPortFecUeRead, answerRead, readFecUe, portRead_fecUe h, if_neg (Nat.not_le.2 h)]

/-- There is no port above 47 (R305). -/
theorem execFabPortFecUeRead_none (h : 48 ≤ fld s Reg.FAB_PORT_SEL 5 0) :
    execFabPortFecUeRead src s = emit (.regRead Reg.FAB_PORT_FEC_UE 0) s := by
  simp only [execFabPortFecUeRead, answerRead, readFecUe, portRead, if_pos h]
  rfl

end

/-! ### The obligation -/

section
variable {src : Source} {x : State}

/-- The counter-clears of a cell that is awake. -/
theorem cell_counters_clear {die : Fin 4} {cell : Fin 256} (hc : Canon x) (hr : x.pwr.inReset = false)
    (ha : cellAsleep (arrive x) (phys (arrive x) die.val cell.val) = false) :
    let c := phys (arrive x) die.val cell.val
    Zeroes (.arrSatClr src die cell) x [cellKey c Reg.ARR_SAT_COUNT] ∧
    Zeroes (.arrCntClr src die cell) x
      ([Reg.ARR_PHASES_RUN, Reg.ARR_PHASES_SKIPPED, Reg.ARR_WRITES_DONE, Reg.ARR_WRITES_UNCHANGED].map (cellKey c)) ∧
    Zeroes (.accCntClr src die cell) x ([Reg.ACC_ADDS, Reg.ACC_FOLDS, Reg.ACC_ECC, Reg.ACC_WAITS].map (cellKey c)) ∧
    Zeroes (.anvCntClr src die cell) x ([Reg.ANV_PRODUCTS, Reg.ANV_STAGES, Reg.ANV_DISCARDS, Reg.ANV_ECC].map (cellKey c)) ∧
    Zeroes (.burCntClr src die cell) x
      ([Reg.BUR_EMPTYROW, Reg.BUR_OOR_COUNT, Reg.BUR_WORDS, Reg.BUR_BEATS, Reg.BUR_ECC].map (cellKey c)) :=
  ⟨zeroCell_zeroes (offs := [Reg.ARR_SAT_COUNT]) hc hr rfl ha, zeroCell_zeroes hc hr rfl ha, zeroCell_zeroes hc hr rfl ha,
    zeroCell_zeroes hc hr rfl ha, zeroCell_zeroes hc hr rfl ha⟩

/-- The counter-clears of a cell that sleeps. -/
theorem cell_counters_refused {die : Fin 4} {cell : Fin 256} (hc : Canon x) (hr : x.pwr.inReset = false)
    (ha : cellAsleep (arrive x) (phys (arrive x) die.val cell.val) = true) {i : Instr}
    (hi : i = .arrSatClr src die cell ∨ i = .arrCntClr src die cell ∨ i = .accCntClr src die cell ∨
      i = .anvCntClr src die cell ∨ i = .burCntClr src die cell) :
    ∃ t, exec i x = .next t ∧ fld t Reg.HLT_STICKY0 1 1 = 1 ∧
      (∀ k, k ≠ Reg.HLT_STICKY0 → k ≠ Reg.HLT_ACC_FIRST → rd t k = rd (arrive x) k) ∧ t.cells = (arrive x).cells := by
  obtain rfl | rfl | rfl | rfl | rfl := hi <;> exact toCell_refused hc hr rfl ha

end

/-- Settles O41: a counter-clear is a round of writes of 0 after the always-on cycle has run out, a latching read one write of the upper
half. -/
theorem countersAndLatches : Obligations.CountersAndLatches := by
  unfold Obligations.CountersAndLatches
  refine ⟨?clears, ?reads⟩
  case clears =>
    intro src die cell x h hr s c zero
    have hc : Canon x := canon_iff.1 h
    have hs : Canon s := canon_arrive hc
    refine ⟨zeroRegs_zeroes hc hr rfl, zeroRegs_zeroes hc hr rfl, zeroRegs_zeroes hc hr rfl, cell_counters_clear hc hr,
      fun ha i hi => cell_counters_refused hc hr ha hi, ⟨_, accessed_open hr _, ?mem⟩, ⟨_, accessed_open hr _, ?fab⟩⟩
    case mem =>
      simp only [rd_withQueue, fld_withQueue, withQueue_cells, withQueue_dram]
      exact memCntClr_values hs src
    case fab =>
      simp only [rd_withQueue, fld_withQueue, withQueue_cells, withQueue_dram]
      exact fabCntClr_values hs src
  case reads =>
    intro src x h hr s latches ue
    have hc : Canon x := canon_iff.1 h
    have hs : wf regDefault s.regs = true := (canon_arrive hc).regs
    refine ⟨latchRead_latches hc hr rfl rfl rfl, latchRead_latches hc hr rfl rfl rfl, latchRead_latches hc hr rfl rfl rfl,
      latchRead_latches hc hr rfl rfl rfl, fun hp => ⟨_, accessed_open hr _, ?port⟩, fun hp => ⟨_, accessed_open hr _, ?none⟩⟩
    case port =>
      rw [execFabPortFecUeRead_port hp]
      refine ⟨rfl, fld_setFld hs ue 24 0 (by decide), fld_setFld_ne hs ue 24 0 (by decide) (.inl (by decide)),
        fun k hk => rd_setFld_ne hs _ _ _ hk, rfl, rfl⟩
    case none =>
      rw [execFabPortFecUeRead_none hp]
      exact ⟨rfl, rfl, rfl, rfl⟩

end Sys2Proof.Machine
end

section
/-! PROOFS. Discovery of the partner (R29, R273, R278, R279, R283, R284): what a BEACON leaves, and what BEACON_TIMER sends. -/
namespace Sys2Proof.Machine

/-- A command without an effect. -/
theorem served_unchanged {f : State → State} {s : State} (h : f s = s) : served f s = .next s := by
  rw [served, h]; rfl

/-! ### A record leaves the step and the outputs -/

section
variable (s : State)

theorem journalIssue_run (entry : List Byte) : (journalIssue entry s).run = s.run := by
  simp only [journalIssue, apply_ite State.run, sticky_run, bump_run, setFld_run, ite_self]

theorem journalIssue_out (entry : List Byte) : (journalIssue entry s).out = s.out := by
  simp only [journalIssue, apply_ite State.out, sticky_out, bump_out, setFld_out, ite_self]

theorem enqueue_run (r : Rec) : (enqueue r s).run = s.run := by simp only [enqueue, apply_ite State.run, bump_run, setFld_run, ite_self]

theorem enqueue_out (r : Rec) : (enqueue r s).out = s.out := by simp only [enqueue, apply_ite State.out, bump_out, setFld_out, ite_self]

theorem recordFull_run (cls sev : Nat) (loc : List (Nat × Nat)) (detail : List (String × Nat)) (classif first : Nat) :
    (recordFull cls sev loc detail classif first s).run = s.run := by
  simp only [recordFull, apply_ite State.run, journalIssue_run, enqueue_run, bump_run, setSent_run, wr_run, ite_self]

theorem recordFull_out (cls sev : Nat) (loc : List (Nat × Nat)) (detail : List (String × Nat)) (classif first : Nat) :
    (recordFull cls sev loc detail classif first s).out = s.out := by
  simp only [recordFull, apply_ite State.out, journalIssue_out, enqueue_out, bump_out, setSent_out, wr_out, ite_self]

theorem jobFault_out : (jobFault s).out = s.out := by simp only [jobFault, apply_ite State.out, ite_self]

theorem jobFaultRec_out (reg : Nat) (loc : List (Nat × Nat)) (first : Nat) : (jobFaultRec reg loc first s).out = s.out :=
  (recordFull_out ..).trans (jobFault_out s)

end

section
variable {s : State}

/-- While a casting runs a job fault is in force from its detection on (R57). -/
theorem jobFault_faultAt (h : castingRuns s = true) : (jobFault s).run.faultAt.isSome = true := by
  unfold jobFault
  split
  case isTrue => rfl
  case isFalse hn =>
    rw [Option.isSome_iff_ne_none]
    exact fun e => hn ⟨h, e⟩

theorem jobFaultRec_faultAt (h : castingRuns s = true) (reg : Nat) (loc : List (Nat × Nat)) (first : Nat) :
    (jobFaultRec reg loc first s).run.faultAt.isSome = true :=
  (congrArg (fun r : Run => r.faultAt.isSome) (recordFull_run ..)).trans (jobFault_faultAt h)

/-! ### The timekeeper (R283) -/

theorem leNat_lt : ∀ (l : List Byte), leNat l < 256 ^ l.length
  | [] => Nat.one_pos
  | b :: r => by
    have hb : b.toNat < 256 := b.isLt
    have hr : leNat r + 1 ≤ 256 ^ r.length := leNat_lt r
    rw [leNat, List.length_cons, Nat.pow_succ]
    omega

theorem leNat_take_lt (l : List Byte) (n : Nat) : leNat (l.take n) < 256 ^ n :=
  lt_of_lt_of_le (leNat_lt _) (Nat.pow_le_pow_right (by decide) (List.length_take_le n l))

theorem dramNat_lt (s : State) (a n : Nat) : dramNat s a n < 256 ^ n := by
  have := leNat_lt (dramGet s a n)
  rwa [dramGet, List.length_map, List.length_range] at this

/-- Package addresses have 16 bits (R28). -/
theorem forgeMembers_lt : ∀ a ∈ forgeMembers s, a < 2 ^ 16 := by
  intro a ha
  simp only [forgeMembers, List.mem_append, List.mem_filterMap] at ha
  rcases ha with (ha | ⟨p, -, ha⟩) | ha
  · split at ha
    · rw [List.mem_singleton.1 ha]; exact bits_lt _ 15 0
    · exact absurd ha List.not_mem_nil
  · split at ha
    · rw [← Option.some.inj ha]; exact bits_lt _ 15 0
    · cases ha
  · split at ha
    · obtain ⟨e, he, rfl⟩ := List.mem_map.1 (List.mem_of_mem_filter ha)
      obtain ⟨i, -, rfl⟩ := List.mem_map.1 he
      exact dramNat_lt s _ 2
    · exact absurd ha List.not_mem_nil

theorem foldl_min_le : ∀ (l : List Nat) (a : Nat), l.foldl min a ≤ a
  | [], a => Nat.le_refl a
  | b :: l, a => (foldl_min_le l (min a b)).trans (Nat.min_le_left a b)

theorem findTimekeeper_lt (s : State) : findTimekeeper s < 2 ^ 16 := by
  unfold findTimekeeper lowest
  refine lt_of_le_of_lt (foldl_min_le _ _) ?_
  cases hm : forgeMembers s with
  | nil => decide
  | cons a l => exact forgeMembers_lt a (hm ▸ List.mem_cons_self)

/-- The registers that the part finds its timekeeper by, its own address apart. -/
def memberKey (k : Nat) : Prop :=
  k = Reg.FAB_ROLE ∨ k = Reg.ING_GROUP_BASE ∨ k = Reg.ING_GROUP_LEN ∨ ∃ p < 48, k = portKey p ∨ k = bankKey Reg.FAB_PORT_PARTNER p

theorem groupEntries_congr {t : State} (hr : ∀ k, memberKey k → rd t k = rd s k) (hd : t.dram = s.dram) : groupEntries t = groupEntries s := by
  have hb : rd t Reg.ING_GROUP_BASE = rd s Reg.ING_GROUP_BASE := hr _ (.inr (.inl rfl))
  have hl : rd t Reg.ING_GROUP_LEN = rd s Reg.ING_GROUP_LEN := hr _ (.inr (.inr (.inl rfl)))
  have hn : ∀ a n, dramNat t a n = dramNat s a n := fun a n => by simp only [dramNat, dramGet, dramByte, markOf, hd]
  simp only [groupEntries, fld_def, hb, hl, hn]

theorem upPorts_congr {t : State} (hr : ∀ k, memberKey k → rd t k = rd s k) : upPorts t = upPorts s := by
  refine List.filter_congr fun p hp => ?_
  have : rd t (portKey p) = rd s (portKey p) := hr _ (.inr (.inr (.inr ⟨p, List.mem_range.1 hp, .inl rfl⟩)))
  simp only [portState, fld_def, this]

/-- The active member of the forge whose BEACON came on a port. -/
def directMember (s : State) (p : Nat) : Option Nat :=
  if addrForge (fld s (bankKey Reg.FAB_PORT_PARTNER p) 15 0) == addrForge (ownAddr s) && bits (portAt s p).partnerFlags.toNat 1 1 == 1 then
    some (fld s (bankKey Reg.FAB_PORT_PARTNER p) 15 0) else none

theorem forgeMembers_eq (s : State) : forgeMembers s = (if roleActive s then [ownAddr s] else []) ++ (upPorts s).filterMap (directMember s) ++
    if groupNamesOwn s then ((groupEntries s).map (·.2)).filter (fun a => addrForge a == addrForge (ownAddr s)) else [] := rfl

/-- The timekeeper follows from the part's addresses, what its partners have told, and the group table. -/
theorem findTimekeeper_congr {t : State} (hown : ownAddr t = ownAddr s) (hr : ∀ k, memberKey k → rd t k = rd s k)
    (hp : ∀ p, (portAt t p).partnerFlags = (portAt s p).partnerFlags) (hd : t.dram = s.dram) : findTimekeeper t = findTimekeeper s := by
  have hrole : rd t Reg.FAB_ROLE = rd s Reg.FAB_ROLE := hr _ (.inl rfl)
  have hpartner : ∀ p ∈ upPorts s, rd t (bankKey Reg.FAB_PORT_PARTNER p) = rd s (bankKey Reg.FAB_PORT_PARTNER p) := fun p hm =>
    hr _ (.inr (.inr (.inr ⟨p, List.mem_range.1 (List.mem_of_mem_filter hm), .inr rfl⟩)))
  have hactive : roleActive t = roleActive s := by simp only [roleActive, fld_def, hrole]
  have hnames : groupNamesOwn t = groupNamesOwn s := by
    simp only [groupNamesOwn, groupEntries_congr hr hd, roleAddr, fld_def, hrole, hown]
  have hdirect : ∀ p ∈ upPorts s, directMember t p = directMember s p := fun p hm => by
    unfold directMember
    rw [fld_def, hpartner p hm, hown, hp, ← fld_def]
  simp only [findTimekeeper, forgeMembers_eq, hactive, hown, hnames, groupEntries_congr hr hd, upPorts_congr hr]
  rw [List.filterMap_congr hdirect]

end

/-! ### What a BEACON leaves -/

/-- A little-endian field of a BEACON (R278). -/
def flitNat (flit : List Byte) (off n : Nat) : Nat := leNat ((flit.drop off).take n)

/-- A port that does not take the BEACON, or a BEACON that is none (R29, R278). -/
def beaconRefused (p : Nat) (flit : List Byte) (s : State) : Prop :=
  portState s p < 4 ∨ portState s p = 7 ∨ flitNat flit 0 1 ≠ 1 ∨ validAddr (flitNat flit 4 2) = false ∨ validAddr (flitNat flit 6 2) = false

/-- The port that a BEACON leaves (R278). -/
def beaconPort (p : Nat) (flit : List Byte) (s : State) : Port :=
  let x := portAt s p
  { x with
    beacons := x.beacons + 1
    lastSent := BitVec.ofNat 64 (flitNat flit 0x10 8), lastAt := s.time.mandrel
    partnerRole := BitVec.ofNat 16 (flitNat flit 6 2), partnerFlags := BitVec.ofNat 16 (flitNat flit 8 2)
    partnerLogical := BitVec.ofNat 8 (flitNat flit 3 1), partnerFeed := BitVec.ofNat 16 (flitNat flit 0x0A 2)
    mapOk := (flit.drop 0x40).take 32 == mapHash s }

/-- The partner is named. -/
def partnerNamed (p : Nat) (flit : List Byte) (s : State) : State :=
  setPort p (beaconPort p flit s) (wr (bankKey Reg.FAB_PORT_PARTNER p) (flitNat flit 4 2 + 65536 * (flitNat flit 2 1 % 64)) s)

/-- The timekeeper is found anew. -/
def beaconHeard (p : Nat) (flit : List Byte) (s : State) : State :=
  setFld Reg.FAB_ADDR 31 16 (findTimekeeper (partnerNamed p flit s)) (partnerNamed p flit s)

/-- While a casting runs, the partner's offset is checked (R284). -/
def beaconChecked (p sent : Nat) (s : State) : State :=
  if castingRuns s && portUp s ((logicalAt s p).getD 47) && beaconOut s p ((logicalAt s p).getD 47) sent then unlocked ((logicalAt s p).getD 47) s
  else s

/-- A time returned measures the delay of the port (R283). -/
def beaconDelay (p back : Nat) (s : State) : State :=
  if back = 0 then s else wr (bankKey Reg.FAB_PORT_DELAY p) ((fresh s).1.toNat % 2 ^ 20) (fresh s).2

section
variable {p : Fin 48} {flit : List Byte} {s : State}

theorem execBeacon_refused (h : beaconRefused p.val flit s) : execBeacon p flit s = s := by
  unfold execBeacon
  dsimp only
  rw [if_pos]
  simp only [Bool.not_eq_true']
  exact h

theorem execBeacon_taken (h : ¬ beaconRefused p.val flit s) : execBeacon p flit s =
    beaconDelay p.val (flitNat flit 0x18 8) (beaconChecked p.val (flitNat flit 0x10 8) (beaconHeard p.val flit s)) := by
  unfold execBeacon
  dsimp only
  rw [if_neg]
  · rfl
  · simp only [Bool.not_eq_true']
    exact h

end

section
variable {p : Nat} {flit : List Byte} {s : State}

theorem canon_partnerNamed (h : Canon s) : Canon (partnerNamed p flit s) := canon_setPort (canon_wr h)

theorem canon_beaconHeard (h : Canon s) : Canon (beaconHeard p flit s) := canon_setFld (canon_partnerNamed h)

/-- The partner's address and physical port fit their register. -/
theorem rd_partnerNamed (h : Canon s) :
    rd (partnerNamed p flit s) (bankKey Reg.FAB_PORT_PARTNER p) = flitNat flit 4 2 + 65536 * (flitNat flit 2 1 % 64) := by
  have ha : flitNat flit 4 2 < 256 ^ 2 := leNat_take_lt _ 2
  rw [partnerNamed]
  exact (rd_wr h.regs _ _).trans (Nat.mod_eq_of_lt (by omega))

theorem rd_beaconHeard_ne (h : Canon s) {k : Nat} (hp : k ≠ bankKey Reg.FAB_PORT_PARTNER p) (ha : k ≠ Reg.FAB_ADDR) :
    rd (beaconHeard p flit s) k = rd s k :=
  (rd_setFld_ne (canon_partnerNamed h).regs _ _ _ ha).trans (rd_wr_ne h.regs _ hp)

theorem portAt_beaconHeard (hp : wf (fun _ => Port.init) s.fab.ports = true) : portAt (beaconHeard p flit s) p = beaconPort p flit s :=
  get_put hp

/-! ### The check of the offset and the measure of the delay -/

/-- `t` differs from `s` at most in FAB_STICKY, in what reporting writes and in the step. -/
structure KeepsDiscovery (s t : State) : Prop where
  regs : ∀ k, k ≠ Reg.FAB_STICKY → reportKey k = false → rd t k = rd s k
  fab : t.fab = s.fab
  cells : t.cells = s.cells
  dram : t.dram = s.dram
  out : t.out = s.out

theorem KeepsDiscovery.self (s : State) : KeepsDiscovery s s := ⟨fun _ _ _ => rfl, rfl, rfl, rfl, rfl⟩

/-- A partner out of tolerance only reports, after the sticky bit. -/
theorem unlocked_reports (h : Canon s) (l : Nat) : OnlyReports (sticky Reg.FAB_STICKY 5 s) (unlocked l s) :=
  (rep_jobFaultRec (rep_self (canon_sticky h))).only

theorem unlocked_keeps (h : Canon s) (l : Nat) : KeepsDiscovery s (unlocked l s) where
  regs k hk hr := ((unlocked_reports h l).regs k hr).trans (rd_sticky_ne h.regs _ hk)
  fab := (unlocked_reports h l).fab
  cells := (unlocked_reports h l).cells
  dram := (unlocked_reports h l).dram
  out := jobFaultRec_out ..

theorem unlocked_faults (h : Canon s) (hn : castingRuns s = true) (l : Nat) :
    fld (unlocked l s) Reg.FAB_STICKY 5 5 = 1 ∧ (unlocked l s).run.faultAt.isSome = true := by
  have hst : castingRuns (sticky Reg.FAB_STICKY 5 s) = true := by
    simpa only [castingRuns, schState, fld_def, rd_sticky_ne h.regs 5 (show Reg.SCH_STATUS ≠ Reg.FAB_STICKY by decide)] using hn
  refine ⟨?_, jobFaultRec_faultAt hst _ _ _⟩
  rw [fld_def, (unlocked_reports h l).regs _ (by decide), ← fld_def]
  exact fld_sticky h.regs _ (by decide)

variable {sent back : Nat}

theorem beaconChecked_keeps (h : Canon s) : KeepsDiscovery s (beaconChecked p sent s) := by
  unfold beaconChecked
  split
  · exact unlocked_keeps h _
  · exact .self s

theorem canon_beaconChecked (h : Canon s) : Canon (beaconChecked p sent s) := canon_ite (canon_unlocked h) h

/-- Without a running casting nothing is checked. -/
theorem beaconChecked_idle (h : castingRuns s = false) : beaconChecked p sent s = s := by
  simp only [beaconChecked, h, Bool.false_and, Bool.false_eq_true, if_false]

/-- A partner that is out of tolerance in the state after the check has raised the job fault. -/
theorem beaconChecked_faults (h : Canon s) (hn : castingRuns s = true)
    (hu : portUp (beaconChecked p sent s) ((logicalAt s p).getD 47) = true)
    (ho : beaconOut (beaconChecked p sent s) p ((logicalAt s p).getD 47) sent = true) :
    fld (beaconChecked p sent s) Reg.FAB_STICKY 5 5 = 1 ∧ (beaconChecked p sent s).run.faultAt.isSome = true := by
  unfold beaconChecked at hu ho ⊢
  split at hu
  case isTrue hc =>
    rw [if_pos hc]
    exact unlocked_faults h hn _
  case isFalse hc =>
    rw [if_neg hc] at ho
    exact absurd (by rw [hn, hu, ho]; rfl) hc

theorem rd_beaconDelay_ne (h : Canon s) {k : Nat} (hk : k ≠ bankKey Reg.FAB_PORT_DELAY p) : rd (beaconDelay p back s) k = rd s k := by
  unfold beaconDelay
  split
  · rfl
  · exact rd_wr_ne (canon_fresh h).regs _ hk

theorem rd_beaconDelay_lt (h : Canon s) (hb : back ≠ 0) : rd (beaconDelay p back s) (bankKey Reg.FAB_PORT_DELAY p) < 2 ^ 20 := by
  rw [beaconDelay, if_neg hb, rd_wr (canon_fresh h).regs]
  exact lt_of_le_of_lt (Nat.mod_le _ _) (Nat.mod_lt _ (Nat.two_pow_pos 20))

theorem beaconDelay_keeps : (beaconDelay p back s).fab = s.fab ∧ (beaconDelay p back s).cells = s.cells ∧
    (beaconDelay p back s).dram = s.dram ∧ (beaconDelay p back s).out = s.out ∧ (beaconDelay p back s).run = s.run := by
  unfold beaconDelay
  split <;> exact ⟨rfl, rfl, rfl, rfl, rfl⟩

end

/-! ### What the statement reads -/

theorem bankKey_ne_of_register {a b p q : Nat} (h : a ≠ b) (hp : p < 2 ^ 20) (hq : q < 2 ^ 20) : bankKey a p ≠ bankKey b q := by
  simp only [bankKey]; omega

theorem bankKey_ne_of_package {k : Nat} (h : k < 2 ^ 40) (a p : Nat) : k ≠ bankKey a p := by simp only [bankKey]; omega

theorem reportKey_ports : ∀ p < 48, reportKey (portKey p) = false ∧ reportKey (bankKey Reg.FAB_PORT_PARTNER p) = false ∧
    reportKey (bankKey Reg.FAB_PORT_DELAY p) = false := by decide

/-- What names the members of the forge is nothing that the check and the measure of a BEACON write. -/
theorem memberKey_apart {k q : Nat} (h : memberKey k) (hq : q < 48) :
    k ≠ Reg.FAB_ADDR ∧ k ≠ Reg.FAB_STICKY ∧ reportKey k = false ∧ k ≠ bankKey Reg.FAB_PORT_DELAY q := by
  rcases h with rfl | rfl | rfl | ⟨p, hp, rfl | rfl⟩
  · exact ⟨by decide, by decide, by decide, bankKey_ne_of_package (by decide) _ _⟩
  · exact ⟨by decide, by decide, by decide, bankKey_ne_of_package (by decide) _ _⟩
  · exact ⟨by decide, by decide, by decide, bankKey_ne_of_package (by decide) _ _⟩
  · exact ⟨(bankKey_ne_of_package (by decide) _ _).symm, (bankKey_ne_of_package (by decide) _ _).symm, (reportKey_ports p hp).1,
      bankKey_ne_of_register (by decide) (by omega) (by omega)⟩
  · exact ⟨(bankKey_ne_of_package (by decide) _ _).symm, (bankKey_ne_of_package (by decide) _ _).symm, (reportKey_ports p hp).2.1,
      bankKey_ne_of_register (by decide) (by omega) (by omega)⟩

section
variable {p : Nat} {flit : List Byte} {s : State}

theorem castingRuns_beaconHeard (h : Canon s) : castingRuns (beaconHeard p flit s) = castingRuns s := by
  simp only [castingRuns, schState, fld_def,
    rd_beaconHeard_ne (p := p) (flit := flit) h (bankKey_ne_of_package (k := Reg.SCH_STATUS) (by decide) _ _) (by decide)]

/-- The port map decides which logical port a physical one is. -/
theorem logicalAt_congr {t : State} (h : ∀ l < 48, rd t (Reg.FAB_PORTMAP + 4 * (l / 4)) = rd s (Reg.FAB_PORTMAP + 4 * (l / 4))) (p : Nat) :
    logicalAt t p = logicalAt s p := by
  have : (List.range 48).filter (fun l => physOf t l == p) = (List.range 48).filter (fun l => physOf s l == p) :=
    List.filter_congr fun l hl => by simp only [physOf, fld_def, h l (List.mem_range.1 hl)]
  simp only [logicalAt, this]

theorem logicalAt_beaconHeard (h : Canon s) (q : Nat) : logicalAt (beaconHeard p flit s) q = logicalAt s q :=
  logicalAt_congr (fun l hl => rd_beaconHeard_ne h (bankKey_ne_of_package (by simp only [Reg.FAB_PORTMAP]; omega) _ _)
    (by simp only [Reg.FAB_PORTMAP, Reg.FAB_ADDR]; omega)) q

/-- The state that a BEACON taken leaves. -/
def beaconTaken (p : Nat) (flit : List Byte) (s : State) : State :=
  beaconDelay p (flitNat flit 0x18 8) (beaconChecked p (flitNat flit 0x10 8) (beaconHeard p flit s))

theorem rd_beaconTaken (h : Canon s) {k : Nat} (hd : k ≠ bankKey Reg.FAB_PORT_DELAY p) (hs : k ≠ Reg.FAB_STICKY) (hr : reportKey k = false) :
    rd (beaconTaken p flit s) k = rd (beaconHeard p flit s) k :=
  (rd_beaconDelay_ne (canon_beaconChecked (canon_beaconHeard h)) hd).trans ((beaconChecked_keeps (canon_beaconHeard h)).regs k hs hr)

theorem beaconTaken_keeps (h : Canon s) : (beaconTaken p flit s).fab = (beaconHeard p flit s).fab ∧ (beaconTaken p flit s).cells = s.cells ∧
    (beaconTaken p flit s).dram = s.dram ∧ (beaconTaken p flit s).out = s.out := by
  obtain ⟨hf, hc, hd, ho, -⟩ := beaconDelay_keeps (p := p) (back := flitNat flit 0x18 8)
    (s := beaconChecked p (flitNat flit 0x10 8) (beaconHeard p flit s))
  have k := beaconChecked_keeps (p := p) (sent := flitNat flit 0x10 8) (canon_beaconHeard (p := p) (flit := flit) h)
  exact ⟨hf.trans k.fab, hc.trans k.cells, hd.trans k.dram, ho.trans k.out⟩

/-- FAB_ADDR names the timekeeper of the state that results. -/
theorem beaconTaken_timekeeper (h : Canon s) (hp : p < 48) :
    fld (beaconTaken p flit s) Reg.FAB_ADDR 31 16 = findTimekeeper (beaconTaken p flit s) := by
  have hn : wf regDefault (partnerNamed p flit s).regs = true := (canon_partnerNamed h).regs
  have hkey : rd (beaconTaken p flit s) Reg.FAB_ADDR = rd (beaconHeard p flit s) Reg.FAB_ADDR :=
    rd_beaconTaken h (bankKey_ne_of_package (by decide) _ _) (by decide) (by decide)
  obtain ⟨hf, -, hd, -⟩ := beaconTaken_keeps (p := p) (flit := flit) h
  have hsame : findTimekeeper (beaconTaken p flit s) = findTimekeeper (partnerNamed p flit s) := by
    refine findTimekeeper_congr ?_ (fun k hk => ?_) (fun q => ?_) hd
    · rw [ownAddr, fld_def, hkey, ← fld_def]
      exact fld_setFld_ne hn _ _ _ (by decide) (.inl (by decide))
    · obtain ⟨ha, hs, hr, hdl⟩ := memberKey_apart hk hp
      exact (rd_beaconTaken h hdl hs hr).trans (rd_setFld_ne hn _ _ _ ha)
    · simp only [portAt, hf]; rfl
  rw [hsame, fld_def, hkey, ← fld_def]
  exact (fld_setFld hn _ _ _ (by decide)).trans (Nat.mod_eq_of_lt (findTimekeeper_lt _))

end

/-! ### The obligation -/

/-- A BEACON that the port takes. -/
theorem beacon_taken {p : Fin 48} {flit : List Byte} {s : State} (h : Canon s) (hp : wf (fun _ => Port.init) s.fab.ports = true)
    (ht : ¬ beaconRefused p.val flit s) :
    let t := withQueue s.pending (execBeacon p flit s)
    rd t (bankKey Reg.FAB_PORT_PARTNER p.val) = flitNat flit 4 2 + 65536 * (flitNat flit 2 1 % 64) ∧
    fld t Reg.FAB_ADDR 31 16 = findTimekeeper t ∧ portAt t p.val = beaconPort p.val flit s ∧
    (flitNat flit 0x18 8 = 0 → rd t (bankKey Reg.FAB_PORT_DELAY p.val) = rd s (bankKey Reg.FAB_PORT_DELAY p.val)) ∧
    (flitNat flit 0x18 8 ≠ 0 → rd t (bankKey Reg.FAB_PORT_DELAY p.val) < 2 ^ 20) ∧
    (castingRuns s = false → t.run = s.run ∧ fld t Reg.FAB_STICKY 5 5 = fld s Reg.FAB_STICKY 5 5) ∧
    (castingRuns s = true → flitNat flit 0x18 8 = 0 → portUp t ((logicalAt s p.val).getD 47) = true →
      beaconOut t p.val ((logicalAt s p.val).getD 47) (flitNat flit 0x10 8) = true →
      fld t Reg.FAB_STICKY 5 5 = 1 ∧ t.run.faultAt.isSome = true) ∧
    (∀ k, k ≠ bankKey Reg.FAB_PORT_PARTNER p.val → k ≠ bankKey Reg.FAB_PORT_DELAY p.val → k ≠ Reg.FAB_ADDR → k ≠ Reg.FAB_STICKY →
      reportKey k = false → rd t k = rd s k) ∧
    t.cells = s.cells ∧ t.dram = s.dram ∧ t.out = s.out := by
  have hh : Canon (beaconHeard p.val flit s) := canon_beaconHeard h
  obtain ⟨-, hpart, hdel⟩ := reportKey_ports p.val p.isLt
  obtain ⟨hf, hc, hd, ho⟩ := beaconTaken_keeps (p := p.val) (flit := flit) h
  have hpd : bankKey Reg.FAB_PORT_PARTNER p.val ≠ bankKey Reg.FAB_PORT_DELAY p.val :=
    bankKey_ne_of_register (by decide) (by omega) (by omega)
  have package : ∀ k a, k < 2 ^ 40 → bankKey a p.val ≠ k := fun k a hk => (bankKey_ne_of_package hk _ _).symm
  rw [execBeacon_taken ht, ← beaconTaken]
  intro t
  refine ⟨?_, beaconTaken_timekeeper h p.isLt, ?_, fun hb => ?_, rd_beaconDelay_lt (canon_beaconChecked hh), fun hn => ?_,
    fun hn hb hu ho => ?_, fun k h1 h2 h3 h4 h5 => (rd_beaconTaken h h2 h4 h5).trans (rd_beaconHeard_ne h h1 h3), hc, hd, ho⟩
  · refine (rd_beaconTaken h hpd (package _ _ (by decide)) hpart).trans ?_
    exact (rd_setFld_ne (canon_partnerNamed h).regs _ _ _ (package _ _ (by decide))).trans (rd_partnerNamed h)
  · exact (congrArg (fun f : Fab => get (fun _ => Port.init) f.ports p.val) hf).trans (portAt_beaconHeard hp)
  · have : t = withQueue s.pending (beaconChecked p.val (flitNat flit 0x10 8) (beaconHeard p.val flit s)) := by
      simp only [t, beaconTaken, beaconDelay, hb, if_true]
    rw [this]
    exact ((beaconChecked_keeps hh).regs _ (package _ _ (by decide)) hdel).trans
      (rd_beaconHeard_ne h hpd.symm (package _ _ (by decide)))
  · have hi : beaconChecked p.val (flitNat flit 0x10 8) (beaconHeard p.val flit s) = beaconHeard p.val flit s :=
      beaconChecked_idle ((castingRuns_beaconHeard h).trans hn)
    have ht : t = withQueue s.pending (beaconDelay p.val (flitNat flit 0x18 8) (beaconHeard p.val flit s)) := by
      simp only [t, beaconTaken, hi]
    obtain ⟨-, -, -, -, hr⟩ := beaconDelay_keeps (p := p.val) (back := flitNat flit 0x18 8) (s := beaconHeard p.val flit s)
    rw [ht]
    refine ⟨hr, ?_⟩
    rw [fld_withQueue, fld_def, rd_beaconDelay_ne hh (bankKey_ne_of_package (by decide) _ _),
      rd_beaconHeard_ne h (bankKey_ne_of_package (by decide) _ _) (by decide), fld_def]
  · have : t = withQueue s.pending (beaconChecked p.val (flitNat flit 0x10 8) (beaconHeard p.val flit s)) := by
      simp only [t, beaconTaken, beaconDelay, hb, if_true]
    rw [this] at hu ho ⊢
    rw [← logicalAt_beaconHeard (p := p.val) (flit := flit) h] at hu ho
    exact beaconChecked_faults hh ((castingRuns_beaconHeard h).trans hn) hu ho

/-- Settles O27: a BEACON is discarded, or names the partner, has the timekeeper found anew, and the offset and delay looked at. -/
theorem beaconsDiscover : Obligations.BeaconsDiscover := by
  unfold Obligations.BeaconsDiscover
  intro phys flit s hs hp p f beacon
  have h : Canon s := canon_iff.1 hs
  refine ⟨fun hr => ?refused, fun h4 h7 h1 ha hb => ⟨_, rfl, ?taken⟩, fun h5 => ⟨_, rfl, ?up⟩, fun h6 => ⟨_, rfl, ?miswired⟩,
    fun h5 h6 => ?quiet⟩
  case refused => exact served_unchanged (f := execBeacon phys flit) (execBeacon_refused hr)
  case taken =>
    have ht : ¬ beaconRefused phys.val flit s := by
      rintro (h | h | h | h | h)
      · exact absurd h (Nat.not_lt.2 h4)
      · exact h7 h
      · exact h h1
      · exact Bool.false_ne_true (h.symm.trans ha)
      · exact Bool.false_ne_true (h.symm.trans hb)
    obtain ⟨hpartner, htime, hport, hkept, hmeasured, hidle, hfault, hregs, hcells, hdram, hout⟩ := beacon_taken h hp ht
    refine ⟨hpartner, htime, ?_, ?_, ?_, ?_, ?_, hkept, hmeasured, hidle, hfault, hregs, hcells, hdram, hout⟩ <;>
      exact (congrArg _ hport).trans rfl
  case up =>
    simp only [execBeaconTimer]
    rw [if_pos h5]
    exact ⟨List.append_assoc .., rfl, rfl, rfl⟩
  case miswired =>
    have h5 : portState s phys.val ≠ 5 := fun e => absurd (h6.symm.trans e) (by decide)
    simp only [execBeaconTimer]
    rw [if_neg h5, if_pos h6]
    exact ⟨rfl, rfl, rfl, rfl⟩
  case quiet =>
    refine served_unchanged (f := execBeaconTimer phys) ?_
    simp only [execBeaconTimer]
    rw [if_neg h5, if_neg h6]

end Sys2Proof.Machine
end

section
/-! PROOFS. DIM, parcel credits, and the forwarding of parcels (R29, R281, R300, R301; log 97). -/
namespace Sys2Proof.Machine

/-! ### DIM (R281) -/

section
variable {s : State} {p : Nat}

theorem portAt_setPort (h : wf (fun _ => Port.init) s.fab.ports = true) (p : Nat) (x : Port) : portAt (setPort p x s) p = x := get_put h

theorem portAt_setPort_ne (h : wf (fun _ => Port.init) s.fab.ports = true) {p q : Nat} (x : Port) (hq : q ≠ p) :
    portAt (setPort p x s) q = portAt s q := get_put_ne h hq

/-- A port dark by plan. -/
def dimmed (p : Nat) (s : State) : State := setPort p { portAt (portDark p 7 s) p with planned := true } (portDark p 7 s)

theorem execDim_dark {phys : Fin 48} (h : portLasers s phys.val = false) : execDim phys s = s := by
  simp only [execDim, h, Bool.not_false, if_true]

theorem execDim_lit {phys : Fin 48} (h : portLasers s phys.val = true) : execDim phys s = dimmed phys.val s := by
  simp only [execDim, h, Bool.not_true, Bool.false_eq_true, if_false]
  rfl

/-- FAB_PORT_STATUS of a port gone dark. -/
theorem rd_portDark (h : Canon s) (p v : Nat) : rd (portDark p v s) (portKey p) =
    setBits (setBits (setBits (rd s (portKey p)) 2 0 v) 11 3 0) 15 12 0xF := by
  have h1 : Canon (setPortState p v s) := canon_setFld h
  have h2 : Canon (setFld (portKey p) 11 3 0 (setPortState p v s)) := canon_setFld h1
  refine (rd_setFld h2.regs _ _ _ (by decide)).trans ?_
  rw [rd_setFld h1.regs _ _ _ (by decide), setPortState, rd_setFld h.regs _ _ _ (by decide)]

theorem rd_portDark_ne (h : Canon s) {k : Nat} (hk : k ≠ portKey p) (v : Nat) : rd (portDark p v s) k = rd s k := by
  have h1 : Canon (setPortState p v s) := canon_setFld h
  have h2 : Canon (setFld (portKey p) 11 3 0 (setPortState p v s)) := canon_setFld h1
  exact (rd_setFld_ne h2.regs _ _ _ hk).trans ((rd_setFld_ne h1.regs _ _ _ hk).trans (rd_setFld_ne h.regs _ _ _ hk))

theorem dimmed_values (h : Canon s) (hp : wf (fun _ => Port.init) s.fab.ports = true) :
    portState (dimmed p s) p = 7 ∧ (portAt (dimmed p s) p).planned = true ∧ (portAt (dimmed p s) p).stageAt = 0 ∧
    fld (dimmed p s) (portKey p) 11 3 = 0 ∧ (∀ k, k ≠ portKey p → rd (dimmed p s) k = rd s k) ∧
    (∀ q, q ≠ p → portAt (dimmed p s) q = portAt s q) := by
  have hp' : wf (fun _ => Port.init) (portDark p 7 s).fab.ports = true := wf_put hp
  have hport : portAt (dimmed p s) p = { portAt (portDark p 7 s) p with planned := true } := portAt_setPort hp' p _
  have hdark : portAt (portDark p 7 s) p = { portAt s p with stageAt := 0, swapLane := none } := get_put hp
  have hreg : rd (dimmed p s) (portKey p) = setBits (setBits (setBits (rd s (portKey p)) 2 0 7) 11 3 0) 15 12 0xF := rd_portDark h p 7
  refine ⟨?_, ?_, ?_, ?_, fun k hk => rd_portDark_ne h hk 7, fun q hq => ?_⟩
  · rw [portState, fld_def, hreg, bits_setBits_ne _ _ (.inl (by decide)), bits_setBits_ne _ _ (.inl (by decide)), bits_setBits]
    rfl
  · rw [hport]
  · rw [hport, hdark]
  · rw [fld_def, hreg, bits_setBits_ne _ _ (.inl (by decide)), bits_setBits]
    rfl
  · exact (portAt_setPort_ne hp' _ hq).trans (get_put_ne hp hq)

end

/-! ### Stored parcels go out (R300) -/

/-- A parcel stored for port `o`, with the port it came by, leaves where `o` has a credit. -/
def sendStored (o : Nat) (x : Nat × Option Nat × Parcel) (s : State) : State :=
  let y := portAt s o
  if y.credits = 0 then s
  else
    let s := emit (.parcel o x.2.2) (setPort o { y with credits := y.credits - 1 } s)
    returnCredit x.2.1 { s with fab := { s.fab with stored := s.fab.stored.erase x } }

/-- What a parcel that leaves by port `o` sends: itself, and the credit of the buffer it held. -/
def sentFor (o : Nat) (x : Nat × Option Nat × Parcel) : List Output := .parcel o x.2.2 :: x.2.1.elim [] fun q => [.ctrl q 7 [1]]

section
variable {s : State} {o : Nat} {x : Nat × Option Nat × Parcel}

theorem flushStored_eq (o : Nat) (s : State) : flushStored o s = each (s.fab.stored.filter fun x => x.1 == o) (sendStored o) s := rfl

theorem sendStored_without (h : (portAt s o).credits = 0) : sendStored o x s = s := by
  simp only [sendStored, h, if_true]

/-- One that leaves. -/
theorem sendStored_with (h : (portAt s o).credits ≠ 0) : (sendStored o x s).out = s.out ++ sentFor o x ∧
    (sendStored o x s).fab.stored = s.fab.stored.erase x ∧
    (sendStored o x s).fab.ports = put (fun _ => Port.init) s.fab.ports o { portAt s o with credits := (portAt s o).credits - 1 } := by
  obtain ⟨d, from_, q⟩ := x
  simp only [sendStored, h, if_false]
  cases from_ with
  | none => exact ⟨rfl, rfl, rfl⟩
  | some i => exact ⟨List.append_assoc .., rfl, rfl⟩

theorem sendStored_keeps (o : Nat) (x : Nat × Option Nat × Parcel) (s : State) : (sendStored o x s).regs = s.regs ∧
    (sendStored o x s).cells = s.cells ∧ (sendStored o x s).dram = s.dram := by
  obtain ⟨d, from_, q⟩ := x
  by_cases h : (portAt s o).credits = 0
  · rw [sendStored_without h]; exact ⟨rfl, rfl, rfl⟩
  · simp only [sendStored, h, if_false]
    cases from_ <;> exact ⟨rfl, rfl, rfl⟩

theorem flushStored_keeps (o : Nat) (s : State) : (flushStored o s).regs = s.regs ∧ (flushStored o s).cells = s.cells ∧
    (flushStored o s).dram = s.dram :=
  ⟨each_keeps State.regs (fun x s => (sendStored_keeps o x s).1) s, each_keeps State.cells (fun x s => (sendStored_keeps o x s).2.1) s,
    each_keeps State.dram (fun x s => (sendStored_keeps o x s).2.2) s⟩

/-- As many parcels leave as there are credits. -/
theorem each_sendStored {l : List (Nat × Option Nat × Parcel)} {s : State} (h : wf (fun _ => Port.init) s.fab.ports = true) :
    (each l (sendStored o) s).out = s.out ++ (l.take (portAt s o).credits).flatMap (sentFor o) ∧
    (each l (sendStored o) s).fab.stored = (l.take (portAt s o).credits).foldl List.erase s.fab.stored ∧
    (portAt (each l (sendStored o) s) o).credits = (portAt s o).credits - min (portAt s o).credits l.length := by
  induction l generalizing s with
  | nil => simp [each_nil]
  | cons x l ih =>
    rw [each_cons]
    by_cases hc : (portAt s o).credits = 0
    · simpa [sendStored_without hc, hc] using ih h
    · obtain ⟨ho, hs, hp⟩ := sendStored_with (x := x) hc
      obtain ⟨n, hn⟩ : ∃ n, (portAt s o).credits = n + 1 := ⟨_, (Nat.succ_pred hc).symm⟩
      have hw : wf (fun _ => Port.init) (sendStored o x s).fab.ports = true := hp ▸ wf_put h
      have hcr : (portAt (sendStored o x s) o).credits = n := by
        rw [portAt, hp, get_put h, hn, Nat.add_sub_cancel]
      obtain ⟨io, is_, in_⟩ := ih hw
      rw [hcr] at io is_ in_
      rw [io, is_, in_, ho, hs, hn, List.take_succ_cons, List.flatMap_cons, List.foldl_cons, List.length_cons]
      exact ⟨List.append_assoc .., rfl, by omega⟩

/-- Taking the first `n` of those that satisfy `q` out of a list. -/
theorem erase_first_filtered {α : Type} [BEq α] [LawfulBEq α] (q : α → Bool) (n : Nat) (l : List α) :
    (((l.filter q).take n).foldl List.erase l).length = l.length - min n (l.filter q).length ∧
    (((l.filter q).take n).foldl List.erase l).filter (fun x => !q x) = l.filter fun x => !q x := by
  induction n generalizing l with
  | zero => simp
  | succ n ih =>
    cases hf : l.filter q with
    | nil => simp
    | cons x r =>
      have hx : x ∈ l ∧ q x = true := List.mem_filter.1 (hf ▸ List.mem_cons_self)
      have hr : (l.erase x).filter q = r := by rw [← List.erase_filter, hf, List.erase_cons_head]
      have hn : (l.erase x).filter (fun x => !q x) = l.filter fun x => !q x := by
        rw [← List.erase_filter, List.erase_of_not_mem (by simp [hx.2])]
      obtain ⟨hl, hk⟩ := ih (l.erase x)
      have hpos := List.length_pos_of_mem hx.1
      rw [hr, List.length_erase_of_mem hx.1] at hl
      rw [hr, hn] at hk
      rw [List.take_succ_cons, List.foldl_cons, List.length_cons, hl]
      exact ⟨by omega, hk⟩

end

/-! ### CREDIT (R300) -/

/-- Credits come back, up to the 64 buffers of a port. -/
def creditsBack (p n : Nat) (s : State) : State := setPort p { portAt s p with credits := min 64 ((portAt s p).credits + n) } s

theorem execCredit_eq (phys : Fin 48) (n : Fin 65) (s : State) :
    execCredit phys n s = flushStored phys.val (creditsBack phys.val n.val s) := rfl

theorem execCredit_values {s : State} (hp : wf (fun _ => Port.init) s.fab.ports = true) (phys : Fin 48) (n : Fin 65) :
    let p := phys.val
    let c := min 64 ((portAt s p).credits + n.val)
    let waiting := s.fab.stored.filter fun x => x.1 == p
    let t := execCredit phys n s
    t.out = s.out ++ (waiting.take c).flatMap (sentFor p) ∧ (portAt t p).credits = c - min c waiting.length ∧
    t.fab.stored.length = s.fab.stored.length - min c waiting.length ∧
    (t.fab.stored.filter fun x => x.1 != p) = (s.fab.stored.filter fun x => x.1 != p) := by
  intro p c waiting t
  have hc : (portAt (creditsBack p n.val s) p).credits = c := congrArg Port.credits (portAt_setPort hp p _)
  obtain ⟨ho, hs, hn⟩ := each_sendStored (l := waiting) (o := p) (s := creditsBack p n.val s) (wf_put hp)
  obtain ⟨hl, hk⟩ := erase_first_filtered (fun x : Nat × Option Nat × Parcel => x.1 == p) c s.fab.stored
  rw [hc] at ho hs hn
  have hs' : t.fab.stored = (waiting.take c).foldl List.erase s.fab.stored := hs
  exact ⟨ho, hn, hs' ▸ hl, hs' ▸ hk⟩

/-! ### PARCEL (R300, R301) -/

/-- The mark of a codeword's own count is taken back. -/
def lossCleared (p : Nat) (s : State) : State := setPort p { portAt s p with parcelLost := false } s

section
variable {s : State} {p : Nat}

theorem portAt_lossCleared (h : wf (fun _ => Port.init) s.fab.ports = true) (p q : Nat) :
    ∃ b, portAt (lossCleared p s) q = { portAt s q with parcelLost := b } := by
  by_cases e : q = p
  · exact ⟨false, e ▸ portAt_setPort h q _⟩
  · exact ⟨(portAt s q).parcelLost, portAt_setPort_ne h _ e⟩

/-- The mark plays no part in the choice of a route. -/
theorem route_lossCleared (h : wf (fun _ => Port.init) s.fab.ports = true) (p dst : Nat) : route (lossCleared p s) dst = route s dst := by
  have fits : ∀ q, partnerFits (lossCleared p s) q = partnerFits s q := fun q => by
    obtain ⟨b, hb⟩ := portAt_lossCleared h p q
    simp only [partnerFits, hb]
    rfl
  have up : portUp (lossCleared p s) = portUp s := funext fun l => by
    simp only [portUp, fits]
    rfl
  have active : partnerActive (lossCleared p s) = partnerActive s := funext fun l => by
    obtain ⟨b, hb⟩ := portAt_lossCleared h p (physOf (lossCleared p s) l)
    simp only [partnerActive, hb]
    rfl
  have forge : routeForge (lossCleared p s) = routeForge s := funext fun d => by
    simp only [routeForge, up, active]
    rfl
  simp only [route, up, forge]
  rfl

/-- A dropped parcel is counted. -/
theorem dropParcel_values (h : Canon s) : rd (dropParcel s) Reg.FAB_PARCEL_DROPS = min (rd s Reg.FAB_PARCEL_DROPS + 1) (2 ^ 32 - 1) ∧
    fld (dropParcel s) Reg.FAB_STICKY 9 9 = 1 := by
  have hb : Canon (bump Reg.FAB_PARCEL_DROPS s) := canon_bump h
  exact ⟨(rd_sticky_ne hb.regs 9 (by decide)).trans (rd_bump h.regs _), fld_sticky hb.regs _ (by decide)⟩

variable {phys : Fin 48} {x : Parcel}

theorem execParcel_invalid (h : ¬ (validAddr x.dst.toNat = true ∧ validAddr x.src.toNat = true)) (bad : Bool) :
    execParcel phys x bad s = lossCleared phys.val s := by
  have : (!validAddr x.dst.toNat || !validAddr x.src.toNat) = true := by
    rw [Bool.or_eq_true, Bool.not_eq_true', Bool.not_eq_true', ← Bool.not_eq_true, ← Bool.not_eq_true]
    exact not_and_or.1 h
  simp only [execParcel, this, if_true]
  rfl

/-- A parcel between valid addresses. -/
theorem execParcel_sound (h : validAddr x.dst.toNat = true ∧ validAddr x.src.toNat = true) (bad : Bool) :
    execParcel phys x bad s =
      if bad then returnCredit (some phys.val) (if (portAt s phys.val).parcelLost then lossCleared phys.val s else dropParcel (lossCleared phys.val s))
      else if 64 ≤ buffersUsed s phys.val then dropParcel (lossCleared phys.val s)
      else if x.dst.toNat = ownAddr s then returnCredit (some phys.val) (lossCleared phys.val s)
      else forwardParcel (some phys.val) x (lossCleared phys.val s) := by
  simp only [execParcel, h.1, h.2, Bool.not_true, Bool.or_self, Bool.false_eq_true, if_false]
  rfl

/-- The parcel is stored for the port of its route, and what the credits of that port allow goes out. -/
def routed (p o : Nat) (x : Parcel) (s : State) : State :=
  { lossCleared p s with fab := { (lossCleared p s).fab with stored := s.fab.stored ++ [(o, some p, x)] } }

theorem forwardParcel_routed (h : wf (fun _ => Port.init) s.fab.ports = true) {l : Nat} (hr : route s x.dst.toNat = some l) :
    forwardParcel (some p) x (lossCleared p s) = flushStored (physOf s l) (routed p (physOf s l) x s) := by
  simp only [forwardParcel, route_lossCleared h, hr]
  rfl

theorem forwardParcel_nowhere (h : wf (fun _ => Port.init) s.fab.ports = true) (hr : route s x.dst.toNat = none) :
    forwardParcel (some p) x (lossCleared p s) = returnCredit (some p) (dropParcel (lossCleared p s)) := by
  simp only [forwardParcel, route_lossCleared h, hr]

theorem credits_routed (h : wf (fun _ => Port.init) s.fab.ports = true) (o : Nat) : (portAt (routed p o x s) o).credits = (portAt s o).credits := by
  obtain ⟨b, hb⟩ := portAt_lossCleared h p o
  have hc : (portAt (lossCleared p s) o).credits = (portAt s o).credits := by rw [hb]
  exact hc

theorem stored_routed (o : Nat) : (routed p o x s).fab.stored.filter (fun y => y.1 == o) =
    (s.fab.stored.filter fun y => y.1 == o) ++ [(o, some p, x)] := by
  simp [routed]

/-- Without a credit it stays stored. -/
theorem flush_routed_without (h : wf (fun _ => Port.init) s.fab.ports = true) {o : Nat} (hc : (portAt s o).credits = 0) :
    (flushStored o (routed p o x s)).out = s.out ∧ (flushStored o (routed p o x s)).fab.stored = s.fab.stored ++ [(o, some p, x)] := by
  obtain ⟨ho, hs, -⟩ := each_sendStored (l := (routed p o x s).fab.stored.filter fun y => y.1 == o) (o := o) (s := routed p o x s) (wf_put h)
  rw [credits_routed h, hc, List.take_zero] at ho hs
  exact ⟨ho.trans (List.append_nil _), hs⟩

/-- With one, and nothing stored before it, it leaves. -/
theorem flush_routed_with (h : wf (fun _ => Port.init) s.fab.ports = true) {o : Nat} (hc : (portAt s o).credits ≠ 0)
    (he : (s.fab.stored.filter fun y => y.1 == o) = []) :
    (flushStored o (routed p o x s)).out = s.out ++ [.parcel o x, .ctrl p 7 [1]] ∧
    (flushStored o (routed p o x s)).fab.stored = s.fab.stored ∧
    (portAt (flushStored o (routed p o x s)) o).credits = (portAt s o).credits - 1 := by
  obtain ⟨ho, hs, hn⟩ := each_sendStored (l := [(o, some p, x)]) (o := o) (s := routed p o x s) (wf_put h)
  have hl : flushStored o (routed p o x s) = each [(o, some p, x)] (sendStored o) (routed p o x s) := by
    rw [flushStored_eq, stored_routed, he, List.nil_append]
  have ht : [(o, some p, x)].take (portAt s o).credits = [(o, some p, x)] := List.take_of_length_le (Nat.one_le_iff_ne_zero.2 hc)
  have hm : (o, some p, x) ∉ s.fab.stored := fun hm => by
    have : (o, some p, x) ∈ s.fab.stored.filter fun y => y.1 == o := List.mem_filter.2 ⟨hm, beq_self_eq_true o⟩
    rw [he] at this
    exact absurd this List.not_mem_nil
  rw [credits_routed h] at ho hs hn
  rw [ht] at ho hs
  rw [hl]
  refine ⟨ho, hs.trans ?_, hn.trans ?_⟩
  · show (s.fab.stored ++ [(o, some p, x)]).erase (o, some p, x) = s.fab.stored
    rw [List.erase_append_right _ hm, List.erase_cons_head, List.append_nil]
  · rw [List.length_singleton, Nat.min_eq_right (Nat.one_le_iff_ne_zero.2 hc)]

end

/-! ### The obligation -/

/-- Settles O28: DIM is one darkening, CREDIT one round over the parcels stored for the port, and PARCEL one of the five cases of R300 and
R301. -/
theorem creditsAndParcels : Obligations.CreditsAndParcels := by
  unfold Obligations.CreditsAndParcels
  refine ⟨?ports, ?parcels⟩
  case ports =>
    intro phys n s hs hp p c waiting
    have h : Canon s := canon_iff.1 hs
    refine ⟨fun hd => ?dark, fun hl => ⟨_, rfl, ?lit⟩, ⟨_, rfl, ?credit⟩⟩
    case dark => exact congrArg (fun t => Host.Outcome.next (withQueue s.pending t)) (execDim_dark hd)
    case lit =>
      obtain ⟨hst, hpl, hsg, hln, hreg, hport⟩ := dimmed_values (p := phys.val) h hp
      rw [execDim_lit hl]
      exact ⟨hst, hpl, hsg, hln, hreg, hport, rfl, rfl⟩
    case credit =>
      obtain ⟨ho, hn, hl, hk⟩ := execCredit_values hp phys n
      obtain ⟨hr, hc, hd⟩ := flushStored_keeps phys.val (creditsBack phys.val n.val s)
      exact ⟨ho, hn, hl, hk, hr, hc, hd⟩
  case parcels =>
    intro phys x s hs hp credit counted s0 dropped sound
    have h0 : Canon s0 := canon_setPort (canon_iff.1 hs)
    have hdrop : ∀ t, t.regs = (dropParcel s0).regs → t.fab = s0.fab → t.cells = s.cells → t.dram = s.dram → dropped t := fun t hr hf hc hd => by
      obtain ⟨hn, hb⟩ := dropParcel_values h0
      exact ⟨(rd_congr hr _).trans hn, (congrArg (bits · 9 9) (rd_congr hr _)).trans hb, hf, hc, hd⟩
    refine ⟨fun hv bad => ?invalid, fun hv hn => ⟨_, rfl, ?lost⟩, fun hv hn => ⟨_, rfl, ?counted⟩, fun hv hb => ⟨_, rfl, ?full⟩,
      fun hv hb ha => ⟨_, rfl, ?own⟩, fun hv hb ha hr => ⟨_, rfl, ?nowhere⟩, fun l hv hb ha hr => ⟨_, rfl, ?forward⟩⟩
    case invalid => exact congrArg (fun t => Host.Outcome.next (withQueue s.pending t)) (execParcel_invalid hv bad)
    case lost =>
      rw [execParcel_sound hv, if_pos rfl, if_neg (show ¬ counted = true by rw [hn]; decide)]
      exact ⟨hdrop _ rfl rfl rfl rfl, rfl⟩
    case counted =>
      rw [execParcel_sound hv, if_pos rfl, if_pos hn]
      exact ⟨rfl, rfl, rfl, rfl, rfl⟩
    case full =>
      rw [execParcel_sound hv, if_neg (by decide), if_pos hb]
      exact ⟨hdrop _ rfl rfl rfl rfl, rfl⟩
    case own =>
      rw [execParcel_sound hv, if_neg (by decide), if_neg (Nat.not_le.2 hb), if_pos ha]
      exact ⟨rfl, rfl, rfl, rfl, rfl⟩
    case nowhere =>
      rw [execParcel_sound hv, if_neg (by decide), if_neg (Nat.not_le.2 hb), if_neg ha, forwardParcel_nowhere hp hr]
      exact ⟨hdrop _ rfl rfl rfl rfl, rfl⟩
    case forward =>
      rw [execParcel_sound hv, if_neg (by decide), if_neg (Nat.not_le.2 hb), if_neg ha, forwardParcel_routed hp hr]
      obtain ⟨hreg, hcell, hdram⟩ := flushStored_keeps (physOf s l) (routed phys.val (physOf s l) x s)
      exact ⟨hreg, hcell, hdram, fun hc => flush_routed_without hp hc, fun hc he => flush_routed_with hp hc he⟩

end Sys2Proof.Machine
end

section
/-! SUPPORT. What is in flight, when it lands, touches no supply, no settings bank and no header of a casting: one lemma per operation, in the
order of the model. -/
namespace Sys2Proof.Machine

/-- From `s` to `t` the supplies, the boot core's memories and the casting in force are left alone. -/
abbrev Spared (s t : State) : Prop := t.nvs = s.nvs ∧ t.pwr = s.pwr ∧ t.casting = s.casting

theorem Spared.refl (s : State) : Spared s s := ⟨rfl, rfl, rfl⟩

theorem Spared.after {s t u : State} (h : Spared t u) (h0 : Spared s t) : Spared s u :=
  ⟨h.1.trans h0.1, h.2.1.trans h0.2.1, h.2.2.trans h0.2.2⟩

theorem Spared.each {α : Type} {l : List α} {f : α → State → State} {s t : State} (hf : ∀ a s, Spared s (f a s)) (h : Spared s t) :
    Spared s (each l f t) :=
  Spared.after ⟨each_keeps State.nvs (fun a s => (hf a s).1) t, each_keeps State.pwr (fun a s => (hf a s).2.1) t,
    each_keeps State.casting (fun a s => (hf a s).2.2) t⟩ h

section
variable (s : State)

@[simp] theorem spared_ite (c : Prop) [Decidable c] (a b : State) : (if c then a else b).nvs = (if c then a.nvs else b.nvs) ∧
    (if c then a else b).pwr = (if c then a.pwr else b.pwr) ∧
    (if c then a else b).casting = (if c then a.casting else b.casting) :=
  ⟨apply_ite .., apply_ite .., apply_ite ..⟩

@[simp] theorem spared_each {α : Type} {l : List α} {f : α → State → State} (hf : ∀ a s, Spared s (f a s)) : Spared s (each l f s) :=
  .each hf (.refl s)

/-! ### Records, events, violations and taints -/

@[simp] theorem spared_localLevel : Spared s (localLevel s) := ⟨rfl, rfl, rfl⟩

@[simp] theorem spared_journalIssue (entry : List Byte) : Spared s (journalIssue entry s) := by simp [Spared, journalIssue]

@[simp] theorem spared_enqueue (r : Rec) : Spared s (enqueue r s) := by simp [Spared, enqueue]

@[simp] theorem spared_recordFull (cls sev : Nat) (loc : List (Nat × Nat)) (detail : List (String × Nat)) (classif first : Nat) :
    Spared s (recordFull cls sev loc detail classif first s) := by
  simp [Spared, recordFull]

@[simp] theorem spared_recordOf (cls reg : Nat) (loc : List (Nat × Nat)) (first : Nat) :
    Spared s (recordOf cls reg loc first s) := by
  simp [Spared, recordOf]

@[simp] theorem spared_record (cls : Nat) (loc : List (Nat × Nat)) (first : Nat) : Spared s (record cls loc first s) := by
  simp [Spared, record]

@[simp] theorem spared_riskInput (k n : Nat) : Spared s (riskInput k n s) := ⟨rfl, rfl, rfl⟩

@[simp] theorem spared_noteCorrected (place k : Nat) : Spared s (noteCorrected place k s) := ⟨rfl, rfl, rfl⟩

@[simp] theorem spared_emitPkt (q : Nat) (p : Pkt) : Spared s (emitPkt q p s) := ⟨rfl, rfl, rfl⟩

@[simp] theorem spared_sendPacket (q opcode va rkey : Nat) (payload : List Byte) (imm : Nat) (event : Bool) :
    Spared s (sendPacket q opcode va rkey payload imm event s) := ⟨rfl, rfl, rfl⟩

@[simp] theorem spared_event (etype code : Nat) : Spared s (event etype code s) := by
  unfold event
  split
  · exact ⟨rfl, rfl, rfl⟩
  · exact spared_each s fun q s => spared_sendPacket s q ..

@[simp] theorem spared_setSchState (t : Nat) : Spared s (setSchState t s) := by simp [Spared, setSchState]

@[simp] theorem spared_jobFault : Spared s (jobFault s) := by simp [Spared, jobFault]

@[simp] theorem spared_jobFaultRec (reg : Nat) (loc : List (Nat × Nat)) (first : Nat) :
    Spared s (jobFaultRec reg loc first s) := by
  simp [Spared, jobFaultRec]

@[simp] theorem spared_viol (bit unit die wh : Nat) : Spared s (viol bit unit die wh s) := by simp [Spared, viol]

@[simp] theorem spared_taintMark (cause unit die wh sub : Nat) (loc : List (Nat × Nat)) :
    Spared s (taintMark cause unit die wh sub loc s) := ⟨rfl, rfl, rfl⟩

@[simp] theorem spared_taintPoint : Spared s (taintPoint s) := ⟨rfl, rfl, rfl⟩

@[simp] theorem spared_taint (cause unit die wh sub : Nat) (loc : List (Nat × Nat)) :
    Spared s (taint cause unit die wh sub loc s) := by
  unfold taint
  split
  · exact ⟨rfl, rfl, rfl⟩
  · dsimp only; split <;> simp [Spared]

@[simp] theorem spared_taintCell (cause unit die cell : Nat) : Spared s (taintCell cause unit die cell s) := by simp [Spared, taintCell]

/-! ### Hallmark checks and ports -/

@[simp] theorem spared_noteCheck (unit place : Nat) (vals : List CheckVal) : Spared s (noteCheck unit place vals s) := by
  simp [Spared, noteCheck]

@[simp] theorem spared_setPortState (p v : Nat) : Spared s (setPortState p v s) := ⟨rfl, rfl, rfl⟩

@[simp] theorem spared_portDark (p v : Nat) : Spared s (portDark p v s) := ⟨rfl, rfl, rfl⟩

@[simp] theorem spared_slotFlits (l ring : Nat) (data : List (Option (List Byte))) : Spared s (slotFlits l ring data s) := ⟨rfl, rfl, rfl⟩

@[simp] theorem spared_sendSlots : Spared s (sendSlots s) := by
  unfold sendSlots
  extract_lets t s1
  split
  · exact spared_each s fun _ _ => ⟨rfl, rfl, rfl⟩
  · exact ⟨rfl, rfl, rfl⟩

/-! ### Spares -/

@[simp] theorem spared_retire (r : Nat × Nat × Nat × Nat × Nat) : Spared s (retire r s) := by simp [Spared, retire]

@[simp] theorem spared_mapsChanged : Spared s (mapsChanged s) := ⟨rfl, rfl, rfl⟩

@[simp] theorem spared_wear (counter die unit n : Nat) : Spared s (wear counter die unit n s) := ⟨rfl, rfl, rfl⟩

@[simp] theorem spared_markColBad (c a p : Nat) : Spared s (markColBad c a p s) := ⟨rfl, rfl, rfl⟩

@[simp] theorem spared_clearFill (die slot : Nat) : Spared s (clearFill die slot s) := ⟨rfl, rfl, rfl⟩

@[simp] theorem spared_placeFill (slot kind die cell a col : Nat) (f : Fill) :
    Spared s (placeFill slot kind die cell a col f s) := ⟨rfl, rfl, rfl⟩

@[simp] theorem spared_capacityLoss (loc : List (Nat × Nat)) : Spared s (capacityLoss loc s) := by simp [Spared, capacityLoss]

@[simp] theorem spared_nextFill (die slot : Nat) : Spared s (nextFill die slot s) := by
  unfold nextFill
  extract_lets s1 k s2 r a b
  have h2 : Spared s s2 := by simp [Spared, s2, s1]
  split
  · split <;> simp [Spared, a, h2]
  · exact h2

@[simp] theorem spared_fillRequest (kind die cell a col : Nat) (f : Fill) : Spared s (fillRequest kind die cell a col f s) := by
  simp [Spared, fillRequest]

@[simp] theorem spared_absorbSlot (die cell slot : Nat) (t : SMap (List Byte) × State) :
    Spared t.2 (absorbSlot die cell slot t).2 := by
  unfold absorbSlot
  dsimp only
  split
  · exact spared_nextFill ..
  · exact ⟨rfl, rfl, rfl⟩

@[simp] theorem spared_absorbFills (die cell : Nat) (given : SMap (List Byte)) : Spared s (absorbFills die cell given s).2 := by
  simp [Spared, absorbFills]

@[simp] theorem spared_brazeWith (die cell : Nat) (given : SMap (List Byte)) : Spared s (brazeWith die cell given s) := by
  simp [Spared, brazeWith]

@[simp] theorem spared_brazeCell (die cell : Nat) : Spared s (brazeCell die cell s) := by simp [Spared, brazeCell]

@[simp] theorem spared_brazeColumn (die cell a col : Nat) (latched : List Byte) :
    Spared s (brazeColumn die cell a col latched s) := by
  simp [Spared, brazeColumn]

@[simp] theorem spared_fillVerdict (die slot : Nat) (ok : Bool) : Spared s (fillVerdict die slot ok s) := by
  unfold fillVerdict
  extract_lets r cell a col c s1 s2
  have h2 : Spared s s2 := by simp [Spared, s2, s1]
  split
  · exact ⟨rfl, rfl, rfl⟩
  · split
    · exact ⟨rfl, rfl, rfl⟩
    · split <;> simp [Spared, h2]

/-! ### DRAM -/

@[simp] theorem spared_listRow (a : Nat) : Spared s (listRow a s) := by simp [Spared, listRow]

@[simp] theorem spared_countCorrected (a : Nat) : Spared s (countCorrected a s) := by simp [Spared, countCorrected]

@[simp] theorem spared_correctedRead (a : Nat) : Spared s (correctedRead a s) := by simp [Spared, correctedRead]

@[simp] theorem spared_failedRead (a m : Nat) (sched : Bool) : Spared s (failedRead a m sched s) := by simp [Spared, failedRead]

@[simp] theorem spared_recordRead (a m : Nat) (sched : Bool) : Spared s (recordRead a m sched s) := by simp [Spared, recordRead]

@[simp] theorem spared_dramRead (a : Nat) (sched : Bool) : Spared s (dramRead a sched s) := by simp [Spared, dramRead]

@[simp] theorem spared_dramLine (a : Nat) (data : List Byte) (bad : Bool) : Spared s (dramLine a data bad s) := ⟨rfl, rfl, rfl⟩

@[simp] theorem spared_asyncLine (a n line : Nat) : Spared s (asyncLine a n line s) := by simp [Spared, asyncLine]

@[simp] theorem spared_asyncWrite (a : Nat) (data : List Byte) : Spared s (asyncWrite a data s) := by simp [Spared, asyncWrite]

/-! ### Statistics -/

@[simp] theorem spared_noteConv (i : Nat) (x : F16) (ovf : Nat) (tick : Nat) : Spared s (noteConv i x ovf tick s) := by
  unfold noteConv
  split <;> simp [Spared]

@[simp] theorem spared_noteConvs (tid : Nat) (l : List (F16 × Nat)) (evalSeg : Bool) (tick : Nat) :
    Spared s (noteConvs tid l evalSeg tick s) := by
  unfold noteConvs
  split <;> simp [Spared]

/-! ### The units of a cell -/

@[simp] theorem spared_arrOvf (c k n : Nat) : Spared s (arrOvf c k n s) := by
  unfold arrOvf
  dsimp only
  split_ifs <;> exact ⟨rfl, rfl, rfl⟩

@[simp] theorem spared_eccRead (c kind index : Nat) : Spared s (eccRead c kind index s) := by unfold eccRead; split <;> simp [Spared]

@[simp] theorem spared_eccWrite (c kind index : Nat) : Spared s (eccWrite c kind index s) := by unfold eccWrite; split <;> simp [Spared]

@[simp] theorem spared_accAdd (c t j : Nat) (vals : List F16) : Spared s (accAdd c t j vals s) := by
  unfold accAdd
  extract_lets b s1 side count folds terms sum index v s2 v' F there s3 s4 s5 s6
  have h1 : Spared s s1 := by simp [Spared, s1]
  have h2 : Spared s s2 := by cases hv : v <;> simp [Spared, s2, hv, h1]
  have h4 : Spared s s4 := by simp [Spared, s4, s3, h2]
  split
  · simp [Spared, h4]
  · split <;> simp [Spared, s6, s5, h4]

@[simp] theorem spared_clearSlots (c t lo hi : Nat) : Spared s (clearSlots c t lo hi s) := ⟨rfl, rfl, rfl⟩

@[simp] theorem spared_drainRead (c t addr land : Nat) (clear hk : Bool) (q : Nat) :
    Spared s (drainRead c t addr land clear hk q s) := by
  simp [Spared, drainRead]

@[simp] theorem spared_spRead (unit c addr n : Nat) : Spared s (spRead unit c addr n s) := by simp [Spared, spRead]

@[simp] theorem spared_spArrive (unit c addr : Nat) (data : List Byte) (marks : List (Nat × Nat)) :
    Spared s (spArrive unit c addr data marks s) := by
  simp [Spared, spArrive]

@[simp] theorem spared_rxRead (port : Nat) (c : Option Nat) (m : Nat) : Spared s (rxRead port c m s) := by
  unfold rxRead
  split <;> simp [Spared]

@[simp] theorem spared_noticeFlag (l : Nat) (poison fault : Bool) : Spared s (noticeFlag l poison fault s) := by
  simp [Spared, noticeFlag]

@[simp] theorem spared_portSent (port : Nat) : Spared s (portSent port s) := by simp [Spared, portSent]

@[simp] theorem spared_anvRead (c lo n : Nat) : Spared s (anvRead c lo n s) := by simp [Spared, anvRead]

@[simp] theorem spared_anvDrained (c i addr pitch : Nat) (kept evalSeg hk : Bool) (issued : Nat) :
    Spared s (anvDrained c i addr pitch kept evalSeg hk issued s) := by
  unfold anvDrained
  extract_lets ch s1 vals s2 s3 s4 s5
  have h2 : Spared s1 s2 := by
    apply spared_each
    exact fun _ _ => ⟨rfl, rfl, rfl⟩
  have h4 : Spared s s4 := by simp [Spared, s4, s3, h2, s1]
  split <;> simp [Spared, s5, h4]

@[simp] theorem spared_recvAddFlit (c addr fmt b dst issued : Nat) (evalSeg hk : Bool) (data : List Byte) :
    Spared s (recvAddFlit c addr fmt b dst issued evalSeg hk data s) := by
  simp [Spared, recvAddFlit]

/-! ### Columns and trims -/

@[simp] theorem spared_calLast (die cell a col kind : Nat) : Spared s (calLast die cell a col kind s) := ⟨rfl, rfl, rfl⟩

@[simp] theorem spared_keepTrims (c a : Nat) : Spared s (keepTrims c a s) := ⟨rfl, rfl, rfl⟩

@[simp] theorem spared_columnFail (bit kind die cell a col : Nat) (latched : List Byte) :
    Spared s (columnFail bit kind die cell a col latched s) := by
  simp [Spared, columnFail]

@[simp] theorem spared_applyHandoff (die cell a : Nat) (passed : Bool) : Spared s (applyHandoff die cell a passed s) := by
  simp [Spared, applyHandoff]

@[simp] theorem spared_bringTrims (c a : Nat) : Spared s (bringTrims c a s) := by
  unfold bringTrims
  generalize (arrAt s c a).staged = o
  cases o with
  | none => exact ⟨rfl, rfl, rfl⟩
  | some set =>
    have eachTrim : ∀ (l : List Nat) (f : Nat → Trim), Spared s (each l (fun p => setTrim c a p (f p)) (keepTrims c a s)) := fun l f =>
      (spared_each (f := fun p => setTrim c a p (f p)) _ fun _ _ => ⟨rfl, rfl, rfl⟩).after (spared_keepTrims ..)
    have counted : ∀ (t : State) (x : Arr) (b : Prop) [Decidable b], Spared s t →
        Spared s (bump Reg.CAL_RECALS (if b then sticky Reg.CAL_STICKY 5 (setArr c a x t) else setArr c a x t)) := fun t x b _ h => by
      split_ifs <;> exact h
    exact counted _ _ _ (eachTrim _ _)

@[simp] theorem spared_landVerdict (die cell a : Nat) (swept : Bool) (fails : List (Nat × Nat)) (latched : List Byte) :
    Spared s (landVerdict die cell a swept fails latched s) := by
  simp [Spared, landVerdict]

/-! ### Burnisher beats -/

@[simp] theorem spared_beatEcc (j : BurJob) (b : Beat) : Spared s (beatEcc j b s) := by simp [Spared, beatEcc]

@[simp] theorem spared_burUnit (j : BurJob) (k : Nat) : Spared s (burUnit j k s) := by
  unfold burUnit
  extract_lets b s1 j' runs outs s2 s3
  have h2 : Spared s s2 := (spared_each s1 fun _ _ => spared_eccRead ..).after (spared_beatEcc ..)
  have h3 : Spared s2 s3 := by
    apply spared_each
    exact fun _ _ => ⟨rfl, rfl, rfl⟩
  split <;> exact h3.after h2

@[simp] theorem spared_burExc (c cls : Nat) (e : Nat × Nat × Nat) : Spared s (burExc c cls e s) := by simp [Spared, burExc]

@[simp] theorem spared_spMerge (c a : Nat) (m d : Byte) : Spared s (spMerge c a m d s) := ⟨rfl, rfl, rfl⟩

@[simp] theorem spared_burWrite (o : BurOut) : Spared s (burWrite o s) := by
  unfold burWrite
  extract_lets c s1 s2 s3 s4 s5 s6 run s7 s8
  have h1 : Spared s s1 := by
    apply spared_each
    exact fun _ _ => ⟨rfl, rfl, rfl⟩
  have h2 : Spared s1 s2 := by
    apply spared_each
    exact fun p s => by simp [Spared]
  have h5 : Spared s s5 := by simp [Spared, s5, s4, s3, h2, h1]
  have h6 : Spared s5 s6 := by
    apply spared_each
    exact fun e s => spared_burExc ..
  have h8 : Spared s s8 := by simp [Spared, s8, s7, h6, h5]
  split
  · exact (spared_jobFaultRec ..).after h8
  · exact h8

/-! ### UPDATE -/

@[simp] theorem spared_beatRead (c addr fmt b : Nat) : Spared s (beatRead c addr fmt b s) := by simp [Spared, beatRead]

@[simp] theorem spared_updateEnd (j : UpdJob) (st : List Lane × List Lane × Lane) (q : F16 × Lane × Bool) :
    Spared s (updateEnd j st q s) := by
  simp [Spared, updateEnd]

@[simp] theorem spared_updateNext (k : Nat) (j : UpdJob) : Spared s (updateNext k j s) := ⟨rfl, rfl, rfl⟩

@[simp] theorem spared_updateRun (j : UpdJob) (k : Nat) : Spared s (updateRun j k s) := by
  unfold updateRun
  extract_lets c b s1 j1 s2 st s3
  have h1 : Spared s s1 := spared_beatRead ..
  have h2 : Spared s s2 := (spared_spRead ..).after h1
  have h3 : Spared s s3 := (spared_beatRead ..).after ((spared_beatRead ..).after h1)
  split
  · exact h1
  split
  · exact h2
  split
  · exact h1
  split
  · exact h1
  split
  · exact h1
  split
  · exact h1
  dsimp only
  split <;> simp [Spared, h3]

/-! ### What lands on a tick -/

@[simp] theorem spared_fetchLands (key k a n start : Nat) (ue : Bool) : Spared s (fetchLands key k a n start ue s) := by
  simp [Spared, fetchLands]

@[simp] theorem spared_regWriteLands (k mask v : Nat) : Spared s (regWriteLands k mask v s) := by simp [Spared, regWriteLands]

@[simp] theorem spared_forgeByte (commit : Bool) : Spared s (forgeByte commit s) := by unfold forgeByte; split <;> simp [Spared]

@[simp] theorem spared_landEffect (e : Effect) : Spared s (landEffect e s) := by unfold landEffect; split <;> simp [Spared]

@[simp] theorem spared_landAll : Spared s (landAll s) := by simp [Spared, landAll]
end

end Sys2Proof.Machine
end

section
/-! SUPPORT. What the passing of time and the start of an image leave alone: the flash, a power-up under way, and the lack of a casting. -/
namespace Sys2Proof.Machine

/-! ### Stored settings and the configuration -/

section
variable (s : State)

@[simp] theorem spared_setArr (c a : Nat) (x : Arr) : Spared s (setArr c a x s) := ⟨rfl, rfl, rfl⟩

@[simp] theorem spared_setTrim (c a p : Nat) (x : Trim) : Spared s (setTrim c a p x s) := ⟨rfl, rfl, rfl⟩

@[simp] theorem spared_storedTrims (c a v : Nat) : Spared s (storedTrims c a v s) := by
  unfold storedTrims
  exact (spared_setArr ..).after (.each (fun _ _ => spared_setTrim ..) (.refl s))

@[simp] theorem spared_storedFlaws (c a v : Nat) : Spared s (storedFlaws c a v s) := by
  unfold storedFlaws
  extract_lets sl x s1 s2
  have h1 : Spared s s1 := by simp only [s1]; split <;> exact ⟨rfl, rfl, rfl⟩
  have h2 : Spared s s2 := Spared.each (fun _ _ => ⟨rfl, rfl, rfl⟩) h1
  split <;> exact h2

@[simp] theorem spared_applyArray (i : Nat) (r : BitVec 56) (trimsOnly : Bool) : Spared s (applyArray i r trimsOnly s) := by
  simp [Spared, applyArray]

@[simp] theorem spared_applyMaps : Spared s (applyMaps s) := by
  unfold applyMaps
  extract_lets old s1
  have h1 : Spared s s1 := ⟨rfl, rfl, rfl⟩
  split
  · exact h1
  · exact .each (fun _ _ => spared_applyArray ..) (.each (fun _ _ => ⟨rfl, rfl, rfl⟩) (.each (fun _ _ => ⟨rfl, rfl, rfl⟩) h1))

@[simp] theorem spared_applyRwn (k v : Nat) : Spared s (applyRwn k v s) := by unfold applyRwn; split <;> exact ⟨rfl, rfl, rfl⟩

@[simp] theorem spared_applyValues : Spared s (applyValues s) := by unfold applyValues; split <;> simp [Spared]

@[simp] theorem spared_capLimits : Spared s (capLimits s) := by
  unfold capLimits
  dsimp only
  split_ifs <;> exact ⟨rfl, rfl, rfl⟩

@[simp] theorem spared_moveTrims (old new : Nat) : Spared s (moveTrims old new s) := by
  unfold moveTrims
  exact .each (fun _ _ => spared_setArr ..) (.refl s)

theorem spared_setSpares (x : Spares) : Spared s (mapsChanged { s with spr := x }) := ⟨rfl, rfl, rfl⟩

@[simp] theorem spared_setCellMap (die cell c : Nat) : Spared s (setCellMap die cell c s) := by
  refine (spared_setSpares (if phys s die cell = c then s else moveTrims (phys s die cell) c s) _).after ?_
  split
  · exact .refl s
  · exact spared_moveTrims ..

@[simp] theorem spared_takeColumn (c a col p : Nat) : Spared s (takeColumn c a col p s) := by
  unfold takeColumn
  dsimp only
  split_ifs <;> exact ⟨rfl, rfl, rfl⟩

@[simp] theorem spared_cmapWrite (v : Nat) : Spared s (cmapWrite v s) := by
  unfold cmapWrite
  dsimp only
  split
  · exact .refl s
  · exact spared_setCellMap ..

@[simp] theorem spared_colmapWrite (v : Nat) : Spared s (colmapWrite v s) := by
  unfold colmapWrite
  dsimp only
  split
  · exact .refl s
  · exact spared_takeColumn ..

@[simp] theorem spared_sprArrayWrite (v : Nat) : Spared s (sprArrayWrite v s) := ⟨rfl, rfl, rfl⟩

@[simp] theorem spared_calTrimWrite (v : Nat) : Spared s (calTrimWrite v s) := by
  unfold calTrimWrite
  dsimp only
  split <;> exact ⟨rfl, rfl, rfl⟩

@[simp] theorem spared_viewDefault (a v : Nat) : Spared s (viewDefault a v s) := by
  simp [Spared, viewDefault]

@[simp] theorem spared_applyRecord (r : Nat × List Byte) : Spared s (applyRecord r s) := by
  unfold applyRecord
  dsimp only
  split <;> simp [Spared]

@[simp] theorem spared_applyConfig : Spared s (applyConfig s) :=
  spared_each s fun _ s => spared_each s fun r s => spared_applyRecord s r

@[simp] theorem spared_applyDefaults : Spared s (applyDefaults s) := by simp [Spared, applyDefaults]

@[simp] theorem spared_sendVcore : Spared s (sendVcore s) := spared_each s fun _ _ => ⟨rfl, rfl, rfl⟩

@[simp] theorem spared_startTraining (p : Nat) : Spared s (startTraining p s) := by
  unfold startTraining
  split <;> exact ⟨rfl, rfl, rfl⟩

@[simp] theorem spared_hostPortsUp : Spared s (hostPortsUp s) := by
  refine spared_each s fun p s => ?_
  split <;> exact ⟨rfl, rfl, rfl⟩

end

/-! ### The passing of time -/

/-- From `s` to `t` the flash and the power-up under way are kept, and no casting comes into force. -/
structure Sheltered (s t : State) : Prop where
  flash : t.nvs.flash = s.nvs.flash
  rising : t.pwr.rising = s.pwr.rising
  idle : s.casting = none → t.casting = none

theorem Spared.sheltered {s t : State} (h : Spared s t) : Sheltered s t :=
  ⟨congrArg Nvs.flash h.1, congrArg Pwr.rising h.2.1, fun hc => h.2.2.trans hc⟩

theorem Sheltered.refl (s : State) : Sheltered s s := ⟨rfl, rfl, id⟩

theorem Sheltered.after {s t u : State} (h : Sheltered t u) (h0 : Sheltered s t) : Sheltered s u :=
  ⟨h.flash.trans h0.flash, h.rising.trans h0.rising, fun hc => h.idle (h0.idle hc)⟩

/-- A step that writes none of the three. -/
theorem Sheltered.same {s t u : State} (h : Sheltered s t) (hf : u.nvs.flash = t.nvs.flash) (hr : u.pwr.rising = t.pwr.rising)
    (hc : u.casting = t.casting) : Sheltered s u := .after ⟨hf, hr, hc.trans⟩ h

theorem Sheltered.ite {s t u : State} {c : Prop} [Decidable c] (ht : Sheltered s t) (hu : Sheltered s u) : Sheltered s (if c then t else u) := by
  split
  · exact ht
  · exact hu

theorem Sheltered.each {α : Type} {l : List α} {f : α → State → State} {s t : State} (hf : ∀ a s, Sheltered s (f a s)) (h : Sheltered s t) :
    Sheltered s (each l f t) :=
  each_inv (fun u => Sheltered s u) (fun a _ u hu => (hf a u).after hu) h

section
variable (s : State)

theorem sheltered_dropLoading : Sheltered s (dropLoading s) := .ite ⟨rfl, rfl, fun _ => rfl⟩ (.refl s)

theorem sheltered_loseDomains : Sheltered s (loseDomains s) := by
  refine ⟨?_, ?_, fun _ => ?_⟩ <;> simp only [loseDomains, resetRegs] <;> split <;> rfl

theorem sheltered_driveRail (r : Nat) (level : Bool) : Sheltered s (driveRail r level s) := .ite (.refl s) ⟨rfl, rfl, id⟩

theorem sheltered_railsLow (rails : List Nat) : Sheltered s (railsLow rails s) := by
  have h : Sheltered s (each rails (fun r s => driveRail r false s) s) := .each (fun r s => sheltered_driveRail s r false) (.refl s)
  exact .ite (h.same rfl rfl rfl) h

@[simp] theorem spared_darken (p : Nat) : Spared s (darken p s) := by simp [Spared, darken]

@[simp] theorem spared_writeImage (die : Nat) : Spared s (writeImage die s) := by
  unfold writeImage
  exact .each (fun _ _ => spared_asyncWrite ..) (.refl s)

theorem sheltered_writeFirmware : Sheltered s (writeFirmware s) :=
  (spared_asyncWrite ..).sheltered.after ⟨rfl, rfl, id⟩

@[simp] theorem spared_hostPortsDown : Spared s (hostPortsDown s) := ⟨rfl, rfl, rfl⟩

theorem spared_mapCells (f : Cell → Cell) : Spared s (mapCells f s) := ⟨rfl, rfl, rfl⟩

theorem sheltered_enterDeep : Sheltered s (enterDeep s) := by
  have h : Spared s (mapCells (fun c => { c with power := CellPower.doze }) (hostPortsDown (each (List.range 48) darken s))) :=
    (spared_mapCells ..).after ((spared_hostPortsDown _).after (.each (fun p s => spared_darken s p) (.refl s)))
  unfold enterDeep
  dsimp only
  generalize mapCells _ _ = t at h ⊢
  exact .ite ((sheltered_writeFirmware _).after (Spared.sheltered (.each (fun die s => spared_writeImage s die) h))) h.sheltered

theorem sheltered_completeEntry : Sheltered s (completeEntry s) := by
  unfold completeEntry
  extract_lets p s1 s2
  have h1 : Sheltered s s1 := ⟨rfl, rfl, id⟩
  have h2 : Sheltered s s2 := ((sheltered_railsLow s1 _).after h1).same rfl rfl rfl
  exact .ite (((sheltered_railsLow s1 _).after h1).same rfl rfl rfl) (((sheltered_loseDomains s2).after h2).same rfl rfl rfl)

theorem sheltered_entryTick : Sheltered s (entryTick s) := by
  unfold entryTick
  split
  · extract_lets s1
    have h1 : Sheltered s s1 := .ite (sheltered_enterDeep s) (.refl s)
    exact .ite ((sheltered_completeEntry s1).after h1) h1
  · exact .refl s

@[simp] theorem spared_hourMark : Spared s (hourMark s) := by
  unfold hourMark
  exact .each (fun p s => by split <;> exact ⟨rfl, rfl, rfl⟩) (spared_wear ..)

theorem sheltered_aonCycle : Sheltered s (aonCycle s) := by
  unfold aonCycle
  extract_lets time s1
  have h1 : Sheltered s s1 := ⟨rfl, rfl, id⟩
  exact (sheltered_entryTick _).after (.ite ((spared_hourMark s1).sheltered.after h1) h1)

theorem sheltered_refEdge : Sheltered s (refEdge s) := by
  unfold refEdge
  extract_lets n
  exact .ite ((sheltered_aonCycle _).after ⟨rfl, rfl, id⟩) (.refl s)

theorem sheltered_actPending : Sheltered s (actPending s) := by
  unfold actPending
  extract_lets t due s1 s2 run s3
  have h1 : Sheltered s s1 :=
    .ite ((spared_setSchState ..).sheltered.after ((spared_event ..).sheltered.after (sheltered_dropLoading s))) (.refl s)
  have h2 : Sheltered s s2 := .ite (h1.same rfl rfl rfl) h1
  have h3 : Sheltered s s3 := h2.same rfl rfl rfl
  exact .ite (.ite ((spared_setSchState ..).sheltered.after ((sheltered_dropLoading s3).after h3)) h3) h2

@[simp] theorem spared_poisonStart : Spared s (poisonStart s) := by unfold poisonStart; split <;> simp [Spared]

theorem sheltered_tickStep : Sheltered s (tickStep s) := by
  unfold tickStep
  extract_lets s1 s2 time s3
  have h1 : Sheltered s s1 := ⟨rfl, rfl, id⟩
  have hx : Sheltered s (crystal s1) := h1.same rfl rfl rfl
  have h2 : Sheltered s s2 := (spared_sendSlots s1).sheltered.after h1
  have h3 : Sheltered s s3 := h2.same rfl rfl rfl
  refine .ite h1 (.ite hx (.ite ?_ ?_))
  · exact ((sheltered_aonCycle s1).after h1).same rfl rfl rfl
  · exact (spared_landAll _).sheltered.after ((spared_poisonStart _).sheltered.after ((sheltered_actPending _).after
      ((sheltered_refEdge _).after (h3.same rfl rfl rfl))))

end

theorem sheltered_toCycle (n m : Nat) (s : State) : Sheltered s (toCycle n m s) := by
  induction n generalizing s with
  | zero => exact .refl s
  | succ n ih => exact .ite (.refl s) ((ih _).after (sheltered_tickStep s))

theorem sheltered_runCycles (n : Nat) (s : State) : Sheltered s (runCycles n s) := sheltered_toCycle ..

end Sys2Proof.Machine
end

section
/-! PROOFS. RETRY, REBOOT, RESET_RELEASE and PWR_GOOD_RISE (R37, R394, R429, R431, R434, R472; logs 54, 55 and 63). -/
namespace Sys2Proof.Machine

/-! ### The checks (R429) -/

theorem ite_le_of_le {c : Prop} [Decidable c] {a b n : Nat} (ha : a ≤ n) (hb : b ≤ n) : (if c then a else b) ≤ n := by
  split
  · exact ha
  · exact hb

theorem else_eq_zero {c : Prop} [Decidable c] {a b : Nat} (ha : a ≠ 0) (h : (if c then a else b) = 0) : b = 0 := by
  split at h
  · exact absurd h ha
  · exact h

theorem bootCheck_le (s : State) (f : SMap Byte) (stored : List Byte) (minSvn : Nat) : bootCheck s f stored minSvn ≤ 12 := by
  unfold bootCheck
  repeat' with_reducible apply ite_le_of_le
  all_goals decide

/-- Where every check passes there is a configuration. -/
theorem parseConfig_of_bootCheck {s : State} {f : SMap Byte} {stored : List Byte} {minSvn : Nat} (h : bootCheck s f stored minSvn = 0) :
    ∃ cfg, parseConfig (cfgBlockOf f) = some cfg := by
  unfold bootCheck at h
  iterate 11 replace h := else_eq_zero (by decide) h
  cases hp : parseConfig (cfgBlockOf f) with
  | none => rw [hp] at h; cases h
  | some cfg => exact ⟨cfg, rfl⟩

/-- The checks look at no more of the part than its fuses. -/
theorem bootCheck_congr {s t : State} (h : t.nvs.fuses = s.nvs.fuses) (f : SMap Byte) (stored : List Byte) (minSvn : Nat) :
    bootCheck t f stored minSvn = bootCheck s f stored minSvn := by
  have hr : revoked t = revoked s := by rw [revoked, revoked, h]
  unfold bootCheck
  rw [hr]

/-- The code of the first check that fails with bank `b` in use. -/
def checkCode (s : State) (f : SMap Byte) (b : Option Bank) : Nat :=
  bootCheck s f (match b with | some b => b.owner | none => List.replicate 32 0) (match b with | some b => b.minSvn.toNat | none => 0)

/-- What boot and fail_code of NVS_STATUS say of it. -/
def verdictOf (n : Nat) : Nat := if n = 0 then 0 else 1 + 4 * n

/-! ### The boot core reads the flash (R429, R431) -/

/-- The flash is kept, and no casting comes into force. -/
def Rests (s t : State) : Prop := t.nvs.flash = s.nvs.flash ∧ (s.casting = none → t.casting = none)

theorem Sheltered.rests {s t : State} (h : Sheltered s t) : Rests s t := ⟨h.flash, h.idle⟩

theorem Rests.after {s t u : State} (h : Rests t u) (h0 : Rests s t) : Rests s u := ⟨h.1.trans h0.1, fun hc => h.2 (h0.2 hc)⟩

/-- The last thing that the start of an image does. -/
theorem startImage_ends {s : State} (h : Canon s) (f : SMap Byte) (cfg : List (Nat × List Byte)) :
    ∃ t, Canon t ∧ Rests s t ∧ startImage f cfg s = setFld Reg.NVS_STATUS 9 0 0 t := by
  unfold startImage
  extract_lets slot kill new s1 nvs s2 s3 s4 s5 s6 s7 pwr s8 s9
  have h1 : Spared s s1 := by
    simp only [s1]
    split <;> exact ⟨rfl, rfl, rfl⟩
  have hc1 : Canon s1 := by
    simp only [s1]
    split
    · exact h
    · exact canon_sticky h
  have h3 : Sheltered s s3 := h1.sheltered.same rfl rfl rfl
  have hc3 : Canon s3 := canon_setFld (canon_wr (canon_mk hc1))
  have h4 : Sheltered s s4 := ((spared_applyDefaults _).sheltered.after (spared_applyMaps s3).sheltered).after h3
  have hc4 : Canon s4 := canon_applyDefaults (canon_applyMaps hc3)
  have h5 : Sheltered s s5 := .each (fun _ s => ⟨rfl, rfl, id⟩) h4
  have hc5 : Canon s5 := canon_each (fun _ _ h => canon_pmbSend (canon_pmbSend h)) hc4
  have h6 : Sheltered s s6 := (spared_sendVcore s5).sheltered.after h5
  have hc6 : Canon s6 := canon_sendVcore hc5
  have h7 : Sheltered s s7 := .each (fun r s => (sheltered_driveRail _ r true).after (sheltered_runCycles 250 s)) h6
  have hc7 : Canon s7 := canon_each (fun _ _ h => canon_driveRail (canon_runCycles h)) hc6
  have h8 : Rests s s8 := h7.rests
  have hc8 : Canon s8 := canon_setFld (canon_mk hc7)
  have h9 : Sheltered s8 s9 := (spared_hostPortsUp _).sheltered.after (.each (fun p s => (spared_startTraining s p).sheltered) (.refl s8))
  have hc9 : Canon s9 := canon_hostPortsUp (canon_each (fun _ _ => canon_startTraining) hc8)
  exact ⟨s9, hc9, h9.rests.after h8, rfl⟩

theorem startImage_boots {s : State} (h : Canon s) (f : SMap Byte) (cfg : List (Nat × List Byte)) :
    fld (startImage f cfg s) Reg.NVS_STATUS 9 0 = 0 ∧ Rests s (startImage f cfg s) := by
  obtain ⟨t, ht, hr, he⟩ := startImage_ends h f cfg
  rw [he]
  exact ⟨fld_setFld ht.regs _ _ _ (by decide), hr⟩

/-- The safe state shows the code of the check. -/
theorem enterSafe_shows {s : State} (h : Canon s) {code : Nat} (hc : code ≤ 12) :
    fld (enterSafe code s) Reg.NVS_STATUS 9 0 = 1 + 4 * code ∧ Rests s (enterSafe code s) := by
  have hs : Canon (setFld Reg.NVS_KEYS 1 0 0 (wr Reg.NVS_FW_SVN 0 (railsLow [3, 2, 1] s))) := canon_setFld (canon_wr (canon_railsLow h))
  have hf : fld (enterSafe code s) Reg.NVS_STATUS 9 0 = (1 + 4 * code) % 2 ^ 10 := fld_setFld hs.regs _ _ _ (by decide)
  exact ⟨hf.trans (Nat.mod_eq_of_lt (by omega)), (sheltered_railsLow s [3, 2, 1]).rests⟩

theorem rests_takeOwner (f : SMap Byte) (stored : List Byte) (code : Nat) (s : State) : Rests s (takeOwner f stored code s) := by
  unfold takeOwner
  split <;> exact ⟨rfl, id⟩

/-- The state as the checks have been made. -/
def flashRead (s : State) : State :=
  let f := s.nvs.flash
  let stored := match bankUsed s with | some b => b.owner | none => List.replicate 32 0
  let code := checkCode s f (bankUsed s)
  takeOwner f stored code (emit (.pin 5 false) (emit (.flash (flashCommands f code) (flashNat f (2 ^ 32 + 9) 1 == 0 || flashNat f (2 ^ 32 + 10) 1 == 1)
    (flashNat f (2 ^ 32 + 8) 1 == 1)) (emit (.pin 5 true) s)))

theorem bootFlash_eq (s : State) : bootFlash s =
    match checkCode s s.nvs.flash (bankUsed s), parseConfig (cfgBlockOf s.nvs.flash) with
    | 0, some cfg => startImage s.nvs.flash cfg (flashRead s)
    | 0, none => enterSafe 0xB (flashRead s)
    | code, _ => enterSafe code (flashRead s) := rfl

theorem bootFlash_pass {s : State} (h : checkCode s s.nvs.flash (bankUsed s) = 0) :
    ∃ cfg, bootFlash s = startImage s.nvs.flash cfg (flashRead s) := by
  obtain ⟨cfg, hcfg⟩ := parseConfig_of_bootCheck h
  refine ⟨cfg, ?_⟩
  rw [bootFlash_eq, h, hcfg]
  rfl

theorem bootFlash_fail {s : State} (h : checkCode s s.nvs.flash (bankUsed s) ≠ 0) :
    bootFlash s = enterSafe (checkCode s s.nvs.flash (bankUsed s)) (flashRead s) := by
  rw [bootFlash_eq]
  obtain ⟨n, hn⟩ := Nat.exists_eq_succ_of_ne_zero h
  rw [hn]
  rfl

/-- NVS_STATUS says booted, or the safe state with the code of the first check that fails. -/
theorem bootFlash_verdict {s : State} (h : Canon s) :
    fld (bootFlash s) Reg.NVS_STATUS 9 0 = verdictOf (checkCode s s.nvs.flash (bankUsed s)) ∧ Rests s (bootFlash s) := by
  have hc : Canon (flashRead s) := canon_takeOwner (canon_emit (canon_emit (canon_emit h)))
  have hr : Rests s (flashRead s) := (rests_takeOwner ..).after ⟨rfl, id⟩
  by_cases h0 : checkCode s s.nvs.flash (bankUsed s) = 0
  · obtain ⟨cfg, he⟩ := bootFlash_pass h0
    obtain ⟨hv, hk⟩ := startImage_boots hc s.nvs.flash cfg
    rw [he, h0]
    exact ⟨hv, hk.after hr⟩
  · obtain ⟨hv, hk⟩ := enterSafe_shows hc (bootCheck_le ..)
    rw [bootFlash_fail h0, verdictOf, if_neg h0]
    exact ⟨hv, hk.after hr⟩

/-! ### The bank that a boot takes (R438) -/

/-- The bank that a boot takes. -/
def bankPicked (s : State) : Option Bank :=
  match bankChoice s with
  | none => none
  | some 0 => s.nvs.bankA
  | some _ => s.nvs.bankB

theorem bits_setBits_within {hi lo hi' lo' : Nat} (v x : Nat) (h1 : lo ≤ lo') (h2 : hi' ≤ hi) (h3 : lo' ≤ hi') :
    bits (setBits v hi lo x) hi' lo' = bits x (hi' - lo) (lo' - lo) := by
  apply Nat.eq_of_testBit_eq
  intro i
  rw [testBit_bits, testBit_bits, testBit_setBits]
  have hw : hi' - lo + 1 - (lo' - lo) = hi' + 1 - lo' := by omega
  rw [hw]
  by_cases h : i < hi' + 1 - lo'
  · have hin : lo ≤ lo' + i ∧ lo' + i ≤ hi := by omega
    have hs : lo' + i - lo = lo' - lo + i := by omega
    simp [h, hin, hs]
  · simp [h]

theorem fld_setFld_within {s : State} (h : wf regDefault s.regs = true) (k v : Nat) {hi lo hi' lo' : Nat} (hh : hi < 32) (h1 : lo ≤ lo')
    (h2 : hi' ≤ hi) (h3 : lo' ≤ hi') : fld (setFld k hi lo v s) k hi' lo' = bits v (hi' - lo) (lo' - lo) := by
  rw [fld_def, rd_setFld h _ _ _ hh, bits_setBits_within _ _ h1 h2 h3]

/-- The bank in use is told by the two bits of NVS_STATUS. -/
theorem bankUsed_congr {s t : State} (h13 : fld t Reg.NVS_STATUS 13 13 = fld s Reg.NVS_STATUS 13 13)
    (h14 : fld t Reg.NVS_STATUS 14 14 = fld s Reg.NVS_STATUS 14 14) (ha : t.nvs.bankA = s.nvs.bankA) (hb : t.nvs.bankB = s.nvs.bankB) :
    bankUsed t = bankUsed s := by
  rw [bankUsed, bankUsed, bankNow, bankNow, h13, h14, ha, hb]

/-- What the selection of a bank leaves alone. -/
structure Selected (s t : State) : Prop where
  canon : Canon t
  regs : ∀ k, reportKey k = false → k ∉ [Reg.NVS_STATUS, Reg.NVS_STICKY, Reg.NVS_STORE_SEQ] → rd t k = rd s k
  boot : fld t Reg.NVS_STATUS 9 0 = fld s Reg.NVS_STATUS 9 0
  used : bankUsed t = bankPicked s
  nvs : t.nvs = { s.nvs with owner := t.nvs.owner }
  pwr : t.pwr = s.pwr
  casting : t.casting = s.casting
  cells : t.cells = s.cells
  dram : t.dram = s.dram
  time : t.time = s.time

/-- The settings are defaulted. -/
def defaulted (s : State) : State :=
  sticky Reg.NVS_STICKY 1 (wr Reg.NVS_STORE_SEQ 0 (setFld Reg.NVS_STATUS 14 13 1 { s with nvs := { s.nvs with owner := List.replicate 32 0 } }))

theorem selectBank_none {s : State} (hb : bankChoice s = none) :
    selectBank s = record 16 [] (rd (defaulted s) Reg.NVS_STATUS) (defaulted s) := by
  simp only [selectBank, hb]
  rfl

/-- Where no bank is valid. -/
theorem selected_none {s : State} (h : Canon s) (hb : bankChoice s = none) : Selected s (selectBank s) := by
  have h0 : Canon { s with nvs := { s.nvs with owner := List.replicate 32 0 } } := canon_mk h
  have h1 := canon_setFld (k := Reg.NVS_STATUS) (hi := 14) (lo := 13) (v := 1) h0
  have h2 := canon_wr (k := Reg.NVS_STORE_SEQ) (v := 0) h1
  have h3 : Canon (defaulted s) := canon_sticky h2
  have status : rd (defaulted s) Reg.NVS_STATUS =
      rd (setFld Reg.NVS_STATUS 14 13 1 { s with nvs := { s.nvs with owner := List.replicate 32 0 } }) Reg.NVS_STATUS :=
    (rd_sticky_ne h2.regs _ (by decide)).trans (rd_wr_ne h1.regs _ (by decide))
  have hrep := (rep_record (cls := 16) (loc := []) (first := rd (defaulted s) Reg.NVS_STATUS) (rep_self h3)).only
  rw [← selectBank_none hb] at hrep
  have field : ∀ hi lo, fld (selectBank s) Reg.NVS_STATUS hi lo =
      fld (setFld Reg.NVS_STATUS 14 13 1 { s with nvs := { s.nvs with owner := List.replicate 32 0 } }) Reg.NVS_STATUS hi lo := fun hi lo => by
    rw [fld_def, fld_def, hrep.regs _ (by decide), status]
  refine ⟨canon_selectBank h, fun k hk hn => ?_, ?_, ?_, ?_, hrep.pwr, hrep.casting, hrep.cells, hrep.dram, hrep.time⟩
  · simp only [List.mem_cons, List.not_mem_nil, or_false, not_or] at hn
    exact (hrep.regs k hk).trans ((rd_sticky_ne h2.regs _ hn.2.1).trans ((rd_wr_ne h1.regs _ hn.2.2).trans (rd_setFld_ne h0.regs _ _ _ hn.1)))
  · exact (field 9 0).trans (fld_setFld_ne h0.regs _ _ _ (by decide) (.inl (by decide)))
  · have h13 : fld (selectBank s) Reg.NVS_STATUS 13 13 = 1 :=
      (field 13 13).trans (fld_setFld_within h0.regs _ _ (by decide) (by decide) (by decide) (by decide))
    rw [bankUsed, if_pos h13, bankPicked, hb]
  · rw [hrep.nvs]
    rfl

/-- Bank `k` is in use. -/
def banked (k : Nat) (s : State) : State := setFld Reg.NVS_STATUS 14 13 (2 * k) s

theorem bankUsed_banked {s : State} (h : Canon s) {k : Nat} (hk : k < 2) :
    bankUsed (banked k s) = if k = 0 then s.nvs.bankA else s.nvs.bankB := by
  have h13 : fld (banked k s) Reg.NVS_STATUS 13 13 = bits (2 * k) 0 0 :=
    fld_setFld_within h.regs _ _ (by decide) (by decide) (by decide) (by decide)
  have h14 : fld (banked k s) Reg.NVS_STATUS 14 14 = bits (2 * k) 1 1 :=
    fld_setFld_within h.regs _ _ (by decide) (by decide) (by decide) (by decide)
  rw [bankUsed, bankNow, h13, h14]
  interval_cases k <;> rfl

/-- What the choice says of the banks. -/
theorem bankChoice_some {s : State} {k : Nat} (hb : bankChoice s = some k) :
    k < 2 ∧ ∃ b, bankPicked s = some b ∧ (if k = 0 then s.nvs.bankA else s.nvs.bankB) = some b := by
  have hp : bankPicked s = if k = 0 then s.nvs.bankA else s.nvs.bankB := by
    rw [bankPicked, hb]
    cases k <;> rfl
  rw [hp]
  unfold bankChoice at hb
  split at hb
  case h_1 => cases hb
  case h_2 b ha _ => cases hb; exact ⟨by decide, b, ha, ha⟩
  case h_3 b _ hB => cases hb; exact ⟨by decide, b, hB, hB⟩
  case h_4 a b ha hB =>
    split at hb <;> cases hb
    · exact ⟨by decide, b, hB, hB⟩
    · exact ⟨by decide, a, ha, ha⟩

theorem selectBank_some {s : State} {k : Nat} {b : Bank} (hb : bankChoice s = some k) (hu : bankUsed (banked k s) = some b) :
    selectBank s = wr Reg.NVS_STORE_SEQ b.seq.toNat { banked k s with nvs := { s.nvs with owner := b.owner } } := by
  unfold banked at hu
  simp only [selectBank, hb, hu]
  rfl

/-- Where a bank is valid. -/
theorem selected_some {s : State} (h : Canon s) {k : Nat} (hb : bankChoice s = some k) : Selected s (selectBank s) := by
  obtain ⟨hk, b, hp, hi⟩ := bankChoice_some hb
  have hu : bankUsed (banked k s) = some b := (bankUsed_banked h hk).trans hi
  have h1 : Canon (banked k s) := canon_setFld h
  have h2 : Canon { banked k s with nvs := { s.nvs with owner := b.owner } } := canon_mk h1
  have he := selectBank_some hb hu
  have status : rd (selectBank s) Reg.NVS_STATUS = rd (banked k s) Reg.NVS_STATUS := by
    rw [he]
    exact rd_wr_ne h2.regs _ (by decide)
  refine ⟨canon_selectBank h, fun j _ hn => ?_, ?_, ?_, ?_, ?_, ?_, ?_, ?_, ?_⟩
  · simp only [List.mem_cons, List.not_mem_nil, or_false, not_or] at hn
    rw [he]
    exact (rd_wr_ne h2.regs _ hn.2.2).trans (rd_setFld_ne h.regs _ _ _ hn.1)
  · rw [fld_def, status]
    exact fld_setFld_ne h.regs _ _ _ (by decide) (.inl (by decide))
  · rw [hp, ← hu]
    exact bankUsed_congr (congrArg (bits · 13 13) status) (congrArg (bits · 14 14) status) (by rw [he]; rfl) (by rw [he]; rfl)
  all_goals
    rw [he]
    rfl

theorem selected_selectBank {s : State} (h : Canon s) : Selected s (selectBank s) := by
  cases hb : bankChoice s with
  | none => exact selected_none h hb
  | some k => exact selected_some h hb

/-! ### A boot begins (R394, R431) -/

/-- NVS_STATUS shows a boot. -/
def shown (s : State) : State :=
  setFld Reg.HLT_JRNL_HEAD 9 0 (journalHead (setFld Reg.NVS_STATUS 9 0 2 (setFld Reg.PWR_STATUS 2 0 0 s)))
    (setFld Reg.NVS_STATUS 9 0 2 (setFld Reg.PWR_STATUS 2 0 0 s))

/-- VCORE_EN is high and PWR_GOOD awaited. -/
def raised (flash : SMap Byte) (s : State) : State :=
  let t := driveRail 0 true (storedDwi (selectBank (shown s)))
  { t with nvs := { t.nvs with flash := flash }, pwr := { t.pwr with rising := 1 } }

theorem bootStart_eq (flash : SMap Byte) (s : State) :
    bootStart flash s = if fld (raised flash s) Reg.PWR_STATUS 8 8 = 1 then bootFlash (raised flash s) else raised flash s := rfl

/-- The registers that the beginning of a boot writes, beside those of reporting. -/
def bootKeys : List Nat := [Reg.NVS_STATUS, Reg.NVS_STICKY, Reg.NVS_STORE_SEQ, Reg.PWR_STATUS, Reg.MGT_DWI]

/-- What the beginning of a boot does and leaves alone. -/
structure BootBegun (flash : SMap Byte) (s t : State) : Prop where
  canon : Canon t
  regs : ∀ k, reportKey k = false → k ∉ bootKeys → rd t k = rd s k
  boot : fld t Reg.NVS_STATUS 9 0 = 2
  power : ∀ hi lo, 2 < lo → fld t Reg.PWR_STATUS hi lo = fld s Reg.PWR_STATUS hi lo
  used : bankUsed t = bankPicked s
  fuses : t.nvs.fuses = s.nvs.fuses
  flash : t.nvs.flash = flash
  rising : t.pwr.rising = 1
  rails : bits t.pwr.rails 0 0 = 1
  inReset : t.pwr.inReset = s.pwr.inReset
  casting : t.casting = s.casting
  cells : t.cells = s.cells
  dram : t.dram = s.dram
  time : t.time = s.time

theorem driveRail_high (r : Nat) (s : State) : bits (driveRail r true s).pwr.rails r r = 1 := by
  unfold driveRail
  split
  case isTrue h => simpa using h
  case isFalse =>
    have : bits (setBits s.pwr.rails r r 1) r r = 1 % 2 ^ (r + 1 - r) := bits_setBits _ _
    rwa [Nat.add_sub_cancel_left] at this

/-- At most enables have moved, with their pins, of what a boot reads. -/
structure PinsMoved (s t : State) : Prop where
  regs : t.regs = s.regs
  nvs : t.nvs = s.nvs
  inReset : t.pwr.inReset = s.pwr.inReset
  casting : t.casting = s.casting
  cells : t.cells = s.cells
  dram : t.dram = s.dram
  time : t.time = s.time

theorem pinsMoved_driveRail (r : Nat) (level : Bool) (s : State) : PinsMoved s (driveRail r level s) := by
  unfold driveRail
  split <;> exact ⟨rfl, rfl, rfl, rfl, rfl, rfl, rfl⟩

theorem pinsMoved_each (rails : List Nat) (level : Bool) (s : State) : PinsMoved s (each rails (fun r s => driveRail r level s) s) :=
  each_inv (PinsMoved s) (fun r _ u hu => by
    have h := pinsMoved_driveRail r level u
    exact ⟨h.regs.trans hu.regs, h.nvs.trans hu.nvs, h.inReset.trans hu.inReset, h.casting.trans hu.casting, h.cells.trans hu.cells,
      h.dram.trans hu.dram, h.time.trans hu.time⟩) ⟨rfl, rfl, rfl, rfl, rfl, rfl, rfl⟩

theorem bootBegun_raised {s : State} (h : Canon s) (flash : SMap Byte) : BootBegun flash s (raised flash s) := by
  have h1 : Canon (setFld Reg.PWR_STATUS 2 0 0 s) := canon_setFld h
  have h2 : Canon (setFld Reg.NVS_STATUS 9 0 2 (setFld Reg.PWR_STATUS 2 0 0 s)) := canon_setFld h1
  have h3 : Canon (shown s) := canon_setFld h2
  have hsel := selected_selectBank h3
  obtain ⟨hregs, hnvs, hin, hcast, hcell, hdram, htime⟩ := pinsMoved_driveRail 0 true (storedDwi (selectBank (shown s)))
  have hdwi : ∀ k, k ≠ Reg.MGT_DWI → rd (raised flash s) k = rd (selectBank (shown s)) k := fun k hk =>
    (rd_congr hregs k).trans (rd_wr_ne hsel.canon.regs _ hk)
  have hbankA := congrArg Nvs.bankA hnvs
  have hbankB := congrArg Nvs.bankB hnvs
  have hfuses := congrArg Nvs.fuses (hnvs.trans hsel.nvs)
  refine ⟨canon_mk (canon_driveRail (canon_storedDwi hsel.canon)), fun k hk hn => ?_, ?_, fun hi lo hl => ?_, ?_, ?_, rfl, rfl,
    driveRail_high 0 _, ?_, ?_, hcell.trans hsel.cells, hdram.trans hsel.dram, htime.trans hsel.time⟩
  · simp only [bootKeys, List.mem_cons, List.not_mem_nil, or_false, not_or] at hn
    obtain ⟨hn1, hn2, hn3, hn4, hn5⟩ := hn
    have hj : k ≠ Reg.HLT_JRNL_HEAD := fun e => absurd (e ▸ hk) (by decide)
    rw [hdwi k hn5, hsel.regs k hk (by simp [hn1, hn2, hn3])]
    exact (rd_setFld_ne h2.regs _ _ _ hj).trans ((rd_setFld_ne h1.regs _ _ _ hn1).trans (rd_setFld_ne h.regs _ _ _ hn4))
  · rw [fld_def, hdwi _ (by decide)]
    refine hsel.boot.trans ((congrArg (bits · 9 0) (rd_setFld_ne h2.regs _ _ _ (by decide))).trans ?_)
    exact fld_setFld h1.regs _ _ _ (by decide)
  · rw [fld_def, hdwi _ (by decide), hsel.regs _ (by decide) (by decide)]
    refine (congrArg (bits · hi lo) ((rd_setFld_ne h2.regs _ _ _ (by decide)).trans (rd_setFld_ne h1.regs _ _ _ (by decide)))).trans ?_
    exact fld_setFld_ne h.regs _ _ _ (by decide) (.inr hl)
  · have status : rd (raised flash s) Reg.NVS_STATUS = rd (selectBank (shown s)) Reg.NVS_STATUS := hdwi _ (by decide)
    exact (bankUsed_congr (congrArg (bits · 13 13) status) (congrArg (bits · 14 14) status) hbankA hbankB).trans hsel.used
  · exact hfuses
  · exact hin.trans (congrArg Pwr.inReset hsel.pwr)
  · exact hcast.trans hsel.casting

/-! ### REBOOT (R37, R443) -/

/-- Every domain but the always-on one is reset, the ports that are UP dark after a DIM. -/
def domainsReset (s : State) : State := loseDomains (railsLow [3, 2, 1] (each (upPorts s) darken s))

theorem execReboot_idle {s : State} (h : castingRuns s = false) (src : Source) (flash : SMap Byte) :
    execReboot src flash s = bootStart flash (domainsReset s) := by
  simp only [execReboot, h, Bool.false_eq_true, if_false]
  rfl

theorem execReboot_running {s : State} (h : castingRuns s = true) (src : Source) (flash : SMap Byte) :
    execReboot src flash s = accState src Reg.NVS_CTRL s := by
  simp only [execReboot, h, if_true]

/-! #### The rails go low -/

/-- The enables of VANA, VPHY and VLAS leave that of VCORE as it is. -/
theorem railsLow_core (s : State) : bits (each [3, 2, 1] (fun r s => driveRail r false s) s).pwr.rails 0 0 = bits s.pwr.rails 0 0 :=
  each_inv (fun u => bits u.pwr.rails 0 0 = bits s.pwr.rails 0 0) (fun r hr u hu => by
    have h0 : 0 < r := by fin_cases hr <;> decide
    refine Eq.trans ?_ hu
    unfold driveRail
    split
    · rfl
    · exact bits_setBits_ne _ _ (.inl h0)) rfl

/-- PWR_GOOD stays where VCORE does. -/
theorem railsLow_powered {s : State} (h : bits s.pwr.rails 0 0 = 1) :
    railsLow [3, 2, 1] s = each [3, 2, 1] (fun r s => driveRail r false s) s := by
  have hc : ¬ bits (each [3, 2, 1] (fun r s => driveRail r false s) s).pwr.rails 0 0 = 0 := by
    rw [railsLow_core, h]
    decide
  exact if_neg hc

theorem railsLow_values {s : State} (h : Canon s) (rails : List Nat) :
    (fld s Reg.PWR_STATUS 8 8 = 0 → fld (railsLow rails s) Reg.PWR_STATUS 8 8 = 0) ∧ (railsLow rails s).nvs = s.nvs ∧
    (railsLow rails s).dram = s.dram ∧ (railsLow rails s).time = s.time := by
  have hm := pinsMoved_each rails false s
  have hc : Canon (each rails (fun r s => driveRail r false s) s) := canon_each (fun _ _ => canon_driveRail) h
  unfold railsLow
  dsimp only
  split
  · exact ⟨fun _ => fld_setFld hc.regs _ _ _ (by decide), hm.nvs, hm.dram, hm.time⟩
  · exact ⟨fun h0 => (congrArg (bits · 8 8) (rd_congr hm.regs _)).trans h0, hm.nvs, hm.dram, hm.time⟩

/-! #### The ports go dark -/

/-- What a state keeps while its ports go dark. -/
structure Darkened (s t : State) : Prop where
  canon : Canon t
  power : rd t Reg.PWR_STATUS = rd s Reg.PWR_STATUS
  nvs : t.nvs = s.nvs
  pwr : t.pwr = s.pwr
  dram : t.dram = s.dram
  time : t.time = s.time

theorem darkened_darken {s : State} (h : Canon s) (p : Nat) : Darkened s (darken p s) := by
  have hd : Canon (if portLasers s p then emit (.ctrl p 6 []) s else s) := by
    split
    · exact canon_emit h
    · exact h
  have hp : rd (darken p s) Reg.PWR_STATUS = rd (if portLasers s p then emit (.ctrl p 6 []) s else s) Reg.PWR_STATUS :=
    rd_portDark_ne hd (bankKey_ne_of_package (by decide) _ _) 7
  refine ⟨canon_darken h, hp.trans ?_, ?_, ?_, ?_, ?_⟩
  · split <;> rfl
  all_goals
    unfold darken
    split <;> rfl

theorem darkened_each {s : State} (h : Canon s) (l : List Nat) : Darkened s (each l darken s) :=
  each_inv (Darkened s) (fun p _ u hu => by
    have hd := darkened_darken hu.canon p
    exact ⟨hd.canon, hd.power.trans hu.power, hd.nvs.trans hu.nvs, hd.pwr.trans hu.pwr, hd.dram.trans hu.dram, hd.time.trans hu.time⟩)
    ⟨h, rfl, rfl, rfl, rfl, rfl⟩

/-! #### The domains lose their contents (R401) -/

/-- Of the registers that are not kept only the two that `resetRegs` writes differ from their reset value. -/
theorem rd_resetRegs {s : State} (h : wf regDefault s.regs = true) {k : Nat} (hn : k ≠ Reg.NVS_STATUS) (hs : k ≠ Reg.SPR_STICKY) :
    rd (resetRegs s) k = if keptDeep k then rd s k else (regDefault k).toNat := by
  have hf : wf regDefault (forget (fun k => !keptDeep k) s.regs) = true := wf_forget h
  have hforget : rd { s with regs := forget (fun k => !keptDeep k) s.regs } k = if keptDeep k then rd s k else (regDefault k).toNat := by
    split
    case isTrue hk => exact congrArg BitVec.toNat (get_forget_not (p := fun k => !keptDeep k) (by simp [hk]) h)
    case isFalse hk => exact congrArg BitVec.toNat (get_forget (p := fun k => !keptDeep k) (by simpa using hk) h)
  have hwr : rd (wr Reg.NVS_STATUS (fld s Reg.NVS_STATUS 9 0) { s with regs := forget (fun k => !keptDeep k) s.regs }) k = _ :=
    (rd_wr_ne hf _ hn).trans hforget
  unfold resetRegs
  dsimp only
  split
  · exact (rd_sticky_ne (wf_put hf) _ hs).trans hwr
  · exact hwr

theorem resetRegs_keeps (s : State) : (resetRegs s).casting = s.casting ∧ (resetRegs s).cells = s.cells ∧ (resetRegs s).nvs = s.nvs ∧
    (resetRegs s).dram = s.dram ∧ (resetRegs s).time = s.time := by
  unfold resetRegs
  dsimp only
  split <;> exact ⟨rfl, rfl, rfl, rfl, rfl⟩

/-- Scratchpad and arrays of every cell read as empty (log 5). -/
theorem loseDomains_cells (s : State) (c : Nat) : (cellAt (loseDomains s) c).sp = [] ∧ (cellAt (loseDomains s) c).codes = [] := by
  have hc : (loseDomains s).cells = mapVals Cell.init Cell.unpowered s.cells := (resetRegs_keeps _).2.1
  rw [cellAt, hc]
  refine get_mem (fun x : Cell => x.sp = [] ∧ x.codes = []) ⟨rfl, rfl⟩ fun p hp => ?_
  obtain ⟨q, _, rfl⟩ := mem_mapVals hp
  exact ⟨rfl, rfl⟩

/-- What the reset of the domains leaves of the state. -/
structure DomainsLost (s t : State) : Prop where
  canon : Canon t
  casting : t.casting = none
  sch : schState t = 0
  cells : ∀ c, (cellAt t c).sp = [] ∧ (cellAt t c).codes = []
  picked : bankPicked t = bankPicked s
  fuses : t.nvs.fuses = s.nvs.fuses
  dram : t.dram = s.dram
  time : t.time = s.time

/-- The registers are the last to be reset. -/
theorem loseDomains_ends (s : State) : ∃ x, loseDomains s = resetRegs x ∧ x.regs = s.regs ∧ x.casting = none ∧ x.nvs.bankA = s.nvs.bankA ∧
    x.nvs.bankB = s.nvs.bankB ∧ x.nvs.fuses = s.nvs.fuses ∧ x.dram = s.dram ∧ x.time = s.time := ⟨_, rfl, rfl, rfl, rfl, rfl, rfl, rfl, rfl⟩

theorem bankPicked_congr {s t : State} (ha : t.nvs.bankA = s.nvs.bankA) (hb : t.nvs.bankB = s.nvs.bankB) : bankPicked t = bankPicked s := by
  rw [bankPicked, bankPicked, bankChoice, bankChoice, ha, hb]

theorem domainsLost_loseDomains {s : State} (h : Canon s) : DomainsLost s (loseDomains s) := by
  obtain ⟨x, he, hr, hc, ha, hb, hf, hd, ht⟩ := loseDomains_ends s
  obtain ⟨kc, -, kn, kd, kt⟩ := resetRegs_keeps x
  have hs : rd (loseDomains s) Reg.SCH_STATUS = (regDefault Reg.SCH_STATUS).toNat := by
    rw [he, rd_resetRegs (hr ▸ h.regs) (by decide) (by decide)]
    rfl
  refine ⟨canon_loseDomains h, ?_, ?_, loseDomains_cells s, bankPicked_congr ?_ ?_, ?_, ?_, ?_⟩
  · rw [he, kc, hc]
  · rw [schState, fld_def, hs]
    decide
  · rw [he, kn, ha]
  · rw [he, kn, hb]
  · rw [he, kn, hf]
  · rw [he, kd, hd]
  · rw [he, kt, ht]

theorem rd_loseDomains_power {s : State} (h : Canon s) : rd (loseDomains s) Reg.PWR_STATUS = rd s Reg.PWR_STATUS := by
  obtain ⟨x, he, hr, -⟩ := loseDomains_ends s
  rw [he, rd_resetRegs (hr ▸ h.regs) (by decide) (by decide), if_pos (by decide)]
  exact rd_congr hr _

theorem domainsLost_domainsReset {s : State} (h : Canon s) : DomainsLost s (domainsReset s) := by
  have hd := darkened_each h (upPorts s)
  obtain ⟨-, hn, hm, ht⟩ := railsLow_values hd.canon [3, 2, 1]
  have hl := domainsLost_loseDomains (canon_railsLow (rails := [3, 2, 1]) hd.canon)
  have nvs := hn.trans hd.nvs
  exact ⟨hl.canon, hl.casting, hl.sch, hl.cells, hl.picked.trans (bankPicked_congr (congrArg Nvs.bankA nvs) (congrArg Nvs.bankB nvs)),
    hl.fuses.trans (congrArg Nvs.fuses nvs), hl.dram.trans (hm.trans hd.dram), hl.time.trans (ht.trans hd.time)⟩

/-- PWR_GOOD stays low. -/
theorem domainsReset_unpowered {s : State} (h : Canon s) (hp : fld s Reg.PWR_STATUS 8 8 = 0) :
    fld (domainsReset s) Reg.PWR_STATUS 8 8 = 0 := by
  have hd := darkened_each h (upPorts s)
  obtain ⟨h0, -⟩ := railsLow_values hd.canon [3, 2, 1]
  exact (congrArg (bits · 8 8) (rd_loseDomains_power (canon_railsLow hd.canon))).trans (h0 ((congrArg (bits · 8 8) hd.power).trans hp))

/-- PWR_GOOD stays high. -/
theorem domainsReset_powered {s : State} (h : Canon s) (hp : fld s Reg.PWR_STATUS 8 8 = 1) (hr : bits s.pwr.rails 0 0 = 1) :
    fld (domainsReset s) Reg.PWR_STATUS 8 8 = 1 := by
  have hd := darkened_each h (upPorts s)
  have hm := pinsMoved_each [3, 2, 1] false (each (upPorts s) darken s)
  have hlow := railsLow_powered (s := each (upPorts s) darken s) (by rw [hd.pwr]; exact hr)
  have hreg : rd (railsLow [3, 2, 1] (each (upPorts s) darken s)) Reg.PWR_STATUS = rd s Reg.PWR_STATUS := by
    rw [hlow, rd_congr hm.regs, hd.power]
  exact (congrArg (bits · 8 8) ((rd_loseDomains_power (canon_railsLow hd.canon)).trans hreg)).trans hp

/-! ### RESET_RELEASE and PWR_GOOD_RISE (R394, R431, R472) -/

theorem alwaysOnUp_values {s : State} (h : Canon s) : Canon (alwaysOnUp s) ∧ (alwaysOnUp s).pwr.inReset = false ∧
    fld (alwaysOnUp s) Reg.PWR_STATUS 8 8 = fld s Reg.PWR_STATUS 8 8 ∧ fld (alwaysOnUp s) Reg.PWR_STATUS 9 9 = 1 ∧
    (alwaysOnUp s).cells = s.cells ∧ (alwaysOnUp s).dram = s.dram := by
  have h1 : Canon { (fresh s).2 with pwr := { (fresh s).2.pwr with inReset := false } } := canon_mk h
  have h2 := canon_setFld (k := Reg.PWR_STATUS) (hi := 9) (lo := 9) (v := 1) h1
  have hrd : rd (alwaysOnUp s) Reg.PWR_STATUS =
      rd (setFld Reg.PWR_STATUS 9 9 1 { (fresh s).2 with pwr := { (fresh s).2.pwr with inReset := false } }) Reg.PWR_STATUS :=
    rd_wr_ne h2.regs _ (by decide)
  refine ⟨canon_wr h2, rfl, ?_, ?_, rfl, rfl⟩
  · exact (congrArg (bits · 8 8) hrd).trans (fld_setFld_ne h1.regs _ _ _ (by decide) (.inl (by decide)))
  · exact (congrArg (bits · 9 9) hrd).trans (fld_setFld h1.regs _ _ _ (by decide))

/-- PWR_GOOD with no power-up that waits for it. -/
theorem execPwrGoodRise_alone {s : State} (h : bits s.pwr.rails 0 0 = 0 ∨ s.pwr.rising = 0) :
    execPwrGoodRise s = setFld Reg.PWR_STATUS 8 8 1 s := if_pos h

/-- PWR_GOOD for a boot: it goes on after 10 µs. -/
theorem execPwrGoodRise_boot {s : State} (hr : bits s.pwr.rails 0 0 = 1) (hw : s.pwr.rising = 1) :
    execPwrGoodRise s = bootFlash (runCycles 250 (setFld Reg.PWR_STATUS 8 8 1 s)) := by
  have hn : ¬ (bits s.pwr.rails 0 0 = 0 ∨ s.pwr.rising = 0) := by
    rw [hr, hw]
    decide
  have h1 : (runCycles 250 (setFld Reg.PWR_STATUS 8 8 1 s)).pwr.rising = 1 := (sheltered_runCycles 250 _).rising.trans hw
  exact (if_neg hn).trans (if_pos h1)

/-! ### The obligation -/

/-- The state in which RETRY reads the flash. -/
def retried (flash : SMap Byte) (s : State) : State :=
  { setFld Reg.NVS_STATUS 9 0 2 s with nvs := { s.nvs with flash := flash } }

theorem execRetry_safe {s : State} (h : safeState s = true) (src : Source) (flash : SMap Byte) :
    execRetry src flash s = bootFlash (retried flash s) := by
  simp only [execRetry, h, Bool.not_true, Bool.false_eq_true, if_false]
  rfl

theorem checkCode_retried {s : State} (h : Canon s) (flash : SMap Byte) :
    checkCode (retried flash s) flash (bankUsed (retried flash s)) = checkCode s flash (bankUsed s) := by
  have hb : bankUsed (retried flash s) = bankUsed s :=
    bankUsed_congr (fld_setFld_ne h.regs _ _ _ (by decide) (.inr (by decide))) (fld_setFld_ne h.regs _ _ _ (by decide) (.inr (by decide))) rfl rfl
  rw [hb]
  exact bootCheck_congr rfl ..

/-- Settles O47: a boot that has read the flash shows the verdict of its checks; REBOOT and RESET_RELEASE begin one over domains that are
reset, which waits where PWR_GOOD is low. -/
theorem bootsRun : Obligations.BootsRun := by
  unfold Obligations.BootsRun
  refine ⟨?crossbar, ?supervisor⟩
  case crossbar =>
    intro src flash x hx hin s bank
    have h : Canon s := canon_arrive (canon_iff.1 hx)
    have retry : exec (.retry src flash) x = .next (withQueue x.pending (execRetry src flash s)) := accessed_open hin _
    have reboot : exec (.reboot src flash) x = .next (withQueue x.pending (execReboot src flash s)) := accessed_open hin _
    refine ⟨fun hs => ?image, fun hs => ⟨_, retry, ?safe⟩, fun hc => accState_reports (canon_iff.1 hx) hin rfl (execReboot_running hc src flash),
      fun hc hp => ⟨_, reboot, ?waits⟩, fun hc hp hr => ⟨_, reboot, ?goes⟩⟩
    case image =>
      have hn : execRetry src flash s = s := by
        simp only [execRetry, hs, Bool.not_false, if_true]
      rw [retry, hn, withQueue_arrive]
    case safe =>
      obtain ⟨hv, hf, -⟩ := bootFlash_verdict (s := retried flash s) (canon_mk (canon_setFld h))
      rw [execRetry_safe hs]
      exact ⟨hv.trans (congrArg verdictOf (checkCode_retried h flash)), hf⟩
    case waits =>
      have hl := domainsLost_domainsReset h
      have hb := bootBegun_raised hl.canon flash
      have low : fld (raised flash (domainsReset s)) Reg.PWR_STATUS 8 8 = 0 := (hb.power 8 8 (by decide)).trans (domainsReset_unpowered h hp)
      rw [execReboot_idle hc, bootStart_eq, low]
      have hcell : ∀ c, cellAt (raised flash (domainsReset s)) c = cellAt (domainsReset s) c := cellAt_congr hb.cells
      refine ⟨hb.casting.trans hl.casting, ?_, hb.boot, hb.rising, hb.rails, hb.flash, hb.dram.trans hl.dram, hb.time.trans hl.time, fun c => ?_⟩
      · exact (congrArg (bits · 3 0) (hb.regs _ (by decide) (by decide))).trans hl.sch
      · exact hcell c ▸ hl.cells c
    case goes =>
      have hl := domainsLost_domainsReset h
      have hb := bootBegun_raised hl.canon flash
      have high : fld (raised flash (domainsReset s)) Reg.PWR_STATUS 8 8 = 1 := (hb.power 8 8 (by decide)).trans (domainsReset_powered h hp hr)
      obtain ⟨hv, hf, hcast⟩ := bootFlash_verdict hb.canon
      rw [hb.flash, hb.used, hl.picked] at hv
      rw [execReboot_idle hc, bootStart_eq, if_pos high]
      exact ⟨hcast (hb.casting.trans hl.casting), hf.trans hb.flash,
        hv.trans (congrArg verdictOf (bootCheck_congr (hb.fuses.trans hl.fuses) ..))⟩
  case supervisor =>
    intro flash s hs p
    have h : Canon s := canon_iff.1 hs
    refine ⟨fun hin => ?running, fun hin hp => ⟨_, rfl, ?released⟩, fun hw => ⟨_, rfl, ?alone⟩, fun hr hw => ⟨_, rfl, ?boots⟩⟩
    case running =>
      exact served_unchanged (if_neg (by rw [hin]; decide))
    case released =>
      obtain ⟨ha, hout, h8, h9, hcell, hdram⟩ := alwaysOnUp_values h
      have hb := bootBegun_raised ha flash
      have low : fld (raised flash (alwaysOnUp s)) Reg.PWR_STATUS 8 8 = 0 := (hb.power 8 8 (by decide)).trans (h8.trans hp)
      have he : execResetRelease flash s = raised flash (alwaysOnUp s) := by
        rw [execResetRelease, if_pos hin, bootStart_eq, low]
        rfl
      rw [he]
      exact ⟨hb.inReset.trans hout, hb.boot, hb.rising, hb.rails, hb.flash, (hb.power 9 9 (by decide)).trans h9, hb.cells.trans hcell,
        hb.dram.trans hdram⟩
    case alone =>
      rw [execPwrGoodRise_alone hw]
      exact ⟨fld_setFld h.regs _ _ _ (by decide), fun k hk => rd_setFld_ne h.regs _ _ _ hk, rfl, rfl⟩
    case boots =>
      rw [execPwrGoodRise_boot hr hw]
      exact (bootFlash_verdict (canon_runCycles (canon_setFld h))).1

end Sys2Proof.Machine
end

section
/-! PROOFS. Slot words (R43 to R48, R53, R56, R58): what a refused word, a HOLD and a word that acts come to, and the 128 bits of a word. -/
namespace Sys2Proof.Machine

section
variable {head : BitVec 8} {w : Slot} {ready : State → Bool} {s : State}

/-! ### What a unit answers to its word -/

theorem slotFaults_lt {unit : Nat} {first there ok : Bool} : ∀ b ∈ slotFaults s unit w first there ok, b < 32 := by
  intro b hb
  simp only [slotFaults, List.mem_append] at hb
  rcases hb with ((hb | hb) | hb) | hb <;> (split at hb <;> simp at hb; omega)

/-- A word whose operands are not defined is refused. -/
theorem ready_of_acts (h : acts head w ready s = true) : ready (atIssue head w s) = true := by
  obtain ⟨-, hr⟩ := acts_iff.1 h
  by_contra hn
  simp [refusals, slotFaults, Bool.eq_false_iff.2 hn] at hr

/-- Several violations of one word only report. -/
theorem rep_viols {z : State} {unit die wh : Nat} {l : List Nat} (h : Rep z s) : Rep z (each l (fun b s => viol b unit die wh s) s) :=
  rep_each (fun _ _ h => rep_viol h) h

theorem refused_reports {c : Instr} (hw : slotWord c = some (head, w, ready)) (h : Canon s) (hr : reaches head w s = true)
    (hn : refusals head w ready s ≠ []) :
    ∃ t, exec c s = .next t ∧ OnlyReports (atIssue head w s) t ∧ ∀ b ∈ refusals head w ready s, fld t Reg.SCH_VIOL b b = 1 := by
  have hc : Canon (atIssue head w s) := canon_atIssue h
  obtain ⟨body, hx⟩ := exec_slot hw
  refine ⟨_, hx s, ?_, fun b hb => ?_⟩
  · rw [issue_refused hr hn]
    exact (rep_viols (rep_self hc)).only.queued _
  · rw [issue_refused hr hn, fld_withQueue]
    exact fld_viols hc slotFaults_lt b (.inl hb)

/-- Only a head of class 0 is a HOLD's. -/
theorem not_definedHead_of_holdReady (h : holdReady head w s = true) : definedHead head = false := by
  simp only [holdReady, Bool.and_eq_true, decide_eq_true_eq] at h
  obtain ⟨⟨_, hc⟩, _⟩ := h
  simp [definedHead, hc]

theorem exec_hold_acts (h : acts head w (holdReady head w) s = true) :
    exec (.hold head w) s = .next (withQueue s.pending (atIssue head w s)) := by
  have hd : definedHead head = false := not_definedHead_of_holdReady (ready_of_acts h)
  simp only [exec, doHold, served, execHold, hd, Bool.false_eq_true, if_false]
  rw [issue_acts h]

theorem exec_hold_defined (h : definedHead head = true) : exec (.hold head w) s = .next s := by
  simp only [exec, doHold, served, execHold, h, if_true]
  rfl

/-- A word that acts has its effect on the state of its issue tick. -/
theorem exec_acts {c : Instr} {body : State → State} (hx : exec c s = served (issue head w ready body) s) (h : acts head w ready s = true) :
    exec c s = .next (withQueue s.pending (body (atIssue head w s))) := by
  rw [hx, served, issue_acts h]

end

/-! ### The 128 bits of a word (R45, R47) -/

theorem slotOf_bits (head : BitVec 8) (w : Slot) : slotOf w.place w.evalSeg (Slot.bits head w) = w := by
  obtain ⟨place, evalSeg, delta, flags, ops⟩ := w
  simp only [slotOf, Slot.bits, Slot.mk.injEq, true_and]
  refine ⟨?_, ?_, ?_⟩ <;> (apply BitVec.eq_of_getLsbD_eq; intro i hi; simp; grind)

theorem head_bits (head : BitVec 8) (w : Slot) : (Slot.bits head w).extractLsb' 120 8 = head := by
  obtain ⟨place, evalSeg, delta, flags, ops⟩ := w
  simp only [Slot.bits]
  apply BitVec.eq_of_getLsbD_eq
  intro i hi
  simp
  grind

/-- A head that names no class but HOLD gives a HOLD. -/
theorem slotCommand_undefined {head : BitVec 8} (h : definedHead head = false) (w : Slot) (flits : List (Option (List Byte))) :
    slotCommand w.place w.evalSeg (Slot.bits head w) flits = .hold head w := by
  unfold slotCommand
  simp only [slotOf_bits, head_bits]
  split
  case h_29 => rfl
  all_goals
    rename_i e
    simp [definedHead, e] at h

/-- The bits of a word give its command back. -/
theorem slotCommand_bits {c : Instr} {head : BitVec 8} {w : Slot} {flits : List (Option (List Byte))} (hw : slotWordOf c = some (head, w))
    (hf : ∀ v f, c = .recv v f ∨ c = .relay v f → f = flits) : slotCommand w.place w.evalSeg (Slot.bits head w) flits = c := by
  cases c
  case hold x v =>
    by_cases hd : definedHead x = true
    · simp [slotWordOf, hd] at hw
    · simp only [slotWordOf, hd, Bool.false_eq_true, if_false, Option.some.injEq, Prod.mk.injEq] at hw
      obtain ⟨rfl, rfl⟩ := hw
      exact slotCommand_undefined (Bool.eq_false_iff.2 hd) ..
  case recv v f =>
    cases hw
    rw [hf w f (.inl rfl), slotCommand, head_bits, slotOf_bits]
    rfl
  case relay v f =>
    cases hw
    rw [hf w f (.inr rfl), slotCommand, head_bits, slotOf_bits]
    rfl
  all_goals cases hw
  all_goals
    rw [slotCommand, head_bits, slotOf_bits]
    rfl

/-- Settles O6: a word runs to its issue tick, where it raises what refuses it or has its effect, and its fields lie side by side in its bits. -/
theorem refusedAndHeldWords : Obligations.RefusedAndHeldWords := by
  unfold Obligations.RefusedAndHeldWords
  refine ⟨?refused, ?held, ?acting, ?bits⟩
  case refused =>
    intro c head w ready s hw hs hr hn
    exact refused_reports hw (canon_iff.1 hs) hr hn
  case held =>
    intro head w s
    exact ⟨fun h => ⟨_, exec_hold_acts h, rfl⟩, exec_hold_defined⟩
  case acting =>
    intro w flits s
    and_intros
    all_goals exact exec_acts rfl
  case bits =>
    intro c head w flits hw hf
    exact slotCommand_bits hw hf

end Sys2Proof.Machine
end

section
/-! PROOFS. The read of the tick counter (R62). -/
namespace Sys2Proof.Machine

/-- SCH_TICK_HI is no view: it reads as it is held. -/
theorem ctlRead_tickHi (src : Source) (s : State) : ctlRead src Reg.SCH_TICK_HI s = (rd s Reg.SCH_TICK_HI, s) := by
  have hw : cellWindow s Reg.SCH_TICK_HI = none := cellWindow_of_package (by decide) (by decide)
  have hv : pkgView s Reg.SCH_TICK_HI = rd s Reg.SCH_TICK_HI := by
    have hrow : (findRow (rowsOf Reg.SCH_TICK_HI) Reg.SCH_TICK_HI).isNone = false := by decide
    simp only [pkgView, hrow]
    rfl
  unfold ctlRead
  dsimp only
  rw [show Reg.SCH_TICK_HI / 4 * 4 = Reg.SCH_TICK_HI from rfl, hw, hv]
  rfl

/-- Settles O53: the read is one write of the upper half, and SCH_TICK_HI reads as it is held. -/
theorem tickReadLatches : Obligations.TickReadLatches := by
  unfold Obligations.TickReadLatches
  intro src y x h hr s
  obtain ⟨t, hx, hout, hhi, hregs, htime, hcells, hdram⟩ :=
    latchRead_latches (i := .schTickLoRead src) (canon_iff.1 h) hr (s := s) rfl rfl rfl
  have hlt : now s / 2 ^ 32 < 2 ^ 32 := by
    have := s.time.tick.isLt
    simp only [now]
    omega
  refine ⟨t, hx, hout, ?_, hregs, htime, hcells, hdram⟩
  rw [ctlRead_tickHi, hhi, Nat.mod_eq_of_lt hlt]

end Sys2Proof.Machine
end

section
/-! PROOFS. The power of cells and dies in a step (R59, R60, R399; logs 81, 85 and 108): what the entries of the wake table do, what ends a
wake or a shut-down, and dies that rest and come up. -/
namespace Sys2Proof.Machine

section
variable {s : State}

/-! ### The power state of a cell -/

theorem cellAt_setPower (h : Canon s) (c : Nat) (p : CellPower) : cellAt (setPower c p s) c = { cellAt s c with power := p } :=
  cellAt_onCell h.cells c _

theorem cellAt_setPower_ne (h : Canon s) {c b : Nat} (p : CellPower) (hb : b ≠ c) : cellAt (setPower c p s) b = cellAt s b :=
  cellAt_onCell_ne h.cells _ hb

/-- An entry that the step's wake table holds is carried out on its tick. -/
theorem onEntry_held {die tick cell action : Nat} (h : wakeEntryIs s die tick cell action = true) (f : State → State) :
    onEntry die tick cell action f s = f (runTo (s.run.start + tick) s) := if_pos h

theorem execWake_dozing {die : Fin 4} {cell : Fin 256} {at_ : BitVec 32} (he : wakeEntryIs s die.val at_.toNat cell.val 1 = true)
    (hd : dieReady (runTo (s.run.start + at_.toNat) s) die.val = true)
    (hp : (cellAt (runTo (s.run.start + at_.toNat) s) (phys (runTo (s.run.start + at_.toNat) s) die.val cell.val)).power = .doze) :
    execWake die cell at_ s = setPower (phys (runTo (s.run.start + at_.toNat) s) die.val cell.val)
      (.waking (now (runTo (s.run.start + at_.toNat) s) + 64)) (runTo (s.run.start + at_.toNat) s) := by
  rw [execWake, onEntry_held he]
  simp only [hd, Bool.not_true, Bool.false_eq_true, if_false, hp]

theorem execDoze_awake {die : Fin 4} {cell : Fin 256} {at_ : BitVec 32} (he : wakeEntryIs s die.val at_.toNat cell.val 2 = true)
    (hp : (cellAt (runTo (s.run.start + at_.toNat) s) (phys (runTo (s.run.start + at_.toNat) s) die.val cell.val)).power = .run ∨
      ∃ d, (cellAt (runTo (s.run.start + at_.toNat) s) (phys (runTo (s.run.start + at_.toNat) s) die.val cell.val)).power = .waking d) :
    execDoze die cell at_ s = setPower (phys (runTo (s.run.start + at_.toNat) s) die.val cell.val)
      (.shutting (now (runTo (s.run.start + at_.toNat) s) + 40) false) (runTo (s.run.start + at_.toNat) s) := by
  rw [execDoze, onEntry_held he]
  obtain hp | ⟨d, hp⟩ := hp <;> simp only [hp]

theorem execCellInRun_waking {die : Fin 4} {cell : Fin 256} {d : Nat} (hp : (cellAt s (phys s die.val cell.val)).power = .waking d) :
    execCellInRun die cell s = setPower (phys s die.val cell.val) .run (runTo d s) := by
  simp only [execCellInRun, hp]

theorem execDozeComplete_shutting {die : Fin 4} {cell : Fin 256} {d : Nat} {latched : Bool}
    (hp : (cellAt s (phys s die.val cell.val)).power = .shutting d latched) :
    execDozeComplete die cell s = setPower (phys s die.val cell.val) (if latched then .waking (d + 64) else .doze) (runTo d s) := by
  simp only [execDozeComplete, hp]

/-- A bit that is replaced reads as what replaced it. -/
theorem fld_setBit (h : wf regDefault s.regs = true) (k v : Nat) {b : Nat} (hb : b < 32) : fld (setFld k b b v s) k b b = v % 2 := by
  rw [fld_setFld h k b v hb, Nat.add_sub_cancel_left, Nat.pow_one]

/-! ### Dies at rest (R399) -/

theorem bringUp_resting {die : Nat} (h : s.pwr.rests.contains die = true) : bringUp die s = setFld Reg.PWR_STATUS (3 + die) (3 + die) 1
    { s with pwr := { s.pwr with rests := s.pwr.rests.filter (· != die), upAt := put (fun _ => 0) s.pwr.upAt die (now s + pllStops s die) } } := by
  simp only [bringUp, h, Bool.not_true, Bool.false_eq_true, if_false]

theorem bringUp_up {die : Nat} (h : s.pwr.rests.contains die = false) : bringUp die s = s := by
  simp only [bringUp, h, Bool.not_false, if_true]

theorem bringUp_rests (die : Nat) (s : State) : (bringUp die s).pwr.rests = s.pwr.rests.filter (· != die) := by
  by_cases h : s.pwr.rests.contains die = true
  · rw [bringUp_resting h]
    rfl
  · rw [bringUp_up (Bool.eq_false_iff.2 h), eq_comm, List.filter_eq_self]
    intro a ha
    simp only [bne_iff_ne]
    rintro rfl
    exact h (List.contains_iff_mem.2 ha)

/-- Every die that comes up rests no more, and the others rest on. -/
theorem each_bringUp_rests (l : List Nat) (s : State) : (each l bringUp s).pwr.rests = s.pwr.rests.filter (fun d => !l.contains d) := by
  induction l generalizing s with
  | nil => simp [each_nil]
  | cons a l ih =>
    rw [each_cons, ih, bringUp_rests, List.filter_filter]
    congr 1
    funext d
    simp only [List.contains_cons, Bool.not_or]
    exact Bool.and_comm ..

/-- `t` differs from `s` at most in the power state and in PWR_STATUS. -/
structure PowerOnly (s t : State) : Prop where
  canon : Canon t
  regs : ∀ k, k ≠ Reg.PWR_STATUS → rd t k = rd s k
  cells : t.cells = s.cells
  dram : t.dram = s.dram

theorem bringUp_powerOnly {z : State} (die : Nat) (h : PowerOnly z s) : PowerOnly z (bringUp die s) := by
  refine ⟨canon_bringUp h.canon, fun k hk => ?_, ?_, ?_⟩ <;> by_cases hr : s.pwr.rests.contains die = true
  · rw [bringUp_resting hr, rd_setFld_ne (canon_mk h.canon).regs _ _ _ hk]
    exact h.regs k hk
  · rw [bringUp_up (Bool.eq_false_iff.2 hr)]
    exact h.regs k hk
  · rw [bringUp_resting hr]
    exact h.cells
  · rw [bringUp_up (Bool.eq_false_iff.2 hr)]
    exact h.cells
  · rw [bringUp_resting hr]
    exact h.dram
  · rw [bringUp_up (Bool.eq_false_iff.2 hr)]
    exact h.dram

/-- All dies come up. -/
theorem allUp_values (h : Canon s) (q : List Instr) :
    let t := withQueue q (each (List.range 4) bringUp s)
    (∀ d, d < 4 → t.pwr.rests.contains d = false) ∧ (∀ k, k ≠ Reg.PWR_STATUS → rd t k = rd s k) ∧ t.cells = s.cells ∧ t.dram = s.dram := by
  have hup : PowerOnly s (each (List.range 4) bringUp s) :=
    each_inv (PowerOnly s) (fun die _ _ hz => bringUp_powerOnly die hz) ⟨h, fun _ _ => rfl, rfl, rfl⟩
  refine ⟨fun d hd => ?_, hup.regs, hup.cells, hup.dram⟩
  rw [withQueue_pwr, each_bringUp_rests]
  simp [List.contains_eq_mem, hd]

end

/-- Settles O20: each entry is one write of a cell's power state, or of the list of resting dies with its bit of PWR_STATUS, after the time
has run to its tick. -/
theorem cellAndDiePower : Obligations.CellAndDiePower := by
  unfold Obligations.CellAndDiePower
  refine ⟨?cells, ?dies⟩
  case cells =>
    intro die cell at_ s hs
    have h : Canon s := canon_iff.1 hs
    refine ⟨?wake, ?doze, ?inRun, ?complete⟩
    case wake =>
      intro he s' c hd hp
      refine ⟨_, rfl, ?_⟩
      rw [execWake_dozing he hd hp]
      simp only [cellAt_withQueue, withQueue_regs, withQueue_dram]
      exact ⟨cellAt_setPower (canon_runTo h) c _, fun b hb => cellAt_setPower_ne (canon_runTo h) _ hb, rfl, rfl⟩
    case doze =>
      intro he s' c hp
      refine ⟨_, rfl, ?_⟩
      rw [execDoze_awake he hp]
      simp only [cellAt_withQueue, withQueue_regs, withQueue_dram]
      exact ⟨cellAt_setPower (canon_runTo h) c _, fun b hb => cellAt_setPower_ne (canon_runTo h) _ hb, rfl, rfl⟩
    case inRun =>
      intro d hp
      refine ⟨_, rfl, ?_⟩
      rw [execCellInRun_waking hp]
      simp only [cellAt_withQueue, withQueue_regs, withQueue_dram]
      exact ⟨cellAt_setPower (canon_runTo h) _ _, rfl, rfl⟩
    case complete =>
      intro d latched hp
      refine ⟨_, rfl, ?_⟩
      rw [execDozeComplete_shutting hp]
      simp only [cellAt_withQueue, withQueue_regs, withQueue_dram]
      exact ⟨cellAt_setPower (canon_runTo h) _ _, rfl, rfl⟩
  case dies =>
    intro die at_ s hs
    have h : Canon s := canon_iff.1 hs
    refine ⟨?up, ?rest, ?autoUp⟩
    case up =>
      intro he s' hr
      have hc : Canon s' := canon_runTo h
      refine ⟨_, rfl, ?_⟩
      rw [execDieUp, onEntry_held he, bringUp_resting hr]
      simp only [rd_withQueue, fld_withQueue, withQueue_pwr, withQueue_cells, withQueue_dram]
      exact ⟨rfl, rfl, fld_setBit (canon_mk hc).regs _ _ (by omega), fun k hk => rd_setFld_ne (canon_mk hc).regs _ _ _ hk, rfl, rfl⟩
    case rest =>
      intro he s' hall hr
      have hc : Canon s' := canon_runTo h
      refine ⟨_, rfl, ?_⟩
      rw [execDieRest, onEntry_held he, if_pos (by rw [hall, hr]; rfl)]
      simp only [rd_withQueue, fld_withQueue, withQueue_pwr, withQueue_cells, withQueue_dram]
      exact ⟨rfl, rfl, fld_setBit (canon_mk hc).regs _ _ (by omega), fun k hk => rd_setFld_ne (canon_mk hc).regs _ _ _ hk, rfl, rfl⟩
    case autoUp =>
      intro hst s'
      refine ⟨_, rfl, ?_⟩
      rw [execDieAutoUp, if_pos hst]
      exact allUp_values (canon_runTo h) _

end Sys2Proof.Machine
end

section
/-! PROOFS. What survives reporting and the reading of DRAM: a property that says nothing of what an assay record writes survives every
record; one that says nothing of violations, taints and events either survives those; one that says nothing of DRAM and its error counts
survives every unscheduled read and every write of DRAM. -/
namespace Sys2Proof.Machine

/-! ### Records (R349 to R353, R459) -/

/-- `P` says nothing of what an assay record writes. -/
structure KeptByRecords (P : State → Prop) : Prop where
  wr : ∀ {k v : Nat} {s : State}, recKey k = true → P s → P (wr k v s)
  side : ∀ {s : State} {events : List (Nat × Nat)} {health : Health}, P s → P { s with events := events, health := health }

namespace KeptByRecords
variable {P : State → Prop} (hP : KeptByRecords P) {s : State}
include hP

theorem sticky {k : Nat} (bit : Nat) (h : P s) (hk : recKey k = true := by decide) : P (sticky k bit s) := hP.side (hP.wr hk h)

theorem journalIssue (entry : List Byte) (h : P s) : P (journalIssue entry s) := by
  unfold Machine.journalIssue
  split
  · exact hP.sticky 3 (hP.wr (by decide) h)
  · exact hP.wr (by decide) (hP.side h)

theorem enqueue (r : Rec) (h : P s) : P (enqueue r s) := by
  unfold Machine.enqueue
  dsimp only
  split
  · exact hP.wr (by decide) (hP.side h)
  · split
    · exact hP.wr (by decide) (hP.wr (by decide) (hP.side h))
    · exact hP.wr (by decide) h

theorem recordFull (cls sev : Nat) (loc : List (Nat × Nat)) (detail : List (String × Nat)) (classif first : Nat) (h : P s) :
    P (recordFull cls sev loc detail classif first s) := by
  unfold Machine.recordFull
  extract_lets loc' x quiet recent r cfg entry health s1 s2 s3
  have h2 : P s2 := hP.wr (by decide) (hP.side (s := s) h)
  have h3 : P s3 := by
    unfold s3
    split
    · exact hP.journalIssue entry h2
    · exact h2
  split
  · exact hP.side h
  · split
    · exact hP.enqueue r h3
    · exact hP.wr (by decide) (hP.side h3)

theorem recordOf (cls reg : Nat) (loc : List (Nat × Nat)) (first : Nat) (h : P s) : P (recordOf cls reg loc first s) :=
  hP.recordFull _ _ _ _ _ _ h

theorem record (cls : Nat) (loc : List (Nat × Nat)) (first : Nat) (h : P s) : P (record cls loc first s) := hP.recordOf _ _ _ _ h

theorem riskInput (k n : Nat) (h : P s) : P (riskInput k n s) := hP.side h

theorem noteCorrected (place k : Nat) (h : P s) : P (noteCorrected place k s) := hP.riskInput k 1 (hP.side h)

end KeptByRecords

/-! ### Taints and job faults (R322, R341 to R347) -/

/-- The registers that a taint writes, those of its record apart. -/
def taintKey (k : Nat) : Bool := [Reg.HLT_TAINT, Reg.HLT_TAINT_TICK, Reg.HLT_TAINT_WHERE, Reg.HLT_LATE_TAINTS].contains k

/-- `P` says nothing of what taints and job faults write, nor of the marks that they leave in the step. -/
structure KeptByTaints (P : State → Prop) : Prop extends KeptByRecords P where
  tainted : ∀ {k v : Nat} {s : State}, taintKey k = true → P s → P (Machine.wr k v s)
  marks : ∀ {s : State} {r : Run}, r.unmarked = s.run.unmarked → P s → P { s with run := r }

namespace KeptByTaints
variable {P : State → Prop} (hP : KeptByTaints P) {s : State}
include hP

theorem jobFault (h : P s) : P (jobFault s) := by
  unfold Machine.jobFault
  split
  · exact hP.marks rfl h
  · exact h

theorem jobFaultRec (reg : Nat) (loc : List (Nat × Nat)) (first : Nat) (h : P s) : P (jobFaultRec reg loc first s) :=
  hP.recordOf _ _ _ _ (hP.jobFault h)

theorem taintMark (cause unit die wh sub : Nat) (loc : List (Nat × Nat)) (h : P s) : P (taintMark cause unit die wh sub loc s) :=
  hP.marks rfl (hP.tainted (by decide) (hP.tainted (by decide) (hP.tainted (by decide) h)))

theorem taint (cause unit die wh sub : Nat) (loc : List (Nat × Nat)) (h : P s) : P (taint cause unit die wh sub loc s) := by
  unfold Machine.taint
  extract_lets loc' first s1
  have h1 : P s1 := by
    refine hP.riskInput _ _ ?_
    split
    · exact hP.taintMark _ _ _ _ _ _ h
    · exact h
  split
  · exact h
  · split
    · exact hP.recordFull _ _ _ _ _ _ (hP.tainted (by decide) h1)
    · exact hP.record _ _ _ (hP.marks rfl h1)

theorem taintCell (cause unit die cell : Nat) (h : P s) : P (taintCell cause unit die cell s) := hP.taint _ _ _ _ _ _ h

end KeptByTaints

/-! ### Violations and events (R56, R57, R321) -/

/-- `P` says nothing of what a report writes, nor of the marks that it leaves in the step. -/
structure KeptByReports (P : State → Prop) : Prop extends KeptByTaints P where
  report : ∀ {k v : Nat} {s : State}, reportKey k = true → P s → P (Machine.wr k v s)
  sent : ∀ {s : State} {host : HostSys} {out : List Output}, P s → P { s with host := host, out := out }

namespace KeptByReports
variable {P : State → Prop} (hP : KeptByReports P) {s : State}
include hP

theorem sendPacket {q : Nat} (hq : q < 2 ^ 20) (opcode va rkey : Nat) (payload : List Byte) (imm : Nat) (ev : Bool) (h : P s) :
    P (sendPacket q opcode va rkey payload imm ev s) := hP.sent (hP.sent (hP.report (reportKey_ctx hq) h))

theorem event (etype code : Nat) (h : P s) : P (event etype code s) := by
  unfold Machine.event
  split
  · exact hP.report (by decide) h
  · exact each_inv P (fun q hq _ h => hP.sendPacket (qpsIn_lt hq) 0x04 0 0 _ 0 true h) h

theorem viol (bit unit die wh : Nat) (h : P s) : P (viol bit unit die wh s) := by
  have h1 : P (Machine.sticky Reg.SCH_VIOL bit s) := hP.side (hP.report (by decide) h)
  unfold Machine.viol
  refine hP.record _ _ _ (hP.jobFault ?_)
  split
  · exact hP.marks rfl (hP.report (by decide) (hP.report (by decide) h1))
  · exact h1

theorem accFirst (kind : Nat) (src : Source) (addr : Nat) (h : P s) : P (accFirst kind src addr s) := by
  unfold Machine.accFirst
  dsimp only
  split
  · exact hP.sticky _ (hP.report (by decide) h)
  · exact hP.sticky _ h

end KeptByReports

/-! ### Reads and writes of DRAM (R242, R254 to R257) -/

/-- The registers that reading DRAM writes, those of the record of a failed line apart. -/
def readKey (k : Nat) : Bool :=
  [Reg.MEM_STICKY, Reg.MEM_STATUS, Reg.MEM_UE_ADDR_LO, Reg.MEM_UE_ADDR_HI].contains k
    || (decide (Reg.MEM_ERR ≤ k) && decide (k ≤ Reg.MEM_ERR + 28))

theorem stackOf_lt (a : Nat) : stackOf a < 8 := bits_lt a 38 36

theorem readKey_err (a : Nat) : readKey (Reg.MEM_ERR + 4 * stackOf a) = true := by
  have := stackOf_lt a
  unfold readKey
  rw [Bool.or_eq_true, Bool.and_eq_true, decide_eq_true_eq, decide_eq_true_eq]
  omega

/-- A line read corrected is written back as it was read, with its mark gone (R254, R257). -/
def scrubbed (a : Nat) (s : State) : State := setMark (lineOf a) 0 (dramPut (lineOf a * 64) (dramGet s (lineOf a * 64) 64) s)

theorem scrubbed_regs (a : Nat) (s : State) : (scrubbed a s).regs = s.regs := by
  unfold scrubbed setMark dramPut
  rfl

/-- `P` says nothing of what an unscheduled read of DRAM writes. -/
structure KeptByReads (P : State → Prop) : Prop extends KeptByRecords P where
  count : ∀ {k v : Nat} {s : State}, readKey k = true → P s → P (Machine.wr k v s)
  rows : ∀ {s : State} {repair : SMap (List Nat)} {corrected : SMap Nat},
    P s → P { s with mem := { s.mem with repair := repair, corrected := corrected } }
  scrub : ∀ {a : Nat} {s : State}, P s → P (scrubbed a s)

namespace KeptByReads
variable {P : State → Prop} (hP : KeptByReads P) {s : State}
include hP

theorem listRow (a : Nat) (h : P s) : P (listRow a s) := by
  unfold Machine.listRow
  extract_lets st l s1
  split
  · exact h
  · exact hP.count (by decide) (hP.rows (s := s) (corrected := s.mem.corrected) h)

theorem countCorrected (a : Nat) (h : P s) : P (countCorrected a s) := by
  have h1 : ∀ c : SMap Nat, P { s with mem := { s.mem with corrected := c } } := fun c => hP.rows (repair := s.mem.repair) h
  unfold Machine.countCorrected
  dsimp only
  split
  · exact hP.listRow a (h1 _)
  · exact h1 _

theorem correctedRead (a : Nat) (h : P s) : P (correctedRead a s) := by
  unfold Machine.correctedRead
  refine hP.countCorrected a (hP.scrub (hP.side (hP.count (by decide) (hP.count (readKey_err a) ?_))))
  exact hP.noteCorrected _ _ h

/-- An unscheduled read of a failed line taints nothing. -/
theorem failedRead (a m : Nat) (h : P s) : P (failedRead a m false s) := by
  unfold Machine.failedRead
  extract_lets st pc s1 s2 loc s3
  have h1 : P s1 := by
    unfold s1
    split
    · exact hP.count (by decide) (hP.count (by decide) h)
    · exact h
  have h2 : P s2 := by
    refine hP.side (hP.count (by decide) ?_)
    split
    · exact h1
    · exact hP.count (readKey_err a) h1
  rw [if_neg Bool.false_ne_true]
  exact hP.record _ _ _ h2

theorem recordRead (a m : Nat) (h : P s) : P (recordRead a m false s) := by
  unfold Machine.recordRead
  extract_lets s1
  have h1 : P s1 := by
    unfold s1
    split
    · exact hP.count (readKey_err a) h
    · exact h
  split
  · exact h1
  · split
    · exact hP.correctedRead a h1
    · exact hP.failedRead a m h1

theorem dramRead (a : Nat) (h : P s) : P (dramRead a false s) := by
  unfold Machine.dramRead
  split
  · exact h
  · exact hP.recordRead a _ h

theorem readSpan (a n : Nat) (h : P s) : P (readSpan a n s).2 := by
  unfold Machine.readSpan
  extract_lets bad
  generalize true = b
  induction bad generalizing b s with
  | nil => exact h
  | cons kv l ih => exact ih (hP.dramRead (64 * kv.1) h) _

end KeptByReads

/-- `P` says nothing of what a write of DRAM writes. -/
structure KeptByWrites (P : State → Prop) : Prop extends KeptByReads P where
  dram : ∀ {s : State} {d : Dram}, P s → P { s with dram := d }

namespace KeptByWrites
variable {P : State → Prop} (hP : KeptByWrites P) {s : State}
include hP

theorem asyncLine (a n line : Nat) (h : P s) : P (asyncLine a n line s) := by
  unfold Machine.asyncLine
  split
  · exact hP.dram h
  · exact hP.dram (hP.dram (hP.dramRead _ h))

theorem asyncWrite (a : Nat) (data : List Byte) (h : P s) : P (asyncWrite a data s) :=
  hP.dram (each_inv P (fun l _ _ h => hP.asyncLine _ _ l h) h)

end KeptByWrites

/-! ### Views that see nothing of reports and reads -/

section
variable {β : Type} {g : State → β} {v : β}

/-- A view of the state that reporting does not change. -/
theorem keptByReports_view (hw : ∀ k v s, g (wr k v s) = g s := by intros; rfl)
    (hs : ∀ s events health, g { s with events := events, health := health } = g s := by intros; rfl)
    (hm : ∀ s r, r.unmarked = s.run.unmarked → g { s with run := r } = g s := by intros; rfl)
    (ho : ∀ s host out, g { s with host := host, out := out } = g s := by intros; rfl) : KeptByReports fun s => g s = v :=
  ⟨⟨⟨fun _ h => (hw ..).trans h, fun h => (hs ..).trans h⟩, fun _ h => (hw ..).trans h, fun hr h => (hm _ _ hr).trans h⟩,
    fun _ h => (hw ..).trans h, fun h => (ho ..).trans h⟩

/-- A view of the state that reading and writing DRAM does not change. -/
theorem keptByWrites_view (hw : ∀ k v s, g (wr k v s) = g s := by intros; rfl)
    (hs : ∀ s events health, g { s with events := events, health := health } = g s := by intros; rfl)
    (hd : ∀ s d, g { s with dram := d } = g s := by intros; rfl)
    (hr : ∀ s repair corrected, g { s with mem := { s.mem with repair := repair, corrected := corrected } } = g s := by intros; rfl) :
    KeptByWrites fun s => g s = v :=
  ⟨⟨⟨fun _ h => (hw ..).trans h, fun h => (hs ..).trans h⟩, fun _ h => (hw ..).trans h, fun h => (hr ..).trans h,
    fun {_ s} h => ((hd (dramPut _ (dramGet s _ 64) s) _).trans (hd s _)).trans h⟩, fun h => (hd ..).trans h⟩

end

/-! ### Registers that reports and reads do not write -/

/-- Register `q` holds `v`, and a write of another register cannot hide it: the registers are in canonical form, or `v` is not what an
unlisted register reads as. -/
structure Held (q v : Nat) (s : State) : Prop where
  seen : wf regDefault s.regs = true ∨ BitVec.ofNat 32 v ≠ regDefault q
  val : rd s q = v

section
variable {α : Type} [DecidableEq α] {d : Nat → α} {k k' : Nat} {v : α} {m : SMap α}

/-- A value that is no default stands whatever else is written. -/
theorem get_put_ne_of_listed (h : get d m k ≠ d k) (hne : k ≠ k') : get d (put d m k' v) k = get d m k := by
  induction m with
  | nil => exact absurd rfl h
  | cons p r ih =>
    obtain ⟨j, w⟩ := p
    simp only [put, get] at h ⊢
    grind [get]

/-- A value that is no default is read back. -/
theorem get_put_of_listed (h : v ≠ d k) : get d (put d m k v) k = v := by
  induction m with
  | nil => simp [put, h, get]
  | cons p r ih =>
    obtain ⟨j, w⟩ := p
    simp only [put]
    grind [get]

end

section
variable {q v : Nat} {s : State}

theorem held_of_canon (h : Canon s) (q : Nat) : Held q (rd s q) s := ⟨.inl h.regs, rfl⟩

theorem Held.wr (h : Held q v s) {k : Nat} (hk : k ≠ q) (x : Nat) : Held q v (wr k x s) := by
  obtain ⟨hs, hv⟩ := h
  rcases hs with hs | hs
  · exact ⟨.inl (wf_put hs), (rd_wr_ne hs x hk.symm).trans hv⟩
  · refine ⟨.inr hs, Eq.trans ?_ hv⟩
    have hl : get regDefault s.regs q ≠ regDefault q := by
      rw [← hv, rd, BitVec.ofNat_toNat, BitVec.setWidth_eq] at hs
      exact hs
    exact congrArg BitVec.toNat (get_put_ne_of_listed hl hk.symm)

theorem Held.congr {t : State} (h : Held q v s) (hr : t.regs = s.regs) : Held q v t := ⟨hr ▸ h.seen, (rd_congr hr q).trans h.val⟩

theorem held_wr {x : Nat} (hx : x < 2 ^ 32) (hs : wf regDefault s.regs = true ∨ BitVec.ofNat 32 x ≠ regDefault q) : Held q x (wr q x s) := by
  rcases hs with hs | hs
  · exact ⟨.inl (wf_put hs), (rd_wr hs q x).trans (Nat.mod_eq_of_lt hx)⟩
  · refine ⟨.inr hs, (congrArg BitVec.toNat (get_put_of_listed hs)).trans ?_⟩
    rw [BitVec.toNat_ofNat, Nat.mod_eq_of_lt hx]

/-- A bit that an event sets stands in a register that reads 0 at reset, whatever the form of the registers. -/
theorem held_sticky (h0 : regDefault q = 0) {bit : Nat} (hb : bit < 32) (s : State) : Held q (rd s q ||| 2 ^ bit) (sticky q bit s) := by
  have hlt : rd s q ||| 2 ^ bit < 2 ^ 32 := Nat.or_lt_two_pow (rd_lt s q) (Nat.pow_lt_pow_right (by decide) hb)
  have hne : BitVec.ofNat 32 (rd s q ||| 2 ^ bit) ≠ regDefault q := by
    intro e
    have hz : rd s q ||| 2 ^ bit = 0 := by
      have := congrArg BitVec.toNat e
      rwa [h0, BitVec.toNat_ofNat, Nat.mod_eq_of_lt hlt] at this
    have h1 := bits_or_self (rd s q) bit
    rw [hz] at h1
    simp [bits] at h1
  have hw : Held q (rd s q ||| 2 ^ bit) (Machine.wr q (rd s q ||| 2 ^ bit) s) := held_wr hlt (.inr hne)
  exact ⟨hw.seen, hw.val⟩

theorem Held.bit (h : Held q v s) {x b : Nat} (hv : v = x ||| 2 ^ b) : fld s q b b = 1 := by
  rw [fld_def, h.val, hv, bits_or_self]

theorem ne_of_key {p : Nat → Bool} {k q : Nat} (hk : p k = true) (hq : p q = false) : k ≠ q := fun e => by
  rw [e, hq] at hk
  cases hk

theorem keptByRecords_held (hq : recKey q = false) : KeptByRecords (Held q v) :=
  ⟨fun hk h => h.wr (ne_of_key hk hq) _, fun h => ⟨h.seen, h.val⟩⟩

theorem keptByTaints_held (hq : recKey q = false) (ht : taintKey q = false) : KeptByTaints (Held q v) :=
  ⟨keptByRecords_held hq, fun hk h => h.wr (ne_of_key hk ht) _, fun _ h => ⟨h.seen, h.val⟩⟩

theorem reportKey_of_recKey {k : Nat} (h : recKey k = true) : reportKey k = true := by
  simp only [recKey, List.contains_iff_mem, List.mem_cons, List.not_mem_nil, or_false] at h
  obtain rfl | rfl | rfl | rfl | rfl | rfl := h <;> decide

theorem reportKey_of_taintKey {k : Nat} (h : taintKey k = true) : reportKey k = true := by
  simp only [taintKey, List.contains_iff_mem, List.mem_cons, List.not_mem_nil, or_false] at h
  obtain rfl | rfl | rfl | rfl := h <;> decide

theorem keptByReports_held (hq : reportKey q = false) : KeptByReports (Held q v) :=
  ⟨keptByTaints_held (Bool.eq_false_iff.2 fun e => ne_of_key (reportKey_of_recKey e) hq rfl)
    (Bool.eq_false_iff.2 fun e => ne_of_key (reportKey_of_taintKey e) hq rfl), fun hk h => h.wr (ne_of_key hk hq) _, fun h => ⟨h.seen, h.val⟩⟩

theorem keptByWrites_held (hq : recKey q = false) (hr : readKey q = false) : KeptByWrites (Held q v) :=
  ⟨⟨keptByRecords_held hq, fun hk h => h.wr (ne_of_key hk hr) _, fun h => h.congr rfl, fun {a s} h => h.congr (scrubbed_regs a s)⟩,
    fun h => h.congr rfl⟩

end

/-! ### Bits that reports set, whatever the form of the registers -/

section
variable {s : State}

theorem held_viol {bit : Nat} (hb : bit < 32) (unit die wh : Nat) (s : State) :
    Held Reg.SCH_VIOL (rd s Reg.SCH_VIOL ||| 2 ^ bit) (viol bit unit die wh s) := by
  have h1 := held_sticky (q := Reg.SCH_VIOL) (by decide) hb s
  unfold viol
  refine (keptByRecords_held (by decide)).record _ _ _ ?_
  have hj : ∀ t, Held Reg.SCH_VIOL (rd s Reg.SCH_VIOL ||| 2 ^ bit) t → Held Reg.SCH_VIOL (rd s Reg.SCH_VIOL ||| 2 ^ bit) (jobFault t) := by
    intro t ht
    unfold jobFault
    split
    · exact ⟨ht.seen, ht.val⟩
    · exact ht
  refine hj _ ?_
  split
  · have h2 := (h1.wr (k := Reg.SCH_VIOL_FIRST) (by decide) (bit + 16 * unit + 256 * (if unit = 6 then 0 else die) + 1024 * wh)).wr
      (k := Reg.SCH_VIOL_TICK) (by decide) (now (sticky Reg.SCH_VIOL bit s))
    exact ⟨h2.seen, h2.val⟩
  · exact h1

/-- A violation sets its bit. -/
theorem fld_viol {bit : Nat} (hb : bit < 32) (unit die wh : Nat) (s : State) : fld (viol bit unit die wh s) Reg.SCH_VIOL bit bit = 1 :=
  (held_viol hb unit die wh s).bit rfl

/-- A line that is not delivered sets its bit. -/
theorem fld_failedRead_lost (a : Nat) (sched : Bool) (s : State) : fld (failedRead a 2 sched s) Reg.MEM_STICKY 1 1 = 1 := by
  unfold failedRead
  extract_lets st pc s1 s2 loc s3
  have h2 : Held Reg.MEM_STICKY _ s2 := held_sticky (by decide) (by decide) _
  have h3 : Held Reg.MEM_STICKY _ s3 := (keptByRecords_held (by decide)).record _ _ _ h2
  split
  · exact ((keptByReports_held (by decide)).taint _ _ _ _ _ _ h3).bit rfl
  · exact h3.bit rfl

/-- HLT_TAINT shows a taint. -/
structure TaintHeld (s : State) : Prop where
  wf : wf regDefault s.regs = true
  val : fld s Reg.HLT_TAINT 0 0 = 1

theorem keptByRecords_taintHeld : KeptByRecords TaintHeld :=
  ⟨fun hk h => ⟨wf_put h.wf, by
      rw [fld_def, rd_wr_ne h.wf _ (ne_of_key (p := recKey) hk (by decide)).symm]
      exact h.val⟩, fun h => ⟨h.wf, h.val⟩⟩

theorem taintHeld_taintMark (h : wf regDefault s.regs = true) (cause unit die wh sub : Nat) (loc : List (Nat × Nat)) :
    TaintHeld (taintMark cause unit die wh sub loc s) := by
  refine ⟨wf_put (wf_put (wf_put h)), ?_⟩
  have hv : rd (taintMark cause unit die wh sub loc s) Reg.HLT_TAINT = (1 + 2 * cause + 64 * unit + 1024 * die) % 2 ^ 32 :=
    rd_wr (wf_put (wf_put h)) _ _
  rw [fld_def, hv, bits, Nat.shiftRight_zero]
  omega

/-- A taint that counts shows in HLT_TAINT. -/
theorem taintHeld_counted (h : wf regDefault s.regs = true) (hin : (!s.run.on && schState s != 4) = false) (cause unit die wh sub : Nat)
    (loc : List (Nat × Nat)) : TaintHeld (taint cause unit die wh sub loc s) := by
  unfold taint
  extract_lets loc' first s1
  have h1 : TaintHeld s1 := by
    refine keptByRecords_taintHeld.riskInput _ _ ?_
    split
    next => exact taintHeld_taintMark h ..
    next hf =>
      have h0 : fld s Reg.HLT_TAINT 0 0 ≠ 0 := fun e => hf (by simp only [first, e]; rfl)
      have h2 : fld s Reg.HLT_TAINT 0 0 < 2 ^ 1 := bits_lt _ 0 0
      exact ⟨h, by omega⟩
  rw [if_neg (Bool.eq_false_iff.1 hin)]
  split
  · refine keptByRecords_taintHeld.recordFull _ _ _ _ _ _ ⟨wf_put h1.wf, ?_⟩
    rw [fld_def, bump, bumpFld, rd_setFld_ne h1.wf _ _ _ (by decide)]
    exact h1.val
  · exact keptByRecords_taintHeld.record _ _ _ ⟨h1.wf, h1.val⟩

/-- A taint of a step in progress shows in HLT_TAINT. -/
theorem taintHeld_taint (h : wf regDefault s.regs = true) (hon : s.run.on = true) (cause unit die wh sub : Nat) (loc : List (Nat × Nat)) :
    TaintHeld (taint cause unit die wh sub loc s) := taintHeld_counted h (by rw [hon]; rfl) ..

/-- A taint that shows still shows after another one. -/
theorem TaintHeld.taint (h : TaintHeld s) (cause unit die wh sub : Nat) (loc : List (Nat × Nat)) :
    TaintHeld (Machine.taint cause unit die wh sub loc s) := by
  cases hin : !s.run.on && schState s != 4 with
  | true =>
    unfold Machine.taint
    rw [if_pos hin]
    exact h
  | false => exact taintHeld_counted h.wf hin ..

end

end Sys2Proof.Machine
end

section
/-! PROOFS. The end of a step period, the step record, and the refill of a stream buffer (R44, R218, R238, R251; logs 87 and 105). -/
namespace Sys2Proof.Machine

/-! ### The end of a period (R238, R487) -/

section
variable {c : Nat} {s : State}

/-- What the end of a period is about: the outcome, the cells and what is in flight. -/
def periodView (s : State) : Option Nat × SMap Cell × List Flight := (s.run.outcome, s.cells, s.flights)

theorem keptByReports_periodView {v : Option Nat × SMap Cell × List Flight} : KeptByReports fun s => periodView s = v :=
  keptByReports_view (hm := fun s r hr => by
    have : r.unmarked.outcome = s.run.unmarked.outcome := by rw [hr]
    exact congrArg (fun o => (o, s.cells, s.flights)) this)

theorem periodView_wr (k v : Nat) (s : State) : periodView (wr k v s) = periodView s := rfl

theorem decideOutcome_periodView (c : Nat) (s : State) : periodView (decideOutcome c s) = (some c, s.cells, s.flights) := by
  unfold decideOutcome
  dsimp only
  split
  · exact keptByReports_periodView.event 3 c rfl
  · rfl

theorem writeLog_periodView (c : Nat) (s : State) : periodView (writeLog c s) = periodView s := by
  have hP : KeptByWrites fun t => periodView t = periodView s := keptByWrites_view
  unfold writeLog
  extract_lets n k base s1
  split
  · rfl
  · rw [periodView_wr]
    refine hP.asyncWrite _ _ ?_
    unfold s1
    split <;> rfl

/-- No step period runs any longer. -/
def periodOver (s : State) : State := { s with run := { s.run with on := false } }

/-- The outcome of a period that ends undecided: 7 after a halt, else 6 (R238, R487). -/
def missingCode (s : State) : Nat := if schState s = 5 then 7 else 6

theorem execStepPeriodEnd_decided (h : s.run.on = true) (ho : (runTo (s.run.start + stepPeriod s) s).run.outcome = some c) :
    execStepPeriodEnd s = periodOver (writeLog c (runTo (s.run.start + stepPeriod s) s)) := by
  simp only [execStepPeriodEnd, h, Bool.not_true, Bool.false_eq_true, if_false, ho]
  rfl

theorem execStepPeriodEnd_undecided (h : s.run.on = true) {z : State} (hz : runTo (s.run.start + stepPeriod s) s = z)
    (ho : z.run.outcome = none) : execStepPeriodEnd s = periodOver (writeLog (missingCode z) (decideOutcome (missingCode z)
      { z with run := { z.run with missing := schState z == 4 && !faultInForce z } })) := by
  subst hz
  simp only [execStepPeriodEnd, h, Bool.not_true, Bool.false_eq_true, if_false, ho]
  rfl

theorem stepPeriodEnd_values (h : s.run.on = true) {z : State} (hz : runTo (s.run.start + stepPeriod s) s = z) :
    (execStepPeriodEnd s).run.on = false ∧ periodView (execStepPeriodEnd s) =
      (match z.run.outcome with | some c => some c | none => some (missingCode z), z.cells, z.flights) := by
  cases ho : z.run.outcome with
  | some c =>
    rw [execStepPeriodEnd_decided h (hz ▸ ho), hz]
    exact ⟨rfl, (writeLog_periodView c z).trans (by rw [periodView, ho])⟩
  | none =>
    rw [execStepPeriodEnd_undecided h hz ho]
    exact ⟨rfl, (writeLog_periodView _ _).trans (decideOutcome_periodView ..)⟩

end

/-! ### The step record (R218) -/

theorem execStepRecordComplete_busy {x : Fin 2} {s : State} (h : s.run.recBusy.contains x.val = true) : execStepRecordComplete x s =
    setFld Reg.SCH_STAMP (4 + x.val) (4 + x.val) 1 { s with run := { s.run with recBusy := s.run.recBusy.filter (· != x.val) } } := if_pos h

/-! ### The refill of a stream (R44, R251) -/

section
variable {key limit k a m slot : Nat} {s : State}

/-- What a refill and the arrival of its words are about, apart from the registers and the step. -/
def refillView (s : State) : SMap Stream × SMap Nat × List Flight × SMap Cell × Dram :=
  (s.streams, s.mem.slots, s.flights, s.cells, s.dram)

theorem keptByReports_refillView {v : SMap Stream × SMap Nat × List Flight × SMap Cell × Dram} : KeptByReports fun s => refillView s = v :=
  keptByReports_view

/-- One line is asked for: its slot is claimed, and its words are in flight. -/
def lineAsked (key k a m slot : Nat) (s : State) : State :=
  launch (s.run.start + 4 * slot + 4) (.fetch key k a m s.run.start false)
    (claimLine a slot false (setStream key { streamOf s key with asked := k + m } s))

theorem claimLine_mem (a slot : Nat) (write : Bool) (s : State) : ∃ x, claimLine a slot write s = { s with mem := x } := by
  unfold claimLine joinNext setClaim
  dsimp only
  split <;> exact ⟨_, rfl⟩

/-- A claim goes by the claims that stand and the step period. -/
theorem claimLine_mem_congr {t : State} (hm : t.mem = s.mem) (hc : t.casting = s.casting) (a slot : Nat) (write : Bool) :
    (claimLine a slot write t).mem = (claimLine a slot write s).mem := by
  have hclaim : ∀ i j, claimOf t i j = claimOf s i j := fun i j => by rw [claimOf, claimOf, hm]
  have hjoin : ∀ i j x y, (joinNext i j x y t).mem = (joinNext i j x y s).mem := fun i j x y => by
    unfold joinNext
    dsimp only
    rw [hclaim, apply_ite State.mem, apply_ite State.mem, setClaim, setClaim, hm]
  have hcont : ∀ i j x y, continues t i j x y = continues s i j x y := fun i j x y => by
    unfold continues claimAgo
    rw [hclaim, hm, stepPeriod, stepPeriod, hc]
  simp only [claimLine, setClaim, hjoin, hcont]

theorem refillView_lineAsked (key k a m slot : Nat) (s : State) : refillView (lineAsked key k a m slot s) =
    (put (fun _ => Stream.init) s.streams key { streamOf s key with asked := k + m }, (claimLine a slot false s).mem.slots,
      s.flights ++ [⟨s.run.start + 4 * slot + 4, .fetch key k a m s.run.start false⟩], s.cells, s.dram) := by
  have hm : (claimLine a slot false (setStream key { streamOf s key with asked := k + m } s)).mem.slots = (claimLine a slot false s).mem.slots :=
    congrArg MemSys.slots
      (claimLine_mem_congr (s := s) (t := setStream key { streamOf s key with asked := k + m } s) rfl rfl a slot false)
  obtain ⟨x, hx⟩ := claimLine_mem a slot false (setStream key { streamOf s key with asked := k + m } s)
  rw [← hm]
  simp only [lineAsked, hx]
  rfl

theorem regs_lineAsked (key k a m slot : Nat) (s : State) :
    (lineAsked key k a m slot s).regs = s.regs ∧ (lineAsked key k a m slot s).run = s.run := by
  obtain ⟨x, hx⟩ := claimLine_mem a slot false (setStream key { streamOf s key with asked := k + m } s)
  simp only [lineAsked, hx]
  exact ⟨rfl, rfl⟩

theorem fetchLine_some (hn : nextFetch s key limit = some (k, a, m)) (hs : streamSlot s (pcOf a) = some slot) : fetchLine key limit s =
    if lineClash s (pcOf a) slot (bankOf a) (rowOf a) false then viol 7 0 (stackOf a / 2) (pcOf a) (lineAsked key k a m slot s)
    else lineAsked key k a m slot s := by
  simp only [fetchLine, hn, hs]
  rfl

theorem fetchLine_none (hn : nextFetch s key limit = none) : fetchLine key limit s = s := by
  simp only [fetchLine, hn]

/-- What is asked for next begins after what has been asked for, below the limit. -/
theorem nextFetch_some (h : nextFetch s key limit = some (k, a, m)) : k = (streamOf s key).asked ∧ k < limit := by
  unfold nextFetch at h
  dsimp only at h
  split at h
  · split at h
    · obtain ⟨rfl, -⟩ := Prod.mk.inj (Option.some.inj h)
      exact ⟨rfl, ‹_›⟩
    · cases h
  · cases h

/-- Nothing is asked for beyond the limit. -/
theorem nextFetch_none (h : limit ≤ (streamOf s key).asked) : nextFetch s key limit = none := by
  unfold nextFetch
  dsimp only
  split
  · exact if_neg (Nat.not_lt.2 h)
  · rfl

theorem each_fixed {α : Type} {l : List α} {f : α → State → State} (h : ∀ x, f x s = s) : each l f s = s :=
  each_inv (· = s) (fun x _ _ ht => by rw [ht]; exact h x) rfl

theorem execStreamFetch_on {p : Place} (n : Fin 4097) (hon : s.run.on = true) (hst : schState s = 4) : execStreamFetch p n s =
    each (List.range n.val) (fun _ => fetchLine (placeKey p) (min ((streamOf s (placeKey p)).asked + n.val) (fetchRoom s (placeKey p)))) s := by
  simp only [execStreamFetch, hon, hst, Bool.not_true, Bool.false_or, bne_self_eq_false, Bool.false_eq_true, if_false]

/-- A line that reaches the limit is the only one asked for. -/
theorem each_fetchLine (n : Nat) (hn : nextFetch s key limit = some (k, a, m)) (hs : streamSlot s (pcOf a) = some slot) (hm : limit ≤ k + m)
    (hlim : limit ≤ (streamOf s key).asked + n) : each (List.range n) (fun _ => fetchLine key limit) s = fetchLine key limit s := by
  obtain ⟨hk, hlt⟩ := nextFetch_some hn
  obtain ⟨n, rfl⟩ : ∃ i, n = i + 1 := ⟨n - 1, by omega⟩
  rw [List.range_succ_eq_map, each_cons]
  refine each_fixed fun x => fetchLine_none (nextFetch_none ?_)
  have hv : refillView (fetchLine key limit s) = refillView (lineAsked key k a m slot s) := by
    rw [fetchLine_some hn hs]
    split
    · exact keptByReports_refillView.viol _ _ _ _ rfl
    · rfl
  have hstr : (fetchLine key limit s).streams = put (fun _ => Stream.init) s.streams key { streamOf s key with asked := k + m } :=
    congrArg Prod.fst (hv.trans (refillView_lineAsked ..))
  have hne : ({ streamOf s key with asked := k + m } : Stream) ≠ Stream.init := fun e => by
    have : k + m = 0 := congrArg Stream.asked e
    omega
  rw [streamOf, hstr, get_put_of_listed hne]
  exact hm

/-- The one line that is asked for: where it clashes its violation is raised, and else nothing else is reported. -/
theorem fetchLine_values (hn : nextFetch s key limit = some (k, a, m)) (hs : streamSlot s (pcOf a) = some slot) :
    refillView (fetchLine key limit s) = refillView (lineAsked key k a m slot s) ∧
    (if lineClash s (pcOf a) slot (bankOf a) (rowOf a) false then fld (fetchLine key limit s) Reg.SCH_VIOL 7 7 = 1
      else (fetchLine key limit s).regs = s.regs ∧ (fetchLine key limit s).run = s.run) := by
  rw [fetchLine_some hn hs]
  split
  · exact ⟨keptByReports_refillView.viol _ _ _ _ rfl, fld_viol (by decide) _ _ _ _⟩
  · exact ⟨rfl, regs_lineAsked ..⟩

end

/-! ### The words of a line arrive (R44, R254; log 87) -/

section
variable {key k a m : Nat} {s : State}

/-- The words of one line join the buffer of their stream. -/
def wordsJoined (key k a m : Nat) (s : State) : State :=
  setStream key { streamOf s key with words := (streamOf s key).words ++
    ((List.range m).map fun i => (k + i, BitVec.ofNat 128 (dramNat s (a + 16 * i) 16))).filter fun x => decide ((streamOf s key).issued ≤ x.1) } s

theorem refillView_failedRead (a m : Nat) (sched : Bool) (s : State) : refillView (failedRead a m sched s) = refillView s := by
  have hP : KeptByReports fun t => refillView t = refillView s := keptByReports_refillView
  unfold failedRead
  extract_lets st pc s1 s2 loc s3
  have h1 : refillView s1 = refillView s := by
    unfold s1
    split <;> rfl
  have h2 : refillView s2 = refillView s := by
    show refillView (if m = 4 then s1 else bumpFld (Reg.MEM_ERR + 4 * st) 23 16 1 s1) = _
    split <;> exact h1
  have h3 : refillView s3 = refillView s := hP.record _ _ _ h2
  split
  · exact hP.taint _ _ _ _ _ _ h3
  · exact h3

/-- A line without a mark is read clean, and one that a refresh has displaced is not delivered. -/
theorem fetchLands_unmarked (ue : Bool) (hon : s.run.on = true) (hm : markOf s (lineOf (a / 64 * 64)) = 0) :
    fetchLands key k a m s.run.start ue s =
      if ue then failedRead (a / 64 * 64) 2 true (wordsJoined key k a m s) else wordsJoined key k a m s := by
  have hm' : markOf (wordsJoined key k a m s) (lineOf (a / 64 * 64)) = 0 := hm
  have hr : recordRead (a / 64 * 64) 2 true (wordsJoined key k a m s) = failedRead (a / 64 * 64) 2 true (wordsJoined key k a m s) := by
    unfold recordRead
    rw [hm']
    rfl
  have hd : dramRead (a / 64 * 64) true (wordsJoined key k a m s) = wordsJoined key k a m s := if_pos hm'
  unfold fetchLands
  rw [hon, beq_self_eq_true, Bool.and_self, if_pos rfl]
  show (if ue = true then recordRead (a / 64 * 64) 2 true (wordsJoined key k a m s)
    else dramRead (a / 64 * 64) true (wordsJoined key k a m s)) = _
  rw [hr, hd]

theorem fetchLands_values (ue : Bool) (hon : s.run.on = true) (hm : markOf s (lineOf (a / 64 * 64)) = 0) :
    refillView (fetchLands key k a m s.run.start ue s) = refillView (wordsJoined key k a m s) ∧
    (if ue then fld (fetchLands key k a m s.run.start ue s) Reg.MEM_STICKY 1 1 = 1
      else (fetchLands key k a m s.run.start ue s).regs = s.regs) := by
  rw [fetchLands_unmarked ue hon hm]
  split
  · exact ⟨refillView_failedRead .., fld_failedRead_lost ..⟩
  · exact ⟨rfl, rfl⟩

end

/-- Settles O19: each service by what it does to the view that it is about, reports leaving that view alone. -/
theorem periodServices : Obligations.PeriodServices := by
  unfold Obligations.PeriodServices
  refine ⟨?ends, ?record, ?fetch, ?lands⟩
  case ends =>
    intro s hs hon s'
    obtain ⟨hoff, hv⟩ := stepPeriodEnd_values hon (z := s') rfl
    simp only [periodView, Prod.mk.injEq] at hv
    exact ⟨_, rfl, hoff, hv⟩
  case record =>
    intro x s hs hb
    have hc : Canon { s with run := { s.run with recBusy := s.run.recBusy.filter (· != x.val) } } := canon_mk (canon_iff.1 hs)
    have hx := x.isLt
    refine ⟨_, rfl, ?_⟩
    rw [execStepRecordComplete_busy hb]
    exact ⟨fld_setBit hc.regs _ _ (by omega), rfl, fun k hk => rd_setFld_ne hc.regs _ _ _ hk, rfl, rfl⟩
  case fetch =>
    intro p n s k a m slot hon hst key limit
    refine ⟨?some, ?none⟩
    case some =>
      intro hn hsl hm
      refine ⟨_, rfl, ?_⟩
      rw [execStreamFetch_on n hon hst, each_fetchLine n.val hn hsl hm (Nat.min_le_left ..)]
      obtain ⟨hv, hr⟩ := fetchLine_values hn hsl
      rw [refillView_lineAsked] at hv
      simp only [refillView, Prod.mk.injEq] at hv
      obtain ⟨hstr, hslots, hfl, hcells, hdram⟩ := hv
      exact ⟨hstr, hslots, hfl, hr, hcells, hdram⟩
    case none =>
      intro hn
      refine served_unchanged ?_
      rw [execStreamFetch_on n hon hst]
      exact each_fixed fun _ => fetchLine_none hn
  case lands =>
    intro key k a m ue s hon hm st t
    obtain ⟨hv, hr⟩ := fetchLands_values (key := key) (k := k) (m := m) ue hon hm
    have hv' := hv
    simp only [refillView, Prod.mk.injEq] at hv'
    obtain ⟨hstr, -, hfl, hcells, hdram⟩ := hv'
    exact ⟨hstr, hr, hcells, hdram, hfl⟩

end Sys2Proof.Machine
end

section
/-! PROOFS. The arithmetic of hallmarks (R332, R333): the residue modulo 7 of a dyadic number is additive and multiplicative, so what the
terms of an operation predict is the residue of its exact result; and one flipped bit changes a residue. -/
namespace Sys2Proof.Machine

/-! ### Residues modulo 7 -/

/-- The unit 2 of the integers modulo 7, whose order is 3. -/
def two7 : (ZMod 7)ˣ := ⟨2, 4, by decide, by decide⟩

/-- The power 2^n modulo 7, for every integer n. -/
def pow7 (n : Int) : ZMod 7 := ↑(two7 ^ n)

theorem pow7_add (a b : Int) : pow7 (a + b) = pow7 a * pow7 b := by
  rw [pow7, zpow_add, Units.val_mul, pow7, pow7]

theorem pow7_zero : pow7 0 = 1 := rfl

theorem pow7_natCast (n : Nat) : pow7 n = 2 ^ n := by
  rw [pow7, zpow_natCast, Units.val_pow_eq_pow_val]
  rfl

theorem pow7_toNat {n : Int} (h : 0 ≤ n) : (2 : ZMod 7) ^ n.toNat = pow7 n := by
  rw [← pow7_natCast, Int.toNat_of_nonneg h]

/-- Exponents count modulo 3 (R332). -/
theorem pow7_emod (n : Int) : (2 : ZMod 7) ^ (n % 3).toNat = pow7 n := by
  have h3 : two7 ^ (3 : Int) = 1 := rfl
  rw [pow7_toNat (Int.emod_nonneg n (by decide))]
  conv_rhs => rw [← Int.mul_ediv_add_emod n 3, pow7_add, pow7, zpow_mul, h3, one_zpow, Units.val_one, one_mul]

theorem pow7_unit (n : Int) : IsUnit (pow7 n) := Units.isUnit _

/-- The residue of a dyadic number. -/
def residue (x : Dy) (eref : Int) : ZMod 7 := x.m * pow7 (x.e - eref)

/-- Naturals below 7 are told apart by their residues. -/
theorem eq_of_cast7 {a b : Nat} (ha : a < 7) (hb : b < 7) (h : (a : ZMod 7) = b) : a = b := by
  rwa [ZMod.natCast_eq_natCast_iff, Nat.ModEq, Nat.mod_eq_of_lt ha, Nat.mod_eq_of_lt hb] at h

theorem cast_mod7 (a : Nat) : ((a % 7 : Nat) : ZMod 7) = a := ZMod.natCast_mod a 7

theorem hres_lt (neg : Bool) (m : Nat) (e eref : Int) : hres neg m e eref < 7 := by
  unfold hres
  dsimp only
  split <;> exact Nat.mod_lt _ (by decide)

theorem hres_cast (neg : Bool) (m : Nat) (e eref : Int) : (hres neg m e eref : ZMod 7) = residue (FV.dy (.fin neg m e)) eref := by
  have hr : ((m * 2 ^ ((e - eref) % 3).toNat % 7 : Nat) : ZMod 7) = m * pow7 (e - eref) := by
    rw [cast_mod7, Nat.cast_mul, Nat.cast_pow, Nat.cast_ofNat, pow7_emod]
  unfold hres
  cases neg with
  | false => simpa [residue, FV.dy] using hr
  | true =>
    have hle : m * 2 ^ ((e - eref) % 3).toNat % 7 ≤ 7 := (Nat.mod_lt _ (by decide)).le
    have h7 : ((7 : Nat) : ZMod 7) = 0 := rfl
    dsimp only
    rw [if_pos rfl, cast_mod7, Nat.cast_sub hle, hr, h7, zero_sub, residue, FV.dy]
    simp

theorem hresDy_lt (x : Dy) (eref : Int) : hresDy x eref < 7 := hres_lt ..

theorem dy_signed (x : Dy) : FV.dy (.fin (decide (x.m < 0)) x.m.natAbs x.e) = x := by
  obtain ⟨m, e⟩ := x
  simp only [FV.dy, decide_eq_true_eq, Dy.mk.injEq, and_true]
  split <;> omega

theorem hresDy_cast (x : Dy) (eref : Int) : (hresDy x eref : ZMod 7) = residue x eref := by
  rw [hresDy, hres_cast, dy_signed]

/-! ### Sums (R333) -/

theorem residue_add (a b : Dy) (r : Int) : residue (a.add b) r = residue a r + residue b r := by
  have hs : ∀ x : Dy, min a.e b.e ≤ x.e → (2 : ZMod 7) ^ (x.e - min a.e b.e).toNat * pow7 (min a.e b.e - r) = pow7 (x.e - r) := by
    intro x hx
    rw [pow7_toNat (by omega), ← pow7_add, sub_add_sub_cancel]
  simp only [residue, Dy.add, Int.cast_add, Int.cast_mul, Int.cast_pow, Int.cast_ofNat, add_mul, mul_assoc]
  rw [hs a (min_le_left ..), hs b (min_le_right ..)]

theorem residue_neg (a : Dy) (r : Int) : residue a.neg r = -residue a r := by
  simp [residue, Dy.neg]

theorem residue_foldl_add (l : List Dy) (a : Dy) (r : Int) : residue (l.foldl Dy.add a) r = residue a r + (l.map (residue · r)).sum := by
  induction l generalizing a with
  | nil => simp
  | cons x l ih => rw [List.foldl_cons, ih, residue_add, List.map_cons, List.sum_cons, add_assoc]

theorem residue_sum (l : List Dy) (r : Int) : residue (Dy.sum l) r = (l.map (residue · r)).sum := by
  rw [Dy.sum, residue_foldl_add]
  simp [residue]

/-- A product has the significand and the exponent of its factors together. -/
theorem foldl_mul (l : List Dy) (a : Dy) : l.foldl Dy.mul a = ⟨a.m * (l.map (·.m)).prod, a.e + (l.map (·.e)).sum⟩ := by
  induction l generalizing a with
  | nil => simp
  | cons x l ih => simp [ih, Dy.mul, mul_assoc, add_assoc]

/-- The product of the residues of the factors is the residue of their significands' product. -/
theorem foldl_hresDy_cast (l : List Dy) (n : Nat) :
    ((l.foldl (fun n x => n * hresDy x x.e) n : Nat) : ZMod 7) = n * ((l.map (·.m)).prod : Int) := by
  induction l generalizing n with
  | nil => simp
  | cons x l ih =>
    rw [List.foldl_cons, ih, Nat.cast_mul, hresDy_cast, residue, sub_self, pow7_zero]
    simp [mul_assoc]

theorem hresMul_lt (l : List Dy) (eref : Int) : hresMul l eref < 7 := Nat.mod_lt _ (by decide)

theorem hresMul_cast (l : List Dy) (eref : Int) : (hresMul l eref : ZMod 7) = residue (termValue l) eref := by
  rw [hresMul, cast_mod7, Nat.cast_mul, foldl_hresDy_cast, Nat.cast_pow, Nat.cast_two, pow7_emod, termValue, foldl_mul]
  simp [residue]

/-- What the factors predict is the residue of their product. -/
theorem hresMul_eq (l : List Dy) (eref : Int) : hresMul l eref = hresDy (termValue l) eref :=
  eq_of_cast7 (hresMul_lt ..) (hresDy_lt ..) ((hresMul_cast ..).trans (hresDy_cast ..).symm)

theorem foldl_hresMul_cast (l : List (List Dy)) (n : Nat) (eref : Int) :
    ((l.foldl (fun n x => n + hresMul x eref) n : Nat) : ZMod 7) = n + ((l.map termValue).map (residue · eref)).sum := by
  induction l generalizing n with
  | nil => simp
  | cons x l ih => rw [List.foldl_cons, ih, Nat.cast_add, hresMul_cast, List.map_cons, List.map_cons, List.sum_cons, add_assoc]

theorem hresSum_lt (l : List (List Dy)) (eref : Int) : hresSum l eref < 7 := Nat.mod_lt _ (by decide)

theorem hresSum_cast (l : List (List Dy)) (eref : Int) : (hresSum l eref : ZMod 7) = residue (Dy.sum (l.map termValue)) eref := by
  rw [hresSum, cast_mod7, foldl_hresMul_cast, residue_sum, Nat.cast_zero, zero_add]

/-- What the terms predict is the residue of their sum. -/
theorem hresSum_eq (l : List (List Dy)) (eref : Int) : hresSum l eref = hresDy (Dy.sum (l.map termValue)) eref :=
  eq_of_cast7 (hresSum_lt ..) (hresDy_lt ..) ((hresSum_cast ..).trans (hresDy_cast ..).symm)

/-- The terms and the increment of the rounding predict the residue of the value (R333). -/
theorem predicted_eq (terms : List (List Dy)) (v : Dy) (eref : Int) :
    (hresSum terms eref + hresDy (increment terms v) eref) % 7 = hresDy v eref := by
  refine eq_of_cast7 (Nat.mod_lt _ (by decide)) (hresDy_lt ..) ?_
  rw [cast_mod7, Nat.cast_add, hresSum_cast, hresDy_cast, hresDy_cast, increment, residue_add, residue_neg]
  ring

theorem hresDy_fin (neg : Bool) (m : Nat) (e eref : Int) : hresDy (FV.dy (.fin neg m e)) eref = hres neg m e eref :=
  eq_of_cast7 (hresDy_lt ..) (hres_lt ..) ((hresDy_cast ..).trans (hres_cast ..).symm)

/-! ### One flipped bit (R333) -/

/-- A flipped bit adds or takes away its weight. -/
theorem xor_two_pow (n k : Nat) : n ^^^ 2 ^ k = n + 2 ^ k ∨ n = (n ^^^ 2 ^ k) + 2 ^ k := by
  induction k generalizing n with
  | zero =>
    rcases Nat.even_or_odd n with h | h
    · exact .inl (Nat.xor_one_of_even h)
    · have hp := h.pos
      exact .inr (by rw [pow_zero, Nat.xor_one_of_odd h]; omega)
  | succ k ih =>
    have hd : (n ^^^ 2 ^ (k + 1)) / 2 = n / 2 ^^^ 2 ^ k := by
      rw [Nat.xor_div_two, Nat.pow_succ, Nat.mul_div_cancel _ (by decide)]
    have hm : (n ^^^ 2 ^ (k + 1)) % 2 = n % 2 := by
      rw [Nat.xor_mod_two_eq, Nat.pow_succ, Nat.add_mul_mod_self_right]
    have h2 : 2 ^ (k + 1) = 2 ^ k * 2 := Nat.pow_succ ..
    rcases ih (n / 2) with e | e
    · exact .inl (by omega)
    · exact .inr (by omega)

theorem two_pow_ne_zero7 (k : Nat) : ((2 ^ k : Nat) : ZMod 7) ≠ 0 := by
  rw [Nat.cast_pow, Nat.cast_ofNat, ← pow7_natCast]
  intro h
  exact absurd ((pow7_unit k).mul_right_eq_zero.1 (show pow7 k * 1 = 0 by rw [mul_one, h])) (by decide)

/-- A flipped bit changes the residue. -/
theorem cast_xor_two_pow_ne (n k : Nat) : ((n ^^^ 2 ^ k : Nat) : ZMod 7) ≠ n := by
  have h2 := two_pow_ne_zero7 k
  intro h
  rcases xor_two_pow n k with e | e
  · rw [e, Nat.cast_add] at h
    exact h2 (by simpa using h)
  · have e' := congrArg (Nat.cast (R := ZMod 7)) e
    rw [Nat.cast_add, h] at e'
    exact h2 (by simpa using e'.symm)

end Sys2Proof.Machine
end

section
/-! PROOFS. What the checks of a value find (R332 to R334). -/
namespace Sys2Proof.Machine

/-- A value that nothing has changed never mismatches. -/
theorem mismatch_unchanged (x : CheckVal) : x.mismatch 0 = false := by
  unfold CheckVal.mismatch
  rw [Nat.zero_mod, Nat.xor_zero]
  cases x.by_ with
  | twice => exact bne_self_eq_false _
  | index => exact bne_self_eq_false _
  | residue =>
    dsimp only
    generalize scaled x.fmt x.b x.code = v
    cases v with
    | nan => exact bne_self_eq_false _
    | inf _ => exact bne_self_eq_false _
    | fin neg m e =>
      dsimp only
      rw [predicted_eq, hresDy_fin]
      exact bne_self_eq_false _

theorem width_le (f : Fmt) : f.width ≤ 16 := by cases f <;> decide

/-- The bit `k` of a value is among the bits that its width keeps. -/
theorem two_pow_mod_width {k : Nat} {f : Fmt} (h : k < f.width) : 2 ^ k % 2 ^ f.width = 2 ^ k :=
  Nat.mod_eq_of_lt (Nat.pow_lt_pow_right (by decide) h)

theorem xor_ne_self {a b : Nat} (h : b ≠ 0) : a ^^^ b ≠ a := fun e => by
  have : a ^^^ (a ^^^ b) = 0 := by rw [e, Nat.xor_self]
  rw [← Nat.xor_assoc, Nat.xor_self, Nat.zero_xor] at this
  exact h this

theorem mismatch_twice {x : CheckVal} {u : Nat} (hb : x.by_ = .twice) (hu : u % 2 ^ x.fmt.width ≠ 0) : x.mismatch u = true := by
  unfold CheckVal.mismatch
  rw [hb]
  exact bne_iff_ne.2 (xor_ne_self hu)

theorem mismatch_index {x : CheckVal} {k : Nat} (hb : x.by_ = .index) (hk : k < x.fmt.width) : x.mismatch (2 ^ k) = true := by
  unfold CheckVal.mismatch
  rw [hb, two_pow_mod_width hk]
  refine bne_iff_ne.2 fun h => cast_xor_two_pow_ne x.code k ?_
  rwa [ZMod.natCast_eq_natCast_iff, Nat.ModEq]

/-- A flipped bit of a field flips that bit of what the field reads. -/
theorem bits_xor (a b hi lo : Nat) : bits (a ^^^ b) hi lo = bits a hi lo ^^^ bits b hi lo := by
  rw [bits, Nat.shiftRight_xor_distrib, Nat.xor_mod_two_pow, bits, bits]

/-- A value whose fraction alone changes keeps its sign and its exponent. -/
theorem ofF16_flip {v : F16} {k : Nat} (hv : nonFinite v = false) (hk : k < 7) : ∃ neg m m' e, ofF16 v = .fin neg m e ∧
    ofF16 (BitVec.ofNat 16 (v.toNat ^^^ 2 ^ k)) = .fin neg m' e ∧ (m' : ZMod 7) ≠ m := by
  have hk2 : 2 ^ k < 2 ^ 7 := Nat.pow_lt_pow_right (by decide) hk
  have hlt : v.toNat ^^^ 2 ^ k < 2 ^ 16 := Nat.xor_lt_two_pow v.isLt (hk2.trans (by decide))
  have hn : (BitVec.ofNat 16 (v.toNat ^^^ 2 ^ k)).toNat = v.toNat ^^^ 2 ^ k := by rw [BitVec.toNat_ofNat, Nat.mod_eq_of_lt hlt]
  have hneg : (v.toNat ^^^ 2 ^ k) / 32768 = v.toNat / 32768 := by
    have h := Nat.xor_div_two_pow (a := v.toNat) (b := 2 ^ k) (n := 15)
    rwa [Nat.div_eq_of_lt (show 2 ^ k < 2 ^ 15 from hk2.trans (by decide)), Nat.xor_zero] at h
  have he : bits (v.toNat ^^^ 2 ^ k) 14 7 = bits v.toNat 14 7 := by
    rw [bits_xor, show bits (2 ^ k) 14 7 = 0 by rw [bits, Nat.shiftRight_eq_div_pow, Nat.div_eq_of_lt hk2, Nat.zero_mod], Nat.xor_zero]
  have hf : bits (v.toNat ^^^ 2 ^ k) 6 0 = bits v.toNat 6 0 ^^^ 2 ^ k := by
    rw [bits_xor, show bits (2 ^ k) 6 0 = 2 ^ k by rw [bits, Nat.shiftRight_zero, Nat.mod_eq_of_lt hk2]]
  have hne := cast_xor_two_pow_ne (bits v.toNat 6 0) k
  have h255 : bits v.toNat 14 7 ≠ 255 := by simpa [nonFinite] using hv
  by_cases h0 : bits v.toNat 14 7 = 0
  · refine ⟨decide (v.toNat / 32768 = 1), bits v.toNat 6 0, bits v.toNat 6 0 ^^^ 2 ^ k, -133, ?_, ?_, hne⟩
    · simp only [ofF16, h0]
      rfl
    · simp only [ofF16, hn, hneg, he, hf, h0]
      rfl
  · refine ⟨decide (v.toNat / 32768 = 1), 128 + bits v.toNat 6 0, 128 + (bits v.toNat 6 0 ^^^ 2 ^ k), (bits v.toNat 14 7 : Int) - 134, ?_, ?_, ?_⟩
    · simp only [ofF16, if_neg h255, if_neg h0]
    · simp only [ofF16, hn, hneg, he, hf, if_neg h255, if_neg h0]
    · rw [Nat.cast_add, Nat.cast_add]
      exact fun h => hne (add_left_cancel h)

theorem scaled_f16 (b c : Nat) {neg : Bool} {m : Nat} {e : Int} (h : ofF16 (BitVec.ofNat 16 c) = .fin neg m e) :
    scaled .f16 b c = .fin neg m (e + (b : Int) - 127) := by
  simp only [scaled, ofCode, h]

/-- Two significands of one sign and exponent have the same hallmark only where they agree modulo 7. -/
theorem hres_inj {neg : Bool} {m m' : Nat} {e eref : Int} (h : hres neg m e eref = hres neg m' e eref) : (m : ZMod 7) = m' := by
  have hc := congrArg (Nat.cast (R := ZMod 7)) h
  rw [hres_cast, hres_cast, residue, residue] at hc
  have := (pow7_unit (e - eref)).mul_left_inj.1 hc
  cases neg <;> simpa [FV.dy] using this

theorem mismatch_fraction {x : CheckVal} {v : F16} {k : Nat} (hb : x.by_ = .residue) (hf : x.fmt = .f16) (hc : x.code = v.toNat)
    (hv : nonFinite v = false) (hk : k < 7) : x.mismatch (2 ^ k) = true := by
  obtain ⟨neg, m, m', e, h1, h2, hne⟩ := ofF16_flip hv hk
  have hv' : BitVec.ofNat 16 v.toNat = v := BitVec.ofNat_toNat ..
  unfold CheckVal.mismatch
  rw [two_pow_mod_width (by rw [hf]; exact hk.trans (by decide)), hb, hf, hc]
  dsimp only
  rw [scaled_f16 x.b v.toNat (by rw [hv', h1]), scaled_f16 x.b _ h2]
  dsimp only
  rw [predicted_eq, hresDy_fin]
  exact bne_iff_ne.2 fun h => hne (hres_inj h).symm

end Sys2Proof.Machine
end

section
/-! PROOFS. HALLMARK_VERDICT (R335, R336, R343, R344; log 99): the value as computed stands in its place, and what a mismatch reports. -/
namespace Sys2Proof.Machine

/-! ### Bytes of a scratchpad -/

theorem leNat_natLE (n x : Nat) : leNat (natLE n x) = x % 256 ^ n := by
  induction n generalizing x with
  | zero => rw [natLE, leNat, pow_zero, Nat.mod_one]
  | succ n ih =>
    rw [natLE, leNat, ih, BitVec.toNat_ofNat, Nat.pow_succ' (m := 256)]
    exact (Nat.mod_mul ..).symm

theorem natLE_length (n x : Nat) : (natLE n x).length = n := by
  induction n generalizing x with
  | zero => rfl
  | succ n ih => rw [natLE, List.length_cons, ih]

theorem getBytes_length (d : Nat → Byte) (m : SMap Byte) (a n : Nat) : (getBytes d m a n).length = n := by simp [getBytes]

/-- What has been written is read back. -/
theorem getBytes_putBytes {d : Nat → Byte} {m : SMap Byte} (h : wf d m = true) (a : Nat) (l : List Byte) :
    getBytes d (putBytes d m a l) a l.length = l :=
  List.ext_getElem (getBytes_length ..) fun i _ hi => by
    simp only [getBytes, List.getElem_map, List.getElem_range]
    exact get_putBytes_in h i hi

/-! ### The value as computed (R335; log 99) -/

section
variable {x : CheckVal} {s : State} {u c i a : Nat}

/-- The bits that an upset flips in a value. -/
def upsetBits (x : CheckVal) (u : Nat) : Nat := u % 2 ^ x.fmt.width

theorem upsetBits_lt (x : CheckVal) (u : Nat) : upsetBits x u < 2 ^ 16 :=
  (Nat.mod_lt _ (Nat.two_pow_pos _)).trans_le (Nat.pow_le_pow_right (by decide) (width_le _))

theorem spoil_unheld (h : x.held s ≠ some x.code) : x.spoil u s = s := if_neg fun e => h e.2

theorem spoil_none (h : upsetBits x u = 0) : x.spoil u s = s := if_neg fun e => e.1 h

theorem spoil_flips (h : upsetBits x u ≠ 0) (hh : x.held s = some x.code) : x.spoil u s = x.flip (upsetBits x u) s := if_pos ⟨h, hh⟩

/-- A spoiled value changes cells alone. -/
theorem flip_cells (x : CheckVal) (m : Nat) (s : State) : ∃ y, x.flip m s = { s with cells := y } := by
  unfold CheckVal.flip
  split <;> exact ⟨_, rfl⟩

theorem spoil_cells (x : CheckVal) (u : Nat) (s : State) : ∃ y, x.spoil u s = { s with cells := y } := by
  unfold CheckVal.spoil
  dsimp only
  split
  · exact flip_cells ..
  · exact ⟨s.cells, rfl⟩

/-- A property of what a spoiled value holds: it stands as it was where no bit is flipped. -/
theorem held_spoil (hh : x.held s = some x.code) (hf : x.held (x.flip (upsetBits x u) s) = some (x.code ^^^ upsetBits x u)) :
    x.held (x.spoil u s) = some (x.code ^^^ upsetBits x u) := by
  by_cases hu : upsetBits x u = 0
  · rw [spoil_none hu, hh, hu, Nat.xor_zero]
  · rw [spoil_flips hu hh, hf]

theorem spoil_or (hh : x.held s = some x.code) : x.spoil u s = s ∨ x.spoil u s = x.flip (upsetBits x u) s := by
  by_cases hu : upsetBits x u = 0
  · exact .inl (spoil_none hu)
  · exact .inr (spoil_flips hu hh)

theorem toNat_xor_ofNat (b : BitVec 16) {m : Nat} (hm : m < 2 ^ 16) : (b ^^^ BitVec.ofNat 16 m).toNat = b.toNat ^^^ m := by
  rw [BitVec.toNat_xor, BitVec.toNat_ofNat, Nat.mod_eq_of_lt hm]

theorem held_flip_acc (h : Canon s) (hs : x.spot = .acc c i) {m : Nat} (hm : m < 2 ^ 16) (hh : x.held s = some x.code) :
    x.held (x.flip m s) = some (x.code ^^^ m) := by
  simp only [CheckVal.held, CheckVal.flip, hs, Option.some.injEq] at hh ⊢
  rw [cellAt_onCell h.cells, get_put (cellCanon_at h c).acc, toNat_xor_ofNat _ hm, hh]

theorem held_flip_table (h : Canon s) (hs : x.spot = .table c i) {m : Nat} (hm : m < 2 ^ 16) (hh : x.held s = some x.code) :
    x.held (x.flip m s) = some (x.code ^^^ m) := by
  simp only [CheckVal.held, CheckVal.flip, hs, Option.some.injEq] at hh ⊢
  have ht : wf (fun _ => 0x7FC0) (cellAt s c).tables = true := (cellCanon_at h c).tables
  rw [cellAt_onCell h.cells, get_put ht, toNat_xor_ofNat _ hm, hh]

/-- The cell that a place in memory lies in. -/
def spotCell (p : Spot) : Option Nat :=
  match p with
  | .inside => none
  | .sp c _ | .acc c _ | .table c _ | .buf c _ _ | .chain c _ _ => some c

theorem cellAt_flip_ne (h : Canon s) (hs : spotCell x.spot = some c) (m : Nat) {b : Nat} (hb : b ≠ c) :
    cellAt (x.flip m s) b = cellAt s b := by
  cases hx : x.spot <;> rw [hx, spotCell] at hs <;> cases hs <;> simp only [CheckVal.flip, hx] <;> exact cellAt_onCell_ne h.cells _ hb

/-- A spoiled value changes its own cell alone. -/
theorem spoil_frame (h : Canon s) (hs : spotCell x.spot = some c) (hh : x.held s = some x.code) :
    (∀ b, b ≠ c → cellAt (x.spoil u s) b = cellAt s b) ∧ (x.spoil u s).regs = s.regs ∧ (x.spoil u s).dram = s.dram := by
  refine ⟨fun b hb => ?_, ?_, ?_⟩
  · rcases spoil_or (u := u) hh with e | e <;> rw [e]
    exact cellAt_flip_ne h hs _ hb
  · obtain ⟨y, hy⟩ := spoil_cells x u s
    rw [hy]
  · obtain ⟨y, hy⟩ := spoil_cells x u s
    rw [hy]

/-! ### A value in the scratchpad -/

/-- The bytes of a scratchpad with the bits of a value flipped. -/
theorem flip_sp (hs : x.spot = .sp c a) {n m : Nat} (hn : (a % 8 + x.fmt.width + 7) / 8 = n) : x.flip m s =
    onCell c (fun y => { y with sp := putBytes noByte y.sp (a / 8) (natLE n (leNat (getBytes noByte y.sp (a / 8) n) ^^^ m <<< (a % 8))) }) s := by
  subst hn
  simp only [CheckVal.flip, hs]

theorem flipped_bits {y m r w n : Nat} (hy : y < 256 ^ n) (hm : m < 2 ^ w) (hr : r + w ≤ 8 * n) :
    ((y ^^^ m <<< r) % 256 ^ n) >>> r % 2 ^ w = (y >>> r) % 2 ^ w ^^^ m := by
  have h256 : 256 ^ n = 2 ^ (8 * n) := by rw [Nat.pow_mul]
  have hs : m <<< r < 256 ^ n := by
    rw [h256, Nat.shiftLeft_eq]
    calc m * 2 ^ r < 2 ^ w * 2 ^ r := Nat.mul_lt_mul_of_pos_right hm (Nat.two_pow_pos _)
      _ = 2 ^ (r + w) := by rw [← Nat.pow_add, Nat.add_comm]
      _ ≤ 2 ^ (8 * n) := Nat.pow_le_pow_right (by decide) hr
  have hx : y ^^^ m <<< r < 256 ^ n := by
    rw [h256] at hy hs ⊢
    exact Nat.xor_lt_two_pow hy hs
  rw [Nat.mod_eq_of_lt hx, Nat.shiftRight_xor_distrib, Nat.shiftLeft_shiftRight, Nat.xor_mod_two_pow, Nat.mod_eq_of_lt hm]

/-- A value that its own bytes hold whole takes as many bytes as its width. -/
theorem span_bytes {w : Nat} (hal : a % 8 + w ≤ 8 * ((w + 7) / 8)) : (a % 8 + w + 7) / 8 = (w + 7) / 8 := by omega

theorem held_flip_sp (h : Canon s) (hs : x.spot = .sp c a) (hal : a % 8 + x.fmt.width ≤ 8 * ((x.fmt.width + 7) / 8)) {m : Nat}
    (hm : m < 2 ^ x.fmt.width) (hh : x.held s = some x.code) : x.held (x.flip m s) = some (x.code ^^^ m) := by
  have hn := span_bytes hal
  have hc := (cellCanon_at h c).sp
  rw [flip_sp hs hn]
  simp only [CheckVal.held, hs, Option.some.injEq, spBits, spGet] at hh ⊢
  generalize (x.fmt.width + 7) / 8 = n at *
  generalize hy : leNat (getBytes noByte (cellAt s c).sp (a / 8) n) = y at *
  have hlt : y < 256 ^ n := by
    rw [← hy]
    exact (leNat_lt _).trans_eq (by rw [getBytes_length])
  have hb := getBytes_putBytes hc (a / 8) (natLE n (y ^^^ m <<< (a % 8)))
  rw [natLE_length] at hb
  rw [cellAt_onCell h.cells]
  dsimp only
  rw [hy, hb, leNat_natLE, flipped_bits hlt hm hal, hh]

/-- Only bytes of the value's span change. -/
theorem flip_sp_frame (h : Canon s) (hs : x.spot = .sp c a) (hal : a % 8 + x.fmt.width ≤ 8 * ((x.fmt.width + 7) / 8)) (m : Nat) :
    cellAt (x.flip m s) c = { cellAt s c with sp := (cellAt (x.flip m s) c).sp } ∧
    ∀ b, b < a / 8 ∨ a / 8 + (x.fmt.width + 7) / 8 ≤ b → spGet (x.flip m s) c b 1 = spGet s c b 1 := by
  have hn := span_bytes hal
  rw [flip_sp hs hn]
  refine ⟨by rw [cellAt_onCell h.cells], fun b hb => ?_⟩
  simp only [spGet, getBytes, List.range_one, List.map_cons, List.map_nil, Nat.add_zero]
  rw [cellAt_onCell h.cells, get_putBytes_out (cellCanon_at h c).sp (by rw [natLE_length]; exact hb)]

end

/-! ### What a mismatch reports (R335, R343, R344) -/

section
variable {s : State} {unit written r b : Nat} {p : Place}

/-- What a verdict is about, apart from what it reports. -/
def verdictView (s : State) : SMap Cell × Dram × List Flight := (s.cells, s.dram, s.flights)

theorem keptByTaints_verdictView {v : SMap Cell × Dram × List Flight} : KeptByTaints fun s => verdictView s = v :=
  (keptByReports_view (g := verdictView)).toKeptByTaints

/-- The mismatch is counted, and its unit's bit set. -/
def mismatchCounted (unit : Nat) (p : Place) (s : State) : State :=
  match hmarkBit unit with
  | some (r, b) => sticky (cellKey (placePhys s p) r) b (bump Reg.HLT_HMARK_COUNT s)
  | none => bump Reg.HLT_HMARK_COUNT s

/-- The mismatch taints the step. -/
def mismatchTainted (unit : Nat) (p : Place) (s : State) : State :=
  taintCell 1 unit (placeDie p) (placeWhere p) (mismatchCounted unit p s)

/-- A mismatch is counted, and its taint may fault the job besides. -/
theorem hallmarkMismatch_cases (unit : Nat) (p : Place) (written : Nat) (s : State) :
    hallmarkMismatch unit p written s = mismatchTainted unit p s ∨ hallmarkMismatch unit p written s =
      jobFaultRec Reg.HLT_TAINT (placeLoc unit (placeDie p) (placeWhere p)) (rd (mismatchTainted unit p s) Reg.HLT_TAINT)
        (mismatchTainted unit p s) := by
  have hm : hallmarkMismatch unit p written s = (match (mismatchTainted unit p s).run.commit with
    | some b => if (mismatchTainted unit p s).run.on && decide (written < b.issued) then
        jobFaultRec Reg.HLT_TAINT (placeLoc unit (placeDie p) (placeWhere p)) (rd (mismatchTainted unit p s) Reg.HLT_TAINT)
          (mismatchTainted unit p s) else mismatchTainted unit p s
    | none => mismatchTainted unit p s) := rfl
  rw [hm]
  split
  · split
    · exact .inr rfl
    · exact .inl rfl
  · exact .inl rfl

theorem hallmarkMismatch_kept {P : State → Prop} (hP : KeptByTaints P) (h : P (mismatchCounted unit p s)) :
    P (hallmarkMismatch unit p written s) := by
  have ht : P (mismatchTainted unit p s) := hP.taintCell _ _ _ _ h
  rcases hallmarkMismatch_cases unit p written s with e | e <;> rw [e]
  · exact ht
  · exact hP.jobFaultRec _ _ _ ht

theorem verdictView_counted (unit : Nat) (p : Place) (s : State) : verdictView (mismatchCounted unit p s) = verdictView s := by
  unfold mismatchCounted
  split <;> rfl

theorem regs_counted (h : wf regDefault s.regs = true) (unit : Nat) (p : Place) : wf regDefault (mismatchCounted unit p s).regs = true := by
  unfold mismatchCounted
  split
  · exact wf_put (wf_put h)
  · exact wf_put h

/-- A register of a cell is none of the global ones. -/
theorem cellKey_gt (c off : Nat) : 2 ^ 36 ≤ cellKey c off := by
  unfold cellKey
  omega

theorem held_count (h : wf regDefault s.regs = true) (unit : Nat) (p : Place) :
    Held Reg.HLT_HMARK_COUNT (min (rd s Reg.HLT_HMARK_COUNT + 1) (2 ^ 32 - 1)) (mismatchCounted unit p s) := by
  refine ⟨.inl (regs_counted h unit p), ?_⟩
  unfold mismatchCounted
  split
  next r b _ =>
    have := cellKey_gt (placePhys s p) r
    rw [rd_sticky_ne (wf_put h) _ (Nat.ne_of_lt ((show Reg.HLT_HMARK_COUNT < 2 ^ 36 by decide).trans_le this)), rd_bump h]
  · exact rd_bump h _

/-- A mismatch of a unit with a bit of its own sets it. -/
theorem held_hmark (h : wf regDefault s.regs = true) (hb : hmarkBit unit = some (r, b)) : ∃ v,
    Held (cellKey (placePhys s p) r) (v ||| 2 ^ b) (mismatchCounted unit p s) := by
  have hlt : b < 32 := by
    unfold hmarkBit at hb
    split at hb <;> cases hb <;> decide
  refine ⟨rd (bump Reg.HLT_HMARK_COUNT s) (cellKey (placePhys s p) r), .inl (regs_counted h unit p), ?_⟩
  unfold mismatchCounted
  rw [hb]
  exact rd_sticky (wf_put h) _ hlt

theorem key_of_cellKey {k c off : Nat} (l : List Nat) (hl : l.all (· < 2 ^ 36) = true) (hk : k = cellKey c off) : l.contains k = false := by
  rw [List.contains_eq_mem, decide_eq_false_iff_not]
  intro hm
  have h1 := of_decide_eq_true (List.all_eq_true.1 hl k hm)
  have h2 := cellKey_gt c off
  omega

theorem taintHeld_mismatch (h : wf regDefault s.regs = true) (hon : s.run.on = true) :
    TaintHeld (hallmarkMismatch unit p written s) := by
  have hrun : (mismatchCounted unit p s).run = s.run := by
    unfold mismatchCounted
    split <;> rfl
  have ht : TaintHeld (mismatchTainted unit p s) := taintHeld_taint (regs_counted h unit p) (by rw [hrun, hon]) ..
  rcases hallmarkMismatch_cases unit p written s with e | e <;> rw [e]
  · exact ht
  · refine keptByRecords_taintHeld.recordOf _ _ _ _ ?_
    unfold jobFault
    split
    · exact ⟨ht.wf, ht.val⟩
    · exact ht

end

/-! ### The verdict -/

section
variable {s : State} {x : CheckVal} {u : Fin 7} {p : Place} {written : BitVec 64} {i : Nat} {upset : BitVec 16}

theorem execHallmarkVerdict_none (h : checkedValue s u.val (checkPlace s p) written.toNat i = none) :
    execHallmarkVerdict u p written i upset s = s := by
  unfold execHallmarkVerdict
  rw [h]

theorem execHallmarkVerdict_match (h : checkedValue s u.val (checkPlace s p) written.toNat i = some x) (hm : x.mismatch upset.toNat = false) :
    execHallmarkVerdict u p written i upset s = x.spoil upset.toNat s := by
  unfold execHallmarkVerdict
  rw [h]
  dsimp only
  rw [hm, if_neg Bool.false_ne_true]

theorem execHallmarkVerdict_mismatch (h : checkedValue s u.val (checkPlace s p) written.toNat i = some x)
    (hm : x.mismatch upset.toNat = true) :
    execHallmarkVerdict u p written i upset s = hallmarkMismatch u.val p written.toNat (x.spoil upset.toNat s) := by
  unfold execHallmarkVerdict
  rw [h]
  dsimp only
  rw [hm, if_pos rfl]

end

/-- Settles O60: a verdict by its three cases, the spoiled value by its place, and the laws of residues by the ring of integers modulo 7. -/
theorem hallmarkVerdicts : Obligations.HallmarkVerdicts := by
  unfold Obligations.HallmarkVerdicts
  refine ⟨?verdict, ?spoil, mismatch_unchanged, fun x u => mismatch_twice, fun x k => mismatch_index,
    fun x v k => mismatch_fraction, hresMul_eq, hresSum_eq⟩
  case verdict =>
    intro u p written i upset s hs v
    have h : Canon s := canon_iff.1 hs
    refine ⟨?none, ?late, ?same, ?differs⟩
    case none => exact fun hv => served_unchanged (execHallmarkVerdict_none hv)
    case late =>
      intro hlate
      exact served_unchanged (execHallmarkVerdict_none (if_neg (Nat.not_le.2 hlate)))
    case same =>
      intro x hv hm
      obtain ⟨y, hy⟩ := spoil_cells x upset.toNat s
      show served (execHallmarkVerdict u p written i upset) s = _
      rw [served, execHallmarkVerdict_match hv hm, hy]
      rfl
    case differs =>
      intro x hv hm
      refine ⟨_, rfl, ?_⟩
      rw [execHallmarkVerdict_mismatch hv hm]
      obtain ⟨y, hy⟩ := spoil_cells x upset.toNat s
      rw [hy]
      have hcount := hallmarkMismatch_kept (written := written.toNat) (keptByTaints_held (by decide) (by decide))
        (held_count (s := { s with cells := y }) h.regs u.val p)
      have hview := hallmarkMismatch_kept (written := written.toNat) keptByTaints_verdictView
        (verdictView_counted u.val p { s with cells := y })
      simp only [verdictView, Prod.mk.injEq] at hview
      refine ⟨hcount.val, fun r b hb => ?_, fun hon => (taintHeld_mismatch (s := { s with cells := y }) h.regs hon).val, hview⟩
      obtain ⟨w, hw⟩ := held_hmark (s := { s with cells := y }) (p := p) h.regs hb
      exact (hallmarkMismatch_kept (keptByTaints_held (key_of_cellKey _ (by decide) rfl) (key_of_cellKey _ (by decide) rfl)) hw).bit rfl
  case spoil =>
    intro x u s hs t kept
    have h : Canon s := canon_iff.1 hs
    refine ⟨spoil_unheld, fun hh => ⟨?word, ?sp⟩⟩
    case word =>
      intro c i hspot
      rcases hspot with hspot | hspot
      · exact ⟨held_spoil hh (held_flip_acc h hspot (upsetBits_lt x u) hh), spoil_frame h (by rw [hspot]; rfl) hh⟩
      · exact ⟨held_spoil hh (held_flip_table h hspot (upsetBits_lt x u) hh), spoil_frame h (by rw [hspot]; rfl) hh⟩
    case sp =>
      intro c a hspot hal
      refine ⟨held_spoil hh (held_flip_sp h hspot hal (Nat.mod_lt _ (Nat.two_pow_pos _)) hh), spoil_frame h (by rw [hspot]; rfl) hh, ?_⟩
      rcases spoil_or (u := u) hh with e | e <;> simp only [t, e]
      · exact ⟨trivial, fun _ _ => trivial⟩
      · exact flip_sp_frame h hspot hal _

end Sys2Proof.Machine
end

section
/-! PROOFS. MOV words (R234, R236, R247, R248, R480 to R482): what filling and emptying the rings leaves alone, the slots claimed, and the
lines put in flight. -/
namespace Sys2Proof.Machine

/-! ### Lines put in flight -/

section
variable {α : Type} {s : State}

/-- Launches one after the other append their flights. -/
theorem each_launches {f : α → State → State} {g : α → Flight} {l : List α}
    (hf : ∀ x ∈ l, ∀ fl, f x { s with flights := fl } = { s with flights := fl ++ [g x] }) :
    each l f s = { s with flights := s.flights ++ l.map g } := by
  have h : ∀ fl, each l f { s with flights := fl } = { s with flights := fl ++ l.map g } := by
    induction l with
    | nil => intro fl; simp [each_nil]
    | cons x l ih =>
      intro fl
      rw [each_cons, hf x List.mem_cons_self, ih fun y hy => hf y (List.mem_cons_of_mem _ hy), List.append_assoc]
      rfl
  exact h s.flights

end

/-! ### What a MOV word leaves alone while it fills and empties rings -/

/-- `t` differs from `z` at most in the use of rings, what they free, and reports. -/
structure Moved (z t : State) : Prop where
  canon : Canon t
  sp : ∀ b, (cellAt t b).sp = (cellAt z b).sp
  spBad : ∀ b, (cellAt t b).spBad = (cellAt z b).spBad
  flights : t.flights = z.flights
  dram : t.dram = z.dram
  mem : t.mem = z.mem
  time : t.time = z.time
  run : t.run.unmarked = z.run.unmarked
  regs : ∀ k, reportKey k = false → rd t k = rd z k

section
variable {z t : State} {c r a n die unit v : Nat} {w : Slot}

theorem moved_self (h : Canon z) : Moved z z := ⟨h, fun _ => rfl, fun _ => rfl, rfl, rfl, rfl, rfl, rfl, fun _ _ => rfl⟩

theorem keptByReports_moved : KeptByReports (Moved z) where
  wr hk h := { h with canon := canon_wr h.canon, regs := fun k hq =>
    (rd_wr_ne h.canon.regs _ (ne_of_key (reportKey_of_recKey hk) hq).symm).trans (h.regs k hq) }
  side h := { h with canon := canon_mk h.canon }
  tainted hk h := { h with canon := canon_wr h.canon, regs := fun k hq =>
    (rd_wr_ne h.canon.regs _ (ne_of_key (reportKey_of_taintKey hk) hq).symm).trans (h.regs k hq) }
  marks hr h := { h with canon := canon_mk h.canon, run := hr.trans h.run }
  report hk h := { h with canon := canon_wr h.canon, regs := fun k hq =>
    (rd_wr_ne h.canon.regs _ (ne_of_key hk hq).symm).trans (h.regs k hq) }
  sent h := { h with canon := canon_mk h.canon }

theorem moved_setRingUse (h : Moved z t) : Moved z (setRingUse c r v t) := by
  have hat : ∀ b, (cellAt (setRingUse c r v t) b).sp = (cellAt t b).sp ∧ (cellAt (setRingUse c r v t) b).spBad = (cellAt t b).spBad := by
    intro b
    by_cases hb : b = c
    · subst hb
      rw [setRingUse, cellAt_onCell h.canon.cells]
      exact ⟨rfl, rfl⟩
    · rw [setRingUse, cellAt_onCell_ne h.canon.cells _ hb]
      exact ⟨rfl, rfl⟩
  exact { h with canon := canon_setRingUse h.canon, sp := fun b => (hat b).1.trans (h.sp b), spBad := fun b => (hat b).2.trans (h.spBad b) }

/-- Units freed count in the fabric alone. -/
theorem noteFreed_fab (die r n : Nat) (s : State) : ∃ x, noteFreed die r n s = { s with fab := x } := by
  unfold noteFreed
  split
  · split <;> exact ⟨_, rfl⟩
  · exact ⟨_, rfl⟩

theorem moved_noteFreed (h : Moved z t) : Moved z (noteFreed die r n t) := by
  obtain ⟨x, hx⟩ := noteFreed_fab die r n t
  rw [hx]
  exact { h with canon := canon_mk h.canon }

theorem moved_wordViol (h : Moved z t) (bit unit : Nat) (w : Slot) : Moved z (wordViol bit unit w t) := keptByReports_moved.viol _ _ _ _ h

theorem moved_ringAdd (h : Moved z t) : Moved z (ringAdd die c r n unit w t) := by
  unfold ringAdd
  dsimp only
  split
  · exact moved_wordViol (moved_setRingUse h) ..
  · exact moved_setRingUse h

theorem moved_ringTake (h : Moved z t) : Moved z (ringTake c r n unit w t) := by
  unfold ringTake
  dsimp only
  split
  · exact moved_wordViol (moved_noteFreed (moved_setRingUse h)) ..
  · exact moved_noteFreed (moved_setRingUse h)

theorem moved_produce (h : Moved z t) : Moved z (produce die c a n w t) := by
  unfold produce
  split
  · exact moved_ringAdd h
  · exact h

theorem moved_consume (h : Moved z t) : Moved z (consume die c a n w t) := by
  unfold consume
  split
  · exact moved_ringTake h
  · exact h

namespace Moved

theorem now (h : Moved z t) : Machine.now t = Machine.now z := congrArg (fun x => x.tick.toNat) h.time

theorem start (h : Moved z t) : t.run.start = z.run.start := show t.run.unmarked.start = z.run.unmarked.start by rw [h.run]

theorem spGet (h : Moved z t) (c a n : Nat) : Machine.spGet t c a n = Machine.spGet z c a n := by rw [Machine.spGet, Machine.spGet, h.sp]

theorem spMarks (h : Moved z t) (c a : Nat) : Machine.spMarks t c a = Machine.spMarks z c a := by rw [Machine.spMarks, Machine.spMarks, h.spBad]

end Moved

end

/-! ### COPY and BRIDGE (R480 to R482) -/

section
variable {z t : State} {c d src dst n k : Nat}

/-- The lines of a span read one per tick: the first is in flight at once, the others wait for their tick. -/
theorem moveLines_flights (h : Moved z t) : each (List.range (n + 1)) (fun i s =>
      launchOrLand (now s + i) (.moveLine c (64 * (src + i)) d (64 * (dst + i)) (now s + 40 + k + i)) s) t =
    { t with flights := z.flights ++ ⟨now z + 40 + k, .spLine d (64 * dst) (spGet z c (64 * src) 64) (spMarks z c (64 * src))⟩ ::
      (List.range n).map fun i =>
        ⟨now z + (i + 1), .moveLine c (64 * (src + (i + 1))) d (64 * (dst + (i + 1))) (now z + 40 + k + (i + 1))⟩ } := by
  have h0 : launchOrLand (now t + 0) (.moveLine c (64 * (src + 0)) d (64 * (dst + 0)) (now t + 40 + k + 0)) t =
      launch (now z + 40 + k) (.spLine d (64 * dst) (spGet z c (64 * src) 64) (spMarks z c (64 * src))) t := by
    rw [launchOrLand, Nat.add_zero, if_pos (Nat.le_refl _), h.now, ← h.spGet, ← h.spMarks]
    rfl
  rw [List.range_succ_eq_map, each_cons, h0, each, List.foldl_map, ← each]
  rw [each_launches (g := fun i => ⟨now z + (i + 1), .moveLine c (64 * (src + (i + 1))) d (64 * (dst + (i + 1))) (now z + 40 + k + (i + 1))⟩)]
  · simp only [launch, h.flights, List.append_assoc, List.singleton_append]
  · intro i _ fl
    have hn : ∀ fl, now { t with flights := fl } = now z := fun _ => h.now
    have hlt : ¬ now z + (i + 1) ≤ now z := by omega
    simp only [launch, launchOrLand, hn, Nat.succ_eq_add_one, if_neg hlt]

end

section
variable {w : Slot} {s : State}

/-- The flights of the lines of a COPY or BRIDGE: of the first its write, of the others their reads. -/
def moveFlights (w : Slot) (s : State) (d land : Nat) : List Flight :=
  ⟨land, .spLine d (64 * mvDsp w) (spGet s (placePhys s w.place) (64 * mvSp w) 64) (spMarks s (placePhys s w.place) (64 * mvSp w))⟩ ::
    (List.range (mvLines w - 1)).map fun i =>
      ⟨now s + (i + 1), .moveLine (placePhys s w.place) (64 * (mvSp w + (i + 1))) d (64 * (mvDsp w + (i + 1))) (land + (i + 1))⟩

theorem mvLines_pred (w : Slot) : mvLines w - 1 + 1 = mvLines w := rfl

theorem copyAct_values (h : Canon s) : ∃ t, Moved s t ∧ copyAct w s =
    { t with flights := s.flights ++ moveFlights w s (phys s (placeDie w.place) (opf w 67 60)) (now s + 40) } := by
  have hm : Moved s (produce (placeDie w.place) (phys s (placeDie w.place) (opf w 67 60)) (mvDsp w) (mvLines w) w
      (consume (placeDie w.place) (placePhys s w.place) (mvSp w) (mvLines w) w s)) := moved_produce (moved_consume (moved_self h))
  have hl := moveLines_flights (c := placePhys s w.place) (d := phys s (placeDie w.place) (opf w 67 60)) (src := mvSp w) (dst := mvDsp w)
    (n := mvLines w - 1) (k := 0) hm
  simp only [Nat.add_zero, mvLines_pred] at hl
  exact ⟨_, hm, hl⟩

theorem bridgeAct_values (h : Canon s) : ∃ t, Moved s t ∧ bridgeAct w s =
    { t with flights := s.flights ++ moveFlights w s (phys s (opf w 69 68) (opf w 67 60)) (now s + 40 + 80 * bridges (placeDie w.place) (opf w 69 68)) } := by
  have hm : Moved s (produce (opf w 69 68) (phys s (opf w 69 68) (opf w 67 60)) (mvDsp w) (mvLines w) w
      (consume (placeDie w.place) (placePhys s w.place) (mvSp w) (mvLines w) w s)) := moved_produce (moved_consume (moved_self h))
  have hl := moveLines_flights (c := placePhys s w.place) (d := phys s (opf w 69 68) (opf w 67 60)) (src := mvSp w) (dst := mvDsp w)
    (n := mvLines w - 1) (k := 80 * bridges (placeDie w.place) (opf w 69 68)) hm
  rw [mvLines_pred] at hl
  exact ⟨_, hm, hl⟩

end

/-! ### Slots claimed (R247, R248) -/

section
variable {addrs : List Nat} {σ : Nat} {write : Bool} {s : State}

/-- Claiming the lines of a span changes the slots alone. -/
theorem foldl_claimLine_mem (l : List (Nat × Nat)) (b : Bool) (s : State) : ∃ m,
    (l.foldl (fun (a : Bool × State) p =>
      (a.1 || lineBad a.2 (pcOf p.1) p.2 (bankOf p.1) (rowOf p.1) write, claimLine p.1 p.2 write a.2)) (b, s)).2 = { s with mem := m } := by
  induction l generalizing b s with
  | nil => exact ⟨s.mem, rfl⟩
  | cons p l ih =>
    obtain ⟨m, hm⟩ := claimLine_mem p.1 p.2 write s
    rw [List.foldl_cons]
    obtain ⟨m', hm'⟩ := ih _ _
    rw [hm', hm]
    exact ⟨m', rfl⟩

/-- Free slots are claimed. -/
theorem claimLines_free (h : (claimLines addrs σ write s).1 = []) : ∃ m, claimLines addrs σ write s = ([], { s with mem := m }) := by
  unfold claimLines at h ⊢
  dsimp only at h ⊢
  split at h
  · obtain ⟨m, hm⟩ := foldl_claimLine_mem (write := write) (placeList addrs σ) false s
    exact ⟨m, by rw [hm]⟩
  · simp_all

/-- Slots that are not free are left as they are. -/
theorem claimLines_taken (h : (claimLines addrs σ write s).1 ≠ []) :
    claimLines addrs σ write s = ((claimLines addrs σ write s).1, s) ∧ ∀ b ∈ (claimLines addrs σ write s).1, b < 32 := by
  have hlt : ∀ (x y : Bool), ∀ b ∈ (if x then [0] else []) ++ (if y then [7] else []), b < 32 := by decide
  unfold claimLines at h ⊢
  dsimp only at h ⊢
  split at h
  · exact absurd rfl h
  · exact ⟨rfl, hlt _ _⟩

end

/-! ### LOAD and STORE (R247, R248, R217, R481) -/

section
variable {w : Slot} {s z t : State} {σ : Nat} {m : MemSys}

/-- The DRAM address that a LOAD reads from, in its step and slot. -/
def loadAddr (w : Slot) (s : State) : Nat := intakeSource s (placeDie w.place) (64 * mvDram w)

/-- The first memory slot of a LOAD. -/
def loadSlot (w : Slot) (s : State) : Nat := ceilDiv (stepTick s + 8 + 40 * dramBridges w (mvDram w)) 4

/-- What a LOAD does besides its lines. -/
def loadRings (w : Slot) (s t : State) : State :=
  produce (placeDie w.place) (placePhys s w.place) (mvSp w) (mvLines w) w
    (if loadVersionBad t w (loadAddr w s) (64 * mvLines w) then wordViol 3 5 w t else t)

theorem moved_loadRings (h : Moved z t) : Moved z (loadRings w s t) := by
  unfold loadRings
  refine moved_produce ?_
  split
  · exact moved_wordViol h ..
  · exact h

/-- The flight of one line of a LOAD: its place in the span, its address and its slot. -/
def loadFlight (w : Slot) (s : State) (p : Nat × Nat × Nat) : Flight :=
  ⟨s.run.start + 4 * p.2.2, .loadLine (placePhys s w.place) (64 * (mvSp w + p.1)) p.2.1
    (now s + 180 + 80 * dramBridges w (mvDram w) + 4 * (p.2.2 - loadSlot w s)) false⟩

theorem loadAct_taken {l : List Nat} (hne : l ≠ [])
    (hc : claimLines (lineAddrs (loadAddr w s) (mvLines w)) (loadSlot w s) false s = (l, s)) :
    loadAct w s = each l (fun b s => viol b 5 (placeDie w.place) (placeWhere w.place) s) s := by
  obtain ⟨b, l, rfl⟩ := List.exists_cons_of_ne_nil hne
  simp only [loadAddr, loadSlot] at hc
  simp only [loadAct, hc]
  rfl

theorem loadAct_free (hs : Canon s)
    (hc : claimLines (lineAddrs (loadAddr w s) (mvLines w)) (loadSlot w s) false s = ([], { s with mem := m })) :
    loadAct w s = { loadRings w s { s with mem := m } with flights := s.flights ++
      ((List.range (mvLines w)).zip (placeList (lineAddrs (loadAddr w s) (mvLines w)) (loadSlot w s))).map (loadFlight w s) } := by
  have hm : Moved { s with mem := m } (loadRings w s { s with mem := m }) := moved_loadRings (moved_self (canon_mk hs))
  have hl : loadAct w s = each ((List.range (mvLines w)).zip (placeList (lineAddrs (loadAddr w s) (mvLines w)) (loadSlot w s)))
      (fun p t => launch (t.run.start + 4 * p.2.2) (loadFlight w s p).effect t) (loadRings w s { s with mem := m }) := by
    simp only [loadAddr, loadSlot] at hc
    simp only [loadAct, hc]
    rfl
  rw [hl, each_launches (g := loadFlight w s), hm.flights]
  intro p _ fl
  have hst : (loadRings w s { s with mem := m }).run.start = s.run.start := hm.start
  simp only [launch, hst]
  rfl

/-- A LOAD whose slots are free: its slots are claimed, and its lines are in flight. -/
theorem loadAct_values (hs : Canon s) (hf : (claimLines (lineAddrs (loadAddr w s) (mvLines w)) (loadSlot w s) false s).1 = []) :
    (loadAct w s).mem = (claimLines (lineAddrs (loadAddr w s) (mvLines w)) (loadSlot w s) false s).2.mem ∧
    (loadAct w s).flights = s.flights ++
      ((List.range (mvLines w)).zip (placeList (lineAddrs (loadAddr w s) (mvLines w)) (loadSlot w s))).map (loadFlight w s) ∧
    (∀ b, (cellAt (loadAct w s) b).sp = (cellAt s b).sp) ∧ (loadAct w s).dram = s.dram := by
  obtain ⟨m, hm⟩ := claimLines_free hf
  have hr : Moved { s with mem := m } (loadRings w s { s with mem := m }) := moved_loadRings (moved_self (canon_mk hs))
  rw [loadAct_free hs hm, hm]
  exact ⟨hr.mem, rfl, hr.sp, hr.dram⟩

/-- The first memory slot of a STORE. -/
def storeSlot (w : Slot) (s : State) : Nat := ceilDiv (stepTick s + 60 + 80 * dramBridges w (mvDram w)) 4

/-- The ring that a STORE empties. -/
def storeRings (w : Slot) (s t : State) : State := consume (placeDie w.place) (placePhys s w.place) (mvSp w) (mvLines w) w t

/-- What a STORE that is not suppressed does besides its lines: it may break the rules of versions, and is the first update write. -/
def storeMarks (w : Slot) (t : State) : State :=
  let u := if storeVersionBad t w (64 * mvDram w) (64 * mvLines w) then wordViol 3 5 w t else t
  if inMaster u (64 * mvDram w) (64 * mvLines w) then markWriting u else u

/-- The flight of one line of a STORE. -/
def storeFlight (w : Slot) (s : State) (p : Nat × Nat × Nat) : Flight :=
  ⟨s.run.start + 4 * p.2.2, .storeLine (placePhys s w.place) (64 * (mvSp w + p.1)) p.2.1 false⟩

theorem movStoreAct_taken {l : List Nat} (hne : l ≠ [])
    (hc : claimLines (lineAddrs (64 * mvDram w) (mvLines w)) (storeSlot w s) true s = (l, s)) :
    movStoreAct w s = each l (fun b s => viol b 5 (placeDie w.place) (placeWhere w.place) s) s := by
  obtain ⟨b, l, rfl⟩ := List.exists_cons_of_ne_nil hne
  simp only [storeSlot] at hc
  simp only [movStoreAct, hc]
  rfl

/-- A move of rings leaves the master region and the decision of the veto point as they are. -/
theorem Moved.suppressed (h : Moved s t) (a n : Nat) : (mastersOff t && inMaster t a n) = (mastersOff s && inMaster s a n) := by
  have hoff : mastersOff t = mastersOff s := by
    show (t.run.unmarked.suppressed && !t.run.unmarked.proceeds) = (s.run.unmarked.suppressed && !s.run.unmarked.proceeds)
    rw [h.run]
  have hbase : ∀ d : Nat, d < 4 → rd t (Reg.SCH_MASTER_BASE + 4 * d) = rd s (Reg.SCH_MASTER_BASE + 4 * d) := by
    intro d hd
    refine h.regs _ ?_
    interval_cases d <;> decide
  have hspan : ∀ d x : Nat, d < 4 → bufferSpan t d x = bufferSpan s d x := by
    intro d x hd
    rw [bufferSpan, bufferSpan, hbase d hd, h.regs Reg.SCH_MASTER_SPAN (by decide)]
  have htouch : ∀ x, touches t x a n = touches s x a n := by
    intro x
    rw [Bool.eq_iff_iff]
    simp only [touches, List.any_eq_true, List.mem_range]
    exact exists_congr fun d => and_congr_right fun hd => by rw [hspan d x hd]
  rw [hoff, inMaster, inMaster, htouch, htouch]

theorem movStoreAct_suppressed (hs : Canon s)
    (hc : claimLines (lineAddrs (64 * mvDram w) (mvLines w)) (storeSlot w s) true s = ([], { s with mem := m }))
    (hoff : (mastersOff s && inMaster s (64 * mvDram w) (64 * mvLines w)) = true) :
    movStoreAct w s = storeRings w s { s with mem := m } := by
  have hm : Moved { s with mem := m } (storeRings w s { s with mem := m }) := moved_consume (moved_self (canon_mk hs))
  have ho := (hm.suppressed (64 * mvDram w) (64 * mvLines w)).trans hoff
  simp only [storeSlot] at hc
  simp only [movStoreAct, hc]
  exact if_pos ho

/-- The marks of an update write change registers alone. -/
theorem markWriting_regs (s : State) : ∃ r, markWriting s = { s with regs := r } := by
  unfold markWriting
  dsimp only
  split <;> exact ⟨_, rfl⟩

theorem storeMarks_moved (h : Moved z t) : ∃ u r, Moved z u ∧ storeMarks w t = { u with regs := r } := by
  unfold storeMarks
  extract_lets u
  have hu : Moved z u := by
    unfold u
    split
    · exact moved_wordViol h ..
    · exact h
  split
  · obtain ⟨r, hr⟩ := markWriting_regs u
    exact ⟨u, r, hu, hr⟩
  · exact ⟨u, u.regs, hu, rfl⟩

theorem movStoreAct_free (hs : Canon s)
    (hc : claimLines (lineAddrs (64 * mvDram w) (mvLines w)) (storeSlot w s) true s = ([], { s with mem := m }))
    (hoff : (mastersOff s && inMaster s (64 * mvDram w) (64 * mvLines w)) = false) : ∃ u r, Moved { s with mem := m } u ∧
    movStoreAct w s = { u with regs := r, flights := s.flights ++
      ((List.range (mvLines w)).zip (placeList (lineAddrs (64 * mvDram w) (mvLines w)) (storeSlot w s))).map (storeFlight w s) } := by
  have hm : Moved { s with mem := m } (storeRings w s { s with mem := m }) := moved_consume (moved_self (canon_mk hs))
  have ho := (hm.suppressed (64 * mvDram w) (64 * mvLines w)).trans hoff
  obtain ⟨u, r, hu, hr⟩ := storeMarks_moved (w := w) hm
  refine ⟨u, r, hu, ?_⟩
  have hl : movStoreAct w s = each ((List.range (mvLines w)).zip (placeList (lineAddrs (64 * mvDram w) (mvLines w)) (storeSlot w s)))
      (fun p t => launch (t.run.start + 4 * p.2.2) (storeFlight w s p).effect t) (storeMarks w (storeRings w s { s with mem := m })) := by
    simp only [storeSlot] at hc
    simp only [movStoreAct, hc]
    exact if_neg (Bool.eq_false_iff.1 ho)
  rw [hl, hr, each_launches (g := storeFlight w s)]
  · show { u with regs := r, flights := u.flights ++ _ } = _
    rw [hu.flights]
  · intro p _ fl
    have hst : u.run.start = s.run.start := hu.start
    simp only [launch, hst]
    rfl

/-- A STORE whose slots are free: its slots are claimed, and its lines are in flight unless the veto point suppresses them. -/
theorem movStoreAct_values (hs : Canon s) (hf : (claimLines (lineAddrs (64 * mvDram w) (mvLines w)) (storeSlot w s) true s).1 = []) :
    (movStoreAct w s).mem = (claimLines (lineAddrs (64 * mvDram w) (mvLines w)) (storeSlot w s) true s).2.mem ∧
    ((mastersOff s && inMaster s (64 * mvDram w) (64 * mvLines w)) = false → (movStoreAct w s).flights = s.flights ++
      ((List.range (mvLines w)).zip (placeList (lineAddrs (64 * mvDram w) (mvLines w)) (storeSlot w s))).map (storeFlight w s)) ∧
    ((mastersOff s && inMaster s (64 * mvDram w) (64 * mvLines w)) = true → (movStoreAct w s).flights = s.flights) ∧
    (∀ b, (cellAt (movStoreAct w s) b).sp = (cellAt s b).sp) ∧ (movStoreAct w s).dram = s.dram := by
  obtain ⟨m, hm⟩ := claimLines_free hf
  cases hoff : mastersOff s && inMaster s (64 * mvDram w) (64 * mvLines w) with
  | true =>
    have hr : Moved { s with mem := m } (storeRings w s { s with mem := m }) := moved_consume (moved_self (canon_mk hs))
    rw [movStoreAct_suppressed hs hm hoff, hm]
    exact ⟨hr.mem, fun e => (Bool.noConfusion e), fun _ => hr.flights, hr.sp, hr.dram⟩
  | false =>
    obtain ⟨u, r, hr, ht⟩ := movStoreAct_free hs hm hoff
    rw [ht, hm]
    exact ⟨hr.mem, fun _ => rfl, fun e => (Bool.noConfusion e), hr.sp, hr.dram⟩

end

/-! ### CAPTURE (R234, R236) -/

section
variable {w : Slot} {s t : State} {c n : Nat} {m : MemSys}

/-- Taking units from a ring leaves what it held less those units. -/
theorem ringUse_ringTake (h : Canon s) (c r n unit : Nat) (w : Slot) : ringUse (ringTake c r n unit w s) c r = ringUse s c r - n := by
  have hset : ringUse (setRingUse c r (ringUse s c r - n) s) c r = ringUse s c r - n := by
    rw [ringUse, setRingUse, cellAt_onCell h.cells]
    exact get_put (cellCanon_at h c).ringBytes
  obtain ⟨x, hx⟩ := noteFreed_fab (c / 272) r (min (ringUse s c r) n) (setRingUse c r (ringUse s c r - n) s)
  have hfreed : ringUse (noteFreed (c / 272) r (min (ringUse s c r) n) (setRingUse c r (ringUse s c r - n) s)) c r = ringUse s c r - n := by
    rw [hx]
    exact hset
  unfold ringTake
  dsimp only
  split
  · exact (keptByReports_view (g := fun t => ringUse t c r)).viol _ _ _ _ hfreed
  · exact hfreed

/-- The head of the DRAM capture ring that the CAPTURE words of a tick start from (R236). -/
def captureHead (s : State) : Nat := if s.run.capTick.1 = now s then s.run.capTick.2.1 else rd s Reg.SCH_CAP_HEAD

/-- The addresses that a CAPTURE writes, in the order of its units. -/
def captureAddrs (w : Slot) (s : State) : List Nat := capAddrs s (captureHead s + captureBefore s (placeKey w.place)) (opf w 95 84)

/-- The same addresses, those below the first one before the others. -/
def captureSorted (w : Slot) (s : State) : List Nat :=
  ((captureAddrs w s).filter fun a => decide (a < (captureAddrs w s).headD 0)) ++
    (captureAddrs w s).filter fun a => ¬ a < (captureAddrs w s).headD 0

/-- The first memory slot of a CAPTURE. -/
def captureSlot (w : Slot) (s : State) : Nat :=
  ceilDiv (stepTick s + 60 + 80 * bridges (placeDie w.place) (stackOf ((captureAddrs w s).headD 0) / 2)) 4

/-- The flight of one unit of a CAPTURE. -/
def captureFlight (w : Slot) (s : State) (p : Nat × Nat) : Flight :=
  ⟨s.run.start + 4 * p.2, .storeLine (placePhys s w.place) ((((ringsOf s (placeDie w.place))[63]?).getD (1, 0)).2 +
    64 * (((cellAt s (placePhys s w.place)).ring63.2 +
      ((((List.range (opf w 95 84)).zip (captureAddrs w s)).find? fun q => q.2 == p.1).map (·.1)).getD 0) %
        max (((ringsOf s (placeDie w.place))[63]?).getD (1, 0)).1 1)) p.1 false⟩

/-- What a CAPTURE does besides its lines. -/
def captureTaken (w : Slot) (s t : State) : State :=
  onCell (placePhys s w.place) (fun y => { y with ring63 := ((cellAt s (placePhys s w.place)).ring63.1,
      (cellAt s (placePhys s w.place)).ring63.2 + opf w 95 84) })
    (capReserve (opf w 95 84) (noteCapture (placeKey w.place) (opf w 95 84) (ringTake (placePhys s w.place) 63 (opf w 95 84) 5 w t)))

/-- What a CAPTURE comes to with the slots that it has claimed, or the violations that refuse it. -/
def captureGo (w : Slot) (s : State) : List Nat × State → State
  | (b :: l, t) => each (b :: l) (fun b t => wordViol b 5 w t) t
  | ([], t) => each (placeList (captureSorted w s) (captureSlot w s))
      (fun p t => launch (t.run.start + 4 * p.2) (captureFlight w s p).effect t) (captureTaken w s t)

theorem captureAct_claims (h : capOn s = true) :
    captureAct w s = captureGo w s (claimLines (captureSorted w s) (captureSlot w s) true s) := by
  unfold captureAct
  extract_lets die c n x r head addrs low sorted k σ src
  rw [if_neg (by rw [h]; exact Bool.false_ne_true)]
  have hclaim : claimLines (captureSorted w s) (captureSlot w s) true s = claimLines sorted σ true s := rfl
  rw [hclaim]
  split <;> rename_i heq <;> rw [heq] <;> rfl

theorem captureAct_off (h : capOn s = false) : captureAct w s = setRingUse (placePhys s w.place) 63 0 (onCell (placePhys s w.place)
    (fun y => { y with ring63 := ((cellAt s (placePhys s w.place)).ring63.1, (cellAt s (placePhys s w.place)).ring63.1) }) s) := by
  simp only [captureAct, h, Bool.not_false, if_true]

/-- Registers and the step are all that a reservation changes, and it leaves the step's start. -/
theorem capReserve_shape (n : Nat) (s : State) : ∃ regs events r, capReserve n s = { s with regs := regs, events := events, run := r } ∧
    r.start = s.run.start := by
  unfold capReserve
  dsimp only
  split <;> exact ⟨_, _, _, rfl, rfl⟩

theorem captureAct_on (hs : Canon s) (h : capOn s = true)
    (hc : claimLines (captureSorted w s) (captureSlot w s) true s = ([], { s with mem := m })) :
    captureAct w s = { captureTaken w s { s with mem := m } with
      flights := s.flights ++ (placeList (captureSorted w s) (captureSlot w s)).map (captureFlight w s) } := by
  have hm : Moved { s with mem := m } (ringTake (placePhys s w.place) 63 (opf w 95 84) 5 w { s with mem := m }) :=
    moved_ringTake (moved_self (canon_mk hs))
  have hl : captureAct w s = each (placeList (captureSorted w s) (captureSlot w s))
      (fun p t => launch (t.run.start + 4 * p.2) (captureFlight w s p).effect t) (captureTaken w s { s with mem := m }) := by
    rw [captureAct_claims h, hc]
    rfl
  obtain ⟨regs, events, r, hr, hst⟩ := capReserve_shape (opf w 95 84)
    (noteCapture (placeKey w.place) (opf w 95 84) (ringTake (placePhys s w.place) 63 (opf w 95 84) 5 w { s with mem := m }))
  have hstart : (captureTaken w s { s with mem := m }).run.start = s.run.start := by
    rw [captureTaken, onCell_run, hr]
    exact hst.trans hm.start
  have hfl : (captureTaken w s { s with mem := m }).flights = s.flights := by
    rw [captureTaken, onCell_flights, hr]
    exact hm.flights
  rw [hl, each_launches (g := captureFlight w s), hfl]
  intro p _ fl
  simp only [launch, hstart]
  rfl

/-- A reservation moves the head of the DRAM capture ring (R236). -/
theorem rd_capReserve_head (h : wf regDefault s.regs = true) (hl : capLen s ≠ 0) (n : Nat) :
    rd (capReserve n s) Reg.SCH_CAP_HEAD = (rd s Reg.SCH_CAP_HEAD + n) % capLen s := by
  unfold capReserve
  extract_lets total live s1 run s2
  have h1 : wf regDefault s1.regs = true := by
    unfold s1
    split
    · exact wf_put h
    · exact h
  have hrd : ∀ k, k ≠ Reg.SCH_STEP_STICKY → rd s2 k = rd s k := by
    intro k hk
    show rd s1 k = rd s k
    unfold s1
    split
    · exact rd_sticky_ne h _ hk
    · rfl
  have hlen : capLen s2 = capLen s := hrd Reg.SCH_CAP_LEN (by decide)
  have hlt : (rd s Reg.SCH_CAP_HEAD + n) % capLen s < 2 ^ 32 :=
    (Nat.mod_lt _ (Nat.pos_of_ne_zero hl)).trans (rd_lt s Reg.SCH_CAP_LEN)
  have h2 : wf regDefault s2.regs = true := h1
  rw [rd_wr_ne (wf_put h2) _ (by decide), rd_wr h2, hrd _ (by decide), hlen, Nat.mod_eq_of_lt hlt]

/-- Emptying ring 63 leaves all else of the cells. -/
theorem captureOff_values (h : Canon s) (c : Nat) (x : Nat × Nat) :
    let t := setRingUse c 63 0 (onCell c (fun y => { y with ring63 := x }) s)
    ringUse t c 63 = 0 ∧ t.flights = s.flights ∧ t.regs = s.regs ∧ (∀ b, (cellAt t b).sp = (cellAt s b).sp) ∧ t.dram = s.dram := by
  intro t
  have ho : Canon (onCell c (fun y => { y with ring63 := x }) s) := canon_onCell (fun y hy => hy.same) h
  have hat : cellAt t c = { cellAt s c with ring63 := x, ringBytes := put (fun _ => 0) (cellAt s c).ringBytes 63 0 } := by
    simp only [t, setRingUse]
    rw [cellAt_onCell ho.cells, cellAt_onCell h.cells]
  refine ⟨?_, rfl, rfl, fun b => ?_, rfl⟩
  · rw [ringUse, hat]
    exact get_put (cellCanon_at h c).ringBytes
  · by_cases hb : b = c
    · rw [hb, hat]
    · simp only [t, setRingUse]
      rw [cellAt_onCell_ne ho.cells _ hb, cellAt_onCell_ne h.cells _ hb]

theorem captureTaken_values (hs : Canon s) (h : capOn s = true) (w : Slot) (m : MemSys) :
    let t := captureTaken w s { s with mem := m }
    rd t Reg.SCH_CAP_HEAD = (rd s Reg.SCH_CAP_HEAD + opf w 95 84) % capLen s ∧
    ringUse t (placePhys s w.place) 63 = ringUse s (placePhys s w.place) 63 - opf w 95 84 ∧
    (∀ b, (cellAt t b).sp = (cellAt s b).sp) ∧ t.dram = s.dram := by
  intro t
  have hc : Canon { s with mem := m } := canon_mk hs
  have hm : Moved { s with mem := m } (ringTake (placePhys s w.place) 63 (opf w 95 84) 5 w { s with mem := m }) := moved_ringTake (moved_self hc)
  have hring := ringUse_ringTake hc (placePhys s w.place) 63 (opf w 95 84) 5 w
  obtain ⟨regs, events, r, hr, -⟩ := capReserve_shape (opf w 95 84)
    (noteCapture (placeKey w.place) (opf w 95 84) (ringTake (placePhys s w.place) 63 (opf w 95 84) 5 w { s with mem := m }))
  generalize hz : ringTake (placePhys s w.place) 63 (opf w 95 84) 5 w { s with mem := m } = z at *
  have hn : noteCapture (placeKey w.place) (opf w 95 84) z = { z with run := (noteCapture (placeKey w.place) (opf w 95 84) z).run } := rfl
  have hcells : (capReserve (opf w 95 84) (noteCapture (placeKey w.place) (opf w 95 84) z)).cells = z.cells := by rw [hr]; rfl
  have hat : cellAt t (placePhys s w.place) = { cellAt z (placePhys s w.place) with
      ring63 := ((cellAt s (placePhys s w.place)).ring63.1, (cellAt s (placePhys s w.place)).ring63.2 + opf w 95 84) } := by
    simp only [t, captureTaken, hz]
    rw [cellAt_onCell (by rw [hcells]; exact hm.canon.cells), cellAt_congr hcells]
  have hne : ∀ b, b ≠ placePhys s w.place → cellAt t b = cellAt z b := by
    intro b hb
    simp only [t, captureTaken, hz]
    rw [cellAt_onCell_ne (by rw [hcells]; exact hm.canon.cells) _ hb, cellAt_congr hcells]
  refine ⟨?_, ?_, ?_, ?_⟩
  · have hlen : capLen z = capLen s := hm.regs Reg.SCH_CAP_LEN (by decide)
    have hl : capLen (noteCapture (placeKey w.place) (opf w 95 84) z) ≠ 0 := by
      simp only [capOn, Bool.and_eq_true, bne_iff_ne] at h
      exact fun e => h.2 (hlen.symm.trans e)
    simp only [t, captureTaken, hz]
    refine (rd_capReserve_head (s := noteCapture (placeKey w.place) (opf w 95 84) z) hm.canon.regs hl _).trans ?_
    exact congrArg₂ (fun x y => (x + opf w 95 84) % y) (hm.regs Reg.SCH_CAP_HEAD (by decide)) hlen
  · rw [ringUse, hat]
    exact hring
  · intro b
    refine Eq.trans ?_ (hm.sp b)
    by_cases hb : b = placePhys s w.place
    · rw [hb, hat]
    · rw [hne b hb]
  · simp only [t, captureTaken, hz, onCell_dram, hr]
    exact hm.dram

theorem captureAct_off_values (hs : Canon s) (h : capOn s = false) :
    ringUse (captureAct w s) (placePhys s w.place) 63 = 0 ∧ (captureAct w s).flights = s.flights ∧ (captureAct w s).regs = s.regs ∧
    (∀ b, (cellAt (captureAct w s) b).sp = (cellAt s b).sp) ∧ (captureAct w s).dram = s.dram := by
  rw [captureAct_off h]
  exact captureOff_values hs _ _

theorem captureAct_on_values (hs : Canon s) (h : capOn s = true)
    (hf : (claimLines (captureSorted w s) (captureSlot w s) true s).1 = []) :
    rd (captureAct w s) Reg.SCH_CAP_HEAD = (rd s Reg.SCH_CAP_HEAD + opf w 95 84) % capLen s ∧
    ringUse (captureAct w s) (placePhys s w.place) 63 = ringUse s (placePhys s w.place) 63 - opf w 95 84 ∧
    (captureAct w s).flights = s.flights ++ (placeList (captureSorted w s) (captureSlot w s)).map (captureFlight w s) ∧
    (∀ b, (cellAt (captureAct w s) b).sp = (cellAt s b).sp) ∧ (captureAct w s).dram = s.dram := by
  obtain ⟨m, hm⟩ := claimLines_free hf
  obtain ⟨hhead, hring, hsp, hdram⟩ := captureTaken_values hs h w m
  rw [captureAct_on hs h hm]
  exact ⟨hhead, hring, rfl, hsp, hdram⟩

end

/-- Settles O13: each word claims its slots, fills and empties its rings without touching what its lines read, and puts its lines in flight. -/
theorem moverWordsMove : Obligations.MoverWordsMove := by
  unfold Obligations.MoverWordsMove
  refine ⟨?copies, ?load, ?store, ?capture⟩
  case copies =>
    intro bridge w s hs ha s' c e d land
    have hc : Canon s' := canon_atIssue (canon_iff.1 hs)
    cases bridge with
    | false =>
      obtain ⟨t, hm, ht⟩ := copyAct_values (w := w) (s := atIssue 0x51 w s) hc
      refine ⟨_, exec_acts rfl ha, ?_⟩
      rw [ht]
      exact ⟨rfl, hm.sp, hm.dram⟩
    | true =>
      obtain ⟨t, hm, ht⟩ := bridgeAct_values (w := w) (s := atIssue 0x54 w s) hc
      refine ⟨_, exec_acts rfl ha, ?_⟩
      rw [ht]
      exact ⟨rfl, hm.sp, hm.dram⟩
  case load =>
    intro w s hs ha s' c a k σ claim
    have hc : Canon s' := canon_atIssue (canon_iff.1 hs)
    refine ⟨fun hf => ?_, fun hne => ?_⟩
    · exact ⟨_, exec_acts rfl ha, loadAct_values hc hf⟩
    · obtain ⟨he, hlt⟩ := claimLines_taken hne
      refine ⟨_, exec_acts rfl ha, ?_⟩
      rw [loadAct_taken hne he]
      exact ⟨(rep_viols (rep_self hc)).only.queued _, fun b hb => fld_viols hc hlt b (.inl hb)⟩
  case store =>
    intro w s hs ha s' c addrs σ claim
    have hc : Canon s' := canon_atIssue (canon_iff.1 hs)
    refine ⟨fun hf => ?_, fun hne => ?_⟩
    · obtain ⟨hmem, hruns, hoff, hsp, hdram⟩ := movStoreAct_values hc hf
      refine ⟨_, exec_acts rfl ha, hmem, fun e => hruns ?_, fun e => hoff ?_, hsp, hdram⟩
      · rw [of_decide_eq_true (Bool.and_eq_true_iff.1 e).2, Bool.and_false]
      · rw [of_decide_eq_true (Bool.and_eq_true_iff.1 e).2, (Bool.and_eq_true_iff.1 e).1]
        rfl
    · obtain ⟨he, hlt⟩ := claimLines_taken hne
      refine ⟨_, exec_acts rfl ha, ?_⟩
      rw [movStoreAct_taken hne he]
      exact ⟨(rep_viols (rep_self hc)).only.queued _, fun b hb => fld_viols hc hlt b (.inl hb)⟩
  case capture =>
    intro w s hs ha s' c n ring head addrs sorted σ claim unit
    have hc : Canon s' := canon_atIssue (canon_iff.1 hs)
    refine ⟨fun hoff => ?_, fun hon hf => ?_⟩
    · exact ⟨_, exec_acts rfl ha, captureAct_off_values hc hoff⟩
    · exact ⟨_, exec_acts rfl ha, captureAct_on_values hc hon hf⟩

end Sys2Proof.Machine
end

section
/-! PROOFS. Loading, arming and halting a casting (R40, R41, R66, R67; logs 39, 84 and 107). -/
namespace Sys2Proof.Machine

/-! ### The state of the scheduler (R322) -/

section
variable {s t : State}

theorem setFld_same_status (h : Canon s) {v : Nat} (he : schState s = v) (k : Nat) :
    rd (setFld Reg.SCH_STATUS 3 0 v s) k = rd s k := by
  by_cases hk : k = Reg.SCH_STATUS
  · subst hk
    rw [rd_setFld h.regs _ _ _ (by decide)]
    apply Nat.eq_of_testBit_eq
    intro i
    rw [testBit_setBits]
    split
    next hi =>
      rw [← he, schState, fld_def, testBit_bits]
      simp only [Nat.zero_le, true_and] at hi
      simp [Nat.lt_succ_of_le hi]
    next => rfl
  · exact rd_setFld_ne h.regs _ _ _ hk

/-- A new state of the scheduler is reported by an event. -/
theorem setSchState_reports (h : Canon s) (v : Nat) : Rep (setFld Reg.SCH_STATUS 3 0 v s) (setSchState v s) := by
  unfold setSchState
  split
  next he => exact ⟨h.regs, { OnlyReports.rfl' s with regs := fun k _ => (setFld_same_status h he k).symm }⟩
  next => exact rep_event (rep_self (canon_setFld h))

theorem schState_setSchState (h : Canon s) {v : Nat} (hv : v < 16) : schState (setSchState v s) = v := by
  have hr := (setSchState_reports h v).only.regs Reg.SCH_STATUS (by decide)
  rw [schState, fld_def, hr, ← fld_def, fld_setFld h.regs _ _ _ (by decide)]
  exact Nat.mod_eq_of_lt hv

/-- The reject code stands beside the state. -/
theorem rejectCode_setSchState (h : Canon s) (v : Nat) :
    fld (setSchState v s) Reg.SCH_STATUS 11 4 = fld s Reg.SCH_STATUS 11 4 := by
  have hr := (setSchState_reports h v).only.regs Reg.SCH_STATUS (by decide)
  rw [fld_def, hr, ← fld_def, fld_setFld_ne h.regs _ _ _ (by decide) (.inr (by decide))]

theorem rd_setSchState (h : Canon s) {v k : Nat} (hk : k ≠ Reg.SCH_STATUS) (hr : reportKey k = false) :
    rd (setSchState v s) k = rd s k :=
  ((setSchState_reports h v).only.regs k hr).trans (rd_setFld_ne h.regs _ _ _ hk)

theorem event_run (etype code : Nat) (s : State) : (event etype code s).run = s.run := by
  unfold event
  split
  · rfl
  · exact each_keeps State.run (f := fun q s => sendPacket q 0x04 0 0 _ 0 true s) (fun _ _ => rfl) s

theorem setSchState_run (v : Nat) (s : State) : (setSchState v s).run = s.run := by
  unfold setSchState
  split
  · rfl
  · exact event_run ..

end

/-! ### CASTING_LOAD (R40, R66, R67) -/

section
variable {s t : State} {src : Source} {k : Nat}

theorem execCastingLoad_running (h : castingRuns s = true) : execCastingLoad src s = accState src Reg.SCH_CTRL s := by
  unfold execCastingLoad schOpen
  rw [h]
  rfl

/-- What an ingot's abandonment changes among the registers. -/
theorem loadHook_values (h : Canon s) : (loadHook s).cells = s.cells ∧ (loadHook s).dram = s.dram ∧
    ∀ k, k ≠ Reg.ING_STICKY → k ≠ Reg.ING_STATUS → reportKey k = false → rd (loadHook s) k = rd s k := by
  unfold loadHook abandon ingotRecord setStage
  split
  · have h1 : Canon (setFld Reg.ING_STATUS 2 0 0 (sticky Reg.ING_STICKY 2 s)) := canon_setFld (canon_sticky h)
    have hr := (rep_record (cls := 11) (loc := []) (first := rd (setFld Reg.ING_STATUS 2 0 0 (sticky Reg.ING_STICKY 2 s)) Reg.HLT_RISK)
      (rep_self h1)).only
    exact ⟨hr.cells, hr.dram, fun k hk hs hr' => (hr.regs k hr').trans
      ((rd_setFld_ne (canon_sticky h).regs _ _ _ hs).trans (rd_sticky_ne h.regs _ hk))⟩
  · exact ⟨rfl, rfl, fun _ _ _ _ => rfl⟩

/-- The load has begun: its state, and an ingot still being copied abandoned. -/
def loadBegun (s : State) : State := loadHook (setSchState 1 (setFld Reg.SCH_STATUS 11 4 0 s))

/-- Its registers restarted. -/
def loadRestarted (s : State) : State :=
  wr Reg.SCH_STAMP 0xF (setFld Reg.ING_STATUS 6 6 0 (wr Reg.SCH_LOG_READ 0 (wr Reg.SCH_LOG_HEAD 0 (wr Reg.SCH_DRAIN_WAITS 0 s))))

/-- The header read, and the cells cleared. -/
def loadCleared (s : State) : State :=
  mapCells castingClears { s with
    fab := { s.fab with worksCredit := [], freed := [] }
    casting := some (headerOf s (imageAddr s))
    run := { s.run with recBusy := [], faultAt := none, haltAt := none } }

theorem execCastingLoad_open (h : castingRuns s = false) : execCastingLoad src s =
    darkenOthers (loadCleared (loadRestarted (loadBegun s))) := by
  unfold execCastingLoad schOpen
  rw [h]
  rfl

/-- The registers that a load writes, ports and reports apart. -/
def loadKey (k : Nat) : Bool := [Reg.SCH_STATUS, Reg.ING_STICKY, Reg.ING_STATUS, Reg.SCH_DRAIN_WAITS, Reg.SCH_LOG_HEAD, Reg.SCH_LOG_READ,
  Reg.SCH_STAMP].contains k

theorem loadBegun_values (h : Canon s) : Canon (loadBegun s) ∧ (loadBegun s).cells = s.cells ∧ (loadBegun s).dram = s.dram ∧
    schState (loadBegun s) = 1 ∧ fld (loadBegun s) Reg.SCH_STATUS 11 4 = 0 ∧
    ∀ k, loadKey k = false → reportKey k = false → rd (loadBegun s) k = rd s k := by
  have h1 : Canon (setFld Reg.SCH_STATUS 11 4 0 s) := canon_setFld h
  have h2 : Canon (setSchState 1 (setFld Reg.SCH_STATUS 11 4 0 s)) := canon_setSchState h1
  have hrep := (setSchState_reports h1 1).only
  obtain ⟨hcells, hdram, hregs⟩ := loadHook_values h2
  have hst := hregs Reg.SCH_STATUS (by decide) (by decide) (by decide)
  refine ⟨canon_loadHook h2, hcells.trans hrep.cells, hdram.trans hrep.dram, ?_, ?_, fun k hk hr => ?_⟩
  · rw [schState, fld_def, loadBegun, hst, ← fld_def]
    exact schState_setSchState h1 (by decide)
  · rw [fld_def, loadBegun, hst, ← fld_def, rejectCode_setSchState h1 1, fld_setFld h.regs _ _ _ (by decide), Nat.zero_mod]
  · have hne : ∀ x, loadKey x = true → k ≠ x := fun x hx => (ne_of_key hx hk).symm
    refine (hregs k (hne _ (by decide)) (hne _ (by decide)) hr).trans ?_
    exact (rd_setSchState h1 (hne _ (by decide)) hr).trans (rd_setFld_ne h.regs _ _ _ (hne _ (by decide)))

theorem loadRestarted_values (h : Canon s) : Canon (loadRestarted s) ∧ rd (loadRestarted s) Reg.SCH_STAMP = 0xF ∧
    rd (loadRestarted s) Reg.SCH_LOG_HEAD = 0 ∧ rd (loadRestarted s) Reg.SCH_LOG_READ = 0 ∧ rd (loadRestarted s) Reg.SCH_DRAIN_WAITS = 0 ∧
    ∀ k, loadKey k = false ∨ k = Reg.SCH_STATUS → rd (loadRestarted s) k = rd s k := by
  have h1 : Canon (wr Reg.SCH_DRAIN_WAITS 0 s) := canon_wr h
  have h2 := canon_wr (k := Reg.SCH_LOG_HEAD) (v := 0) h1
  have h3 := canon_wr (k := Reg.SCH_LOG_READ) (v := 0) h2
  have h4 := canon_setFld (k := Reg.ING_STATUS) (hi := 6) (lo := 6) (v := 0) h3
  have hkeep : ∀ k, k ≠ Reg.SCH_STAMP → k ≠ Reg.ING_STATUS → rd (loadRestarted s) k =
      rd (wr Reg.SCH_LOG_READ 0 (wr Reg.SCH_LOG_HEAD 0 (wr Reg.SCH_DRAIN_WAITS 0 s))) k :=
    fun k ha hb => (rd_wr_ne h4.regs _ ha).trans (rd_setFld_ne h3.regs _ _ _ hb)
  refine ⟨canon_wr h4, rd_wr h4.regs _ _, ?_, ?_, ?_, fun k hk => ?_⟩
  · rw [hkeep _ (by decide) (by decide), rd_wr_ne h2.regs _ (by decide), rd_wr h1.regs, Nat.zero_mod]
  · rw [hkeep _ (by decide) (by decide), rd_wr h2.regs, Nat.zero_mod]
  · rw [hkeep _ (by decide) (by decide), rd_wr_ne h2.regs _ (by decide), rd_wr_ne h1.regs _ (by decide), rd_wr h.regs, Nat.zero_mod]
  · have hne : ∀ x, loadKey x = true → x ≠ Reg.SCH_STATUS → k ≠ x := by
      rintro x hx hs rfl
      rcases hk with hk | hk
      · rw [hx] at hk
        cases hk
      · exact hs hk
    rw [hkeep k (hne _ (by decide) (by decide)) (hne _ (by decide) (by decide)), rd_wr_ne h2.regs _ (hne _ (by decide) (by decide)),
      rd_wr_ne h1.regs _ (hne _ (by decide) (by decide)), rd_wr_ne h.regs _ (hne _ (by decide) (by decide))]

/-- A restart writes registers alone. -/
theorem loadRestarted_frame (s : State) : (loadRestarted s).dram = s.dram ∧ (loadRestarted s).cells = s.cells := ⟨rfl, rfl⟩

/-! #### The cells are cleared, and the ports outside the mask go dark -/

/-- A key reads as the image of what it read, where the default is its own image. -/
theorem get_mapVals {α : Type} [DecidableEq α] {d : α} {f : α → α} (hf : f d = d) {m : SMap α} {lo : Nat}
    (h : wfFrom (fun _ => d) lo m = true) (k : Nat) : get (fun _ => d) (mapVals d f m) k = f (get (fun _ => d) m k) := by
  induction m generalizing lo with
  | nil => exact hf.symm
  | cons p r ih =>
    obtain ⟨j, v⟩ := p
    have hr := ((wfFrom_cons ..).1 h).2.2
    have hout : k ≤ j → get (fun _ => d) (mapVals d f r) k = d := fun hk => get_below (Nat.lt_succ_of_le hk) (wfFrom_mapVals hr)
    by_cases hv : f v = d
    · have hm : mapVals d f ((j, v) :: r) = mapVals d f r := by simp [mapVals, hv]
      rw [hm, get]
      split
      next hk => rw [hout hk.le, hv]
      next =>
        split
        next hk => rw [hout hk.le, hf]
        next => exact ih hr
    · have hm : mapVals d f ((j, v) :: r) = (j, f v) :: mapVals d f r := by simp [mapVals, hv]
      rw [hm, get, get]
      split
      · rfl
      · split
        · exact hf.symm
        · exact ih hr

theorem cellAt_mapCells {f : Cell → Cell} (hf : f Cell.init = Cell.init) (h : wf (fun _ => Cell.init) s.cells = true) (c : Nat) :
    cellAt (mapCells f s) c = f (cellAt s c) := get_mapVals hf h c

/-- What a state keeps while ports outside the casting's mask go dark. -/
structure PortsDark (s t : State) : Prop where
  canon : Canon t
  cells : t.cells = s.cells
  dram : t.dram = s.dram
  casting : t.casting = s.casting
  run : t.run = s.run
  regs : ∀ k, k < 2 ^ 40 → rd t k = rd s k

theorem portsDark_darken (h : PortsDark s t) (p : Nat) : PortsDark s (darken p t) := by
  have hd : PortsDark s (if portLasers t p then emit (.ctrl p 6 []) t else t) := by
    split
    · exact { h with canon := canon_emit h.canon }
    · exact h
  have hc : Canon (darken p t) := canon_darken h.canon
  unfold darken at *
  generalize (if portLasers t p then emit (.ctrl p 6 []) t else t) = u at *
  exact ⟨hc, hd.cells, hd.dram, hd.casting, hd.run, fun k hk =>
    (rd_portDark_ne hd.canon (bankKey_ne_of_package hk _ _) 7).trans (hd.regs k hk)⟩

theorem portsDark_darkenOthers (h : Canon s) : PortsDark s (darkenOthers s) :=
  each_inv (PortsDark s) (fun p _ t ht => by
    split
    · split
      · exact ht
      · exact portsDark_darken ht p
    · exact portsDark_darken ht p) ⟨h, rfl, rfl, rfl, rfl, fun _ _ => rfl⟩

theorem headerOf_congr (h : t.dram = s.dram) (a : Nat) : headerOf t a = headerOf s a := by
  simp only [headerOf, directoryOf, dramNat, dramGet, dramByte, markOf, h]

theorem loadCleared_values (h : Canon s) : (loadCleared s).dram = s.dram ∧ (loadCleared s).run.haltAt = none ∧
    (loadCleared s).run.faultAt = none ∧ (loadCleared s).casting = some (headerOf s (imageAddr s)) ∧
    (∀ k, rd (loadCleared s) k = rd s k) ∧ ∀ c, cellAt (loadCleared s) c = castingClears (cellAt s c) :=
  ⟨rfl, rfl, rfl, rfl, fun _ => rfl, cellAt_mapCells rfl h.cells⟩

theorem castingLoad_values (h : Canon s) {t : State} (ht : darkenOthers (loadCleared (loadRestarted (loadBegun s))) = t) :
    schState t = 1 ∧ fld t Reg.SCH_STATUS 11 4 = 0 ∧ t.casting = some (headerOf s (imageAddr s)) ∧ rd t Reg.SCH_STAMP = 0xF ∧
    rd t Reg.SCH_LOG_HEAD = 0 ∧ rd t Reg.SCH_LOG_READ = 0 ∧ rd t Reg.SCH_DRAIN_WAITS = 0 ∧
    (∀ c, cellAt t c = castingClears (cellAt s c)) ∧ t.dram = s.dram ∧ t.run.haltAt = none ∧ t.run.faultAt = none := by
  obtain ⟨hb, hcells, hdram, hst, hcode, hregs⟩ := loadBegun_values h
  obtain ⟨hr, hstamp, hhead, hread, hwaits, hkeep⟩ := loadRestarted_values hb
  have hclear : Canon (loadCleared (loadRestarted (loadBegun s))) := canon_mapCells (fun _ => cellCanon_castingClears) (canon_mk hr)
  obtain ⟨hdc, hhalt, hfault, hcast, hrc, hcc⟩ := loadCleared_values hr
  have hp : PortsDark (loadCleared (loadRestarted (loadBegun s))) t := by
    rw [← ht]
    exact portsDark_darkenOthers hclear
  have hdr : (loadRestarted (loadBegun s)).dram = s.dram := (loadRestarted_frame _).1.trans hdram
  have hrd : ∀ k, k < 2 ^ 40 → rd t k = rd (loadRestarted (loadBegun s)) k := fun k hk => (hp.regs k hk).trans (hrc k)
  have hstatus : rd t Reg.SCH_STATUS = rd (loadBegun s) Reg.SCH_STATUS := (hrd _ (by decide)).trans (hkeep _ (.inr rfl))
  have himage : imageAddr (loadRestarted (loadBegun s)) = imageAddr s := by
    rw [imageAddr, hkeep _ (.inl (by decide)), hkeep _ (.inl (by decide)), hregs _ (by decide) (by decide), hregs _ (by decide) (by decide),
      imageAddr]
  refine ⟨?_, ?_, ?_, (hrd _ (by decide)).trans hstamp, (hrd _ (by decide)).trans hhead, (hrd _ (by decide)).trans hread,
    (hrd _ (by decide)).trans hwaits, fun c => ?_, hp.dram.trans (hdc.trans hdr), ?_, ?_⟩
  · rw [schState, fld_def, hstatus]
    exact hst
  · rw [fld_def, hstatus]
    exact hcode
  · rw [hp.casting, hcast, himage, headerOf_congr hdr]
  · rw [cellAt_congr hp.cells, hcc]
    exact congrArg castingClears (cellAt_congr (s := s) ((loadRestarted_frame _).2.trans hcells) c)
  · rw [hp.run, hhalt]
  · rw [hp.run, hfault]

end

/-! ### CASTING_LOAD_COMPLETE (R40) -/

section
variable {s t : State}

/-- What the checks of a load and the copies that a passed load makes leave alone. -/
def checkedView (s : State) : SMap Cell × Option Casting := (s.cells, s.casting)

theorem keptByWrites_checkedView {v : SMap Cell × Option Casting} : KeptByWrites fun s => checkedView s = v := keptByWrites_view

/-- What reads keep, the checks keep. -/
theorem runChecks_kept {P : State → Prop} (hP : KeptByReads P) (l : List ((State → List (Nat × Nat)) × Nat × (State → Bool))) (h : P s) :
    P (runChecks l s).2 := by
  have hspans : ∀ (spans : List (Nat × Nat)) (b : Bool) (s : State), P s →
      P (spans.foldl (fun (a : Bool × State) (b : Nat × Nat) => let y := readSpan b.1 b.2 a.2; (a.1 && y.1, y.2)) (b, s)).2 := by
    intro spans
    induction spans with
    | nil => exact fun _ _ h => h
    | cons x spans ih => exact fun b s h => ih _ _ (hP.readSpan _ _ h)
  induction l generalizing s with
  | nil => exact h
  | cons c l ih =>
    obtain ⟨spans, code, ok⟩ := c
    have h1 := hspans (spans s) true s h
    rw [runChecks]
    dsimp only
    split
    · exact h1
    · split
      · exact ih h1
      · exact h1

/-- The code of a failed check is 7 or the check's own. -/
theorem runChecks_code (l : List ((State → List (Nat × Nat)) × Nat × (State → Bool))) (s : State) :
    (runChecks l s).1 = 0 ∨ (runChecks l s).1 = 7 ∨ ∃ c ∈ l, (runChecks l s).1 = c.2.1 := by
  induction l generalizing s with
  | nil => exact .inl rfl
  | cons c l ih =>
    obtain ⟨spans, code, ok⟩ := c
    rw [runChecks]
    dsimp only
    split
    · exact .inr (.inl rfl)
    · split
      · rcases ih ((spans s).foldl (fun (a : Bool × State) (b : Nat × Nat) => let y := readSpan b.1 b.2 a.2; (a.1 && y.1, y.2)) (true, s)).2
          with h | h | ⟨c, hc, h⟩
        · exact .inl h
        · exact .inr (.inl h)
        · exact .inr (.inr ⟨c, List.mem_cons_of_mem _ hc, h⟩)
      · exact .inr (.inr ⟨_, List.mem_cons_self, rfl⟩)

theorem loadChecks_code_lt (s : State) : (runChecks loadChecks s).1 < 256 := by
  have hall : ∀ c ∈ loadChecks.map fun c => c.2.1, c < 256 := by decide
  rcases runChecks_code loadChecks s with h | h | ⟨c, hc, h⟩
  · omega
  · omega
  · rw [h]
    exact hall _ (List.mem_map.2 ⟨c, hc, rfl⟩)

/-! #### Reading delivers the same bytes again -/

/-- DRAM delivers the same bytes, and is in canonical form. -/
structure SameBytes (z t : State) : Prop where
  bytes : wf noByte t.dram.bytes = true
  marks : wf (fun _ => 0) t.dram.marks = true
  same : ∀ a, a < 2 ^ 39 → dramByte t a = dramByte z a

theorem dramByte_dram (h : t.dram = s.dram) (a : Nat) : dramByte t a = dramByte s a := by simp only [dramByte, markOf, h]

theorem dramByte_clean {a : Nat} (h : markOf s (a / 64) = 0) : dramByte s a = get noByte s.dram.bytes a := by
  unfold dramByte
  rw [h]
  rfl

theorem scrubbed_dram (a : Nat) (s : State) : (scrubbed a s).dram =
    ⟨putBytes noByte s.dram.bytes (lineOf a * 64 % 2 ^ 39) (dramGet s (lineOf a * 64) 64), put (fun _ => 0) s.dram.marks (lineOf a) 0⟩ := by
  simp only [scrubbed, setMark, dramPut]

theorem dramGet_length (s : State) (a n : Nat) : (dramGet s a n).length = n := by simp [dramGet]

/-- A line written back as it was read delivers what it did. -/
theorem sameBytes_scrubbed {z : State} {a : Nat} (h : SameBytes z s) : SameBytes z (scrubbed a s) := by
  obtain ⟨hb, hm, hs⟩ := h
  have hlt : lineOf a * 64 + 64 ≤ 2 ^ 39 := by
    unfold lineOf
    omega
  have hline : lineOf a * 64 % 2 ^ 39 = lineOf a * 64 := Nat.mod_eq_of_lt (by omega)
  have hlen := dramGet_length s (lineOf a * 64) 64
  have hval : ∀ i, i < 64 → (dramGet s (lineOf a * 64) 64)[i]? = some (dramByte s (lineOf a * 64 + i)) := by
    intro i hi
    simp only [dramGet, List.getElem?_map, List.getElem?_range hi, Option.map_some, hline]
  have hdram := scrubbed_dram a s
  rw [hline] at hdram
  generalize dramGet s (lineOf a * 64) 64 = data at *
  refine ⟨by rw [hdram]; exact wf_putBytes hb, by rw [hdram]; exact wf_put hm, fun k hk => (Eq.trans ?_ (hs k hk))⟩
  have hmarks : ∀ l, markOf (scrubbed a s) l = get (fun _ => 0) (put (fun _ => 0) s.dram.marks (lineOf a) 0) l := fun l => by
    rw [markOf, hdram]
  have hbytes : (scrubbed a s).dram.bytes = putBytes noByte s.dram.bytes (lineOf a * 64) data := by rw [hdram]
  by_cases hkl : k / 64 = lineOf a
  · obtain ⟨i, hi, rfl⟩ : ∃ i, i < 64 ∧ k = lineOf a * 64 + i := ⟨k - lineOf a * 64, by omega, by omega⟩
    have hmark : markOf (scrubbed a s) ((lineOf a * 64 + i) / 64) = 0 := by
      rw [hmarks, hkl]
      exact get_put hm
    have hget := get_putBytes_in (a := lineOf a * 64) hb i (by rw [hlen]; exact hi)
    have hi' := hval i hi
    rw [List.getElem?_eq_getElem (by rw [hlen]; exact hi), Option.some.injEq] at hi'
    rw [dramByte_clean hmark, hbytes, hget, hi']
  · have hmark : markOf (scrubbed a s) (k / 64) = markOf s (k / 64) := by
      rw [hmarks]
      exact get_put_ne hm hkl
    have hout : get noByte (scrubbed a s).dram.bytes k = get noByte s.dram.bytes k := by
      rw [hbytes]
      exact get_putBytes_out hb (by rw [hlen]; omega)
    unfold dramByte
    rw [hmark, hout]

theorem keptByReads_sameBytes {z : State} : KeptByReads (SameBytes z) :=
  ⟨⟨fun _ h => ⟨h.bytes, h.marks, h.same⟩, fun h => ⟨h.bytes, h.marks, h.same⟩⟩, fun _ h => ⟨h.bytes, h.marks, h.same⟩,
    fun h => ⟨h.bytes, h.marks, h.same⟩, sameBytes_scrubbed⟩

/-! #### The outcome of the checks -/

/-- The checks of a load, on the casting that the header describes. -/
def loadChecked (s : State) : Nat × State := runChecks loadChecks { s with casting := some (headerOf s (imageAddr s)) }

theorem loadChecked_values (h : Canon s) : checkedView (loadChecked s).2 = (s.cells, some (headerOf s (imageAddr s))) ∧
    rd (loadChecked s).2 Reg.SCH_STATUS = rd s Reg.SCH_STATUS ∧ SameBytes s (loadChecked s).2 :=
  ⟨runChecks_kept keptByWrites_checkedView.toKeptByReads _ rfl,
    (runChecks_kept (keptByWrites_held (by decide) (by decide)).toKeptByReads _
      (held_of_canon (s := { s with casting := some (headerOf s (imageAddr s)) }) (canon_mk h) Reg.SCH_STATUS)).val,
    runChecks_kept keptByReads_sameBytes _ ⟨h.bytes, h.marks, fun _ _ => rfl⟩⟩

theorem canon_loadChecked (h : Canon s) : Canon (loadChecked s).2 := canon_runChecks (canon_mk h)

/-- The streams and the working table copied, the hash kept. -/
def loadCopied (s : State) : State :=
  each (List.range 8) (fun i t => wr (Reg.SCH_CASTING_HASH + 4 * i)
    (leNat (((digest (dramGet s (s.casting.getD ⟨0, 0, 0, 0, false, []⟩).addr (s.casting.getD ⟨0, 0, 0, 0, false, []⟩).len)).drop (4 * i)).take 4)) t)
    (copyStreams s)

theorem loadPassed_eq (s : State) : loadPassed s = setSchState 2 (loadCopied s) := rfl

theorem loadCopied_kept {P : State → Prop} (hP : KeptByWrites P)
    (hw : ∀ i, i < 8 → ∀ v s, P s → P (wr (Reg.SCH_CASTING_HASH + 4 * i) v s)) (h : P s) : P (loadCopied s) :=
  each_inv P (fun i hi _ ht => hw i (List.mem_range.1 hi) _ _ ht) (each_inv P (fun _ _ _ ht => hP.asyncWrite _ _ ht) h)

theorem loadCopied_values (h : Canon s) : checkedView (loadCopied s) = checkedView s ∧ Canon (loadCopied s) :=
  ⟨loadCopied_kept keptByWrites_checkedView (fun _ _ _ _ ht => ht) rfl,
    canon_each (fun _ _ => canon_wr) (canon_copyStreams h)⟩

theorem checkedView_setSchState (h : Canon s) (v : Nat) : checkedView (setSchState v s) = checkedView s := by
  have hr := (setSchState_reports h v).only
  rw [checkedView, hr.cells, hr.casting]
  rfl

theorem execCastingLoadComplete_passes (hs : schState s = 1) (hr : (loadChecked s).1 = 0) :
    execCastingLoadComplete s = loadPassed (loadChecked s).2 := by
  unfold execCastingLoadComplete
  rw [if_neg (not_not.2 hs)]
  exact if_pos hr

theorem execCastingLoadComplete_fails (hs : schState s = 1) (hr : (loadChecked s).1 ≠ 0) : execCastingLoadComplete s =
    setSchState 7 (setFld Reg.SCH_STATUS 11 4 (loadChecked s).1 { (loadChecked s).2 with casting := none }) := by
  unfold execCastingLoadComplete
  rw [if_neg (not_not.2 hs)]
  exact if_neg hr

theorem castingLoadComplete_passes_values (h : Canon s) (hs : schState s = 1) (hr : (loadChecked s).1 = 0) :
    (execCastingLoadComplete s).cells = s.cells ∧ schState (execCastingLoadComplete s) = 2 ∧
    (execCastingLoadComplete s).casting = some (headerOf s (imageAddr s)) := by
  obtain ⟨hv, -, -⟩ := loadChecked_values h
  obtain ⟨hcopy, hcanon⟩ := loadCopied_values (canon_loadChecked h)
  have hview := ((checkedView_setSchState hcanon 2).trans hcopy).trans hv
  have hst := schState_setSchState hcanon (v := 2) (by decide)
  rw [execCastingLoadComplete_passes hs hr, loadPassed_eq]
  simp only [checkedView, Prod.mk.injEq] at hview
  obtain ⟨hcells, hcast⟩ := hview
  exact ⟨hcells, hst, hcast⟩

theorem castingLoadComplete_fails_values (h : Canon s) (hs : schState s = 1) (hr : (loadChecked s).1 ≠ 0) :
    (execCastingLoadComplete s).cells = s.cells ∧ schState (execCastingLoadComplete s) = 7 ∧
    fld (execCastingLoadComplete s) Reg.SCH_STATUS 11 4 = (loadChecked s).1 ∧ (execCastingLoadComplete s).casting = none ∧
    ∀ a, a < 2 ^ 39 → dramByte (execCastingLoadComplete s) a = dramByte s a := by
  obtain ⟨hv, -, hsame⟩ := loadChecked_values h
  have hc : Canon { (loadChecked s).2 with casting := none } := canon_mk (canon_loadChecked h)
  have hf := canon_setFld (k := Reg.SCH_STATUS) (hi := 11) (lo := 4) (v := (loadChecked s).1) hc
  have hrep := (setSchState_reports hf 7).only
  have hlt : (loadChecked s).1 < 256 := loadChecks_code_lt _
  rw [execCastingLoadComplete_fails hs hr]
  simp only [checkedView, Prod.mk.injEq] at hv
  obtain ⟨hcells, -⟩ := hv
  generalize loadChecked s = z at *
  refine ⟨hrep.cells.trans hcells, schState_setSchState hf (by decide), ?_, hrep.casting, fun a ha => ?_⟩
  · rw [rejectCode_setSchState hf 7, fld_setFld hc.regs _ _ _ (by decide)]
    exact Nat.mod_eq_of_lt hlt
  · exact (dramByte_dram hrep.dram a).trans (hsame.same a ha)

end

/-! ### ARM and HALT (R42, R66, R216) -/

section
variable {s t : State} {src : Source}

/-- The registers of the step, the batch and the stamps at the arm. -/
def armStart (s : State) : State := armStamps (wr Reg.HST_INTAKE_BATCH (rd s Reg.HST_INTAKE_FIRST) (wr Reg.SCH_STEP 0 s))

/-- The rewinds forgotten, and the warden named. -/
def armWarden (s : State) : State :=
  let s := setFld Reg.SCH_OUTCOME 7 3 0 s
  setFld Reg.ING_STATUS 5 5 (if wardenAddr s = ownAddr s then 1 else 0) (wr Reg.ING_WARDEN (wardenAddr s) s)

/-- The run and the age of the ingot begin anew. -/
def armFresh (s : State) : State :=
  let s := { s with run := freshRun s.run }
  if s.ing.secured then s else ageRestart (some s.time.mandrel.toNat) s

theorem execArm_arms (hs : schState s = 2) (hr : castingRuns s = false) (h1 : startTick s % 65536 = 0) (h2 : now s + 65536 ≤ startTick s)
    (h3 : intakeBad s = false) (h4 : portsUp s = true) (h5 : groupNamesOwn s = true) :
    execArm src s = setSchState 3 (armFresh (armWarden (armStart s))) := by
  have hstart : ¬ (startTick s % 65536 ≠ 0 ∨ startTick s < now s + 65536) := by omega
  unfold execArm
  rw [if_neg (by rw [hr]; exact Bool.false_ne_true), if_neg (not_not.2 hs), if_neg hstart, if_neg (by rw [h3]; exact Bool.false_ne_true),
    if_neg (by rw [h4]; exact Bool.false_ne_true), if_neg (by rw [h5]; exact Bool.false_ne_true)]
  rfl

theorem execArm_refused (hs : schState s = 2) (hr : castingRuns s = false) (h : startTick s % 65536 ≠ 0 ∨ startTick s < now s + 65536) :
    execArm src s = setFld Reg.SCH_STATUS 11 4 6 s := by
  unfold execArm
  rw [if_neg (by rw [hr]; exact Bool.false_ne_true), if_neg (not_not.2 hs), if_pos h]

/-- The stamp of a buffer that is set, and of the other one. -/
theorem stampOf_setStamp (h : wf regDefault s.regs = true) {x : Nat} (hx : x < 2) (v : Nat) : stampOf (setStamp x v s) x = v % 4 := by
  have hw : 2 * x + 1 + 1 - 2 * x = 2 := by omega
  rw [stampOf, setStamp, fld_setFld h _ _ _ (by omega), hw]
  rfl

theorem stampOf_setStamp_ne (h : wf regDefault s.regs = true) {x y : Nat} (hx : x < 2) (hne : y ≠ x) (v : Nat) :
    stampOf (setStamp x v s) y = stampOf s y := by
  rw [stampOf, setStamp, fld_setFld_ne h _ _ _ (by omega) (by omega), stampOf]

theorem armStart_values (h : Canon s) : Canon (armStart s) ∧ rd (armStart s) Reg.SCH_STEP = 0 ∧
    rd (armStart s) Reg.HST_INTAKE_BATCH = rd s Reg.HST_INTAKE_FIRST ∧ stampOf (armStart s) (version s % 2) = 0 ∧
    stampOf (armStart s) (1 - version s % 2) = 3 := by
  have h1 : Canon (wr Reg.SCH_STEP 0 s) := canon_wr h
  have h2 := canon_wr (k := Reg.HST_INTAKE_BATCH) (v := rd s Reg.HST_INTAKE_FIRST) h1
  have hver : version (wr Reg.HST_INTAKE_BATCH (rd s Reg.HST_INTAKE_FIRST) (wr Reg.SCH_STEP 0 s)) = version s := by
    rw [version, rd_wr_ne h1.regs _ (by decide), rd_wr_ne h.regs _ (by decide), version]
  have hstart : armStart s = setStamp (1 - version s % 2) 3 (setStamp (version s % 2) 0
      (wr Reg.HST_INTAKE_BATCH (rd s Reg.HST_INTAKE_FIRST) (wr Reg.SCH_STEP 0 s))) := by
    rw [armStart, armStamps, hver]
  have hx : version s % 2 < 2 := Nat.mod_lt _ (by decide)
  generalize version s % 2 = x at hstart hx ⊢
  have h3 := canon_setStamp (x := x) (v := 0) h2
  have hkeep : ∀ k, k ≠ Reg.SCH_STAMP →
      rd (armStart s) k = rd (wr Reg.HST_INTAKE_BATCH (rd s Reg.HST_INTAKE_FIRST) (wr Reg.SCH_STEP 0 s)) k := fun k hk => by
    rw [hstart]
    exact (rd_setFld_ne h3.regs _ _ _ hk).trans (rd_setFld_ne h2.regs _ _ _ hk)
  refine ⟨hstart ▸ canon_setStamp h3, ?_, ?_, ?_, ?_⟩
  · rw [hkeep _ (by decide), rd_wr_ne h1.regs _ (by decide), rd_wr h.regs, Nat.zero_mod]
  · rw [hkeep _ (by decide), rd_wr h1.regs, Nat.mod_eq_of_lt (rd_lt s _)]
  · rw [hstart, stampOf_setStamp_ne h3.regs (by omega) (by omega), stampOf_setStamp h2.regs hx]
  · rw [hstart, stampOf_setStamp h3.regs (by omega)]

theorem armWarden_values (h : Canon s) : Canon (armWarden s) ∧
    ∀ k, k ≠ Reg.SCH_OUTCOME → k ≠ Reg.ING_WARDEN → k ≠ Reg.ING_STATUS → rd (armWarden s) k = rd s k := by
  have h1 : Canon (setFld Reg.SCH_OUTCOME 7 3 0 s) := canon_setFld h
  have h2 := canon_wr (k := Reg.ING_WARDEN) (v := wardenAddr (setFld Reg.SCH_OUTCOME 7 3 0 s)) h1
  exact ⟨canon_setFld h2, fun k ha hb hc => (rd_setFld_ne h2.regs _ _ _ hc).trans ((rd_wr_ne h1.regs _ hb).trans (rd_setFld_ne h.regs _ _ _ ha))⟩

theorem armFresh_values (s : State) : (armFresh s).regs = s.regs ∧ (armFresh s).run = freshRun s.run ∧ (armFresh s).cells = s.cells ∧
    (armFresh s).dram = s.dram ∧ (armFresh s).flights = s.flights := by
  unfold armFresh
  dsimp only
  split <;> exact ⟨rfl, rfl, rfl, rfl, rfl⟩

/-- Before the run begins anew, ARM writes registers only. -/
theorem armStart_keeps (s : State) : (armStart s).run = s.run ∧ (armStart s).cells = s.cells ∧ (armStart s).dram = s.dram ∧
    (armStart s).flights = s.flights := ⟨rfl, rfl, rfl, rfl⟩

theorem armWarden_keeps (s : State) : (armWarden s).run = s.run ∧ (armWarden s).cells = s.cells ∧ (armWarden s).dram = s.dram ∧
    (armWarden s).flights = s.flights := ⟨rfl, rfl, rfl, rfl⟩

theorem armFromLoaded_values (h : Canon s) : let t := setSchState 3 (armFresh (armWarden (armStart s)))
    schState t = 3 ∧ rd t Reg.SCH_STEP = 0 ∧ rd t Reg.HST_INTAKE_BATCH = rd s Reg.HST_INTAKE_FIRST ∧ stampOf t (version s % 2) = 0 ∧
    stampOf t (1 - version s % 2) = 3 ∧ t.run = freshRun s.run ∧ t.cells = s.cells ∧ t.dram = s.dram ∧ t.flights = s.flights := by
  obtain ⟨ha, hstep, hbatch, hold, hnew⟩ := armStart_values h
  obtain ⟨hw, hkeep⟩ := armWarden_values ha
  obtain ⟨hregs, hrun, hcells, hdram, hflights⟩ := armFresh_values (armWarden (armStart s))
  obtain ⟨hrun1, hcells1, hdram1, hflights1⟩ := armStart_keeps s
  obtain ⟨hrun2, hcells2, hdram2, hflights2⟩ := armWarden_keeps (armStart s)
  have hc : Canon (armFresh (armWarden (armStart s))) := canon_congr hw hregs hdram hcells
  generalize armFresh (armWarden (armStart s)) = u at *
  generalize armWarden (armStart s) = v at *
  generalize armStart s = x at *
  intro t
  have hrep := (setSchState_reports hc 3).only
  have hrd : ∀ k, k ≠ Reg.SCH_STATUS → reportKey k = false → k ≠ Reg.SCH_OUTCOME → k ≠ Reg.ING_WARDEN → k ≠ Reg.ING_STATUS →
      rd t k = rd x k := fun k h1 h2 h3 h4 h5 =>
    (rd_setSchState hc h1 h2).trans ((rd_congr hregs k).trans (hkeep k h3 h4 h5))
  have hstamp : ∀ i, stampOf t i = stampOf x i := fun i => by
    rw [stampOf, fld_def, hrd _ (by decide) (by decide) (by decide) (by decide) (by decide), ← fld_def, stampOf]
  rw [hrun2, hrun1] at hrun
  refine ⟨schState_setSchState hc (by decide), ?_, ?_, (hstamp _).trans hold, (hstamp _).trans hnew, (setSchState_run 3 _).trans hrun,
    hrep.cells.trans (hcells.trans (hcells2.trans hcells1)), hrep.dram.trans (hdram.trans (hdram2.trans hdram1)),
    hrep.flights.trans (hflights.trans (hflights2.trans hflights1))⟩
  · exact (hrd _ (by decide) (by decide) (by decide) (by decide) (by decide)).trans hstep
  · exact (hrd _ (by decide) (by decide) (by decide) (by decide) (by decide)).trans hbatch

theorem armRefused_values (h : Canon s) (hs : schState s = 2) : let t := setFld Reg.SCH_STATUS 11 4 6 s
    schState t = 2 ∧ fld t Reg.SCH_STATUS 11 4 = 6 ∧ t.run = s.run ∧ (∀ k, k ≠ Reg.SCH_STATUS → rd t k = rd s k) ∧ t.cells = s.cells ∧
    t.dram = s.dram :=
  ⟨(fld_setFld_ne h.regs _ _ _ (by decide) (.inl (by decide))).trans hs, fld_setFld h.regs _ _ _ (by decide), rfl,
    fun _ hk => rd_setFld_ne h.regs _ _ _ hk, rfl, rfl⟩

/-- No casting runs that is LOADED. -/
theorem castingRuns_loaded (hs : schState s = 2) : castingRuns s = false := by
  unfold castingRuns
  rw [hs]
  rfl

theorem execHalt_marked (hr : castingRuns s = true) (hn : s.run.haltAt = none) :
    execHalt src s = { s with run := { s.run with haltAt := some (now s) } } := if_pos ⟨hr, hn⟩

theorem execHalt_idle (hr : castingRuns s = false) : execHalt src s = s := if_neg fun e => by
  rw [hr] at e
  exact Bool.false_ne_true e.1

end

/-- Settles O16: the load, its checks and the arm are followed from one register write to the next; the halt is a mark. -/
theorem castingsLoadAndArm : Obligations.CastingsLoadAndArm := by
  unfold Obligations.CastingsLoadAndArm
  refine ⟨?load, ?complete, ?arm⟩
  case load =>
    intro src x hx hreset s
    have h : Canon s := canon_arrive (canon_iff.1 hx)
    refine ⟨fun hr => ?_, fun hr => accState_reports (canon_iff.1 hx) hreset rfl (execCastingLoad_running hr)⟩
    refine ⟨_, accessed_open hreset _, ?_⟩
    rw [execCastingLoad_open hr]
    generalize ht : darkenOthers (loadCleared (loadRestarted (loadBegun (arrive x)))) = t
    obtain ⟨hst, hcode, hcast, hstamp, hhead, hread, hwaits, hcells, hdram, hhalt, hfault⟩ := castingLoad_values h ht
    refine ⟨hst, hcode, hcast, hstamp, hhead, hread, hwaits, fun c => ?_, hdram, hhalt, hfault⟩
    rw [cellAt_withQueue, hcells c]
    exact ⟨rfl, rfl, rfl, rfl, rfl, rfl⟩
  case complete =>
    intro s hs r
    have h : Canon s := canon_iff.1 hs
    refine ⟨fun hst => ⟨_, rfl, ?_⟩, fun hst => served_unchanged (if_pos hst)⟩
    by_cases hr : r.1 = 0
    · obtain ⟨hcells, hstate, hcast⟩ := castingLoadComplete_passes_values h hst hr
      rw [if_pos hr]
      exact ⟨hcells, hstate, hcast⟩
    · obtain ⟨hcells, hfails⟩ := castingLoadComplete_fails_values h hst hr
      rw [if_neg hr]
      exact ⟨hcells, hfails⟩
  case arm =>
    intro src x hx hreset s
    have h : Canon s := canon_arrive (canon_iff.1 hx)
    refine ⟨?arms, ?refused, ?halts, ?idle⟩
    case arms =>
      intro hst h1 h2 h3 h4 h5
      refine ⟨_, accessed_open hreset _, ?_⟩
      rw [execArm_arms hst (castingRuns_loaded hst) h1 h2 h3 h4 h5]
      exact armFromLoaded_values h
    case refused =>
      intro hst hstart
      refine ⟨_, accessed_open hreset _, ?_⟩
      rw [execArm_refused hst (castingRuns_loaded hst) hstart]
      exact armRefused_values h hst
    case halts =>
      intro hr hn
      refine ⟨_, accessed_open hreset _, ?_⟩
      rw [execHalt_marked hr hn]
      exact ⟨rfl, rfl, rfl, rfl, rfl⟩
    case idle =>
      intro hr
      refine (accessed_open hreset _).trans ?_
      rw [execHalt_idle hr, withQueue_arrive]

end Sys2Proof.Machine
end

section
/-! PROOFS. Notices, codewords and slot tags (R274, R275, R292 to R294, R303, R304, R346; log 95). -/
namespace Sys2Proof.Machine

/-! ### Registers of ports, and bits once set -/

/-- No report writes a register of a port or another entry, packets of queue pairs apart. -/
theorem reportKey_bankKey {a p : Nat} (ha : a ≠ Reg.HST_QP_CTX0 + 8) (hp : p < 2 ^ 20) : reportKey (bankKey a p) = false := by
  have hlt : ∀ k ∈ [Reg.SCH_VIOL, Reg.SCH_VIOL_FIRST, Reg.SCH_VIOL_TICK, Reg.HLT_TAINT, Reg.HLT_TAINT_TICK, Reg.HLT_TAINT_WHERE,
      Reg.HLT_LATE_TAINTS, Reg.HLT_AREC_SEQ_LO, Reg.HLT_AREC_QUEUE, Reg.HLT_AREC_DROPS, Reg.HLT_JRNL_HEAD, Reg.HLT_JRNL_DROPS,
      Reg.HLT_STICKY0, Reg.HLT_ACC_FIRST, Reg.HST_EVT_DROPS], k < 2 ^ 40 := by decide
  have hdiv : (bankKey a p - 2 ^ 40) / 2 ^ 20 = a := by
    unfold bankKey
    omega
  unfold reportKey
  rw [hdiv, decide_eq_false ha, Bool.or_false, List.contains_eq_mem, decide_eq_false_iff_not]
  intro hm
  have := hlt _ hm
  unfold bankKey at this
  omega

section
variable {s t z : State}

/-- A bit that stands still stands when another one is set. -/
theorem fld_sticky_keeps (h : wf regDefault s.regs = true) {k b c : Nat} (hc : c < 32) (hb : fld s k b b = 1) : fld (sticky k c s) k b b = 1 := by
  rw [fld_def] at hb ⊢
  rw [rd_sticky h _ hc]
  have h0 := congrArg (fun x => x.testBit 0) hb
  simp only [testBit_bits, Nat.add_zero] at h0
  refine Nat.eq_of_testBit_eq fun i => ?_
  have hi := congrArg (fun x => x.testBit i) hb
  simp only [testBit_bits, Nat.testBit_or] at hi ⊢
  by_cases h1 : i = 0
  · subst h1
    simp_all
  · have : ¬ i < b + 1 - b := by omega
    simp_all

/-- A job fault in force stays in force. -/
theorem jobFault_keeps (h : s.run.faultAt.isSome = true) : (jobFault s).run.faultAt.isSome = true := by
  unfold jobFault
  split
  · rfl
  · exact h

theorem jobFault_regs (s : State) : (jobFault s).regs = s.regs := by
  unfold jobFault
  split <;> rfl

/-- A report changes neither the state of the scheduler nor whether a casting runs. -/
theorem castingRuns_regs (h : rd t Reg.SCH_STATUS = rd s Reg.SCH_STATUS) : castingRuns t = castingRuns s := by
  unfold castingRuns schState
  rw [fld_def, h, ← fld_def]

/-! ### Notices (R303, R304, R346) -/

/-- What a notice changes: bits of FAB_STICKY, reports, and the step's fault. -/
structure Noticed (s t : State) : Prop where
  canon : Canon t
  cells : t.cells = s.cells
  dram : t.dram = s.dram
  flights : t.flights = s.flights
  fab : t.fab = s.fab
  time : t.time = s.time
  run : t.run.unmarked = s.run.unmarked
  fault : s.run.faultAt.isSome = true → t.run.faultAt.isSome = true
  regs : ∀ k, k ≠ Reg.FAB_STICKY → reportKey k = false → rd t k = rd s k
  taint : fld s Reg.HLT_TAINT 0 0 = 1 → fld t Reg.HLT_TAINT 0 0 = 1
  sticky : ∀ b, fld s Reg.FAB_STICKY b b = 1 → fld t Reg.FAB_STICKY b b = 1

theorem noticed_self (h : Canon s) : Noticed s s :=
  ⟨h, rfl, rfl, rfl, rfl, rfl, rfl, id, fun _ _ _ => rfl, id, fun _ => id⟩

theorem Noticed.trans {u : State} (h1 : Noticed s t) (h2 : Noticed t u) : Noticed s u :=
  ⟨h2.canon, h2.cells.trans h1.cells, h2.dram.trans h1.dram, h2.flights.trans h1.flights, h2.fab.trans h1.fab, h2.time.trans h1.time,
    h2.run.trans h1.run, fun h => h2.fault (h1.fault h), fun k hk hr => (h2.regs k hk hr).trans (h1.regs k hk hr),
    fun h => h2.taint (h1.taint h), fun b h => h2.sticky b (h1.sticky b h)⟩

theorem Noticed.castingRuns (h : Noticed s t) : castingRuns t = Machine.castingRuns s :=
  castingRuns_regs (h.regs _ (by decide) (by decide))

theorem noticed_sticky (h : Canon s) {b : Nat} (hb : b < 32) : Noticed s (Machine.sticky Reg.FAB_STICKY b s) :=
  ⟨canon_sticky h, rfl, rfl, rfl, rfl, rfl, rfl, id, fun _ hk _ => rd_sticky_ne h.regs _ hk, fun ht => by
    rw [fld_def, rd_sticky_ne h.regs _ (by decide), ← fld_def]
    exact ht, fun _ => fld_sticky_keeps h.regs hb⟩

theorem noticed_jobFault (h : Canon s) : Noticed s (Machine.jobFault s) := by
  have hr := (rep_jobFault (rep_self h)).only
  have hregs := jobFault_regs s
  exact ⟨canon_jobFault h, hr.cells, hr.dram, hr.flights, hr.fab, hr.time, hr.run, jobFault_keeps, fun k _ _ => rd_congr hregs k, fun ht => by
    rw [fld_def, rd_congr hregs, ← fld_def]
    exact ht, fun b hb => by
    rw [fld_def, rd_congr hregs, ← fld_def]
    exact hb⟩

/-- A taint leaves the fault in force. -/
theorem taint_faultAt (cause unit die wh sub : Nat) (loc : List (Nat × Nat)) (s : State) :
    (Machine.taint cause unit die wh sub loc s).run.faultAt = s.run.faultAt := by
  unfold Machine.taint
  extract_lets loc' first s1
  have h1 : s1.run.faultAt = s.run.faultAt := by
    show (if first then taintMark cause unit die wh sub loc' s else s).run.faultAt = _
    split <;> rfl
  split
  · rfl
  · split
    · exact (congrArg Run.faultAt (recordFull_run ..)).trans h1
    · exact (congrArg Run.faultAt (recordFull_run ..)).trans h1

theorem noticed_taint (h : Canon s) (cause unit die wh sub : Nat) (loc : List (Nat × Nat)) :
    Noticed s (Machine.taint cause unit die wh sub loc s) := by
  have hr := (rep_taint (cause := cause) (unit := unit) (die := die) (wh := wh) (sub := sub) (loc := loc) (rep_self h)).only
  refine ⟨canon_taint h, hr.cells, hr.dram, hr.flights, hr.fab, hr.time, hr.run, fun hf => by rw [taint_faultAt]; exact hf,
    fun k _ hk => hr.regs k hk, fun ht => (TaintHeld.taint ⟨h.regs, ht⟩ ..).val, ?_⟩
  · intro b hb
    rw [fld_def, hr.regs _ (by decide), ← fld_def]
    exact hb

/-- The poison of a notice. -/
def noticePoison (l : Nat) (poison : Bool) (s : State) : State :=
  if poison then taint 10 0 0 l 0 [(7, l)] (sticky Reg.FAB_STICKY 13 s) else s

theorem noticeFlag_eq (l : Nat) (poison fault : Bool) (s : State) : noticeFlag l poison fault s =
    if fault then jobFault (sticky Reg.FAB_STICKY 12 (noticePoison l poison s)) else noticePoison l poison s := rfl

theorem noticed_noticePoison (h : Canon s) (l : Nat) (poison : Bool) : Noticed s (noticePoison l poison s) := by
  unfold noticePoison
  split
  · have h1 := noticed_sticky h (b := 13) (by decide)
    exact h1.trans (noticed_taint h1.canon ..)
  · exact noticed_self h

theorem noticed_noticeFault (h : Canon s) : Noticed s (jobFault (sticky Reg.FAB_STICKY 12 s)) := by
  have h1 := noticed_sticky h (b := 12) (by decide)
  exact h1.trans (noticed_jobFault h1.canon)

theorem noticed_noticeFlag (h : Canon s) (l : Nat) (poison fault : Bool) : Noticed s (noticeFlag l poison fault s) := by
  have hp := noticed_noticePoison h l poison
  rw [noticeFlag_eq]
  split
  · exact hp.trans (noticed_noticeFault hp.canon)
  · exact hp

/-- A poison bit shows, and taints a step in progress (R303, R346). -/
theorem noticeFlag_poisoned (h : Canon s) (l : Nat) (fault : Bool) : fld (noticeFlag l true fault s) Reg.FAB_STICKY 13 13 = 1 ∧
    (s.run.on = true → fld (noticeFlag l true fault s) Reg.HLT_TAINT 0 0 = 1) := by
  have hs := noticed_sticky h (b := 13) (by decide)
  have ht := noticed_taint hs.canon 10 0 0 l 0 [(7, l)]
  have hrest : Noticed (noticePoison l true s) (noticeFlag l true fault s) := by
    rw [noticeFlag_eq]
    split
    · exact noticed_noticeFault ht.canon
    · exact noticed_self ht.canon
  exact ⟨hrest.sticky 13 (ht.sticky 13 (fld_sticky h.regs _ (by decide))),
    fun hon => hrest.taint (taintHeld_taint hs.canon.regs hon 10 0 0 l 0 [(7, l)]).val⟩

/-- A fault bit shows, and faults a running casting (R304). -/
theorem noticeFlag_faulted (h : Canon s) (l : Nat) (poison : Bool) : fld (noticeFlag l poison true s) Reg.FAB_STICKY 12 12 = 1 ∧
    (castingRuns s = true → (noticeFlag l poison true s).run.faultAt.isSome = true) := by
  have hp := noticed_noticePoison h l poison
  have hs := noticed_sticky hp.canon (b := 12) (by decide)
  rw [noticeFlag_eq, if_pos rfl]
  exact ⟨(noticed_jobFault hs.canon).sticky 12 (fld_sticky hp.canon.regs _ (by decide)),
    fun hr => jobFault_faultAt (by rw [hs.castingRuns, hp.castingRuns, hr])⟩

theorem landEffect_notice (port : Nat) (poison fault : Bool) (s : State) :
    landEffect (.notice port poison fault) s = noticeFlag port poison fault s := rfl

/-! ### Codewords that cannot be corrected (R274, R301) -/

section
variable {p l : Nat} {scheduled parcel : Bool}

/-- The codeword counted on its port. -/
def codewordLost (p : Nat) (s : State) : State := sticky Reg.FAB_STICKY 2 (bumpFld (bankKey Reg.FAB_PORT_FEC_UE p) 23 0 1 s)

/-- A scheduled data flit that it covered taints. -/
def codewordTaints (l : Nat) (scheduled : Bool) (s : State) : State := if scheduled then taint 9 0 0 l 0 [(7, l)] s else s

/-- The parcel that it was part of is dropped, once. -/
def parcelDropped (p : Nat) (parcel : Bool) (s : State) : State :=
  if parcel && !(portAt s p).parcelLost then
    setPort p { portAt s p with parcelLost := true } (sticky Reg.FAB_STICKY 9 (bump Reg.FAB_PARCEL_DROPS s))
  else s

theorem execUncorrectableCodeword_eq (phys : Fin 48) (scheduled parcel : Bool) (s : State) :
    execUncorrectableCodeword phys scheduled parcel s = parcelDropped phys.val parcel
      (codewordTaints ((logicalAt (codewordLost phys.val s) phys.val).getD 0x3F) scheduled (codewordLost phys.val s)) := rfl

theorem noticed_codewordTaints (h : Canon s) : Noticed s (codewordTaints l scheduled s) := by
  unfold codewordTaints
  split
  · exact noticed_taint h ..
  · exact noticed_self h

/-- What the loss of a parcel leaves alone, and what it writes. -/
theorem parcelDropped_values (h : Canon s) : let t := parcelDropped p parcel s
    t.cells = s.cells ∧ t.dram = s.dram ∧ t.flights = s.flights ∧
    (∀ k, k ≠ Reg.FAB_STICKY → k ≠ Reg.FAB_PARCEL_DROPS → rd t k = rd s k) ∧
    (∀ b, fld s Reg.FAB_STICKY b b = 1 → fld t Reg.FAB_STICKY b b = 1) ∧
    (parcel = true → (portAt s p).parcelLost = false → rd t Reg.FAB_PARCEL_DROPS = min (rd s Reg.FAB_PARCEL_DROPS + 1) (2 ^ 32 - 1) ∧
      fld t Reg.FAB_STICKY 9 9 = 1 ∧ (wf (fun _ => Port.init) s.fab.ports = true → (portAt t p).parcelLost = true)) ∧
    (parcel = false ∨ (portAt s p).parcelLost = true → rd t Reg.FAB_PARCEL_DROPS = rd s Reg.FAB_PARCEL_DROPS) := by
  intro t
  have hb : Canon (bump Reg.FAB_PARCEL_DROPS s) := canon_bump h
  cases hd : parcel && !(portAt s p).parcelLost with
  | true =>
    have ht : t = setPort p { portAt s p with parcelLost := true } (sticky Reg.FAB_STICKY 9 (bump Reg.FAB_PARCEL_DROPS s)) := if_pos hd
    have hrd : ∀ k, rd t k = rd (sticky Reg.FAB_STICKY 9 (bump Reg.FAB_PARCEL_DROPS s)) k := fun k => by
      rw [ht]
      rfl
    simp only [Bool.and_eq_true, Bool.not_eq_true'] at hd
    obtain ⟨hp, hl⟩ := hd
    refine ⟨by rw [ht]; rfl, by rw [ht]; rfl, by rw [ht]; rfl, fun k h1 h2 => ?_, fun b hbit => ?_, fun _ _ => ⟨?_, ?_, fun hw => ?_⟩, ?_⟩
    · rw [hrd, rd_sticky_ne hb.regs _ h1, rd_bump_ne h.regs h2]
    · rw [fld_def, hrd, ← fld_def]
      refine fld_sticky_keeps hb.regs (by decide) ?_
      rw [fld_def, rd_bump_ne h.regs (by decide), ← fld_def]
      exact hbit
    · rw [hrd, rd_sticky_ne hb.regs _ (by decide), rd_bump h.regs]
    · rw [fld_def, hrd, ← fld_def]
      exact fld_sticky hb.regs _ (by decide)
    · rw [ht]
      exact congrArg Port.parcelLost (get_put hw)
    · rintro (e | e)
      · rw [hp] at e
        cases e
      · rw [hl] at e
        cases e
  | false =>
    have ht : t = s := if_neg (Bool.eq_false_iff.1 hd)
    rw [ht]
    refine ⟨rfl, rfl, rfl, fun _ _ _ => rfl, fun _ => id, fun hp hl => ?_, fun _ => rfl⟩
    rw [hp, hl] at hd
    cases hd

end

end

end Sys2Proof.Machine
end

section
/-! PROOFS. UNCORRECTABLE_CODEWORD and SLOT_TAG (R274, R275, R292 to R294, R297, R303, R304, R346; log 95). -/
namespace Sys2Proof.Machine

/-! ### UNCORRECTABLE_CODEWORD -/

section
variable {s t : State} {p l : Nat} {scheduled parcel : Bool}

/-- A field that counts up stops at its largest value. -/
theorem fld_bumpFld (h : wf regDefault s.regs = true) (k lo : Nat) {hi : Nat} (hh : hi < 32) :
    fld (bumpFld k hi lo 1 s) k hi lo = min (fld s k hi lo + 1) (2 ^ (hi + 1 - lo) - 1) := by
  rw [bumpFld, fld_setFld h _ _ _ hh, satAdd, Nat.mod_eq_of_lt]
  have := Nat.two_pow_pos (hi + 1 - lo)
  omega

/-- The count of lost codewords of a port, before its tag is read. -/
theorem codewordLost_values (h : Canon s) (p : Nat) : Canon (codewordLost p s) ∧
    fld (codewordLost p s) (bankKey Reg.FAB_PORT_FEC_UE p) 23 0 = min (fld s (bankKey Reg.FAB_PORT_FEC_UE p) 23 0 + 1) (2 ^ 24 - 1) ∧
    fld (codewordLost p s) Reg.FAB_STICKY 2 2 = 1 ∧ rd (codewordLost p s) Reg.FAB_PARCEL_DROPS = rd s Reg.FAB_PARCEL_DROPS := by
  have hb : Canon (bumpFld (bankKey Reg.FAB_PORT_FEC_UE p) 23 0 1 s) := canon_bumpFld h
  refine ⟨canon_sticky hb, ?_, fld_sticky hb.regs _ (by decide), ?_⟩
  · rw [codewordLost, fld_def, rd_sticky_ne hb.regs _ (bankKey_ne_of_package (by decide) _ _).symm, ← fld_def, fld_bumpFld h.regs _ _ (by decide)]
  · rw [codewordLost, rd_sticky_ne hb.regs _ (by decide), rd_bumpFld_ne h.regs _ _ _ (bankKey_ne_of_package (by decide) _ _)]

/-- A scheduled data flit that is lost taints a step in progress. -/
theorem codewordTaints_taints (h : Canon s) (hon : s.run.on = true) : fld (codewordTaints l true s) Reg.HLT_TAINT 0 0 = 1 :=
  (taintHeld_taint h.regs hon ..).val

theorem uncorrectableCodeword_values (h : Canon s) (phys : Fin 48) (scheduled parcel : Bool) :
    let t := execUncorrectableCodeword phys scheduled parcel s
    fld t (bankKey Reg.FAB_PORT_FEC_UE phys.val) 23 0 = min (fld s (bankKey Reg.FAB_PORT_FEC_UE phys.val) 23 0 + 1) (2 ^ 24 - 1) ∧
    fld t Reg.FAB_STICKY 2 2 = 1 ∧ (scheduled = true → s.run.on = true → fld t Reg.HLT_TAINT 0 0 = 1) ∧
    (parcel = true → (portAt s phys.val).parcelLost = false →
      rd t Reg.FAB_PARCEL_DROPS = min (rd s Reg.FAB_PARCEL_DROPS + 1) (2 ^ 32 - 1) ∧ fld t Reg.FAB_STICKY 9 9 = 1 ∧
      (wf (fun _ => Port.init) s.fab.ports = true → (portAt t phys.val).parcelLost = true)) ∧
    (parcel = false ∨ (portAt s phys.val).parcelLost = true → rd t Reg.FAB_PARCEL_DROPS = rd s Reg.FAB_PARCEL_DROPS) ∧
    t.cells = s.cells ∧ t.dram = s.dram ∧ t.flights = s.flights := by
  intro t
  obtain ⟨hc, hcount, hbit, hdrops⟩ := codewordLost_values h phys.val
  have hn := noticed_codewordTaints (l := (logicalAt (codewordLost phys.val s) phys.val).getD 0x3F) (scheduled := scheduled) hc
  obtain ⟨hcells, hdram, hfl, hregs, hst, hparcel, hno⟩ := parcelDropped_values (p := phys.val) (parcel := parcel) hn.canon
  have htaint : scheduled = true → s.run.on = true →
      fld (codewordTaints ((logicalAt (codewordLost phys.val s) phys.val).getD 0x3F) scheduled (codewordLost phys.val s)) Reg.HLT_TAINT 0 0 = 1 := by
    rintro rfl hon
    exact codewordTaints_taints hc hon
  rw [← execUncorrectableCodeword_eq phys scheduled parcel s] at *
  have hkey : bankKey Reg.FAB_PORT_FEC_UE phys.val ≠ Reg.FAB_STICKY := (bankKey_ne_of_package (by decide) _ _).symm
  have hfab := hn.fab
  have hdrops' := (hn.regs Reg.FAB_PARCEL_DROPS (by decide) (by decide)).trans hdrops
  have hport : portAt (codewordTaints ((logicalAt (codewordLost phys.val s) phys.val).getD 0x3F) scheduled (codewordLost phys.val s)) phys.val =
      portAt s phys.val := by
    rw [portAt, hfab]
    rfl
  rw [hport, hdrops', hfab] at hparcel
  rw [hport, hdrops'] at hno
  refine ⟨?_, hst 2 (hn.sticky 2 hbit), fun hs hon => ?_, hparcel, hno, hcells.trans hn.cells, hdram.trans hn.dram, hfl.trans hn.flights⟩
  · rw [fld_def, hregs _ hkey (bankKey_ne_of_package (by decide) _ _).symm,
      hn.regs _ hkey (reportKey_bankKey (by decide) (by omega)), ← fld_def, hcount]
  · rw [fld_def, hregs _ (by decide) (by decide), ← fld_def]
    exact htaint hs hon

end

/-! ### Codewords corrected (R274, R275) -/

section
variable {s t : State} {q lane n : Nat}

/-- What corrected codewords leave alone. -/
structure Corrected (z t : State) : Prop where
  canon : Canon t
  cells : t.cells = z.cells
  dram : t.dram = z.dram
  flights : t.flights = z.flights
  time : t.time = z.time
  run : t.run = z.run
  held : t.fab.held = z.fab.held
  frozen : t.fab.frozen = z.fab.frozen
  par : t.fab.par = z.fab.par
  regs : ∀ k, k < 2 ^ 40 → rd t k = rd z k

theorem corrected_self (h : Canon s) : Corrected s s := ⟨h, rfl, rfl, rfl, rfl, rfl, rfl, rfl, rfl, fun _ _ => rfl⟩

/-- The registers of a port that count corrected codewords. -/
def codewordCounted (q lane n : Nat) (s : State) : State :=
  let s := bump (bankKey Reg.FAB_PORT_FEC_CE q) s
  let s := if 12 ≤ n ∧ get (fun _ => 0) s.health.inputs (64 + q) = 0 then riskInput (64 + q) 1 s else s
  if fld s (bankKey Reg.FAB_PORT_FEC_UE q) 27 24 < n then
    setFld (bankKey Reg.FAB_PORT_FEC_UE q) 31 28 lane (setFld (bankKey Reg.FAB_PORT_FEC_UE q) 27 24 n s)
  else s

/-- The symbols corrected on a port in the window in progress. -/
def windowSymbols (s : State) (q : Nat) : SMap Nat := if (portAt s q).window = symbolWindow s then (portAt s q).symbols else []

/-- The symbols of a codeword join those of its lane's window. -/
def symbolsAdded (q lane n : Nat) (s : State) : State :=
  let symbols := put (fun _ => 0) (windowSymbols s q) lane (get (fun _ => 0) (windowSymbols s q) lane + n)
  setPort q { portAt s q with window := symbolWindow s, symbols := symbols } s

theorem codewordFixed_eq (q lane n : Nat) (s : State) : codewordFixed q lane n s =
    if n = 0 then s else symbolsAdded q lane n (codewordCounted q lane n s) := rfl

/-- Counting changes registers and the monitor of risks alone. -/
theorem codewordCounted_shape (q lane n : Nat) (s : State) : ∃ regs health, codewordCounted q lane n s = { s with regs := regs, health := health } := by
  unfold codewordCounted
  dsimp only
  split <;> split <;> exact ⟨_, _, rfl⟩

/-- The registers of a port when a codeword has been counted. -/
theorem codewordCounted_regs (h : Canon s) (hn : n < 16) : Canon (codewordCounted q lane n s) ∧
    rd (codewordCounted q lane n s) (bankKey Reg.FAB_PORT_FEC_CE q) = min (rd s (bankKey Reg.FAB_PORT_FEC_CE q) + 1) (2 ^ 32 - 1) ∧
    fld (codewordCounted q lane n s) (bankKey Reg.FAB_PORT_FEC_UE q) 27 24 = max n (fld s (bankKey Reg.FAB_PORT_FEC_UE q) 27 24) ∧
    ∀ k, k < 2 ^ 40 → rd (codewordCounted q lane n s) k = rd s k := by
  unfold codewordCounted
  extract_lets s1 s2
  have hne : bankKey Reg.FAB_PORT_FEC_CE q ≠ bankKey Reg.FAB_PORT_FEC_UE q := by
    unfold bankKey Reg.FAB_PORT_FEC_CE Reg.FAB_PORT_FEC_UE
    omega
  have h1 : Canon s1 := canon_bump h
  have hregs : s2.regs = s1.regs := by
    unfold s2
    split <;> rfl
  have h2 : wf regDefault s2.regs = true := by
    rw [hregs]
    exact h1.regs
  have hc2 : Canon s2 := by
    unfold s2
    split
    · exact canon_mk h1
    · exact h1
  have hce : rd s2 (bankKey Reg.FAB_PORT_FEC_CE q) = min (rd s (bankKey Reg.FAB_PORT_FEC_CE q) + 1) (2 ^ 32 - 1) :=
    (rd_congr hregs _).trans (rd_bump h.regs _)
  have hue : fld s2 (bankKey Reg.FAB_PORT_FEC_UE q) 27 24 = fld s (bankKey Reg.FAB_PORT_FEC_UE q) 27 24 := by
    rw [fld_def, rd_congr hregs, rd_bump_ne h.regs hne.symm, ← fld_def]
  have hpkg : ∀ k, k < 2 ^ 40 → rd s2 k = rd s k := fun k hk =>
    (rd_congr hregs k).trans (rd_bump_ne h.regs (bankKey_ne_of_package hk _ _))
  split
  next hlt =>
    have h3 : Canon (setFld (bankKey Reg.FAB_PORT_FEC_UE q) 27 24 n s2) := canon_setFld hc2
    refine ⟨canon_setFld h3, ?_, ?_, fun k hk => ?_⟩
    · rw [rd_setFld_ne h3.regs _ _ _ hne, rd_setFld_ne h2 _ _ _ hne, hce]
    · rw [fld_setFld_ne h3.regs _ _ _ (by decide) (.inl (by decide)), fld_setFld h2 _ _ _ (by decide)]
      omega
    · rw [rd_setFld_ne h3.regs _ _ _ (bankKey_ne_of_package hk _ _), rd_setFld_ne h2 _ _ _ (bankKey_ne_of_package hk _ _), hpkg k hk]
  next hge => exact ⟨hc2, hce, by omega, hpkg⟩

theorem corrected_codewordFixed {z : State} (h : Corrected z s) (hn : n < 16) : Corrected z (codewordFixed q lane n s) := by
  rw [codewordFixed_eq]
  split
  · exact h
  · obtain ⟨regs, health, he⟩ := codewordCounted_shape q lane n s
    obtain ⟨hc, -, -, hregs⟩ := codewordCounted_regs (q := q) (lane := lane) h.canon hn
    refine ⟨canon_setPort hc, ?_, ?_, ?_, ?_, ?_, ?_, ?_, ?_, fun k hk => (hregs k hk).trans (h.regs k hk)⟩
    all_goals rw [he]
    · exact h.cells
    · exact h.dram
    · exact h.flights
    · exact h.time
    · exact h.run
    · exact h.held
    · exact h.frozen
    · exact h.par

/-- The symbols of a lane in the window in progress. -/
theorem laneSymbols_added (hp : wf (fun _ => Port.init) s.fab.ports = true) (hs : wf (fun _ => 0) (portAt s q).symbols = true) :
    laneSymbols (symbolsAdded q lane n s) q lane = laneSymbols s q lane + n := by
  have hw : wf (fun _ => 0) (windowSymbols s q) = true := by
    unfold windowSymbols
    split
    · exact hs
    · rfl
  obtain ⟨hwindow, hsymbols⟩ : (portAt (symbolsAdded q lane n s) q).window = symbolWindow s ∧ (portAt (symbolsAdded q lane n s) q).symbols =
      put (fun _ => 0) (windowSymbols s q) lane (get (fun _ => 0) (windowSymbols s q) lane + n) := by
    rw [symbolsAdded, portAt]
    refine ⟨congrArg Port.window (get_put hp), congrArg Port.symbols (get_put hp)⟩
  have hwin : symbolWindow (symbolsAdded q lane n s) = symbolWindow s := rfl
  have hold : laneSymbols s q lane = get (fun _ => 0) (windowSymbols s q) lane := by
    unfold laneSymbols windowSymbols
    dsimp only
    split <;> rfl
  rw [hold, laneSymbols, hwindow, hsymbols, hwin, if_pos rfl, get_put hw]

/-- A corrected codeword on its own: its port's count, its peak, and its lane's symbols. -/
theorem codewordFixed_values (h : Canon s) (h0 : n ≠ 0) (hn : n < 16) (hp : wf (fun _ => Port.init) s.fab.ports = true)
    (hs : wf (fun _ => 0) (portAt s q).symbols = true) :
    rd (codewordFixed q lane n s) (bankKey Reg.FAB_PORT_FEC_CE q) = min (rd s (bankKey Reg.FAB_PORT_FEC_CE q) + 1) (2 ^ 32 - 1) ∧
    fld (codewordFixed q lane n s) (bankKey Reg.FAB_PORT_FEC_UE q) 27 24 = max n (fld s (bankKey Reg.FAB_PORT_FEC_UE q) 27 24) ∧
    laneSymbols (codewordFixed q lane n s) q lane = laneSymbols s q lane + n := by
  obtain ⟨hc, hce, hue, -⟩ := codewordCounted_regs (q := q) (lane := lane) h hn
  obtain ⟨regs, health, he⟩ := codewordCounted_shape q lane n s
  have hadd := laneSymbols_added (s := codewordCounted q lane n s) (q := q) (lane := lane) (n := n) (by rw [he]; exact hp) (by rw [he]; exact hs)
  rw [codewordFixed_eq, if_neg h0]
  refine ⟨hce, hue, hadd.trans ?_⟩
  rw [he]
  rfl

end

/-! ### SLOT_TAG -/

section
variable {s t z : State} {port : Fin 47} {tag : BitVec 24} {bar : Option Byte} {fixed : List (Fin 9 × Fin 16)} {l k : Nat}

/-- The codewords corrected in a slot are counted first. -/
def tagRead (port : Fin 47) (fixed : List (Fin 9 × Fin 16)) (s : State) : State :=
  each fixed (fun x s => codewordFixed (physOf s port.val) x.1.val x.2.val s) s

/-- The byte of a BAR flit joins. -/
def tagBar (l k : Nat) (bar : Option Byte) (s : State) : State := match bar with | some v => barArrives l k v s | none => s

/-- The notice of a tag. -/
def tagNotice (l v : Nat) (s : State) : State :=
  if bits v 4 3 != 0 then launchOrLand (noticeTick s l (bits v 10 5)) (.notice l (bits v 3 3 == 1) (bits v 4 4 == 1)) s else s

/-- The level of a neighbour joins the held one. -/
def tagLevel (v : Nat) (s : State) : State :=
  if !s.fab.frozen && (bits v 16 16 == 1) == s.fab.par then
    { s with fab := { s.fab with held := s.fab.held ||| BitVec.ofNat 4 (bits v 14 11), heldHold := s.fab.heldHold || bits v 15 15 == 1 } }
  else s

/-- The ratio of a neighbour is the part's own, or faults the job. -/
def tagRatio (v : Nat) (s : State) : State := if bits v 19 17 = ratioCode s then s else jobFault (sticky Reg.FAB_STICKY 6 s)

theorem execSlotTag_overlapped : execSlotTag port tag true bar fixed s = tagRead port fixed s := rfl

theorem execSlotTag_read : execSlotTag port tag false bar fixed s =
    let u := tagNotice port.val tag.toNat (tagBar port.val (bits tag.toNat 10 5) bar (tagRead port fixed s))
    if port.val = 46 then u else tagRatio tag.toNat (tagLevel tag.toNat u) := rfl

theorem corrected_tagRead (h : Canon s) (port : Fin 47) (fixed : List (Fin 9 × Fin 16)) : Corrected s (tagRead port fixed s) :=
  each_inv (Corrected s) (fun x _ _ ht => corrected_codewordFixed ht x.2.isLt) (corrected_self h)

/-- A BAR flit changes what the barriers of the step have got, and nothing else. -/
theorem tagBar_shape (l k : Nat) (bar : Option Byte) (s : State) : ∃ r, tagBar l k bar s = { s with run := r } ∧ r.on = s.run.on ∧
    r.start = s.run.start ∧ r.faultAt = s.run.faultAt := by
  unfold tagBar
  split
  · unfold barArrives
    dsimp only
    split
    · exact ⟨s.run, rfl, rfl, rfl, rfl⟩
    · split <;> exact ⟨_, rfl, rfl, rfl, rfl⟩
  · exact ⟨s.run, rfl, rfl, rfl, rfl⟩

/-- Where only one stage of the veto point is meant, the byte joins it. -/
theorem tagBar_veto {b : Byte} {y : Barrier} {i at_ : Nat} (hb : barStages s l k = [(false, i, at_)]) (hv : s.run.veto = some y)
    (hw : wf (fun _ => 0) y.got = true) : ∃ z, (tagBar l k (some b) s).run.veto = some z ∧
    get (fun _ => 0) z.got i = get (fun _ => 0) y.got i ||| b ∧ z.byte = y.byte ∧ z.due = y.due := by
  have ht : (tagBar l k (some b) s).run.veto = some { y with got := put (fun _ => 0) y.got i (get (fun _ => 0) y.got i ||| b) } := by
    simp only [tagBar, barArrives, hb, List.all_cons, List.all_nil, Nat.le_refl, decide_true, Bool.and_self, List.find?_cons_of_pos,
      Bool.false_eq_true, if_false, hv, Option.map_some]
  exact ⟨_, ht, get_put hw, rfl, rfl⟩

theorem noticeTick_congr (hr : t.run.on = s.run.on) (hs : t.run.start = s.run.start) (ht : t.time = s.time) (l k : Nat) :
    noticeTick t l k = noticeTick s l k := by
  unfold noticeTick
  rw [hr, hs, now, ht, ← now]

theorem barStages_congr (hr : t.run = s.run) (ht : t.time = s.time) (l k : Nat) : barStages t l k = barStages s l k := by
  unfold barStages
  rw [hr, now, ht, ← now]

/-- A poison or a fault bit is a notice. -/
theorem notice_of_bit {v : Nat} (h : bits v 3 3 = 1 ∨ bits v 4 4 = 1) : bits v 4 3 ≠ 0 := by
  simp only [bits, Nat.shiftRight_eq_div_pow] at h ⊢
  omega

/-- The notice of a tag acts at once or is put in flight; its poison and its fault show when it acts. -/
theorem tagNotice_values (h : Canon s) (l v : Nat) : ∃ u, Noticed s u ∧
    tagNotice l v s = { u with flights := if bits v 4 3 ≠ 0 ∧ now s < noticeTick s l (bits v 10 5) then
      s.flights ++ [⟨noticeTick s l (bits v 10 5), .notice l (bits v 3 3 == 1) (bits v 4 4 == 1)⟩] else s.flights } ∧
    (noticeTick s l (bits v 10 5) ≤ now s →
      (bits v 3 3 = 1 → fld u Reg.FAB_STICKY 13 13 = 1 ∧ (s.run.on = true → fld u Reg.HLT_TAINT 0 0 = 1)) ∧
      (bits v 4 4 = 1 → fld u Reg.FAB_STICKY 12 12 = 1 ∧ (castingRuns s = true → u.run.faultAt.isSome = true))) := by
  generalize hat : noticeTick s l (bits v 10 5) = at_
  by_cases hn : bits v 4 3 = 0
  · refine ⟨s, noticed_self h, ?_, fun _ => ⟨fun hb => absurd hn (notice_of_bit (.inl hb)), fun hb => absurd hn (notice_of_bit (.inr hb))⟩⟩
    rw [tagNotice, hn, if_neg (by decide), if_neg (fun e => e.1 rfl)]
  · have hb : (bits v 4 3 != 0) = true := bne_iff_ne.2 hn
    by_cases hle : at_ ≤ now s
    · have hN := noticed_noticeFlag h l (bits v 3 3 == 1) (bits v 4 4 == 1)
      refine ⟨_, hN, ?_, fun _ => ⟨fun h3 => ?_, fun h4 => ?_⟩⟩
      · rw [tagNotice, if_pos hb, hat, launchOrLand, if_pos hle, landEffect_notice, if_neg (fun e => Nat.not_lt.2 hle e.2), ← hN.flights]
      · rw [h3]
        exact noticeFlag_poisoned h ..
      · rw [h4]
        exact noticeFlag_faulted h ..
    · refine ⟨s, noticed_self h, ?_, fun hle' => absurd hle' hle⟩
      rw [tagNotice, if_pos hb, hat, launchOrLand, if_neg hle, if_pos ⟨hn, Nat.lt_of_not_le hle⟩]
      rfl

/-- The held level, where the tag's parity is that of the next boundary and the level is not yet frozen (R294). -/
theorem tagLevel_values (v : Nat) (s : State) : ∃ f, tagLevel v s = { s with fab := f } ∧
    (s.fab.frozen = false → (bits v 16 16 == 1) = s.fab.par → f.held = s.fab.held ||| BitVec.ofNat 4 (bits v 14 11)) ∧
    (s.fab.frozen = true ∨ (bits v 16 16 == 1) ≠ s.fab.par → f.held = s.fab.held) := by
  unfold tagLevel
  split
  next hc =>
    simp only [Bool.and_eq_true, Bool.not_eq_true', beq_iff_eq] at hc
    obtain ⟨hf, hp⟩ := hc
    refine ⟨_, rfl, fun _ _ => rfl, fun e => ?_⟩
    rcases e with e | e
    · rw [hf] at e
      cases e
    · exact absurd hp e
  next hc =>
    refine ⟨s.fab, rfl, fun hf hp => ?_, fun _ => rfl⟩
    rw [hf, hp] at hc
    exact absurd (by simp) hc

theorem noticed_tagRatio (h : Canon s) (v : Nat) : Noticed s (tagRatio v s) := by
  unfold tagRatio
  split
  · exact noticed_self h
  · have hs := noticed_sticky h (b := 6) (by decide)
    exact hs.trans (noticed_jobFault hs.canon)

/-- A neighbour in the forge with another ratio is a job fault (R304). -/
theorem tagRatio_differs (h : Canon s) {v : Nat} (hne : bits v 19 17 ≠ ratioCode s) : fld (tagRatio v s) Reg.FAB_STICKY 6 6 = 1 ∧
    (castingRuns s = true → (tagRatio v s).run.faultAt.isSome = true) := by
  have hs := noticed_sticky h (b := 6) (by decide)
  rw [tagRatio, if_neg hne]
  exact ⟨(noticed_jobFault hs.canon).sticky 6 (fld_sticky h.regs _ (by decide)),
    fun hr => jobFault_faultAt (by rw [hs.castingRuns, hr])⟩

/-- The level and the ratio of a tag of the forge's own; the works port's says neither. -/
def tagEnd (l v : Nat) (s : State) : State := if l = 46 then s else tagRatio v (tagLevel v s)

theorem tagEnd_values (h : Canon s) (l v : Nat) : ∃ f t, Noticed { s with fab := f } t ∧ tagEnd l v s = t ∧
    (l ≠ 46 → s.fab.frozen = false → (bits v 16 16 == 1) = s.fab.par → t.fab.held = s.fab.held ||| BitVec.ofNat 4 (bits v 14 11)) ∧
    (l = 46 ∨ s.fab.frozen = true ∨ (bits v 16 16 == 1) ≠ s.fab.par → t.fab.held = s.fab.held) ∧
    (l ≠ 46 → bits v 19 17 ≠ ratioCode s → fld t Reg.FAB_STICKY 6 6 = 1 ∧ (castingRuns s = true → t.run.faultAt.isSome = true)) := by
  unfold tagEnd
  split
  next hl => exact ⟨s.fab, s, noticed_self h, rfl, fun e => absurd hl e, fun _ => rfl, fun e => absurd hl e⟩
  next hl =>
    obtain ⟨f, hf, hjoins, hstays⟩ := tagLevel_values v s
    have hc : Canon { s with fab := f } := canon_mk h
    have hN := noticed_tagRatio hc v
    rw [hf]
    exact ⟨f, _, hN, rfl, fun _ h1 h2 => (congrArg Fab.held hN.fab).trans (hjoins h1 h2),
      fun e => (congrArg Fab.held hN.fab).trans (hstays (e.resolve_left hl)), fun _ hne => tagRatio_differs hc hne⟩

theorem ratioCode_regs (h : rd t Reg.PWR_STRETCH = rd s Reg.PWR_STRETCH) : ratioCode t = ratioCode s := by
  rw [ratioCode, fld_def, h, ← fld_def, ratioCode]

/-- The barriers of a step are none of the marks that reports leave in it. -/
theorem veto_of_unmarked {r r' : Run} (h : r.unmarked = r'.unmarked) : r.veto = r'.veto := by
  show r.unmarked.veto = r'.unmarked.veto
  rw [h]

theorem slotTag_values (h : Canon s) (port : Fin 47) (tag : BitVec 24) (bar : Option Byte) (fixed : List (Fin 9 × Fin 16)) :
    let t := execSlotTag port tag false bar fixed s
    let v := tag.toNat
    let at_ := noticeTick s port.val (bits v 10 5)
    (bits v 3 3 = 1 → at_ ≤ now s → fld t Reg.FAB_STICKY 13 13 = 1 ∧ (s.run.on = true → fld t Reg.HLT_TAINT 0 0 = 1)) ∧
    (bits v 4 4 = 1 → at_ ≤ now s → fld t Reg.FAB_STICKY 12 12 = 1 ∧ (castingRuns s = true → t.run.faultAt.isSome = true)) ∧
    t.flights = (if bits v 4 3 ≠ 0 ∧ now s < at_ then s.flights ++ [⟨at_, .notice port.val (bits v 3 3 == 1) (bits v 4 4 == 1)⟩]
      else s.flights) ∧
    (port.val ≠ 46 → s.fab.frozen = false → (bits v 16 16 == 1) = s.fab.par → t.fab.held = s.fab.held ||| BitVec.ofNat 4 (bits v 14 11)) ∧
    (port.val = 46 ∨ s.fab.frozen = true ∨ (bits v 16 16 == 1) ≠ s.fab.par → t.fab.held = s.fab.held) ∧
    (port.val ≠ 46 → bits v 19 17 ≠ ratioCode s → fld t Reg.FAB_STICKY 6 6 = 1 ∧ (castingRuns s = true → t.run.faultAt.isSome = true)) ∧
    (∀ (b : Byte) (y : Barrier) (i at_ : Nat), bar = some b → barStages s port.val (bits v 10 5) = [(false, i, at_)] →
      s.run.veto = some y → wf (fun _ => 0) y.got = true →
      ∃ z, t.run.veto = some z ∧ get (fun _ => 0) z.got i = get (fun _ => 0) y.got i ||| b ∧ z.byte = y.byte ∧ z.due = y.due) ∧
    t.cells = s.cells ∧ t.dram = s.dram := by
  intro t v at_
  have hw := corrected_tagRead h port fixed
  have ht : t = tagEnd port.val v (tagNotice port.val v (tagBar port.val (bits v 10 5) bar (tagRead port fixed s))) := execSlotTag_read
  have hveto : ∀ (b : Byte) (y : Barrier) (i at_ : Nat), bar = some b → barStages s port.val (bits v 10 5) = [(false, i, at_)] →
      s.run.veto = some y → wf (fun _ => 0) y.got = true → ∃ z, (tagBar port.val (bits v 10 5) bar (tagRead port fixed s)).run.veto = some z ∧
        get (fun _ => 0) z.got i = get (fun _ => 0) y.got i ||| b ∧ z.byte = y.byte ∧ z.due = y.due := by
    rintro b y i at_ rfl hb hv hg
    exact tagBar_veto ((barStages_congr hw.run hw.time _ _).trans hb) ((congrArg Run.veto hw.run).trans hv) hg
  obtain ⟨r, hr, hon, hstart, -⟩ := tagBar_shape port.val (bits v 10 5) bar (tagRead port fixed s)
  generalize tagRead port fixed s = w at *
  rw [hr] at ht hveto
  have hc : Canon { w with run := r } := canon_mk hw.canon
  have htick : noticeTick { w with run := r } port.val (bits v 10 5) = at_ :=
    noticeTick_congr (t := { w with run := r }) (hon.trans (congrArg Run.on hw.run)) (hstart.trans (congrArg Run.start hw.run)) hw.time _ _
  have hnow : now { w with run := r } = now s := congrArg (fun x : Time => x.tick.toNat) hw.time
  have hruns : castingRuns { w with run := r } = castingRuns s := castingRuns_regs (hw.regs _ (by decide))
  obtain ⟨u, hu, hnotice, hacts⟩ := tagNotice_values hc port.val v
  rw [hnotice] at ht
  rw [htick, hnow, hruns] at hacts
  rw [htick, hnow, show ({ w with run := r } : State).flights = s.flights from hw.flights] at ht
  generalize (if bits v 4 3 ≠ 0 ∧ now s < at_ then s.flights ++ [⟨at_, Effect.notice port.val (bits v 3 3 == 1) (bits v 4 4 == 1)⟩]
      else s.flights) = fl at ht ⊢
  have hc' : Canon { u with flights := fl } := canon_mk hu.canon
  have hratio : ratioCode { u with flights := fl } = ratioCode s :=
    ratioCode_regs ((hu.regs _ (by decide) (by decide)).trans (hw.regs _ (by decide)))
  have hruns' : castingRuns { u with flights := fl } = castingRuns s := hu.castingRuns.trans hruns
  obtain ⟨f, t', hN, he, hjoins, hstays, hdiffers⟩ := tagEnd_values hc' port.val v
  rw [he] at ht
  rw [hratio, hruns'] at hdiffers
  have hfab : ({ u with flights := fl } : State).fab = w.fab := hu.fab
  rw [hfab, hw.frozen, hw.par, hw.held] at hjoins hstays
  rw [ht]
  refine ⟨fun hb hle => ?_, fun hb hle => ?_, hN.flights, hjoins, hstays, hdiffers, fun b y i at_' hbar hst hv hg => ?_,
    hN.cells.trans (hu.cells.trans hw.cells), hN.dram.trans (hu.dram.trans hw.dram)⟩
  · obtain ⟨hpoison, -⟩ := hacts hle
    obtain ⟨hbit, htaint⟩ := hpoison hb
    exact ⟨hN.sticky 13 hbit, fun hs => hN.taint (htaint ((hon.trans (congrArg Run.on hw.run)).trans hs))⟩
  · obtain ⟨-, hfaults⟩ := hacts hle
    obtain ⟨hbit, hfault⟩ := hfaults hb
    exact ⟨hN.sticky 12 hbit, fun hs => hN.fault (hfault hs)⟩
  · obtain ⟨z, hz, hrest⟩ := hveto b y i at_' hbar hst hv hg
    exact ⟨z, (veto_of_unmarked (hN.run.trans hu.run)).trans hz, hrest⟩

end

end Sys2Proof.Machine
end

section
/-! PROOFS. The time base and stretches (R64, R274, R283, R284, R294, R297; log 14). -/
namespace Sys2Proof.Machine

/-! ### LOCK (R283, R284) -/

section
variable {s t z : State} {p l : Nat} {sent echo : BitVec 64} {offset : BitVec 16} {off : Int}

/-- A LOCK as received: its mandrel count is kept, and an echo gives the delay on the port. -/
def lockHeard (p : Nat) (sent echo : BitVec 64) (s : State) : State :=
  let s := setPort p { portAt s p with lockSent := sent } s
  if echo = 0 then s else let v := fresh s; wr (bankKey Reg.FAB_PORT_DELAY p) (v.1.toNat % 2 ^ 20) v.2

theorem execLock_heard {phys : Fin 48} (hl : logicalAt s phys.val = some l) (hle : l ≤ 46) (hp : portState s phys.val = 5) :
    execLock phys sent echo offset s = if l = 46 then worksLock offset.toInt (lockHeard phys.val sent echo s)
      else forgeLock l sent offset (lockHeard phys.val sent echo s) := by
  have hn : ¬ (portState s phys.val ≠ 5 ∨ 46 < l) := by omega
  unfold execLock
  dsimp only
  rw [hl]
  exact if_neg hn

/-- What a LOCK leaves alone but for the delay of its port, FAB_LOCK and the tick. -/
structure LockHeard (p : Nat) (z t : State) : Prop where
  canon : Canon t
  time : t.time = z.time
  run : t.run = z.run
  cells : t.cells = z.cells
  dram : t.dram = z.dram
  regs : ∀ k, k ≠ bankKey Reg.FAB_PORT_DELAY p → rd t k = rd z k

theorem lockHeard_values (h : Canon s) (p : Nat) (sent echo : BitVec 64) : LockHeard p s (lockHeard p sent echo s) ∧
    (echo = 0 → rd (lockHeard p sent echo s) (bankKey Reg.FAB_PORT_DELAY p) = rd s (bankKey Reg.FAB_PORT_DELAY p)) ∧
    (echo ≠ 0 → rd (lockHeard p sent echo s) (bankKey Reg.FAB_PORT_DELAY p) < 2 ^ 20) := by
  have hp : Canon (setPort p { portAt s p with lockSent := sent } s) := canon_setPort h
  unfold lockHeard
  dsimp only
  split
  next he => exact ⟨⟨hp, rfl, rfl, rfl, rfl, fun _ _ => rfl⟩, fun _ => rfl, fun e => absurd he e⟩
  next he =>
    have hf : Canon (fresh (setPort p { portAt s p with lockSent := sent } s)).2 := canon_fresh hp
    refine ⟨⟨canon_wr hf, rfl, rfl, rfl, rfl, fun k hk => rd_wr_ne hf.regs _ hk⟩, fun e => absurd e he, fun _ => ?_⟩
    rw [rd_wr hf.regs]
    exact (Nat.mod_le _ _).trans_lt (Nat.mod_lt _ (by decide))

theorem LockHeard.castingRuns (h : LockHeard p s t) : castingRuns t = Machine.castingRuns s :=
  castingRuns_regs (h.regs _ (bankKey_ne_of_package (by decide) _ _))

theorem LockHeard.now (h : LockHeard p s t) : Machine.now t = Machine.now s := congrArg (fun x : Time => x.tick.toNat) h.time

theorem physOf_lt (s : State) (l : Nat) : physOf s l < 64 := by
  have := bits_lt (rd s (Reg.FAB_PORTMAP + 4 * (l / 4))) (8 * (l % 4) + 5) (8 * (l % 4))
  rw [show 8 * (l % 4) + 5 + 1 - 8 * (l % 4) = 6 by omega] at this
  exact this

/-- The partner of a port is not what a LOCK writes. -/
theorem LockHeard.partner (h : LockHeard p s t) (hp : p < 48) (hl : l ≤ 46) :
    rd t (bankKey Reg.FAB_PORT_PARTNER (physOf t l)) = rd s (bankKey Reg.FAB_PORT_PARTNER (physOf s l)) := by
  have hmap : Reg.FAB_PORTMAP + 4 * (l / 4) < 2 ^ 40 := by
    unfold Reg.FAB_PORTMAP
    omega
  have hphys : physOf t l = physOf s l := by
    rw [physOf, fld_def, h.regs _ (bankKey_ne_of_package hmap _ _), ← fld_def, physOf]
  have hq := physOf_lt s l
  rw [hphys, h.regs _ (bankKey_ne_of_register (by decide) (by omega) (by omega))]

/-- Whom the part follows is read of FAB_ADDR and of the partner on the port. -/
theorem follows_congr (ha : rd t Reg.FAB_ADDR = rd s Reg.FAB_ADDR)
    (hp : rd t (bankKey Reg.FAB_PORT_PARTNER (physOf t l)) = rd s (bankKey Reg.FAB_PORT_PARTNER (physOf s l))) : follows t l = follows s l := by
  unfold follows ownAddr
  dsimp only
  rw [hp, fld_def, fld_def, ha, ← fld_def, ← fld_def]

theorem LockHeard.follows (h : LockHeard p s t) (hp : p < 48) (hl : l ≤ 46) : follows t l = Machine.follows s l :=
  follows_congr (h.regs _ (bankKey_ne_of_package (by decide) _ _)) (h.partner hp hl)

/-! #### The works port -/

/-- Where the part is the timekeeper of a higher forge, and more than 64 ticks off. -/
def worksFar (s : State) (off : Int) : Prop := fld s Reg.FAB_ADDR 31 16 = ownAddr s ∧
  addrForge (rd s (bankKey Reg.FAB_PORT_PARTNER (physOf s 46)) % 65536) < addrForge (ownAddr s) ∧ lockTolerance 46 < off.natAbs

theorem worksLock_far (hr : castingRuns s = false) (hf : worksFar s off) : worksLock off s = stepTicks off s := by
  obtain ⟨h1, h2, h3⟩ := hf
  refine if_neg ?_
  rintro (e | e | e | e)
  · rw [hr] at e
    cases e
  · exact e h1
  · omega
  · omega

theorem worksLock_stays (h : castingRuns s = true ∨ ¬ worksFar s off) : worksLock off s = s := by
  refine if_pos ?_
  rcases h with h | h
  · exact .inl h
  · by_contra hn
    simp only [not_or, not_not, Nat.not_le] at hn
    obtain ⟨-, h1, h2, h3⟩ := hn
    exact h ⟨h1, h2, h3⟩

/-- What the works lock leaves alone: all but the tick. -/
theorem worksLock_frame (off : Int) (s : State) : (worksLock off s).regs = s.regs ∧ (worksLock off s).cells = s.cells ∧
    (worksLock off s).dram = s.dram ∧ (worksLock off s).time.cycles = s.time.cycles := by
  unfold worksLock
  split <;> exact ⟨rfl, rfl, rfl, rfl⟩

theorem worksFar_heard (h : LockHeard p s t) (hp : p < 48) (off : Int) : worksFar t off ↔ worksFar s off := by
  unfold worksFar ownAddr
  rw [h.partner hp (Nat.le_refl _), fld_def, fld_def, h.regs Reg.FAB_ADDR (bankKey_ne_of_package (by decide) _ _), ← fld_def, ← fld_def]

/-! #### The forge's ports -/

/-- The offset shown, where the part follows the partner. -/
def lockShown (l : Nat) (offset : BitVec 16) (s : State) : State := if follows s l then setFld Reg.FAB_LOCK 15 0 offset.toNat s else s

/-- The tick and the mandrel count step onto the partner's. -/
def lockStepped (l : Nat) (sent : BitVec 64) (offset : BitVec 16) (s : State) : State :=
  setFld Reg.FAB_LOCK 16 16 0 { stepTicks offset.toInt s with time := { (stepTicks offset.toInt s).time with
    mandrel := sent + BitVec.ofNat 64 (rd s (bankKey Reg.FAB_PORT_DELAY (physOf s l)) / 1280) } }

theorem forgeLock_running (h : castingRuns (lockShown l offset s) = true) : forgeLock l sent offset s =
    if decide (lockTolerance l < offset.toInt.natAbs) then unlocked l (lockShown l offset s) else lockShown l offset s := if_pos h

theorem forgeLock_other (h : castingRuns (lockShown l offset s) = false) (hf : follows (lockShown l offset s) l = false) :
    forgeLock l sent offset s = lockShown l offset s :=
  (if_neg (Bool.eq_false_iff.1 h)).trans (if_pos (show (!follows (lockShown l offset s) l) = true by rw [hf]; rfl))

theorem forgeLock_follows (h : castingRuns (lockShown l offset s) = false) (hf : follows (lockShown l offset s) l = true) :
    forgeLock l sent offset s = if decide (lockTolerance l < offset.toInt.natAbs) then lockStepped l sent offset (lockShown l offset s)
      else setFld Reg.FAB_LOCK 16 16 1 (lockShown l offset s) := by
  refine (if_neg (Bool.eq_false_iff.1 h)).trans ((if_neg (show ¬ (!follows (lockShown l offset s) l) = true by rw [hf]; exact Bool.false_ne_true)).trans ?_)
  cases hd : decide (lockTolerance l < offset.toInt.natAbs) <;> rfl

theorem rd_lockShown_ne (h : wf regDefault s.regs = true) {k : Nat} (hk : k ≠ Reg.FAB_LOCK) : rd (lockShown l offset s) k = rd s k := by
  unfold lockShown
  split
  · exact rd_setFld_ne h _ _ _ hk
  · rfl

/-- What the offset shown leaves as it is. -/
theorem lockShown_values (h : Canon s) : Canon (lockShown l offset s) ∧ (lockShown l offset s).time = s.time ∧
    (lockShown l offset s).run = s.run ∧ (lockShown l offset s).cells = s.cells ∧ (lockShown l offset s).dram = s.dram ∧
    castingRuns (lockShown l offset s) = castingRuns s ∧ follows (lockShown l offset s) l = follows s l ∧
    fld (lockShown l offset s) Reg.FAB_LOCK 15 0 = if follows s l then offset.toNat else fld s Reg.FAB_LOCK 15 0 := by
  have hrd : ∀ k, k ≠ Reg.FAB_LOCK → rd (lockShown l offset s) k = rd s k := fun k hk => rd_lockShown_ne h.regs hk
  have hmap : Reg.FAB_PORTMAP + 4 * (l / 4) ≠ Reg.FAB_LOCK := by
    unfold Reg.FAB_PORTMAP Reg.FAB_LOCK
    omega
  have hphys : physOf (lockShown l offset s) l = physOf s l := by
    rw [physOf, fld_def, hrd _ hmap, ← fld_def, physOf]
  refine ⟨?_, ?_, ?_, ?_, ?_, castingRuns_regs (hrd _ (by decide)), follows_congr (hrd _ (by decide)) ?_, ?_⟩
  case refine_6 => rw [hphys, hrd _ (bankKey_ne_of_package (by decide) _ _).symm]
  all_goals unfold lockShown
  case refine_1 =>
    split
    · exact canon_setFld h
    · exact h
  case refine_7 =>
    split
    · rw [fld_setFld h.regs _ _ _ (by decide)]
      exact Nat.mod_eq_of_lt offset.isLt
    · rfl
  all_goals split <;> rfl

/-- An offset out of tolerance while a casting runs. -/
theorem unlocked_values (h : Canon s) (l : Nat) : (unlocked l s).time = s.time ∧ (unlocked l s).cells = s.cells ∧ (unlocked l s).dram = s.dram ∧
    (∀ k, k ≠ Reg.FAB_STICKY → reportKey k = false → rd (unlocked l s) k = rd s k) ∧ fld (unlocked l s) Reg.FAB_STICKY 5 5 = 1 ∧
    (castingRuns s = true → (unlocked l s).run.faultAt.isSome = true) := by
  have hs := noticed_sticky h (b := 5) (by decide)
  have hr := (rep_jobFaultRec (reg := Reg.FAB_LOCK) (loc := [(7, l)]) (first := rd s Reg.FAB_LOCK) (rep_self hs.canon)).only
  refine ⟨hr.time.trans hs.time, hr.cells.trans hs.cells, hr.dram.trans hs.dram, fun k hk hrep => (hr.regs k hrep).trans (hs.regs k hk hrep), ?_,
    fun hrun => jobFaultRec_faultAt (by rw [hs.castingRuns, hrun]) ..⟩
  rw [fld_def, unlocked, hr.regs _ (by decide), ← fld_def]
  exact fld_sticky h.regs _ (by decide)

/-- With a casting running the part only monitors. -/
theorem forgeLock_running_values (h : Canon s) (hr : castingRuns s = true) (l : Nat) (sent : BitVec 64) (offset : BitVec 16) :
    let t := forgeLock l sent offset s
    fld t Reg.FAB_LOCK 15 0 = (if follows s l then offset.toNat else fld s Reg.FAB_LOCK 15 0) ∧ t.time = s.time ∧
    (lockTolerance l < offset.toInt.natAbs → fld t Reg.FAB_STICKY 5 5 = 1 ∧ t.run.faultAt.isSome = true) ∧
    (¬ lockTolerance l < offset.toInt.natAbs → t.run = s.run) ∧
    (∀ k, k ≠ Reg.FAB_LOCK → k ≠ Reg.FAB_STICKY → reportKey k = false → rd t k = rd s k) ∧ t.cells = s.cells ∧ t.dram = s.dram := by
  intro t
  obtain ⟨hc, htime, hrun, hcells, hdram, hruns, -, hshown⟩ := lockShown_values (l := l) (offset := offset) h
  have hrd : ∀ k, k ≠ Reg.FAB_LOCK → rd (lockShown l offset s) k = rd s k := fun k hk => rd_lockShown_ne h.regs hk
  have ht : t = if decide (lockTolerance l < offset.toInt.natAbs) then unlocked l (lockShown l offset s) else lockShown l offset s :=
    forgeLock_running (hruns.trans hr)
  by_cases ho : lockTolerance l < offset.toInt.natAbs
  · rw [if_pos (decide_eq_true ho)] at ht
    obtain ⟨hut, huc, hud, hur, hbit, hfault⟩ := unlocked_values hc l
    rw [ht]
    refine ⟨?_, hut.trans htime, fun _ => ⟨hbit, hfault (hruns.trans hr)⟩, fun e => absurd ho e,
      fun k h1 h2 h3 => (hur k h2 h3).trans (hrd k h1), huc.trans hcells, hud.trans hdram⟩
    rw [fld_def, hur _ (by decide) (by decide), ← fld_def, hshown]
  · rw [if_neg (fun e => ho (of_decide_eq_true e))] at ht
    rw [ht]
    exact ⟨hshown, htime, fun e => absurd e ho, fun _ => hrun, fun k h1 _ _ => hrd k h1, hcells, hdram⟩

/-- With none running the part leaves a partner alone that it does not follow. -/
theorem forgeLock_unfollowed (h : Canon s) (hr : castingRuns s = false) (hf : follows s l = false) : forgeLock l sent offset s = s := by
  obtain ⟨-, -, -, -, -, hruns, hfollows, -⟩ := lockShown_values (l := l) (offset := offset) h
  rw [forgeLock_other (hruns.trans hr) (hfollows.trans hf), lockShown, hf, if_neg Bool.false_ne_true]

/-- The lock bit beside the offset shown. -/
theorem lockBit_values {u : State} (hu : Canon u) (hk : ∀ k, rd u k = rd (lockShown l offset s) k) (h : Canon s) (hf : follows s l = true) {v : Nat}
    (hv : v < 2) : fld (setFld Reg.FAB_LOCK 16 16 v u) Reg.FAB_LOCK 15 0 = offset.toNat ∧ fld (setFld Reg.FAB_LOCK 16 16 v u) Reg.FAB_LOCK 16 16 = v ∧
    ∀ k, k ≠ Reg.FAB_LOCK → rd (setFld Reg.FAB_LOCK 16 16 v u) k = rd s k := by
  obtain ⟨-, -, -, -, -, -, -, hshown⟩ := lockShown_values (l := l) (offset := offset) h
  refine ⟨?_, (fld_setFld hu.regs _ _ _ (by decide)).trans (Nat.mod_eq_of_lt hv),
    fun k hne => (rd_setFld_ne hu.regs _ _ _ hne).trans ((hk k).trans (rd_lockShown_ne h.regs hne))⟩
  rw [fld_setFld_ne hu.regs _ _ _ (by decide) (.inl (by decide)), fld_def, hk, ← fld_def, hshown, hf, if_pos rfl]

/-- With none running it follows its partner: locked within the tolerance, and stepping outside it. -/
theorem forgeLock_follows_values (h : Canon s) (hr : castingRuns s = false) (hf : follows s l = true) (sent : BitVec 64) (offset : BitVec 16) :
    let t := forgeLock l sent offset s
    let out := decide (lockTolerance l < offset.toInt.natAbs)
    fld t Reg.FAB_LOCK 15 0 = offset.toNat ∧ fld t Reg.FAB_LOCK 16 16 = (if out then 0 else 1) ∧
    t.time.tick = (if out then BitVec.ofNat 64 ((now s : Int) + offset.toInt / 16).toNat else s.time.tick) ∧
    (∀ k, k ≠ Reg.FAB_LOCK → rd t k = rd s k) ∧ t.time.cycles = s.time.cycles ∧ t.cells = s.cells ∧ t.dram = s.dram := by
  intro t out
  obtain ⟨hc, htime, -, hcells, hdram, hruns, hfollows, -⟩ := lockShown_values (l := l) (offset := offset) h
  have hnow : now (lockShown l offset s) = now s := congrArg (fun x : Time => x.tick.toNat) htime
  have ht : t = if out = true then lockStepped l sent offset (lockShown l offset s) else setFld Reg.FAB_LOCK 16 16 1 (lockShown l offset s) :=
    forgeLock_follows (hruns.trans hr) (hfollows.trans hf)
  cases ho : out with
  | true =>
    rw [ho, if_pos rfl, lockStepped] at ht
    have hu : Canon { stepTicks offset.toInt (lockShown l offset s) with time := { (stepTicks offset.toInt (lockShown l offset s)).time with
      mandrel := sent + BitVec.ofNat 64 (rd (lockShown l offset s) (bankKey Reg.FAB_PORT_DELAY (physOf (lockShown l offset s) l)) / 1280) } } :=
      canon_mk hc
    obtain ⟨hshow, hbit, hregs⟩ := lockBit_values hu (fun _ => rfl) h hf (v := 0) (by decide)
    rw [ht]
    refine ⟨hshow, hbit, ?_, hregs, ?_, hcells, hdram⟩
    · rw [← hnow]
      rfl
    · rw [← htime]
      rfl
  | false =>
    rw [ho, if_neg Bool.false_ne_true] at ht
    obtain ⟨hshow, hbit, hregs⟩ := lockBit_values hc (fun _ => rfl) h hf (v := 1) (by decide)
    rw [ht]
    exact ⟨hshow, hbit, congrArg Time.tick htime, hregs, congrArg Time.cycles htime, hcells, hdram⟩

end

end Sys2Proof.Machine
end

section
/-! PROOFS. Stretch boundaries (R64, R294, R297); the slot tags, codewords and locks settled. -/
namespace Sys2Proof.Machine

section
variable {s t z : State} {p l : Nat} {sent echo : BitVec 64} {offset : BitVec 16}

/-! ### The works port's lock, from the state before the LOCK -/

/-- What the LOCK of a works port comes to. -/
theorem worksLock_values (hr : LockHeard p s z) (hp : p < 48) (off : Int) :
    (castingRuns s = false → worksFar s off → (worksLock off z).time.tick = BitVec.ofNat 64 ((now s : Int) + off / 16).toNat) ∧
    (castingRuns s = true ∨ ¬ worksFar s off → (worksLock off z).time = s.time) := by
  refine ⟨fun hruns hfar => ?_, fun hstay => ?_⟩
  · rw [worksLock_far (hr.castingRuns.trans hruns) ((worksFar_heard hr hp off).2 hfar), ← hr.now]
    rfl
  · rw [worksLock_stays (by rwa [hr.castingRuns, worksFar_heard hr hp off]), hr.time]

/-! ### STRETCH_BOUNDARY and STRETCH_HALFWAY (R64, R294, R297) -/

/-- The held level and hold come into force. -/
def stretchInForce (z : State) : State := setFld Reg.PWR_STRETCH 23 21 (thermoLevel z.fab.held)
  (setFld Reg.FAB_COMBINE 4 4 (if z.fab.heldHold then 1 else 0) (setFld Reg.FAB_COMBINE 3 0 z.fab.held.toNat z))

/-- The local level is held for the next boundary, on tick `t`. -/
def stretchLocal (t : Nat) (z : State) : State := { z with fab := { z.fab with
  held := thermo (fld z Reg.PWR_STRETCH 5 3)
  heldHold := decide ((t + 65536) % 2 ^ 20 = 0) && decide (2 ^ 20 ≤ t) && markLacking z (t / 2 ^ 20 - 1)
  par := decide (t / 65536 % 2 = 1)
  frozen := false } }

theorem execStretchBoundary_eq (hz : runTo (nextMultiple 65536 s) s = z) :
    execStretchBoundary s = stretchLocal (nextMultiple 65536 s) (stretchInForce z) := by
  subst hz
  rfl

theorem thermoLevel_lt (b : BitVec 4) : thermoLevel b < 8 :=
  (List.length_filter_le _ _).trans_lt (by decide)

theorem stretchInForce_values (h : Canon z) : let t := stretchInForce z
    fld t Reg.FAB_COMBINE 3 0 = z.fab.held.toNat ∧ fld t Reg.FAB_COMBINE 4 4 = (if z.fab.heldHold then 1 else 0) ∧
    fld t Reg.PWR_STRETCH 23 21 = thermoLevel z.fab.held ∧ fld t Reg.PWR_STRETCH 5 3 = fld z Reg.PWR_STRETCH 5 3 ∧
    (∀ k, k ≠ Reg.FAB_COMBINE → k ≠ Reg.PWR_STRETCH → rd t k = rd z k) := by
  intro t
  have h1 : Canon (setFld Reg.FAB_COMBINE 3 0 z.fab.held.toNat z) := canon_setFld h
  have h2 : Canon (setFld Reg.FAB_COMBINE 4 4 (if z.fab.heldHold then 1 else 0) (setFld Reg.FAB_COMBINE 3 0 z.fab.held.toNat z)) := canon_setFld h1
  have hcombine : rd t Reg.FAB_COMBINE = rd (setFld Reg.FAB_COMBINE 4 4 (if z.fab.heldHold then 1 else 0)
      (setFld Reg.FAB_COMBINE 3 0 z.fab.held.toNat z)) Reg.FAB_COMBINE := rd_setFld_ne h2.regs _ _ _ (by decide)
  refine ⟨?_, ?_, ?_, ?_, fun k hc hp => ?_⟩
  · rw [fld_def, hcombine, ← fld_def, fld_setFld_ne h1.regs _ _ _ (by decide) (.inl (by decide)), fld_setFld h.regs _ _ _ (by decide)]
    exact Nat.mod_eq_of_lt z.fab.held.isLt
  · rw [fld_def, hcombine, ← fld_def, fld_setFld h1.regs _ _ _ (by decide)]
    exact Nat.mod_eq_of_lt (by split <;> decide)
  · exact (fld_setFld h2.regs _ _ _ (by decide)).trans (Nat.mod_eq_of_lt (thermoLevel_lt _))
  · refine (fld_setFld_ne h2.regs _ _ _ (by decide) (.inl (by decide))).trans ?_
    rw [fld_def, rd_setFld_ne h1.regs _ _ _ (by decide),
      rd_setFld_ne h.regs _ _ _ (by decide), ← fld_def]
  · exact (rd_setFld_ne h2.regs _ _ _ hp).trans ((rd_setFld_ne h1.regs _ _ _ hc).trans (rd_setFld_ne h.regs _ _ _ hc))

theorem stretchBoundary_values (h : Canon z) (n : Nat) (q : List Instr) : let t := withQueue q (stretchLocal n (stretchInForce z))
    fld t Reg.FAB_COMBINE 3 0 = z.fab.held.toNat ∧ fld t Reg.FAB_COMBINE 4 4 = (if z.fab.heldHold then 1 else 0) ∧
    fld t Reg.PWR_STRETCH 23 21 = thermoLevel z.fab.held ∧ t.fab.held = thermo (fld z Reg.PWR_STRETCH 5 3) ∧ t.fab.frozen = false ∧
    (∀ k, k ≠ Reg.FAB_COMBINE → k ≠ Reg.PWR_STRETCH → rd t k = rd z k) ∧ t.cells = z.cells ∧ t.dram = z.dram ∧ t.run = z.run := by
  obtain ⟨hlevel, hhold, hforce, hlocal, hregs⟩ := stretchInForce_values h
  exact ⟨hlevel, hhold, hforce, congrArg thermo hlocal, rfl, hregs, rfl, rfl, rfl⟩

/-- The held level no longer changes. -/
def heldFrozen (z : State) : State := { z with fab := { z.fab with frozen := true } }

theorem execStretchHalfway_eq (hz : runTo (65536 * (now s / 65536) + 32768) s = z) : execStretchHalfway s = heldFrozen z := by
  subst hz
  rfl

theorem heldFrozen_values (z : State) (q : List Instr) : let t := withQueue q (heldFrozen z)
    t.fab.frozen = true ∧ t.fab.held = z.fab.held ∧ t.regs = z.regs ∧ t.cells = z.cells ∧ t.dram = z.dram ∧ t.run = z.run :=
  ⟨rfl, rfl, rfl, rfl, rfl, rfl⟩

/-! ### A forge port's lock, from the state before the LOCK -/

/-- With a casting running. -/
theorem forgeLock_monitors (hr : LockHeard p s z) (hp : p < 48) (hl : l ≤ 46) (hruns : castingRuns s = true) (sent : BitVec 64) (offset : BitVec 16) :
    let t := forgeLock l sent offset z
    rd t (bankKey Reg.FAB_PORT_DELAY p) = rd z (bankKey Reg.FAB_PORT_DELAY p) ∧
    fld t Reg.FAB_LOCK 15 0 = (if follows s l then offset.toNat else fld s Reg.FAB_LOCK 15 0) ∧
    t.time = s.time ∧ (lockTolerance l < offset.toInt.natAbs → fld t Reg.FAB_STICKY 5 5 = 1 ∧ t.run.faultAt.isSome = true) ∧
    (¬ lockTolerance l < offset.toInt.natAbs → t.run = s.run) ∧ t.cells = s.cells ∧ t.dram = s.dram := by
  obtain ⟨hshown, htime, hout, hin, hregs, hcells, hdram⟩ := forgeLock_running_values hr.canon (hr.castingRuns.trans hruns) l sent offset
  rw [hr.follows hp hl, fld_def z, hr.regs Reg.FAB_LOCK (bankKey_ne_of_package (by decide) _ _), ← fld_def] at hshown
  exact ⟨hregs _ (bankKey_ne_of_package (by decide) _ _).symm (bankKey_ne_of_package (by decide) _ _).symm (reportKey_bankKey (by decide) (by omega)),
    hshown, htime.trans hr.time, hout, fun h => (hin h).trans hr.run, hcells.trans hr.cells, hdram.trans hr.dram⟩

/-- With none running, on the port of the partner that the part follows. -/
theorem forgeLock_steps (hr : LockHeard p s z) (hp : p < 48) (hl : l ≤ 46) (hruns : castingRuns s = false) (hf : follows s l = true)
    (sent : BitVec 64) (offset : BitVec 16) :
    let t := forgeLock l sent offset z
    let out := decide (lockTolerance l < offset.toInt.natAbs)
    rd t (bankKey Reg.FAB_PORT_DELAY p) = rd z (bankKey Reg.FAB_PORT_DELAY p) ∧
    fld t Reg.FAB_LOCK 15 0 = offset.toNat ∧ fld t Reg.FAB_LOCK 16 16 = (if out then 0 else 1) ∧
    t.time.tick = (if out then BitVec.ofNat 64 ((now s : Int) + offset.toInt / 16).toNat else s.time.tick) ∧
    (∀ k, k ≠ Reg.FAB_LOCK → k ≠ bankKey Reg.FAB_PORT_DELAY p → rd t k = rd s k) ∧ t.time.cycles = s.time.cycles ∧
    t.cells = s.cells ∧ t.dram = s.dram := by
  obtain ⟨hshown, hbit, htick, hregs, hcycles, hcells, hdram⟩ :=
    forgeLock_follows_values hr.canon (hr.castingRuns.trans hruns) ((hr.follows hp hl).trans hf) sent offset
  rw [hr.now, hr.time] at htick
  exact ⟨hregs _ (bankKey_ne_of_package (by decide) _ _).symm, hshown, hbit, htick, fun k hk hd => (hregs k hk).trans (hr.regs k hd),
    hcycles.trans (congrArg Time.cycles hr.time), hcells.trans hr.cells, hdram.trans hr.dram⟩

end

/-- Settles O30: each event is cut into its steps, which only report or mark; what they leave alone is said once of each. -/
theorem tagsLocksStretches : Obligations.TagsLocksStretches := by
  unfold Obligations.TagsLocksStretches
  refine ⟨?tag, ?notice, ?codeword, ?lock, ?stretch⟩
  case tag =>
    intro port tag bar fixed s hs v at_
    have h : Canon s := canon_iff.1 hs
    refine ⟨served_unchanged rfl, ⟨_, rfl, ?_⟩, ⟨_, rfl, ?_⟩, ?_⟩
    · have hc := corrected_tagRead h port fixed
      rw [execSlotTag_overlapped]
      simp only [withQueue_fab, withQueue_run, withQueue_cells, withQueue_dram, withQueue_flights]
      exact ⟨hc.held, hc.run, hc.cells, hc.dram, hc.flights⟩
    · simp only [fld_withQueue, withQueue_fab, withQueue_run, withQueue_cells, withQueue_dram, withQueue_flights]
      exact slotTag_values h port tag bar fixed
    · intro lane n hn hp q hsym
      refine ⟨_, rfl, ?_⟩
      simp only [rd_withQueue, fld_withQueue]
      exact codewordFixed_values h hn n.isLt hp hsym
  case notice =>
    intro port poison fault s hs t
    have h : Canon s := canon_iff.1 hs
    have hn := noticed_noticeFlag h port poison fault
    have ht : t = noticeFlag port poison fault s := landEffect_notice port poison fault s
    rw [ht]
    refine ⟨?_, ?_, hn.cells, hn.dram, hn.flights⟩
    · rintro rfl
      exact noticeFlag_poisoned h port fault
    · rintro rfl
      exact noticeFlag_faulted h port poison
  case codeword =>
    intro phys scheduled parcel s hs e
    refine ⟨_, rfl, ?_⟩
    simp only [rd_withQueue, fld_withQueue, withQueue_cells, withQueue_dram, withQueue_flights]
    exact uncorrectableCodeword_values (canon_iff.1 hs) phys scheduled parcel
  case lock =>
    intro phys sent echo offset s l hs out tick delay far hl hle hp
    have h : Canon s := canon_iff.1 hs
    refine ⟨_, rfl, ?_⟩
    rw [execLock_heard hl hle hp]
    simp only [rd_withQueue, fld_withQueue, withQueue_time, withQueue_run, withQueue_cells, withQueue_dram]
    obtain ⟨hheard, hnoEcho, hecho⟩ := lockHeard_values h phys.val sent echo
    generalize lockHeard phys.val sent echo s = z at *
    by_cases hw : l = 46
    · subst hw
      have hfar : far ↔ worksFar s offset.toInt :=
        and_congr_right fun _ => and_congr_right fun _ => decide_eq_true_iff
      obtain ⟨hsteps, hstays⟩ := worksLock_values hheard phys.isLt offset.toInt
      obtain ⟨hregs, hcells, hdram, hcycles⟩ := worksLock_frame offset.toInt z
      have hrd : ∀ k, rd (worksLock offset.toInt z) k = rd z k := fun k => rd_congr hregs k
      rw [if_pos rfl, hrd, hfar]
      exact ⟨hnoEcho, hecho, fun e => absurd rfl e, fun e => absurd rfl e, fun e => absurd rfl e, fun e => absurd rfl e, fun _ => hsteps,
        fun _ => hstays, fun _ k hk => (hrd k).trans (hheard.regs k hk), hcycles.trans (congrArg Time.cycles hheard.time),
        hcells.trans hheard.cells, hdram.trans hheard.dram⟩
    · rw [if_neg hw]
      cases hruns : castingRuns s with
      | true =>
        obtain ⟨hdelay, hshown, htime, hout, hin, hcells, hdram⟩ := forgeLock_monitors hheard phys.isLt hle hruns sent offset
        rw [hdelay]
        exact ⟨hnoEcho, hecho, fun _ => hshown, fun _ _ => ⟨htime, fun e => hout (of_decide_eq_true e), fun e => hin (of_decide_eq_false e)⟩,
          (fun _ e => by cases e), (fun _ e => by cases e), fun e => absurd e hw, fun e => absurd e hw, fun e => absurd e hw,
          congrArg Time.cycles htime, hcells, hdram⟩
      | false =>
        cases hf : follows s l with
        | false =>
          have hlock : rd z Reg.FAB_LOCK = rd s Reg.FAB_LOCK := hheard.regs _ (bankKey_ne_of_package (by decide) _ _)
          rw [forgeLock_unfollowed hheard.canon (hheard.castingRuns.trans hruns) ((hheard.follows phys.isLt hle).trans hf)]
          refine ⟨hnoEcho, hecho, fun _ => ?_, (fun _ e => by cases e), (fun _ _ e => by cases e), fun _ _ _ => ⟨hheard.time, hheard.regs⟩,
            fun e => absurd e hw, fun e => absurd e hw, fun e => absurd e hw, congrArg Time.cycles hheard.time, hheard.cells, hheard.dram⟩
          rw [if_neg Bool.false_ne_true, fld_def, hlock, ← fld_def]
        | true =>
          obtain ⟨hdelay, hshown, hbit, htick, hregs, hcycles, hcells, hdram⟩ := forgeLock_steps hheard phys.isLt hle hruns hf sent offset
          rw [hdelay]
          exact ⟨hnoEcho, hecho, fun _ => hshown, (fun _ e => by cases e), fun _ _ _ => ⟨hbit, htick, hregs⟩, (fun _ _ e => by cases e),
            fun e => absurd e hw, fun e => absurd e hw, fun e => absurd e hw, hcycles, hcells, hdram⟩
  case stretch =>
    intro s hs
    have h : Canon (runTo (nextMultiple 65536 s) s) := canon_runTo (canon_iff.1 hs)
    dsimp only
    generalize hz : runTo (nextMultiple 65536 s) s = z at *
    generalize hy : runTo (65536 * (now s / 65536) + 32768) s = y
    refine ⟨⟨_, rfl, ?_⟩, ⟨_, rfl, ?_⟩⟩
    · rw [execStretchBoundary_eq hz]
      exact stretchBoundary_values h _ _
    · rw [execStretchHalfway_eq hy]
      exact heldFrozen_values _ _

end Sys2Proof.Machine
end

section
/-! PROOFS. The load window (R41, R42): what its services leave of the period that it has opened. -/
namespace Sys2Proof.Machine

/-! ### What a load window opens and its services keep -/

/-- The registers that show the period. -/
def windowKey (k : Nat) : Bool := [Reg.SCH_STATUS, Reg.SCH_STEP, Reg.HLT_TAINT].contains k

/-- What the run records of the period that no service of the window changes. -/
def Run.period (r : Run) : Bool × Nat × Option Nat × Option Barrier × Option Barrier × Bool × Nat :=
  (r.on, r.start, r.outcome, r.veto, r.commit, r.suppressed, r.steps)

/-- All of a state that shows whether the period stands as it was opened. -/
def windowView (s : State) := (s.regs, s.run.period, s.streams, s.mem.slots)

/-- The period that `z` opened still stands as it was opened. -/
structure InWindow (z t : State) : Prop where
  wf : wf regDefault t.regs = true
  regs : ∀ k, windowKey k = true → rd t k = rd z k
  period : t.run.period = z.run.period
  streams : t.streams = z.streams
  slots : t.mem.slots = z.mem.slots

section
variable {s t z : State}

theorem inWindow_self (h : Canon z) : InWindow z z := ⟨h.regs, fun _ _ => rfl, rfl, rfl, rfl⟩

theorem InWindow.same (h : InWindow z s) (hv : windowView t = windowView s) : InWindow z t := by
  simp only [windowView, Prod.mk.injEq] at hv
  obtain ⟨hr, hp, hst, hsl⟩ := hv
  exact ⟨hr ▸ h.wf, fun k hk => (rd_congr hr k).trans (h.regs k hk), hp.trans h.period, hst.trans h.streams, hsl.trans h.slots⟩

theorem InWindow.wr (h : InWindow z s) {k : Nat} (hk : windowKey k = false) (v : Nat) : InWindow z (wr k v s) :=
  ⟨wf_put h.wf, fun j hj => (rd_wr_ne h.wf v (ne_of_key hj hk)).trans (h.regs j hj), h.period, h.streams, h.slots⟩

theorem not_windowKey {p : Nat → Bool} (h : p Reg.SCH_STATUS = false ∧ p Reg.SCH_STEP = false ∧ p Reg.HLT_TAINT = false) {k : Nat}
    (hk : p k = true) : windowKey k = false := by
  obtain ⟨h1, h2, h3⟩ := h
  refine Bool.eq_false_iff.2 fun e => ?_
  simp only [windowKey, List.contains_iff_mem, List.mem_cons, List.not_mem_nil, or_false] at e
  obtain e | e | e := e
  · exact ne_of_key hk h1 e
  · exact ne_of_key hk h2 e
  · exact ne_of_key hk h3 e

theorem windowKey_bankKey (a p : Nat) : windowKey (bankKey a p) = false :=
  not_windowKey (p := fun k => decide (k = bankKey a p))
    ⟨decide_eq_false (bankKey_ne_of_package (by decide) a p), decide_eq_false (bankKey_ne_of_package (by decide) a p),
      decide_eq_false (bankKey_ne_of_package (by decide) a p)⟩ (decide_eq_true rfl)

/-- Scrubbing a line changes DRAM alone. -/
theorem scrubbed_shape (a : Nat) (s : State) : ∃ d, scrubbed a s = { s with dram := d } := by
  unfold scrubbed setMark dramPut
  exact ⟨_, rfl⟩

theorem inWindow_scrubbed (h : InWindow z s) (a : Nat) : InWindow z (scrubbed a s) := by
  obtain ⟨d, hd⟩ := scrubbed_shape a s
  rw [hd]
  exact h.same (by rfl)

theorem keptByWrites_inWindow : KeptByWrites (InWindow z) :=
  ⟨⟨⟨fun hk h => h.wr (not_windowKey (p := recKey) (by decide) hk) _, fun h => h.same (by rfl)⟩,
    fun hk h => h.wr (not_windowKey (p := readKey) (by decide) hk) _, fun h => h.same (by rfl),
      fun h => inWindow_scrubbed h _⟩, fun h => h.same (by rfl)⟩

namespace InWindow

theorem setFld (h : InWindow z s) {k : Nat} (hi lo v : Nat) (hk : windowKey k = false) : InWindow z (setFld k hi lo v s) := h.wr hk _

theorem sticky (h : InWindow z s) {k : Nat} (bit : Nat) (hk : windowKey k = false) : InWindow z (sticky k bit s) :=
  (h.wr hk _).same (by rfl)

theorem launch (h : InWindow z s) (due : Nat) (e : Effect) : InWindow z (launch due e s) := h.same (by rfl)

theorem jobFault (h : InWindow z s) : InWindow z (jobFault s) := by
  unfold Machine.jobFault
  split
  · exact h.same (by rfl)
  · exact h

theorem recordOf (h : InWindow z s) (cls reg : Nat) (loc : List (Nat × Nat)) (first : Nat) : InWindow z (recordOf cls reg loc first s) :=
  keptByWrites_inWindow.recordOf _ _ _ _ h

theorem record (h : InWindow z s) (cls : Nat) (loc : List (Nat × Nat)) (first : Nat) : InWindow z (record cls loc first s) :=
  keptByWrites_inWindow.record _ _ _ h

theorem forgets (h : InWindow z s) {p : Nat → Bool} (hp : ∀ k, windowKey k = true → p k = false) :
    InWindow z { s with regs := forget p s.regs } :=
  ⟨wf_forget h.wf, fun k hk => (congrArg BitVec.toNat (get_forget_not (hp k hk) h.wf)).trans (h.regs k hk), h.period, h.streams, h.slots⟩

theorem onCell (h : InWindow z s) (c : Nat) (f : Cell → Cell) : InWindow z (onCell c f s) := h.same (by rfl)

theorem missingFault (h : InWindow z s) : InWindow z (missingFault s) := by
  unfold Machine.missingFault
  split
  · exact (jobFault (h.same (by rfl))).recordOf _ _ _ _
  · exact h

/-! #### Fills that have passed (R387) -/

theorem mapsChanged (h : InWindow z s) : InWindow z (mapsChanged s) := sticky (h.same (by rfl)) 4 (by decide)

theorem wear (h : InWindow z s) (counter die unit n : Nat) : InWindow z (wear counter die unit n s) :=
  mapsChanged (h.wr (windowKey_bankKey _ _) _)

theorem placeFill (h : InWindow z s) (slot kind die cell a col : Nat) (f : Fill) : InWindow z (placeFill slot kind die cell a col f s) :=
  (h.wr (windowKey_bankKey _ _) _).same (by rfl)

theorem nextFill (h : InWindow z s) (die slot : Nat) : InWindow z (nextFill die slot s) := by
  unfold Machine.nextFill
  extract_lets s1 k s2
  have h1 : InWindow z s1 := (h.wr (windowKey_bankKey _ _) _).same (by rfl)
  have h2 : InWindow z s2 := by
    unfold s2
    split
    · exact (h1.wr (windowKey_bankKey _ _) _).wr (windowKey_bankKey _ _) _
    · exact h1
  split
  · split
    · exact placeFill (same (h2.wr (k := Reg.SPR_LOST) (by decide) 0) (by rfl)) ..
    · exact h2
  · exact h2

theorem retire (h : InWindow z s) (r : Nat × Nat × Nat × Nat × Nat) : InWindow z (retire r s) := by
  unfold Machine.retire
  split
  · exact h
  · exact h.same (by rfl)

theorem capacityLoss (h : InWindow z s) (loc : List (Nat × Nat)) : InWindow z (capacityLoss loc s) :=
  ((h.sticky 3 (by decide)).mapsChanged.record _ _ _).jobFault

theorem replaceColumn (h : InWindow z s) (c a col old p : Nat) : InWindow z (replaceColumn c a col old p s) := by
  refine wear ?_ _ _ _ _
  have hmark : InWindow z (markColBad c a old s) := (h.onCell _ _).mapsChanged
  have hmap : InWindow z (setColMap c a col p (holdTrims c a (markColBad c a old s))) := ((hmark.onCell c _).onCell _ _).mapsChanged
  unfold takeColumn
  dsimp only
  split
  · exact hmap.sticky 2 (by decide)
  · exact hmap

theorem setCellMap (h : InWindow z s) (die cell c : Nat) : InWindow z (setCellMap die cell c s) := by
  unfold Machine.setCellMap
  refine mapsChanged (same (s := if phys s die cell = c then s else moveTrims (phys s die cell) c s) ?_ (by rfl))
  split
  · exact h
  · exact each_inv (InWindow z) (fun _ _ _ h => h.same (by rfl)) h

theorem applyFill (h : InWindow z s) (die slot : Nat) : InWindow z (applyFill die slot s) := by
  unfold Machine.applyFill
  dsimp only
  split
  · split
    · exact ((h.retire _).capacityLoss _).nextFill _ _
    · exact nextFill (same (h.replaceColumn _ _ _ _ _) (by rfl)) _ _
  · exact (((h.same (by rfl) |>.onCell _ _).onCell _ _).setCellMap _ _ _ |>.wear _ _ _ _).nextFill _ _

theorem applyPassed (h : InWindow z s) : InWindow z (applyPassed s) := by
  refine each_inv (InWindow z) (fun k _ t ht => ?_) h
  split
  · exact ht.applyFill _ _
  · exact ht

/-! #### The cells that rest, the tinker cores and the mailbox (R59, R321, R380) -/

theorem dozeOthers (h : InWindow z s) : InWindow z (dozeOthers s) := by
  refine each_inv (InWindow z) (fun d _ t ht => each_inv (InWindow z) (fun c _ u hu => ?_) ht) h
  dsimp only
  split
  · exact hu
  · exact hu.onCell _ _

theorem applyCoreSwaps (h : InWindow z s) : InWindow z (applyCoreSwaps s) :=
  each_inv (InWindow z) (fun _ _ _ ht => each_inv (InWindow z) (fun _ _ _ hu => hu.same (by rfl)) ht) (h.same (by rfl))

theorem sendPacket (h : InWindow z s) (q opcode va rkey : Nat) (payload : List Byte) (imm : Nat) (ev : Bool) :
    InWindow z (sendPacket q opcode va rkey payload imm ev s) := (h.wr (windowKey_bankKey _ _) _).same (by rfl)

theorem sendMessage (h : InWindow z s) (q : Nat) (write : Bool) (va rkey : Nat) (data : List Byte) :
    InWindow z (sendMessage q write va rkey data s) := each_inv (InWindow z) (fun _ _ _ ht => ht.sendPacket ..) h

theorem advanceCons (h : InWindow z s) (n : Nat) : InWindow z (advanceCons n s) := by
  induction n generalizing s with
  | zero => exact h
  | succ n ih =>
    rw [Machine.advanceCons]
    split
    · exact ih (wr (same h (by rfl)) (by decide) _)
    · exact h

theorem windowKey_mbox {slot : Nat} (hs : slot < 64) : windowKey (Reg.HST_MBOX + 64 * slot) = false := by
  refine not_windowKey (p := fun k => decide (k = Reg.HST_MBOX + 64 * slot)) ?_ (decide_eq_true rfl)
  unfold Reg.HST_MBOX Reg.SCH_STATUS Reg.SCH_STEP Reg.HLT_TAINT
  simp only [decide_eq_false_iff_not]
  omega

theorem finishEntry (h : InWindow z s) (k status : Nat) : InWindow z (finishEntry k status s) := by
  unfold Machine.finishEntry
  extract_lets slot s1 q host s2 s3
  have h1 : InWindow z s1 := h.setFld _ _ _ (windowKey_mbox (Nat.mod_lt k (by decide)))
  have h2 : InWindow z s2 := h1.same (by rfl)
  have h3 : InWindow z s3 := h2.advanceCons 64
  split
  · exact h3
  · split
    · exact h3.sendMessage ..
    · exact h3

theorem setSreg (h : InWindow z s) (die g r : Nat) (v : F16) : InWindow z (setSreg die g r v s) := h.same (by rfl)

theorem applySreg (h : InWindow z s) (b : List Byte) : InWindow z (applySreg b s) :=
  each_inv (InWindow z) (fun _ _ _ ht => ht.setSreg ..) h

theorem applyWaiting (h : InWindow z s) (rng : Nat) (comps : List Nat) : InWindow z (applyWaiting rng comps s) := by
  refine each_inv (InWindow z) (fun w _ t ht => ?_) (h.same (by rfl))
  dsimp only
  split <;> exact (ht.applySreg _).finishEntry _ _

/-! #### The format and scale table, and the checks of the window (R149, R246, R286, R326) -/

theorem tableRead (h : InWindow z s) : InWindow z (tableRead s) := by
  unfold Machine.tableRead
  split
  · exact keptByWrites_inWindow.readSpan _ _ h
  · exact h

theorem windowTable (h : InWindow z s) : InWindow z (windowTable s) := by
  unfold Machine.windowTable
  extract_lets s1 l all caut copy first tab s2 s3
  have h2 : InWindow z s2 := h.tableRead.same (by rfl)
  have h3 : InWindow z s3 := by
    unfold s3
    split
    · exact h2.launch _ _
    · exact h2
  refine each_inv (InWindow z) (fun e _ t ht => ?_) h3
  split
  · exact ht
  · exact each_inv (InWindow z) (fun _ _ _ hu => hu.setSreg ..) ht

theorem windowRegisters (h : InWindow z s) : InWindow z (windowRegisters s) := (h.applyCoreSwaps.applyWaiting _ _).windowTable

theorem clearOvf (h : InWindow z s) : InWindow z (clearOvf s) := by
  unfold Machine.clearOvf
  refine forgets h fun k hk => ?_
  have hlow : decide (2 ^ 36 ≤ k) = false := by
    simp only [windowKey, List.contains_iff_mem, List.mem_cons, List.not_mem_nil, or_false] at hk
    obtain rfl | rfl | rfl := hk <;> decide
  simp only [hlow, Bool.false_and]

theorem firstWindow (h : InWindow z s) : InWindow z (firstWindow s) := by
  have hmem : ∀ t, InWindow z t → InWindow z (memTablesCheck t) := by
    intro t ht
    unfold memTablesCheck
    split
    · exact (ht.launch _ _).sticky 8 (by decide)
    · exact ht
  have hlink : ∀ t, InWindow z t → InWindow z (linkTablesCheck t) := by
    intro t ht
    unfold linkTablesCheck
    split
    · exact (ht.launch _ _).sticky 14 (by decide)
    · exact ht
  unfold Machine.firstWindow
  split
  · exact hlink _ (hmem _ (h.same (by rfl)))
  · exact h

theorem sampleMasks (h : InWindow z s) : InWindow z (sampleMasks s) := h.same (by rfl)

theorem intakeCheck (h : InWindow z s) : InWindow z (intakeCheck s) := by
  unfold Machine.intakeCheck
  split
  · exact h
  · exact ((h.sticky 7 (by decide)).recordOf _ _ _ _).launch _ _

end InWindow

end

end Sys2Proof.Machine
end

section
/-! PROOFS. LOAD_WINDOW, stage by stage (R41, R42, R87, R165). -/
namespace Sys2Proof.Machine

section
variable {s t z : State}

/-! ### The stages of a load window -/

/-- RUNNING, the step number, no taint and the record of a new period. -/
def windowBegun (at_ : Nat) (s : State) : State :=
  let z := setSchState 4 (wr Reg.SCH_STEP (nextStep s) s)
  wr Reg.HLT_TAINT 0 { z with run := newPeriod at_ (rngStep z) z.run }

/-- The maps, the cells and the tables that the step uses. -/
def windowServed (s : State) : State := clearOvf (windowRegisters (dozeOthers (applyPassed (missingFault s))))

/-- No stream word is fetched and no slot claimed. -/
def slotsFreed (n : Nat) (s : State) : State :=
  { s with mem := { s.mem with slots := [], prev := if n = 0 then [] else s.mem.slots, window := [] }, streams := [] }

/-- The window's checks. -/
def windowChecked (s : State) : State := intakeCheck (sampleMasks (firstWindow s))

/-- The step is counted. -/
def stepCounted (n : Nat) (s : State) : State :=
  let due := s.casting.elim false fun c => c.evalInt != 0 && n % c.evalInt == 0 && fld s Reg.SCH_CTRL 3 3 == 0
  { s with run := { s.run with evalDue := due, newBatch := false, steps := s.run.steps + 1 } }

/-- All of a load window, on its tick. -/
def windowDone (at_ n : Nat) (s : State) : State :=
  sweepBoundary (stepCounted n (stepMark (mapCells anvilWindow (windowChecked (slotsFreed n (windowServed (windowBegun at_ s)))))))

theorem execLoadWindow_opens (hon : s.run.on = false) (hst : schState s = 3 ∨ schState s = 4)
    (hst' : schState (runTo (periodStart s) s) = 3 ∨ schState (runTo (periodStart s) s) = 4) :
    execLoadWindow s = windowDone (periodStart s) (nextStep (runTo (periodStart s) s)) (runTo (periodStart s) s) := by
  have h1 : (s.run.on || (schState s != 3 && schState s != 4)) = false := by
    rw [hon]
    obtain e | e := hst <;> rw [e] <;> rfl
  have h2 : ¬ (schState (runTo (periodStart s) s) ≠ 3 ∧ schState (runTo (periodStart s) s) ≠ 4) := by omega
  unfold execLoadWindow
  rw [if_neg (Bool.eq_false_iff.1 h1)]
  simp only [windowDone, stepCounted, windowChecked, slotsFreed, windowServed, windowBegun, if_neg h2]

/-! ### What each stage leaves -/

theorem nextStep_lt (s : State) : nextStep s < 2 ^ 32 := by
  unfold nextStep
  split
  · decide
  · exact Nat.mod_lt _ (by decide)

theorem windowBegun_values (h : Canon s) (at_ : Nat) : let t := windowBegun at_ s
    Canon t ∧ schState t = 4 ∧ rd t Reg.SCH_STEP = nextStep s ∧ rd t Reg.HLT_TAINT = 0 ∧
    t.run.period = (true, at_, none, none, none, false, s.run.steps) := by
  intro t
  have hstep : Canon (wr Reg.SCH_STEP (nextStep s) s) := canon_wr h
  have hrun : Canon (setSchState 4 (wr Reg.SCH_STEP (nextStep s) s)) := canon_setSchState hstep
  have hne : ∀ k, k ≠ Reg.HLT_TAINT → rd t k = rd (setSchState 4 (wr Reg.SCH_STEP (nextStep s) s)) k := fun k hk => rd_wr_ne hrun.regs _ hk
  refine ⟨canon_wr (canon_mk hrun), ?_, ?_, rd_wr hrun.regs _ _, ?_⟩
  · rw [schState, fld_def, hne _ (by decide), ← fld_def]
    exact schState_setSchState hstep (by decide)
  · rw [hne _ (by decide), rd_setSchState hstep (by decide) (by decide), rd_wr h.regs]
    exact Nat.mod_eq_of_lt (nextStep_lt s)
  · have hsteps : (setSchState 4 (wr Reg.SCH_STEP (nextStep s) s)).run.steps = s.run.steps := by rw [setSchState_run]; rfl
    rw [← hsteps]
    rfl

theorem inWindow_windowServed (h : InWindow z s) : InWindow z (windowServed s) :=
  h.missingFault.applyPassed.dozeOthers.windowRegisters.clearOvf

theorem canon_windowServed (h : Canon s) : Canon (windowServed s) :=
  canon_clearOvf (canon_windowRegisters (canon_dozeOthers (canon_applyPassed (canon_missingFault h))))

theorem inWindow_windowChecked (h : InWindow z s) : InWindow z (windowChecked s) := h.firstWindow.sampleMasks.intakeCheck

theorem canon_windowChecked (h : Canon s) : Canon (windowChecked s) := canon_intakeCheck (canon_sampleMasks (canon_firstWindow h))

/-- Every operand buffer is empty and every chain closed. -/
theorem anvilWindow_values (h : Canon s) (c i : Nat) :
    (bufAt (mapCells anvilWindow s) c i).staged = false ∧ (chainAt (mapCells anvilWindow s) c i).opened = false := by
  have hcell : cellAt (mapCells anvilWindow s) c = anvilWindow (cellAt s c) := cellAt_mapCells rfl h.cells c
  have hc := cellCanon_at h c
  rw [bufAt, chainAt, hcell]
  exact ⟨congrArg AnvBuf.staged (get_mapVals (f := fun b : AnvBuf => { b with staged := false }) rfl hc.bufs i),
    congrArg Chain.opened (get_mapVals (f := fun b : Chain => { b with opened := false }) rfl hc.chains i)⟩

theorem keptByWrites_cells {v : SMap Cell} : KeptByWrites fun s => s.cells = v := keptByWrites_view

theorem InWindow.capMarks (h : InWindow z s) (m : List (Nat × Nat)) : InWindow z { s with run := { s.run with capMarks := m } } := h.same (by rfl)

theorem keptByWrites_run {v : Run} : KeptByWrites fun s => s.run = v := keptByWrites_view

theorem InWindow.mapCells (h : InWindow z s) (f : Cell → Cell) : InWindow z (mapCells f s) := h.same (by rfl)

theorem capReserve_values (n : Nat) (h : InWindow z s) : InWindow z (capReserve n s) ∧ (capReserve n s).cells = s.cells := by
  unfold capReserve
  extract_lets total live s1 run s2
  have h1 : InWindow z s1 ∧ s1.cells = s.cells := by
    unfold s1
    split
    · exact ⟨h.sticky 3 (by decide), rfl⟩
    · exact ⟨h, rfl⟩
  obtain ⟨hw, hc⟩ := h1
  have h2 : InWindow z s2 := hw.same (by rfl)
  exact ⟨(h2.wr (by decide) _).wr (by decide) _, hc⟩

theorem stepMark_values (h : InWindow z s) : InWindow z (stepMark s) ∧ (stepMark s).cells = s.cells := by
  unfold stepMark
  split
  · exact ⟨h, rfl⟩
  · extract_lets at_ m s1
    have h1 : InWindow z s1 := keptByWrites_inWindow.asyncWrite _ _ h
    have hc : s1.cells = s.cells := keptByWrites_cells.asyncWrite _ _ rfl
    clear_value s1
    obtain ⟨hw, hcells⟩ := capReserve_values 1 (h1.capMarks (s1.run.capMarks ++ [m]))
    exact ⟨hw, hcells.trans hc⟩

/-- The sweep check only reports. -/
theorem sweepBoundary_inv {P : State → Prop} (hP : KeptByRecords P) (hlast : ∀ {s : State} (v : Nat), P s → P (wr Reg.CAL_LAST v s))
    (hsticky : ∀ {s : State} (bit : Nat), P s → P (sticky Reg.CAL_STICKY bit s)) (h : P s) : P (sweepBoundary s) := by
  unfold sweepBoundary
  extract_lets n
  split
  · exact h
  · refine each_inv P (fun k _ t ht => ?_) h
    dsimp only
    split
    · exact ht
    · exact hP.record _ _ _ (hsticky 4 (hlast _ ht))

theorem sweepBoundary_values (h : InWindow z s) : InWindow z (sweepBoundary s) ∧ (sweepBoundary s).cells = s.cells ∧
    (sweepBoundary s).run = s.run :=
  ⟨sweepBoundary_inv keptByWrites_inWindow.toKeptByRecords (fun _ h => h.wr (by decide) _) (fun b h => h.sticky b (by decide)) h,
    sweepBoundary_inv (P := fun t => t.cells = s.cells) keptByWrites_cells.toKeptByRecords (fun _ h => h) (fun _ h => h) rfl,
    sweepBoundary_inv (P := fun t => t.run = s.run) keptByWrites_run.toKeptByRecords (fun _ h => h) (fun _ h => h) rfl⟩

/-! ### The whole window -/

theorem rd_slotsFreed (n k : Nat) (s : State) : rd (slotsFreed n s) k = rd s k := rfl

theorem slotsFreed_run (n : Nat) (s : State) : (slotsFreed n s).run = s.run := rfl

/-- What the end of the window leaves of the period, with its step counted. -/
theorem windowEnd_values (h : InWindow z s) (n : Nat) : let t := sweepBoundary (stepCounted n (stepMark s))
    (∀ k, windowKey k = true → rd t k = rd z k) ∧ (t.run.on, t.run.start, t.run.outcome, t.run.veto, t.run.commit, t.run.suppressed,
      t.run.steps) = (z.run.on, z.run.start, z.run.outcome, z.run.veto, z.run.commit, z.run.suppressed, z.run.steps + 1) ∧
    t.run.newBatch = false ∧ t.streams = z.streams ∧ t.mem.slots = z.mem.slots ∧ t.cells = s.cells := by
  intro t
  obtain ⟨hmark, hcells⟩ := stepMark_values h
  have hperiod := hmark.period
  simp only [Run.period, Prod.mk.injEq] at hperiod
  obtain ⟨hon, hstart, houtcome, hveto, hcommit, hsupp, hsteps⟩ := hperiod
  have hcount : InWindow (stepCounted n (stepMark s)) (stepCounted n (stepMark s)) := ⟨hmark.wf, fun _ _ => rfl, rfl, rfl, rfl⟩
  obtain ⟨hend, hend_cells, hend_run⟩ := sweepBoundary_values hcount
  refine ⟨fun k hk => (hend.regs k hk).trans (hmark.regs k hk), ?_, congrArg Run.newBatch hend_run, hend.streams.trans hmark.streams,
    hend.slots.trans hmark.slots, hend_cells.trans hcells⟩
  rw [show t.run = (stepCounted n (stepMark s)).run from hend_run, ← hon, ← hstart, ← houtcome, ← hveto, ← hcommit, ← hsupp, ← hsteps]
  rfl

theorem windowDone_values (h : Canon s) (at_ n : Nat) (q : List Instr) : let t := withQueue q (windowDone at_ n s)
    schState t = 4 ∧ rd t Reg.SCH_STEP = nextStep s ∧ rd t Reg.HLT_TAINT = 0 ∧ t.run.on = true ∧ t.run.start = at_ ∧
    t.run.outcome = none ∧ t.run.veto = none ∧ t.run.commit = none ∧ t.run.suppressed = false ∧ t.run.newBatch = false ∧
    t.run.steps = s.run.steps + 1 ∧ t.streams = [] ∧ t.mem.slots = [] ∧
    (∀ c i, (bufAt t c i).staged = false) ∧ (∀ c i, (chainAt t c i).opened = false) := by
  unfold windowDone
  obtain ⟨hc, hst, hstep, htaint, hperiod⟩ := windowBegun_values h at_
  have hserved := inWindow_windowServed (inWindow_self hc)
  have hfreed : Canon (slotsFreed n (windowServed (windowBegun at_ s))) := canon_mk (canon_windowServed hc)
  have hanvil := anvilWindow_values (canon_windowChecked hfreed)
  have hchecked : InWindow (slotsFreed n (windowServed (windowBegun at_ s)))
      (mapCells anvilWindow (windowChecked (slotsFreed n (windowServed (windowBegun at_ s))))) :=
    (inWindow_windowChecked (inWindow_self hfreed)).mapCells _
  obtain ⟨hregs, hrun, hbatch, hstreams, hslots, hcells⟩ := windowEnd_values hchecked n
  generalize sweepBoundary _ = t at *
  have hrd : ∀ k, windowKey k = true → rd t k = rd (windowBegun at_ s) k := fun k hk => (hregs k hk).trans ((rd_slotsFreed ..).trans (hserved.regs k hk))
  have hkept := hserved.period.trans hperiod
  simp only [Run.period, slotsFreed_run, Prod.mk.injEq] at hkept hrun
  obtain ⟨hon, hstart, houtcome, hveto, hcommit, hsupp, hsteps⟩ := hkept
  obtain ⟨ton, tstart, toutcome, tveto, tcommit, tsupp, tsteps⟩ := hrun
  have hbufs : ∀ c, cellAt t c = cellAt (mapCells anvilWindow (windowChecked (slotsFreed n (windowServed (windowBegun at_ s))))) c :=
    fun c => congrArg (fun m => get (fun _ => Cell.init) m c) hcells
  simp only [rd_withQueue, schState, fld_withQueue, withQueue_run, withQueue_streams, withQueue_mem, bufAt_withQueue, chainAt_withQueue]
  refine ⟨?_, (hrd _ (by decide)).trans hstep, (hrd _ (by decide)).trans htaint, ton.trans hon, tstart.trans hstart, toutcome.trans houtcome,
    tveto.trans hveto, tcommit.trans hcommit, tsupp.trans hsupp, hbatch, tsteps.trans (congrArg (· + 1) hsteps), hstreams, hslots,
    fun c i => ?_, fun c i => ?_⟩
  · rw [fld_def, hrd _ (by decide), ← fld_def]
    exact hst
  · rw [bufAt, hbufs]
    exact (hanvil c i).1
  · rw [chainAt, hbufs]
    exact (hanvil c i).2

end

/-- Settles O17: the window opens the period in its first stage; no later one writes the registers that show it or its record. -/
theorem loadWindowOpens : Obligations.LoadWindowOpens := by
  unfold Obligations.LoadWindowOpens
  intro s hs hon hst s' hst'
  refine ⟨_, rfl, ?_⟩
  rw [execLoadWindow_opens hon hst hst']
  exact windowDone_values (canon_runTo (canon_iff.1 hs)) _ _ _

end Sys2Proof.Machine
end

section
/-! PROOFS. An ARR word claims its array: occupied, it is refused; beyond the budget of 16, it raises BUDGET (R58, R79, R80). -/
namespace Sys2Proof.Machine

section
variable {c a span : Nat} {w : Slot} {body : State → State} {s : State}

theorem claimArray_occupied (h : now s < (arrAt s c a).busy) : claimArray c a span w body s = wordViol 0 1 w s := if_pos h

theorem claimArray_budget (h : (arrAt s c a).busy ≤ now s) (ho : 16 ≤ occupied s c) :
    claimArray c a span w body s = sticky (cellKey c Reg.ARR_STICKY) 4 (wordViol 1 1 w s) :=
  (if_neg (Nat.not_lt.2 h)).trans (if_pos ho)

theorem claimArray_free (h : (arrAt s c a).busy ≤ now s) (ho : occupied s c < 16) :
    claimArray c a span w body s = body (setArr c a { arrAt s c a with busy := now s + span } s) :=
  (if_neg (Nat.not_lt.2 h)).trans (if_neg (Nat.not_le.2 ho))

end

section
variable {c : Instr} {head : BitVec 8} {w : Slot} {ready : State → Bool} {s : State}

/-- Ticks for which an evaluation of four or eight bits occupies its array. -/
def evalSpan (a8 : Bool) : Nat := if a8 then 128 else 64

/-- The codes of the passes in a replay record: by range and shift, as the word that it records had them. -/
def replayPasses (w : Slot) (b : List Byte) : List (Nat × List (List Int)) :=
  let n0 := bits (byteAt b 0x15) 2 0
  let n1 := if opf w 67 67 == 1 then bits (byteAt b 0x15) 5 3 else 0
  let codes := fun i => ((b.drop (64 + 256 * i)).take 256).map (·.toInt)
  let hc := (List.range n0).map codes
  let lc := (List.range n1).map fun i => codes (n0 + i)
  if opf w 67 67 == 1 then [(opf w 82 80 + 4, hc), (opf w 66 64, lc)] else [(opf w 82 80, hc)]

/-- A record leaves replay ring 62 of a cell. -/
def recordTaken (c len : Nat) (w : Slot) (s : State) : State :=
  onCell c (fun x => { x with ring62 := x.ring62 + len }) (ringTake c 62 len 1 w (useFree 260 s))

/-- A REPLAY that has its array. -/
def replayed (w : Slot) (s : State) : State :=
  let c := placePhys s w.place
  let b := nextRecord s (placeDie w.place) c
  let t := recordTaken c (byteAt b 4 + 256 * byteAt b 5) w s
  evalFinish c (opf w 89 83) (opf w 71 68) (now t + (if opf w 67 67 == 1 then 129 else 65)) (replayPasses w b)
    (evalResults (opf w 79 72) (replayPasses w b)
      (replayTrims s c (arrOp w) (leNat ((b.drop 6).take 2)) (leNat ((b.drop 12).take 4)))
      (((List.range 260).map (listCol s c (arrOp w))).map (expAt t c (arrOp w)))) t

theorem replayAct_eq (w : Slot) (s : State) : replayAct w s =
    claimArray (placePhys s w.place) (arrOp w) (evalSpan (opf w 67 67 == 1)) w (replayed w) s := rfl

/-- The words of unit 1, HOLD apart, with what each does on its issue tick. -/
theorem arr_cases (hw : slotWord c = some (head, w, ready)) (hu : head.toNat / 16 = 1) (hr : ready s = true) (hc : head.toNat % 16 ≠ 0) :
    ∃ act, (∃ span body, ∀ z, act z = claimArray (placePhys z w.place) (arrOp w) span w body z) ∧
      ∀ z, exec c z = served (issue head w ready act) z := by
  cases c
  case eval v => cases hw; exact ⟨evalAct w, ⟨_, _, fun _ => rfl⟩, fun _ => rfl⟩
  case eval8 v => cases hw; exact ⟨eval8Act w, ⟨_, _, fun _ => rfl⟩, fun _ => rfl⟩
  case assay v => cases hw; exact ⟨assayAct w, ⟨_, _, fun _ => rfl⟩, fun _ => rfl⟩
  case write v => cases hw; exact ⟨writeAct w, ⟨_, _, fun _ => rfl⟩, fun _ => rfl⟩
  case sweep v => cases hw; exact ⟨sweepAct w, ⟨_, _, fun _ => rfl⟩, fun _ => rfl⟩
  case replay v => cases hw; exact ⟨replayAct w, ⟨_, _, replayAct_eq w⟩, fun _ => rfl⟩
  case hold x v =>
    by_cases hx : definedHead x = true
    · simp [slotWord, slotWordOf, slotReady, hx] at hw
    · simp only [slotWord, slotWordOf, slotReady, hx, Bool.false_eq_true, if_false, Option.some.injEq, Prod.mk.injEq] at hw
      obtain ⟨rfl, rfl, rfl⟩ := hw
      simp [holdReady, hc] at hr
  all_goals cases hw <;> exact absurd hu (by decide)

/-- Every ARR word that acts, HOLD apart, claims its array. -/
theorem exec_arr (hw : slotWord c = some (head, w, ready)) (hu : head.toNat / 16 = 1) (hc : head.toNat % 16 ≠ 0)
    (ha : acts head w ready s = true) : ∃ span body, exec c s = .next (withQueue s.pending
      (claimArray (placePhys (atIssue head w s) w.place) (arrOp w) span w body (atIssue head w s))) := by
  obtain ⟨act, ⟨span, body, hact⟩, hx⟩ := arr_cases hw hu (ready_of_acts ha) hc
  exact ⟨span, body, by rw [exec_acts (hx s) ha, hact]⟩

/-- An ARR word that issues beyond the budget raises BUDGET and sets its cell's bit. -/
theorem budget_values (h : Canon s) (p : Nat) (w : Slot) : let t := sticky (cellKey p Reg.ARR_STICKY) 4 (wordViol 1 1 w s)
    fld t Reg.SCH_VIOL 1 1 = 1 ∧ fld t (cellKey p Reg.ARR_STICKY) 4 4 = 1 ∧
    (∀ k, k ≠ cellKey p Reg.ARR_STICKY → reportKey k = false → rd t k = rd s k) ∧ t.cells = s.cells ∧ t.dram = s.dram ∧
    t.flights = s.flights := by
  have hr : Rep s (wordViol 1 1 w s) := rep_wordViol (rep_self h)
  have hne : Reg.SCH_VIOL ≠ cellKey p Reg.ARR_STICKY := ((show Reg.SCH_VIOL < 2 ^ 36 by decide).trans_le (cellKey_gt ..)).ne
  refine ⟨?_, fld_sticky hr.wf _ (by decide), fun k hk hrep => ?_, hr.only.cells, hr.only.dram, hr.only.flights⟩
  · rw [fld_def, rd_sticky_ne hr.wf _ hne, ← fld_def]
    exact fld_viol (by decide) ..
  · rw [rd_sticky_ne hr.wf _ hk]
    exact hr.only.regs k hrep

end

/-- Settles O56: the word's array is still occupied, so all that it does is to raise DBOOK. -/
theorem occupiedArrayRefuses : Obligations.OccupiedArrayRefuses := by
  unfold Obligations.OccupiedArrayRefuses
  intro c head w ready s hs hw hu hc ha s' p hbusy
  obtain ⟨span, body, hx⟩ := exec_arr hw hu hc ha
  rw [claimArray_occupied hbusy] at hx
  have hr : OnlyReports s' (wordViol 0 1 w s') := (rep_wordViol (rep_self (canon_atIssue (canon_iff.1 hs)))).only
  refine ⟨_, hx, hr.queued _, fld_viol (by decide) .., ?_, hr.flights⟩
  rw [arrAt_withQueue, arrAt, cellAt_congr hr.cells, ← arrAt]

end Sys2Proof.Machine
end

section
/-! PROOFS. What survives the reads, counts and reports of array words, and the requests for spares that they make (R337, R381 to R387). -/
namespace Sys2Proof.Machine

/-! ### Reads and counts -/

namespace KeptByTaints
variable {P : State → Prop} (hP : KeptByTaints P) {s : State}
include hP

theorem spRead (unit c addr n : Nat) (h : P s) : P (spRead unit c addr n s) := by
  unfold Machine.spRead
  extract_lets hit s1 d
  have h1 : P s1 := by
    unfold s1
    split
    · exact hP.noteCorrected _ _ h
    · exact h
  split
  · exact hP.taintCell _ _ _ _ h1
  · exact h1

end KeptByTaints

/-- `P` says nothing of registers, of reports, nor of the late overflows of the step. -/
structure KeptByCounts (P : State → Prop) : Prop extends KeptByReports P where
  count : ∀ {k v : Nat} {s : State}, P s → P (Machine.wr k v s)
  late : ∀ {s : State} {n : Nat}, P s → P { s with run := { s.run with lateOvf := n } }

namespace KeptByCounts
variable {P : State → Prop} (hP : KeptByCounts P) {s : State}
include hP

theorem setBit (k bit : Nat) (h : P s) : P (Machine.sticky k bit s) := hP.side (hP.count h)

theorem bumpFld (k hi lo n : Nat) (h : P s) : P (bumpFld k hi lo n s) := hP.count h

theorem phasesRun (c ran skipped : Nat) (h : P s) : P (phasesRun c ran skipped s) := hP.count (hP.count h)

theorem arrOvf (c k n : Nat) (h : P s) : P (arrOvf c k n s) := by
  unfold Machine.arrOvf
  split
  · exact h
  · split
    · exact hP.setBit _ _ h
    · extract_lets s1
      have h1 : P s1 := hP.bumpFld _ _ _ _ h
      split
      · exact hP.setBit _ _ (hP.late h1)
      · exact h1

theorem assayFail (die cell a : Nat) (h : P s) : P (assayFail die cell a s) :=
  hP.taint _ _ _ _ _ _ (hP.setBit _ _ (hP.bumpFld _ _ _ _ (hP.count h)))

end KeptByCounts

/-! ### Requests for spares (R381, R385, R387) -/

/-- The registers that a request for a spare writes, those of its reports apart. -/
def spareKey (k : Nat) : Bool :=
  [Reg.SPR_LOST, Reg.SPR_STICKY].contains k || (decide (bankKey Reg.SPR_FILL 0 ≤ k) && decide (k < bankKey Reg.SPR_FILL 8))

theorem spareKey_fill {die slot : Nat} (hd : die < 4) (hs : slot < 2) : spareKey (fillKey die slot) = true := by
  unfold spareKey fillKey bankKey
  rw [Bool.or_eq_true, Bool.and_eq_true, decide_eq_true_eq, decide_eq_true_eq]
  omega

/-- `P` says nothing of reports, nor of fills, lost requests, retired resources and their registers. -/
structure KeptByFills (P : State → Prop) : Prop extends KeptByReports P where
  spare : ∀ {k v : Nat} {s : State}, spareKey k = true → P s → P (Machine.wr k v s)
  spares : ∀ {s : State} {fills : SMap Fill} {lost : Option Fill} {retired : List (Nat × Nat × Nat × Nat × Nat)} {dirty : Bool},
    P s → P { s with spr := { s.spr with fills := fills, lost := lost, retired := retired, dirty := dirty } }

namespace KeptByFills
variable {P : State → Prop} (hP : KeptByFills P) {s : State} {die slot : Nat}
include hP

theorem setBit (bit : Nat) (h : P s) : P (Machine.sticky Reg.SPR_STICKY bit s) := hP.side (hP.spare (by decide) h)

theorem setFill (die slot : Nat) (f : Fill) (h : P s) : P (setFill die slot f s) := hP.spares h

theorem mapsChanged (h : P s) : P (mapsChanged s) := hP.setBit 4 (hP.spares h)

theorem retire (r : Nat × Nat × Nat × Nat × Nat) (h : P s) : P (retire r s) := by
  unfold Machine.retire
  split
  · exact h
  · exact hP.spares h

theorem capacityLoss (loc : List (Nat × Nat)) (h : P s) : P (capacityLoss loc s) :=
  hP.jobFault (hP.record _ _ _ (hP.mapsChanged (hP.setBit 3 h)))

theorem placeFill (hd : die < 4) (hs : slot < 2) (kind cell a col : Nat) (f : Fill) (h : P s) :
    P (placeFill slot kind die cell a col f s) := hP.setFill _ _ _ (hP.spare (spareKey_fill hd hs) h)

theorem nextFill (hd : die < 4) (hs : slot < 2) (h : P s) : P (nextFill die slot s) := by
  unfold Machine.nextFill
  extract_lets s1 k s2
  have h1 : P s1 := hP.setFill _ _ _ (hP.spare (spareKey_fill hd hs) h)
  have hk : spareKey k = true := spareKey_fill hd (by omega)
  have h2 : P s2 := by
    unfold s2
    split
    · exact hP.spare hk (hP.spare hk h1)
    · exact h1
  split
  · split
    · exact hP.placeFill hd hs _ _ _ _ _ (hP.spares (s := wr Reg.SPR_LOST 0 s2) (hP.spare (by decide) h2))
    · exact h2
  · exact h2

theorem fillRequest (hd : die < 4) (kind cell a col : Nat) (f : Fill) (h : P s) : P (fillRequest kind die cell a col f s) := by
  unfold Machine.fillRequest
  extract_lets same s1 s2
  have h2 : P s2 := hP.record _ _ _ (hP.setBit 1 (hP.jobFault h))
  split
  · exact h
  · split
    · exact hP.placeFill hd (by decide) _ _ _ _ _ h
    · split
      · exact hP.placeFill hd (by decide) _ _ _ _ _ h
      · exact hP.spares (s := wr Reg.SPR_LOST _ s2) (hP.spare (by decide) h2)

theorem absorbSlot (hd : die < 4) (hs : slot < 2) (cell : Nat) {t : SMap (List Byte) × State} (h : P t.2) : P (absorbSlot die cell slot t).2 := by
  unfold Machine.absorbSlot
  dsimp only
  split
  · exact hP.nextFill hd hs h
  · exact h

theorem absorbFills (hd : die < 4) (cell : Nat) (given : SMap (List Byte)) (h : P s) : P (absorbFills die cell given s).2 := by
  unfold Machine.absorbFills
  extract_lets lost held given' freed spr s1
  have h1 : P s1 := by
    unfold s1
    split
    · exact hP.spares (s := freed) (hP.spare (by decide) h)
    · exact h
  exact hP.absorbSlot hd (by decide) cell (hP.absorbSlot hd (by decide) cell h1)

theorem brazeWith (hd : die < 4) (cell : Nat) (given : SMap (List Byte)) (h : P s) : P (brazeWith die cell given s) := by
  unfold Machine.brazeWith
  split
  · exact hP.capacityLoss _ (hP.retire _ h)
  · exact hP.fillRequest hd _ _ _ _ _ (hP.absorbFills hd _ _ h)

/-- A request for a column of an array without a spare left also marks the array. -/
theorem brazeColumn (hd : die < 4) (cell a col : Nat) (latched : List Byte)
    (hr : ∀ {t : State} {c : Nat} {l : List Nat → List Nat}, P t → P (onCell c (fun x => { x with colretired := l x.colretired }) t))
    (h : P s) : P (brazeColumn die cell a col latched s) := by
  unfold Machine.brazeColumn
  extract_lets c s1
  have h1 : P s1 := hr (l := fun l => a :: l.filter (· != a)) h
  split
  · split
    · exact hP.capacityLoss _ (hP.retire _ h1)
    · exact hP.brazeWith hd _ _ h1
  · exact hP.fillRequest hd _ _ _ _ _ h

end KeptByFills

/-! ### What array words leave alone -/

/-- What the monitors and services have decided of the step, and the counts of steps and of forced recalibrations. -/
def Run.decided (r : Run) : Nat × Bool × Bool × Nat × Nat := (r.steps, r.suppressed, r.commitDone, r.force, r.delta)

/-- All of a state that no unit of an array writes on its own: time and free values, the casting, operations in flight, DRAM, the monitor,
power, the map of the cells, and what is decided of the step. -/
def arrFrame (s : State) :=
  (s.time, s.freeCount, s.casting, s.flights, s.dram, s.tsm, s.pwr, s.spr.cellMap, s.run.decided)

section
variable {s t : State} (h : arrFrame t = arrFrame s)
include h

theorem now_of_frame : now t = now s := congrArg (fun x => x.1.tick.toNat) h
theorem freeCount_of_frame : t.freeCount = s.freeCount := congrArg (fun x => x.2.1) h
theorem flights_of_frame : t.flights = s.flights := congrArg (fun x => x.2.2.2.1) h
theorem dram_of_frame : t.dram = s.dram := congrArg (fun x => x.2.2.2.2.1) h
theorem cellMap_of_frame : t.spr.cellMap = s.spr.cellMap := congrArg (fun x => x.2.2.2.2.2.2.2.1) h

theorem decided_of_frame : t.run.decided = s.run.decided := congrArg (fun x => x.2.2.2.2.2.2.2.2) h
theorem suppressed_of_frame : t.run.suppressed = s.run.suppressed := congrArg (fun x => x.2.1) (decided_of_frame h)
theorem commitDone_of_frame : t.run.commitDone = s.run.commitDone := congrArg (fun x => x.2.2.1) (decided_of_frame h)
theorem force_of_frame : t.run.force = s.run.force := congrArg (fun x => x.2.2.2.1) (decided_of_frame h)
theorem delta_of_frame : t.run.delta = s.run.delta := congrArg (fun x => x.2.2.2.2) (decided_of_frame h)

end

theorem decided_of_unmarked {r r' : Run} (h : r.unmarked = r'.unmarked) : r.decided = r'.decided :=
  show r.unmarked.decided = r'.unmarked.decided by rw [h]

theorem keptByCounts_arrFrame {v} : KeptByCounts fun s => arrFrame s = v where
  toKeptByReports := keptByReports_view (g := arrFrame) (hm := fun s r hr => by simp only [arrFrame, decided_of_unmarked hr])
  count h := h
  late h := h

theorem keptByFills_arrFrame {v} : KeptByFills fun s => arrFrame s = v where
  toKeptByReports := keptByCounts_arrFrame.toKeptByReports
  spare _ h := h
  spares h := h

/-- From `z` to `t` all that `arrFrame` shows stands as it was, and of cell `b` what `g` shows; `t` is in canonical form. -/
structure ArrKept {β : Type} (b : Nat) (g : Cell → β) (z t : State) : Prop where
  canon : Canon t
  cell : g (cellAt t b) = g (cellAt z b)
  frame : arrFrame t = arrFrame z

section
variable {β : Type} {b c : Nat} {g : Cell → β} {f : Cell → Cell} {s t z : State}

theorem arrKept_self (h : Canon z) : ArrKept b g z z := ⟨h, rfl, rfl⟩

theorem ArrKept.trans (h : ArrKept b g z s) (h' : ArrKept b g s t) : ArrKept b g z t :=
  ⟨h'.canon, h'.cell.trans h.cell, h'.frame.trans h.frame⟩

theorem keptByCounts_arrKept : KeptByCounts (ArrKept b g z) where
  wr _ h := ⟨canon_wr h.canon, h.cell, h.frame⟩
  side h := ⟨canon_mk h.canon, h.cell, h.frame⟩
  tainted _ h := ⟨canon_wr h.canon, h.cell, h.frame⟩
  marks hr h := ⟨canon_mk h.canon, h.cell, keptByCounts_arrFrame.marks hr h.frame⟩
  report _ h := ⟨canon_wr h.canon, h.cell, h.frame⟩
  sent h := ⟨canon_mk h.canon, h.cell, h.frame⟩
  count h := ⟨canon_wr h.canon, h.cell, h.frame⟩
  late h := ⟨canon_mk h.canon, h.cell, h.frame⟩

theorem keptByFills_arrKept : KeptByFills (ArrKept b g z) where
  toKeptByReports := keptByCounts_arrKept.toKeptByReports
  spare _ h := ⟨canon_wr h.canon, h.cell, h.frame⟩
  spares h := ⟨canon_mk h.canon, h.cell, h.frame⟩

theorem ArrKept.spRead (h : ArrKept b g z t) (unit c addr n : Nat) : ArrKept b g z (spRead unit c addr n t) :=
  keptByCounts_arrKept.toKeptByTaints.spRead unit c addr n h

/-- A change of a cell that `g` does not show, or of another cell. -/
theorem ArrKept.onCell (h : ArrKept b g z t) (c : Nat) (hc : ∀ x, CellCanon x → CellCanon (f x))
    (hg : b = c → ∀ x, CellCanon x → g (f x) = g x) : ArrKept b g z (onCell c f t) := by
  refine ⟨canon_onCell hc h.canon, Eq.trans ?_ h.cell, h.frame⟩
  by_cases hb : b = c
  · rw [hb, cellAt_onCell h.canon.cells]
    exact hg hb _ (cellCanon_at h.canon c)
  · rw [cellAt_onCell_ne h.canon.cells _ hb]

end

end Sys2Proof.Machine
end

section
/-! PROOFS. WRITE_VERDICT and SWEEP_VERDICT (R89, R90, R91, R382; log 28). -/
namespace Sys2Proof.Machine

/-! ### Time runs to the verdict -/

theorem toVerdict_due {s : State} {die cell a due : Nat} {swept : Bool} (h : dueOf s (isVerdict die cell a swept) = some due) :
    toVerdict die cell a swept s = runTo due s := by
  unfold toVerdict
  rw [h]

/-! ### A failing column is noted, then a spare requested -/

/-- A failing column is shown in ARR_STICKY and ARR_FAIL. -/
def failShown (bit kind die cell a col : Nat) (s : State) : State :=
  wr (cellKey (phys s die cell) Reg.ARR_FAIL) (a + 64 * col + 16384 * kind) (sticky (cellKey (phys s die cell) Reg.ARR_STICKY) bit s)

/-- A failing column is shown and recorded. -/
def failNoted (bit kind die cell a col : Nat) (s : State) : State :=
  recordOf 5 Reg.ARR_FAIL (arrLoc die cell a ++ [(6, col)]) (rd (failShown bit kind die cell a col s) (cellKey (phys s die cell) Reg.ARR_FAIL))
    (failShown bit kind die cell a col s)

section
variable {bit kind die cell a col c off q v : Nat} {latched : List Byte} {s : State} {f : Fill}

theorem columnFail_eq : columnFail bit kind die cell a col latched s = brazeColumn die cell a col latched (failNoted bit kind die cell a col s) := rfl

/-- Noting a failure leaves cells, DRAM, flights and spares. -/
theorem failNoted_keeps (bit kind die cell a col : Nat) (s : State) : (failNoted bit kind die cell a col s).cells = s.cells ∧
    (failNoted bit kind die cell a col s).dram = s.dram ∧ (failNoted bit kind die cell a col s).flights = s.flights ∧
    (failNoted bit kind die cell a col s).spr = s.spr := by
  have h := (keptByReports_view (g := fun t : State => (t.cells, t.dram, t.flights, t.spr)) (v := (s.cells, s.dram, s.flights, s.spr))).recordOf 5
    Reg.ARR_FAIL (arrLoc die cell a ++ [(6, col)]) (rd (failShown bit kind die cell a col s) (cellKey (phys s die cell) Reg.ARR_FAIL))
    (s := failShown bit kind die cell a col s) rfl
  simp only [Prod.mk.injEq] at h
  exact h

theorem arrFrame_columnFail (hd : die < 4) : arrFrame (columnFail bit kind die cell a col latched s) = arrFrame s :=
  keptByFills_arrFrame.brazeColumn hd cell a col latched (fun h => h)
    (keptByCounts_arrFrame.recordOf _ _ _ _ (keptByCounts_arrFrame.count (keptByCounts_arrFrame.setBit _ _ rfl)))

theorem arrFrame_landVerdict (hd : die < 4) (swept : Bool) (fails : List (Nat × Nat)) :
    arrFrame (landVerdict die cell a swept fails latched s) = arrFrame s := each_keeps arrFrame (fun _ _ => arrFrame_columnFail hd) s

theorem phys_of_frame {t : State} (h : arrFrame t = arrFrame s) (die cell : Nat) : phys t die cell = phys s die cell := by
  rw [phys, phys, cellMap_of_frame h]

/-! ### Registers of a cell -/

theorem reportKey_cellKey (hc : c < 1088) (ho : off < 65536) : reportKey (cellKey c off) = false := by
  have hlt : cellKey c off - 2 ^ 40 = 0 := by unfold cellKey; omega
  unfold reportKey
  rw [Bool.or_eq_false_iff]
  refine ⟨key_of_cellKey _ (by decide) rfl, ?_⟩
  rw [hlt]
  decide

theorem spareKey_cellKey (hc : c < 1088) (ho : off < 65536) : spareKey (cellKey c off) = false := by
  have hlt : ¬ bankKey Reg.SPR_FILL 0 ≤ cellKey c off := by unfold cellKey bankKey; omega
  unfold spareKey
  rw [Bool.or_eq_false_iff, decide_eq_false hlt]
  exact ⟨key_of_cellKey _ (by decide) rfl, rfl⟩

theorem cellKey_ne (c : Nat) {off off' : Nat} (h : off ≠ off') : cellKey c off ≠ cellKey c off' := by
  unfold cellKey
  omega

theorem keptByFills_held (hr : reportKey q = false) (hs : spareKey q = false) : KeptByFills (Held q v) where
  toKeptByReports := keptByReports_held hr
  spare hk h := h.wr (ne_of_key hk hs) _
  spares h := h.congr rfl

/-- A register of the failing column's cell stands from when the failure is noted. -/
theorem held_columnFail (hd : die < 4) (hc : c < 1088) (ho : off < 65536)
    (h : Held (cellKey c off) v (failShown bit kind die cell a col s)) :
    Held (cellKey c off) v (columnFail bit kind die cell a col latched s) := by
  have hP : KeptByFills (Held (cellKey c off) v) := keptByFills_held (reportKey_cellKey hc ho) (spareKey_cellKey hc ho)
  exact hP.brazeColumn hd cell a col latched (fun h => h.congr rfl) (hP.recordOf _ _ _ _ h)

/-- A failing column sets its bit of ARR_STICKY, and ARR_FAIL names it. -/
theorem columnFail_shown (h : Canon s) (hd : die < 4) (hc : phys s die cell < 1088) (hb : bit < 32) (ha : a < 64) (hcol : col < 256)
    (hk : kind < 4) : fld (columnFail bit kind die cell a col latched s) (cellKey (phys s die cell) Reg.ARR_STICKY) bit bit = 1 ∧
    rd (columnFail bit kind die cell a col latched s) (cellKey (phys s die cell) Reg.ARR_FAIL) = a + 64 * col + 16384 * kind := by
  have hs : Canon (sticky (cellKey (phys s die cell) Reg.ARR_STICKY) bit s) := canon_sticky h
  have hsticky : Held (cellKey (phys s die cell) Reg.ARR_STICKY) (rd s (cellKey (phys s die cell) Reg.ARR_STICKY) ||| 2 ^ bit)
      (failShown bit kind die cell a col s) := Held.wr ⟨.inl hs.regs, rd_sticky h.regs _ hb⟩ (cellKey_ne _ (by decide)) _
  have hfail : Held (cellKey (phys s die cell) Reg.ARR_FAIL) (a + 64 * col + 16384 * kind) (failShown bit kind die cell a col s) :=
    held_wr (by omega) (.inl hs.regs)
  exact ⟨(held_columnFail hd hc (by decide) hsticky).bit rfl, (held_columnFail hd hc (by decide) hfail).val⟩

theorem landVerdict_append (die cell a : Nat) (swept : Bool) (fails : List (Nat × Nat)) (p : Nat × Nat) (latched : List Byte) (s : State) :
    landVerdict die cell a swept (fails ++ [p]) latched s =
      columnFail (if swept then 3 else 2) p.2 die cell a p.1 latched (landVerdict die cell a swept fails latched s) := by
  simp only [landVerdict, each, List.foldl_append, List.foldl_cons, List.foldl_nil]

/-! ### The spare requested (R382) -/

theorem freeSpares_congr {t : State} (h : t.cells = s.cells) (c a : Nat) : freeSpares t c a = freeSpares s c a := by
  simp only [freeSpares, spareUsed, colBad, cellAt_congr h]

theorem brazeColumn_spare (h : freeSpares s (phys s die cell) a ≠ []) :
    brazeColumn die cell a col latched s = fillRequest 1 die cell a col { Fill.none with latched := latched } s := if_neg h

/-- With a spare left a failing column requests a fill. -/
theorem columnFail_requests (h : freeSpares s (phys s die cell) a ≠ []) : columnFail bit kind die cell a col latched s =
    fillRequest 1 die cell a col { Fill.none with latched := latched } (failNoted bit kind die cell a col s) := by
  obtain ⟨hcells, -, -, hspr⟩ := failNoted_keeps bit kind die cell a col s
  have hphys : phys (failNoted bit kind die cell a col s) die cell = phys s die cell := by rw [phys, phys, hspr]
  rw [columnFail_eq, brazeColumn_spare]
  rw [freeSpares_congr hcells, hphys]
  exact h

/-- A request with both slots of its die free takes slot 0. -/
theorem fillRequest_free (h0 : fillState s die 0 = 0) (h1 : fillState s die 1 = 0) :
    fillRequest kind die cell a col f s = placeFill 0 kind die cell a col f s := by
  simp only [fillState, fld_def] at h0 h1
  simp [fillRequest, fillState, fld_def, h0, h1]

/-- A fill placed in slot 0 with slot 1 free is active. -/
theorem placeFill_active (h : Canon s) (hf : wf (fun _ => Fill.none) s.spr.fills = true) (h1 : fillState s die 1 = 0) (hk : kind < 4)
    (hcell : cell < 256) (ha : a < 64) (hcol : col < 256) : let t := placeFill 0 kind die cell a col f s
    fld t (fillKey die 0) 25 0 = 2 + 4 * kind + 16 * cell + 4096 * a + 262144 * col ∧ fillAt t die 0 = f := by
  refine ⟨?_, get_put hf⟩
  have hrd : rd (placeFill 0 kind die cell a col f s) (fillKey die 0) =
      (2 + 4 * kind + 16 * cell + 4096 * a + 262144 * col + 67108864 * chooseSpare s kind die cell a) % 2 ^ 32 := by
    have hw := rd_wr h.regs (fillKey die 0) (2 + 4 * kind + 16 * cell + 4096 * a + 262144 * col + 67108864 * chooseSpare s kind die cell a)
    simp only [placeFill, h1, if_true]
    exact hw
  rw [fld_def, hrd, bits, Nat.shiftRight_zero]
  omega

theorem fillKey_ne_fail (c die slot : Nat) (hd : die < 4) (hs : slot < 2) : cellKey c Reg.ARR_FAIL ≠ fillKey die slot := by
  unfold cellKey fillKey bankKey Reg.ARR_FAIL Reg.SPR_FILL
  omega

/-- Bits 2 and 3 of a register are none of the state of a fill. -/
theorem fillState_sticky (h : Canon s) (k : Nat) (hb : bit = 2 ∨ bit = 3) (die slot : Nat) : fillState (sticky k bit s) die slot = fillState s die slot := by
  rw [fillState, fillState, fld_def, fld_def]
  by_cases hk : fillKey die slot = k
  · rw [hk, rd_sticky h.regs _ (by omega), bits_or_ne (by omega)]
  · rw [rd_sticky_ne h.regs _ hk]

theorem fillState_failNoted (h : Canon s) (hd : die < 4) (hb : bit = 2 ∨ bit = 3) {slot : Nat} (hs : slot < 2) :
    fillState (failNoted bit kind die cell a col s) die slot = fillState s die slot := by
  have hv := (held_of_canon (canon_sticky (k := cellKey (phys s die cell) Reg.ARR_STICKY) (bit := bit) h) (fillKey die slot)).wr
    (fillKey_ne_fail (phys s die cell) die slot hd hs) (a + 64 * col + 16384 * kind)
  have hr : reportKey (fillKey die slot) = false := reportKey_bankKey (by decide) (by omega)
  have ht := (keptByReports_held hr).recordOf 5 Reg.ARR_FAIL (arrLoc die cell a ++ [(6, col)])
    (rd (failShown bit kind die cell a col s) (cellKey (phys s die cell) Reg.ARR_FAIL)) hv
  rw [← fillState_sticky h (cellKey (phys s die cell) Reg.ARR_STICKY) hb die slot, fillState, fillState, fld_def, fld_def]
  exact congrArg (bits · 1 0) ht.val

theorem canon_failNoted (h : Canon s) : Canon (failNoted bit kind die cell a col s) := canon_recordOf (canon_wr (canon_sticky h))

theorem keptByFills_stores {v : SMap Cell × Dram × List Flight} : KeptByFills fun s : State => (s.cells, s.dram, s.flights) = v where
  toKeptByReports := keptByReports_view (g := fun s : State => (s.cells, s.dram, s.flights))
  spare _ h := h
  spares h := h

/-- A failing column with a spare left changes no store, and is served by slot 0 where both slots are free. -/
theorem columnFail_spare (h : Canon s) (hf : wf (fun _ => Fill.none) s.spr.fills = true) (hd : die < 4) (hb : bit = 2 ∨ bit = 3)
    (hcell : cell < 256) (ha : a < 64) (hcol : col < 256) (hs : freeSpares s (phys s die cell) a ≠ []) :
    let t := columnFail bit kind die cell a col latched s
    t.cells = s.cells ∧ t.dram = s.dram ∧ t.flights = s.flights ∧ (fillState s die 0 = 0 → fillState s die 1 = 0 →
      fld t (fillKey die 0) 25 0 = 2 + 4 + 16 * cell + 4096 * a + 262144 * col ∧ (fillAt t die 0).latched = latched) := by
  obtain ⟨hcells, hdram, hflights, hspr⟩ := failNoted_keeps bit kind die cell a col s
  have hkeep := keptByFills_stores.fillRequest hd 1 cell a col { Fill.none with latched := latched } (s := failNoted bit kind die cell a col s) rfl
  simp only [Prod.mk.injEq] at hkeep
  obtain ⟨hcells', hdram', hflights'⟩ := hkeep
  intro t
  simp only [t, columnFail_requests hs]
  refine ⟨hcells'.trans hcells, hdram'.trans hdram, hflights'.trans hflights, fun h0 h1 => ?_⟩
  rw [← fillState_failNoted (kind := kind) (cell := cell) (a := a) (col := col) h hd hb (by decide)] at h0 h1
  rw [fillRequest_free h0 h1]
  obtain ⟨hreg, hfill⟩ := placeFill_active (kind := 1) (f := { Fill.none with latched := latched }) (canon_failNoted h)
    (by rw [hspr]; exact hf) h1 (by decide) hcell ha hcol
  exact ⟨hreg, by rw [hfill]⟩

end

/-- Settles O21: time runs to the verdict, the last failing column is the one that ARR_FAIL names, and a spare left is requested once. -/
theorem verdictsReport : Obligations.VerdictsReport := by
  unfold Obligations.VerdictsReport
  refine ⟨?due, ?lands⟩
  case due =>
    intro die cell array s due
    exact ⟨fun h => ⟨_, rfl, congrArg (withQueue s.pending) (toVerdict_due h)⟩, fun h => ⟨_, rfl, congrArg (withQueue s.pending) (toVerdict_due h)⟩⟩
  case lands =>
    intro die cell array swept latched s hs hf c bit
    have h : Canon s := canon_iff.1 hs
    have hbit : bit = 2 ∨ bit = 3 := by
      unfold bit
      split <;> simp
    refine ⟨rfl, fun fails f hc hlast hcol hkind => ?_, fun f hcol hspare => ?_⟩
    · obtain ⟨init, rfl⟩ := List.getLast?_eq_some_iff.1 hlast
      have hphys := phys_of_frame (arrFrame_landVerdict (s := s) (cell := cell.val) (a := array.val) (latched := latched) die.isLt swept init)
        die.val cell.val
      have hshown := columnFail_shown (cell := cell.val) (latched := latched) (canon_landVerdict (die := die.val) (cell := cell.val)
        (a := array.val) (swept := swept) (fails := init) (latched := latched) h) die.isLt (hphys ▸ hc) (bit := bit) (by omega) array.isLt hcol hkind
      rw [hphys] at hshown
      simp only [landEffect, landVerdict_append]
      exact hshown
    · exact columnFail_spare h hf die.isLt hbit cell.isLt array.isLt hcol hspare

end Sys2Proof.Machine
end

section
/-! PROOFS. EVAL, EVAL8 and REPLAY (R78, R84, R93, R122, R237; logs 11, 12, 71, 72). -/
namespace Sys2Proof.Machine

/-! ### An array claimed -/

/-- Array `a` of cell `c` is occupied for `span` ticks. -/
def claimed (c a span : Nat) (s : State) : State := setArr c a { arrAt s c a with busy := now s + span } s

section
variable {c a b span : Nat} {w : Slot} {body : State → State} {s : State}

theorem claimArray_claims (h : (arrAt s c a).busy ≤ now s) (ho : occupied s c < 16) :
    claimArray c a span w body s = body (claimed c a span s) := claimArray_free h ho

theorem canon_claimed (h : Canon s) : Canon (claimed c a span s) := canon_setArr h

theorem cellAt_setArr (h : Canon s) (c a : Nat) (x : Arr) :
    cellAt (setArr c a x s) c = { cellAt s c with arrs := put (fun _ => Arr.init) (cellAt s c).arrs a x } := cellAt_onCell h.cells _ _

theorem sp_claimed (h : Canon s) : (cellAt (claimed c a span s) c).sp = (cellAt s c).sp := by
  rw [claimed, cellAt_setArr h]

theorem ring62_claimed (h : Canon s) : (cellAt (claimed c a span s) c).ring62 = (cellAt s c).ring62 := by
  rw [claimed, cellAt_setArr h]

theorem cellAt_setArr_ne (h : Canon s) (a : Nat) (x : Arr) (hb : b ≠ c) : cellAt (setArr c a x s) b = cellAt s b :=
  cellAt_onCell_ne h.cells _ hb

theorem arrAt_setArr (h : Canon s) (c a : Nat) (x : Arr) : arrAt (setArr c a x s) c a = x := by
  rw [arrAt, cellAt_setArr h]
  exact get_put (cellCanon_at h c).arrs

theorem arrAt_setArr_ne (h : Canon s) (c : Nat) (x : Arr) (hb : b ≠ a) : arrAt (setArr c a x s) c b = arrAt s c b := by
  rw [arrAt, cellAt_setArr h]
  exact get_put_ne (cellCanon_at h c).arrs hb

end

/-! ### What an evaluation keeps of its cell -/

/-- What an evaluation with its capture keeps of a cell: codes, exponents, accumulators, and how long array `a` is occupied. -/
def evalCell (a : Nat) (x : Cell) := (x.codes, x.exps, x.acc, (get (fun _ => Arr.init) x.arrs a).busy)

section
variable {β : Type} {b c a : Nat} {g : Cell → β} {z t s : State}

/-- A change of an array's own record that leaves how long it is occupied. -/
theorem ArrKept.setArr (h : ArrKept b g z t) {x : Arr} (hx : x.busy = (arrAt t c a).busy)
    (hg : b = c → ∀ x y, evalCell a x = evalCell a y → x.sp = y.sp → g x = g y) : ArrKept b g z (setArr c a x t) := by
  refine ⟨canon_setArr h.canon, Eq.trans ?_ h.cell, h.frame⟩
  by_cases hb : b = c
  · subst hb
    rw [Machine.setArr, cellAt_onCell h.canon.cells]
    refine hg rfl _ _ ?_ rfl
    simp only [evalCell, get_put (cellCanon_at h.canon b).arrs, hx]
    rfl
  · rw [cellAt_setArr_ne h.canon _ _ hb]

theorem ArrKept.setTrim (h : ArrKept b g z t) (p : Nat) (v : Trim)
    (hg : b = c → ∀ x y, evalCell a x = evalCell a y → x.sp = y.sp → g x = g y) : ArrKept b g z (setTrim c a p v t) :=
  h.onCell c (fun _ hx => { hx with trims := wf_put hx.trims }) fun hb _ _ => hg hb _ _ rfl rfl

theorem arrAt_setTrim (h : Canon s) (p : Nat) (v : Trim) : arrAt (setTrim c a p v s) c a = arrAt s c a := by
  rw [arrAt, Machine.setTrim, cellAt_onCell h.cells]
  rfl

theorem ArrKept.advanceRamp (h : ArrKept b g z t)
    (hg : b = c → ∀ x y, evalCell a x = evalCell a y → x.sp = y.sp → g x = g y) : ArrKept b g z (advanceRamp c a t) := by
  unfold Machine.advanceRamp
  extract_lets x k s1
  have h1 : ArrKept b g z s1 ∧ arrAt s1 c a = x := each_inv (fun u => ArrKept b g z u ∧ arrAt u c a = x)
    (fun _ _ _ hu => ⟨hu.1.setTrim _ _ hg, (arrAt_setTrim hu.1.canon _ _).trans hu.2⟩) ⟨h, rfl⟩
  split
  · exact h
  · exact h1.1.setArr (show x.busy = (arrAt s1 c a).busy by rw [h1.2]) hg

end

/-! ### Rings -/

section
variable {β : Type} {b c die unit n r : Nat} {w : Slot} {g : Cell → β} {z t : State} (hg : b = c → ∀ x m, g { x with ringBytes := m } = g x)
include hg

theorem ArrKept.setRingUse (h : ArrKept b g z t) (v : Nat) : ArrKept b g z (setRingUse c r v t) :=
  h.onCell c (fun _ hx => { hx with ringBytes := wf_put hx.ringBytes }) fun hb _ _ => hg hb _ _

theorem ArrKept.ringAdd (h : ArrKept b g z t) : ArrKept b g z (ringAdd die c r n unit w t) := by
  unfold Machine.ringAdd
  extract_lets v s1
  have h1 : ArrKept b g z s1 := h.setRingUse hg _
  split
  · exact keptByCounts_arrKept.viol _ _ _ _ h1
  · exact h1

theorem ArrKept.ringTake (h : ArrKept b g z t) : ArrKept b g z (ringTake c r n unit w t) := by
  unfold Machine.ringTake
  extract_lets v s1
  have h1 : ArrKept b g z s1 := by
    have h2 : ArrKept b g z (Machine.setRingUse c r (v - n) t) := h.setRingUse hg _
    obtain ⟨x, hx⟩ := noteFreed_fab (c / 272) r (min v n) (Machine.setRingUse c r (v - n) t)
    unfold s1
    rw [hx]
    exact ⟨canon_mk h2.canon, h2.cell, h2.frame⟩
  split
  · exact keptByCounts_arrKept.viol _ _ _ _ h1
  · exact h1

end

/-! ### Records captured (R92, R234) -/

section
variable {β : Type} {b c a die unit n r tile : Nat} {a8 : Bool} {passes : List (Nat × List (List Int))} {data : List Byte} {w : Slot} {g : Cell → β}
  {z t : State} (hg : b = c → ∀ x y, evalCell a x = evalCell a y → g x = g y)
include hg

theorem ArrKept.capRecordPut (h : ArrKept b g z t) : ArrKept b g z (capRecordPut die c unit w data t) := by
  unfold Machine.capRecordPut
  split
  · exact h
  · refine ArrKept.ringAdd (fun hb _ _ => hg hb _ _ rfl) (ArrKept.onCell ?_ c (fun _ hx => hx.same) fun hb _ _ => hg hb _ _ rfl)
    refine each_inv _ (fun _ _ _ hu => hu.onCell c (fun x hx => ?_) fun hb _ _ => hg hb _ _ rfl) h
    exact { hx with sp := wf_putBytes hx.sp, spBad := (by dsimp only; exact wf_forget hx.spBad) }

theorem ArrKept.captureCodes (h : ArrKept b g z t) {cell : Nat} : ArrKept b g z (captureCodes die cell c a tile a8 passes w t) := by
  unfold Machine.captureCodes
  extract_lets x tag s1
  have h1 : ArrKept b g z s1 := by
    unfold s1
    split
    · exact h
    · exact ArrKept.capRecordPut hg (h.setArr rfl fun hb x y hxy _ => hg hb x y hxy)
  exact ArrKept.capRecordPut hg h1

end

/-! ### The results enter the tree (R122) -/

theorem enterTree_eq (c tile t0 : Nat) (vals : List F16) (s : State) : enterTree c tile t0 vals s =
    { s with flights := s.flights ++ (List.range 16).map fun g => ⟨t0 + g + treeDepth,
      .tree c tile (((List.range vals.length).zip vals).filter fun p => p.1 / 16 == g) (t0 + g)⟩ } := each_launches fun _ _ _ => rfl

/-- The counts of a word's clipped codes and saturated results. -/
def satCounted (c ovf : Nat) (passes : List (Nat × List (List Int))) (out : List (F16 × Bool)) (s : State) : State :=
  let n := clips passes
  let s := if n = 0 then s
    else sticky (cellKey c Reg.ARR_STICKY) 0 (bumpFld (cellKey c Reg.ARR_SAT_COUNT) 31 0 n (arrOvf c ovf n s))
  let k := (out.filter (·.2)).length
  if k = 0 then s else sticky (cellKey c Reg.ARR_STICKY) 1 (arrOvf c ovf k s)

theorem KeptByCounts.satCounted {P : State → Prop} (hP : KeptByCounts P) (c ovf : Nat) (passes : List (Nat × List (List Int)))
    (out : List (F16 × Bool)) {s : State} (h : P s) : P (satCounted c ovf passes out s) := by
  unfold Machine.satCounted
  extract_lets n s1 k
  have h1 : P s1 := by
    unfold s1
    split
    · exact h
    · exact hP.setBit _ _ (hP.bumpFld _ _ _ _ (hP.arrOvf _ _ _ h))
  split
  · exact h1
  · exact hP.setBit _ _ (hP.arrOvf _ _ _ h1)

theorem evalFinish_eq (c tile ovf t0 : Nat) (passes : List (Nat × List (List Int))) (out : List (F16 × Bool)) (s : State) :
    evalFinish c tile ovf t0 passes out s = enterTree c tile t0 (out.map (·.1)) (satCounted c ovf passes out s) := rfl

/-- The flights of 256 results that enter a tile's tree from tick `t0` on. -/
def treeFlights (c tile t0 : Nat) (out : List (F16 × Bool)) : List Flight :=
  (List.range 16).map fun g => ⟨t0 + g + 12, .tree c tile (((List.range 256).zip (out.map (·.1))).filter fun p => p.1 / 16 == g) (t0 + g)⟩

section
variable {β : Type} {b c tile ovf t0 : Nat} {passes : List (Nat × List (List Int))} {out : List (F16 × Bool)} {g : Cell → β} {s : State}

/-- The word's results are in flight to the tree; what `arrFrame` shows besides stands, and so does every cell. -/
theorem evalFinish_values (hout : out.length = 256) (hs : Canon s) : let t := evalFinish c tile ovf t0 passes out s
    (∀ b, cellAt t b = cellAt s b) ∧ t.dram = s.dram ∧ t.freeCount = s.freeCount ∧ t.flights = s.flights ++ treeFlights c tile t0 out := by
  have hk : ∀ b, ArrKept b id s (satCounted c ovf passes out s) := fun b => keptByCounts_arrKept.satCounted c ovf passes out (arrKept_self hs)
  intro t
  simp only [t, evalFinish_eq, enterTree_eq]
  refine ⟨fun b => (hk b).cell, dram_of_frame (hk 0).frame, freeCount_of_frame (hk 0).frame, ?_⟩
  rw [flights_of_frame (hk 0).frame, List.length_map, hout]
  rfl

theorem evalResults_length {xe : Nat} {trims : List Trim} {exps : List Nat} (ht : trims.length = 260) (he : exps.length = 260) :
    (evalResults xe passes trims exps).length = 256 := by
  simp [evalResults, ht, he]

end

/-! ### EVAL and EVAL8 -/

/-- The source bytes that an evaluation reads. -/
def evalLen (a8 : Bool) : Nat := if a8 then 256 else 128

/-- An evaluation has read its source, and its array's ramp has moved on. -/
def evalSource (a8 : Bool) (c : Nat) (w : Slot) (s : State) : State :=
  advanceRamp c (arrOp w) (spRead 1 c (128 * opf w 63 52) (evalLen a8) s)

/-- The phases of an evaluation's first pass. -/
def evalHigh (a8 : Bool) (c : Nat) (w : Slot) (x : State) : List (List (Nat × Int)) :=
  let src := spGet x c (128 * opf w 63 52) (evalLen a8)
  phases x c (maskOf w) (if a8 then levelsHigh src else levelsA4 src)

/-- Those of its second. -/
def evalLow (a8 : Bool) (c : Nat) (w : Slot) (x : State) : List (List (Nat × Int)) :=
  if a8 then phases x c (maskOf w) (levelsLow (spGet x c (128 * opf w 63 52) (evalLen a8))) else []

/-- The passes with their codes. -/
def evalPasses (a8 : Bool) (c : Nat) (w : Slot) (x : State) : List (Nat × List (List Int)) :=
  let hc := passCodes x c (arrOp w) (opf w 82 80) x.freeCount (evalHigh a8 c w x)
  let lc := passCodes x c (arrOp w) (opf w 66 64) (x.freeCount + 260 * (evalHigh a8 c w x).length) (evalLow a8 c w x)
  if a8 then [(opf w 82 80 + 4, hc), (opf w 66 64, lc)] else [(opf w 82 80, hc)]

/-- The phases that an evaluation runs. -/
def evalRan (a8 : Bool) (c : Nat) (w : Slot) (x : State) : Nat := (evalHigh a8 c w x).length + (evalLow a8 c w x).length

/-- The phases whose assay columns fail their check (R102). -/
def evalBad (a8 : Bool) (c : Nat) (w : Slot) (x u : State) : Nat :=
  let trims := ((List.range 260).map (listCol x c (arrOp w))).map (trimAt x c (arrOp w))
  let hc := passCodes x c (arrOp w) (opf w 82 80) x.freeCount (evalHigh a8 c w x)
  let lc := passCodes x c (arrOp w) (opf w 66 64) (x.freeCount + 260 * (evalHigh a8 c w x).length) (evalLow a8 c w x)
  if fld u Reg.CAL_CTRL 7 7 = 0 then 0
  else (((evalHigh a8 c w x).zip hc).filter fun p => assayBad p.1 (opf w 82 80) trims p.2).length
    + (((evalLow a8 c w x).zip lc).filter fun p => assayBad p.1 (opf w 66 64) trims p.2).length

/-- The phases are counted and, with cap set, captured. -/
def evalCaptured (a8 : Bool) (c : Nat) (w : Slot) (x : State) : State :=
  let u := phasesRun c (evalRan a8 c w x) ((if a8 then 8 else 4) - evalRan a8 c w x) (useFree (260 * evalRan a8 c w x) x)
  if flagOf w 2 then captureCodes (placeDie w.place) (placeWhere w.place) c (arrOp w) (opf w 89 83) a8 (evalPasses a8 c w x) w u else u

/-- The failing assay checks are reported. -/
def evalChecked (a8 : Bool) (c : Nat) (w : Slot) (x : State) : State :=
  each (List.range (evalBad a8 c w x (evalCaptured a8 c w x)))
    (fun _ s => assayFail (placeDie w.place) (placeWhere w.place) (arrOp w) s) (evalCaptured a8 c w x)

/-- The results of an evaluation that read in `x` and ends in `u`. -/
def evalOut (a8 : Bool) (c : Nat) (w : Slot) (x u : State) : List (F16 × Bool) :=
  let cols := (List.range 260).map (listCol x c (arrOp w))
  evalResults (opf w 79 72) (evalPasses a8 c w x) (cols.map (trimAt x c (arrOp w))) (cols.map (expAt u c (arrOp w)))

theorem evaluate_eq (a8 : Bool) (w : Slot) (s : State) : evaluate a8 w s =
    let c := placePhys s w.place
    let x := evalSource a8 c w s
    let u := evalChecked a8 c w x
    evalFinish c (opf w 89 83) (opf w 71 68) (now u + (if a8 then 129 else 65)) (evalPasses a8 c w x) (evalOut a8 c w x u) u := rfl

section
variable {β : Type} {b c : Nat} {a8 : Bool} {w : Slot} {g : Cell → β} {s x : State}

theorem arrKept_evalSource (h : Canon s) (hg : b = c → ∀ x y, evalCell (arrOp w) x = evalCell (arrOp w) y → x.sp = y.sp → g x = g y) :
    ArrKept b g s (evalSource a8 c w s) :=
  ((arrKept_self h).spRead 1 c (128 * opf w 63 52) (evalLen a8)).advanceRamp hg

theorem arrKept_evalChecked (h : Canon x)
    (hg : flagOf w 2 = true → b = c → ∀ x y, evalCell (arrOp w) x = evalCell (arrOp w) y → g x = g y) :
    ArrKept b g (useFree (260 * evalRan a8 c w x) x) (evalChecked a8 c w x) := by
  have h0 : ArrKept b g (useFree (260 * evalRan a8 c w x) x) (useFree (260 * evalRan a8 c w x) x) := arrKept_self (canon_useFree h)
  have h1 : ArrKept b g (useFree (260 * evalRan a8 c w x) x) (evalCaptured a8 c w x) := by
    unfold evalCaptured
    extract_lets u
    have hu := keptByCounts_arrKept.phasesRun c (evalRan a8 c w x) ((if a8 then 8 else 4) - evalRan a8 c w x) h0
    split
    case isTrue hcap => exact hu.captureCodes (hg hcap)
    case isFalse => exact hu
  exact each_inv _ (fun _ _ _ hs => keptByCounts_arrKept.assayFail _ _ _ hs) h1

theorem expAt_congr {s t : State} {c : Nat} (h : (cellAt t c).exps = (cellAt s c).exps) (a p : Nat) : expAt t c a p = expAt s c a p := by
  rw [expAt, expAt, h]

/-- An evaluation of a claimed array. -/
theorem evaluate_values (h : Canon s) : let c := placePhys s w.place
    let x := evalSource a8 c w s
    let t := evaluate a8 w s
    evalCell (arrOp w) (cellAt t c) = evalCell (arrOp w) (cellAt s c) ∧ (∀ b, b ≠ c → cellAt t b = cellAt s b) ∧ t.dram = s.dram ∧
    (flagOf w 2 = false → (cellAt t c).sp = (cellAt s c).sp) ∧ t.freeCount = s.freeCount + 260 * evalRan a8 c w x ∧
    t.flights = s.flights ++ treeFlights c (opf w 89 83) (now s + (if a8 then 129 else 65)) (evalOut a8 c w x x) := by
  intro c x t
  have hx : ∀ {β : Type} {b : Nat} {g : Cell → β}, (b = c → ∀ x y, evalCell (arrOp w) x = evalCell (arrOp w) y → x.sp = y.sp → g x = g y) →
      ArrKept b g s x := arrKept_evalSource h
  have hself : ArrKept c (evalCell (arrOp w)) s x := hx fun _ _ _ hxy _ => hxy
  have hu : ArrKept c (evalCell (arrOp w)) (useFree (260 * evalRan a8 c w x) x) (evalChecked a8 c w x) :=
    arrKept_evalChecked hself.canon fun _ _ _ _ hxy => hxy
  have hxnow : now x = now s := now_of_frame hself.frame
  have hxdram : x.dram = s.dram := dram_of_frame hself.frame
  have hxflights : x.flights = s.flights := flights_of_frame hself.frame
  have hexps : (cellAt (evalChecked a8 c w x) c).exps = (cellAt x c).exps := congrArg (fun y => y.2.1) hu.cell
  have hexp : evalOut a8 c w x (evalChecked a8 c w x) = evalOut a8 c w x x := by
    have he : expAt (evalChecked a8 c w x) c (arrOp w) = expAt x c (arrOp w) := funext (expAt_congr hexps _)
    rw [evalOut, he, ← evalOut]
  have hnow : now (evalChecked a8 c w x) = now s := (now_of_frame hu.frame).trans hxnow
  obtain ⟨hcells, htdram, htfree, htflights⟩ := evalFinish_values (c := c) (tile := opf w 89 83) (ovf := opf w 71 68)
    (t0 := now (evalChecked a8 c w x) + (if a8 then 129 else 65)) (passes := evalPasses a8 c w x)
    (out := evalOut a8 c w x (evalChecked a8 c w x)) (evalResults_length (by simp) (by simp)) hu.canon
  have ht : t = evalFinish c (opf w 89 83) (opf w 71 68) (now (evalChecked a8 c w x) + (if a8 then 129 else 65)) (evalPasses a8 c w x)
    (evalOut a8 c w x (evalChecked a8 c w x)) (evalChecked a8 c w x) := evaluate_eq a8 w s
  rw [ht]
  refine ⟨?_, fun b hb => ?_, htdram.trans ((dram_of_frame hu.frame).trans hxdram), fun hcap => ?_, ?_, ?_⟩
  · rw [hcells]
    exact hu.cell.trans hself.cell
  · have hb' : ArrKept b id s x := hx fun hbc => absurd hbc hb
    have hbu : ArrKept b id (useFree (260 * evalRan a8 c w x) x) (evalChecked a8 c w x) :=
      arrKept_evalChecked hself.canon fun _ hbc => absurd hbc hb
    rw [hcells]
    exact hbu.cell.trans hb'.cell
  · have hc' : ArrKept c (·.sp) s x := hx fun _ _ _ _ hsp => hsp
    have hcu : ArrKept c (·.sp) (useFree (260 * evalRan a8 c w x) x) (evalChecked a8 c w x) :=
      arrKept_evalChecked hself.canon fun hcap' => by simp [hcap] at hcap'
    rw [hcells]
    exact hcu.cell.trans hc'.cell
  · exact htfree.trans ((freeCount_of_frame hu.frame).trans (congrArg (· + 260 * evalRan a8 c w x) (freeCount_of_frame hself.frame)))
  · rw [htflights, hexp, hnow]
    exact congrArg (· ++ _) ((flights_of_frame hu.frame).trans hxflights)

end

/-! ### REPLAY -/

section
variable {c a len span gen rng : Nat} {w : Slot} {s : State}

theorem nextRecord_claimed (h : Canon s) (die : Nat) : nextRecord (claimed c a span s) die c = nextRecord s die c := by
  simp only [nextRecord, spGet, claimed, cellAt_setArr h]
  rfl

theorem listCol_claimed (h : Canon s) : listCol (claimed c a span s) c a = listCol s c a := by
  funext q
  simp only [listCol, physCol, claimed, cellAt_setArr h]

theorem expAt_claimed (h : Canon s) : expAt (claimed c a span s) c a = expAt s c a := by
  funext p
  simp only [expAt, claimed, cellAt_setArr h]

/-- The trims of a recorded generation do not depend on how long the array is occupied. -/
theorem replayTrims_claimed (h : Canon s) : replayTrims (claimed c a span s) c a gen rng = replayTrims s c a gen rng := by
  have harr : arrAt (claimed c a span s) c a = { arrAt s c a with busy := now s + span } := arrAt_setArr h _ _ _
  have htrim : trimAt (claimed c a span s) c a = trimAt s c a := by
    funext p
    simp only [trimAt, claimed, cellAt_setArr h]
  simp only [replayTrims, trimsOf, targetTrim, harr, htrim, listCol_claimed h]
  rfl

/-- A record taken moves ring 62 on, and changes of all cells nothing else but the use of rings. -/
theorem recordTaken_values (h : Canon s) (c len : Nat) (w : Slot) (a : Nat) : let t := recordTaken c len w s
    Canon t ∧ evalCell a (cellAt t c) = evalCell a (cellAt s c) ∧ (cellAt t c).sp = (cellAt s c).sp ∧
    (cellAt t c).ring62 = (cellAt s c).ring62 + len ∧ (∀ b, b ≠ c → cellAt t b = cellAt s b) ∧ arrFrame t = arrFrame (useFree 260 s) := by
  have hk : ∀ {β : Type} (b : Nat) (g : Cell → β), (b = c → ∀ x m, g { x with ringBytes := m } = g x) →
      ArrKept b g (useFree 260 s) (ringTake c 62 len 1 w (useFree 260 s)) := fun b g hg => (arrKept_self (canon_useFree h)).ringTake hg
  have hcell := hk c (fun x => (evalCell a x, x.sp, x.ring62)) fun _ _ _ => rfl
  obtain ⟨heval, hrest⟩ := Prod.mk.inj hcell.cell
  obtain ⟨hsp, hring⟩ := Prod.mk.inj hrest
  have hat : cellAt (recordTaken c len w s) c = { cellAt (ringTake c 62 len 1 w (useFree 260 s)) c with
      ring62 := (cellAt (ringTake c 62 len 1 w (useFree 260 s)) c).ring62 + len } := cellAt_onCell hcell.canon.cells _ _
  intro t
  refine ⟨canon_onCell (fun _ hx => hx.same) hcell.canon, ?_, ?_, ?_, fun b hb => ?_, hcell.frame⟩
  · rw [hat]
    exact heval
  · rw [hat]
    exact hsp
  · rw [hat]
    exact congrArg (· + len) hring
  · exact (cellAt_onCell_ne hcell.canon.cells _ hb).trans (hk b id fun hbc => absurd hbc hb).cell

/-- The results of a REPLAY: those of its record's codes, with the trims of the record's generation. -/
def replayOut (w : Slot) (s : State) : List (F16 × Bool) :=
  let c := placePhys s w.place
  let b := nextRecord s (placeDie w.place) c
  evalResults (opf w 79 72) (replayPasses w b) (replayTrims s c (arrOp w) (leNat ((b.drop 6).take 2)) (leNat ((b.drop 12).take 4)))
    (((List.range 260).map (listCol s c (arrOp w))).map (expAt s c (arrOp w)))

/-- A REPLAY of a claimed array. -/
theorem replayed_values (h : Canon s) : let c := placePhys s w.place
    let b := nextRecord s (placeDie w.place) c
    let t := replayed w s
    evalCell (arrOp w) (cellAt t c) = evalCell (arrOp w) (cellAt s c) ∧ (∀ b, b ≠ c → cellAt t b = cellAt s b) ∧ t.dram = s.dram ∧
    (cellAt t c).sp = (cellAt s c).sp ∧ (cellAt t c).ring62 = (cellAt s c).ring62 + (byteAt b 4 + 256 * byteAt b 5) ∧
    t.flights = s.flights ++ treeFlights c (opf w 89 83) (now s + (if opf w 67 67 == 1 then 129 else 65)) (replayOut w s) := by
  intro c b t
  obtain ⟨hu, hself, hsp, hring, hother, hframe⟩ := recordTaken_values h c (byteAt b 4 + 256 * byteAt b 5) w (arrOp w)
  have hexps : (cellAt (recordTaken c (byteAt b 4 + 256 * byteAt b 5) w s) c).exps = (cellAt s c).exps := congrArg (fun y => y.2.1) hself
  have hexp : expAt (recordTaken c (byteAt b 4 + 256 * byteAt b 5) w s) c (arrOp w) = expAt s c (arrOp w) :=
    funext (expAt_congr hexps _)
  have hnow : now (recordTaken c (byteAt b 4 + 256 * byteAt b 5) w s) = now s := now_of_frame (s := useFree 260 s) hframe
  have ht : t = evalFinish c (opf w 89 83) (opf w 71 68) (now s + (if opf w 67 67 == 1 then 129 else 65)) (replayPasses w b) (replayOut w s)
      (recordTaken c (byteAt b 4 + 256 * byteAt b 5) w s) := by
    rw [← hnow, replayOut, ← hexp]
    rfl
  obtain ⟨hcells, htdram, -, htflights⟩ := evalFinish_values (c := c) (tile := opf w 89 83) (ovf := opf w 71 68)
    (t0 := now s + (if opf w 67 67 == 1 then 129 else 65)) (passes := replayPasses w b) (out := replayOut w s)
    (evalResults_length (by simp [replayTrims]) (by simp)) hu
  rw [ht]
  refine ⟨?_, fun b hb => ?_, htdram.trans (dram_of_frame (s := useFree 260 s) hframe), ?_, ?_,
    htflights.trans (congrArg (· ++ _) (flights_of_frame (s := useFree 260 s) hframe))⟩
  · rw [hcells]
    exact hself
  · rw [hcells]
    exact hother b hb
  · rw [hcells]
    exact hsp
  · rw [hcells]
    exact hring

end

/-! ### The words -/

section
variable {w : Slot} {s : State}

/-- A word that acts and has its array within the budget has its effect on the state with the array claimed. -/
theorem exec_claims {c : Instr} {head : BitVec 8} {ready : State → Bool} {act body : State → State} {span : Nat}
    (hx : exec c s = served (issue head w ready act) s)
    (hact : ∀ z, act z = claimArray (placePhys z w.place) (arrOp w) span w body z) (ha : acts head w ready s = true)
    (hb : (arrAt (atIssue head w s) (placePhys (atIssue head w s) w.place) (arrOp w)).busy ≤ now (atIssue head w s))
    (ho : occupied (atIssue head w s) (placePhys (atIssue head w s) w.place) < 16) : exec c s = .next (withQueue s.pending
      (body (claimed (placePhys (atIssue head w s) w.place) (arrOp w) span (atIssue head w s)))) := by
  rw [exec_acts hx ha, hact, claimArray_claims hb ho]

/-- What a claim leaves of its cell, field by field as evaluations use it. -/
theorem evalCell_claimed {z t : State} {c a span : Nat} (hz : Canon z) (h : evalCell a (cellAt t c) = evalCell a (cellAt (claimed c a span z) c)) :
    (arrAt t c a).busy = now z + span ∧ (cellAt t c).codes = (cellAt z c).codes ∧ (cellAt t c).exps = (cellAt z c).exps ∧
    (cellAt t c).acc = (cellAt z c).acc := by
  rw [claimed, cellAt_setArr hz] at h
  simp only [evalCell, Prod.mk.injEq, get_put (cellCanon_at hz c).arrs] at h
  obtain ⟨hcodes, hexps, hacc, hbusy⟩ := h
  exact ⟨hbusy, hcodes, hexps, hacc⟩

end

/-- Settles O10: the evaluation is taken apart at the states in which it has read its source and counted its phases; from there on only the
256 results go to the tree. A REPLAY differs in the codes and trims it takes. -/
theorem evalEntersTree : Obligations.EvalEntersTree := by
  unfold Obligations.EvalEntersTree
  refine ⟨?eval, ?replay⟩
  case eval =>
    intro a8 w s hs ha s' c a span len x src high low hc lc passes cols out hbusy hocc
    have hz : Canon s' := canon_atIssue (canon_iff.1 hs)
    have hx : exec (if a8 then .eval8 w else .eval w) s = .next (withQueue s.pending (evaluate a8 w (claimed c a span s'))) := by
      cases a8
      case false => exact exec_claims (act := evalAct w) rfl (fun _ => rfl) ha hbusy hocc
      case true => exact exec_claims (act := eval8Act w) rfl (fun _ => rfl) ha hbusy hocc
    obtain ⟨hcell, hother, hdram, hsp, hfree, hflights⟩ := evaluate_values (a8 := a8) (w := w) (canon_claimed (c := c) (a := a) (span := span) hz)
    obtain ⟨htbusy, hcodes, hexps, hacc⟩ := evalCell_claimed hz hcell
    have hnow : now (claimed c a span s') + (if a8 then 129 else 65) = now s' + span + 1 := by cases a8 <;> rfl
    rw [hnow] at hflights
    generalize evaluate a8 w (claimed c a span s') = t at *
    refine ⟨_, hx, htbusy, hflights, hfree, hcodes, hexps, hacc, fun b hb => ?_, hdram, fun hcap => ?_⟩
    · exact (hother b hb).trans (cellAt_setArr_ne hz _ _ hb)
    · exact (hsp hcap).trans (sp_claimed hz)
  case replay =>
    intro w s hs ha s' c a a8 span rec_ n0 n1 codes hc lc passes cols trims out hbusy hocc
    have hz : Canon s' := canon_atIssue (canon_iff.1 hs)
    have hx : exec (.replay w) s = .next (withQueue s.pending (replayed w (claimed c a span s'))) :=
      exec_claims (act := replayAct w) rfl (replayAct_eq w) ha hbusy hocc
    obtain ⟨hcell, hother, hdram, hsp, hring, hflights⟩ := replayed_values (w := w) (canon_claimed (c := c) (a := a) (span := span) hz)
    obtain ⟨htbusy, hcodes, hexps, -⟩ := evalCell_claimed hz hcell
    have hrec : nextRecord (claimed c a span s') (placeDie w.place) c = rec_ := nextRecord_claimed hz _
    have hout : replayOut w (claimed c a span s') = out := by
      simp only [replayOut]
      rw [show placePhys (claimed c a span s') w.place = c from rfl, hrec, replayTrims_claimed hz, listCol_claimed hz, expAt_claimed hz]
      rfl
    have hnow : now (claimed c a span s') + (if a8 then 129 else 65) = now s' + span + 1 := by
      unfold span
      cases a8 <;> rfl
    rw [hout, hnow] at hflights
    rw [show placePhys (claimed c a span s') w.place = c from rfl, hrec, ring62_claimed hz] at hring
    generalize replayed w (claimed c a span s') = t at *
    refine ⟨_, hx, htbusy, hring, hflights, hcodes, hexps, ?_, fun b hb => ?_, hdram⟩
    · exact hsp.trans (sp_claimed hz)
    · exact (hother b hb).trans (cellAt_setArr_ne hz _ _ hb)

end Sys2Proof.Machine
end

section
/-! PROOFS. SWEEP, and the columns of an array (R88 to R91, R94; logs 11, 28, 90). -/
namespace Sys2Proof.Machine

/-! ### Counters -/

section
variable {s : State} {k c : Nat}

theorem fld_whole (s : State) (k : Nat) : fld s k 31 0 = rd s k := by
  rw [fld_def, bits, Nat.shiftRight_zero]
  exact Nat.mod_eq_of_lt (rd_lt s k)

/-- A 32-bit counter counts up to its largest value. -/
theorem rd_bumpFld (h : wf regDefault s.regs = true) (k n : Nat) : rd (bumpFld k 31 0 n s) k = min (rd s k + n) (2 ^ 32 - 1) := by
  rw [bumpFld, fld_whole, rd_setFld h _ _ _ (by decide), setBits_eq]
  have := rd_lt s k
  simp only [satAdd]
  omega

/-- The phases of a word count in two registers of its cell. -/
theorem phasesRun_regs (h : wf regDefault s.regs = true) (c ran skipped : Nat) :
    rd (phasesRun c ran skipped s) (cellKey c Reg.ARR_PHASES_RUN) = min (rd s (cellKey c Reg.ARR_PHASES_RUN) + ran) (2 ^ 32 - 1) ∧
    ∀ k, k ≠ cellKey c Reg.ARR_PHASES_RUN → k ≠ cellKey c Reg.ARR_PHASES_SKIPPED → rd (phasesRun c ran skipped s) k = rd s k := by
  have hs : wf regDefault (bumpFld (cellKey c Reg.ARR_PHASES_SKIPPED) 31 0 skipped s).regs = true := wf_put h
  refine ⟨?_, fun k hk hk' => ?_⟩
  · rw [phasesRun, rd_bumpFld hs, rd_bumpFld_ne h _ _ _ (cellKey_ne c (by decide))]
  · rw [phasesRun, rd_bumpFld_ne hs _ _ _ hk, rd_bumpFld_ne h _ _ _ hk']

end

/-! ### SWEEP -/

section
variable {c a span : Nat} {w : Slot} {s : State}

/-- A SWEEP has counted its phases and reset the age of its array's last sweep. -/
def sweepCounted (c a : Nat) (s : State) : State :=
  setArr c a { arrAt s c a with sweepAt := s.run.steps } (phasesRun c 12 4 (useFree 3120 s))

/-- A SWEEP that has its array. -/
def swept (w : Slot) (s : State) : State :=
  let c := placePhys s w.place
  let a := arrOp w
  launch (now s + 256) (.verdict (placeDie w.place) (placeWhere w.place) a true
    (((List.range 256).map fun col => (col, sweepKind s c a col)).filter fun p => p.2 != 0) []) (sweepCounted c a s)

theorem sweepAct_eq (w : Slot) (s : State) : sweepAct w s = claimArray (placePhys s w.place) (arrOp w) 256 w (swept w) s := rfl

theorem arrAt_claimed (h : Canon s) (c a span : Nat) : arrAt (claimed c a span s) c a = { arrAt s c a with busy := now s + span } :=
  arrAt_setArr h _ _ _

/-- A SWEEP changes of its cell the sweep's age of its array alone, and two counters. -/
theorem sweepCounted_values (h : Canon s) : let t := sweepCounted c a (claimed c a span s)
    arrAt t c a = { arrAt s c a with busy := now s + span, sweepAt := s.run.steps } ∧ (∀ b, b ≠ a → arrAt t c b = arrAt s c b) ∧
    rd t (cellKey c Reg.ARR_PHASES_RUN) = min (rd s (cellKey c Reg.ARR_PHASES_RUN) + 12) (2 ^ 32 - 1) ∧
    (∀ k, k ≠ cellKey c Reg.ARR_PHASES_RUN → k ≠ cellKey c Reg.ARR_PHASES_SKIPPED → rd t k = rd s k) ∧
    (cellAt t c).codes = (cellAt s c).codes ∧ (cellAt t c).sp = (cellAt s c).sp ∧ (∀ b, b ≠ c → cellAt t b = cellAt s b) := by
  have hx : Canon (claimed c a span s) := canon_claimed h
  have hv : Canon (phasesRun c 12 4 (useFree 3120 (claimed c a span s))) := canon_phasesRun (canon_useFree hx)
  obtain ⟨hrun, hregs⟩ := phasesRun_regs (s := useFree 3120 (claimed c a span s)) hx.regs c 12 4
  have hcell : cellAt (phasesRun c 12 4 (useFree 3120 (claimed c a span s))) c = cellAt (claimed c a span s) c := rfl
  intro t
  refine ⟨(arrAt_setArr hv _ _ _).trans ?_, fun b hb => ?_, hrun, hregs, ?_, ?_, fun b hb => ?_⟩
  · rw [arrAt_claimed h]
    rfl
  · exact (arrAt_setArr_ne hv _ _ hb).trans (arrAt_setArr_ne h _ _ hb)
  · simp only [t, sweepCounted, cellAt_setArr hv]
    rw [hcell, claimed, cellAt_setArr h]
  · simp only [t, sweepCounted, cellAt_setArr hv]
    rw [hcell, claimed, cellAt_setArr h]
  · exact (cellAt_setArr_ne hv _ _ hb).trans (cellAt_setArr_ne h _ _ hb)

end

end Sys2Proof.Machine
end

section
/-! PROOFS. WRITE (R82, R88, R89, R217, R222; logs 11, 28). -/
namespace Sys2Proof.Machine

/-! ### Outstanding fills -/

/-- `P` says nothing of the fills outstanding nor of their registers. -/
structure KeptBySlots (P : State → Prop) : Prop where
  spare : ∀ {k v : Nat} {s : State}, spareKey k = true → P s → P (wr k v s)
  fills : ∀ {s : State} {fills : SMap Fill} {lost : Option Fill}, P s → P { s with spr := { s.spr with fills := fills, lost := lost } }

theorem KeptByFills.toKeptBySlots {P : State → Prop} (hP : KeptByFills P) : KeptBySlots P := ⟨hP.spare, fun h => hP.spares h⟩

namespace KeptBySlots
variable {P : State → Prop} (hP : KeptBySlots P) {s : State} {die cell a col : Nat} {content : List Byte}
include hP

theorem refreshLost (h : P s) : P (refreshLost die cell a col content s) := by
  unfold Machine.refreshLost
  split
  · exact h
  · dsimp only
    split_ifs
    · exact h
    · exact hP.fills h
    · exact hP.fills h
    · exact h

theorem refreshFill (hd : die < 4) (h : P s) : P (refreshFill die cell a col content s) := by
  unfold Machine.refreshFill
  refine each_inv P (fun slot hslot u hu => ?_) (hP.refreshLost h)
  have hk : spareKey (fillKey die slot) = true := spareKey_fill hd (by simp at hslot; omega)
  dsimp only
  split
  · refine hP.fills ?_
    split
    · exact hP.spare hk hu
    · exact hu
  · split
    · exact hP.fills hu
    · exact hu

end KeptBySlots

theorem keptBySlots_held {q v : Nat} (hq : spareKey q = false) : KeptBySlots (Held q v) :=
  ⟨fun hk h => h.wr (ne_of_key hk hq) _, fun h => h.congr rfl⟩

/-- Cell `c` is not the spare cell of a passed fill of a slot. -/
def NoMirror (die c slot : Nat) (s : State) : Prop :=
  fld s (fillKey die slot) 3 0 = 11 → spareCell die (fld s (fillKey die slot) 29 26) ≠ c

section
variable {die c slot cell a col : Nat} {content : List Byte} {s t : State}

theorem NoMirror.congr (h : NoMirror die c slot s) (hr : rd t (fillKey die slot) = rd s (fillKey die slot)) : NoMirror die c slot t := by
  rw [NoMirror, fld_def, fld_def, hr, ← fld_def, ← fld_def]
  exact h

/-- A fill of a column mirrors nothing. -/
theorem noMirror_of_column (h : fld s (fillKey die slot) 3 2 = 1) : NoMirror die c slot s := by
  intro h11
  rw [fld_def, bits, Nat.shiftRight_eq_div_pow] at h h11
  omega

theorem refreshLost_regs (die cell a col : Nat) (content : List Byte) (s : State) : (refreshLost die cell a col content s).regs = s.regs := by
  unfold refreshLost
  split
  · rfl
  · dsimp only
    split_ifs <;> rfl

/-- A WRITE's change of fills makes no fill a passed one. -/
theorem NoMirror.refreshFill (hs : wf regDefault s.regs = true) (h : NoMirror die c slot s) :
    NoMirror die c slot (refreshFill die cell a col content s) := by
  have hlost := refreshLost_regs die cell a col content s
  refine And.right (each_inv (fun u => wf regDefault u.regs = true ∧ NoMirror die c slot u) (fun n _ u hu => ?_)
    ⟨hlost ▸ hs, h.congr (rd_congr hlost _)⟩)
  obtain ⟨hw, hu⟩ := hu
  dsimp only
  split
  case isTrue hcol =>
    obtain ⟨-, hkind, -⟩ := hcol
    split
    case isTrue =>
      refine ⟨wf_put hw, ?_⟩
      by_cases hk : fillKey die slot = fillKey die n
      · refine noMirror_of_column ?_
        rw [hk]
        exact (fld_setFld_ne hw (fillKey die n) 0 2 (by decide) (by decide)).trans hkind
      · exact hu.congr (rd_setFld_ne hw _ _ _ hk)
    case isFalse => exact ⟨hw, hu⟩
  case isFalse =>
    split <;> exact ⟨hw, hu⟩

end

/-! ### A column programmed (R88, R89) -/

section
variable {c a p col exp q v n : Nat} {codes : List Byte} {s t : State}

theorem progKey_ge (c a : Nat) : bankKey Reg.SPR_WEAR 0 ≤ progKey c a := by
  unfold progKey bankKey
  omega

/-- A programming writes the wear counter of its array and SPR_STICKY alone. -/
theorem Held.programCol (h : Held q v s) (hq : q < bankKey Reg.SPR_WEAR 0) (hs : q ≠ Reg.SPR_STICKY) : Held q v (programCol c a p codes exp s) := by
  unfold Machine.programCol wearColumn
  extract_lets base s1 m s2
  have h1 : Held q v s1 := h.congr rfl
  have h2 : Held q v s2 := h1.wr (hq.trans_le (progKey_ge c a)).ne' _
  split
  · exact (Held.wr (s := { s2 with spr := { s2.spr with dirty := true } }) (h2.congr rfl) hs.symm _).congr rfl
  · exact h2

theorem programCol_cells : (programCol c a p codes exp s).cells = (onCell c (blockPut (List.range 256) (colKey a p) (takenCodes s.freeCount codes)
    (siteTakes s.freeCount 256 exp % 256) (blockCheck codes exp)) (useFree 257 s)).cells := by
  unfold programCol wearColumn
  extract_lets base s1 m s2
  split <;> rfl

theorem cellAt_programCol (h : Canon s) : cellAt (programCol c a p codes exp s) c = blockPut (List.range 256) (colKey a p)
    (takenCodes s.freeCount codes) (siteTakes s.freeCount 256 exp % 256) (blockCheck codes exp) (cellAt s c) := by
  rw [cellAt_congr programCol_cells, cellAt_onCell (s := useFree 257 s) h.cells]
  rfl

theorem cellAt_programCol_ne (h : Canon s) {b : Nat} (hb : b ≠ c) : cellAt (programCol c a p codes exp s) b = cellAt s b := by
  rw [cellAt_congr programCol_cells, cellAt_onCell_ne (s := useFree 257 s) h.cells _ hb]
  rfl

theorem arrFrame_programCol (c a p : Nat) (codes : List Byte) (exp : Nat) (s : State) :
    arrFrame (programCol c a p codes exp s) = arrFrame (useFree 257 s) := by
  unfold programCol wearColumn
  extract_lets base s1 m s2
  split <;> rfl

theorem programCol_stores (c a p : Nat) (codes : List Byte) (exp : Nat) (s : State) :
    (programCol c a p codes exp s).flights = s.flights ∧ (programCol c a p codes exp s).dram = s.dram ∧
    now (programCol c a p codes exp s) = now s ∧ (programCol c a p codes exp s).run.delta = s.run.delta :=
  have h : arrFrame (programCol c a p codes exp s) = arrFrame (useFree 257 s) := arrFrame_programCol c a p codes exp s
  ⟨flights_of_frame (s := useFree 257 s) h, dram_of_frame (s := useFree 257 s) h, now_of_frame (s := useFree 257 s) h,
    delta_of_frame (s := useFree 257 s) h⟩

theorem blockPut_codes {x y : Cell} (h : y.codes = x.codes) (rows : List Nat) (key : Nat) (b : List Byte) (e : Nat) (k : BitVec 16) :
    (blockPut rows key b e k y).codes = (blockPut rows key b e k x).codes := by
  rw [blockPut, blockPut, h]

theorem blockPut_exps {x y : Cell} (h : y.exps = x.exps) (rows : List Nat) (key : Nat) (b : List Byte) (e : Nat) (k : BitVec 16) :
    (blockPut rows key b e k y).exps = (blockPut rows key b e k x).exps := by
  rw [blockPut, blockPut, h]

section
variable (rows : List Nat) (key : Nat) (b : List Byte) (e : Nat) (k : BitVec 16) (x : Cell)

@[simp] theorem blockPut_trims : (blockPut rows key b e k x).trims = x.trims := rfl
@[simp] theorem blockPut_arrs : (blockPut rows key b e k x).arrs = x.arrs := rfl
@[simp] theorem blockPut_sp : (blockPut rows key b e k x).sp = x.sp := rfl

end

/-- Values put under the distinct keys of a range are read back. -/
theorem get_put_range {α : Type} [DecidableEq α] {d : Nat → α} {f : Nat → Nat} {x : Nat → α} {m : SMap α} (hf : ∀ i j, f i = f j → i = j)
    (hm : wf d m = true) {i : Nat} (hi : i < n) : get d ((List.range n).foldl (fun m i => put d m (f i) (x i)) m) (f i) = x i := by
  induction n with
  | zero => omega
  | succ n ih =>
    have hw : wf d ((List.range n).foldl (fun m i => put d m (f i) (x i)) m) = true := wf_foldPut (k := f) (v := fun _ i => x i) hm
    rw [List.range_succ, List.foldl_append]
    by_cases he : i = n
    · subst he
      exact get_put hw
    · exact (get_put_ne hw fun h => he (hf _ _ h)).trans (ih (by omega))

theorem nibble_lt (b : List Byte) (i : Nat) : nibble b i < 16 := by
  unfold nibble
  extract_lets x
  have := ((b[i / 2]?).getD 0).isLt
  split <;> omega

/-- The codes and the exponent of a block that its sites have taken. -/
theorem taken_values (h : Canon s) (htc : cellAt t c = blockPut (List.range 256) (colKey a p) (takenCodes n codes)
      (siteTakes n 256 exp % 256) (blockCheck codes exp) (cellAt s c)) :
    expAt t c a p = siteTakes n 256 exp % 256 ∧ ∀ i, i < 256 → (codeAt t c a p i).toNat = nibble (takenCodes n codes) i := by
  have hc := cellCanon_at h c
  refine ⟨?_, fun i hi => ?_⟩
  · rw [expAt, htc, blockPut, get_put hc.exps, BitVec.toNat_ofNat, Nat.mod_mod]
  · rw [codeAt, htc, blockPut, get_put_range (f := fun i => colKey a p * 256 + i) (x := fun i => BitVec.ofNat 4 (nibble (takenCodes n codes) i))
      (fun _ _ hij => Nat.add_left_cancel hij) hc.codes hi, BitVec.toNat_ofNat]
    exact Nat.mod_eq_of_lt (nibble_lt _ _)

end

/-! ### What the verify of a column depends on (R89, R117) -/

section
variable {c a p col exp : Nat} {codes : List Byte} {s t : State}

theorem chanEn_congr (h : ∀ e, e < 288 → rd t (bankKey Reg.TSM_CH_WIN e) = rd s (bankKey Reg.TSM_CH_WIN e)) (conv ch : Nat) :
    chanEn t conv ch = chanEn s conv ch := by
  unfold chanEn
  by_cases he : chanExists conv ch = true
  · have hlt : 32 * conv + ch < 288 := by
      unfold chanExists at he
      split at he
      · have := of_decide_eq_true he
        omega
      · simp only [Bool.and_eq_true, decide_eq_true_eq] at he
        omega
    rw [chanWin, chanWin, h _ hlt]
  · simp [he]

/-- The temperatures depend on the monitor, power, time and the registers of the channels. -/
theorem cellTemp_congr (hf : arrFrame t = arrFrame s) (h : ∀ e, e < 288 → rd t (bankKey Reg.TSM_CH_WIN e) = rd s (bankKey Reg.TSM_CH_WIN e))
    (die cell : Nat) : cellTemp t die cell = cellTemp s die cell := by
  simp only [arrFrame, Prod.mk.injEq] at hf
  obtain ⟨htime, -, -, -, -, htsm, hpwr, -⟩ := hf
  have hvalid : ∀ conv ch, chanValid t conv ch = chanValid s conv ch := by
    intro conv ch
    unfold chanValid chanOn convRuns chanAt
    rw [chanEn_congr h, htime, htsm, hpwr]
  rw [cellTemp, cellTemp, groupTemp, groupTemp, hvalid, chanAt, chanAt, htsm]

theorem nameOf_congr (h : t.spr.cellMap = s.spr.cellMap) (c : Nat) : nameOf t c = nameOf s c := by
  simp only [nameOf, logicalOf, phys, h]

/-- An array's columns convert alike in two states. -/
structure SameColumns (c a : Nat) (s t : State) : Prop where
  codes : (cellAt t c).codes = (cellAt s c).codes
  exps : (cellAt t c).exps = (cellAt s c).exps
  trims : (cellAt t c).trims = (cellAt s c).trims
  ramp : (arrAt t c a).rampLeft = (arrAt s c a).rampLeft
  tcal : (arrAt t c a).tcal = (arrAt s c a).tcal
  lost : groupLost (arrAt t c a) = groupLost (arrAt s c a)
  name : nameOf t c = nameOf s c
  temp : ∀ die cell, cellTemp t die cell = cellTemp s die cell
  free : t.freeCount = s.freeCount

namespace SameColumns
variable (h : SameColumns c a s t)
include h

theorem codeAt (p i : Nat) : codeAt t c a p i = codeAt s c a p i := by rw [Machine.codeAt, Machine.codeAt, h.codes]

theorem colLimit (col : Nat) : colLimit t c a col = colLimit s c a col := by
  simp only [Machine.colLimit, errorLimit, h.ramp, h.tcal, h.lost, h.name, h.temp]

theorem columnPasses (p col range : Nat) (ph : List (List (Nat × Int))) (idx : Nat → Nat) :
    columnPasses t c a p col range ph idx = columnPasses s c a p col range ph idx := by
  have htrim : trimAt t c a p = trimAt s c a p := by rw [trimAt, trimAt, h.trims]
  simp only [Machine.columnPasses, h.colLimit, htrim, phaseSum, h.codeAt]

theorem verifyColumn (p col : Nat) (codes : List Byte) (exp : Nat) :
    verifyColumn t c a p col codes exp = verifyColumn s c a p col codes exp := by
  simp only [Machine.verifyColumn, h.columnPasses, colBytes, h.codeAt, expAt_congr h.exps, h.free]

/-- So they do after the same programming. -/
theorem programCol (hs : Canon s) (ht : Canon t) (p : Nat) (codes : List Byte) (exp : Nat) :
    SameColumns c a (programCol c a p codes exp s) (programCol c a p codes exp t) := by
  have htemp : ∀ u, Canon u → ∀ die cell, cellTemp (Machine.programCol c a p codes exp u) die cell = cellTemp u die cell := by
    intro u hu
    have hwin : ∀ e, e < 288 → rd (Machine.programCol c a p codes exp u) (bankKey Reg.TSM_CH_WIN e) = rd u (bankKey Reg.TSM_CH_WIN e) :=
      fun e he => ((held_of_canon hu _).programCol (by unfold bankKey Reg.TSM_CH_WIN Reg.SPR_WEAR; omega)
        (bankKey_ne_of_package (by decide) _ _).symm).val
    exact cellTemp_congr (s := useFree 257 u) (arrFrame_programCol c a p codes exp u) hwin
  have hname : ∀ u, nameOf (Machine.programCol c a p codes exp u) c = nameOf u c := fun u =>
    nameOf_congr (cellMap_of_frame (s := useFree 257 u) (arrFrame_programCol c a p codes exp u)) c
  have hfree : ∀ u, (Machine.programCol c a p codes exp u).freeCount = u.freeCount + 257 := fun u =>
    freeCount_of_frame (arrFrame_programCol c a p codes exp u)
  have harr : ∀ u, Canon u → arrAt (Machine.programCol c a p codes exp u) c a = arrAt u c a := by
    intro u hu
    rw [arrAt, cellAt_programCol hu, blockPut_arrs, ← arrAt]
  refine ⟨?_, ?_, ?_, ?_, ?_, ?_, ?_, fun die cell => ?_, ?_⟩
  · rw [cellAt_programCol hs, cellAt_programCol ht, h.free, blockPut_codes h.codes]
  · rw [cellAt_programCol hs, cellAt_programCol ht, h.free, blockPut_exps h.exps]
  · rw [cellAt_programCol hs, cellAt_programCol ht, blockPut_trims, blockPut_trims, h.trims]
  · rw [harr s hs, harr t ht, h.ramp]
  · rw [harr s hs, harr t ht, h.tcal]
  · rw [harr s hs, harr t ht, h.lost]
  · rw [hname, hname, h.name]
  · rw [htemp s hs, htemp t ht, h.temp]
  · rw [hfree, hfree, h.free]

end SameColumns

end

/-! ### The column and its mirror -/

/-- Programming spare cells of a die changes neither cell `c` nor any register but wear counters and SPR_STICKY. -/
structure Mirrored (c : Nat) (z t : State) : Prop where
  canon : Canon t
  cell : cellAt t c = cellAt z c
  flights : t.flights = z.flights
  dram : t.dram = z.dram
  now : now t = now z
  regs : ∀ {q v}, q < bankKey Reg.SPR_WEAR 0 → q ≠ Reg.SPR_STICKY → Held q v z → Held q v t

section
variable {die c cell a col p exp : Nat} {codes : List Byte} {w : Slot} {s z : State}

theorem fillKey_lt {slot : Nat} (hd : die < 4) (hs : slot < 2) : fillKey die slot < bankKey Reg.SPR_WEAR 0 := by
  unfold fillKey bankKey Reg.SPR_FILL Reg.SPR_WEAR
  omega

theorem mirrorWrite_mirrored (h : Canon z) (hd : die < 4) (hn : ∀ slot, slot < 2 → NoMirror die c slot z) :
    Mirrored c z (mirrorWrite die cell a col codes exp z) := by
  unfold mirrorWrite
  refine each_inv (Mirrored c z) (fun slot hslot u hu => ?_) ⟨h, rfl, rfl, rfl, rfl, fun _ _ hq => hq⟩
  have hs : slot < 2 := by simp at hslot; omega
  dsimp only
  split
  case isFalse => exact hu
  case isTrue hpass =>
    have hstand : rd u (fillKey die slot) = rd z (fillKey die slot) :=
      (hu.regs (fillKey_lt hd hs) (bankKey_ne_of_package (by decide) _ _).symm (held_of_canon h _)).val
    have hne : c ≠ spareCell die (bits (rd u (fillKey die slot)) 29 26) := ((hn slot hs).congr hstand hpass.1).symm
    obtain ⟨hflights, hdram, hnow, -⟩ := programCol_stores (spareCell die (bits (rd u (fillKey die slot)) 29 26)) a
      (physCol u (spareCell die (bits (rd u (fillKey die slot)) 29 26)) a col) codes exp u
    exact ⟨canon_programCol hu.canon, (cellAt_programCol_ne hu.canon hne).trans hu.cell, hflights.trans hu.flights, hdram.trans hu.dram,
      hnow.trans hu.now, fun hq hq' hv => (hu.regs hq hq' hv).programCol hq hq'⟩

/-- The verify's phases and the word are counted. -/
def writeCounted (c : Nat) (s : State) : State := bump (cellKey c Reg.ARR_WRITES_DONE) (phasesRun c 4 0 (useFree 1040 s))

theorem writeCounted_stores (c : Nat) (s : State) : (writeCounted c s).cells = s.cells ∧ (writeCounted c s).flights = s.flights ∧
    (writeCounted c s).dram = s.dram ∧ now (writeCounted c s) = now s := ⟨rfl, rfl, rfl, rfl⟩

theorem canon_writeCounted (h : Canon s) : Canon (writeCounted c s) := canon_bump (canon_phasesRun (canon_useFree h))

/-- A register other than the counters of the cell's words stands. -/
theorem Held.writeCounted {q v : Nat} (h : Held q v s) (hq : ∀ off, 16 ≤ off → off < 28 → cellKey c off ≠ q) : Held q v (writeCounted c s) :=
  have h0 : Held q v (useFree 1040 s) := h.congr rfl
  ((h0.wr (hq Reg.ARR_PHASES_SKIPPED (by decide) (by decide)) _).wr (hq Reg.ARR_PHASES_RUN (by decide) (by decide)) _).wr
    (hq Reg.ARR_WRITES_DONE (by decide) (by decide)) _

theorem cellKey_ne_fill {slot off : Nat} (hd : die < 4) (hs : slot < 2) (ho : 8 ≤ off) (ho' : off < 65536) :
    cellKey c off ≠ fillKey die slot := by
  unfold cellKey fillKey bankKey Reg.SPR_FILL
  omega

/-- The column that a WRITE names is programmed and verified, and mirrored in a spare cell that follows its cell. -/
def writeProgrammed (die cell c a col p : Nat) (codes : List Byte) (exp : Nat) (s : State) : State :=
  mirrorWrite die cell a col codes exp (writeCounted c (programCol c a p codes exp s))

theorem writeProgrammed_values (h : Canon s) (hd : die < 4) (hn : ∀ slot, slot < 2 → NoMirror die c slot s) :
    let t := writeProgrammed die cell c a col p codes exp s
    cellAt t c = blockPut (List.range 256) (colKey a p) (takenCodes s.freeCount codes) (siteTakes s.freeCount 256 exp % 256)
      (blockCheck codes exp) (cellAt s c) ∧
    t.flights = s.flights ∧ t.dram = s.dram ∧ now t = now s ∧ ∀ v, Held Reg.SCH_VIOL v s → Held Reg.SCH_VIOL v t := by
  obtain ⟨hcells, hcflights, hcdram, hcnow⟩ := writeCounted_stores c (programCol c a p codes exp s)
  have hzn : ∀ slot, slot < 2 → NoMirror die c slot (writeCounted c (programCol c a p codes exp s)) := by
    intro slot hs
    have hheld : Held (fillKey die slot) _ (programCol c a p codes exp s) :=
      (held_of_canon h _).programCol (fillKey_lt hd hs) (bankKey_ne_of_package (by decide) _ _).symm
    exact (hn slot hs).congr (hheld.writeCounted fun off ho ho' => cellKey_ne_fill hd hs (by omega) (by omega)).val
  obtain ⟨-, hcell, hflights, hdram, hnow, hregs⟩ := mirrorWrite_mirrored (cell := cell) (a := a) (col := col) (codes := codes) (exp := exp)
    (canon_writeCounted (canon_programCol h)) hd hzn
  obtain ⟨hpflights, hpdram, hpnow, -⟩ := programCol_stores c a p codes exp s
  refine ⟨?_, hflights.trans (hcflights.trans hpflights), hdram.trans (hcdram.trans hpdram), hnow.trans (hcnow.trans hpnow), fun v hv => ?_⟩
  · exact hcell.trans ((cellAt_congr hcells c).trans (cellAt_programCol h))
  · have hheld : Held Reg.SCH_VIOL v (programCol c a p codes exp s) := hv.programCol (by decide) (by decide)
    exact hregs (by decide) (by decide)
      (hheld.writeCounted fun off _ _ => ((show Reg.SCH_VIOL < 2 ^ 36 by decide).trans_le (cellKey_gt c off)).ne')

end

end Sys2Proof.Machine
end

section
/-! PROOFS. The WRITE word: its read, its violation and its changes of fills; then the column left as it is, or programmed (R88, R217, R222, R382). -/
namespace Sys2Proof.Machine

/-! ### Before the column is compared -/

/-- The registers that a WRITE's read, its violation and its changes of fills write. -/
def noteKey (k : Nat) : Bool :=
  recKey k || taintKey k || [Reg.SCH_VIOL, Reg.SCH_VIOL_FIRST, Reg.SCH_VIOL_TICK].contains k || spareKey k

theorem not_listed {n k : Nat} {l : List Nat} (hl : l.all (· < n) = true) (hk : n ≤ k) : l.contains k = false := by
  rw [List.contains_eq_mem, decide_eq_false_iff_not]
  intro hm
  have := of_decide_eq_true (List.all_eq_true.1 hl k hm)
  omega

section
variable {q v c off die cell a col : Nat} {w : Slot} {s z : State}

/-- A register of a cell or of a bank other than SPR_FILL is none of these. -/
theorem noteKey_eq_false (hq : 2 ^ 36 ≤ q) (hf : q < bankKey Reg.SPR_FILL 0 ∨ bankKey Reg.SPR_FILL 8 ≤ q) : noteKey q = false := by
  have hfill : (decide (bankKey Reg.SPR_FILL 0 ≤ q) && decide (q < bankKey Reg.SPR_FILL 8)) = false := by
    rw [Bool.and_eq_false_iff, decide_eq_false_iff_not, decide_eq_false_iff_not]
    omega
  simp only [noteKey, recKey, taintKey, spareKey, hfill, Bool.or_eq_false_iff]
  exact ⟨⟨⟨not_listed (by decide) hq, not_listed (by decide) hq⟩, not_listed (by decide) hq⟩, not_listed (by decide) hq, trivial⟩

theorem noteKey_channel {e : Nat} (he : e < 288) : noteKey (bankKey Reg.TSM_CH_WIN e) = false :=
  noteKey_eq_false (by unfold bankKey; omega) (.inl (by unfold bankKey Reg.TSM_CH_WIN Reg.SPR_FILL; omega))

theorem noteKey_unchanged (c : Nat) : noteKey (cellKey c Reg.ARR_WRITES_UNCHANGED) = false :=
  noteKey_eq_false (cellKey_gt _ _) (by unfold cellKey bankKey Reg.ARR_WRITES_UNCHANGED Reg.SPR_FILL; omega)

theorem Held.wordViol (h : Held q v s) (hq : noteKey q = false) (bit unit : Nat) (w : Slot) : Held q v (wordViol bit unit w s) := by
  simp only [noteKey, Bool.or_eq_false_iff] at hq
  obtain ⟨⟨⟨hrec, htaint⟩, hviol⟩, -⟩ := hq
  have hne : ∀ k ∈ [Reg.SCH_VIOL, Reg.SCH_VIOL_FIRST, Reg.SCH_VIOL_TICK], k ≠ q := by
    rintro k hk rfl
    rw [List.contains_iff_mem.2 hk] at hviol
    cases hviol
  have h1 : Held q v (sticky Reg.SCH_VIOL bit s) := (h.wr (hne _ (by decide)) _).congr rfl
  unfold Machine.wordViol viol
  refine (keptByRecords_held hrec).record _ _ _ ((keptByTaints_held hrec htaint).jobFault ?_)
  split
  · exact ((h1.wr (hne _ (by decide)) _).wr (hne _ (by decide)) _).congr rfl
  · exact h1

/-- A WRITE before the commit point's result raises VERSION. -/
def writeChecked (w : Slot) (s : State) : State := if s.run.commitDone then s else wordViol 3 1 w s

/-- From `z` to `u` a WRITE has read its source, checked the commit point and changed the fills of its column. -/
structure WriteNoted (die c : Nat) (z u : State) : Prop where
  kept : ArrKept c id z u
  regs : ∀ {q v : Nat}, noteKey q = false → Held q v z → Held q v u
  viol : z.run.commitDone = false → ∃ x, Held Reg.SCH_VIOL (x ||| 2 ^ 3) u
  mirror : ∀ slot, slot < 2 → NoMirror die c slot z → NoMirror die c slot u

theorem placeDie_lt (p : Place) : placeDie p < 4 := by
  cases p with
  | cell d _ => exact d.isLt
  | port _ => exact (by decide : 0 < 4)

theorem ArrKept.writeChecked {β : Type} {b : Nat} {g : Cell → β} (h : ArrKept b g z s) (w : Slot) : ArrKept b g z (writeChecked w s) := by
  unfold Machine.writeChecked
  split
  · exact h
  · exact keptByCounts_arrKept.viol _ _ _ _ h

theorem reportKey_fillKey {slot : Nat} (hd : die < 4) (hs : slot < 2) : reportKey (fillKey die slot) = false :=
  reportKey_bankKey (by decide) (by omega)

theorem writeNoted (h : Canon z) (w : Slot) (c addr n cell a col : Nat) (content : List Byte) :
    WriteNoted (placeDie w.place) c z (refreshFill (placeDie w.place) cell a col content (writeChecked w (spRead 1 c addr n z))) := by
  have hd := placeDie_lt w.place
  have hread : ArrKept c id z (spRead 1 c addr n z) := (arrKept_self h).spRead ..
  have hchecked : ArrKept c id z (writeChecked w (spRead 1 c addr n z)) := hread.writeChecked w
  refine ⟨keptByFills_arrKept.toKeptBySlots.refreshFill hd hchecked, fun {q v} hq hz => ?_, fun hdone => ?_, fun slot hs hm => ?_⟩
  · have hkeys := hq
    simp only [noteKey, Bool.or_eq_false_iff] at hkeys
    obtain ⟨⟨⟨hrec, htaint⟩, -⟩, hspare⟩ := hkeys
    have h1 : Held q v (spRead 1 c addr n z) := (keptByTaints_held hrec htaint).spRead _ _ _ _ hz
    refine (keptBySlots_held hspare).refreshFill hd ?_
    unfold writeChecked
    split
    · exact h1
    · exact h1.wordViol hq _ _ _
  · have hdone' : (spRead 1 c addr n z).run.commitDone = false := (commitDone_of_frame hread.frame).trans hdone
    have hviol := held_viol (bit := 3) (by decide) 1 (placeDie w.place) (placeWhere w.place) (spRead 1 c addr n z)
    refine ⟨rd (spRead 1 c addr n z) Reg.SCH_VIOL, (keptBySlots_held (by decide)).refreshFill hd ?_⟩
    rw [writeChecked, hdone']
    exact hviol
  · refine NoMirror.refreshFill hchecked.canon.regs (hm.congr ?_)
    have hP : KeptByReports (Held (fillKey (placeDie w.place) slot) (rd z (fillKey (placeDie w.place) slot))) := keptByReports_held (reportKey_fillKey hd hs)
    have h1 := hP.toKeptByTaints.spRead 1 c addr n (held_of_canon h _)
    unfold writeChecked
    split
    · exact h1.val
    · exact (hP.viol _ _ _ _ h1).val

end

/-! ### The word -/

/-- A column is programmed, and its verdict is on the way. -/
def writeSent (w : Slot) (c p : Nat) (codes : List Byte) (u : State) : State :=
  let r := programVerified c (arrOp w) p (opf w 89 82) codes (opf w 81 74) u
  let t := mirrorWrite (placeDie w.place) (placeWhere w.place) (arrOp w) (opf w 89 82) codes (opf w 81 74)
    (bump (cellKey c Reg.ARR_WRITES_DONE) r.2)
  launch (now t + 128) (.verdict (placeDie w.place) (placeWhere w.place) (arrOp w) false (if r.1 then [] else [(opf w 89 82, 1)])
    (codes ++ [BitVec.ofNat 8 (opf w 81 74)])) t

theorem writeSent_eq (w : Slot) (c p : Nat) (codes : List Byte) (u : State) : writeSent w c p codes u =
    let t := writeProgrammed (placeDie w.place) (placeWhere w.place) c (arrOp w) (opf w 89 82) p codes (opf w 81 74) u
    launch (now t + 128) (.verdict (placeDie w.place) (placeWhere w.place) (arrOp w) false
      (if verifyColumn (programCol c (arrOp w) p codes (opf w 81 74) u) c (arrOp w) p (opf w 89 82) codes (opf w 81 74) then []
        else [(opf w 89 82, 1)]) (codes ++ [BitVec.ofNat 8 (opf w 81 74)])) t := by
  unfold writeSent programVerified writeProgrammed writeCounted
  rfl

/-- A WRITE that has its array. -/
def written (w : Slot) (s : State) : State :=
  let c := placePhys s w.place
  let x := spRead 1 c (128 * opf w 63 52) 128 s
  if x.run.suppressed then x
  else
    let y := writeChecked w x
    let codes := spGet y c (128 * opf w 63 52) 128
    let p := physCol y c (arrOp w) (opf w 89 82)
    let u := refreshFill (placeDie w.place) (placeWhere w.place) (arrOp w) (opf w 89 82) (codes ++ [BitVec.ofNat 8 (opf w 81 74)]) y
    if codes = colBytes u c (arrOp w) p ∧ opf w 81 74 = expAt u c (arrOp w) p then bump (cellKey c Reg.ARR_WRITES_UNCHANGED) u
    else writeSent w c p codes u

theorem writeAct_eq (w : Slot) (s : State) : writeAct w s = claimArray (placePhys s w.place) (arrOp w) 128 w (written w) s := rfl

section
variable {c a p : Nat} {w : Slot} {s t z : State}

theorem colBytes_congr (h : (cellAt t c).codes = (cellAt s c).codes) (a p : Nat) : colBytes t c a p = colBytes s c a p := by
  simp only [colBytes, codeAt, h]

theorem spRead_clean (h : (cellAt s c).spBad = []) (unit addr n : Nat) : spRead unit c addr n s = s := by
  simp [spRead, h]

theorem written_suppressed (h : Canon z) (hs : z.run.suppressed = true) :
    written w z = spRead 1 (placePhys z w.place) (128 * opf w 63 52) 128 z := by
  have hx : ArrKept 0 id z (spRead 1 (placePhys z w.place) (128 * opf w 63 52) 128 z) := (arrKept_self h).spRead ..
  exact if_pos ((suppressed_of_frame hx.frame).trans hs)

/-- A WRITE that is not suppressed compares its source with the column that it names. -/
theorem written_eq (h : Canon z) (hs : z.run.suppressed = false) : let c := placePhys z w.place
    let codes := spGet z c (128 * opf w 63 52) 128
    let p := physCol z c (arrOp w) (opf w 89 82)
    ∃ u, WriteNoted (placeDie w.place) c z u ∧ written w z =
      if codes = colBytes z c (arrOp w) p ∧ opf w 81 74 = expAt z c (arrOp w) p then bump (cellKey c Reg.ARR_WRITES_UNCHANGED) u
      else writeSent w c p codes u := by
  intro c codes p
  have hx : ArrKept c id z (spRead 1 c (128 * opf w 63 52) 128 z) := (arrKept_self h).spRead ..
  have hcell : cellAt (writeChecked w (spRead 1 c (128 * opf w 63 52) 128 z)) c = cellAt z c := (hx.writeChecked w).cell
  have hcodes : spGet (writeChecked w (spRead 1 c (128 * opf w 63 52) 128 z)) c (128 * opf w 63 52) 128 = codes := by
    rw [spGet, hcell, ← spGet]
  have hp : physCol (writeChecked w (spRead 1 c (128 * opf w 63 52) 128 z)) c (arrOp w) (opf w 89 82) = p := by
    rw [physCol, hcell, ← physCol]
  have hu := writeNoted h w c (128 * opf w 63 52) 128 (placeWhere w.place) (arrOp w) (opf w 89 82) (codes ++ [BitVec.ofNat 8 (opf w 81 74)])
  have hbytes := colBytes_congr (congrArg Cell.codes hu.kept.cell) (arrOp w) p
  have hexp := expAt_congr (congrArg Cell.exps hu.kept.cell) (arrOp w) p
  refine ⟨_, hu, ?_⟩
  have hsup : (spRead 1 c (128 * opf w 63 52) 128 z).run.suppressed = false := (suppressed_of_frame hx.frame).trans hs
  simp only [written]
  rw [show placePhys z w.place = c from rfl, hsup, hcodes, hp, hbytes, hexp]
  rfl

/-- The columns convert in `u` as they did before the WRITE claimed its array. -/
theorem WriteNoted.sameColumns {die span : Nat} {u : State} (hs : Canon s) (h : WriteNoted die c (claimed c a span s) u) : SameColumns c a s u := by
  have hz : cellAt (claimed c a span s) c = _ := cellAt_setArr hs _ _ _
  have hcell : cellAt u c = cellAt (claimed c a span s) c := h.kept.cell
  have harr : arrAt u c a = { arrAt s c a with busy := now s + span } := by
    rw [arrAt, hcell, ← arrAt]
    exact arrAt_claimed hs _ _ _
  have hframe : arrFrame u = arrFrame s := h.kept.frame
  refine ⟨?_, ?_, ?_, ?_, ?_, ?_, ?_, cellTemp_congr hframe fun e he => ?_, ?_⟩
  · rw [hcell, hz]
  · rw [hcell, hz]
  · rw [hcell, hz]
  · rw [harr]
  · rw [harr]
  · rw [harr]
    rfl
  · exact nameOf_congr (cellMap_of_frame hframe) c
  · exact (h.regs (noteKey_channel he) ((held_of_canon hs _).congr rfl)).val
  · exact freeCount_of_frame hframe

/-- A column that had to be programmed. -/
theorem writeSent_values {u : State} {codes : List Byte} (hu : Canon u) (hn : ∀ slot, slot < 2 → NoMirror (placeDie w.place) c slot u) :
    let t := writeSent w c p codes u
    (arrAt t c (arrOp w)) = arrAt u c (arrOp w) ∧ (cellAt t c).sp = (cellAt u c).sp ∧ t.dram = u.dram ∧
    t.flights = u.flights ++ [⟨now u + 128, .verdict (placeDie w.place) (placeWhere w.place) (arrOp w) false
      (if verifyColumn (programCol c (arrOp w) p codes (opf w 81 74) u) c (arrOp w) p (opf w 89 82) codes (opf w 81 74) then []
        else [(opf w 89 82, 1)]) (codes ++ [BitVec.ofNat 8 (opf w 81 74)])⟩] ∧
    expAt t c (arrOp w) p = siteTakes u.freeCount 256 (opf w 81 74) % 256 ∧
    (∀ i, i < 256 → (codeAt t c (arrOp w) p i).toNat = nibble (takenCodes u.freeCount codes) i) ∧
    ∀ v, Held Reg.SCH_VIOL v u → Held Reg.SCH_VIOL v t := by
  obtain ⟨hcell, hflights, hdram, hnow, hviol⟩ := writeProgrammed_values (cell := placeWhere w.place) (a := arrOp w) (col := opf w 89 82) (p := p)
    (codes := codes) (exp := opf w 81 74) hu (placeDie_lt w.place) hn
  rw [writeSent_eq]
  generalize writeProgrammed (placeDie w.place) (placeWhere w.place) c (arrOp w) (opf w 89 82) p codes (opf w 81 74) u = y at *
  obtain ⟨hexp, hcodes⟩ := taken_values hu hcell
  refine ⟨?_, (congrArg Cell.sp hcell).trans (blockPut_sp ..), hdram, ?_, hexp, hcodes, fun v hv => (hviol v hv).congr rfl⟩
  · exact congrArg (fun l => get (fun _ => Arr.init) l (arrOp w)) ((congrArg Cell.arrs hcell).trans (blockPut_arrs ..))
  · rw [← hnow, ← hflights]
    rfl

end

end Sys2Proof.Machine
end

section
/-! PROOFS. What a WRITE leaves: suppressed, with its column as it is, or programmed. -/
namespace Sys2Proof.Machine

section
variable {w : Slot} {s : State}

/-- An array's cell as a WRITE leaves it until it programs: it was claimed, and that is all. -/
theorem claimed_kept {c a span : Nat} {u : State} (h : Canon s) (hu : ArrKept c id (claimed c a span s) u) :
    (arrAt u c a).busy = now s + span ∧ (cellAt u c).codes = (cellAt s c).codes ∧ (cellAt u c).exps = (cellAt s c).exps ∧
    (cellAt u c).sp = (cellAt s c).sp ∧ u.flights = s.flights ∧ u.dram = s.dram := by
  have hcell : cellAt u c = cellAt (claimed c a span s) c := hu.cell
  obtain ⟨hbusy, hcodes, hexps, -⟩ := evalCell_claimed (t := u) h (congrArg (evalCell a) hcell)
  exact ⟨hbusy, hcodes, hexps, (congrArg Cell.sp hcell).trans (sp_claimed h), flights_of_frame hu.frame, dram_of_frame hu.frame⟩

/-- A suppressed WRITE reads its source, and that is all (R222). -/
theorem suppressed_values (h : Canon s) (hs : s.run.suppressed = true) : let c := placePhys s w.place
    let z := claimed c (arrOp w) 128 s
    ArrKept c id z (written w z) ∧ ((cellAt s c).spBad = [] → (written w z).regs = s.regs) := by
  intro c z
  have ht : written w z = spRead 1 c (128 * opf w 63 52) 128 z := written_suppressed (canon_claimed h) hs
  rw [ht]
  refine ⟨(arrKept_self (canon_claimed h)).spRead .., fun hbad => ?_⟩
  rw [spRead_clean]
  · rfl
  · simp only [z, claimed, cellAt_setArr h, hbad]

/-- The column that a WRITE names answers the source. -/
def WriteSame (w : Slot) (s : State) : Prop :=
  let c := placePhys s w.place
  let p := physCol s c (arrOp w) (opf w 89 82)
  spGet s c (128 * opf w 63 52) 128 = colBytes s c (arrOp w) p ∧ opf w 81 74 = expAt s c (arrOp w) p

/-- A claimed array's WRITE, by whether its column answers the source. -/
theorem written_cases (h : Canon s) (hs : s.run.suppressed = false) : let c := placePhys s w.place
    let z := claimed c (arrOp w) 128 s
    ∃ u, WriteNoted (placeDie w.place) c z u ∧ (WriteSame w s → written w z = bump (cellKey c Reg.ARR_WRITES_UNCHANGED) u) ∧
      (¬ WriteSame w s → written w z =
        writeSent w c (physCol s c (arrOp w) (opf w 89 82)) (spGet s c (128 * opf w 63 52) 128) u) := by
  intro c z
  have hz : cellAt z c = _ := cellAt_setArr h _ _ _
  have hcodes : (cellAt z c).codes = (cellAt s c).codes := by rw [hz]
  have hexps : (cellAt z c).exps = (cellAt s c).exps := by rw [hz]
  have hsp : spGet z c (128 * opf w 63 52) 128 = spGet s c (128 * opf w 63 52) 128 := by rw [spGet, hz, ← spGet]
  have hp : physCol z c (arrOp w) (opf w 89 82) = physCol s c (arrOp w) (opf w 89 82) := by rw [physCol, hz, ← physCol]
  obtain ⟨u, hu, ht⟩ := written_eq (w := w) (canon_claimed (c := c) (a := arrOp w) (span := 128) h) hs
  rw [show placePhys z w.place = c from rfl, hsp, hp, colBytes_congr hcodes, expAt_congr hexps] at ht
  exact ⟨u, hu, fun hsame => ht.trans (if_pos hsame), fun hsame => ht.trans (if_neg hsame)⟩

/-- Such a column is left, and the WRITE counted. -/
theorem unchanged_values (h : Canon s) (hs : s.run.suppressed = false) (hsame : WriteSame w s) : let c := placePhys s w.place
    let z := claimed c (arrOp w) 128 s
    ArrKept c id z (written w z) ∧
    rd (written w z) (cellKey c Reg.ARR_WRITES_UNCHANGED) = min (rd s (cellKey c Reg.ARR_WRITES_UNCHANGED) + 1) (2 ^ 32 - 1) ∧
    (s.run.commitDone = false → fld (written w z) Reg.SCH_VIOL 3 3 = 1) := by
  intro c z
  obtain ⟨u, hu, ht, -⟩ := written_cases (w := w) h hs
  rw [ht hsame]
  refine ⟨keptByCounts_arrKept.bumpFld _ _ _ _ hu.kept, ?_, fun hdone => ?_⟩
  · rw [rd_bump hu.kept.canon.regs, (hu.regs (noteKey_unchanged c) ((held_of_canon h _).congr rfl)).val]
  · obtain ⟨x, hx⟩ := hu.viol hdone
    have hv : Held Reg.SCH_VIOL (x ||| 2 ^ 3) (bump (cellKey c Reg.ARR_WRITES_UNCHANGED) u) :=
      hx.wr ((show Reg.SCH_VIOL < 2 ^ 36 by decide).trans_le (cellKey_gt c _)).ne' _
    exact hv.bit rfl

/-- Another column is programmed with the source. -/
theorem programmed_values (h : Canon s) (hs : s.run.suppressed = false) (hsame : ¬ WriteSame w s)
    (hm : ∀ slot, slot < 2 → NoMirror (placeDie w.place) (placePhys s w.place) slot s) : let c := placePhys s w.place
    let p := physCol s c (arrOp w) (opf w 89 82)
    let codes := spGet s c (128 * opf w 63 52) 128
    let t := written w (claimed c (arrOp w) 128 s)
    (arrAt t c (arrOp w)).busy = now s + 128 ∧ (cellAt t c).sp = (cellAt s c).sp ∧ t.dram = s.dram ∧
    t.flights = s.flights ++ [⟨now s + 128, .verdict (placeDie w.place) (placeWhere w.place) (arrOp w) false
      (if verifyColumn (programCol c (arrOp w) p codes (opf w 81 74) s) c (arrOp w) p (opf w 89 82) codes (opf w 81 74) then []
        else [(opf w 89 82, 1)]) (codes ++ [BitVec.ofNat 8 (opf w 81 74)])⟩] ∧
    expAt t c (arrOp w) p = siteTakes s.freeCount 256 (opf w 81 74) % 256 ∧
    (∀ i, i < 256 → (codeAt t c (arrOp w) p i).toNat = nibble (takenCodes s.freeCount codes) i) ∧
    (s.run.commitDone = false → fld t Reg.SCH_VIOL 3 3 = 1) := by
  intro c p codes t
  obtain ⟨u, hu, -, ht⟩ := written_cases (w := w) h hs
  have htu : t = writeSent w c p codes u := ht hsame
  have hcols : SameColumns c (arrOp w) s u := hu.sameColumns h
  obtain ⟨hbusy, -, -, hsp, hflights, hdram⟩ := claimed_kept h hu.kept
  have hnow : now u = now s := now_of_frame hu.kept.frame
  obtain ⟨harr', hsp', hdram', hflights', hexp, hcodes, hviol⟩ := writeSent_values (w := w) (p := p) (codes := codes) hu.kept.canon
    fun slot hslot => hu.mirror slot hslot ((hm slot hslot).congr rfl)
  rw [hcols.free] at hexp hcodes
  rw [((hcols.programCol h hu.kept.canon p codes (opf w 81 74)).verifyColumn p (opf w 89 82) codes (opf w 81 74)), hnow, hflights] at hflights'
  rw [htu]
  refine ⟨?_, hsp'.trans hsp, hdram'.trans hdram, hflights', hexp, hcodes, fun hdone => ?_⟩
  · rw [harr']
    exact hbusy
  · obtain ⟨x, hx⟩ := hu.viol hdone
    exact (hviol _ hx).bit rfl

end

end Sys2Proof.Machine
end

section
/-! PROOFS. ASSAY (R82, R104 to R106, R108 to R111, R383; logs 28, 91). -/
namespace Sys2Proof.Machine

/-! ### The overdue report, and what triggers (R104 to R106) -/

/-- What the overdue report keeps of a cell: its codes, scratchpad, columns and trims, and of array `a` what triggers and recalibrations use. -/
def assayCell (a : Nat) (x : Cell) :=
  let y := get (fun _ => Arr.init) x.arrs a
  (x.codes, x.sp, x.colmap, x.trims, y.busy, y.gen, y.tcal, y.calibrated, y.pending, y.forceSeen, y.staged)

section
variable {die cell a q v : Nat} {s t z : State}

theorem overdueCheck_kept (h : Canon z) (die cell a : Nat) : ArrKept (phys z die cell) (assayCell a) z (overdueCheck die cell a z) := by
  unfold overdueCheck
  extract_lets c x y
  split
  · exact arrKept_self h
  · have hy : ArrKept c (assayCell a) z y := keptByCounts_arrKept.setBit _ _ (keptByCounts_arrKept.count (arrKept_self h))
    have hx : arrAt y c a = x := rfl
    split
    · exact arrKept_self h
    · split
      · exact hy
      · refine keptByCounts_arrKept.record _ _ _ ⟨canon_setArr hy.canon, Eq.trans ?_ hy.cell, hy.frame⟩
        rw [cellAt_setArr hy.canon]
        simp only [assayCell, get_put (cellCanon_at hy.canon c).arrs]
        rw [← hx]
        rfl

/-- The overdue report writes CAL_LAST and CAL_STICKY, and a record. -/
theorem held_overdueCheck (hq : reportKey q = false) (hlast : Reg.CAL_LAST ≠ q) (hsticky : Reg.CAL_STICKY ≠ q) (h : Held q v z) :
    Held q v (overdueCheck die cell a z) := by
  unfold overdueCheck
  extract_lets c x y
  split
  · exact h
  · have hy : Held q v y := ((h.wr hlast _).wr hsticky _).congr rfl
    split
    · exact h
    · split
      · exact hy
      · exact (keptByReports_held hq).record _ _ _ (hy.congr rfl)

theorem overdueCheck_spr (die cell a : Nat) (z : State) : (overdueCheck die cell a z).spr = z.spr := by
  unfold overdueCheck
  extract_lets c x y
  split
  · rfl
  · split
    · rfl
    · split
      · rfl
      · exact (keptByReports_view (g := State.spr)).record _ _ _ rfl

/-- Whether a trigger pends depends on the array's calibration, its temperature, and the run's count of forces and CAL_DELTA. -/
theorem triggered_congr {x y : Arr} (hx : (y.tcal, y.calibrated, y.pending, y.forceSeen) = (x.tcal, x.calibrated, x.pending, x.forceSeen))
    (htemp : cellTemp t die cell = cellTemp s die cell) (hf : t.run.force = s.run.force) (hd : t.run.delta = s.run.delta) :
    triggered t die cell y = triggered s die cell x := by
  simp only [Prod.mk.injEq] at hx
  obtain ⟨htcal, hcal, hpend, hseen⟩ := hx
  have hmove : tempMove t die cell y = tempMove s die cell x := by rw [tempMove, tempMove, htemp, htcal]
  unfold triggered
  rw [hcal, hpend, hseen, hf, hd, hmove]

theorem fillOf_congr (hr : ∀ slot, slot < 2 → rd t (fillKey die slot) = rd s (fillKey die slot)) (hs : t.spr = s.spr) :
    fillOf t die cell a = fillOf s die cell a := by
  have hfill : ∀ slot, fillAt t die slot = fillAt s die slot := fun slot => by rw [fillAt, fillAt, hs]
  simp only [fillOf, List.find?, hfill, hr 0 (by decide), hr 1 (by decide)]

end

/-! ### Recalibration (R108 to R111) -/

/-- A new trim set waits for the end of the span. -/
def trimsStaged (c a base : Nat) (sumA T : Int) (s : State) : State :=
  setArr c a { arrAt s c a with
    staged := some (stagedTrims s c a base sumA), stagedT := BitVec.ofInt 12 T, pending := false, forceSeen := s.run.force }
    (launch (now s + 1024) (.trims c a) s)

/-- The phases of a recalibration are counted. -/
def recalCounted (c : Nat) (s : State) : State := phasesRun c 64 0 (useFree 16640 s)

section
variable {die cell a c : Nat} {s : State}

theorem recalibrate_bad (h : calRef s.freeCount < 3200 ∨ 3968 < calRef s.freeCount) :
    recalibrate die cell a s = assayFail die cell a (recalCounted (phys s die cell) s) := if_pos h

theorem recalibrate_good (h : ¬ (calRef s.freeCount < 3200 ∨ 3968 < calRef s.freeCount)) : ∃ (rejects : List (Nat × Nat)) (T : Int),
    recalibrate die cell a s = each rejects (fun p s => rejectColumn die cell a p.1 p.2 s)
      (trimsStaged (phys s die cell) a s.freeCount (calRef s.freeCount) T (recalCounted (phys s die cell) s)) := ⟨_, _, if_neg h⟩

theorem recalCounted_stores (c : Nat) (s : State) : (recalCounted c s).cells = s.cells ∧ (recalCounted c s).flights = s.flights ∧
    (recalCounted c s).dram = s.dram ∧ (recalCounted c s).run = s.run ∧ now (recalCounted c s) = now s := ⟨rfl, rfl, rfl, rfl, rfl⟩

theorem canon_recalCounted (h : Canon s) : Canon (recalCounted c s) := canon_phasesRun (canon_useFree h)

theorem ArrKept.rejectColumn {b kind col : Nat} {z t : State} (h : ArrKept b (fun x => (x.arrs, x.sp)) z t) (hd : die < 4) :
    ArrKept b (fun x => (x.arrs, x.sp)) z (rejectColumn die cell a col kind t) := by
  unfold Machine.rejectColumn
  refine keptByFills_arrKept.brazeColumn hd _ _ _ _ (fun hu => hu.onCell _ (fun _ hx => hx.same) fun _ _ _ => rfl)
    (keptByCounts_arrKept.recordOf _ _ _ _ (keptByCounts_arrKept.setBit _ _ (keptByCounts_arrKept.count h)))

theorem stagedTrims_congr {t : State} (h : ((cellAt t c).colmap, (cellAt t c).trims) = ((cellAt s c).colmap, (cellAt s c).trims)) (a base : Nat)
    (sumA : Int) : stagedTrims t c a base sumA = stagedTrims s c a base sumA := by
  simp only [Prod.mk.injEq] at h
  obtain ⟨hcol, htrims⟩ := h
  have hl : listCol t c a = listCol s c a := funext fun q => by rw [listCol, listCol, physCol, physCol, hcol]
  have ht : trimAt t c a = trimAt s c a := funext fun p => by rw [trimAt, trimAt, htrims]
  unfold stagedTrims
  rw [hl, ht]

/-- A reference sum that passes puts a new trim set on the way to the span's end. -/
theorem recalibrate_stages (h : Canon s) (hd : die < 4) (hg : ¬ (calRef s.freeCount < 3200 ∨ 3968 < calRef s.freeCount)) :
    let c := phys s die cell
    let t := recalibrate die cell a s
    (arrAt t c a).busy = (arrAt s c a).busy ∧ (arrAt t c a).gen = (arrAt s c a).gen ∧
    (arrAt t c a).staged = some (stagedTrims s c a s.freeCount (calRef s.freeCount)) ∧ (arrAt t c a).pending = false ∧
    (cellAt t c).sp = (cellAt s c).sp ∧ t.flights = s.flights ++ [⟨now s + 1024, .trims c a⟩] ∧ t.dram = s.dram ∧
    t.run.delta = s.run.delta := by
  intro c t
  obtain ⟨rejects, T, ht⟩ := recalibrate_good (die := die) (cell := cell) (a := a) hg
  obtain ⟨hcells, hflights, hdram, hrun, hnow⟩ := recalCounted_stores c s
  have hv : Canon (recalCounted c s) := canon_recalCounted h
  generalize hvs : recalCounted c s = v at *
  have hcell : cellAt v c = cellAt s c := cellAt_congr hcells c
  have harr : arrAt v c a = arrAt s c a := by rw [arrAt, hcell, ← arrAt]
  have hl : Canon (launch (now v + 1024) (.trims c a) v) := canon_launch hv
  have hstaged : Canon (trimsStaged c a s.freeCount (calRef s.freeCount) T v) := canon_setArr hl
  have hk : ArrKept c (fun x => (x.arrs, x.sp)) (trimsStaged c a s.freeCount (calRef s.freeCount) T v) t := by
    rw [show t = _ from ht]
    exact each_inv _ (fun _ _ _ hu => hu.rejectColumn hd) (arrKept_self hstaged)
  obtain ⟨harrs, hsp⟩ := Prod.mk.inj hk.cell
  have hta : arrAt t c a = { arrAt s c a with
      staged := some (stagedTrims v c a s.freeCount (calRef s.freeCount)), stagedT := BitVec.ofInt 12 T, pending := false,
      forceSeen := v.run.force } := by
    rw [arrAt, harrs, ← arrAt, trimsStaged, arrAt_setArr hl, harr]
  have htrims : stagedTrims v c a s.freeCount (calRef s.freeCount) = stagedTrims s c a s.freeCount (calRef s.freeCount) :=
    stagedTrims_congr (s := s) (by rw [hcell]) _ _ _
  rw [hta, htrims]
  refine ⟨rfl, rfl, rfl, rfl, hsp.trans ?_, (flights_of_frame hk.frame).trans ?_, (dram_of_frame hk.frame).trans hdram,
    (delta_of_frame hk.frame).trans (congrArg Run.delta hrun)⟩
  · rw [trimsStaged, cellAt_setArr hl, ← hcell]
    rfl
  · rw [← hflights, ← hnow]
    rfl

/-- Any other reports a failed check, and stages nothing. -/
theorem recalibrate_fails (h : Canon s) (hb : calRef s.freeCount < 3200 ∨ 3968 < calRef s.freeCount) : let c := phys s die cell
    let t := recalibrate die cell a s
    ArrKept c id (recalCounted c s) t ∧ fld t Reg.CAL_STICKY 0 0 = 1 := by
  intro c t
  have ht : t = assayFail die cell a (recalCounted c s) := recalibrate_bad hb
  rw [ht]
  refine ⟨keptByCounts_arrKept.assayFail _ _ _ (arrKept_self (canon_recalCounted h)), ?_⟩
  have hs : Held Reg.CAL_STICKY _ _ :=
    held_sticky (q := Reg.CAL_STICKY) (by decide) (bit := 0) (by decide) (bump Reg.CAL_CHECK_FAILS (calLast die cell a 0x1FF 1 (recalCounted c s)))
  exact ((keptByTaints_held (by decide) (by decide)).taint 7 1 die cell a [(1, die), (2, cell), (4, 1), (5, a)] hs).bit rfl

end

/-! ### A fill programmed instead (R383) -/

section
variable {die slot c a col due : Nat} {s : State}

theorem sourceRead_keeps (die slot c a col : Nat) (s : State) :
    (sourceRead die slot c a col s).cells = s.cells ∧ (sourceRead die slot c a col s).run = s.run := by
  unfold sourceRead
  dsimp only
  split
  · exact ⟨rfl, rfl⟩
  · split
    · exact ⟨keptByWrites_cells.readSpan _ _ rfl, keptByWrites_run.readSpan _ _ rfl⟩
    · exact ⟨rfl, rfl⟩

theorem fillRead_keeps (die slot : Nat) (s : State) : (fillRead die slot s).cells = s.cells ∧ (fillRead die slot s).run = s.run := by
  unfold fillRead
  dsimp only
  split
  · exact ⟨rfl, rfl⟩
  · exact sourceRead_keeps ..

theorem programBlock_keeps (h : Canon s) (d a p col : Nat) (b : List Byte) (c : Nat) :
    (cellAt (programBlock d a p col b s).2 c).arrs = (cellAt s c).arrs ∧ (cellAt (programBlock d a p col b s).2 c).sp = (cellAt s c).sp ∧
    (programBlock d a p col b s).2.run.delta = s.run.delta := by
  unfold programBlock programVerified
  generalize ((b[128]?).getD 0).toNat = exp
  generalize b.take 128 = codes
  have hcells : (phasesRun d 4 0 (useFree 1040 (programCol d a p codes exp s))).cells = (programCol d a p codes exp s).cells := rfl
  obtain ⟨-, -, -, hdelta⟩ := programCol_stores d a p codes exp s
  have hcell : (cellAt (programCol d a p codes exp s) c).arrs = (cellAt s c).arrs ∧ (cellAt (programCol d a p codes exp s) c).sp = (cellAt s c).sp := by
    by_cases hc : c = d
    · subst hc
      rw [cellAt_programCol h]
      exact ⟨blockPut_arrs .., blockPut_sp ..⟩
    · rw [cellAt_programCol_ne h hc]
      exact ⟨rfl, rfl⟩
  rw [cellAt_congr hcells]
  exact ⟨hcell.1, hcell.2, hdelta⟩

theorem fillProgram_keeps (h : Canon s) (die slot due c : Nat) : (cellAt (fillProgram die slot due s) c).arrs = (cellAt s c).arrs ∧
    (cellAt (fillProgram die slot due s) c).sp = (cellAt s c).sp ∧ (fillProgram die slot due s).run.delta = s.run.delta := by
  unfold fillProgram
  extract_lets r d a p
  split
  · exact ⟨rfl, rfl, rfl⟩
  · next b _ =>
    obtain ⟨hcells, hrun⟩ := fillRead_keeps die slot s
    have hc : Canon (fillRead die slot s) := canon_fillRead h
    obtain ⟨harrs, hsp, hdelta⟩ := programBlock_keeps hc d a p (bits r 25 18) b c
    rw [cellAt_congr hcells] at harrs hsp
    rw [hrun] at hdelta
    generalize programBlock d a p (bits r 25 18) b (fillRead die slot s) = v at *
    exact ⟨harrs, hsp, hdelta⟩

end

end Sys2Proof.Machine
end

section
/-! PROOFS. The ASSAY word, and the arrays' words together (R80, R82, R104 to R106, R383). -/
namespace Sys2Proof.Machine

/-! ### ASSAY -/

/-- A CAL_DELTA written before it is in force (R105). -/
def assayDelta (s : State) : State := { s with run := { s.run with delta := fld s Reg.CAL_DELTA 8 0 } }

/-- An ASSAY that has its array. -/
def assayed (w : Slot) (s : State) : State :=
  let die := placeDie w.place
  let cell := placeWhere w.place
  let c := placePhys s w.place
  let a := arrOp w
  let y := overdueCheck die cell a (assayDelta s)
  if triggered y die cell (arrAt y c a) then
    recalibrate die cell a (if (cellTemp y die cell).isNone then sticky Reg.CAL_STICKY 6 y else y)
  else
    match fillOf y die cell a with
    | some slot => fillProgram die slot (now y + 128) y
    | none => y

theorem assayAct_eq (w : Slot) (s : State) : assayAct w s = claimArray (placePhys s w.place) (arrOp w) 1024 w (assayed w) s := rfl

/-- From `s` to `y` the array was claimed, and the overdue report made. -/
structure AssayChecked (c a : Nat) (s y : State) : Prop where
  canon : Canon y
  busy : (arrAt y c a).busy = now s + 1024
  gen : (arrAt y c a).gen = (arrAt s c a).gen
  staged : (arrAt y c a).staged = (arrAt s c a).staged
  codes : (cellAt y c).codes = (cellAt s c).codes
  sp : (cellAt y c).sp = (cellAt s c).sp
  columns : ((cellAt y c).colmap, (cellAt y c).trims) = ((cellAt s c).colmap, (cellAt s c).trims)
  frame : arrFrame y = arrFrame (assayDelta s)

section
variable {die cell c a : Nat} {w : Slot} {s y : State}

theorem AssayChecked.setBit (h : AssayChecked c a s y) (k bit : Nat) : AssayChecked c a s (sticky k bit y) :=
  ⟨canon_sticky h.canon, h.busy, h.gen, h.staged, h.codes, h.sp, h.columns, h.frame⟩

/-- The overdue report leaves whether a trigger pends and which fill waits. -/
theorem assayChecked (h : Canon s) (hd : die < 4) (hc : c = phys s die cell) :
    let y := overdueCheck die cell a (assayDelta (claimed c a 1024 s))
    AssayChecked c a s y ∧ triggered y die cell (arrAt y c a) = triggered (assayDelta s) die cell (arrAt s c a) ∧
    fillOf y die cell a = fillOf s die cell a := by
  intro y
  have hz : Canon (assayDelta (claimed c a 1024 s)) := canon_mk (canon_claimed h)
  have hk := overdueCheck_kept hz die cell a
  rw [show phys (assayDelta (claimed c a 1024 s)) die cell = c from hc.symm] at hk
  obtain ⟨hcanon, hcell, hframe⟩ := hk
  have hcz : cellAt (assayDelta (claimed c a 1024 s)) c = cellAt (claimed c a 1024 s) c := rfl
  rw [hcz, claimed, cellAt_setArr h, ← claimed] at hcell
  simp only [assayCell, Prod.mk.injEq, get_put (cellCanon_at h c).arrs] at hcell
  obtain ⟨hcodes, hsp, hcol, htrims, hbusy, hgen, htcal, hcal, hpend, hseen, hstaged⟩ := hcell
  have hkeys : ∀ q, reportKey q = false → 2 ^ 40 ≤ q → rd y q = rd s q := by
    intro q hq hlt
    have hlast : Reg.CAL_LAST < 2 ^ 40 := by decide
    have hsticky : Reg.CAL_STICKY < 2 ^ 40 := by decide
    have hs : Held q (rd s q) (assayDelta (claimed c a 1024 s)) := (held_of_canon h q).congr rfl
    exact (held_overdueCheck (die := die) (cell := cell) (a := a) hq (hlast.trans_le hlt).ne (hsticky.trans_le hlt).ne hs).val
  have hwin : ∀ e, e < 288 → rd y (bankKey Reg.TSM_CH_WIN e) = rd s (bankKey Reg.TSM_CH_WIN e) := fun e he =>
    hkeys _ (reportKey_bankKey (by decide) (by omega)) (by unfold bankKey; omega)
  have hfills : ∀ slot, slot < 2 → rd y (fillKey die slot) = rd s (fillKey die slot) := fun slot hs =>
    hkeys _ (reportKey_fillKey hd hs) (by unfold fillKey bankKey; omega)
  refine ⟨⟨hcanon, hbusy, hgen, hstaged, hcodes, hsp, by rw [hcol, htrims], hframe⟩, ?_, fillOf_congr hfills (overdueCheck_spr ..)⟩
  exact triggered_congr (s := assayDelta s) (by simp only [Prod.mk.injEq]; exact ⟨htcal, hcal, hpend, hseen⟩)
    (cellTemp_congr (s := assayDelta s) hframe hwin die cell) (force_of_frame hframe) (delta_of_frame hframe)

/-- An ASSAY recalibrates where a trigger pends; else it programs the fill that waits, or does no more. -/
theorem assayed_cases (h : Canon s) : let die := placeDie w.place
    let cell := placeWhere w.place
    let c := placePhys s w.place
    let t := assayed w (claimed c (arrOp w) 1024 s)
    let pends := triggered (assayDelta s) die cell (arrAt s c (arrOp w))
    ∃ y, AssayChecked c (arrOp w) s y ∧ (pends = true → t = recalibrate die cell (arrOp w) y) ∧
      (pends = false → fillOf s die cell (arrOp w) = none → t = y) ∧
      (pends = false → ∀ slot, fillOf s die cell (arrOp w) = some slot → t = fillProgram die slot (now y + 128) y) := by
  intro die cell c t pends
  obtain ⟨hy, htrigger, hfill⟩ := assayChecked (a := arrOp w) h (placeDie_lt w.place) (show c = phys s die cell from rfl)
  generalize hyd : overdueCheck die cell (arrOp w) (assayDelta (claimed c (arrOp w) 1024 s)) = y at *
  have ht : t = if pends = true then recalibrate die cell (arrOp w) (if (cellTemp y die cell).isNone then sticky Reg.CAL_STICKY 6 y else y)
      else (fillOf s die cell (arrOp w)).elim y fun slot => fillProgram die slot (now y + 128) y := by
    unfold t pends assayed
    dsimp only
    rw [show placePhys (claimed c (arrOp w) 1024 s) w.place = c from rfl, hyd, htrigger, hfill]
    cases fillOf s die cell (arrOp w) <;> rfl
  cases hp : pends with
  | true =>
    rw [hp, if_pos rfl] at ht
    refine ⟨_, ?_, fun _ => ht, fun hf => absurd hf (by decide), fun hf => absurd hf (by decide)⟩
    split
    · exact hy.setBit _ _
    · exact hy
  | false =>
    rw [hp, if_neg (by decide)] at ht
    refine ⟨y, hy, fun hf => absurd hf (by decide), fun _ hf => ?_, fun _ slot hf => ?_⟩
    · rw [ht, hf]
      rfl
    · rw [ht, hf]
      rfl

/-- What every ASSAY that was claimed leaves of its cell. -/
theorem AssayChecked.stores (h : AssayChecked c a s y) : y.freeCount = s.freeCount ∧ y.flights = s.flights ∧ y.dram = s.dram ∧ now y = now s ∧
    y.run.delta = fld s Reg.CAL_DELTA 8 0 :=
  ⟨freeCount_of_frame (s := assayDelta s) h.frame, flights_of_frame (s := assayDelta s) h.frame, dram_of_frame (s := assayDelta s) h.frame,
    now_of_frame (s := assayDelta s) h.frame, delta_of_frame (s := assayDelta s) h.frame⟩

/-- An ASSAY with a trigger that pends, by its reference sum. -/
theorem assay_recalibrates (h : AssayChecked c a s y) (hd : die < 4) (hc : c = phys s die cell) : let t := recalibrate die cell a y
    (arrAt t c a).busy = now s + 1024 ∧ (arrAt t c a).gen = (arrAt s c a).gen ∧ t.run.delta = fld s Reg.CAL_DELTA 8 0 ∧
    (3200 ≤ calRef s.freeCount ∧ calRef s.freeCount ≤ 3968 →
      (arrAt t c a).staged = some (stagedTrims s c a s.freeCount (calRef s.freeCount)) ∧ (arrAt t c a).pending = false ∧
      t.flights = s.flights ++ [⟨now s + 1024, .trims c a⟩]) ∧
    (calRef s.freeCount < 3200 ∨ 3968 < calRef s.freeCount →
      (arrAt t c a).staged = (arrAt s c a).staged ∧ fld t Reg.CAL_STICKY 0 0 = 1 ∧ t.flights = s.flights) ∧
    (cellAt t c).sp = (cellAt s c).sp ∧ t.dram = s.dram := by
  obtain ⟨hfree, hflights, hdram, hnow, hdelta⟩ := h.stores
  have hphys : phys y die cell = c := (phys_of_frame h.frame die cell).trans hc.symm
  intro t
  by_cases hb : calRef s.freeCount < 3200 ∨ 3968 < calRef s.freeCount
  · have hbad := recalibrate_fails (die := die) (cell := cell) (a := a) h.canon (by rw [hfree]; exact hb)
    rw [hphys] at hbad
    obtain ⟨hk, hbit⟩ := hbad
    obtain ⟨hcells, hcflights, hcdram, hcrun, -⟩ := recalCounted_stores c y
    have hcell : cellAt t c = cellAt y c := hk.cell.trans (cellAt_congr hcells c)
    have harr : arrAt t c a = arrAt y c a := by rw [arrAt, hcell, ← arrAt]
    refine ⟨?_, ?_, (delta_of_frame hk.frame).trans ((congrArg Run.delta hcrun).trans hdelta), fun hg => ?_, fun _ => ⟨?_, hbit, ?_⟩, ?_, ?_⟩
    · rw [harr, h.busy]
    · rw [harr, h.gen]
    · omega
    · rw [harr, h.staged]
    · exact (flights_of_frame hk.frame).trans (hcflights.trans hflights)
    · rw [hcell, h.sp]
    · exact (dram_of_frame hk.frame).trans (hcdram.trans hdram)
  · have hgood := recalibrate_stages (die := die) (cell := cell) (a := a) h.canon hd (by rw [hfree]; exact hb)
    rw [hphys, hfree] at hgood
    obtain ⟨hbusy, hgen, hstaged, hpending, hsp, htflights, htdram, htdelta⟩ := hgood
    rw [stagedTrims_congr h.columns] at hstaged
    rw [hnow, hflights] at htflights
    exact ⟨hbusy.trans h.busy, hgen.trans h.gen, htdelta.trans hdelta, fun _ => ⟨hstaged, hpending, htflights⟩, fun hb' => absurd hb' hb,
      hsp.trans h.sp, htdram.trans hdram⟩

end

end Sys2Proof.Machine
end

section
/-! PROOFS. WRITE, SWEEP, ASSAY and the budget of 16 together. -/
namespace Sys2Proof.Machine

/-- Settles O11: each word acts on the state with its array claimed; there a WRITE is suppressed, counted or programs its column, a SWEEP counts
and launches its verdict, and an ASSAY recalibrates, programs a fill that waits or only reports. -/
theorem arraysOccupied : Obligations.ArraysOccupied := by
  unfold Obligations.ArraysOccupied
  refine ⟨?write, ?sweep, ?assay, ?budget⟩
  case write =>
    intro w s hs ha s' c die a col p codes same hbusy hocc hmirror
    have hz : Canon s' := canon_atIssue (canon_iff.1 hs)
    have hx : exec (.write w) s = .next (withQueue s.pending (written w (claimed c a 128 s'))) :=
      exec_claims (act := writeAct w) rfl (writeAct_eq w) ha hbusy hocc
    refine ⟨_, hx, ?_⟩
    by_cases hsup : s'.run.suppressed = true
    · obtain ⟨hk, hregs⟩ := suppressed_values (w := w) hz hsup
      obtain ⟨htbusy, hcodes, hexps, hsp, hflights, hdram⟩ := claimed_kept hz hk
      have hno : ¬ s'.run.suppressed = false := fun hf => Bool.noConfusion (hsup.symm.trans hf)
      generalize written w (claimed c a 128 s') = t at *
      exact ⟨htbusy, fun hf => absurd hf hno, fun hf => absurd hf hno, fun _ => ⟨hcodes, hexps, hflights, hregs⟩, fun hf => absurd hf hno, hsp, hdram⟩
    · have hrun : s'.run.suppressed = false := Bool.eq_false_iff.2 hsup
      by_cases hsame : same
      · obtain ⟨hk, hcount, hviol⟩ := unchanged_values (w := w) hz hrun hsame
        obtain ⟨htbusy, hcodes, hexps, hsp, hflights, hdram⟩ := claimed_kept hz hk
        generalize written w (claimed c a 128 s') = t at *
        exact ⟨htbusy, fun _ hf => absurd hsame hf, fun _ _ => ⟨hflights, hcodes, hexps, hcount⟩, fun hf => absurd hf hsup, fun _ => hviol, hsp,
          hdram⟩
      · obtain ⟨htbusy, hsp, hdram, hflights, hexp, hcodes, hviol⟩ := programmed_values (w := w) hz hrun hsame hmirror
        generalize written w (claimed c a 128 s') = t at *
        exact ⟨htbusy, fun _ _ => ⟨hflights, hexp, hcodes⟩, fun _ hf => absurd hf hsame, fun hf => absurd hf hsup, fun _ => hviol, hsp, hdram⟩
  case sweep =>
    intro w s hs ha s' c a x hbusy hocc
    have hz : Canon s' := canon_atIssue (canon_iff.1 hs)
    have hx : exec (.sweep w) s = .next (withQueue s.pending (swept w (claimed c a 256 s'))) :=
      exec_claims (act := sweepAct w) rfl (sweepAct_eq w) ha hbusy hocc
    clear_value s'
    obtain ⟨harr, harrs, hrun, hregs, hcodes, hsp, hother⟩ := sweepCounted_values (c := c) (a := a) (span := 256) hz
    exact ⟨_, hx, harr, harrs, rfl, hrun, hregs, hcodes, hsp, hother, rfl⟩
  case assay =>
    intro w s hs ha s' c die cell a x pends hbusy hocc
    have hz : Canon s' := canon_atIssue (canon_iff.1 hs)
    have hx : exec (.assay w) s = .next (withQueue s.pending (assayed w (claimed c a 1024 s'))) :=
      exec_claims (act := assayAct w) rfl (assayAct_eq w) ha hbusy hocc
    obtain ⟨y, hy, hrecal, hidle, hfills⟩ := assayed_cases (w := w) hz
    obtain ⟨-, hyflights, hydram, -, hydelta⟩ := hy.stores
    refine ⟨_, hx, ?_⟩
    cases hp : pends with
    | true =>
      obtain ⟨htbusy, hgen, hdelta, hgood, hbad, hsp, hdram⟩ := assay_recalibrates hy (placeDie_lt w.place) rfl
      rw [← hrecal hp] at htbusy hgen hdelta hgood hbad hsp hdram
      generalize assayed w (claimed c a 1024 s') = t at *
      exact ⟨htbusy, hgen, hdelta, fun _ => ⟨hgood, hbad⟩, fun hf => absurd hf (by decide), hsp, fun _ => hdram⟩
    | false =>
      cases hf : fillOf s' die cell a with
      | none =>
        rw [hidle hp hf]
        exact ⟨hy.busy, hy.gen, hydelta, fun ht => absurd ht (by decide), fun _ _ => ⟨hy.codes, hy.staged, hyflights⟩, hy.sp, fun _ => hydram⟩
      | some slot =>
        obtain ⟨harrs, hsp, hdelta⟩ := fillProgram_keeps hy.canon die slot (now y + 128) c
        rw [hfills hp slot hf]
        generalize fillProgram die slot (now y + 128) y = t at *
        have harr : arrAt t c a = arrAt y c a := by rw [arrAt, harrs, ← arrAt]
        refine ⟨?_, ?_, hdelta.trans hydelta, fun ht => absurd ht (by decide), fun _ hn => absurd hn (by simp), hsp.trans hy.sp, ?_⟩
        · exact (congrArg Arr.busy harr).trans hy.busy
        · exact (congrArg Arr.gen harr).trans hy.gen
        · rintro (ht | hn)
          · exact absurd ht (by decide)
          · cases hn
  case budget =>
    intro c head w ready s hs hw hu hc ha s' p hbusy hocc
    have hz : Canon s' := canon_atIssue (canon_iff.1 hs)
    have hx : exec c s = .next (withQueue s.pending (sticky (cellKey p Reg.ARR_STICKY) 4 (wordViol 1 1 w s'))) := by
      obtain ⟨span, body, hx⟩ := exec_arr hw hu hc ha
      rwa [claimArray_budget hbusy hocc] at hx
    clear_value p s'
    exact ⟨_, hx, budget_values hz p w⟩

end Sys2Proof.Machine
end

section
/-! PROOFS. Trim words, values put under the keys of a list, and rounds of trims (R84, R113). -/
namespace Sys2Proof.Machine

/-! ### Trim words (R84) -/

section
variable {n : Nat} {off gr : Int}

theorem trimN_lt (v : Trim) : trimN v < 32 := bits_lt ..

theorem sx8_range (v : Nat) : -128 ≤ sx 8 v ∧ sx 8 v < 128 := by
  unfold sx
  split <;> omega

theorem sx8_unsx (h : -128 ≤ off ∧ off < 128) : sx 8 (unsx 8 off) = off := by
  unfold sx unsx
  split <;> omega

theorem mkTrim_toNat (hn : n < 32) : (mkTrim n off gr).toNat = n + 256 * unsx 8 off + 65536 * unsx 10 gr := by
  have h8 : unsx 8 off < 256 := by unfold unsx; omega
  have h10 : unsx 10 gr < 1024 := by unfold unsx; omega
  rw [mkTrim, BitVec.toNat_ofNat, Nat.mod_eq_of_lt (by omega)]

theorem trimN_mkTrim (hn : n < 32) : trimN (mkTrim n off gr) = n := by
  rw [trimN, mkTrim_toNat hn, bits, Nat.shiftRight_zero]
  omega

theorem trimOff_mkTrim (hn : n < 32) (ho : -128 ≤ off ∧ off < 128) : trimOff (mkTrim n off gr) = off := by
  have h8 : unsx 8 off < 256 := by unfold unsx; omega
  have hb : bits (n + 256 * unsx 8 off + 65536 * unsx 10 gr) 15 8 = unsx 8 off := by
    rw [bits, Nat.shiftRight_eq_div_pow]
    omega
  rw [trimOff, mkTrim_toNat hn, hb, sx8_unsx ho]

end

/-! ### Values put under the keys of a list -/

section
variable {α β : Type} [DecidableEq α] [DecidableEq β] {d : Nat → α} {k : β → Nat} {x : β → α} {l : List β} {m : SMap α}

/-- Values put under the distinct keys of a list are read back, whatever repeats in it. -/
theorem get_foldPut (hk : ∀ i j, k i = k j → i = j) (hm : wf d m = true) (p : β) :
    get d (l.foldl (fun m p => put d m (k p) (x p)) m) (k p) = if p ∈ l then x p else get d m (k p) := by
  induction l generalizing m with
  | nil => simp
  | cons b l ih =>
    rw [List.foldl_cons, ih (wf_put hm)]
    by_cases hl : p ∈ l
    · rw [if_pos hl, if_pos (List.mem_cons_of_mem b hl)]
    · rw [if_neg hl]
      by_cases hb : p = b
      · subst hb
        rw [if_pos List.mem_cons_self, get_put hm]
      · rw [if_neg (by simp [hb, hl]), get_put_ne hm fun e => hb (hk _ _ e)]

/-- The pair that a search finds is the one that is read. -/
theorem get_eq_find : ∀ {m : SMap α} {lo : Nat} (_ : wfFrom d lo m = true) (k : Nat),
    get d m k = ((m.find? fun e => e.1 == k).map (·.2)).getD (d k)
  | [], _, _, _ => rfl
  | (j, v) :: r, _, hm, k => by
    obtain ⟨-, -, hr⟩ := wfFrom_cons.1 hm
    by_cases hj : k = j
    · simp [get, hj]
    · rw [List.find?_cons_of_neg (by simpa using Ne.symm hj), ← get_eq_find hr k, get, if_neg hj]
      split
      · exact (get_below (by omega) hr).symm
      · rfl

end

theorem colKey_inj (a : Nat) (i j : Nat) (h : colKey a i = colKey a j) : i = j := Nat.add_left_cancel h

/-! ### A round of trims -/

section
variable {c a b : Nat} {g : Nat → Trim} {l : List Nat} {s : State}

/-- Trims set one after another change the trims of their cell. -/
theorem cellAt_each_setTrim (h : Canon s) : cellAt (each l (fun p => setTrim c a p (g p)) s) c =
    { cellAt s c with trims := l.foldl (fun m p => put (fun _ => 0) m (colKey a p) (g p)) (cellAt s c).trims } := by
  induction l generalizing s with
  | nil => rfl
  | cons p l ih =>
    rw [each_cons, ih (canon_setTrim h), setTrim, cellAt_onCell h.cells]
    rfl

theorem cellAt_each_setTrim_ne (h : Canon s) (hb : b ≠ c) : cellAt (each l (fun p => setTrim c a p (g p)) s) b = cellAt s b :=
  (each_inv (fun t => Canon t ∧ cellAt t b = cellAt s b)
    (fun _ _ _ ht => ⟨canon_setTrim ht.1, (cellAt_onCell_ne ht.1.cells _ hb).trans ht.2⟩) ⟨h, rfl⟩).2

end

end Sys2Proof.Machine
end

section
/-! PROOFS. TRIM_SET_IN_FORCE (R111 to R114). -/
namespace Sys2Proof.Machine

/-! ### A staged trim set comes into force (R111 to R114) -/

/-- Whether trims come into force through a ramp: the casting is in decith mode. -/
def inRamps (s : State) : Bool := s.casting.elim false (·.decith)

/-- The trims with which a ramp begins: the new n, the old off, and the gr that carries the column's gain over (R113). -/
def rampStart (s : State) (c a : Nat) (set : SMap Trim) (p : Nat) : Trim :=
  let old := trimAt s c a p
  let new := get (fun _ => (0 : Trim)) set p
  let gr := roundAway ((4096 + trimGr old) * (400 + 3 * trimN old)) (400 + 3 * trimN new) - 4096
  mkTrim (trimN new) (trimOff old) (max (-512) (min 511 gr))

/-- The trims that a column has from the tick on which `set` comes into force. -/
def firstTrim (s : State) (c a : Nat) (set : SMap Trim) (p : Nat) : Trim :=
  if inRamps s then rampStart s c a set p else get (fun _ => 0) set p

/-- The physical columns of the conversion list. -/
def convCols (s : State) (c a : Nat) : List Nat := (List.range 260).map (listCol s c a)

/-- The ramps that lead a set in. -/
def rampsOf (s : State) (c a : Nat) (set : SMap Trim) : SMap (Trim × Trim) :=
  if inRamps s then
    (convCols s c a).foldl (fun m p => put (fun _ => (0, 0)) m p (rampStart s c a set p, get (fun _ => 0) set p)) []
  else []

/-- The array with a set in force. -/
def broughtArr (s : State) (c a : Nat) (set : SMap Trim) : Arr :=
  let x := arrAt s c a
  { x with
    staged := none, gen := x.gen + 1, tcal := x.stagedT, calibrated := true, ramp := rampsOf s c a set, rampLeft := if inRamps s then 256 else 0 }

/-- A set comes into force on a state whose trims are kept; the event is not yet counted. -/
def brought (c a : Nat) (set : SMap Trim) (s : State) : State :=
  setArr c a (broughtArr s c a set) (each (convCols s c a) (fun p => setTrim c a p (firstTrim s c a set p)) s)

/-- The event is counted, and noted where ramps begin (R112, R113). -/
def recalCounts (ramped : Bool) (s : State) : State := bump Reg.CAL_RECALS (if ramped then sticky Reg.CAL_STICKY 5 s else s)

section
variable {c a : Nat} {set : SMap Trim} {s : State}

theorem bringTrims_eq (h : (arrAt s c a).staged = some set) : bringTrims c a s = recalCounts (inRamps s) (brought c a set (keepTrims c a s)) := by
  unfold bringTrims
  rw [h]
  rfl

theorem mem_convCols {q : Nat} (hq : q < 260) : listCol s c a q ∈ convCols s c a := List.mem_map_of_mem (List.mem_range.2 hq)

theorem canon_round (h : Canon s) (g : Nat → Trim) (l : List Nat) : Canon (each l (fun p => setTrim c a p (g p)) s) :=
  canon_each (fun _ _ ht => canon_setTrim ht) h

theorem canon_brought (h : Canon s) : Canon (brought c a set s) := canon_setArr (canon_round h _ _)

theorem cellAt_brought (h : Canon s) : cellAt (brought c a set s) c = { cellAt s c with
    trims := (convCols s c a).foldl (fun m p => put (fun _ => 0) m (colKey a p) (firstTrim s c a set p)) (cellAt s c).trims
    arrs := put (fun _ => Arr.init) (cellAt s c).arrs a (broughtArr s c a set) } := by
  rw [brought, cellAt_setArr (canon_round h _ _), cellAt_each_setTrim h]

theorem cellAt_brought_ne {b : Nat} (h : Canon s) (hb : b ≠ c) : cellAt (brought c a set s) b = cellAt s b := by
  rw [brought, cellAt_setArr_ne (canon_round h _ _) _ _ hb, cellAt_each_setTrim_ne h hb]

/-- Bringing a set into force writes its cell alone. -/
theorem brought_keeps (c a : Nat) (set : SMap Trim) (s : State) : (brought c a set s).regs = s.regs ∧ (brought c a set s).dram = s.dram ∧
    (brought c a set s).flights = s.flights := by
  have h := each_keeps (fun t : State => (t.regs, t.dram, t.flights)) (l := convCols s c a)
    (f := fun p => setTrim c a p (firstTrim s c a set p)) (fun _ _ => rfl) s
  rw [Prod.mk.injEq, Prod.mk.injEq] at h
  rw [brought, setArr_regs, setArr_dram, setArr_flights]
  exact h

theorem arrAt_brought (h : Canon s) : arrAt (brought c a set s) c a = broughtArr s c a set := arrAt_setArr (canon_round h _ _) ..

theorem trimAt_brought (h : Canon s) {p : Nat} (hp : p ∈ convCols s c a) : trimAt (brought c a set s) c a p = firstTrim s c a set p := by
  rw [trimAt, cellAt_brought h, get_foldPut (colKey_inj a) (cellCanon_at h c).trims, if_pos hp]

theorem get_rampsOf (hr : inRamps s = true) {p : Nat} (hp : p ∈ convCols s c a) :
    get (fun _ => (0, 0)) (rampsOf s c a set) p = (rampStart s c a set p, get (fun _ => 0) set p) := by
  rw [rampsOf, if_pos hr]
  have h := get_foldPut (k := id) (x := fun p => (rampStart s c a set p, get (fun _ => (0 : Trim)) set p)) (l := convCols s c a)
    (d := fun _ => (0, 0)) (m := []) (fun _ _ e => e) rfl p
  rwa [if_pos hp] at h

theorem wf_rampsOf : wf (fun _ => ((0 : Trim), (0 : Trim))) (rampsOf s c a set) = true := by
  unfold rampsOf
  split
  · exact wf_foldPut rfl
  · rfl

/-- A column is on its way to the trims of the set. -/
theorem targetTrim_brought (h : Canon s) {p : Nat} (hp : p ∈ convCols s c a) : targetTrim (brought c a set s) c a p = get (fun _ => 0) set p := by
  have hramp : (arrAt (brought c a set s) c a).ramp = rampsOf s c a set := by rw [arrAt_brought h]; rfl
  rw [targetTrim, hramp, trimAt_brought h hp, firstTrim]
  cases hr : inRamps s with
  | false =>
    rw [rampsOf, hr]
    rfl
  | true =>
    have hget := get_eq_find (wf_rampsOf (s := s) (c := c) (a := a) (set := set)) p
    rw [get_rampsOf hr hp] at hget
    cases hf : (rampsOf s c a set).find? fun e => e.1 == p with
    | some e =>
      rw [hf] at hget
      exact (congrArg Prod.snd hget).symm
    | none =>
      rw [hf] at hget
      exact (congrArg Prod.fst hget).trans (congrArg Prod.snd hget).symm

/-- A ramp begins with the new n and the old off (R113). -/
theorem rampStart_fields (s : State) (c a : Nat) (set : SMap Trim) (p : Nat) :
    trimN (rampStart s c a set p) = trimN (get (fun _ => 0) set p) ∧ trimOff (rampStart s c a set p) = trimOff (trimAt s c a p) :=
  ⟨trimN_mkTrim (trimN_lt _), trimOff_mkTrim (trimN_lt _) (sx8_range _)⟩

theorem firstTrim_fields (s : State) (c a : Nat) (set : SMap Trim) (p : Nat) :
    (inRamps s = false → firstTrim s c a set p = get (fun _ => 0) set p) ∧
    (inRamps s = true → trimN (firstTrim s c a set p) = trimN (get (fun _ => 0) set p) ∧
      trimOff (firstTrim s c a set p) = trimOff (trimAt s c a p)) := by
  refine ⟨fun h => if_neg (by simp [h]), fun h => ?_⟩
  rw [firstTrim, if_pos h]
  exact rampStart_fields ..

end

/-! ### The trims before it are kept -/

/-- The array with its target trims kept under their generation. -/
def keptArr (s : State) (c a : Nat) : Arr :=
  { arrAt s c a with past := put (fun _ => none) (arrAt s c a).past (arrAt s c a).gen.toNat (some (targetSet s c a)) }

section
variable {c a : Nat} {s : State}

theorem cellAt_keepTrims (h : Canon s) : cellAt (keepTrims c a s) c =
    { cellAt s c with arrs := put (fun _ => Arr.init) (cellAt s c).arrs a (keptArr s c a) } := cellAt_setArr h ..

theorem arrAt_keepTrims (h : Canon s) : arrAt (keepTrims c a s) c a = keptArr s c a := arrAt_setArr h ..

theorem listCol_keepTrims (h : Canon s) : listCol (keepTrims c a s) c a = listCol s c a := by
  funext q
  rw [listCol, listCol, physCol, physCol, cellAt_keepTrims h]

theorem trimAt_keepTrims (h : Canon s) (p : Nat) : trimAt (keepTrims c a s) c a p = trimAt s c a p := by
  rw [trimAt, trimAt, cellAt_keepTrims h]

theorem get_targetSet {q : Nat} (hq : q < 260) : get (fun _ => (0 : Trim)) (targetSet s c a) q = targetTrim s c a (listCol s c a q) :=
  get_put_range (f := id) (x := fun q => targetTrim s c a (listCol s c a q)) (fun _ _ e => e) rfl hq

/-- The set kept under a generation is the one that its records were made with, once the array has left the generation. -/
theorem trimsOf_kept {t : State} {rng q : Nat} (hw : wf (fun _ => none) (arrAt s c a).past = true) (hq : q < 260)
    (hheld : ((arrAt s c a).held.find? fun e => e.1 == (arrAt s c a).gen.toNat && decide (rng < e.2.1)) = none)
    (hgen : (arrAt t c a).gen = (arrAt s c a).gen + 1) (hth : (arrAt t c a).held = (arrAt s c a).held)
    (hpast : (arrAt t c a).past = put (fun _ => none) (arrAt s c a).past (arrAt s c a).gen.toNat (some (targetSet s c a))) :
    trimsOf t c a (arrAt s c a).gen.toNat rng q = some (targetTrim s c a (listCol s c a q)) := by
  have hne : (arrAt t c a).gen.toNat ≠ (arrAt s c a).gen.toNat := by
    rw [hgen]
    bv_omega
  rw [trimsOf, hth, hheld]
  dsimp only
  rw [if_neg hne, hpast, get_put hw, Option.map_some, get_targetSet hq]

end

/-! ### The count of a recalibration -/

section
variable {ramped : Bool} {s : State}

theorem recalCounts_stores (ramped : Bool) (s : State) : (recalCounts ramped s).cells = s.cells ∧ (recalCounts ramped s).dram = s.dram ∧
    (recalCounts ramped s).flights = s.flights := by
  cases ramped <;> exact ⟨rfl, rfl, rfl⟩

theorem recalCounts_registers (h : Canon s) : rd (recalCounts ramped s) Reg.CAL_RECALS = min (rd s Reg.CAL_RECALS + 1) (2 ^ 32 - 1) ∧
    (ramped = true → fld (recalCounts ramped s) Reg.CAL_STICKY 5 5 = 1) ∧
    (∀ k, k ≠ Reg.CAL_RECALS → k ≠ Reg.CAL_STICKY → rd (recalCounts ramped s) k = rd s k) := by
  cases ramped with
  | false => exact ⟨rd_bump h.regs _, fun e => absurd e (by decide), fun k hk _ => rd_bump_ne h.regs hk⟩
  | true =>
    have hs : wf regDefault (sticky Reg.CAL_STICKY 5 s).regs = true := (canon_sticky h).regs
    refine ⟨?_, fun _ => ?_, fun k hk hk' => ?_⟩
    · rw [recalCounts, if_pos rfl, rd_bump hs, rd_sticky_ne h.regs _ (by decide)]
    · rw [recalCounts, if_pos rfl, fld_def, rd_bump_ne hs (by decide)]
      exact fld_sticky h.regs _ (by decide)
    · rw [recalCounts, if_pos rfl, rd_bump_ne hs hk, rd_sticky_ne h.regs _ hk']

end

/-! ### What TRIM_SET_IN_FORCE brings -/

section
variable {c a : Nat} {set : SMap Trim} {s : State}

theorem bringTrims_cell (hs : (arrAt s c a).staged = some set) :
    cellAt (bringTrims c a s) c = cellAt (brought c a set (keepTrims c a s)) c := by
  rw [bringTrims_eq hs]
  exact cellAt_congr (recalCounts_stores _ _).1 c

/-- Each column of the conversion list heads for its new trims, and has them at once where no ramp leads it there. -/
theorem bringTrims_column (h : Canon s) (hs : (arrAt s c a).staged = some set) {q : Nat} (hq : q < 260) :
    targetTrim (bringTrims c a s) c a (listCol s c a q) = get (fun _ => 0) set (listCol s c a q) ∧
    trimAt (bringTrims c a s) c a (listCol s c a q) = firstTrim (keepTrims c a s) c a set (listCol s c a q) := by
  have hk : Canon (keepTrims c a s) := canon_keepTrims h
  have hmem : listCol s c a q ∈ convCols (keepTrims c a s) c a := listCol_keepTrims h ▸ mem_convCols hq
  have hcell := bringTrims_cell hs
  have htrim : ∀ p, trimAt (bringTrims c a s) c a p = trimAt (brought c a set (keepTrims c a s)) c a p := fun p => by
    rw [trimAt, hcell, ← trimAt]
  have harr : arrAt (bringTrims c a s) c a = arrAt (brought c a set (keepTrims c a s)) c a := by rw [arrAt, hcell, ← arrAt]
  refine ⟨?_, (htrim _).trans (trimAt_brought hk hmem)⟩
  rw [← targetTrim_brought hk hmem, targetTrim, targetTrim, harr, htrim]

/-- The array's record once a set is in force. -/
theorem bringTrims_arr (h : Canon s) (hs : (arrAt s c a).staged = some set) :
    arrAt (bringTrims c a s) c a = broughtArr (keepTrims c a s) c a set := by
  rw [arrAt, bringTrims_cell hs, ← arrAt, arrAt_brought (canon_keepTrims h)]

theorem bringTrims_arr_fields (h : Canon s) (hs : (arrAt s c a).staged = some set) :
    let x := arrAt s c a
    let y := arrAt (bringTrims c a s) c a
    y.gen = x.gen + 1 ∧ y.tcal = x.stagedT ∧ y.calibrated = true ∧ y.staged = none ∧ y.rampLeft = (if inRamps s then 256 else 0) ∧
    y.held = x.held ∧ y.past = put (fun _ => none) x.past x.gen.toNat (some (targetSet s c a)) := by
  intro x y
  rw [show y = broughtArr (keepTrims c a s) c a set from bringTrims_arr h hs, broughtArr, arrAt_keepTrims h]
  exact ⟨rfl, rfl, rfl, rfl, rfl, rfl, rfl⟩

/-- No other cell changes, and of its own neither codes nor scratchpad nor another array. -/
theorem bringTrims_cells (h : Canon s) (hs : (arrAt s c a).staged = some set) :
    (∀ b, b ≠ a → arrAt (bringTrims c a s) c b = arrAt s c b) ∧ (∀ b, b ≠ c → cellAt (bringTrims c a s) b = cellAt s b) ∧
    (cellAt (bringTrims c a s) c).codes = (cellAt s c).codes ∧ (cellAt (bringTrims c a s) c).sp = (cellAt s c).sp := by
  have hk : Canon (keepTrims c a s) := canon_keepTrims h
  refine ⟨fun b hb => ?_, fun b hb => ?_, ?_, ?_⟩
  · rw [arrAt, bringTrims_cell hs, cellAt_brought hk, get_put_ne (cellCanon_at hk c).arrs hb]
    exact arrAt_setArr_ne h c _ hb
  · rw [bringTrims_eq hs, cellAt_congr (recalCounts_stores _ _).1, cellAt_brought_ne hk hb]
    exact cellAt_setArr_ne h _ _ hb
  · rw [bringTrims_cell hs, cellAt_brought hk, cellAt_keepTrims h]
  · rw [bringTrims_cell hs, cellAt_brought hk, cellAt_keepTrims h]

theorem bringTrims_rest (h : Canon s) (hs : (arrAt s c a).staged = some set) :
    let t := bringTrims c a s
    rd t Reg.CAL_RECALS = min (rd s Reg.CAL_RECALS + 1) (2 ^ 32 - 1) ∧ (inRamps s = true → fld t Reg.CAL_STICKY 5 5 = 1) ∧
    (∀ k, k ≠ Reg.CAL_RECALS → k ≠ Reg.CAL_STICKY → rd t k = rd s k) ∧ t.dram = s.dram ∧ t.flights = s.flights := by
  intro t
  obtain ⟨hregs, hdram, hflights⟩ := brought_keeps c a set (keepTrims c a s)
  have hb : Canon (brought c a set (keepTrims c a s)) := canon_brought (canon_keepTrims h)
  rw [show t = _ from bringTrims_eq hs]
  obtain ⟨-, htdram, htflights⟩ := recalCounts_stores (inRamps s) (brought c a set (keepTrims c a s))
  obtain ⟨hcount, hsticky, hother⟩ := recalCounts_registers (ramped := inRamps s) hb
  have hrd : ∀ k, rd (brought c a set (keepTrims c a s)) k = rd s k := rd_congr hregs
  refine ⟨hcount.trans (by rw [hrd]), hsticky, fun k hk hk' => (hother k hk hk').trans (hrd k), htdram.trans hdram, htflights.trans hflights⟩

end

end Sys2Proof.Machine
end

section
/-! PROOFS. SLICE_HANDOFF (R98 to R100), and the request for a cell that it may end in (R384, R385). -/
namespace Sys2Proof.Machine

/-! ### Bits that stand -/

/-- Register `k` shows bit `b`, and a write of another register cannot hide it. -/
def ShowsBit (k b : Nat) (s : State) : Prop := ∃ v, Held k v s ∧ bits v b b = 1

section
variable {k b : Nat} {s t : State}

theorem ShowsBit.fld (h : ShowsBit k b s) : fld s k b b = 1 := by
  obtain ⟨v, hv, hb⟩ := h
  rw [fld_def, hv.val, hb]

theorem showsBit_sticky (h0 : regDefault k = 0) (hb : b < 32) (s : State) : ShowsBit k b (sticky k b s) :=
  ⟨_, held_sticky h0 hb s, bits_or_self _ b⟩

theorem ShowsBit.imp (h : ShowsBit k b s) (ht : ∀ v, Held k v s → Held k v t) : ShowsBit k b t := by
  obtain ⟨v, hv, hb⟩ := h
  exact ⟨v, ht v hv, hb⟩

/-- Another bit of the register set leaves it standing. -/
theorem ShowsBit.stickyBeside (h : ShowsBit k b s) (h0 : regDefault k = 0) {bit : Nat} (hb : bit < 32) (hne : bit < b ∨ b < bit) :
    ShowsBit k b (sticky k bit s) := by
  obtain ⟨v, hv, hvb⟩ := h
  exact ⟨_, held_sticky h0 hb s, by rw [hv.val, bits_or_ne hne, hvb]⟩

theorem Held.sticky {q v : Nat} (h : Held q v s) (hk : k ≠ q) (bit : Nat) : Held q v (sticky k bit s) := (h.wr hk _).congr rfl

theorem Held.mapsChanged {q v : Nat} (h : Held q v s) (hq : Reg.SPR_STICKY ≠ q) : Held q v (mapsChanged s) :=
  Held.sticky (s := { s with spr := { s.spr with dirty := true } }) (h.congr rfl) hq 4

/-- A change of the maps shows in SPR_STICKY (R388, R391). -/
theorem showsBit_mapsChanged (s : State) : ShowsBit Reg.SPR_STICKY 4 (mapsChanged s) := showsBit_sticky (by decide) (by decide) _

end

/-! ### Slices (R98 to R100) -/

/-- A slice is retired, and reported with kind 5: the array is `y` from then on. The record is not yet made. -/
def sliceReported (die cell a : Nat) (y : Arr) (s : State) : State :=
  mapsChanged (sticky Reg.CAL_STICKY 3 (calLast die cell a 0x1FF 5 (setArr (phys s die cell) a y s)))

/-- A slice is retired, reported and recorded. -/
def sliceRetired (die cell a : Nat) (y : Arr) (s : State) : State :=
  record 6 (arrLoc die cell a) (rd (sliceReported die cell a y s) Reg.CAL_LAST) (sliceReported die cell a y s)

section
variable {die cell a : Nat} {passed : Bool} {s : State}

theorem sliceHandoff_waits {die : Fin 4} {cell : Fin 256} {array : Fin 64} (h : now s < (arrAt s (phys s die.val cell.val) array.val).busy) :
    exec (.sliceHandoff die cell array passed) s = .next (withQueue s.pending
      (launch (arrAt s (phys s die.val cell.val) array.val).busy (.handoff die.val cell.val array.val passed) s)) :=
  congrArg (fun t => Host.Outcome.next (withQueue s.pending t)) (if_pos h)

theorem sliceHandoff_applies {die : Fin 4} {cell : Fin 256} {array : Fin 64} (h : (arrAt s (phys s die.val cell.val) array.val).busy ≤ now s) :
    exec (.sliceHandoff die cell array passed) s =
      .next (withQueue s.pending (applyHandoff die.val cell.val array.val passed s)) :=
  congrArg (fun t => Host.Outcome.next (withQueue s.pending t)) (if_neg (Nat.not_lt.2 h))

theorem applyHandoff_stopped (h : fld s Reg.CAL_CTRL 1 1 = 0) : applyHandoff die cell a passed s = s := if_pos h

theorem applyHandoff_passed (h : fld s Reg.CAL_CTRL 1 1 ≠ 0) : applyHandoff die cell a true s =
    (if (arrAt s (phys s die cell) a).retired = [] then
      setArr (phys s die cell) a { arrAt s (phys s die cell) a with slice := dueSlice s } s else s) := if_neg h

theorem applyHandoff_failed (h : fld s Reg.CAL_CTRL 1 1 ≠ 0) (x : Arr) (hx : x = arrAt s (phys s die cell) a) (lost : Nat)
    (hl : lost = if x.retired = [] then x.slice else dueSlice s) (hn : x.retired.contains lost = false) :
    applyHandoff die cell a false s =
      (if (List.range 33).any (groupLost { x with retired := x.retired ++ [lost] }) then
        brazeCell die cell (sliceRetired die cell a { x with retired := x.retired ++ [lost] } s)
      else sliceRetired die cell a { x with retired := x.retired ++ [lost] } s) := by
  subst hx hl
  unfold applyHandoff
  dsimp only
  rw [if_neg h, if_neg Bool.false_ne_true, if_neg (Bool.eq_false_iff.1 hn)]
  rfl

/-- Retiring a slice changes its array; of the spares it marks the maps as changed. -/
theorem sliceRetired_stores (die cell a : Nat) (y : Arr) (s : State) :
    (sliceRetired die cell a y s).cells = (setArr (phys s die cell) a y s).cells ∧ (sliceRetired die cell a y s).dram = s.dram ∧
    (sliceRetired die cell a y s).spr = { s.spr with dirty := true } := by
  have h := (keptByReports_view (g := fun t : State => (t.cells, t.dram, t.spr))
    (v := ((setArr (phys s die cell) a y s).cells, s.dram, { s.spr with dirty := true }))).record 6 (arrLoc die cell a)
    (rd (sliceReported die cell a y s) Reg.CAL_LAST) (s := sliceReported die cell a y s) rfl
  rw [Prod.mk.injEq, Prod.mk.injEq] at h
  exact h

theorem Held.sliceRetired {q v : Nat} {y : Arr} (h : Held q v s) (hr : reportKey q = false) (hlast : Reg.CAL_LAST ≠ q)
    (hcal : Reg.CAL_STICKY ≠ q) (hspr : Reg.SPR_STICKY ≠ q) : Held q v (sliceRetired die cell a y s) := by
  have hset : Held q v (setArr (phys s die cell) a y s) := h.congr rfl
  exact (keptByReports_held hr).record _ _ _ (((hset.wr hlast _).sticky hcal 3).mapsChanged hspr)

/-- The retired slice is reported in CAL_LAST and CAL_STICKY, and the change of the maps in SPR_STICKY. -/
theorem sliceRetired_shown (h : Canon s) {y : Arr} (hd : die < 4) (hcell : cell < 256) (ha : a < 64) :
    Held Reg.CAL_LAST (die + 4 * cell + 1024 * a + 65536 * 0x1FF + 33554432 * 5) (sliceRetired die cell a y s) ∧
    ShowsBit Reg.CAL_STICKY 3 (sliceRetired die cell a y s) ∧ ShowsBit Reg.SPR_STICKY 4 (sliceRetired die cell a y s) := by
  have hset : Canon (setArr (phys s die cell) a y s) := canon_setArr h
  have hlast : Held Reg.CAL_LAST (die + 4 * cell + 1024 * a + 65536 * 0x1FF + 33554432 * 5)
      (calLast die cell a 0x1FF 5 (setArr (phys s die cell) a y s)) := held_wr (by omega) (.inl hset.regs)
  have hcal := showsBit_sticky (k := Reg.CAL_STICKY) (b := 3) (by decide) (by decide) (calLast die cell a 0x1FF 5 (setArr (phys s die cell) a y s))
  have hrec {q v : Nat} (hq : reportKey q = false) {t : State} (ht : Held q v t) (first : Nat) : Held q v (record 6 (arrLoc die cell a) first t) :=
    (keptByReports_held hq).record _ _ _ ht
  exact ⟨hrec (by decide) ((hlast.sticky (by decide) 3).mapsChanged (by decide)) _,
    hcal.imp fun v hv => hrec (by decide) (hv.mapsChanged (by decide)) _,
    (showsBit_mapsChanged _).imp fun v hv => hrec (by decide) hv _⟩

end

/-! ### What a request for a cell writes (R384, R385) -/

/-- The registers of the fill slots and of the held request. -/
def slotKey (k : Nat) : Bool := k == Reg.SPR_LOST || (decide (bankKey Reg.SPR_FILL 0 ≤ k) && decide (k < bankKey Reg.SPR_FILL 8))

theorem slotKey_fill {die slot : Nat} (hd : die < 4) (hs : slot < 2) : slotKey (fillKey die slot) = true := by
  unfold slotKey fillKey bankKey
  rw [Bool.or_eq_true, Bool.and_eq_true, decide_eq_true_eq, decide_eq_true_eq]
  omega

section
variable {die cell slot q v : Nat} {s : State} (hq : slotKey q = false)
include hq

theorem Held.fillKey (hd : die < 4) (hs : slot < 2) (x : Nat) (h : Held q v s) : Held q v (Machine.wr (fillKey die slot) x s) :=
  h.wr (ne_of_key (slotKey_fill hd hs) hq) x

theorem Held.placeFill (hd : die < 4) (hs : slot < 2) (kind a col : Nat) (f : Fill) (h : Held q v s) :
    Held q v (placeFill slot kind die cell a col f s) := (h.fillKey hq hd hs _).congr rfl

theorem Held.nextFill (hd : die < 4) (hs : slot < 2) (h : Held q v s) : Held q v (nextFill die slot s) := by
  unfold Machine.nextFill
  extract_lets s1 k s2
  have h1 : Held q v s1 := (h.fillKey hq hd hs 0).congr rfl
  have h2 : Held q v s2 := by
    unfold s2
    split
    · exact (h1.fillKey hq hd (by omega) _).fillKey hq hd (by omega) _
    · exact h1
  have hlost : Held q v (Machine.wr Reg.SPR_LOST 0 s2) := h2.wr (ne_of_key (p := slotKey) (by decide) hq) 0
  split
  · split
    · exact Held.placeFill hq hd hs _ _ _ _ (hlost.congr rfl)
    · exact h2
  · exact h2

theorem Held.absorbSlot (hd : die < 4) (hs : slot < 2) {t : SMap (List Byte) × State} (h : Held q v t.2) :
    Held q v (absorbSlot die cell slot t).2 := by
  unfold Machine.absorbSlot
  dsimp only
  split
  · exact h.nextFill hq hd hs
  · exact h

theorem Held.absorbFills (hd : die < 4) (given : SMap (List Byte)) (h : Held q v s) : Held q v (absorbFills die cell given s).2 := by
  unfold Machine.absorbFills
  extract_lets lost held given' freed spr s1
  have h1 : Held q v s1 := by
    unfold s1
    split
    · exact (h.wr (ne_of_key (p := slotKey) (k := Reg.SPR_LOST) (by decide) hq) 0).congr rfl
    · exact h
  exact (h1.absorbSlot hq hd (by decide)).absorbSlot hq hd (by decide)

end

section
variable {die cell : Nat} {s : State}

/-- A loss beyond the spares marks the maps as changed. -/
theorem showsBit_capacityLoss (loc : List (Nat × Nat)) (s : State) : ShowsBit Reg.SPR_STICKY 4 (capacityLoss loc s) :=
  (showsBit_mapsChanged (sticky Reg.SPR_STICKY 3 s)).imp fun _ hv =>
    (keptByReports_held (by decide)).jobFault ((keptByReports_held (by decide)).record _ _ _ hv)

theorem ShowsBit.fillRequest (hd : die < 4) (kind a col : Nat) (f : Fill) (h : ShowsBit Reg.SPR_STICKY 4 s) :
    ShowsBit Reg.SPR_STICKY 4 (fillRequest kind die cell a col f s) := by
  unfold Machine.fillRequest
  extract_lets same s1 s2
  split
  · exact h
  · split
    · exact h.imp fun v hv => hv.placeFill (by decide) hd (by decide) _ _ _ _
    · split
      · exact h.imp fun v hv => hv.placeFill (by decide) hd (by decide) _ _ _ _
      · have hfault : ShowsBit Reg.SPR_STICKY 4 (jobFault s) := h.imp fun v hv => (keptByReports_held (by decide)).jobFault hv
        have h1 : ShowsBit Reg.SPR_STICKY 4 s1 := hfault.stickyBeside (by decide) (by decide) (by decide)
        have h2 : ShowsBit Reg.SPR_STICKY 4 s2 := h1.imp fun v hv => (keptByReports_held (by decide)).record _ _ _ hv
        exact h2.imp fun v hv => (hv.wr (k := Reg.SPR_LOST) (by decide) _).congr rfl

/-- A request for a cell leaves the maps marked as changed. -/
theorem ShowsBit.brazeCell (hd : die < 4) (h : ShowsBit Reg.SPR_STICKY 4 s) : ShowsBit Reg.SPR_STICKY 4 (brazeCell die cell s) := by
  unfold Machine.brazeCell brazeWith
  split
  · exact showsBit_capacityLoss _ _
  · exact ShowsBit.fillRequest hd _ _ _ _ (h.imp fun v hv => hv.absorbFills (by decide) hd _)

theorem absorbSlot_free {slot : Nat} {t : SMap (List Byte) × State} (h : fillState t.2 die slot = 0) : absorbSlot die cell slot t = t :=
  if_neg fun hf => hf.1 h

/-- The request that SPR_LOST holds is dropped. -/
def lostDropped (s : State) : State := { (wr Reg.SPR_LOST 0 s) with spr := { s.spr with lost := none } }

theorem fillState_lostDropped (h : Canon s) (hd : die < 4) {slot : Nat} (hs : slot < 2) :
    fillState (lostDropped s) die slot = fillState s die slot := by
  have hk : fillKey die slot ≠ Reg.SPR_LOST := by
    unfold fillKey bankKey Reg.SPR_LOST
    omega
  have hrd : rd (lostDropped s) (fillKey die slot) = rd s (fillKey die slot) := rd_wr_ne h.regs 0 hk
  rw [fillState, fillState, fld_def, fld_def, hrd]

/-- With both fill slots of its die free a cell fill absorbs at most the request that SPR_LOST holds. -/
theorem absorbFills_free (h : Canon s) (hd : die < 4) (given : SMap (List Byte)) (h0 : fillState s die 0 = 0) (h1 : fillState s die 1 = 0) :
    let u := (absorbFills die cell given s).2
    Canon u ∧ fillState u die 0 = 0 ∧ fillState u die 1 = 0 := by
  intro u
  have hu : u = s ∨ u = lostDropped s := by
    unfold u absorbFills
    extract_lets lost held given' freed spr s1
    have hs1 : s1 = s ∨ s1 = lostDropped s := by
      unfold s1
      split
      · exact .inr rfl
      · exact .inl rfl
    have hfree : ∀ slot, slot < 2 → fillState s1 die slot = fillState s die slot := by
      rcases hs1 with e | e <;> rw [e]
      · exact fun _ _ => rfl
      · exact fun _ hs => fillState_lostDropped h hd hs
    clear_value s1 given'
    rw [absorbSlot_free (slot := 1) ((hfree 1 (by decide)).trans h1), absorbSlot_free (slot := 0) ((hfree 0 (by decide)).trans h0)]
    exact hs1
  rcases hu with e | e <;> rw [e]
  · exact ⟨h, h0, h1⟩
  · exact ⟨canon_mk (canon_wr h), (fillState_lostDropped h hd (by decide)).trans h0, (fillState_lostDropped h hd (by decide)).trans h1⟩

/-- With both fill slots of its die free and a spare left, a cell takes slot 0 and is active. -/
theorem brazeCell_active (h : Canon s) (hd : die < 4) (hcell : cell < 256) (hf : freeCells s die ≠ []) (h0 : fillState s die 0 = 0)
    (h1 : fillState s die 1 = 0) : fld (brazeCell die cell s) (fillKey die 0) 11 0 = 2 + 8 + 16 * cell := by
  obtain ⟨hu, hu0, hu1⟩ := absorbFills_free (cell := cell) h hd [] h0 h1
  rw [brazeCell, brazeWith, if_neg hf, fillRequest_free hu0 hu1]
  generalize (absorbFills die cell [] s).1 = given
  generalize (absorbFills die cell [] s).2 = u at *
  have hreg : fld (placeFill 0 2 die cell 0 0 { Fill.none with given := given } u) (fillKey die 0) 25 0 =
      2 + 4 * 2 + 16 * cell + 4096 * 0 + 262144 * 0 :=
    (placeFill_active (f := { Fill.none with given := given }) (s := { u with spr := { u.spr with fills := [] } }) (canon_mk hu) rfl hu1
      (by decide) hcell (by decide) (by decide)).1
  rw [fld_def, bits, Nat.shiftRight_zero] at hreg ⊢
  omega

end

end Sys2Proof.Machine
end

section
/-! PROOFS. The end of a hand-off that failed, and the statement on trim sets and hand-offs. -/
namespace Sys2Proof.Machine

/-! ### The obligation -/

section
variable {die cell a : Nat} {s : State}

theorem freeCells_congr {t : State} (hmap : t.spr.cellMap = s.spr.cellMap) (hbad : t.spr.badCells = s.spr.badCells) (die : Nat) :
    freeCells t die = freeCells s die := by
  have hphys : phys t die = phys s die := funext fun cell => by rw [phys, phys, hmap]
  rw [freeCells, freeCells, hphys, hbad]

theorem fillState_sliceRetired (h : Canon s) (hd : die < 4) {slot : Nat} (hs : slot < 2) {y : Arr} :
    fillState (sliceRetired die cell a y s) die slot = fillState s die slot := by
  have hr : reportKey (fillKey die slot) = false := reportKey_bankKey (by decide) (by omega)
  have hk : ∀ k, k < bankKey Reg.SPR_FILL 0 → k ≠ fillKey die slot := fun k hk => by
    unfold fillKey bankKey at *
    omega
  rw [fillState, fillState, fld_def, fld_def]
  exact congrArg (bits · 1 0)
    ((held_of_canon h (fillKey die slot)).sliceRetired hr (hk _ (by decide)) (hk _ (by decide)) (hk _ (by decide))).val

/-- A retired slice, whether or not its cell is replaced for it. -/
theorem handoff_fails (h : Canon s) (hd : die < 4) (hcell : cell < 256) (ha : a < 64) (y : Arr) :
    let c := phys s die cell
    let t := if (List.range 33).any (groupLost y) then brazeCell die cell (sliceRetired die cell a y s) else sliceRetired die cell a y s
    arrAt t c a = y ∧ fld t Reg.CAL_STICKY 3 3 = 1 ∧ rd t Reg.CAL_LAST = die + 4 * cell + 1024 * a + 65536 * 0x1FF + 33554432 * 5 ∧
      fld t Reg.SPR_STICKY 4 4 = 1 ∧ (∀ b, b ≠ a → arrAt t c b = arrAt s c b) ∧ (∀ b, b ≠ c → cellAt t b = cellAt s b) ∧ t.dram = s.dram ∧
      ((List.range 33).any (groupLost y) = false → t.spr = { s.spr with dirty := true }) ∧
      ((List.range 33).any (groupLost y) = true → freeCells s die ≠ [] → fillState s die 0 = 0 → fillState s die 1 = 0 →
        fld t (fillKey die 0) 11 0 = 2 + 8 + 16 * cell) := by
  intro c t
  obtain ⟨hlast, hcal, hspr⟩ := sliceRetired_shown (y := y) h hd hcell ha
  obtain ⟨hcells, hdram, hmaps⟩ := sliceRetired_stores die cell a y s
  have hstores : t.cells = (setArr c a y s).cells ∧ t.dram = s.dram := by
    have hk := keptByFills_stores.brazeWith hd cell [] (s := sliceRetired die cell a y s) rfl
    rw [Prod.mk.injEq, Prod.mk.injEq] at hk
    unfold t
    split
    · exact ⟨hk.1.trans hcells, hk.2.1.trans hdram⟩
    · exact ⟨hcells, hdram⟩
  have hheld : ∀ {q v}, reportKey q = false → spareKey q = false → Held q v (sliceRetired die cell a y s) → Held q v t := by
    intro q v hr hs hv
    unfold t
    split
    · exact (keptByFills_held hr hs).brazeWith hd cell [] hv
    · exact hv
  have hshown : ShowsBit Reg.SPR_STICKY 4 t := by
    unfold t
    split
    · exact hspr.brazeCell hd
    · exact hspr
  refine ⟨?array, (hcal.imp fun _ hv => hheld (by decide) (by decide) hv).fld, (hheld (by decide) (by decide) hlast).val, hshown.fld,
    ?arrays, ?cells, hstores.2, ?kept, ?replaced⟩
  case array =>
    rw [arrAt, cellAt_congr hstores.1]
    exact arrAt_setArr h ..
  case arrays =>
    intro b hb
    rw [arrAt, cellAt_congr hstores.1]
    exact arrAt_setArr_ne h c y hb
  case cells =>
    intro b hb
    rw [cellAt_congr hstores.1]
    exact cellAt_setArr_ne h a y hb
  case kept =>
    intro hg
    rw [show t = sliceRetired die cell a y s from if_neg (Bool.eq_false_iff.1 hg)]
    exact hmaps
  case replaced =>
    intro hg hfree h0 h1
    have hcellsFree : freeCells (sliceRetired die cell a y s) die = freeCells s die := freeCells_congr (by rw [hmaps]) (by rw [hmaps]) die
    rw [show t = brazeCell die cell (sliceRetired die cell a y s) from if_pos hg]
    exact brazeCell_active (canon_record (canon_mapsChanged (canon_sticky (canon_wr (canon_setArr h))))) hd hcell (hcellsFree ▸ hfree)
      ((fillState_sliceRetired h hd (by decide)).trans h0) ((fillState_sliceRetired h hd (by decide)).trans h1)

end

/-- Settles O22: a trim set is followed from the trims that are kept through its columns to the count of the recalibration; a hand-off is one
change of the array's record, or a report and, for a group without a slice, a request for the cell. -/
theorem trimSetsAndHandoffs : Obligations.TrimSetsAndHandoffs := by
  unfold Obligations.TrimSetsAndHandoffs
  refine ⟨?due, ?lands, ?handoff⟩
  case due =>
    intro die cell array s due h
    refine ⟨_, rfl, congrArg (withQueue s.pending) ?_⟩
    rw [execTrimSetInForce, h]
  case lands =>
    intro c a set s hs hpast hset t x ramped new
    have h : Canon s := canon_iff.1 hs
    obtain ⟨hgen, htcal, hcal, hstaged, hleft, hheld, hkept⟩ := bringTrims_arr_fields h hset
    obtain ⟨harrs, hcells, hcodes, hsp⟩ := bringTrims_cells h hset
    obtain ⟨hcount, hsticky, hregs, hdram, hflights⟩ := bringTrims_rest h hset
    refine ⟨fun q hq => ?_, fun rng q hq hnone => trimsOf_kept hpast hq hnone hgen hheld hkept, hgen, htcal, hcal, hstaged, hleft, harrs,
      hcells, hcodes, hsp, hcount, hsticky, hregs, hdram, hflights⟩
    obtain ⟨htarget, htrim⟩ := bringTrims_column h hset hq
    obtain ⟨hnative, hramped⟩ := firstTrim_fields (keepTrims c a s) c a set (listCol s c a q)
    rw [trimAt_keepTrims h] at hramped
    exact ⟨htarget, fun hr => htrim.trans (hnative hr), fun hr => htrim ▸ hramped hr⟩
  case handoff =>
    intro die cell array passed s hs c x lost y
    have h : Canon s := canon_iff.1 hs
    refine ⟨fun hb => ⟨_, sliceHandoff_waits hb, rfl⟩, fun hb hoff => ?_, fun hb hon hp => ⟨_, sliceHandoff_applies hb, ?_⟩,
      fun hb hon hp hn => ⟨_, sliceHandoff_applies hb, ?_⟩⟩
    · rw [sliceHandoff_applies hb, applyHandoff_stopped hoff]
      rfl
    · subst hp
      rw [applyHandoff_passed (by rw [hon]; decide)]
      split
      · exact ⟨arrAt_setArr h .., rfl, rfl, fun b hb => arrAt_setArr_ne h c _ hb, fun b hb => cellAt_setArr_ne h _ _ hb⟩
      · exact ⟨rfl, rfl, rfl, fun _ _ => rfl, fun _ _ => rfl⟩
    · subst hp
      rw [applyHandoff_failed (by rw [hon]; decide) x rfl lost rfl hn]
      exact handoff_fails h die.isLt cell.isLt array.isLt y

end Sys2Proof.Machine
end

section
/-! PROOFS. TSM_URGENT on an idle converter (R416), and the registers whose write does more than take a value. -/
namespace Sys2Proof.Machine

/-! ### What a converter begins -/

section
variable {conv : Nat} {s : State}

/-- Passing over channels writes none but their own state. -/
theorem passOver_keeps (conv : Nat) (chans : List Nat) (s : State) :
    (passOver conv chans s).tsm.urgent = s.tsm.urgent ∧ (passOver conv chans s).tsm.busy = s.tsm.busy :=
  ⟨each_keeps (·.tsm.urgent) (f := fun c s => setChan conv c { chanAt s conv c with enBefore := none } s) (fun _ _ => rfl) s,
    each_keeps (·.tsm.busy) (f := fun c s => setChan conv c { chanAt s conv c with enBefore := none } s) (fun _ _ => rfl) s⟩

/-- With nothing to convert a converter stays idle. -/
theorem beginConv_idle (h : nextConv s conv = none) : (beginConv conv s).tsm.urgent = s.tsm.urgent ∧
    (beginConv conv s).tsm.busy = put (fun _ => 0) s.tsm.busy conv 0 := by
  unfold beginConv
  rw [h]
  exact passOver_keeps ..

theorem urgentAt_withQueue (l : List Instr) : urgentAt (withQueue l s) conv = urgentAt s conv := rfl

theorem nextConv_urgent {ch : Nat} {l : List Nat} (h : urgentAt s conv = ch :: l) : nextConv s conv = some (ch, true) := by
  unfold nextConv
  rw [show get (fun _ => ([] : List Nat)) s.tsm.urgent conv = ch :: l from h]

/-- A converter that begins an urgent conversion takes it from those that wait (R416). -/
theorem urgentAt_beginConv {ch : Nat} {l : List Nat} (hw : wf (fun _ => ([] : List Nat)) s.tsm.urgent = true) (h : urgentAt s conv = ch :: l) :
    urgentAt (beginConv conv s) conv = l := by
  unfold beginConv
  rw [nextConv_urgent h]
  refine (get_put hw).trans ?_
  rw [show get (fun _ => ([] : List Nat)) s.tsm.urgent conv = ch :: l from h]
  rfl

theorem urgentAt_of_nextConv_none (h : nextConv s conv = none) : urgentAt s conv = [] := by
  cases hu : urgentAt s conv with
  | nil => rfl
  | cons ch l => cases (nextConv_urgent hu).symm.trans h

/-- An urgent request to a converter that converts nothing begins at once: none is left waiting (R416). -/
theorem urgentAt_tsmUrgentWrite_idle {v : Nat} (hw : wf (fun _ => ([] : List Nat)) s.tsm.urgent = true) (hb : wf (fun _ => 0) s.tsm.busy = true)
    (hv : bits v 3 0 < 9) (hidle : get (fun _ => 0) s.tsm.busy (bits v 3 0) = 0) (h : nextConv s (bits v 3 0) = none) :
    urgentAt (tsmUrgentWrite v s) (bits v 3 0) = [] := by
  obtain ⟨hurgent, hbusy⟩ := beginConv_idle h
  have hempty : urgentAt (beginConv (bits v 3 0) s) (bits v 3 0) = [] := by
    rw [urgentAt, hurgent]
    exact urgentAt_of_nextConv_none h
  have hstill : get (fun _ => 0) (beginConv (bits v 3 0) s).tsm.busy (bits v 3 0) = 0 := by rw [hbusy, get_put hb]
  have hone : get (fun _ => ([] : List Nat)) (put (fun _ => []) (beginConv (bits v 3 0) s).tsm.urgent (bits v 3 0) [bits v 8 4]) (bits v 3 0) =
      [bits v 8 4] := get_put (hurgent ▸ hw)
  unfold tsmUrgentWrite
  simp only [if_neg (Nat.not_le.2 hv), hidle, beq_self_eq_true, if_true, hempty, List.length_nil, List.nil_append, hstill]
  exact urgentAt_beginConv (wf_put (hurgent ▸ hw)) hone

end

/-- A part out of reset whose hub converter, 8, has begun nothing and has all of its channels disabled. -/
def quietHub : State :=
  { State.reset with
    regs := (List.range 11).map fun ch => (bankKey Reg.TSM_CH_WIN (32 * 8 + ch), 0)
    pwr := { Pwr.init with inReset := false } }

theorem quietHub_arrives : (arrive quietHub).tsm = Tsm.init ∧ nextConv (arrive quietHub) 8 = none := by decide

/-- Refutes O43: the hub converter of `quietHub` begins an urgent conversion of its channel 0 at once, so the request does not come to stand
behind those that wait, as the clause on TSM_URGENT says of every converter with fewer than four waiting. -/
theorem not_registerCommands : ¬ Obligations.RegisterCommands := by
  unfold Obligations.RegisterCommands
  intro h
  obtain ⟨-, -, -, -, -, -, -, -, hurgent, -⟩ := h .host 8 quietHub (by decide) rfl
  obtain ⟨htsm, hnext⟩ := quietHub_arrives
  have hserved : exec (.tsmUrgent .host 8) quietHub = .next (withQueue quietHub.pending (tsmUrgentWrite 8 (arrive quietHub))) :=
    accessed_open rfl (execTsmUrgent .host 8)
  have hconv : bits (8 : Word).toNat 3 0 = 8 := rfl
  generalize arrive quietHub = s at *
  have hnone : urgentAt s 8 = [] := urgentAt_of_nextConv_none hnext
  have hwf : wf (fun _ => ([] : List Nat)) s.tsm.urgent = true := by rw [htsm]; rfl
  have hbegun : urgentAt (tsmUrgentWrite 8 s) 8 = [] :=
    urgentAt_tsmUrgentWrite_idle (v := 8) hwf (by rw [htsm]; rfl) (by decide) (by rw [htsm]; rfl) hnext
  rw [hconv, hnone] at hurgent
  obtain ⟨t, hx, ht, -⟩ := hurgent (by decide) (by decide) hwf
  obtain rfl := Host.Outcome.next.inj (hserved.symm.trans hx)
  rw [urgentAt_withQueue, hbegun] at ht
  cases ht

end Sys2Proof.Machine
end

section
/-! PROOFS. What an ACC word may change (R127 to R131): its own tile and that tile's fold positions, and nothing else of the part's memories. -/
namespace Sys2Proof.Machine

/-! ### The frame of an ACC word -/

/-- What decides the time, the declared fold area and DRAM. -/
def tileFrame (s : State) := (s.time, s.casting, s.dram)

/-- All that the statements on accumulators speak of, registers and what is in flight apart. -/
def accView (s : State) := (s.cells, tileFrame s)

theorem foldArea_congr {s t : State} (h : tileFrame t = tileFrame s) (c : Nat) : foldArea t c = foldArea s c := by
  simp only [tileFrame, Prod.mk.injEq] at h
  obtain ⟨-, hcasting, hdram⟩ := h
  simp only [foldArea, tileDecl, resEntries, sectionOf, dramNat, dramGet, dramByte, markOf, hcasting, hdram]

theorem now_of_tileFrame {s t : State} (h : tileFrame t = tileFrame s) : now t = now s := congrArg (fun x => x.1.tick.toNat) h

/-- From `z` to `t` only tile `n` of cell `c` and its fold positions have changed; `t` is in canonical form. -/
structure TileOnly (c n : Nat) (z t : State) : Prop where
  canon : Canon t
  acc : ∀ m j, m ≠ n → (∀ k, k < foldArea z c → m ≠ foldTile (foldArea z c) n k) → j < 256 → accAt t c m j = accAt z c m j
  side : ∀ m j, m ≠ n → j < 256 → sideAt t c m j = sideAt z c m j
  tile : ∀ m, m ≠ n → tileAt t c m = tileAt z c m
  aside : accAside (cellAt t c) = accAside (cellAt z c)
  other : ∀ b, b ≠ c → cellAt t b = cellAt z b
  frame : tileFrame t = tileFrame z

section
variable {c n : Nat} {z t u : State}

theorem tileOnly_self (h : Canon z) (c n : Nat) : TileOnly c n z z :=
  ⟨h, fun _ _ _ _ _ => rfl, fun _ _ _ _ => rfl, fun _ _ => rfl, rfl, fun _ _ => rfl, rfl⟩

theorem TileOnly.area (h : TileOnly c n z t) : foldArea t c = foldArea z c := foldArea_congr h.frame c

theorem TileOnly.dram (h : TileOnly c n z t) : t.dram = z.dram := congrArg (fun x => x.2.2) h.frame

theorem TileOnly.now (h : TileOnly c n z t) : now t = now z := now_of_tileFrame h.frame

theorem TileOnly.spGet (h : TileOnly c n z t) (addr k : Nat) : spGet t c addr k = spGet z c addr k := by
  have hsp : (accAside (cellAt t c)).sp = (accAside (cellAt z c)).sp := congrArg Cell.sp h.aside
  change (cellAt t c).sp = (cellAt z c).sp at hsp
  rw [Machine.spGet, hsp, ← Machine.spGet]

/-- Registers, reports and flights are no part of it. -/
theorem TileOnly.congr (h : TileOnly c n z t) (hu : Canon u) (hv : accView u = accView t) : TileOnly c n z u := by
  simp only [accView, Prod.mk.injEq] at hv
  obtain ⟨hcells, hframe⟩ := hv
  have hcell : ∀ b, cellAt u b = cellAt t b := cellAt_congr hcells
  refine ⟨hu, ?_, ?_, ?_, ?_, ?_, hframe.trans h.frame⟩
  · simpa only [accAt, hcell] using h.acc
  · simpa only [sideAt, hcell] using h.side
  · simpa only [tileAt, hcell] using h.tile
  · simpa only [hcell] using h.aside
  · simpa only [hcell] using h.other

/-- Values of the tile's own slots and bindings read through `accView`. -/
theorem accAt_congr (hv : accView u = accView t) (m j : Nat) : accAt u c m j = accAt t c m j := by
  rw [accAt, cellAt_congr (congrArg Prod.fst hv), ← accAt]

theorem sideAt_congr (hv : accView u = accView t) (m j : Nat) : sideAt u c m j = sideAt t c m j := by
  rw [sideAt, cellAt_congr (congrArg Prod.fst hv), ← sideAt]

theorem tileAt_congr (hv : accView u = accView t) (m : Nat) : tileAt u c m = tileAt t c m := by
  rw [tileAt, cellAt_congr (congrArg Prod.fst hv), ← tileAt]

end

/-! ### Operations on a tile -/

section
variable {c n : Nat} {z t s : State}

theorem TileOnly.setTile (h : TileOnly c n z t) (x : Tile) : TileOnly c n z (setTile c n x t) where
  canon := canon_setTile h.canon
  acc m j hm hk hj := (accAt_setTile h.canon c n x m j).trans (h.acc m j hm hk hj)
  side m j hm hj := (sideAt_setTile h.canon c n x m j).trans (h.side m j hm hj)
  tile m hm := (tileAt_setTile_ne h.canon c x hm).trans (h.tile m hm)
  aside := by
    rw [Machine.setTile, cellAt_onCell h.canon.cells]
    exact h.aside
  other b hb := (cellAt_onCell_ne h.canon.cells _ hb).trans (h.other b hb)
  frame := h.frame

theorem TileOnly.setAcc (h : TileOnly c n z t) {j : Nat} (hj : j < 256) (v : F16) : TileOnly c n z (setAcc c n j v t) where
  canon := canon_setAcc h.canon
  acc m i hm hk hi := (accAt_setAcc_ne h.canon c v (by omega)).trans (h.acc m i hm hk hi)
  side m i hm hi := (sideAt_setAcc h.canon c n j v m i).trans (h.side m i hm hi)
  tile m hm := (tileAt_setAcc h.canon c n j v m).trans (h.tile m hm)
  aside := by
    rw [Machine.setAcc, cellAt_onCell h.canon.cells]
    exact h.aside
  other b hb := (cellAt_onCell_ne h.canon.cells _ hb).trans (h.other b hb)
  frame := h.frame

/-- A tile that is neither the one cleared nor one of its fold tiles keeps its values. -/
theorem accAt_clearSlots_other (h : Canon s) {lo hi m j : Nat} (hj : j < 256) (hm : m ≠ n)
    (hk : ∀ k, k < foldArea s c → m ≠ foldTile (foldArea s c) n k) : accAt (clearSlots c n lo hi s) c m j = accAt s c m j := by
  have hdiv : (m * 256 + j) / 256 = m := by omega
  have hout : (n :: (List.range (foldArea s c)).map (foldTile (foldArea s c) n)).contains m = false := by
    rw [List.contains_eq_mem, decide_eq_false_iff_not, List.mem_cons, List.mem_map]
    rintro (e | ⟨k, hmem, e⟩)
    · exact hm e
    · exact hk k (List.mem_range.1 hmem) e.symm
  rw [accAt, clearSlots, cellAt_onCell h.cells]
  dsimp only
  refine get_forget_not ?_ (cellCanon_at h c).acc
  rw [hdiv, hout, Bool.false_and]

/-- Side words of other tiles, and of slots outside the range, keep their values. -/
theorem sideAt_clearSlots_ne (h : Canon s) {lo hi m j : Nat} (hj : j < 256) (hout : m ≠ n ∨ j < lo ∨ hi ≤ j) :
    sideAt (clearSlots c n lo hi s) c m j = sideAt s c m j := by
  have hdiv : (m * 256 + j) / 256 = m := by omega
  have hmod : (m * 256 + j) % 256 = j := by omega
  rw [sideAt, clearSlots, cellAt_onCell h.cells]
  dsimp only
  refine congrArg BitVec.toNat (get_forget_not ?_ (cellCanon_at h c).side)
  rw [hdiv, hmod]
  simp only [Bool.and_eq_false_iff, beq_eq_false_iff_ne, decide_eq_false_iff_not]
  omega

theorem TileOnly.clearSlots (h : TileOnly c n z t) (lo hi : Nat) : TileOnly c n z (clearSlots c n lo hi t) where
  canon := canon_clearSlots h.canon
  acc m j hm hk hj := (accAt_clearSlots_other h.canon hj hm (h.area ▸ hk)).trans (h.acc m j hm hk hj)
  side m j hm hj := (sideAt_clearSlots_ne h.canon hj (.inl hm)).trans (h.side m j hm hj)
  tile m hm := (tileAt_clearSlots h.canon c n lo hi m).trans (h.tile m hm)
  aside := by
    rw [Machine.clearSlots, cellAt_onCell h.canon.cells]
    exact h.aside
  other b hb := (cellAt_onCell_ne h.canon.cells _ hb).trans (h.other b hb)
  frame := h.frame

end

/-! ### Reads, counts and reports leave the accumulators alone -/

theorem keptByCounts_accView {v} : KeptByCounts fun s => accView s = v where
  toKeptByReports := keptByReports_view (g := accView)
  count h := h
  late h := h

theorem keptByCounts_flights {v : List Flight} : KeptByCounts fun s => s.flights = v where
  toKeptByReports := keptByReports_view (g := State.flights)
  count h := h
  late h := h

/-! ### The tile port (R128) -/

/-- The port of tile `n` is claimed for its tick and `span` ticks more. -/
def portClaimed (c n span : Nat) (s : State) : State := setTile c n { tileAt s c n with busy := now s + span + 1 } s

theorem claimPort_free {c n span : Nat} {before : Bool} {w : Slot} {body : State → State} {s : State} (h : portTaken s c n span before = false) :
    claimPort c n span before w body s = body (portClaimed c n span s) := if_neg (Bool.eq_false_iff.1 h)

theorem tileOnly_portClaimed {z : State} (h : Canon z) (c n span : Nat) : TileOnly c n z (portClaimed c n span z) :=
  (tileOnly_self h c n).setTile _

theorem tileAt_portClaimed {z : State} (h : Canon z) (c n span : Nat) :
    tileAt (portClaimed c n span z) c n = { tileAt z c n with busy := now z + span + 1 } := tileAt_setTile h c n _

end Sys2Proof.Machine
end

section
/-! PROOFS. CLEAR and PRELOAD (R127, R128; log 23): both empty and bind their tile, and PRELOAD then writes its 256 values. -/
namespace Sys2Proof.Machine

/-! ### A tile emptied and bound -/

section
variable {c : Nat} {w : Slot} {z s : State}

/-- The binding that a word gives its tile, whose port is claimed up to tick `busy`. -/
def boundBy (w : Slot) (busy : Nat) : Tile :=
  ⟨true, BitVec.ofNat 16 (opf w 84 69), BitVec.ofNat 32 (opf w 63 32), Fin.ofNat 16 (opf w 88 85), flagOf w 0, busy⟩

/-- The tile of a CLEAR or PRELOAD is emptied and bound. -/
def emptied (c : Nat) (w : Slot) (s : State) : State := bindTile c w (clearTile c (accTile w) s)

/-- From `z` to `t` only a word's tile and its fold positions have changed: they are empty, and the tile is bound. -/
structure Emptied (c : Nat) (w : Slot) (busy : Nat) (z t : State) : Prop extends TileOnly c (accTile w) z t where
  zero : ∀ j, j < 256 → accAt t c (accTile w) j = 0
  sideZero : ∀ j, j < 256 → sideAt t c (accTile w) j = 0
  foldZero : ∀ k j, k < foldArea z c → j < 256 → accAt t c (foldTile (foldArea z c) (accTile w) k) j = 0
  bound : tileAt t c (accTile w) = boundBy w busy

theorem emptied_values (h : TileOnly c (accTile w) z s) : Emptied c w (tileAt s c (accTile w)).busy z (emptied c w s) := by
  have hclear : Canon (clearTile c (accTile w) s) := canon_clearTile h.canon
  have hacc : ∀ {m j}, j < 256 → (m = accTile w ∨ ∃ k, k < foldArea s c ∧ m = foldTile (foldArea s c) (accTile w) k) →
      accAt (emptied c w s) c m j = 0 := fun hj hm => (accAt_setTile hclear ..).trans (accAt_clearTile h.canon hj hm)
  refine ⟨(h.clearSlots 0 256).setTile _, fun j hj => hacc hj (.inl rfl), fun j hj => ?_, fun k j hk hj => ?_, ?_⟩
  · exact (sideAt_setTile hclear ..).trans (sideAt_clearTile h.canon hj)
  · rw [← h.area] at hk ⊢
    exact hacc hj (.inr ⟨k, hk, rfl⟩)
  · refine (tileAt_setTile hclear ..).trans ?_
    rw [tileAt_clearTile h.canon]
    rfl

/-- Emptying a tile whose port is claimed touches no register and nothing in flight. -/
theorem emptied_keeps (c n span : Nat) (w : Slot) (s : State) : (emptied c w (portClaimed c n span s)).regs = s.regs ∧
    (emptied c w (portClaimed c n span s)).flights = s.flights := ⟨rfl, rfl⟩

end

/-! ### The values of a PRELOAD (R127) -/

section
variable {α : Type} {d : List Byte}

theorem chunks_length (n : Nat) : ∀ (k : Nat) (l : List α), (chunks n k l).length = k
  | 0, _ => rfl
  | k + 1, l => congrArg (· + 1) (chunks_length n k (l.drop n))

/-- Two bytes make a code of 16 bits. -/
theorem codesOf_length : (codesOf 0 d).length = d.length / 2 := by
  rw [codesOf, if_pos rfl, List.length_map, chunks_length]

end

section
variable {c : Nat} {w : Slot} {z s : State}

/-- The 256 source values of a PRELOAD. -/
def preloadSource (c : Nat) (w : Slot) (s : State) : List F16 := (codesOf 0 (spGet s c (64 * opf w 31 19) 512)).map (BitVec.ofNat 16)

theorem preloadSource_length : (preloadSource c w s).length = 256 := by
  rw [preloadSource, List.length_map, codesOf_length, spGet, getBytes_length]

/-- Values go to the slots of a tile in turn. -/
def slotsFilled (c n : Nat) (vals : List (F16 × Bool)) (s : State) : State :=
  each ((List.range 256).zip vals) (fun p s => setAcc c n p.1 p.2.1 s) s

/-- What a PRELOAD reports of its values: their checks where hk is set, and those that were not finite. -/
def preloadReported (c : Nat) (w : Slot) (src : List F16) (s : State) : State :=
  let vals := src.map preloadValue
  let s := if flagOf w 0 then noteCheck 2 c (((List.range 256).zip (src.zip vals)).map fun p =>
      (if p.2.2.2 then twiceCheck p.2.2.1 else sumCheck [dyF16 p.2.1] p.2.2.1).at_ (.acc c (accTile w * 256 + p.1))) s else s
  let bad := (vals.filter (·.2)).length
  if bad = 0 then s else sticky (cellKey c Reg.ACC_STICKY) 2 (arrOvf c (opf w 88 85) bad s)

/-- A PRELOAD that has its port. -/
def preloaded (c : Nat) (w : Slot) (s : State) : State :=
  let u := spRead 2 c (64 * opf w 31 19) 512 s
  preloadReported c w (preloadSource c w u) (slotsFilled c (accTile w) ((preloadSource c w u).map preloadValue) (emptied c w u))

theorem preloadAct_eq (w : Slot) (s : State) : preloadAct w s =
    claimPort (placePhys s w.place) (accTile w) 3 true w (preloaded (placePhys s w.place) w) s := rfl

theorem clearAct_eq (w : Slot) (s : State) : clearAct w s =
    claimPort (placePhys s w.place) (accTile w) 0 true w (emptied (placePhys s w.place) w) s := rfl

theorem noteCheck_accView (unit place : Nat) (vals : List CheckVal) (s : State) : accView (noteCheck unit place vals s) = accView s := by
  unfold noteCheck
  split <;> rfl

theorem noteCheck_flights (unit place : Nat) (vals : List CheckVal) (s : State) : (noteCheck unit place vals s).flights = s.flights := by
  unfold noteCheck
  split <;> rfl

/-- The reports change neither the accumulators nor what is in flight. -/
theorem preloadReported_keeps (c : Nat) (w : Slot) (src : List F16) (s : State) :
    accView (preloadReported c w src s) = accView s ∧ (preloadReported c w src s).flights = s.flights := by
  unfold preloadReported
  extract_lets vals s1 bad
  have h1 : accView s1 = accView s ∧ s1.flights = s.flights := by
    unfold s1
    split
    · exact ⟨noteCheck_accView .., noteCheck_flights ..⟩
    · exact ⟨rfl, rfl⟩
  split
  · exact h1
  · exact ⟨keptByCounts_accView.setBit _ _ (keptByCounts_accView.arrOvf _ _ _ h1.1),
      keptByCounts_flights.setBit _ _ (keptByCounts_flights.arrOvf _ _ _ h1.2)⟩

theorem canon_preloadReported {src : List F16} (h : Canon s) : Canon (preloadReported c w src s) := by
  unfold preloadReported
  extract_lets vals s1 bad
  have h1 : Canon s1 := canon_ite (canon_noteCheck h) h
  exact canon_ite h1 (canon_sticky (canon_arrOvf h1))

/-- A tile whose slots are filled has the values in them; its side words and binding stay. -/
theorem slotsFilled_values {n : Nat} {vals : List (F16 × Bool)} (h : TileOnly c n z s) (hl : vals.length = 256) :
    let t := slotsFilled c n vals s
    TileOnly c n z t ∧ (∀ j, sideAt t c n j = sideAt s c n j) ∧ tileAt t c n = tileAt s c n ∧ t.flights = s.flights ∧
    (∀ j v, vals[j]? = some v → accAt t c n j = v.1) ∧
    ∀ m j, m ≠ n → j < 256 → accAt t c m j = accAt s c m j := by
  intro t
  have hround : ∀ p ∈ (List.range 256).zip vals, p.1 < 256 := fun p hp => List.mem_range.1 (List.of_mem_zip hp).1
  refine ⟨?only, ?side, ?tile, ?flights, fun j v hv => ?acc, fun m j hm hj => ?others⟩
  case only => exact each_inv _ (fun p hp _ hu => hu.setAcc (hround p hp) p.2.1) h
  case side =>
    intro j
    exact (each_inv (fun u => Canon u ∧ sideAt u c n j = sideAt s c n j)
      (fun p _ _ hu => ⟨canon_setAcc hu.1, (sideAt_setAcc hu.1 ..).trans hu.2⟩) ⟨h.canon, rfl⟩).2
  case tile =>
    exact (each_inv (fun u => Canon u ∧ tileAt u c n = tileAt s c n)
      (fun p _ _ hu => ⟨canon_setAcc hu.1, (tileAt_setAcc hu.1 ..).trans hu.2⟩) ⟨h.canon, rfl⟩).2
  case flights => exact each_keeps State.flights (f := fun (p : Nat × F16 × Bool) s => setAcc c n p.1 p.2.1 s) (fun _ _ => rfl) s
  case acc =>
    have hset := accAt_eachSet Prod.fst c n vals 0 h.canon j
    rw [← List.range_eq_range', hl] at hset
    refine hset.trans ?_
    simp only [Nat.zero_le, if_true, Nat.sub_zero, hv, Option.map_some, Option.getD_some]
  case others =>
    exact (each_inv (fun u => Canon u ∧ accAt u c m j = accAt s c m j)
      (fun p hp _ hu => ⟨canon_setAcc hu.1, (accAt_setAcc_ne hu.1 c _ (by have := hround p hp; omega)).trans hu.2⟩) ⟨h.canon, rfl⟩).2

/-- What a PRELOAD leaves. -/
theorem preloaded_values (h : TileOnly c (accTile w) z s) : let t := preloaded c w s
    TileOnly c (accTile w) z t ∧ t.flights = s.flights ∧ tileAt t c (accTile w) = boundBy w (tileAt s c (accTile w)).busy ∧
    (∀ j, j < 256 → sideAt t c (accTile w) j = 0) ∧
    (∀ k j, k < foldArea z c → foldTile (foldArea z c) (accTile w) k ≠ accTile w → j < 256 →
      accAt t c (foldTile (foldArea z c) (accTile w) k) j = 0) ∧
    ∀ j, j < 256 → ∃ v, (codesOf 0 (spGet z c (64 * opf w 31 19) 512))[j]? = some v ∧
      accAt t c (accTile w) j = (preloadValue (BitVec.ofNat 16 v)).1 := by
  intro t
  have hread : accView (spRead 2 c (64 * opf w 31 19) 512 s) = accView s := keptByCounts_accView.toKeptByTaints.spRead _ _ _ _ rfl
  have hreadFlights : (spRead 2 c (64 * opf w 31 19) 512 s).flights = s.flights := keptByCounts_flights.toKeptByTaints.spRead _ _ _ _ rfl
  have hu : TileOnly c (accTile w) z (spRead 2 c (64 * opf w 31 19) 512 s) := h.congr (canon_spRead h.canon) hread
  have ht : t = preloaded c w s := rfl
  unfold preloaded at ht
  generalize spRead 2 c (64 * opf w 31 19) 512 s = u at *
  have hempty : Emptied c w (tileAt u c (accTile w)).busy z (emptied c w u) := emptied_values hu
  obtain ⟨honly, hside, htile, hflights, hacc, hothers⟩ :=
    slotsFilled_values (vals := (preloadSource c w u).map preloadValue) hempty.toTileOnly (by rw [List.length_map, preloadSource_length])
  obtain ⟨hview, hreported⟩ := preloadReported_keeps c w (preloadSource c w u)
    (slotsFilled c (accTile w) ((preloadSource c w u).map preloadValue) (emptied c w u))
  rw [← ht] at hview hreported
  refine ⟨honly.congr (ht ▸ canon_preloadReported honly.canon) hview, ?flights, ?bound, fun j hj => ?side,
    fun k j hk hne hj => ?folds, fun j hj => ?values⟩
  case flights => exact hreported.trans (hflights.trans hreadFlights)
  case bound => rw [tileAt_congr hview, htile, hempty.bound, tileAt_congr hread]
  case side => rw [sideAt_congr hview, hside, hempty.sideZero j hj]
  case folds => rw [accAt_congr hview, hothers _ _ hne hj, hempty.foldZero k j hk hj]
  case values =>
    have hlen : (codesOf 0 (spGet z c (64 * opf w 31 19) 512)).length = 256 := by rw [codesOf_length, spGet, getBytes_length]
    have hget := List.getElem?_eq_getElem (hlen.symm ▸ hj)
    refine ⟨_, hget, ?_⟩
    rw [accAt_congr hview]
    refine hacc j _ ?_
    rw [preloadSource, hu.spGet, List.getElem?_map, List.getElem?_map, hget]
    rfl

end

/-- Settles O7: the word has its port; what it does there empties and binds its tile, and a PRELOAD's values then fill it. -/
theorem tileFillsFromWord : Obligations.TileFillsFromWord := by
  unfold Obligations.TileFillsFromWord
  refine ⟨?clear, ?preload⟩
  case clear =>
    intro w s hs ha s' c n hport
    have hz : Canon s' := canon_atIssue (canon_iff.1 hs)
    have hx : exec (.clear w) s = .next (withQueue s.pending (emptied c w (portClaimed c n 0 s'))) := by
      rw [exec_acts (body := clearAct w) rfl ha, clearAct_eq, claimPort_free hport]
    have hempty := emptied_values (w := w) (tileOnly_portClaimed hz c n 0)
    rw [tileAt_portClaimed hz] at hempty
    obtain ⟨hregs, hflights⟩ := emptied_keeps c n 0 w s'
    clear_value s'
    generalize emptied c w (portClaimed c n 0 s') = t at *
    refine ⟨_, hx, fun j hj => ⟨hempty.zero j hj, hempty.sideZero j hj⟩, hempty.foldZero, hempty.bound, hempty.acc, hempty.side, hempty.aside,
      hempty.tile, hempty.other, hregs, hempty.dram, hflights⟩
  case preload =>
    intro w s hs ha s' c n hport
    have hz : Canon s' := canon_atIssue (canon_iff.1 hs)
    have hx : exec (.preload w) s = .next (withQueue s.pending (preloaded c w (portClaimed c n 3 s'))) := by
      rw [exec_acts (body := preloadAct w) rfl ha, preloadAct_eq, claimPort_free hport]
    obtain ⟨honly, hflights, hbound, hside, hfolds, hvalues⟩ := preloaded_values (w := w) (tileOnly_portClaimed hz c n 3)
    rw [tileAt_portClaimed hz] at hbound
    clear_value s'
    generalize preloaded c w (portClaimed c n 3 s') = t at *
    refine ⟨_, hx, fun j hj => ?_, hbound, hfolds, honly.acc, honly.side, honly.aside, honly.tile, honly.other, honly.dram, hflights⟩
    obtain ⟨v, hv, hacc⟩ := hvalues j hj
    exact ⟨v, hv, hacc, hside j hj⟩

end Sys2Proof.Machine
end

section
/-! PROOFS. The read of 64 slots by a drain (R131, R132): what it sends on its way, what it counts, and what a DRAINCLR clears. -/
namespace Sys2Proof.Machine

/-! ### What a read sends on its way -/

/-- The values that a drain combines on its read `q`: for each slot its running value, then its fold positions. -/
def drainRows (c n q : Nat) (s : State) : List (List F16) :=
  (List.range 64).map fun j => accAt s c n (64 * q + j) ::
    (List.range (foldArea s c)).map fun k => accAt s c (foldTile (foldArea s c) n k) (64 * q + j)

/-- The combined values. -/
def drainOut (c n q : Nat) (s : State) : List F16 := (drainRows c n q s).map fun r => (drainLevels 4 r).1

/-- What read `q` puts in flight: its 64 values, and their checks where hk is set. -/
def drainFlights (c n addr land : Nat) (hk : Bool) (q : Nat) (s : State) : List Flight :=
  ⟨land, .sp c (addr + 128 * q) ((drainOut c n q s).flatMap fun v => natLE 2 v.toNat)⟩ ::
    (if hk then [⟨land, .check 2 c (((List.range 64).zip ((drainRows c n q s).zip (drainOut c n q s))).map fun p =>
      (sumCheck (p.2.1.map dyF16) p.2.2).at_ (.sp c (8 * (addr + 2 * (64 * q + p.1)))))⟩] else [])

/-- The check bits of what a drain reads are read, and the sums that saturate are counted (R132, R337). -/
def drainCounted (c n q : Nat) (s : State) : State :=
  let ts := n :: (List.range (foldArea s c)).map (foldTile (foldArea s c) n)
  let sats := ((drainRows c n q s).map (drainLevels 4)).foldl (fun k v => k + v.2) 0
  let u := each ((cellAt s c).ecc.filter fun kv =>
      decide (kv.1 / 2 ^ 24 = 3) && ts.contains (kv.1 % 2 ^ 24 / 256) && decide (kv.1 % 256 / 64 = q))
    (fun kv s => eccRead c 3 (kv.1 % 2 ^ 24) s) s
  if sats = 0 then u else sticky (cellKey c Reg.ACC_STICKY) 0 (arrOvf c (tileAt u c n).ovf.val sats u)

/-- A DRAINCLR clears the slots of its read `q`. -/
def drainCleared (clr : Bool) (c n q : Nat) (s : State) : State := if clr then clearSlots c n (64 * q) (64 * q + 64) s else s

/-- What a read has counted and sent, before a DRAINCLR clears its slots. -/
def drainSent (c n addr land : Nat) (hk : Bool) (q : Nat) (s : State) : State :=
  { drainCounted c n q s with flights := (drainCounted c n q s).flights ++ drainFlights c n addr land hk q s }

theorem drainRead_eq (c n addr land : Nat) (clr hk : Bool) (q : Nat) (s : State) : drainRead c n addr land clr hk q s =
    drainCleared clr c n q (drainSent c n addr land hk q s) := by
  have hrows : ((List.range 64).map (64 * q + ·)).map (fun j => accAt s c n j ::
      (List.range (foldArea s c)).map fun k => accAt s c (foldTile (foldArea s c) n k) j) = drainRows c n q s := List.map_map
  have hout : ((drainRows c n q s).map (drainLevels 4)).flatMap (fun v => natLE 2 v.1.toNat) =
      (drainOut c n q s).flatMap fun v => natLE 2 v.toNat := by
    rw [drainOut, List.flatMap_map, List.flatMap_map]
  have hchecks : (((List.range 64).map (64 * q + ·)).zip ((drainRows c n q s).zip ((drainRows c n q s).map (drainLevels 4)))).map
        (fun p => (sumCheck (p.2.1.map dyF16) p.2.2.1).at_ (.sp c (8 * (addr + 2 * p.1)))) =
      ((List.range 64).zip ((drainRows c n q s).zip (drainOut c n q s))).map
        fun p => (sumCheck (p.2.1.map dyF16) p.2.2).at_ (.sp c (8 * (addr + 2 * (64 * q + p.1)))) := by
    simp only [drainOut, List.zip_map_left, List.zip_map_right, List.map_map]
    rfl
  unfold drainRead
  dsimp only
  rw [hrows, hout, hchecks]
  cases hk
  case false => rfl
  case true =>
    simp only [launch, drainSent, drainFlights, List.append_assoc]
    rfl

/-! ### What a read counts -/

/-- The registers that a drain of cell `c` counts and reports in, those of its taints apart. -/
def drainKey (c k : Nat) : Bool :=
  k == Reg.SCH_STEP_STICKY || [Reg.ACC_ECC, Reg.ACC_STICKY].any (fun off => k == cellKey c off)
    || (List.range 16).any fun i => k == cellKey c (Reg.ARR_OVF + 4 * i)

/-- `P` says nothing of what the check bits and overflows of a drain of cell `c` write. -/
structure KeptByDrains (c : Nat) (P : State → Prop) : Prop extends KeptByTaints P where
  count : ∀ {k v : Nat} {s : State}, drainKey c k = true → P s → P (Machine.wr k v s)
  late : ∀ {s : State} {n : Nat}, P s → P { s with run := { s.run with lateOvf := n } }

theorem drainKey_step (c : Nat) : drainKey c Reg.SCH_STEP_STICKY = true := by simp [drainKey]

theorem drainKey_ecc (c : Nat) : drainKey c (cellKey c Reg.ACC_ECC) = true := by simp [drainKey]

theorem drainKey_sticky (c : Nat) : drainKey c (cellKey c Reg.ACC_STICKY) = true := by simp [drainKey]

theorem drainKey_ovf (c : Nat) {k : Nat} (hk : k < 16) : drainKey c (cellKey c (Reg.ARR_OVF + 4 * k)) = true := by
  unfold drainKey
  rw [Bool.or_eq_true, List.any_eq_true]
  exact .inr ⟨k, List.mem_range.2 hk, beq_self_eq_true _⟩

namespace KeptByDrains
variable {c : Nat} {P : State → Prop} (hP : KeptByDrains c P) {s : State}
include hP

theorem setBit {k : Nat} (bit : Nat) (hk : drainKey c k = true) (h : P s) : P (Machine.sticky k bit s) := hP.side (hP.count hk h)

theorem eccRead (index : Nat) (h : P s) : P (eccRead c 3 index s) := by
  unfold Machine.eccRead
  split
  · exact h
  · dsimp only
    split
    · exact hP.count (drainKey_ecc c) (hP.noteCorrected _ _ h)
    · exact hP.taintCell _ _ _ _ (hP.setBit _ (drainKey_sticky c) (hP.count (drainKey_ecc c) h))

theorem arrOvf {k : Nat} (hk : k < 16) (n : Nat) (h : P s) : P (arrOvf c k n s) := by
  unfold Machine.arrOvf
  split
  · exact h
  · split
    · exact hP.setBit _ (drainKey_step c) h
    · extract_lets s1
      have h1 : P s1 := hP.count (drainKey_ovf c hk) h
      split
      · exact hP.setBit _ (drainKey_step c) (hP.late h1)
      · exact h1

theorem drainCounted (n q : Nat) (h : P s) : P (drainCounted c n q s) := by
  unfold Machine.drainCounted
  extract_lets ts sats u
  have h1 : P u := each_inv P (fun kv _ _ h => hP.eccRead _ h) h
  split
  · exact h1
  · exact hP.setBit _ (drainKey_sticky c) (hP.arrOvf (tileAt u c n).ovf.isLt _ h1)

end KeptByDrains

/-- From `z` to `t` a drain of cell `c` has only counted and reported. -/
structure Counted (c : Nat) (z t : State) : Prop where
  canon : Canon t
  view : accView t = accView z
  flights : t.flights = z.flights
  regs : ∀ q, recKey q = false → taintKey q = false → drainKey c q = false → rd t q = rd z q

section
variable {c n q : Nat} {z t s : State}

theorem keptByDrains_counted : KeptByDrains c (Counted c z) where
  wr hk h := ⟨canon_wr h.canon, h.view, h.flights, fun q hr ht hd =>
    (rd_wr_ne h.canon.regs _ (ne_of_key hk hr).symm).trans (h.regs q hr ht hd)⟩
  side h := ⟨canon_mk h.canon, h.view, h.flights, h.regs⟩
  tainted hk h := ⟨canon_wr h.canon, h.view, h.flights, fun q hr ht hd =>
    (rd_wr_ne h.canon.regs _ (ne_of_key hk ht).symm).trans (h.regs q hr ht hd)⟩
  marks _ h := ⟨canon_mk h.canon, h.view, h.flights, h.regs⟩
  count hk h := ⟨canon_wr h.canon, h.view, h.flights, fun q hr ht hd =>
    (rd_wr_ne h.canon.regs _ (ne_of_key hk hd).symm).trans (h.regs q hr ht hd)⟩
  late h := ⟨canon_mk h.canon, h.view, h.flights, h.regs⟩

theorem counted_drainCounted (h : Canon z) (c n q : Nat) : Counted c z (drainCounted c n q z) :=
  keptByDrains_counted.drainCounted n q ⟨h, rfl, rfl, fun _ _ _ _ => rfl⟩

end

/-! ### What a read leaves -/

section
variable {c n addr land q : Nat} {clr hk : Bool} {z s : State}

theorem drainSent_values (h : Canon s) (c n addr land : Nat) (hk : Bool) (q : Nat) : let t := drainSent c n addr land hk q s
    Canon t ∧ accView t = accView s ∧ t.flights = s.flights ++ drainFlights c n addr land hk q s ∧
    ∀ k, recKey k = false → taintKey k = false → drainKey c k = false → rd t k = rd s k := by
  have hc := counted_drainCounted h c n q
  unfold drainSent
  generalize drainCounted c n q s = u at hc
  exact ⟨canon_mk hc.canon, hc.view, congrArg (· ++ drainFlights c n addr land hk q s) hc.flights, hc.regs⟩

theorem canon_drainSent (h : Canon s) (c n addr land : Nat) (hk : Bool) (q : Nat) : Canon (drainSent c n addr land hk q s) := by
  obtain ⟨hcanon, -⟩ := drainSent_values h c n addr land hk q
  exact hcanon

theorem accView_drainSent (h : Canon s) (c n addr land : Nat) (hk : Bool) (q : Nat) :
    accView (drainSent c n addr land hk q s) = accView s := by
  obtain ⟨-, hview, -⟩ := drainSent_values h c n addr land hk q
  exact hview

theorem drainCleared_flights (clr : Bool) (c n q : Nat) (s : State) : (drainCleared clr c n q s).flights = s.flights := by
  cases clr <;> rfl

theorem drainCleared_regs (clr : Bool) (c n q : Nat) (s : State) : (drainCleared clr c n q s).regs = s.regs := by
  cases clr <;> rfl

theorem drainRead_flights (h : Canon s) :
    (drainRead c n addr land clr hk q s).flights = s.flights ++ drainFlights c n addr land hk q s := by
  obtain ⟨-, -, hflights, -⟩ := drainSent_values h c n addr land hk q
  rw [drainRead_eq, drainCleared_flights, hflights]

theorem rd_drainRead (h : Canon s) {k : Nat} (hr : recKey k = false) (ht : taintKey k = false) (hd : drainKey c k = false) :
    rd (drainRead c n addr land clr hk q s) k = rd s k := by
  obtain ⟨-, -, -, hregs⟩ := drainSent_values h c n addr land hk q
  rw [drainRead_eq, rd_congr (drainCleared_regs ..), hregs k hr ht hd]

theorem TileOnly.drainRead (h : TileOnly c n z s) : TileOnly c n z (drainRead c n addr land clr hk q s) := by
  have hsent : TileOnly c n z (drainSent c n addr land hk q s) :=
    h.congr (canon_drainSent h.canon ..) (accView_drainSent h.canon ..)
  rw [drainRead_eq]
  cases clr
  case false => exact hsent
  case true => exact hsent.clearSlots ..

theorem tileAt_drainRead (h : Canon s) (m : Nat) : tileAt (drainRead c n addr land clr hk q s) c m = tileAt s c m := by
  rw [drainRead_eq, ← tileAt_congr (accView_drainSent h c n addr land hk q) m]
  cases clr
  case false => rfl
  case true => exact tileAt_clearSlots (canon_drainSent h ..) ..

/-- A slot is of read `q`, or lies outside its range. -/
theorem slot_of_read (q j : Nat) : (j / 64 = q ∧ 64 * q ≤ j ∧ j < 64 * q + 64) ∨ (j / 64 ≠ q ∧ (j < 64 * q ∨ 64 * q + 64 ≤ j)) := by
  omega

theorem sideAt_drainRead (h : Canon s) {j : Nat} (hj : j < 256) :
    sideAt (drainRead c n addr land clr hk q s) c n j = if clr ∧ j / 64 = q then 0 else sideAt s c n j := by
  have hsent := canon_drainSent h c n addr land hk q
  rw [drainRead_eq, ← sideAt_congr (accView_drainSent h c n addr land hk q) n j]
  cases clr
  case false => exact (if_neg fun hc => Bool.false_ne_true hc.1).symm
  case true =>
    obtain ⟨he, hlo, hhi⟩ | ⟨hne, hout⟩ := slot_of_read q j
    · rw [if_pos ⟨rfl, he⟩]
      exact sideAt_clearSlots hsent hj hlo hhi
    · rw [if_neg fun hc => hne hc.2]
      exact sideAt_clearSlots_ne hsent hj (.inr hout)

theorem accAt_drainRead (h : Canon s) {m j : Nat} (hj : j < 256)
    (hm : m = n ∨ ∃ k, k < foldArea s c ∧ m = foldTile (foldArea s c) n k) :
    accAt (drainRead c n addr land clr hk q s) c m j = if clr ∧ j / 64 = q then 0 else accAt s c m j := by
  have hsent := canon_drainSent h c n addr land hk q
  have hview := accView_drainSent h c n addr land hk q
  rw [drainRead_eq, ← accAt_congr hview m j]
  cases clr
  case false => exact (if_neg fun hc => Bool.false_ne_true hc.1).symm
  case true =>
    obtain ⟨he, hlo, hhi⟩ | ⟨hne, hout⟩ := slot_of_read q j
    · rw [if_pos ⟨rfl, he⟩]
      rw [← foldArea_congr (congrArg Prod.snd hview) c] at hm
      exact accAt_clearSlots hsent hj hlo hhi hm
    · rw [if_neg fun hc => hne hc.2]
      exact accAt_clearSlots_ne hsent hj hout

end

end Sys2Proof.Machine
end

section
/-! PROOFS. DRAIN and DRAINCLR (R128, R131, R132; log 23): the wait is counted, the first read happens at once or is put in flight with the
other three. -/
namespace Sys2Proof.Machine

/-! ### The word that has its port -/

section
variable {clr : Bool} {c wait : Nat} {w : Slot} {z s : State}

/-- A wait of one tick or more is counted and raises the DRAIN violation. -/
def waitCounted (c wait : Nat) (w : Slot) (s : State) : State :=
  if wait = 0 then s
  else wordViol 6 2 w (bumpFld Reg.SCH_DRAIN_WAITS 31 0 wait (bumpFld (cellKey c Reg.ACC_WAITS) 31 0 wait s))

/-- The tick on which a drained tile reaches scratchpad. -/
def drainLand (c wait : Nat) (s : State) : Nat := now s + wait + 24 + 6 * foldLevels (foldArea s c)

/-- The read `q` of a drain. -/
def drainPart (clr : Bool) (w : Slot) (c land q : Nat) : Effect := .drain c (accTile w) (64 * opf w 63 51) land clr (flagOf w 0) q

/-- The flight of read `q`, from the tick of the first one. -/
def partFlight (clr : Bool) (w : Slot) (c first land q : Nat) : Flight := ⟨first + q, drainPart clr w c land q⟩

/-- A drain that has its port. -/
def drained (clr : Bool) (w : Slot) (c wait : Nat) (s : State) : State :=
  let u := waitCounted c wait w s
  let land := now s + wait + 24 + 6 * foldLevels (foldArea u c)
  each [1, 2, 3] (fun q s' => launch (now s + wait + q) (drainPart clr w c land q) s')
    (launchOrLand (now s + wait) (drainPart clr w c land 0) u)

theorem drainAct_eq (clr : Bool) (w : Slot) (s : State) : drainAct clr w s =
    claimPort (placePhys s w.place) (accTile w) (drainWait s (placePhys s w.place) (accTile w) + 3) false w
      (drained clr w (placePhys s w.place) (drainWait s (placePhys s w.place) (accTile w))) s := rfl

/-- With no wait the first read happens at once, and the other three follow tick by tick. -/
theorem drained_at_once (clr : Bool) (w : Slot) (c : Nat) (s : State) :
    let u := drainRead c (accTile w) (64 * opf w 63 51) (drainLand c 0 s) clr (flagOf w 0) 0 s
    drained clr w c 0 s = { u with flights := u.flights ++ [1, 2, 3].map (partFlight clr w c (now s) (drainLand c 0 s)) } := by
  intro u
  have hu : launchOrLand (now s + 0) (drainPart clr w c (drainLand c 0 s) 0) s = u := if_pos (Nat.le_refl (now s))
  exact (congrArg _ hu).trans (each_launches fun _ _ _ => rfl)

/-- A drain that waits puts its four reads in flight. -/
theorem drained_waiting (hw : 0 < wait) (hnow : now (waitCounted c wait w s) = now s)
    (harea : foldArea (waitCounted c wait w s) c = foldArea s c) : let u := waitCounted c wait w s
    drained clr w c wait s =
      { u with flights := u.flights ++ (List.range 4).map (partFlight clr w c (now s + wait) (drainLand c wait s)) } := by
  intro u
  have hu : launchOrLand (now s + wait) (drainPart clr w c (drainLand c wait s) 0) u =
      launch (now s + wait) (drainPart clr w c (drainLand c wait s) 0) u := if_neg (by rw [hnow]; omega)
  unfold drained
  dsimp only
  rw [harea]
  refine (congrArg _ hu).trans ((each_launches (g := partFlight clr w c (now s + wait) (drainLand c wait s)) fun _ _ _ => rfl).trans ?_)
  simp only [launch, List.append_assoc]
  rfl

/-! ### The wait (R131) -/

theorem noteKey_waits (c : Nat) : noteKey (cellKey c Reg.ACC_WAITS) = false :=
  noteKey_eq_false (cellKey_gt _ _) (by unfold cellKey bankKey Reg.ACC_WAITS Reg.SPR_FILL; omega)

theorem drainWaits_ne (c : Nat) : Reg.SCH_DRAIN_WAITS ≠ cellKey c Reg.ACC_WAITS :=
  ((show Reg.SCH_DRAIN_WAITS < 2 ^ 36 by decide).trans_le (cellKey_gt ..)).ne

/-- The waits of the cell and of the part have counted, and the violation stands; nothing but registers and reports has changed. -/
theorem waitCounted_values (h : Canon s) (hw : 0 < wait) : let u := waitCounted c wait w s
    Canon u ∧ accView u = accView s ∧ u.flights = s.flights ∧ fld u Reg.SCH_VIOL 6 6 = 1 ∧
    rd u (cellKey c Reg.ACC_WAITS) = satAdd 32 (rd s (cellKey c Reg.ACC_WAITS)) wait ∧
    rd u Reg.SCH_DRAIN_WAITS = satAdd 32 (rd s Reg.SCH_DRAIN_WAITS) wait := by
  intro u
  have hu : u = wordViol 6 2 w (bumpFld Reg.SCH_DRAIN_WAITS 31 0 wait (bumpFld (cellKey c Reg.ACC_WAITS) 31 0 wait s)) := if_neg (Nat.ne_of_gt hw)
  have h1 : Canon (bumpFld (cellKey c Reg.ACC_WAITS) 31 0 wait s) := canon_wr h
  have h2 : Canon (bumpFld Reg.SCH_DRAIN_WAITS 31 0 wait (bumpFld (cellKey c Reg.ACC_WAITS) 31 0 wait s)) := canon_wr h1
  rw [hu]
  refine ⟨canon_wordViol h2, keptByCounts_accView.viol _ _ _ _ rfl, keptByCounts_flights.viol _ _ _ _ rfl, fld_viol (by decide) .., ?cell, ?part⟩
  case cell =>
    rw [((held_of_canon h2 _).wordViol (noteKey_waits c) 6 2 w).val, rd_bumpFld_ne h1.regs _ _ _ (drainWaits_ne c).symm, rd_bumpFld h.regs]
    rfl
  case part =>
    rw [((held_of_canon h2 _).wordViol (by decide) 6 2 w).val, rd_bumpFld h1.regs, rd_bumpFld_ne h.regs _ _ _ (drainWaits_ne c)]
    rfl

end

/-! ### What the word leaves -/

section
variable {clr : Bool} {c span : Nat} {w : Slot} {z s : State}

theorem recKey_waits (c : Nat) : recKey (cellKey c Reg.ACC_WAITS) = false := key_of_cellKey _ (by decide) rfl

theorem taintKey_waits (c : Nat) : taintKey (cellKey c Reg.ACC_WAITS) = false := key_of_cellKey _ (by decide) rfl

/-- A drain counts in SCH_STEP_STICKY and in registers of its cell below ACC_WAITS alone. -/
theorem drainKey_eq_false {q : Nat} (hstep : q ≠ Reg.SCH_STEP_STICKY) (hcell : ∀ off, off < Reg.ACC_WAITS → q ≠ cellKey c off) :
    drainKey c q = false := by
  have hecc : q ≠ cellKey c Reg.ACC_ECC := hcell _ (by decide)
  have hsticky : q ≠ cellKey c Reg.ACC_STICKY := hcell _ (by decide)
  have hovf : ∀ i ∈ List.range 16, ¬ (q == cellKey c (Reg.ARR_OVF + 4 * i)) = true := by
    intro i hi
    rw [List.mem_range] at hi
    rw [beq_iff_eq]
    exact hcell _ (by unfold Reg.ARR_OVF Reg.ACC_WAITS; omega)
  unfold drainKey
  rw [List.any_eq_false.2 hovf]
  simp [hstep, hecc, hsticky]

theorem drainKey_waits (c : Nat) : drainKey c (cellKey c Reg.ACC_WAITS) = false :=
  drainKey_eq_false ((show Reg.SCH_STEP_STICKY < 2 ^ 36 by decide).trans_le (cellKey_gt ..)).ne' fun _ ho => cellKey_ne c (Nat.ne_of_gt ho)

theorem drainKey_drainWaits (c : Nat) : drainKey c Reg.SCH_DRAIN_WAITS = false :=
  drainKey_eq_false (by decide) fun _ _ => ((show Reg.SCH_DRAIN_WAITS < 2 ^ 36 by decide).trans_le (cellKey_gt ..)).ne

/-- A claimed port changes no slot, so the values read are the same. -/
theorem drainRows_portClaimed (h : Canon z) (c n span q : Nat) : drainRows c n q (portClaimed c n span z) = drainRows c n q z := by
  have hacc : ∀ m j, accAt (portClaimed c n span z) c m j = accAt z c m j := accAt_setTile h c n _
  simp only [drainRows, hacc, (tileOnly_portClaimed h c n span).area]

theorem drainFlights_portClaimed (h : Canon z) (c n span addr land : Nat) (hk : Bool) (q : Nat) :
    drainFlights c n addr land hk q (portClaimed c n span z) = drainFlights c n addr land hk q z := by
  simp only [drainFlights, drainOut, drainRows_portClaimed h]

theorem drainLand_portClaimed (h : Canon z) (c n span wait : Nat) : drainLand c wait (portClaimed c n span z) = drainLand c wait z := by
  have hp := tileOnly_portClaimed h c n span
  rw [drainLand, hp.now, hp.area, ← drainLand]

/-- The first read of a drain, written out: it starts at slot 0. -/
theorem drainFlights_first (c n addr land : Nat) (hk : Bool) (s : State) :
    let F := foldArea s c
    let rows := (List.range 64).map fun j => accAt s c n j :: (List.range F).map fun k => accAt s c (foldTile F n k) j
    let out := rows.map fun r => (drainLevels 4 r).1
    drainFlights c n addr land hk 0 s = ⟨land, .sp c addr (out.flatMap fun v => natLE 2 v.toNat)⟩ ::
      (if hk then [⟨land, .check 2 c (((List.range 64).zip (rows.zip out)).map fun p =>
        (sumCheck (p.2.1.map dyF16) p.2.2).at_ (.sp c (8 * (addr + 2 * p.1))))⟩] else []) := by
  simp only [drainFlights, drainOut, drainRows, Nat.mul_zero, Nat.zero_add, Nat.add_zero]

theorem slots_portClaimed (h : Canon z) (c n span : Nat) : (cellAt (portClaimed c n span z) c).acc = (cellAt z c).acc ∧
    (cellAt (portClaimed c n span z) c).side = (cellAt z c).side := by
  rw [portClaimed, setTile, cellAt_onCell h.cells]
  exact ⟨rfl, rfl⟩

/-- A drain changes its tile and fold positions alone, waiting or not, and keeps the tile's binding and claim. -/
theorem drained_frame (h : TileOnly c (accTile w) z s) (wait : Nat) : let t := drained clr w c wait s
    TileOnly c (accTile w) z t ∧ tileAt t c (accTile w) = tileAt s c (accTile w) := by
  intro t
  have ht : t = drained clr w c wait s := rfl
  obtain rfl | hw := Nat.eq_zero_or_pos wait
  · rw [drained_at_once] at ht
    rw [ht]
    exact ⟨h.drainRead.congr (canon_mk h.drainRead.canon) rfl, tileAt_drainRead h.canon _⟩
  · obtain ⟨hu, hview, -⟩ := waitCounted_values (w := w) (c := c) h.canon hw
    have hframe : tileFrame (waitCounted c wait w s) = tileFrame s := congrArg Prod.snd hview
    rw [drained_waiting hw (now_of_tileFrame hframe) (foldArea_congr hframe c)] at ht
    rw [ht]
    exact ⟨h.congr (canon_mk hu) hview, tileAt_congr hview _⟩

/-- A drain that waits has counted its wait and put its reads in flight; no slot has changed. -/
theorem drained_waiting_values (h : Canon s) {wait : Nat} (hw : 0 < wait) : let t := drained clr w c wait s
    t.flights = s.flights ++ (List.range 4).map (partFlight clr w c (now s + wait) (drainLand c wait s)) ∧ fld t Reg.SCH_VIOL 6 6 = 1 ∧
    rd t (cellKey c Reg.ACC_WAITS) = satAdd 32 (rd s (cellKey c Reg.ACC_WAITS)) wait ∧
    rd t Reg.SCH_DRAIN_WAITS = satAdd 32 (rd s Reg.SCH_DRAIN_WAITS) wait ∧ cellAt t c = cellAt s c := by
  obtain ⟨-, hview, hflights, hviol, hcell, hpart⟩ := waitCounted_values (w := w) (c := c) h hw
  have hframe : tileFrame (waitCounted c wait w s) = tileFrame s := congrArg Prod.snd hview
  rw [drained_waiting hw (now_of_tileFrame hframe) (foldArea_congr hframe c), hflights]
  exact ⟨rfl, hviol, hcell, hpart, cellAt_congr (congrArg Prod.fst hview) c⟩

/-- With no wait a drain's first 64 values are on their way, and a DRAINCLR has cleared their slots. -/
theorem drained_at_once_values (h : Canon s) {wait : Nat} (hw : wait = 0) : let t := drained clr w c wait s
    t.flights = s.flights ++ (drainFlights c (accTile w) (64 * opf w 63 51) (drainLand c wait s) (flagOf w 0) 0 s ++
      [1, 2, 3].map (partFlight clr w c (now s) (drainLand c wait s))) ∧
    rd t (cellKey c Reg.ACC_WAITS) = rd s (cellKey c Reg.ACC_WAITS) ∧ rd t Reg.SCH_DRAIN_WAITS = rd s Reg.SCH_DRAIN_WAITS ∧
    ∀ j, j < 256 → accAt t c (accTile w) j = (if clr ∧ j < 64 then 0 else accAt s c (accTile w) j) ∧
      sideAt t c (accTile w) j = (if clr ∧ j < 64 then 0 else sideAt s c (accTile w) j) := by
  subst hw
  rw [drained_at_once, drainRead_flights h, List.append_assoc]
  refine ⟨rfl, ?_, ?_, fun j hj => ?_⟩
  · exact rd_drainRead h (recKey_waits c) (taintKey_waits c) (drainKey_waits c)
  · exact rd_drainRead h (by decide) (by decide) (drainKey_drainWaits c)
  · have hfirst : j / 64 = 0 ↔ j < 64 := by omega
    simp only [← hfirst]
    exact ⟨accAt_drainRead h hj (.inl rfl), sideAt_drainRead h hj⟩

end

/-- Settles O8: the word has its port; its reads are put in flight after a wait, or the first of them happens at once, and what a read
leaves is said once for each of the four. -/
theorem drainReadsTile : Obligations.DrainReadsTile := by
  unfold Obligations.DrainReadsTile
  refine ⟨?word, ?read⟩
  case word =>
    intro clr w s hs ha s' c n F wait land part rows out hport
    have hz : Canon s' := canon_atIssue (canon_iff.1 hs)
    have hx : exec (if clr then .drainclr w else .drain w) s =
        .next (withQueue s.pending (drained clr w c wait (portClaimed c n (wait + 3) s'))) := by
      have hact : drainAct clr w s' = drained clr w c wait (portClaimed c n (wait + 3) s') := by rw [drainAct_eq, claimPort_free hport]
      rw [← hact]
      cases clr
      case false => exact exec_acts rfl ha
      case true => exact exec_acts rfl ha
    clear_value s'
    have hp : TileOnly c n s' (portClaimed c n (wait + 3) s') := tileOnly_portClaimed hz c n (wait + 3)
    obtain ⟨honly, htile⟩ := drained_frame (clr := clr) (w := w) hp wait
    have hbusy : now s' + (wait + 3) + 1 = now s' + wait + 4 := by omega
    rw [tileAt_portClaimed hz, hbusy] at htile
    refine ⟨_, hx, fun hw => ?waiting, fun hw => ?atOnce, htile, honly.tile, honly.aside, honly.other, honly.dram⟩
    case waiting =>
      obtain ⟨hflights, hviol, hcell, hpart, hsame⟩ := drained_waiting_values (clr := clr) (c := c) (w := w) hp.canon hw
      obtain ⟨hacc, hside⟩ := slots_portClaimed hz c n (wait + 3)
      rw [hp.now, drainLand_portClaimed hz] at hflights
      exact ⟨hflights, hviol, hcell, hpart, (congrArg Cell.acc hsame).trans hacc, (congrArg Cell.side hsame).trans hside⟩
    case atOnce =>
      obtain ⟨hflights, hcell, hpart, hslots⟩ := drained_at_once_values (clr := clr) (c := c) (w := w) hp.canon hw
      rw [hp.now, drainLand_portClaimed hz, drainFlights_portClaimed hz, drainFlights_first, List.cons_append] at hflights
      refine ⟨hflights, hcell, hpart, fun j hj => ?_⟩
      have hj' := hslots j hj
      rw [portClaimed, accAt_setTile hz, sideAt_setTile hz] at hj'
      exact hj'
  case read =>
    intro c n addr land q clr hk s hs _ F rows out t
    have hc : Canon s := canon_iff.1 hs
    have honly : TileOnly c n s t := (tileOnly_self hc c n).drainRead
    exact ⟨drainRead_flights hc, fun j hj => ⟨sideAt_drainRead hc hj, fun m hm => accAt_drainRead hc hj hm⟩, honly.acc, tileAt_drainRead hc,
      honly.aside, honly.other, honly.dram⟩

end Sys2Proof.Machine
end

section
/-! PROOFS. Rounding to nearest even keeps a finite F16 value (R141, R142): its exact value is a whole number of the spacing at its
magnitude, so the division that rounds has no remainder, and the magnitude field comes back. -/
namespace Sys2Proof.Machine

/-! ### A magnitude that is a whole number of spacings -/

theorem flog2_one {n : Nat} (hn : n ≠ 0) : flog2 n 1 = Nat.log2 n := by
  have hle : ¬ n * 2 ^ (-(Nat.log2 n : Int)).toNat < 1 * 2 ^ (Nat.log2 n : Int).toNat := by
    have hpow : 2 ^ Nat.log2 n ≤ n := Nat.log2_self_le hn
    simpa using hpow
  have hlog : Nat.log2 1 = 0 := rfl
  simp only [flog2, hlog, Nat.cast_zero, sub_zero, if_neg hle]

/-- A significand of `p` + 1 bits, or a shorter one at the smallest exponent, stands in units of its own spacing. -/
theorem spacing_normalised {p n : Nat} {umin e : Int} (hn : n ≠ 0) (hlt : n < 2 ^ (p + 1)) (hmin : umin ≤ e)
    (hnorm : 2 ^ p ≤ n ∨ e = umin) : spacing p umin n 1 e = e := by
  have hle : Nat.log2 n ≤ p := Nat.le_of_lt_succ ((Nat.log2_lt hn).2 hlt)
  rw [spacing, flog2_one hn]
  rcases hnorm with hge | rfl
  · have hlog : p ≤ Nat.log2 n := (Nat.le_log2 hn).2 hge
    omega
  · omega

theorem inUnits_self (n d : Nat) (e : Int) : inUnits n d e e = (n, d) := by simp [inUnits]

theorem rneDiv_one (n : Nat) : rneDiv n 1 = n := by simp [rneDiv, Nat.mod_one]

/-- Such a significand is not rounded: its code counts the spacings below it. -/
theorem roundCode_normalised {p n : Nat} {umin e : Int} (hn : n ≠ 0) (hlt : n < 2 ^ (p + 1)) (hmin : umin ≤ e)
    (hnorm : 2 ^ p ≤ n ∨ e = umin) : roundCode p umin n 1 e = (e - umin).toNat * 2 ^ p + n := by
  simp only [roundCode, if_neg hn, spacing_normalised hn hlt hmin hnorm, inUnits_self, rneDiv_one]

/-! ### The fields of a finite pattern (R137) -/

/-- The sign bit of an F16 pattern. -/
def sign16 (v : F16) : Bool := decide (v.toNat / 32768 = 1)

/-- The magnitude field of an F16 pattern. -/
def magnitude16 (v : F16) : Nat := v.toNat % 2 ^ 15

theorem magnitude16_fields (v : F16) : magnitude16 v = 128 * bits v.toNat 14 7 + bits v.toNat 6 0 := by
  simp only [magnitude16, bits, Nat.shiftRight_eq_div_pow]
  omega

theorem signed16_fields (v : F16) : signed16 (sign16 v) (magnitude16 v) = v := by
  apply BitVec.eq_of_toNat_eq
  have hv : v.toNat < 2 ^ 16 := v.isLt
  simp only [signed16, sign16, magnitude16, decide_eq_true_eq, BitVec.toNat_ofNat]
  split <;> omega

theorem magnitude16_le_of_finite {v : F16} (hv : nonFinite v = false) : magnitude16 v ≤ 0x7F7F := by
  have hexp : bits v.toNat 14 7 ≠ 255 := by simpa [nonFinite] using hv
  have hlt : bits v.toNat 14 7 < 256 := bits_lt v.toNat 14 7
  have hfrac : bits v.toNat 6 0 < 128 := bits_lt v.toNat 6 0
  rw [magnitude16_fields]
  omega

/-- A finite pattern stands for a normalised significand, and its magnitude field is the code of that significand. -/
theorem ofF16_finite {v : F16} (hv : nonFinite v = false) : ∃ m e, ofF16 v = .fin (sign16 v) m e ∧ m < 2 ^ 8 ∧ -133 ≤ e ∧
    (2 ^ 7 ≤ m ∨ e = -133) ∧ magnitude16 v = (e - -133).toNat * 2 ^ 7 + m := by
  have hexp : bits v.toNat 14 7 ≠ 255 := by simpa [nonFinite] using hv
  have hfrac : bits v.toNat 6 0 < 128 := bits_lt v.toNat 6 0
  rw [magnitude16_fields]
  by_cases h0 : bits v.toNat 14 7 = 0
  case pos =>
    refine ⟨bits v.toNat 6 0, -133, ?_, by omega, le_rfl, .inr rfl, by omega⟩
    simp only [ofF16, sign16, h0]
    rfl
  case neg =>
    refine ⟨128 + bits v.toNat 6 0, (bits v.toNat 14 7 : Int) - 134, ?_, by omega, by omega, .inl (by omega), by omega⟩
    simp only [ofF16, sign16, if_neg hexp, if_neg h0]

/-! ### The rounding -/

theorem rne_zero (neg : Bool) (e : Int) : Dy.rne (FV.dy (.fin neg 0 e)) = (0, false) := by simp [Dy.rne, FV.dy]

/-- The exact value of a non-zero reading is rounded with the reading's sign and significand. -/
theorem rne_fin {neg : Bool} {m : Nat} {e : Int} (hm : m ≠ 0) : Dy.rne (FV.dy (.fin neg m e)) = rneF16 neg m 1 e := by
  cases neg with
  | false =>
    have hsign : ¬ (m : Int) < 0 := by omega
    simp [Dy.rne, FV.dy, hm, hsign]
  | true =>
    have hsign : -(m : Int) < 0 := by omega
    simp only [Dy.rne, FV.dy, if_pos, hsign.ne, if_false, hsign, decide_true, Int.natAbs_neg, Int.natAbs_natCast]

theorem rneF16_of_roundCode {neg : Bool} {n d c : Nat} {e : Int} (h : roundCode 7 (-133) n d e = c) (hc : c ≤ 0x7F7F) :
    rneF16 neg n d e = (signed16 neg c, false) := by
  simp only [rneF16, h, if_neg (Nat.not_lt.2 hc)]

/-- Settles O52: a finite pattern reads as a normalised significand, which keeps its code; only a zero loses its sign. -/
theorem roundingKeepsValues : Obligations.RoundingKeepsValues := by
  unfold Obligations.RoundingKeepsValues
  intro v hv
  obtain ⟨m, e, hread, hlt, hmin, hnorm, hcode⟩ := ofF16_finite hv
  rw [dyF16, hread, ← magnitude16]
  by_cases hm : m = 0
  case pos =>
    have hzero : magnitude16 v = 0 := by omega
    rw [hm, rne_zero, if_pos hzero]
  case neg =>
    have hnonzero : magnitude16 v ≠ 0 := by omega
    have hround : roundCode 7 (-133) m 1 e = magnitude16 v := (roundCode_normalised hm hlt hmin hnorm).trans hcode.symm
    rw [rne_fin hm, rneF16_of_roundCode hround (magnitude16_le_of_finite hv), signed16_fields, if_neg hnonzero]

end Sys2Proof.Machine
end

section
/-! PROOFS. What an Anvil word changes (R161, R164 to R168): memories of its own cell, and what is in flight. What it counts, reports, notes of
its conversions and leaves to check is no part of that. -/
namespace Sys2Proof.Machine

/-! ### Coded reads, conversions and checks -/

namespace KeptByCounts
variable {P : State → Prop} (hP : KeptByCounts P) {s : State}
include hP

theorem eccRead (c kind index : Nat) (h : P s) : P (eccRead c kind index s) := by
  unfold Machine.eccRead
  split
  · exact h
  · dsimp only
    split
    · exact hP.bumpFld _ _ _ _ (hP.noteCorrected _ _ h)
    · exact hP.taintCell _ _ _ _ (hP.setBit _ _ (hP.bumpFld _ _ _ _ h))

theorem anvRead (c lo n : Nat) (h : P s) : P (anvRead c lo n s) := each_inv P (fun _ _ _ h => hP.eccRead c 4 _ h) h

end KeptByCounts

/-- `P` says nothing of counts and reports, nor of the statistics of the format table and the checks whose verdicts are to come. -/
structure KeptByConvs (P : State → Prop) : Prop extends KeptByCounts P where
  table : ∀ {s : State} {tab : Tab}, P s → P { s with tab := tab }
  checked : ∀ {s : State} {checks : List Check}, P s → P { s with checks := checks }

namespace KeptByConvs
variable {P : State → Prop} (hP : KeptByConvs P) {s : State}
include hP

theorem noteCheck (unit place : Nat) (vals : List CheckVal) (h : P s) : P (noteCheck unit place vals s) := by
  unfold Machine.noteCheck
  split
  · exact h
  · exact hP.checked h

theorem noteConv (i : Nat) (x : F16) (ovf tick : Nat) (h : P s) : P (noteConv i x ovf tick s) := by
  unfold Machine.noteConv
  split
  · exact h
  · dsimp only
    split
    · exact hP.setBit _ _ (hP.late (hP.table h))
    · exact hP.table h

theorem noteConvs (tid : Nat) (l : List (F16 × Nat)) (evalSeg : Bool) (tick : Nat) (h : P s) : P (noteConvs tid l evalSeg tick s) := by
  unfold Machine.noteConvs
  split
  · exact h
  · dsimp only
    split
    · split
      · exact h
      · exact hP.setBit _ _ (hP.late h)
    · exact each_inv P (fun p _ _ h => hP.noteConv _ _ _ _ h) h

end KeptByConvs

/-! ### One cell changed -/

/-- What an Anvil word reads and never changes: the time, DRAM, the keep masks of the step and its start. -/
def anvFrame (s : State) := (s.time, s.dram, s.run.sampled, s.run.start)

theorem anvFrame_marks (s : State) (r : Run) (h : r.unmarked = s.run.unmarked) : anvFrame { s with run := r } = anvFrame s := by
  have hsampled : r.unmarked.sampled = s.run.unmarked.sampled := by rw [h]
  have hstart : r.unmarked.start = s.run.unmarked.start := by rw [h]
  exact congrArg₂ (fun a b => (s.time, s.dram, a, b)) hsampled hstart

/-- From `z` to `t` cell `c` has become `x` and the operations `l` have been put in flight; other cells and what Anvil words read have not
changed, and `t` is in canonical form. -/
structure CellMade (c : Nat) (x : Cell) (l : List Flight) (z t : State) : Prop where
  canon : Canon t
  here : cellAt t c = x
  other : ∀ b, b ≠ c → cellAt t b = cellAt z b
  flights : t.flights = z.flights ++ l
  frame : anvFrame t = anvFrame z

/-- A change of a cell keeps its memories in canonical form. -/
def KeepsForm (f : Cell → Cell) : Prop := ∀ x, CellCanon x → CellCanon (f x)

section
variable {c : Nat} {x : Cell} {l : List Flight} {z t : State}

theorem cellMade_self (h : Canon z) (c : Nat) : CellMade c (cellAt z c) [] z z := ⟨h, rfl, fun _ _ => rfl, (List.append_nil _).symm, rfl⟩

/-- Counts, reports, conversions and checks change no cell and put nothing in flight. -/
theorem keptByConvs_cellMade : KeptByConvs (CellMade c x l z) where
  wr _ h := ⟨canon_wr h.canon, h.here, h.other, h.flights, h.frame⟩
  side h := ⟨canon_mk h.canon, h.here, h.other, h.flights, h.frame⟩
  tainted _ h := ⟨canon_wr h.canon, h.here, h.other, h.flights, h.frame⟩
  marks hr h := ⟨canon_mk h.canon, h.here, h.other, h.flights, (anvFrame_marks _ _ hr).trans h.frame⟩
  report _ h := ⟨canon_wr h.canon, h.here, h.other, h.flights, h.frame⟩
  sent h := ⟨canon_mk h.canon, h.here, h.other, h.flights, h.frame⟩
  count h := ⟨canon_wr h.canon, h.here, h.other, h.flights, h.frame⟩
  late h := ⟨canon_mk h.canon, h.here, h.other, h.flights, h.frame⟩
  table h := ⟨canon_mk h.canon, h.here, h.other, h.flights, h.frame⟩
  checked h := ⟨canon_mk h.canon, h.here, h.other, h.flights, h.frame⟩

namespace CellMade

theorem current (h : CellMade c x l z t) : CellMade c (cellAt t c) l z t := h.here ▸ h

theorem dram (h : CellMade c x l z t) : t.dram = z.dram := congrArg (fun f => f.2.1) h.frame

theorem stepTick (h : CellMade c x l z t) : stepTick t = stepTick z := congrArg (fun f => f.1.tick.toNat - f.2.2.2) h.frame

/-- The keep masks are those of the load window. -/
theorem blockKept (h : CellMade c x l z t) (b m kx : Nat) : blockKept t b m kx = blockKept z b m kx := by
  have hsampled : t.run.sampled = z.run.sampled := congrArg (fun f => f.2.2.1) h.frame
  simp only [Machine.blockKept, sampledReg, hsampled]

theorem onCell {f : Cell → Cell} (h : CellMade c x l z t) (hf : KeepsForm f) : CellMade c (f x) l z (onCell c f t) where
  canon := canon_onCell hf h.canon
  here := (cellAt_onCell h.canon.cells c f).trans (congrArg f h.here)
  other b hb := (cellAt_onCell_ne h.canon.cells f hb).trans (h.other b hb)
  flights := h.flights
  frame := h.frame

theorem launch (h : CellMade c x l z t) (due : Nat) (e : Effect) : CellMade c x (l ++ [⟨due, e⟩]) z (launch due e t) where
  canon := canon_mk h.canon
  here := h.here
  other := h.other
  flights := by rw [Machine.launch, h.flights, List.append_assoc]
  frame := h.frame

theorem launchIf {p : Prop} [Decidable p] (h : CellMade c x l z t) (due : Nat) (e : Effect) :
    CellMade c x (l ++ if p then [⟨due, e⟩] else []) z (if p then Machine.launch due e t else t) := by
  split
  · exact h.launch due e
  · rw [List.append_nil]
    exact h

end CellMade

end

/-! ### Buffers, output arrays and engines of a cell -/

/-- A cell with operand buffer `i` replaced. -/
def Cell.withBuf (i : Nat) (b : AnvBuf) (x : Cell) : Cell := { x with bufs := put (fun _ => AnvBuf.init) x.bufs i b }

/-- A cell with output array `i` replaced. -/
def Cell.withChain (i : Nat) (ch : Chain) (x : Cell) : Cell := { x with chains := put (fun _ => Chain.init) x.chains i ch }

/-- A cell whose `n` elements of Anvil memory from `lo` on carry fresh check bits. -/
def Cell.withFresh (lo n : Nat) (x : Cell) : Cell :=
  { x with ecc := forget (fun k => decide (k / 2 ^ 24 = 4) && decide (lo ≤ k % 2 ^ 24) && decide (k % 2 ^ 24 < lo + n)) x.ecc }

/-- A cell with the stage port and the MAC array held as `g` says. -/
def Cell.withHeld (g : Nat × Nat → Nat × Nat) (x : Cell) : Cell := { x with anvBusy := g x.anvBusy }

theorem keepsForm_withBuf (i : Nat) (b : AnvBuf) : KeepsForm (Cell.withBuf i b) := fun _ h => { h with bufs := wf_put h.bufs }

theorem keepsForm_withChain (i : Nat) (ch : Chain) : KeepsForm (Cell.withChain i ch) := fun _ h => { h with chains := wf_put h.chains }

theorem keepsForm_withFresh (lo n : Nat) : KeepsForm (Cell.withFresh lo n) := fun _ h => { h with
  ecc := by
    dsimp only [Cell.withFresh]
    exact wf_forget h.ecc }

theorem keepsForm_withHeld (g : Nat × Nat → Nat × Nat) : KeepsForm (Cell.withHeld g) := fun _ h => h.same

section
variable {c : Nat} {x : Cell} {l : List Flight} {z t : State}

namespace CellMade

theorem setBuf (h : CellMade c x l z t) (i : Nat) (b : AnvBuf) : CellMade c (x.withBuf i b) l z (setBuf c i b t) :=
  h.onCell (keepsForm_withBuf i b)

theorem setChain (h : CellMade c x l z t) (i : Nat) (ch : Chain) : CellMade c (x.withChain i ch) l z (setChain c i ch t) :=
  h.onCell (keepsForm_withChain i ch)

theorem anvWrite (h : CellMade c x l z t) (lo n : Nat) : CellMade c (x.withFresh lo n) l z (anvWrite c lo n t) :=
  h.onCell (keepsForm_withFresh lo n)

theorem hold (h : CellMade c x l z t) (g : Nat × Nat → Nat × Nat) :
    CellMade c (x.withHeld g) l z (Machine.onCell c (fun y => { y with anvBusy := g y.anvBusy }) t) := h.onCell (keepsForm_withHeld g)

theorem bufAt (h : CellMade c x l z t) (j : Nat) : bufAt t c j = get (fun _ => AnvBuf.init) x.bufs j := by rw [Machine.bufAt, h.here]

theorem chainAt (h : CellMade c x l z t) (j : Nat) : chainAt t c j = get (fun _ => Chain.init) x.chains j := by rw [Machine.chainAt, h.here]

end CellMade

end

end Sys2Proof.Machine
end

section
/-! PROOFS. STAGE (R161, R164; log 25): the rows of the source, read on the issue tick, fill the operand buffer. -/
namespace Sys2Proof.Machine

section
variable {c : Nat} {w : Slot} {s : State}

/-- The operand buffer that a STAGE fills. -/
def stageBuf (w : Slot) : Nat := 2 * opf w 95 95 + opf w 94 94

/-- Format and scale byte of the tensor of a STAGE. -/
def stageFmt (w : Slot) (s : State) : Nat × Nat := (tensorOf s (opf w 92 77)).getD (0, 127)

/-- The tick on which a STAGE is done. -/
def stageEnd (w : Slot) (s : State) : Nat := now s + stageSpan (stageFmt w s).1

/-- The elements that a STAGE puts into its buffer. -/
def stageElems (c : Nat) (w : Slot) (s : State) : List Nat :=
  let n := rowBytes (stageFmt w s).1
  let rows := (List.range 64).map fun a => 32 * opf w 76 63 + a * pitch (opf w 62 49) n
  let codes := rows.flatMap fun a => rowCodes (stageFmt w s).1 (spGet s c a n)
  if opf w 93 93 = 1 then transposed codes else codes

/-- The buffer of a STAGE, filled. -/
def stagedBuf (c : Nat) (w : Slot) (s : State) : AnvBuf :=
  ⟨true, stageEnd w s, Fmt.ofCode (stageFmt w s).1, (stageFmt w s).2, stageElems c w s⟩

/-- The cell of a STAGE: its buffer is filled, and the stage port is held. -/
def stagedCell (c : Nat) (w : Slot) (s : State) : Cell :=
  (((cellAt s c).withBuf (stageBuf w) (stagedBuf c w s)).withFresh (4096 * stageBuf w) 4096).withHeld fun p => (stageEnd w s, p.2)

/-- What a STAGE puts in flight: its checks where hk is set. -/
def stageFlights (c : Nat) (w : Slot) (s : State) : List Flight :=
  if flagOf w 0 then
    [⟨stageEnd w s, .check 3 c (((List.range 4096).zip (stageElems c w s)).map fun v =>
      (moved (scaled (Fmt.ofCode (stageFmt w s).1) (stageFmt w s).2 v.2) (Fmt.ofCode (stageFmt w s).1) (stageFmt w s).2 v.2).at_
        (.buf c (stageBuf w) v.1))⟩]
  else []

/-- A STAGE whose port and buffer are free fills its buffer. -/
theorem stageAct_made (h : Canon s) (hport : (cellAt s (placePhys s w.place)).anvBusy.1 ≤ now s)
    (hbuf : (bufAt s (placePhys s w.place) (stageBuf w)).busy ≤ now s) :
    CellMade (placePhys s w.place) (stagedCell (placePhys s w.place) w s) (stageFlights (placePhys s w.place) w s) s (stageAct w s) := by
  unfold stageAct
  extract_lets c f i T n p rows u codes e elems u1 u2 u3
  have hfree : ¬ (decide (T < (cellAt s c).anvBusy.1) || decide (T < (bufAt s c i).busy)) = true := by
    rw [Bool.or_eq_true, decide_eq_true_eq, decide_eq_true_eq]
    exact not_or.2 ⟨Nat.not_lt.2 hport, Nat.not_lt.2 hbuf⟩
  rw [if_neg hfree]
  have hread : CellMade c (cellAt s c) [] s u :=
    each_inv _ (fun _ _ _ hu => keptByConvs_cellMade.toKeptByTaints.spRead _ _ _ _ hu) (cellMade_self h c)
  have helems : stageElems c w s = elems := by
    simp only [elems, codes, spGet, hread.here]
    rfl
  rw [stagedCell, stagedBuf, stageFlights, helems]
  exact keptByConvs_cellMade.bumpFld _ _ _ _ ((((hread.setBuf i _).anvWrite _ _).hold fun p => (e, p.2)).launchIf e _)

/-- What a STAGE leaves in its cell. -/
theorem stagedCell_values {t : State} {l : List Flight} (h : Canon s) (ht : CellMade c (stagedCell c w s) l s t) :
    bufAt t c (stageBuf w) = stagedBuf c w s ∧ (∀ j, j ≠ stageBuf w → bufAt t c j = bufAt s c j) ∧ (∀ j, chainAt t c j = chainAt s c j) ∧
    (cellAt t c).anvBusy = (stageEnd w s, (cellAt s c).anvBusy.2) ∧ (cellAt t c).sp = (cellAt s c).sp := by
  have hbufs : wf (fun _ => AnvBuf.init) (cellAt s c).bufs = true := (cellCanon_at h c).bufs
  exact ⟨(ht.bufAt _).trans (get_put hbufs), fun j hj => (ht.bufAt j).trans (get_put_ne hbufs hj), ht.chainAt,
    congrArg Cell.anvBusy ht.here, (congrArg Cell.sp ht.here).trans rfl⟩

end

end Sys2Proof.Machine
end

section
/-! PROOFS. GEMM and GEMMACC (R161, R165 to R168; log 26): the results stand in the output array, what the word uses is held, and a word that
writes its array out has its drain in flight. -/
namespace Sys2Proof.Machine

section
variable {acc : Bool} {c : Nat} {w : Slot} {s : State}

/-- The left operand buffer of a product word. -/
def leftBuf (c : Nat) (w : Slot) (s : State) : AnvBuf := bufAt s c (opf w 95 95)

/-- The right operand buffer of a product word. -/
def rightBuf (c : Nat) (w : Slot) (s : State) : AnvBuf := bufAt s c (2 + opf w 94 94)

/-- The output array of a product word, as it was. -/
def oldChain (c : Nat) (w : Slot) (s : State) : Chain := chainAt s c (opf w 93 93)

/-- Whether a product word runs at the F16 rate (R160). -/
def productWide (c : Nat) (w : Slot) (s : State) : Bool := (leftBuf c w s).fmt == .f16 || (rightBuf c w s).fmt == .f16

/-- The tick on which a product word has run. -/
def productEnd (c : Nat) (w : Slot) (s : State) : Nat := now s + if productWide c w s then 256 else 64

/-- The tensor of a product's chain. -/
def productTid (acc : Bool) (c : Nat) (w : Slot) (s : State) : Nat := if acc then (oldChain c w s).tid else opf w 79 64

/-- The scale byte of a product's chain. -/
def productScale (acc : Bool) (c : Nat) (w : Slot) (s : State) : Nat :=
  if acc then (oldChain c w s).bo else ((tensorOf s (productTid acc c w s)).map (·.2)).getD 127

/-- The results of a product word, each with whether it saturated. -/
def productResults (acc : Bool) (c : Nat) (w : Slot) (s : State) : List (F16 × Bool) :=
  productOf (leftBuf c w s) (rightBuf c w s) (productScale acc c w s) (oldOf acc (oldChain c w s))

/-- The output array that a product word leaves; `sat` lists the elements that have saturated in its chain. -/
def productChain (acc : Bool) (c : Nat) (w : Slot) (s : State) (sat : List Nat) : Chain :=
  ⟨true, opf w 91 80, productWide c w s, productTid acc c w s, productScale acc c w s,
    if opf w 92 92 = 1 then productEnd c w s + 32 else productEnd c w s, (productResults acc c w s).map (·.1), sat⟩

/-- The cell of a product word: its operand buffers and the MAC array are held, and the results stand in the output array. -/
def productCell (acc : Bool) (c : Nat) (w : Slot) (s : State) (sat : List Nat) : Cell :=
  (((((cellAt s c).withBuf (opf w 95 95) { leftBuf c w s with busy := productEnd c w s }).withBuf (2 + opf w 94 94)
    { rightBuf c w s with busy := productEnd c w s }).withFresh (4096 * (4 + opf w 93 93)) 4096).withHeld
    fun p => (p.1, productEnd c w s)).withChain (opf w 93 93) (productChain acc c w s sat)

/-- The checks of a product word with hk set. -/
def productCheck (acc : Bool) (c : Nat) (w : Slot) (s : State) : Effect :=
  .check 3 c (((List.range 4096).zip (productChecks (leftBuf c w s) (rightBuf c w s) (productScale acc c w s) (oldOf acc (oldChain c w s))
    ((productResults acc c w s).map (·.1)))).map fun p => p.2.at_ (.chain c (opf w 93 93) p.1))

/-- The drain of a product word that writes its array out. -/
def productDrain (c : Nat) (w : Slot) (s : State) : Effect :=
  .anvDrain c (opf w 93 93) (32 * opf w 63 50) (pitch (opf w 49 36) 128) (blockKept s c (maskOf w) (opf w 35 30)) w.evalSeg (flagOf w 0)
    (stepTick s)

/-- What a product word puts in flight. -/
def productFlights (acc : Bool) (c : Nat) (w : Slot) (s : State) : List Flight :=
  (if flagOf w 0 then [⟨productEnd c w s, productCheck acc c w s⟩] else []) ++
    if opf w 92 92 = 1 then [⟨productEnd c w s + 32, productDrain c w s⟩] else []

/-- A product word whose operands, array and engine are free puts its results into the array. -/
theorem productAct_made (h : Canon s) (hmac : (cellAt s (placePhys s w.place)).anvBusy.2 ≤ now s)
    (hleft : (leftBuf (placePhys s w.place) w s).busy ≤ now s) (hright : (rightBuf (placePhys s w.place) w s).busy ≤ now s)
    (hchain : (oldChain (placePhys s w.place) w s).busy ≤ now s) :
    ∃ sat, CellMade (placePhys s w.place) (productCell acc (placePhys s w.place) w s sat) (productFlights acc (placePhys s w.place) w s) s
      (productAct acc w s) := by
  unfold productAct
  extract_lets c li ri oi T l r ch wide e wr tid bo u1 u2 out newSat sat u3 u4 u5 u6 u7 u8 u9
  have hfree : ¬ (decide (T < (cellAt s c).anvBusy.2) || decide (T < l.busy) || decide (T < r.busy) || decide (T < ch.busy)) = true := by
    simp only [Bool.or_eq_true, decide_eq_true_eq, not_or, Nat.not_lt]
    exact ⟨⟨⟨hmac, hleft⟩, hright⟩, hchain⟩
  rw [if_neg hfree]
  have hkept : KeptByConvs (CellMade c (cellAt s c) [] s) := keptByConvs_cellMade
  have h1 : CellMade c (cellAt s c) [] s u1 := hkept.anvRead _ _ _ (hkept.anvRead _ _ _ (cellMade_self h c))
  have h2 : CellMade c (cellAt s c) [] s u2 := by
    unfold u2
    split
    · exact hkept.anvRead _ _ _ h1
    · exact h1
  have h3 : CellMade c (cellAt s c) [] s u3 := by
    unfold u3
    split
    · exact h2
    · exact hkept.setBit _ _ h2
  have hdone : (⟨true, opf w 91 80, wide, tid, bo, if wr then e + 32 else e, out.map (·.1), sat⟩ : Chain) = productChain acc c w s sat := by
    simp only [wr, beq_iff_eq]
    rfl
  have h7 : CellMade c (productCell acc c w s sat) [] s u7 := by
    rw [productCell, ← hdone]
    exact ((((h3.setBuf li _).setBuf ri _).anvWrite _ _).hold fun p => (p.1, e)).setChain oi _
  have h9 : CellMade c (productCell acc c w s sat) (if flagOf w 0 then [⟨e, productCheck acc c w s⟩] else []) s u9 :=
    keptByConvs_cellMade.bumpFld _ _ _ _ (h7.launchIf e _)
  refine ⟨sat, ?_⟩
  have hdrain : Effect.anvDrain c oi (32 * opf w 63 50) (pitch (opf w 49 36) 128) (blockKept u9 c (maskOf w) (opf w 35 30)) w.evalSeg
      (flagOf w 0) (stepTick u9) = productDrain c w s := by
    rw [h9.stepTick, h9.blockKept]
    rfl
  rw [hdrain]
  have hflights := h9.launchIf (p := wr = true) (e + 32) (productDrain c w s)
  simp only [wr, beq_iff_eq] at hflights ⊢
  exact hflights

/-- The left operand buffers are 0 and 1, the right ones 2 and 3. -/
theorem left_ne_right (w : Slot) : opf w 95 95 ≠ 2 + opf w 94 94 := by
  have hleft : opf w 95 95 < 2 ^ 1 := bits_lt _ 95 95
  omega

/-- What a product word leaves in its cell. -/
theorem productCell_values {t : State} {l : List Flight} {sat : List Nat} (h : Canon s) (ht : CellMade c (productCell acc c w s sat) l s t) :
    chainAt t c (opf w 93 93) = productChain acc c w s sat ∧ (∀ j, j ≠ opf w 93 93 → chainAt t c j = chainAt s c j) ∧
    bufAt t c (opf w 95 95) = { leftBuf c w s with busy := productEnd c w s } ∧
    bufAt t c (2 + opf w 94 94) = { rightBuf c w s with busy := productEnd c w s } ∧
    (cellAt t c).anvBusy = ((cellAt s c).anvBusy.1, productEnd c w s) ∧ (cellAt t c).sp = (cellAt s c).sp := by
  have hbufs : wf (fun _ => AnvBuf.init) (cellAt s c).bufs = true := (cellCanon_at h c).bufs
  have hchains : wf (fun _ => Chain.init) (cellAt s c).chains = true := (cellCanon_at h c).chains
  refine ⟨(ht.chainAt _).trans (get_put hchains), fun j hj => (ht.chainAt j).trans (get_put_ne hchains hj), ?left, ?right,
    congrArg Cell.anvBusy ht.here, (congrArg Cell.sp ht.here).trans rfl⟩
  case left => exact (ht.bufAt _).trans ((get_put_ne (wf_put hbufs) (left_ne_right w)).trans (get_put hbufs))
  case right => exact (ht.bufAt _).trans (get_put (wf_put hbufs))

end

end Sys2Proof.Machine
end

section
/-! PROOFS. The drain of an Anvil output array (R161, R166, R168, R171; log 13): its 64 rows go to scratchpad, and its chain closes. -/
namespace Sys2Proof.Machine

/-! ### Spans written one after another -/

section
variable {c x : Nat} {l : List (Nat × List Byte)} {s : State}

/-- Two spans of bytes, each given by its first address and its data, do not meet. -/
def Apart (p q : Nat × List Byte) : Prop := p.1 + p.2.length ≤ q.1 ∨ q.1 + q.2.length ≤ p.1

/-- Address `x` lies outside a span. -/
def Outside (x : Nat) (p : Nat × List Byte) : Prop := x < p.1 ∨ p.1 + p.2.length ≤ x

/-- Spans of a scratchpad written one after another. -/
def spWrites (c : Nat) (l : List (Nat × List Byte)) (s : State) : State := each l (fun p s => spPut c p.1 p.2 s) s

/-- A cell with a span of its scratchpad written. -/
def Cell.withSpan (a : Nat) (data : List Byte) (x : Cell) : Cell :=
  { x with
    sp := putBytes noByte x.sp a data
    spBad := forget (fun w => decide (a / 8 ≤ w) && decide (w ≤ (a + data.length - 1) / 8) && data.length != 0) x.spBad }

theorem keepsForm_withSpan (a : Nat) (data : List Byte) : KeepsForm (Cell.withSpan a data) := fun _ h => { h with
  sp := wf_putBytes h.sp
  spBad := by
    dsimp only [Cell.withSpan]
    exact wf_forget h.spBad }

theorem CellMade.spPut {y : Cell} {f : List Flight} {z t : State} (h : CellMade c y f z t) (a : Nat) (data : List Byte) :
    CellMade c (y.withSpan a data) f z (spPut c a data t) := h.onCell (keepsForm_withSpan a data)

theorem CellMade.spWrites {y : Cell} {f : List Flight} {z t : State} (h : CellMade c y f z t) (l : List (Nat × List Byte)) :
    CellMade c (cellAt (spWrites c l t) c) f z (spWrites c l t) :=
  each_inv (fun u => CellMade c (cellAt u c) f z u) (fun p _ _ hu => (hu.spPut p.1 p.2).current) h.current

/-- A byte outside every span written reads as before. -/
theorem spByte_spWrites_out (h : Canon s) (hx : ∀ p ∈ l, Outside x p) :
    get noByte (cellAt (spWrites c l s) c).sp x = get noByte (cellAt s c).sp x := by
  induction l generalizing s with
  | nil => rfl
  | cons p l ih =>
    exact (ih (canon_spPut h) fun q hq => hx q (List.mem_cons_of_mem _ hq)).trans
      (spByte_spPut_out h (.inr (hx p List.mem_cons_self)))

/-- Of spans that do not meet each is read back. -/
theorem spByte_spWrites (h : Canon s) (hl : l.Pairwise Apart) {p : Nat × List Byte} (hp : p ∈ l) {i : Nat} (hi : i < p.2.length) :
    get noByte (cellAt (spWrites c l s) c).sp (p.1 + i) = p.2[i] := by
  induction l generalizing s with
  | nil => cases hp
  | cons q l ih =>
    obtain ⟨hq, hl'⟩ := List.pairwise_cons.1 hl
    rcases List.mem_cons.1 hp with rfl | hp'
    · have hout : ∀ r ∈ l, Outside (p.1 + i) r := by
        intro r hr
        have hapart := hq r hr
        unfold Apart at hapart
        unfold Outside
        omega
      exact (spByte_spWrites_out (canon_spPut h) hout).trans (spByte_spPut h c p.1 i hi)
    · exact ih (canon_spPut h) hl' hp'

theorem spGet_spWrites (h : Canon s) (hl : l.Pairwise Apart) {p : Nat × List Byte} (hp : p ∈ l) :
    spGet (spWrites c l s) c p.1 p.2.length = p.2 :=
  List.ext_getElem (getBytes_length ..) fun i _ hi => by
    simp only [spGet, getBytes, List.getElem_map, List.getElem_range]
    exact spByte_spWrites h hl hp hi

end

/-! ### The rows of an output array -/

section
variable {c i a p : Nat} {kept : Bool} {elems : List F16} {s : State}

/-- Row `k` of an output array, or of zeros where the keep mask drops the block. -/
def drainedRow (kept : Bool) (elems : List F16) (k : Nat) : List F16 := if kept then (elems.drop (64 * k)).take 64 else List.replicate 64 0

/-- The bytes of a row. -/
def rowBytesOf (l : List F16) : List Byte := l.flatMap fun v => natLE 2 v.toNat

/-- The spans that a drain writes: row `k` goes to byte `a + k * p`. -/
def drainedRows (a p : Nat) (kept : Bool) (elems : List F16) : List (Nat × List Byte) :=
  (List.range 64).map fun k => (a + k * p, rowBytesOf (drainedRow kept elems k))

theorem chunks_eq {α : Type} (n : Nat) : ∀ (k : Nat) (l : List α), chunks n k l = (List.range k).map fun i => (l.drop (n * i)).take n
  | 0, _ => rfl
  | k + 1, l => by
    rw [chunks, chunks_eq n k, List.range_succ_eq_map, List.map_cons, List.map_map, Nat.mul_zero, List.drop_zero]
    simp only [List.drop_drop, Function.comp_def, Nat.mul_succ, Nat.add_comm]

theorem drainedRow_length {k : Nat} (he : elems.length = 4096) (hk : k < 64) : (drainedRow kept elems k).length = 64 := by
  unfold drainedRow
  split
  · rw [List.length_take, List.length_drop, he]
    omega
  · exact List.length_replicate

theorem rowBytesOf_length (l : List F16) : (rowBytesOf l).length = 2 * l.length := by
  induction l with
  | nil => rfl
  | cons v l ih =>
    rw [rowBytesOf, List.flatMap_cons, List.length_append, natLE_length, ← rowBytesOf, ih, List.length_cons]
    omega

theorem drainedRow_bytes {k : Nat} (he : elems.length = 4096) (hk : k < 64) : (rowBytesOf (drainedRow kept elems k)).length = 128 := by
  rw [rowBytesOf_length, drainedRow_length he hk]

/-- A drain takes its rows from its array, or from zeros. -/
theorem rows_eq (kept : Bool) (elems : List F16) : (List.range 64).zip (chunks 64 64 (if kept then elems else List.replicate 4096 0)) =
    (List.range 64).map fun k => (k, drainedRow kept elems k) := by
  have hrow : ∀ k ∈ List.range 64, (((if kept then elems else List.replicate 4096 0).drop (64 * k)).take 64) = drainedRow kept elems k := by
    intro k hk
    rw [List.mem_range] at hk
    cases kept
    case true => rfl
    case false =>
      have hlen : min 64 (4096 - 64 * k) = 64 := by omega
      simp only [drainedRow, Bool.false_eq_true, if_false, List.drop_replicate, List.take_replicate, hlen]
  rw [chunks_eq, List.map_congr_left hrow, List.map_prod_left_eq_zip]

/-- Rows a pitch of 128 bytes or more apart do not meet. -/
theorem drainedRows_apart (hp : 128 ≤ p) (he : elems.length = 4096) : (drainedRows a p kept elems).Pairwise Apart := by
  unfold drainedRows
  rw [List.pairwise_map]
  refine List.pairwise_lt_range.imp_of_mem fun {j k} hj hk hlt => .inl ?_
  rw [List.mem_range] at hj hk
  have hnext : (j + 1) * p ≤ k * p := Nat.mul_le_mul_right p hlt
  rw [drainedRow_bytes he hj]
  dsimp only
  rw [Nat.succ_mul] at hnext
  omega

/-- The state in which a drain has read its array and written its rows. -/
def rowsDrained (c i a p : Nat) (kept : Bool) (s : State) : State :=
  spWrites c (drainedRows a p kept (chainAt s c i).elems) (anvRead c (4096 * (4 + i)) 4096 s)

/-- The writes of a drain, row by row. -/
theorem rowsDrained_eq (c i a p : Nat) (kept : Bool) (s : State) : rowsDrained c i a p kept s =
    each ((List.range 64).zip (chunks 64 64 (if kept then (chainAt s c i).elems else List.replicate 4096 0)))
      (fun r s => spPut c (a + r.1 * p) (r.2.flatMap fun v => natLE 2 v.toNat) s) (anvRead c (4096 * (4 + i)) 4096 s) := by
  rw [rows_eq, rowsDrained, spWrites, drainedRows, each, each, List.foldl_map, List.foldl_map]
  rfl

theorem anvRead_made (h : Canon s) (c lo n : Nat) : CellMade c (cellAt s c) [] s (anvRead c lo n s) :=
  keptByConvs_cellMade.anvRead c lo n (cellMade_self h c)

theorem rowsDrained_made (h : Canon s) (c i a p : Nat) (kept : Bool) :
    CellMade c (cellAt (rowsDrained c i a p kept s) c) [] s (rowsDrained c i a p kept s) := (anvRead_made h ..).spWrites _

/-- A drain writes its rows and closes its chain; the rest is counts and checks. -/
theorem anvDrained_made (h : Canon s) (c i a p : Nat) (kept evalSeg hk : Bool) (issued : Nat) : CellMade c
    ((cellAt (rowsDrained c i a p kept s) c).withChain i { chainAt s c i with opened := false }) [] s
    (anvDrained c i a p kept evalSeg hk issued s) := by
  have hrows := rowsDrained_made h c i a p kept
  unfold anvDrained
  extract_lets ch u1 vals u2 u3 u4 u5
  have hu2 : rowsDrained c i a p kept s = u2 := rowsDrained_eq ..
  rw [hu2] at hrows ⊢
  clear_value u2
  have h3 : CellMade c (cellAt u2 c) [] s u3 := by
    unfold u3
    split
    · exact keptByConvs_cellMade.noteCheck _ _ _ hrows
    · exact hrows
  have h4 := h3.setChain i { ch with opened := false }
  split
  · exact keptByConvs_cellMade.bumpFld _ _ _ _ h4
  · refine keptByConvs_cellMade.noteConvs _ _ _ _ ?_
    unfold u5
    split
    · exact keptByConvs_cellMade.setBit _ _ h4
    · exact h4

/-- What closing an array leaves in a cell. -/
theorem closedCell_values {ch : Chain} {l : List Flight} {z t u : State} (h : Canon u) (ht : CellMade c ((cellAt u c).withChain i ch) l z t) :
    (∀ x n, spGet t c x n = spGet u c x n) ∧ chainAt t c i = ch := by
  refine ⟨fun x n => ?_, (ht.chainAt i).trans (get_put (cellCanon_at h c).chains)⟩
  rw [spGet, ht.here]
  rfl

/-- A row of an output array that has been drained. -/
theorem spGet_rowsDrained (h : Canon s) (hp : 128 ≤ p) (he : (chainAt s c i).elems.length = 4096) {k : Nat} (hk : k < 64) :
    spGet (rowsDrained c i a p kept s) c (a + k * p) 128 = rowBytesOf (drainedRow kept (chainAt s c i).elems k) := by
  have hmem : (a + k * p, rowBytesOf (drainedRow kept (chainAt s c i).elems k)) ∈ drainedRows a p kept (chainAt s c i).elems :=
    List.mem_map.2 ⟨k, List.mem_range.2 hk, rfl⟩
  have hrow := spGet_spWrites (c := c) (anvRead_made h c (4096 * (4 + i)) 4096).canon (drainedRows_apart hp he) hmem
  rw [drainedRow_bytes he hk] at hrow
  exact hrow

/-- Scratchpad outside the rows of a drain reads as before. -/
theorem spGet_rowsDrained_out (h : Canon s) (he : (chainAt s c i).elems.length = 4096) {x : Nat}
    (hx : ∀ k, k < 64 → x < a + k * p ∨ a + k * p + 128 ≤ x) : spGet (rowsDrained c i a p kept s) c x 1 = spGet s c x 1 := by
  have hout : ∀ r ∈ drainedRows a p kept (chainAt s c i).elems, Outside x r := by
    intro r hr
    obtain ⟨k, hk, rfl⟩ := List.mem_map.1 hr
    rw [List.mem_range] at hk
    unfold Outside
    rw [drainedRow_bytes he hk]
    exact hx k hk
  have hread := anvRead_made h c (4096 * (4 + i)) 4096
  have hbyte := spByte_spWrites_out (c := c) hread.canon hout
  rw [hread.here] at hbyte
  exact congrArg (fun b => [b]) hbyte

end

/-- Settles O9: a STAGE and a product word change their own cell, as their buffers and output array are filled and held, and put their checks
and drain in flight; the rows that a drain writes do not meet. -/
theorem anvilRuns : Obligations.AnvilRuns := by
  unfold Obligations.AnvilRuns
  refine ⟨?stage, ?product, ?drain⟩
  case stage =>
    intro w s hs ha s' c i f n e codes elems hport hbuf
    have hz : Canon s' := canon_atIssue (canon_iff.1 hs)
    have hx : exec (.stage w) s = .next (withQueue s.pending (stageAct w s')) := exec_acts rfl ha
    have hmade : CellMade c (stagedCell c w s') (stageFlights c w s') s' (stageAct w s') := stageAct_made hz hport hbuf
    clear_value s'
    obtain ⟨hfilled, hbufs, hchains, hheld, hsp⟩ := stagedCell_values hz hmade
    exact ⟨_, hx, hfilled, hbufs, hchains, hheld, hmade.other, hsp, hmade.dram, hmade.flights⟩
  case product =>
    intro acc w s hs ha s' c l r o ch wide e tid bo out hmac hleft hright hchain
    have hz : Canon s' := canon_atIssue (canon_iff.1 hs)
    have hx : exec (if acc then .gemmacc w else .gemm w) s = .next (withQueue s.pending (productAct acc w s')) := by
      cases acc
      case false => exact exec_acts rfl ha
      case true => exact exec_acts rfl ha
    obtain ⟨sat, hmade⟩ := productAct_made (acc := acc) hz hmac hleft hright hchain
    clear_value s'
    obtain ⟨harray, hchains, hl, hr, hheld, hsp⟩ := productCell_values hz hmade
    refine ⟨_, hx, congrArg Chain.elems harray, congrArg Chain.kb harray, congrArg Chain.tid harray, congrArg Chain.bo harray,
      congrArg Chain.opened harray, congrArg Chain.busy harray, hchains, congrArg AnvBuf.busy hl, congrArg AnvBuf.busy hr,
      (congrArg AnvBuf.elems hl).trans rfl, (congrArg AnvBuf.elems hr).trans rfl, hheld, hmade.other, hsp, hmade.dram, ?flights⟩
    case flights => exact hmade.flights.trans (List.append_assoc ..).symm
  case drain =>
    intro c i a p issued kept evalSeg hk s hs hp he t
    have hc : Canon s := canon_iff.1 hs
    have ht : t = anvDrained c i a p kept evalSeg hk issued s := rfl
    have hmade := anvDrained_made hc c i a p kept evalSeg hk issued
    rw [← ht] at hmade
    clear_value t
    obtain ⟨hrows, hclosed⟩ := closedCell_values (rowsDrained_made hc c i a p kept).canon hmade
    refine ⟨fun k hk => (hrows _ _).trans (spGet_rowsDrained hc hp he hk), ?closed, fun x hx => (hrows _ _).trans (spGet_rowsDrained_out hc he hx),
      hmade.other, hmade.dram, hmade.flights.trans (List.append_nil _)⟩
    case closed => rw [hclosed]

end Sys2Proof.Machine
end

section
/-! PROOFS. A BUR word of more than 2^20 beats, or of none (R183). -/
namespace Sys2Proof.Machine

section
variable {c : Instr} {head : BitVec 8} {w : Slot} {job : State → Slot → Option BurJob} {s : State}

/-- The words of the Burnisher other than UPDATE: unit and class, and what resolves them. -/
def BurClass (c : Instr) (head : BitVec 8) (w : Slot) (job : State → Slot → Option BurJob) : Prop :=
  c = .chain w ∧ head = 0x41 ∧ job = chainJob ∨ c = .permute w ∧ head = 0x42 ∧ job = permuteJob ∨
    c = .gather w ∧ head = 0x43 ∧ job = gatherJob ∨ c = .reduce w ∧ head = 0x44 ∧ job = reduceJob ∨
    c = .softmax w ∧ head = 0x45 ∧ job = softmaxJob

theorem BurClass.slotWord (h : BurClass c head w job) : slotWord c = some (head, w, burReady job w) := by
  obtain ⟨rfl, rfl, rfl⟩ | ⟨rfl, rfl, rfl⟩ | ⟨rfl, rfl, rfl⟩ | ⟨rfl, rfl, rfl⟩ | ⟨rfl, rfl, rfl⟩ := h <;> rfl

theorem BurClass.exec (h : BurClass c head w job) (s : State) : exec c s = served (burWord head job w) s := by
  obtain ⟨rfl, rfl, rfl⟩ | ⟨rfl, rfl, rfl⟩ | ⟨rfl, rfl, rfl⟩ | ⟨rfl, rfl, rfl⟩ | ⟨rfl, rfl, rfl⟩ := h <;> rfl

/-- A word whose operands are not defined is refused for its opcode, whatever else refuses it (R53). -/
theorem opcode_mem_refusals {ready : State → Bool} (h : ready (atIssue head w s) = false) : 9 ∈ refusals head w ready s := by
  simp [refusals, slotFaults, h]

theorem burReady_of_some {j : BurJob} (h : job s w = some j) :
    burReady job w s = (decide (1 ≤ j.beats) && decide (j.beats ≤ 2 ^ 20)) := by
  rw [burReady, h]
  rfl

end

/-- Settles O57: a count of beats outside the range leaves the word's operands undefined, and that refuses it whole. -/
theorem longWordRefused : Obligations.LongWordRefused := by
  unfold Obligations.LongWordRefused
  intro c head w s job j hc hs hr s' hj hlong
  have hclass : BurClass c head w job := hc
  have hready : burReady job w (atIssue head w s) = false := by
    rw [burReady_of_some hj, Bool.and_eq_false_iff, decide_eq_false_iff_not, decide_eq_false_iff_not]
    omega
  have hmem : 9 ∈ refusals head w (burReady job w) s := opcode_mem_refusals hready
  obtain ⟨t, hx, honly, hviol⟩ := refused_reports hclass.slotWord (canon_iff.1 hs) hr (List.ne_nil_of_mem hmem)
  exact ⟨t, hx, honly, hviol 9 hmem⟩

end Sys2Proof.Machine
end

section
/-! PROOFS. What the Burnisher's words share (R182, R194, R213): counts, reads of scalar registers, and the claim of their ticks. -/
namespace Sys2Proof.Machine

/-! ### Counts and scalar registers (R194, R213, R337) -/

/-- `P` says nothing of reports, nor of the registers of cells. -/
structure KeptByCellCounts (P : State → Prop) : Prop extends KeptByReports P where
  cell : ∀ {c off v : Nat} {s : State}, P s → P (Machine.wr (cellKey c off) v s)

theorem KeptByCounts.toKeptByCellCounts {P : State → Prop} (hP : KeptByCounts P) : KeptByCellCounts P := ⟨hP.toKeptByReports, fun h => hP.count h⟩

namespace KeptByCellCounts
variable {P : State → Prop} (hP : KeptByCellCounts P) {s : State}
include hP

theorem burCount (c n : Nat) (h : P s) : P (burCount c n s) := hP.cell (hP.cell h)

theorem sregRead (die cell : Nat) (regs : List Nat) (h : P s) : P (sregRead die cell regs s) :=
  each_inv P (fun _ _ _ h => by
    dsimp only
    split
    · exact h
    · exact hP.noteCorrected _ _ h
    · exact hP.taintCell _ _ _ _ h) h

end KeptByCellCounts

/-! ### The claim of ticks (R182) -/

/-- A cell whose Burnisher has `span` claimed, with the claims that are over at `now` forgotten. -/
def Cell.claimed (now : Nat) (span : Nat × Nat × Nat × Nat) (x : Cell) : Cell :=
  { x with burBusy := (x.burBusy.filter fun y => decide (now ≤ y.2.2.2)) ++ [span] }

theorem keepsForm_claimed (now : Nat) (span : Nat × Nat × Nat × Nat) : KeepsForm (Cell.claimed now span) := fun _ h => h.same

theorem mem_claimed (now : Nat) (span : Nat × Nat × Nat × Nat) (x : Cell) : span ∈ (x.claimed now span).burBusy :=
  List.mem_append_right _ (List.mem_singleton.2 rfl)

/-- Whether no claim that stands in a cell's Burnisher meets the read ticks r0 to r1 or the write ticks w0 to w1. -/
def spansFree (s : State) (c r0 r1 w0 w1 : Nat) : Bool :=
  (cellAt s c).burBusy.all fun x => decide (x.2.2.2 < now s) ||
    ((decide (x.2.1 < r0) || decide (r1 < x.1)) && (decide (x.2.2.2 < w0) || decide (w1 < x.2.2.1)))

/-- A word whose ticks are free claims them and runs. -/
theorem claimBur_free {c r0 r1 w0 w1 : Nat} {w : Slot} {body : State → State} {s : State} (h : spansFree s c r0 r1 w0 w1 = true) :
    claimBur c r0 r1 w0 w1 w body s = body (onCell c (Cell.claimed (now s) (r0, r1, w0, w1)) s) := by
  refine if_neg fun hmeets => ?_
  obtain ⟨x, hx, hmeet⟩ := List.any_eq_true.1 hmeets
  obtain ⟨hmem, hlive⟩ := List.mem_filter.1 hx
  have hfree := List.all_eq_true.1 h x hmem
  simp only [Bool.or_eq_true, Bool.and_eq_true, decide_eq_true_eq] at hmeet hlive hfree
  omega

/-! ### Operations put in flight -/

theorem CellMade.launches {α : Type} {c : Nat} {x : Cell} {l : List Flight} {z t : State} (h : CellMade c x l z t)
    (due : α → Nat) (e : α → Effect) (ps : List α) : CellMade c x (l ++ ps.map fun p => ⟨due p, e p⟩) z (each ps (fun p s => Machine.launch (due p) (e p) s) t) := by
  induction ps generalizing l t with
  | nil =>
    rw [List.map_nil, List.append_nil]
    exact h
  | cons p ps ih =>
    rw [List.map_cons, ← List.singleton_append, ← List.append_assoc]
    exact ih (h.launch (due p) (e p))

end Sys2Proof.Machine
end

section
/-! PROOFS. A BUR word other than UPDATE on its issue tick (R181, R182, R185, R208; log 13): its first beat, and what that completes. -/
namespace Sys2Proof.Machine

/-! ### A beat depends on the scratchpad of its cell alone -/

section
variable {s t : State} {j : BurJob}

theorem spGet_congr {c : Nat} (h : (cellAt t c).sp = (cellAt s c).sp) (a n : Nat) : spGet t c a n = spGet s c a n := by rw [spGet, spGet, h]

theorem elemOf_congr {c : Nat} (h : (cellAt t c).sp = (cellAt s c).sp) : elemOf t c = elemOf s c := by
  funext d i
  simp only [elemOf, spGet_congr h]

theorem beatRuns_congr (h : (cellAt t j.cell).sp = (cellAt s j.cell).sp) (q : Nat) : beatRuns t j q = beatRuns s j q := by
  simp only [beatRuns, runChain, runStage, operandOf, permuteLane, gatherLane, elemOf_congr h]

theorem readBeat_congr (h : (cellAt t j.cell).sp = (cellAt s j.cell).sp) (m : Nat) : readBeat t m j = readBeat s m j := by
  simp only [readBeat, elemOf_congr h]

end

/-! ### What a beat holds and completes -/

/-- The word after a beat: a source beat joins what it holds. -/
def afterBeat (s : State) (j : BurJob) : Beat → BurJob
  | .source m => readBeat s m j
  | .output _ => j

/-- What a beat completes, as output beats. -/
def beatOuts (s : State) (j : BurJob) : Beat → List (Nat × BurOut)
  | .source m => rowsDone (readBeat s m j) m
  | .output q => [(q, beatOut j q (beatRuns s j q))]

/-- The table elements that a beat reads (R209). -/
def beatKnots (s : State) (j : BurJob) : Beat → List Nat
  | .source _ => []
  | .output q => (beatRuns s j q).flatMap (·.2.2.knots)

/-- What beat `k` of a word puts in flight: the writes that it completes, and the next beat. -/
def beatFlights (s : State) (j : BurJob) (k : Nat) : List Flight :=
  ((beatOuts s j (j.beatAt k)).map fun p => ⟨j.writeAt p.1, .burWrite p.2⟩) ++
    if k + 1 < j.beats then [⟨j.start + k + 1, .bur (afterBeat s j (j.beatAt k)) (k + 1)⟩] else []

theorem burUnit_eq (s : State) (j : BurJob) (k : Nat) :
    burUnit j k s =
      let b := j.beatAt k
      let s := beatEcc j b s
      let u := each (beatOuts s j b) (fun p s => launch (j.writeAt p.1) (.burWrite p.2) s)
        (each (beatKnots s j b) (fun x s => eccRead j.cell 5 x s) s)
      if k + 1 < j.beats then launch (j.start + k + 1) (.bur (afterBeat s j b) (k + 1)) u else u := by
  unfold burUnit
  cases j.beatAt k <;> rfl

section
variable {s t : State} {j : BurJob}

theorem beatOuts_congr (h : (cellAt t j.cell).sp = (cellAt s j.cell).sp) (b : Beat) : beatOuts t j b = beatOuts s j b := by
  cases b with
  | source m => rw [beatOuts, beatOuts, readBeat_congr h]
  | output q => rw [beatOuts, beatOuts, beatRuns_congr h]

theorem afterBeat_congr (h : (cellAt t j.cell).sp = (cellAt s j.cell).sp) (b : Beat) : afterBeat t j b = afterBeat s j b := by
  cases b with
  | source m => exact readBeat_congr h m
  | output q => rfl

/-! ### The word -/

variable {w : Slot} {x : Cell} {l : List Flight} {z : State}

/-- A beat changes no memory of its cell; it puts in flight what it completes and the next beat. -/
theorem burUnit_made (h : CellMade j.cell x l z s) (k : Nat) : CellMade j.cell x (l ++ beatFlights s j k) z (burUnit j k s) := by
  have hread : CellMade j.cell x l z (beatEcc j (j.beatAt k) s) := by
    unfold beatEcc
    split
    · exact h
    · exact each_inv _ (fun _ _ _ hu => keptByConvs_cellMade.toKeptByTaints.spRead _ _ _ _ hu) h
  have hsp : (cellAt (beatEcc j (j.beatAt k) s) j.cell).sp = (cellAt s j.cell).sp := by rw [hread.here, h.here]
  rw [burUnit_eq, beatFlights, ← beatOuts_congr hsp, ← afterBeat_congr hsp, ← List.append_assoc]
  have hknots : CellMade j.cell x l z (each (beatKnots (beatEcc j (j.beatAt k) s) j (j.beatAt k)) (fun i u => eccRead j.cell 5 i u)
      (beatEcc j (j.beatAt k) s)) := each_inv _ (fun _ _ _ hu => keptByConvs_cellMade.eccRead _ _ _ hu) hread
  exact (hknots.launches (fun p : Nat × BurOut => j.writeAt p.1) (fun p => .burWrite p.2) _).launchIf _ _

/-- The write tick of a word's last beat. -/
def BurJob.lastWrite (j : BurJob) : Nat := j.writeAt (j.out.beats - 1)

/-- The read and write ticks that a word claims (R182). -/
def BurJob.span (j : BurJob) (s : State) : Nat × Nat × Nat × Nat := (now s, now s + j.beats - 1, j.writeAt 0, j.lastWrite)

/-- A cell whose table `n` a word writes until `e` (R208). -/
def Cell.withTableHeld (n e : Nat) (x : Cell) : Cell := { x with tableBusy := put (fun _ => 0) x.tableBusy n e }

theorem keepsForm_withTableHeld (n e : Nat) : KeepsForm (Cell.withTableHeld n e) := fun _ h => { h with tableBusy := wf_put h.tableBusy }

/-- The cell of a word that runs: its ticks are claimed, and the table that it writes is held. -/
def burCell (j : BurJob) (s : State) : Cell :=
  let x := (cellAt s j.cell).claimed (now s) (j.span s)
  if j.out.kind = 3 then x.withTableHeld j.out.base (max j.lastWrite (get (fun _ => 0) x.tableBusy j.out.base)) else x

theorem burCell_values (j : BurJob) (s : State) : j.span s ∈ (burCell j s).burBusy ∧ (burCell j s).sp = (cellAt s j.cell).sp := by
  have hspan := mem_claimed (now s) (j.span s) (cellAt s j.cell)
  unfold burCell
  split
  · exact ⟨hspan, rfl⟩
  · exact ⟨hspan, rfl⟩

/-- A word whose tables and ticks are free claims them and reads its first beat. -/
theorem burRun_made (h : Canon s) (htables : (namedTables j.prog).all (fun t => decide (get (fun _ => 0) (cellAt s j.cell).tableBusy t < now s)) = true)
    (hspans : spansFree s j.cell (now s) (now s + j.beats - 1) (j.writeAt 0) j.lastWrite = true) :
    CellMade j.cell (burCell j s) (beatFlights s j 0) s (burRun j w s) := by
  have hfree : ¬ ((namedTables j.prog).any fun t => decide (now s ≤ get (fun _ => 0) (cellAt s j.cell).tableBusy t)) = true := by
    intro hbusy
    obtain ⟨t, ht, hle⟩ := List.any_eq_true.1 hbusy
    have hlt := List.all_eq_true.1 htables t ht
    rw [decide_eq_true_eq] at hle hlt
    omega
  have hrun : burRun j w s = claimBur j.cell (now s) (now s + j.beats - 1) (j.writeAt 0) j.lastWrite w _ s := if_neg hfree
  rw [hrun, claimBur_free hspans]
  extract_lets u1 u2
  have h1 : CellMade j.cell ((cellAt s j.cell).claimed (now s) (j.span s)) [] s u1 :=
    keptByConvs_cellMade.toKeptByCellCounts.sregRead _ _ _ (keptByConvs_cellMade.toKeptByCellCounts.burCount _ _
      ((cellMade_self h j.cell).onCell (keepsForm_claimed _ _)))
  have h2 : CellMade j.cell (burCell j s) [] s u2 := by
    unfold u2 burCell
    split
    · exact h1.onCell (keepsForm_withTableHeld _ _)
    · exact h1
  have hsp : (cellAt u2 j.cell).sp = (cellAt s j.cell).sp := by
    rw [h2.here]
    exact (burCell_values j s).2
  have hflights : beatFlights u2 j 0 = beatFlights s j 0 := by
    rw [beatFlights, beatFlights, beatOuts_congr hsp, afterBeat_congr hsp]
  rw [← hflights]
  exact burUnit_made h2 0

end

end Sys2Proof.Machine
end

section
/-! PROOFS. UPDATE on its issue tick (R217, R222, R225, R226, R230, R234; log 13): its claim, its first gradient beat, and the ledger record of one
that is not applied. -/
namespace Sys2Proof.Machine

/-! ### What a ledger record depends on (R222, R230, R232) -/

/-- What a ledger record reads besides DRAM, and whether master writes are suppressed. -/
def ledgerView (s : State) := (s.casting, rd s Reg.SCH_STATUS, rd s Reg.SCH_VERSION, mastersOff s)

theorem rngStep_congr {s t : State} (hcast : t.casting = s.casting) (hstatus : rd t Reg.SCH_STATUS = rd s Reg.SCH_STATUS) (hdram : t.dram = s.dram) :
    rngStep t = rngStep s := by
  have hnat : ∀ a n, dramNat t a n = dramNat s a n := fun a n => by simp only [dramNat, dramGet, dramByte, markOf, hdram]
  simp only [rngStep, hasTable, castingLoaded, schState, fld, tableAddr, streamBytes, regionEntries, streamRegion, segEntries, resEntries, sectionOf,
    hnat, hcast, hstatus]

/-- From `z` to `t` cell `c` has become `x` and the operations `l` have been put in flight; what ledger records depend on has not changed. -/
structure LedgerMade (c : Nat) (x : Cell) (l : List Flight) (z t : State) : Prop extends CellMade c x l z t where
  ledger : ledgerView t = ledgerView z

section
variable {c : Nat} {x : Cell} {l : List Flight} {z t : State}

theorem ledgerMade_self (h : Canon z) (c : Nat) : LedgerMade c (cellAt z c) [] z z := ⟨cellMade_self h c, rfl⟩

namespace LedgerMade

theorem ledgerOnly (h : LedgerMade c x l z t) (j : UpdJob) (flags : Nat) : ledgerOnly t j flags = ledgerOnly z j flags := by
  have hcast : t.casting = z.casting := congrArg (fun v => v.1) h.ledger
  have hstatus : rd t Reg.SCH_STATUS = rd z Reg.SCH_STATUS := congrArg (fun v => v.2.1) h.ledger
  have hversion : rd t Reg.SCH_VERSION = rd z Reg.SCH_VERSION := congrArg (fun v => v.2.2.1) h.ledger
  simp only [Machine.ledgerOnly, rngStep_congr hcast hstatus h.dram, hversion]

theorem mastersOff (h : LedgerMade c x l z t) : mastersOff t = mastersOff z := congrArg (fun v => v.2.2.2) h.ledger

/-- A write of another register than SCH_STATUS and SCH_VERSION. -/
theorem wr (h : LedgerMade c x l z t) {k : Nat} (v : Nat) (hstatus : Reg.SCH_STATUS ≠ k) (hversion : Reg.SCH_VERSION ≠ k) :
    LedgerMade c x l z (wr k v t) where
  toCellMade := keptByConvs_cellMade.count h.toCellMade
  ledger := by
    rw [← h.ledger, ledgerView, rd_wr_ne h.canon.regs _ hstatus, rd_wr_ne h.canon.regs _ hversion]
    rfl

theorem wr_report (h : LedgerMade c x l z t) {k : Nat} (v : Nat) (hk : reportKey k = true) : LedgerMade c x l z (Machine.wr k v t) :=
  h.wr v (ne_of_key hk (by decide)).symm (ne_of_key hk (by decide)).symm

theorem onCell (h : LedgerMade c x l z t) {f : Cell → Cell} (hf : KeepsForm f) : LedgerMade c (f x) l z (onCell c f t) :=
  ⟨h.toCellMade.onCell hf, h.ledger⟩

theorem launch (h : LedgerMade c x l z t) (due : Nat) (e : Effect) : LedgerMade c x (l ++ [⟨due, e⟩]) z (launch due e t) :=
  ⟨h.toCellMade.launch due e, h.ledger⟩

end LedgerMade

theorem mastersOff_of_unmarked {s : State} {r : Run} (h : r.unmarked = s.run.unmarked) : mastersOff { s with run := r } = mastersOff s := by
  show (r.unmarked.suppressed && !r.unmarked.proceeds) = (s.run.unmarked.suppressed && !s.run.unmarked.proceeds)
  rw [h]

theorem keptByCellCounts_ledgerMade : KeptByCellCounts (LedgerMade c x l z) where
  wr hk h := h.wr_report _ (reportKey_of_recKey hk)
  side h := ⟨keptByConvs_cellMade.side h.toCellMade, h.ledger⟩
  tainted hk h := h.wr_report _ (reportKey_of_taintKey hk)
  marks {s _} hr h := ⟨keptByConvs_cellMade.marks hr h.toCellMade,
    (congrArg (fun off => (s.casting, rd s Reg.SCH_STATUS, rd s Reg.SCH_VERSION, off)) (mastersOff_of_unmarked hr)).trans h.ledger⟩
  report hk h := h.wr_report _ hk
  sent h := ⟨keptByConvs_cellMade.sent h.toCellMade, h.ledger⟩
  cell {c off _ _} h := h.wr _ (Nat.ne_of_lt (Nat.lt_of_lt_of_le (by decide) (cellKey_gt c off)))
    (Nat.ne_of_lt (Nat.lt_of_lt_of_le (by decide) (cellKey_gt c off)))

end

/-! ### A gradient record in capture ring 63 (R234) -/

/-- From `z` to `t` the operations `l` have been put in flight; cell `c` has become `y`, with what a gradient record may change of it where `cap`
says so: its scratchpad and its rings. -/
def CapMade (cap : Bool) (c : Nat) (y : Cell) (l : List Flight) (z t : State) : Prop :=
  ∃ x, x.burBusy = y.burBusy ∧ (cap = false → x.sp = y.sp) ∧ LedgerMade c x l z t

section
variable {cap : Bool} {c die unit n r : Nat} {w : Slot} {data : List Byte} {y : Cell} {l : List Flight} {z t : State}

theorem LedgerMade.toCapMade (h : LedgerMade c y l z t) (cap : Bool) : CapMade cap c y l z t := ⟨y, rfl, fun _ => rfl, h⟩

namespace CapMade

theorem launch (h : CapMade cap c y l z t) (due : Nat) (e : Effect) : CapMade cap c y (l ++ [⟨due, e⟩]) z (launch due e t) := by
  obtain ⟨x, hbusy, hsp, hx⟩ := h
  exact ⟨x, hbusy, hsp, hx.launch due e⟩

theorem onCell (h : CapMade true c y l z t) {f : Cell → Cell} (hf : KeepsForm f) (hb : ∀ x, (f x).burBusy = x.burBusy) :
    CapMade true c y l z (onCell c f t) := by
  obtain ⟨x, hbusy, -, hx⟩ := h
  exact ⟨f x, (hb x).trans hbusy, fun e => absurd e (by decide), hx.onCell hf⟩

theorem wordViol (h : CapMade cap c y l z t) (bit : Nat) : CapMade cap c y l z (wordViol bit unit w t) := by
  obtain ⟨x, hbusy, hsp, hx⟩ := h
  exact ⟨x, hbusy, hsp, keptByCellCounts_ledgerMade.viol _ _ _ _ hx⟩

theorem ringAdd (h : CapMade true c y l z t) : CapMade true c y l z (ringAdd die c r n unit w t) := by
  unfold Machine.ringAdd
  extract_lets v s1
  have h1 : CapMade true c y l z s1 := h.onCell (fun _ hx => { hx with ringBytes := wf_put hx.ringBytes }) fun _ => rfl
  split
  · exact h1.wordViol _
  · exact h1

theorem capOccupy (h : CapMade true c y l z t) : CapMade true c y l z (capOccupy die c unit n w t) := by
  unfold Machine.capOccupy
  exact CapMade.ringAdd (CapMade.onCell h (fun _ hx => hx.same) fun _ => rfl)

theorem spPut (h : CapMade true c y l z t) (a : Nat) : CapMade true c y l z (spPut c a data t) :=
  h.onCell (fun _ hx => { hx with
    sp := wf_putBytes hx.sp
    spBad := by
      dsimp only
      exact wf_forget hx.spBad }) fun _ => rfl

theorem capRecordPut (h : CapMade true c y l z t) : CapMade true c y l z (capRecordPut die c unit w data t) := by
  unfold Machine.capRecordPut
  split
  · exact h
  · exact (each_inv _ (fun _ _ _ hu => hu.spPut _) h).capOccupy

end CapMade

end

/-! ### The word -/

section
variable {w : Slot} {s t : State} {j : UpdJob} {c : Nat} {x y : Cell} {l : List Flight} {z : State}

theorem beatCodes_congr (h : (cellAt t c).sp = (cellAt s c).sp) (addr fmt b : Nat) : beatCodes t c addr fmt b = beatCodes s c addr fmt b := by
  simp only [beatCodes, blockCode, spGet_congr h]

/-- An UPDATE that has read its first gradient beat, with the codes `codes`, waits for the second. -/
def updateBegun (j : UpdJob) (codes : List Nat) : Flight := ⟨j.start + 1, .update { j with read := codes } 1⟩

/-- An UPDATE begins with the first beat of its gradient. -/
theorem updateRun_zero (h : LedgerMade j.cell x l z t) : ∃ codes, (x.sp = (cellAt z j.cell).sp → codes = beatCodes z j.cell j.gAddr j.gFmt 0) ∧
    LedgerMade j.cell x (l ++ [updateBegun j codes]) z (updateRun j 0 t) := by
  have hread : LedgerMade j.cell x l z (beatRead j.cell j.gAddr j.gFmt 0 t) := keptByCellCounts_ledgerMade.toKeptByTaints.spRead _ _ _ _ h
  refine ⟨beatCodes (beatRead j.cell j.gAddr j.gFmt 0 t) j.cell j.gAddr j.gFmt 0, fun hsp => beatCodes_congr ?_ _ _ _, hread.launch _ _⟩
  rw [hread.here, hsp]

/-- The read and write ticks that an UPDATE claims (R225). -/
def updateSpan (s : State) : Nat × Nat × Nat × Nat := (now s, now s + 3071, now s + 2087, now s + 3110)

/-- The cell of an UPDATE whose ticks are claimed. -/
def updateCell (j : UpdJob) (s : State) : Cell := (cellAt s j.cell).claimed (now s) (updateSpan s)

/-- The ledger record of an UPDATE that is not applied (R222, R230). -/
def ledgerFlight (j : UpdJob) (s : State) (flags : Nat) : Flight := ⟨now s + 3110, .sp j.cell (j.rec_ + 0x40) (ledgerOnly s j flags)⟩

/-- The exception of an UPDATE whose hyperparameters lie outside their ranges (R226). -/
def unfitFlight (j : UpdJob) (s : State) : Flight := ⟨now s + 2087, .burWrite { j.empty with excs := [(2, 0, 0)] }⟩

/-- The state of an UPDATE that has claimed its ticks, is counted and has read its scalar registers. -/
def updateClaimed (j : UpdJob) (s : State) : State :=
  let u := onCell j.cell (Cell.claimed (now s) (updateSpan s)) s
  sregRead j.die j.lcell ((List.range 7).map (leNat (spGet u j.cell (j.rec_ + 38) 1) + ·)) (burCount j.cell 3072 u)

theorem updateClaimed_made (h : Canon s) (j : UpdJob) : LedgerMade j.cell (updateCell j s) [] s (updateClaimed j s) :=
  keptByCellCounts_ledgerMade.sregRead _ _ _ (keptByCellCounts_ledgerMade.burCount _ _ ((ledgerMade_self h j.cell).onCell (keepsForm_claimed _ _)))

/-- The state in which an UPDATE that is not suppressed begins: its violation is raised and its gradient record captured. -/
def updateCaptured (w : Slot) (j : UpdJob) (s : State) : State :=
  let u := if updateVersionBad s w then wordViol 3 4 w s else s
  if flagOf w 2 then capRecordPut j.die j.cell 4 w (gradientRecord u j) u else u

theorem updateCaptured_made (h : LedgerMade j.cell y l z t) : CapMade (flagOf w 2) j.cell y l z (updateCaptured w j t) := by
  unfold updateCaptured
  extract_lets u
  have hu : LedgerMade j.cell y l z u := by
    unfold u
    split
    · exact keptByCellCounts_ledgerMade.viol _ _ _ _ h
    · exact h
  split
  next hcap =>
    rw [hcap]
    exact (hu.toCapMade true).capRecordPut
  next => exact hu.toCapMade _

/-- An UPDATE whose ticks are free, by what the veto point and its hyperparameters say. -/
theorem updateAct_free (hj : updateJob s w = some j) (hspans : spansFree s j.cell (now s) (now s + 3071) (now s + 2087) (now s + 3110) = true) :
    updateAct w s =
      let u := updateClaimed j s
      let v := updateCaptured w j u
      if mastersOff u then
        let v := if flagOf w 2 then capOccupy j.die j.cell 4 2049 w u else u
        launch (now s + 3110) (.sp j.cell (j.rec_ + 0x40) (ledgerOnly v j 0)) v
      else if hypOk j.hyp then updateRun j 0 v
      else launch (now s + 2087) (.burWrite { j.empty with excs := [(2, 0, 0)] })
        (launch (now s + 3110) (.sp j.cell (j.rec_ + 0x40) (ledgerOnly v j 4)) v) := by
  unfold updateAct
  rw [hj]
  exact claimBur_free hspans

variable (h : Canon s) (hj : updateJob s w = some j)
  (hspans : spansFree s j.cell (now s) (now s + 3071) (now s + 2087) (now s + 3110) = true)
include h hj hspans

/-- A suppressed UPDATE writes its ledger record alone. -/
theorem updateAct_suppressed (hoff : mastersOff s = true) :
    CapMade (flagOf w 2) j.cell (updateCell j s) [ledgerFlight j s 0] s (updateAct w s) := by
  have hu := updateClaimed_made h j
  rw [updateAct_free hj hspans]
  extract_lets u v v1
  rw [if_pos (hu.mastersOff.trans hoff)]
  have hv : CapMade (flagOf w 2) j.cell (updateCell j s) [] s v1 := by
    unfold v1
    split
    next hcap =>
      rw [hcap]
      exact (hu.toCapMade true).capOccupy
    next => exact hu.toCapMade _
  have hledger : ledgerOnly v1 j 0 = ledgerOnly s j 0 := by
    obtain ⟨_, _, _, hx⟩ := hv
    exact hx.ledgerOnly j 0
  rw [hledger]
  exact hv.launch _ _

/-- An UPDATE whose hyperparameters lie outside their ranges is an exception, with the ledger flagged. -/
theorem updateAct_unfit (hoff : mastersOff s = false) (hhyp : hypOk j.hyp = false) :
    CapMade (flagOf w 2) j.cell (updateCell j s) [ledgerFlight j s 4, unfitFlight j s] s (updateAct w s) := by
  have hu := updateClaimed_made h j
  rw [updateAct_free hj hspans]
  extract_lets u v
  rw [if_neg (Bool.eq_false_iff.1 (hu.mastersOff.trans hoff)), if_neg (Bool.eq_false_iff.1 hhyp)]
  have hv : CapMade (flagOf w 2) j.cell (updateCell j s) [] s v := updateCaptured_made hu
  have hledger : ledgerOnly v j 4 = ledgerOnly s j 4 := by
    obtain ⟨_, _, _, hx⟩ := hv
    exact hx.ledgerOnly j 4
  rw [hledger]
  exact (hv.launch _ _).launch _ _

/-- Another UPDATE begins: it reads its first gradient beat. -/
theorem updateAct_begins (hoff : mastersOff s = false) (hhyp : hypOk j.hyp = true) :
    ∃ codes, (flagOf w 2 = false → codes = beatCodes s j.cell j.gAddr j.gFmt 0) ∧
      CapMade (flagOf w 2) j.cell (updateCell j s) [updateBegun j codes] s (updateAct w s) := by
  have hu := updateClaimed_made h j
  rw [updateAct_free hj hspans]
  extract_lets u v
  rw [if_neg (Bool.eq_false_iff.1 (hu.mastersOff.trans hoff)), if_pos hhyp]
  obtain ⟨x, hbusy, hsp, hx⟩ : CapMade (flagOf w 2) j.cell (updateCell j s) [] s v := updateCaptured_made hu
  obtain ⟨codes, hcodes, hbegun⟩ := updateRun_zero hx
  exact ⟨codes, fun hcap => hcodes (hsp hcap), x, hbusy, hsp, hbegun⟩

end

/-- What an UPDATE leaves besides what it puts in flight: its claim, other cells, DRAM, and without capture its scratchpad. -/
theorem capMade_updateCell {cap : Bool} {j : UpdJob} {l : List Flight} {s t : State} (h : CapMade cap j.cell (updateCell j s) l s t) :
    updateSpan s ∈ (cellAt t j.cell).burBusy ∧ (cap = false → (cellAt t j.cell).sp = (cellAt s j.cell).sp) ∧
    (∀ b, b ≠ j.cell → cellAt t b = cellAt s b) ∧ t.dram = s.dram ∧ t.flights = s.flights ++ l := by
  obtain ⟨x, hbusy, hsp, hx⟩ := h
  rw [hx.here, hbusy]
  exact ⟨mem_claimed .., hsp, hx.other, hx.dram, hx.flights⟩

/-- Settles O12: a word whose ticks are free claims them; its first beat reads what stands in scratchpad, and a ledger record says what it would
have said at the issue tick. -/
theorem burnisherRuns : Obligations.BurnisherRuns := by
  unfold Obligations.BurnisherRuns
  refine ⟨?word, ?update⟩
  case word =>
    intro c head w s job j hc hs ha s' last b j' outs hj htables hspans
    have hclass : BurClass c head w job := hc
    have hx : exec c s = .next (withQueue s.pending (burAct job w s')) := exec_acts (hclass.exec s) ha
    have hact : burAct job w s' = burRun j w s' := by rw [burAct, hj]
    have hmade : CellMade j.cell (burCell j s') (beatFlights s' j 0) s' (burAct job w s') := by
      rw [hact]
      exact burRun_made (canon_atIssue (canon_iff.1 hs)) htables hspans
    obtain ⟨hspan, hsp⟩ := burCell_values j s'
    have hafter : afterBeat s' j b = j' := by
      unfold j'
      cases b <;> rfl
    have houts : beatOuts s' j b = outs := by
      unfold outs j'
      cases b <;> rfl
    have hflights := hmade.flights
    rw [beatFlights, ← List.append_assoc, hafter, houts] at hflights
    rw [← hmade.here] at hspan hsp
    exact ⟨_, hx, hspan, hflights, hsp, hmade.other, hmade.dram⟩
  case update =>
    intro w s j hs ha s' hj hspans
    have hc : Canon s' := canon_atIssue (canon_iff.1 hs)
    have hx : exec (.update w) s = .next (withQueue s.pending (updateAct w s')) := exec_acts rfl ha
    clear_value s'
    cases hoff : mastersOff s' with
    | true =>
      obtain ⟨hspan, hsp, hother, hdram, hflights⟩ := capMade_updateCell (updateAct_suppressed hc hj hspans hoff)
      exact ⟨_, hx, hspan, nofun, fun _ => hflights, nofun, hsp, hother, hdram⟩
    | false =>
      cases hhyp : hypOk j.hyp with
      | true =>
        obtain ⟨codes, hcodes, hmade⟩ := updateAct_begins hc hj hspans hoff hhyp
        obtain ⟨hspan, hsp, hother, hdram, hflights⟩ := capMade_updateCell hmade
        refine ⟨_, hx, hspan, fun _ _ hcap => ?begun, nofun, fun _ => nofun, hsp, hother, hdram⟩
        case begun =>
          rw [hcodes hcap] at hflights
          exact hflights
      | false =>
        obtain ⟨hspan, hsp, hother, hdram, hflights⟩ := capMade_updateCell (updateAct_unfit hc hj hspans hoff hhyp)
        exact ⟨_, hx, hspan, fun _ => nofun, nofun, fun _ _ => hflights, hsp, hother, hdram⟩

end Sys2Proof.Machine
end
